-- ==== Sys2Proof/Word.lean ====
section
/-!
DEFINITION. The word types of the SZ10 (R7, R52): bytes, 64-bit words, 512-bit vectors and 16-bit status codes, with the
plainest readings of their bits.
-/
namespace Sys2Proof

/-- One byte of memory. -/
abbrev Byte := BitVec 8

/-- A 64-bit word: a scalar register, a fabric address, a register of the module. -/
abbrev Word := BitVec 64

/-- A 512-bit vector register (R52). -/
abbrev Vec := BitVec 512

/-- A 16-bit status code (R12). -/
abbrev Status := BitVec 16

end Sys2Proof
end

