-- ==== Sys2Proof/Operand.lean ====
section
/-!
DEFINITION. The operands of the commands: the fields of the instruction word formats (R61, R64 to R66) and the names an
event's operands come from.
-/
namespace Sys2Proof

/-- A physical core number (R24). -/
abbrev CoreId := Fin 10368

/-- A hardware thread of a core (R51). -/
abbrev ThreadId := Fin 8

/-- A DMA channel's number: bulk channel c of parcel p is p × 32 + c, core channel c of core n is 256 + 2 × n + c (R359). -/
abbrev DmaUnit := Fin 20992

/-- Who waits for a lookup that HOLD holds (R412, R414): a thread's word, a request of a DMA channel, or a read of a host window. -/
inductive TxAgent where
  | thread (c : CoreId) (t : ThreadId)
  | dma (u : DmaUnit) (id : Nat)
  | window (f : Fin 64) (o : BitVec 36) (n : Fin 4097)
  deriving DecidableEq, Repr

/-- The agent of a request (R116, R279): its world and level, the plot and epoch its request carries, and its core and thread
where it is a thread of this module. -/
structure Agent where
  keeper : Bool
  sup : Bool
  plot : Fin 64
  epoch : BitVec 8
  core : Option CoreId
  thread : Option ThreadId
  deriving DecidableEq, Repr

/-- A Pot contribution on its way (R279, R311, R317): destination address, form (0 exact, 1 tagged, 2 fast), tree node (k, i),
contribution count, N − 1, plot, epoch and partial, with the transaction tags of the contributors it holds (R316). -/
structure PotPart where
  dest : Word
  form : Fin 3
  k : Fin 21
  i : Nat
  count : Nat
  last : Nat
  plot : Nat
  epoch : Nat
  payload : Vec
  tags : List Nat
  deriving DecidableEq, Repr

/-- The operation of a packet (R279). -/
inductive PktOp where
  | read | write | atomic | fullEmpty | writeFinal | pot | notify | reply | ack
  deriving DecidableEq, Repr

/-- Who injects a packet, by whom its class is chosen (R285): a thread of a core, a host request of a queue, or an agent whose descriptor, header or
causing packet gives the class. -/
inductive Injector where
  | thread (c : CoreId) (t : ThreadId)
  | host (q : Fin 16384)
  | given (cls : Fin 4)
  deriving DecidableEq, Repr

/-- What a Deal carries (R304): a write of 1 to 240 bytes, an STF with its release scope, or a wake notify. -/
inductive DealBody where
  | write (len : Fin 241) (data : Nat)
  | setFull (rel : Bool) (scope : Fin 4) (data : Word)
  | notify (mask : BitVec 8)
  deriving DecidableEq, Repr

/-- A Deal (R304, R305): its target word and what it carries; `only` is the position that a copy sent alone goes to (R306, R308). -/
structure Deal where
  target : Word
  body : DealBody
  only : Option CoreId
  deriving DecidableEq, Repr

/-- A packet in the Trellis (R278, R279): its header, and its payload's length. The source is the injecting router and the port it entered by, the
destination a router and the port it leaves by there: 4 local, 5 attachment, 6 service. `id` tells packets of the model apart.
(DESIGN CHOICE: notes/assumptions/50.md.) -/
structure Packet where
  id : Nat
  source : CoreId
  entry : Fin 7
  dx : Fin 144
  dy : Fin 72
  port : Fin 7
  addr : Word
  op : PktOp
  by_ : Injector
  cls : Fin 4
  keeper : Bool
  sup : Bool
  plot : Fin 64
  epoch : BitVec 8
  tag : Nat
  len : Fin 241
  deal : Option Deal
  pot : Option PotPart
  deriving DecidableEq, Repr

/-- A packet of the response lane (R281). -/
def Packet.resp (p : Packet) : Bool := p.op = .reply || p.op = .ack || p.op = .notify

/-- The flits of a packet: the head flit takes 48 bytes of payload, each further one 64 (R278). -/
def Packet.flits (p : Packet) : Nat := 1 + (p.len.val - 48 + 63) / 64

/-- The fields A, B, C and G of a word of format LR (R61). -/
structure LR where
  g : BitVec 4
  a : BitVec 5
  b : BitVec 5
  c : BitVec 5
  deriving DecidableEq, Repr

/-- The fields of a word of format LI (R61). -/
structure LI where
  a : BitVec 5
  b : BitVec 5
  imm : BitVec 15
  deriving DecidableEq, Repr

/-- The fields of a word of format LU (R61). -/
structure LU where
  a : BitVec 5
  imm : BitVec 20
  deriving DecidableEq, Repr

/-- The fields of a word of format LB (R61): the offset counts words and is signed. -/
structure LB where
  g : BitVec 4
  off : BitVec 21
  deriving DecidableEq, Repr

/-- The fields of a word of format LL (R61). -/
structure LL where
  lvl : BitVec 2
  i : Bool
  cnt : BitVec 10
  stop : BitVec 12
  deriving DecidableEq, Repr

/-- Bitwise operations of R210 and R212. -/
inductive LogicOp where
  | and | or | xor | andn
  deriving DecidableEq, Repr

/-- Shifts of R210. -/
inductive ShiftOp where
  | shl | shr | sar
  deriving DecidableEq, Repr

/-- Relations of the register compare (R212). -/
inductive Rel where
  | eq | ne | lt | ge | ltu | geu
  deriving DecidableEq, Repr

/-- Immediate logic of R213. -/
inductive ImmOp where
  | andi | ori | xori
  deriving DecidableEq, Repr

/-- Sizes of the mailbox-directed loads LD.M, LDW.M and LDB.M (R216). -/
inductive MbSize where
  | d | w | b
  deriving DecidableEq, Repr

/-- The class of register that TSET writes, its FN 0x08 to 0x0C (R225). -/
inductive TsetClass where
  | scalar | pred | loop | sreg0 | sreg2
  deriving DecidableEq, Repr

/-- VMOV, VSEL, VBCAST and VINS (R142, R228). -/
inductive VMoveOp where
  | mov | sel | bcast | ins
  deriving DecidableEq, Repr

/-- A PTP event message at a port (R455): Sync or Follow_Up with its correctionField and, for each port that may forward it, the time
in 2^-16 ns that it stays in the module; a completed link delay measurement in ps; or another. -/
inductive PtpMsg where
  | timed (corr : Word) (stay : List (Fin 32 × Word))
  | delay (ps : BitVec 32)
  | other
  deriving DecidableEq, Repr

/-- What a Keeper control message says (R440, R574, R648, R673, R674, R681): its payload's format is the Keepers' own. A proposed partner is asked with
the sender's rack and feed IDs and the override flag, and answers with its own and the outcome; a rack ID has changed; a record of a module and
plot is asked for. -/
inductive KctlMsg where
  | teardown (plot : Fin 64) (epoch : BitVec 8)
  | model (plot : Fin 64) (desc : BitVec 2560)
  | partnerAsk (rack : BitVec 16) (feed : BitVec 4) (override : Bool)
  | partnerAnswer (rack : BitVec 16) (feed : BitVec 4) (code : BitVec 16)
  | rackMoved (rack : BitVec 16)
  | record (owner : BitVec 16)
  | other
  deriving DecidableEq, Repr

/-- The readings of an island's path-delay monitors in a slice (R624, R625), as the Keeper tabulates them: the slack in picoseconds for each set point from
0.60 V up in steps of 2.5 mV and, within it, for each step from 32 up. (DESIGN CHOICE: notes/assumptions/108.md.) -/
abbrev Slice := List (List (BitVec 16))

/-- What a block's latent-fault test does next (R613): it is chosen and its cores drain, its core islands are fenced, or it ends with the cores and routers
that failed and the slices measured in its islands (R611, R625). -/
inductive TestStep where
  | start | fence
  | finish (badCores badRouters : List CoreId) (slices : List (Fin 90 × Slice))
  deriving DecidableEq, Repr

/-- An engine that the Keeper finds hung, with what its condition needs beside the state (R650): a core, a plot whose stalemate has or has not a wake
source outside its cores, a router with the plots of the packets held in it, an HBM stack with the plots of the accesses queued at it, and a port with
those of the requests outstanding through it. -/
inductive HangEngine where
  | core (c : CoreId)
  | plot (n : Fin 64) (outside : Bool)
  | router (n : CoreId) (held : List (Fin 64))
  | stack (p : Fin 8) (queued : List (Fin 64))
  | port (m : Fin 32) (waiting : List (Fin 64))
  deriving DecidableEq, Repr

/-- A unit of a crash dump (R662): its KIND and its number among its kind. -/
structure DumpUnit where
  kind : Fin 9
  num : Nat
  deriving DecidableEq, Repr

/-- The management paths (R701). -/
inductive MgmtPath where
  | smbus | i3c | vdm | doe | mgmtPort | fabric
  deriving DecidableEq, Repr

/-- Where a management request comes from: its path, its sender's address, the SEQ of the KMP datagram that carries it, if one does (R704), and
the SPDM session that it comes in, if it does. -/
structure MgmtSrc where
  path : MgmtPath
  addr : Nat
  seq : Option (BitVec 32)
  session : Option Nat
  deriving DecidableEq, Repr

/-- MCTP control requests (R702). -/
inductive MctpReq where
  | setEid (eid : BitVec 8)
  | getEid | versions | types | uuid
  | setUnit (n : Nat)
  | other
  deriving DecidableEq, Repr

/-- What asks for an address of a port (R426, R703): an ARP request, an IPv6 neighbour solicitation, or an ICMP echo with its payload. -/
inductive AddrReq where
  | arp (ip : BitVec 32)
  | neighbour (ip : BitVec 128)
  | echo (data : List (BitVec 8))
  deriving DecidableEq, Repr

/-- A register of a thread, as a debugger names it (R52, R739). -/
inductive DbgReg where
  | scalar (n : Fin 32)
  | vector (n : Fin 16)
  | predicate (n : Fin 8)
  | loop (n : Fin 4)
  | mailbox (n : Fin 4)
  | state (num : Fin 1024)
  deriving DecidableEq, Repr

/-- What DBG_ACCESS reaches (R733): n bytes at a fabric address, or a register of a thread. -/
inductive DbgTarget where
  | memory (a : BitVec 64) (n : Fin 65)
  | register (c : CoreId) (t : ThreadId) (r : DbgReg)
  deriving DecidableEq, Repr

/-- SPDM requests (R711): `finish` ends a key exchange of a session and gives the digest of the root that the requester's chain leads to, where it
authenticated and its signature verified. -/
inductive SpdmReq where
  | version | capabilities | algorithms | digests
  | certificate (slot : Fin 8)
  | challenge (slot : Fin 8)
  | measurements (index : BitVec 8)
  | keyExchange (session : Nat)
  | finish (session : Nat) (root : Option (List (BitVec 8)))
  | setCertificate (slot : Fin 8) (chain : List (BitVec 8))
  | heartbeat (session : Nat)
  | keyUpdate (session : Nat)
  | endSession (session : Nat)
  | psk
  deriving DecidableEq, Repr

end Sys2Proof
end

