-- ==== Sys2Proof/Syntax.lean ====
section
/-!
DEFINITION. The commands of the SZ10, one constructor for each row of spec/opcode_table.json, in the table's order.
A core instruction names its core (the physical number of R24), its thread and the fields of its word (R61); an event
names the unit it happens at and what the outside world supplies with it.
-/
namespace Sys2Proof

/-- A command of the module. -/
inductive Instr where
  | intAddSub (c : CoreId) (t : ThreadId) (sub : Bool) (w : LR)
  | intLogic (c : CoreId) (t : ThreadId) (op : LogicOp) (w : LR)
  | intShift (c : CoreId) (t : ThreadId) (op : ShiftOp) (w : LR)
  | mul (c : CoreId) (t : ThreadId) (w : LR)
  | mulh (c : CoreId) (t : ThreadId) (unsigned : Bool) (w : LR)
  | div (c : CoreId) (t : ThreadId) (unsigned : Bool) (w : LR)
  | rem (c : CoreId) (t : ThreadId) (unsigned : Bool) (w : LR)
  | cmp (c : CoreId) (t : ThreadId) (rel : Rel) (w : LR)
  | predLogic (c : CoreId) (t : ThreadId) (op : LogicOp) (w : LR)
  | pnot (c : CoreId) (t : ThreadId) (w : LR)
  | pset (c : CoreId) (t : ThreadId) (w : LR)
  | addi (c : CoreId) (t : ThreadId) (w : LI)
  | logicImm (c : CoreId) (t : ThreadId) (op : ImmOp) (w : LI)
  | shiftImm (c : CoreId) (t : ThreadId) (w : LI)
  | cmpImm (c : CoreId) (t : ThreadId) (w : LI)
  | lui (c : CoreId) (t : ThreadId) (w : LU)
  | luh (c : CoreId) (t : ThreadId) (w : LU)
  | ld (c : CoreId) (t : ThreadId) (w : LI)
  | ldw (c : CoreId) (t : ThreadId) (w : LI)
  | ldb (c : CoreId) (t : ThreadId) (w : LI)
  | st (c : CoreId) (t : ThreadId) (w : LI)
  | stw (c : CoreId) (t : ThreadId) (w : LI)
  | stb (c : CoreId) (t : ThreadId) (w : LI)
  | aadd (c : CoreId) (t : ThreadId) (m : Bool) (w : LR)
  | amin (c : CoreId) (t : ThreadId) (m : Bool) (w : LR)
  | amax (c : CoreId) (t : ThreadId) (m : Bool) (w : LR)
  | aswap (c : CoreId) (t : ThreadId) (m : Bool) (w : LR)
  | acas (c : CoreId) (t : ThreadId) (m : Bool) (w : LR)
  | ldfe (c : CoreId) (t : ThreadId) (m : Bool) (w : LR)
  | ldff (c : CoreId) (t : ThreadId) (m : Bool) (w : LR)
  | stfe (c : CoreId) (t : ThreadId) (w : LR)
  | stf (c : CoreId) (t : ThreadId) (w : LR)
  | sete (c : CoreId) (t : ThreadId) (w : LR)
  | mbLoad (c : CoreId) (t : ThreadId) (sz : MbSize) (w : LR)
  | paddX (c : CoreId) (t : ThreadId) (w : LR)
  | paddT (c : CoreId) (t : ThreadId) (w : LR)
  | paddF (c : CoreId) (t : ThreadId) (w : LR)
  | wrf (c : CoreId) (t : ThreadId) (w : LR)
  | mbrd (c : CoreId) (t : ThreadId) (w : LR)
  | mbtst (c : CoreId) (t : ThreadId) (w : LR)
  | mbwait (c : CoreId) (t : ThreadId) (w : LR)
  | mbset (c : CoreId) (t : ThreadId) (w : LR)
  | cflush (c : CoreId) (t : ThreadId) (w : LR)
  | cinv (c : CoreId) (t : ThreadId) (w : LR)
  | cflinv (c : CoreId) (t : ThreadId) (w : LR)
  | cinvAll (c : CoreId) (t : ThreadId) (w : LR)
  | preload (c : CoreId) (t : ThreadId) (w : LR)
  | clock (c : CoreId) (t : ThreadId) (w : LR)
  | cunlock (c : CoreId) (t : ThreadId) (w : LR)
  | pref (c : CoreId) (t : ThreadId) (w : LR)
  | b (c : CoreId) (t : ThreadId) (w : LB)
  | call (c : CoreId) (t : ThreadId) (w : LB)
  | jr (c : CoreId) (t : ThreadId) (w : LR)
  | callr (c : CoreId) (t : ThreadId) (w : LR)
  | ret (c : CoreId) (t : ThreadId) (w : LR)
  | loop (c : CoreId) (t : ThreadId) (w : LL)
  | gets (c : CoreId) (t : ThreadId) (w : LI)
  | sets (c : CoreId) (t : ThreadId) (w : LI)
  | trap (c : CoreId) (t : ThreadId) (w : LR)
  | rfe (c : CoreId) (t : ThreadId) (w : LR)
  | isync (c : CoreId) (t : ThreadId) (w : LR)
  | setm (c : CoreId) (t : ThreadId) (w : LR)
  | tstart (c : CoreId) (t : ThreadId) (w : LR)
  | tstop (c : CoreId) (t : ThreadId) (w : LR)
  | tset (c : CoreId) (t : ThreadId) (cls : TsetClass) (w : LR)
  | lcrd (c : CoreId) (t : ThreadId) (w : LR)
  | lcwr (c : CoreId) (t : ThreadId) (w : LR)
  | rspill (c : CoreId) (t : ThreadId) (w : LR)
  | rsfill (c : CoreId) (t : ThreadId) (w : LR)
  | sleep (c : CoreId) (t : ThreadId) (w : LR)
  | waitf (c : CoreId) (t : ThreadId) (w : LR)
  | waken (c : CoreId) (t : ThreadId) (w : LR)
  | fence (c : CoreId) (t : ThreadId) (w : LR)
  | pairIssue (c : CoreId) (t : ThreadId) (word : BitVec 32)
  | vintArith (c : CoreId) (t : ThreadId) (op ty : BitVec 3) (w : LR)
  | vlogic (c : CoreId) (t : ThreadId) (op ty : BitVec 3) (w : LR)
  | vfloat (c : CoreId) (t : ThreadId) (op ty : BitVec 3) (w : LR)
  | vcmp (c : CoreId) (t : ThreadId) (op ty : BitVec 3) (w : LR)
  | vanyVall (c : CoreId) (t : ThreadId) (all : Bool) (ty : BitVec 3) (w : LR)
  | vspecial (c : CoreId) (t : ThreadId) (second : Bool) (op ty : BitVec 3) (w : LR)
  | vcvt (c : CoreId) (t : ThreadId) (fn : BitVec 6) (w : LR)
  | vmove (c : CoreId) (t : ThreadId) (op : VMoveOp) (ty : BitVec 3) (w : LR)
  | vpermRot (c : CoreId) (t : ThreadId) (rot : Bool) (ty : BitVec 3) (w : LR)
  | vext (c : CoreId) (t : ThreadId) (ty : BitVec 3) (w : LR)
  | vreduce (c : CoreId) (t : ThreadId) (op ty : BitVec 3) (w : LR)
  | vld (c : CoreId) (t : ThreadId) (w : LR)
  | vst (c : CoreId) (t : ThreadId) (w : LR)
  | tcfg (c : CoreId) (t : ThreadId) (w : LR)
  | tld (c : CoreId) (t : ThreadId) (w : LR)
  | tldR (c : CoreId) (t : ThreadId) (w : LR)
  | tst (c : CoreId) (t : ThreadId) (w : LR)
  | tldq (c : CoreId) (t : ThreadId) (w : LR)
  | tmovv (c : CoreId) (t : ThreadId) (w : LR)
  | tmovt (c : CoreId) (t : ThreadId) (w : LR)
  | tscl (c : CoreId) (t : ThreadId) (w : LR)
  | tsclw (c : CoreId) (t : ThreadId) (w : LR)
  | trel (c : CoreId) (t : ThreadId) (w : LR)
  | mma (c : CoreId) (t : ThreadId) (fn : BitVec 6) (w : LR)
  | acvt (c : CoreId) (t : ThreadId) (w : LR)
  | azero (c : CoreId) (t : ThreadId) (w : LR)
  | astx (c : CoreId) (t : ThreadId) (w : LR)
  | aldx (c : CoreId) (t : ThreadId) (w : LR)
  | aldxAdd (c : CoreId) (t : ThreadId) (w : LR)
  | msync (c : CoreId) (t : ThreadId) (w : LR)
  | loadReply (c : CoreId) (t : ThreadId) (status : Status) (value : Vec)
  | mailboxReply (c : CoreId) (t : ThreadId) (m : Fin 4) (status : Status) (value : Word)
  | feReply (c : CoreId) (t : ThreadId) (m : Option (Fin 4)) (status : Status) (value : Word) (tag : Fin 4)
  | writeAck (c : CoreId) (t : ThreadId) (id : Option Nat) (status : Status)
  | releaseDepart (c : CoreId) (t : ThreadId) (id : Nat)
  | cacheFillLand (c : CoreId) (fid : Nat) (k : Fin 8) (status : Status) (v : Word)
  | prefLand (c : CoreId) (fid : Nat) (k : Fin 8) (status : Status) (v : Word)
  | writebackAck (c : CoreId) (line : BitVec 58) (status : Status)
  | tileRowRequest (c : CoreId) (t : ThreadId) (m : Fin 4)
  | tileRowLand (c : CoreId) (t : ThreadId) (m : Fin 4) (r : Fin 64) (status : Status) (v : BitVec 544)
  | tileRowAck (c : CoreId) (t : ThreadId) (m : Fin 4) (r : Fin 64) (status : Status)
  | matrixEntryStart (c : CoreId) (residue : Bool)
  | matrixEntryComplete (c : CoreId) (status : Status) (data : BitVec 33024)
  | imageAccessComplete (c : CoreId) (t : ThreadId) (m : Fin 4) (status : Status)
  | shadowCheckArm (c : CoreId)
  | shadowCheckDone (c : CoreId) (differs : Bool)
  | threadSuspend (c : CoreId) (k : ThreadId)
  | threadFaultTaken (c : CoreId) (keeper : Bool)
  | interruptTaken (c : CoreId) (line : Fin 32)
  | timerFire (c : CoreId) (t : ThreadId) (now : Word)
  | stalemate (c : CoreId) (keeper : Bool)
  | waitTimeout (c : CoreId) (t : ThreadId) (now : Word)
  | scopeMismatchTaken (c : CoreId) (t : ThreadId)
  | wakeNotifyArrive (ag : Agent) (c : CoreId) (mask : BitVec 8)
  | watchWakeArrive (c : CoreId) (t : ThreadId) (m : Option (Fin 4)) (a : Word) (tag : Fin 4) (epoch : BitVec 8)
  | watchPollExpiry (c : CoreId) (t : ThreadId) (m : Option (Fin 4))
  | kmsgArrive (c : CoreId)
  | bankReadRequest (ag : Agent) (c : CoreId) (off : BitVec 22) (len : Fin 241) (tag : Nat)
  | bankWriteRequest (ag : Agent) (c : CoreId) (off : BitVec 22) (len : Fin 241) (mask : BitVec 240) (data : BitVec 1920) (tag : Nat)
  | bankAtomicRequest (ag : Agent) (c : CoreId) (off : BitVec 22) (op : Fin 5) (a b : Word) (tag : Nat)
  | bankFeRequest (ag : Agent) (c : CoreId) (off : BitVec 22) (op : Fin 6) (data : Word) (rel : Bool) (scope : Fin 4) (waiter : Word) (tag : Nat)
  | watchDisarm (c : CoreId) (off : BitVec 22) (waiter : Word)
  | bankNetReserve (c : CoreId) (cellar : Bool)
  | correctionWriteback (c : CoreId) (cw : BitVec 37)
  | imemPtrWrite (ag : Agent) (c : CoreId) (v : Word)
  | imemDataWrite (ag : Agent) (c : CoreId) (v : Word)
  | threadCtlStop (ag : Agent) (c : CoreId) (v : Word)
  | threadCtlStart (ag : Agent) (c : CoreId) (v : Word)
  | swiRaise (ag : Agent) (c : CoreId) (v : Word)
  | poisonClr (ag : Agent) (c : CoreId) (v : Word)
  | tagDataRead (ag : Agent) (c : CoreId)
  | tagDataWrite (ag : Agent) (c : CoreId) (v : Word)
  | tclassWrite (ag : Agent) (c : CoreId) (v : Word)
  | potHoldWrite (ag : Agent) (c : CoreId) (v : Word)
  | potOpen (ag : Agent) (c : CoreId) (v : Word)
  | potCancel (ag : Agent) (c : CoreId) (v : Word)
  | kexit (c : CoreId) (t : ThreadId) (v : Word)
  | wdogKick (c : CoreId) (t : ThreadId) (v : Word)
  | wdogCtlWrite (ag : Agent) (c : CoreId) (v : Word)
  | sendData (c : CoreId) (t : ThreadId) (w : Fin 24) (v : Word)
  | sendCommit (c : CoreId) (t : ThreadId) (v : Word)
  | sendAck (c0 : CoreId) (t : ThreadId) (status : Status)
  | dmacGo (c : CoreId) (t : ThreadId) (ch : Fin 2) (v : Word)
  | moduleIdWrite (ag : Agent) (v : Word)
  | registerWrite (ag : Agent) (a : Word) (half : Bool) (v : Word)
  | routerPacketArrive (n : CoreId) (from_ : Fin 4) (p : Packet)
  | flitCrcError (n : CoreId) (port : Fin 4)
  | injectionRelease (n : CoreId) (p : Packet) (now : Nat)
  | potCombinerTimeout (n : CoreId) (id : Nat)
  | potContributionArrive (ag : Agent) (c : CoreId) (off : BitVec 22) (x : PotPart)
  | halfWakeDone (p : Fin 8) (east ok : Bool)
  | classArbWrite (ag : Agent) (p : Fin 8) (v : Word)
  | lbPublish (p : Fin 8) (east : Bool) (wt wl wf wp : BitVec 16)
  | routeChange (entries : List (CoreId × Fin 16 × Word))
  | dmaDoorbell (ag : Agent) (u : Fin 256) (v : BitVec 16)
  | dmaCtlGo (ag : Agent) (u : DmaUnit)
  | dmaCtlStop (ag : Agent) (u : DmaUnit)
  | dmaRingWrite (ag : Agent) (u : Fin 256) (cfg : Bool) (v : Word)
  | dmaEventSet (ag : Agent) (u : DmaUnit) (v : BitVec 16)
  | dmaDescFetched (u : DmaUnit)
  | dmaProgramFetch (u : DmaUnit)
  | dmaMove (u : DmaUnit)
  | dmaLoop (u : DmaUnit)
  | dmaEndl (u : DmaUnit)
  | dmaWaitWord (u : DmaUnit)
  | dmaWaitEvents (u : DmaUnit)
  | dmaSignalFill (u : DmaUnit)
  | dmaSignalAdd (u : DmaUnit)
  | dmaSignalPost (u : DmaUnit)
  | dmaSignalEvent (u : DmaUnit)
  | dmaHashBegin (u : DmaUnit)
  | dmaHashPause (u : DmaUnit)
  | dmaHashResume (u : DmaUnit)
  | dmaHashFinal (u : DmaUnit)
  | dmaEnd (u : DmaUnit)
  | dmaReply (u : DmaUnit) (id : Nat) (status : Status) (v : BitVec 2056)
  | dmaRetry (u : DmaUnit) (id : Nat)
  | dmaReplyTimeout (u : DmaUnit) (id : Nat)
  | dmaWaitTimeout (u : DmaUnit)
  | dmaCompletion (u : DmaUnit)
  | fabDealResend (u : DmaUnit) (id : Nat)
  | hbmAccess (ag : Agent) (p : Fin 8) (off : BitVec 36) (kind : Fin 4) (aop : Fin 5) (len : Fin 241) (mask : BitVec 240) (data : BitVec 1920) (tag : Nat)
  | hbmPowerDown (p : Fin 8) (q : Fin 32)
  | tuLookup (c : CoreId) (t : ThreadId) (bulk : Option (Fin 256 × Word × Bool))
  | tuLookupReply (c : CoreId) (t : ThreadId) (bulk : Option (Fin 256))
  | tuHoldTimeout (ag : TxAgent)
  | tuRangeCommit (ag : Agent) (plot : Fin 64) (e : Fin 256) (v : Word)
  | tuSync (ag : Agent) (plot : Fin 64) (v : Word)
  | tuSyncDone (plot : Fin 64)
  | pageRetire (p : Fin 8) (pg : Fin 17152)
  | pcRetire (p : Fin 8) (q : Fin 32) (dead : List (Fin 17152))
  | hbmPageZeroise (p : Fin 8) (pg : Fin 17152)
  | portEnable (ag : Agent) (m : Fin 32) (v : BitVec 32)
  | portTrainingDone (m : Fin 32)
  | portInitFrame (m : Fin 32) (peer : BitVec 16) (port : Fin 32) (pools : List (Fin 4096))
  | portUpTimeout (m : Fin 32)
  | linkDataFrame (m : Fin 32) (fcs auth : Bool) (bytes : List Byte)
  | linkCtrlFrame (m : Fin 32) (fcs : Bool) (h : Word)
  | linkAckTimeout (m : Fin 32)
  | creditReturnTimer (m : Fin 32)
  | routedFrameReceive (m : Fin 32) (addrOk auth ce : Bool) (bytes : List Byte)
  | transportRetransmit (peer : BitVec 16) (vc : Fin 4) (resp : Bool) (tseq : BitVec 32)
  | connectionIdleClose (peer : BitVec 16)
  | connectionOpenRetry (peer : BitVec 16) (expired : Bool)
  | aelxRead (m : Fin 32) (vc : Fin 4)
  | aelxWrite (m : Fin 32) (vc : Fin 4) (mmr : Status)
  | aelxWriteFinal (m : Fin 32) (vc : Fin 4)
  | aelxDealWrite (m : Fin 32) (vc : Fin 4) (room : Bool) (mmr : Status)
  | aelxAtomic (m : Fin 32) (vc : Fin 4)
  | aelxAcas (m : Fin 32) (vc : Fin 4)
  | aelxFeLoad (m : Fin 32) (vc : Fin 4)
  | aelxFeStore (m : Fin 32) (vc : Fin 4)
  | aelxPot (m : Fin 32) (vc : Fin 4)
  | aelxWake (m : Fin 32) (vc : Fin 4)
  | aelxKctl (m : Fin 32) (vc : Fin 4) (msg : KctlMsg)
  | aelxAck (m : Fin 32) (vc : Fin 4)
  | aelxReadResp (m : Fin 32) (vc : Fin 4)
  | aelxAtomicResp (m : Fin 32) (vc : Fin 4)
  | aelxFeResp (m : Fin 32) (vc : Fin 4)
  | aelxFeArmed (m : Fin 32) (vc : Fin 4)
  | aelxDealNak (m : Fin 32) (vc : Fin 4)
  | fabAdmitTimeout (m : Fin 32) (vc : Fin 4)
  | wrfHoldTimeout (slot : Fin 256)
  | fabPotCombinerTimeout (m : Fin 32) (out : Bool)
  | ptpEventMessage (m : Fin 32) (domain : BitVec 8) (msg : PtpMsg)
  | aelxKeyUpdate (m : Fin 32) (peer : Option (BitVec 16)) (slot : Fin 2) (retire : Bool)
  | bar4Read (f : Fin 64) (o : BitVec 36) (n : Fin 4097) (far : Option (Status × BitVec 32768))
  | bar4Write (f : Fin 64) (o : BitVec 36) (n : Fin 513) (data : BitVec 4096) (status : Status)
  | sqTailDoorbell (ag : Option Agent) (q : Fin 16384) (v : BitVec 16)
  | cqHeadDoorbell (ag : Option Agent) (q : Fin 16384) (v : BitVec 16)
  | qpEnable (ag : Option Agent) (q : Fin 16384) (v : Word)
  | qpReset (ag : Option Agent) (q : Fin 16384)
  | cqPost (ag : Agent) (q : Fin 16384) (v : BitVec 16)
  | funcWinWrite (ag : Option Agent) (f : Fin 64) (v : Word)
  | flr (f : Fin 64)
  | linkDown (l : Fin 2)
  | perstAssert (l : Fin 2)
  | perstDeassert (l : Fin 2)
  | configRequest (f : Fin 64) (bar4 : Option (Fin 7)) (ats : Option Bool)
  | atsInvalidation (l : Fin 2) (page : BitVec 52)
  | sqFetch (q : Fin 16384) (now : Nat) (n : Fin 9) (status : Status) (far : List Vec)
  | ringAccessRetry (q : Fin 16384) (now : Nat) (n : Fin 9) (status : Status) (far : List Vec)
  | stepGrant (now : Nat)
  | stepEnd (q : Fin 16384) (cid : BitVec 16)
  | admitTimeout (q : Fin 16384) (cid : BitVec 16) (now : Nat)
  | msixCoalTimer (q : Fin 16384)
  | nop (q : Fin 16384) (cid : BitVec 16)
  | identify (q : Fin 16384) (cid : BitVec 16) (status : Status)
  | getLog (q : Fin 16384) (cid : BitVec 16) (status : Status)
  | cmdCancel (q : Fin 16384) (cid : BitVec 16)
  | launch (q : Fin 16384) (cid : BitVec 16)
  | launchTimeout (q : Fin 16384) (cid : BitVec 16) (ms : BitVec 32)
  | cmdSignal (q : Fin 16384) (cid : BitVec 16) (status : Status)
  | copy (q : Fin 16384) (cid : BitVec 16) (far : List Vec) (status : Status)
  | loadCode (q : Fin 16384) (cid : BitVec 16) (far : List Vec) (status : Status)
  | poolAlloc (q : Fin 16384) (cid : BitVec 16)
  | poolFree (q : Fin 16384) (cid : BitVec 16)
  | poolMove (q : Fin 16384) (cid : BitVec 16)
  | zeroise (q : Fin 16384) (cid : BitVec 16)
  | contextTeardown (q : Fin 16384) (cid : BitVec 16)
  | rack (q : Fin 16384) (cid : BitVec 16) (now : Nat) (far : List Vec) (status : Status)
  | restore (q : Fin 16384) (cid : BitVec 16) (far : List Vec) (status : Status)
  | loadImage (q : Fin 16384) (cid : BitVec 16) (far : List Vec) (status : Status) (v : Bool × Option Nat) (ok : Bool)
  | switchProfile (q : Fin 16384) (cid : BitVec 16) (v : List (Bool × Option Nat))
  | selfTest (q : Fin 16384) (cid : BitVec 16) (step : TestStep)
  | scrub (q : Fin 16384) (cid : BitVec 16)
  | admitCfgWrite (ag : Agent) (v : Word)
  | admitPlotWrite (ag : Agent) (n : Fin 64) (v : Word)
  | fullImageApply (pins : Fin 4) (v : List (Bool × Option Nat))
  | stagedModuleReset
  | rebindResetRecovery (n : Fin 64)
  | profileLoadEdge (slot : Fin 4) (v : List (Bool × Option Nat))
  | strapPinChange (pin : Fin 22) (differs : Bool)
  | srvSubmit (q : Fin 16384) (cid : BitVec 16) (now : Nat) (far : List Vec) (status : Status)
  | srvCancel (q : Fin 16384) (cid : BitVec 16)
  | srvModel (q : Fin 16384) (cid : BitVec 16) (far mtab : List Vec) (status : Status) (accept : Bool)
  | srvToktab (q : Fin 16384) (cid : BitVec 16) (far : List Vec) (status : Status)
  | srvUnload (q : Fin 16384) (cid : BitVec 16)
  | srvPolicy (q : Fin 16384) (cid : BitVec 16)
  | servingStepStart (plot : Fin 64) (slot : Fin 8) (now : Nat) (status : Status)
  | memberStepOrder (plot : Fin 64) (slot : Fin 8) (n : Word)
  | memberStepReport (plot : Fin 64) (slot : Fin 8) (v : Fin 4096) (code : Status) (atomic fast timeout probe : BitVec 16)
  | servingKernelEnd (plot : Fin 64) (slot : Fin 8)
  | servingStepTimeout (plot : Fin 64) (slot : Fin 8) (ms : Nat)
  | srvAdmitTimeout (rid : Fin 16384) (now : Nat)
  | promptEncode (rid : Fin 16384) (n : Nat)
  | watchdogExpiry (c : CoreId) (t : ThreadId)
  | faultRecordFlashCopy
  | scrubAccess (a : BitVec 41) (first last : Bool)
  | scrubLapse (sram hbm : BitVec 16)
  | blockTest (p : Fin 8) (b : Fin 81) (step : TestStep)
  | blockTestOverdue (p : Fin 8) (b : Fin 81)
  | liveGraft (c : CoreId) (cycles : Nat) (cls : BitVec 8) (det : BitVec 32) (chk : Option (ThreadId × BitVec 8))
  | coldGraft (c : CoreId) (cls : BitVec 8) (det : BitVec 32)
  | rowColGraft (c : CoreId) (sub : Option (Fin 63)) (sym : Fin 37) (words : List (Fin 65536))
  | laneGraft (m : Fin 32) (lane : Fin 4) (spare : Fin 2)
  | routerFence (n : CoreId) (link : Option (Fin 4))
  | ageReplan (p : Fin 8) (east : Bool)
  | ageAlarm (p : Fin 8) (isl : Fin 90) (ps : BitVec 8) (feed : Bool)
  | laneReadapt (m : Fin 32) (lane : Fin 4) (height width : BitVec 8)
  | clockIslandFail (p : Fin 8) (isl : Fin 90) (router : Bool)
  | railFault (p : Fin 8) (east : Bool)
  | phaseFailure (rail : Fin 16)
  | stewardMismatch
  | ringStopFail (p : Fin 8)
  | resetReqGo (ag : Agent) (p : Fin 8) (v : Word)
  | drainEnd (p : Option (Fin 8)) (us : BitVec 16)
  | resetRelease (p : Option (Fin 8)) (bad : BitVec 8)
  | modResetGo (ag : Agent) (v : BitVec 32)
  | modResetPin (low : Bool)
  | teardownHorizon (n : Fin 64) (us : BitVec 16)
  | hangDetect (e : HangEngine) (us : Nat)
  | hangReplay
  | hangReplayEnd (ms : Nat)
  | crashDump (units : List DumpUnit) (fails : Bool)
  | sidePathTimeout (u : DumpUnit) (n : Nat)
  | dumpCtlGo (ag : Agent) (v : BitVec 32)
  | restoreVerifyArrive (q : Fin 16384) (cid : BitVec 16)
  | restoreVerifyTimeout (q : Fin 16384) (cid : BitVec 16) (ms : BitVec 32)
  | nvmeCompletion (id : Nat) (ok : Bool)
  | nvmeOvercurrent
  | ptpSync (m : Option (Fin 32)) (off : BitVec 64) (now : BitVec 96)
  | ppsInEdge (now : BitVec 96)
  | servoHoldover (announce : Bool)
  | ref10Loss
  | ppsSecondBoundary
  | timeCfgWrite (ag : Agent) (v : BitVec 32)
  | timeSet (ag : Agent) (v : Word)
  | mctpControl (src : MgmtSrc) (r : MctpReq)
  | kmpDatagram (fabric : Bool) (addr : Nat) (session : Option Nat) (d : List (BitVec 8))
  | spdmMessage (src : MgmtSrc) (r : SpdmReq)
  | getInfo (src : MgmtSrc) (b : List (BitVec 8))
  | setModuleId (src : MgmtSrc) (b : List (BitVec 8))
  | setRackLoc (src : MgmtSrc) (b : List (BitVec 8))
  | partnerRegister (src : MgmtSrc) (b : List (BitVec 8))
  | nameSuccessor (src : MgmtSrc) (b : List (BitVec 8))
  | setModmap (src : MgmtSrc) (b : List (BitVec 8))
  | setFabric (src : MgmtSrc) (b : List (BitVec 8))
  | dumpMessage (src : MgmtSrc) (b : List (BitVec 8))
  | commitSvn (src : MgmtSrc) (b : List (BitVec 8))
  | fwConfirm (src : MgmtSrc) (b : List (BitVec 8))
  | setOwnerRoot (src : MgmtSrc) (b : List (BitVec 8))
  | setMgmtAddr (src : MgmtSrc) (b : List (BitVec 8))
  | timeSetMessage (src : MgmtSrc) (b : List (BitVec 8))
  | getTid (src : MgmtSrc)
  | setTid (src : MgmtSrc) (tid : BitVec 8)
  | getPldmVersion (src : MgmtSrc) (typ : BitVec 8)
  | getPldmTypes (src : MgmtSrc)
  | getPldmCommands (src : MgmtSrc) (typ : BitVec 8)
  | getPdrRepositoryInfo (src : MgmtSrc)
  | getPdr (src : MgmtSrc) (record : BitVec 32) (n : BitVec 16)
  | getSensorReading (src : MgmtSrc) (id : BitVec 16) (value : BitVec 32)
  | getStateSensorReadings (src : MgmtSrc) (id : BitVec 16)
  | setEventReceiver (src : MgmtSrc) (mode : Fin 3) (addr : Nat)
  | pollForPlatformEventMessage (src : MgmtSrc)
  | setNumericSensorEnable (src : MgmtSrc) (id : BitVec 16) (on : Bool)
  | queryDeviceIdentifiers (src : MgmtSrc)
  | getFirmwareParameters (src : MgmtSrc)
  | requestUpdate (src : MgmtSrc)
  | passComponentTable (src : MgmtSrc) (comp : BitVec 16)
  | updateComponent (src : MgmtSrc) (comp : BitVec 16) (size : BitVec 32)
  | firmwareDataReceived (data : List (BitVec 8)) (v : Option Bool)
  | activateFirmware (src : MgmtSrc) (ok : Bool)
  | getStatus (src : MgmtSrc)
  | cancelUpdateComponent (src : MgmtSrc)
  | cancelUpdate (src : MgmtSrc)
  | fwTakeover (ok sig : Bool)
  | trialAutoConfirm (minutes : BitVec 16)
  | fwRecoveryWrite (len : BitVec 32) (sig : Bool) (sigs : Vector Bool 4)
  | recoveryBootTimeout (sigs : Vector Bool 4)
  | loopbackStart (ag : Option Agent) (lb : Fin 44) (v : Word)
  | loopbackStop (ag : Option Agent) (lb : Fin 44) (v : Word)
  | loopbackStep (lb : Fin 44) (errors : BitVec 32) (lock : BitVec 16) (rows : List (BitVec 41 × Nat))
  | rtrTurnTbWrite (ag : Option Agent) (n : CoreId) (v : Word)
  | turnBackStart (ag : Option Agent) (n : CoreId) (v : Word)
  | turnBackFlitReturn (n : CoreId) (ok : Bool)
  | turnBackTimeout (n : CoreId)
  | idcode
  | bypass
  | samplePreload (pins : List Bool) (load : Option (List Bool))
  | extest (pins : List Bool)
  | dbgAccess (x : DbgTarget) (write : Option (BitVec 512)) (far : Status × BitVec 512)
  | scan (p : Fin 8)
  | mbist (p : Fin 8)
  | hbm1500 (p : Fin 8) (data : List Bool)
  | debugUnlock (q : List (BitVec 8)) (sig : Bool)
  | dbgLockWrite (ag : Option Agent) (v : Word)
  | dbgHalt (c : CoreId) (mask : BitVec 8)
  | threadHalt (c : CoreId) (k : ThreadId)
  | dbgResume (c : CoreId) (mask : BitVec 8)
  | dbgStep (c : CoreId) (mask : BitVec 8)
  | dbgDiscard (c : CoreId) (mask : BitVec 8)
  | chanHoldExpiry (c : CoreId) (k : ThreadId) (us : BitVec 32)
  | auxPowerUp (straps : BitVec 22) (sigs : Vector Bool 4) (tftp : Option (List (BitVec 8) × Bool))
  | railPowerUp (feedA feedB present : Bool) (bad : BitVec 8)
  | powerEnFall
  | feedDisconnect (b : Bool)
  | feedReconnect (b : Bool)
  | auxLoss
  | thermalTrip
  | coolantAlarm (inlet outlet flow : Nat) (long : Bool)
  | governorPeriod (p : Nat) (t : Int) (sets : List (BitVec 16 × BitVec 8))
  | pwrCfgWrite (ag : Agent) (v : BitVec 32)
  | fabricLaneFail (m : Fin 32)
  | pcieLinkTrained (l : Fin 2)
  | windowReadTimeout (f : Fin 64) (o : BitVec 36) (n : Fin 4097)
  | pcieLoopback (l : Fin 2)
  | thermTripRelease
  | ref10Lock
  | ptpAnnounce (m : Option (Fin 32)) (domain : BitVec 8) (data : List Nat) (utc : BitVec 16)
  | arpNeighbourSolicitation (m : Option (Fin 32)) (q : AddrReq) (own : Bool)
  | sensorWarning (id : BitVec 16) (on low : Bool)
  deriving DecidableEq, Repr

end Sys2Proof
end

