-- ==== Sys2Proof/WellFormed.lean ====
section
/-!
DEFINITION. What makes a command well formed beside its operands' types: relations between the fields of one operand, and the lengths of lists. The
machine gives every command a meaning, well formed or not; statements about what an agent may send take these as premises.
-/
namespace Sys2Proof

/-- A thread is a thread of some core (R279). -/
def agentOk (a : Agent) : Bool := a.thread.isNone || a.core.isSome

/-- Nanoseconds stay below one second, and Res0 is zero (R689). -/
def timeOk (t : BitVec 96) : Bool := (t.toNat / 65536) % 2 ^ 30 < 1000000000 && t.toNat / 2 ^ 46 % 4 = 0

/-- The command is well formed: at most 9,216 bytes in a frame (R424), 1,400 in the body of a KMP datagram (R704), 120 in an unlock request (R734), a
pool size for each of the eight pools (R432), 16 halves (R30), and one verdict for each copy that is tried (R535). -/
def WellFormed (i : Instr) : Bool :=
  match i with
  | .wakeNotifyArrive ag _ _ => agentOk ag
  | .bankReadRequest ag _ _ _ _ => agentOk ag
  | .bankWriteRequest ag _ _ _ _ _ _ => agentOk ag
  | .bankAtomicRequest ag _ _ _ _ _ _ => agentOk ag
  | .bankFeRequest ag _ _ _ _ _ _ _ _ => agentOk ag
  | .imemPtrWrite ag _ _ => agentOk ag
  | .imemDataWrite ag _ _ => agentOk ag
  | .threadCtlStop ag _ _ => agentOk ag
  | .threadCtlStart ag _ _ => agentOk ag
  | .swiRaise ag _ _ => agentOk ag
  | .poisonClr ag _ _ => agentOk ag
  | .tagDataRead ag _ => agentOk ag
  | .tagDataWrite ag _ _ => agentOk ag
  | .tclassWrite ag _ _ => agentOk ag
  | .potHoldWrite ag _ _ => agentOk ag
  | .potOpen ag _ _ => agentOk ag
  | .potCancel ag _ _ => agentOk ag
  | .wdogCtlWrite ag _ _ => agentOk ag
  | .moduleIdWrite ag _ => agentOk ag
  | .registerWrite ag _ _ _ => agentOk ag
  | .potContributionArrive ag _ _ _ => agentOk ag
  | .classArbWrite ag _ _ => agentOk ag
  | .dmaDoorbell ag _ _ => agentOk ag
  | .dmaCtlGo ag _ => agentOk ag
  | .dmaCtlStop ag _ => agentOk ag
  | .dmaRingWrite ag _ _ _ => agentOk ag
  | .dmaEventSet ag _ _ => agentOk ag
  | .hbmAccess ag _ _ _ _ _ _ _ _ => agentOk ag
  | .tuRangeCommit ag _ _ _ => agentOk ag
  | .tuSync ag _ _ => agentOk ag
  | .portEnable ag _ _ => agentOk ag
  | .portInitFrame _ _ _ pools => pools.length = 8
  | .linkDataFrame _ _ _ bytes => bytes.length ≤ 9216
  | .routedFrameReceive _ _ _ _ bytes => bytes.length ≤ 9216
  | .sqTailDoorbell ag _ _ => ag.all agentOk
  | .cqHeadDoorbell ag _ _ => ag.all agentOk
  | .qpEnable ag _ _ => ag.all agentOk
  | .qpReset ag _ => ag.all agentOk
  | .cqPost ag _ _ => agentOk ag
  | .funcWinWrite ag _ _ => ag.all agentOk
  | .sqFetch _ _ _ _ far => far.length ≤ 8
  | .ringAccessRetry _ _ _ _ far => far.length ≤ 8
  | .switchProfile _ _ v => v.length = 2
  | .admitCfgWrite ag _ => agentOk ag
  | .admitPlotWrite ag _ _ => agentOk ag
  | .fullImageApply _ v => v.length = 4
  | .profileLoadEdge _ v => v.length = 2
  | .resetReqGo ag _ _ => agentOk ag
  | .modResetGo ag _ => agentOk ag
  | .dumpCtlGo ag _ => agentOk ag
  | .ptpSync _ _ now => timeOk now
  | .ppsInEdge now => timeOk now
  | .timeCfgWrite ag _ => agentOk ag
  | .timeSet ag _ => agentOk ag
  | .kmpDatagram _ _ _ d => d.length ≤ 1408
  | .getInfo _ b => b.length ≤ 1399
  | .setModuleId _ b => b.length ≤ 1399
  | .setRackLoc _ b => b.length ≤ 1399
  | .partnerRegister _ b => b.length ≤ 1399
  | .nameSuccessor _ b => b.length ≤ 1399
  | .setModmap _ b => b.length ≤ 1399
  | .setFabric _ b => b.length ≤ 1399
  | .dumpMessage _ b => b.length ≤ 1399
  | .commitSvn _ b => b.length ≤ 1399
  | .fwConfirm _ b => b.length ≤ 1399
  | .setOwnerRoot _ b => b.length ≤ 1399
  | .setMgmtAddr _ b => b.length ≤ 1399
  | .timeSetMessage _ b => b.length ≤ 1399
  | .loopbackStart ag _ _ => ag.all agentOk
  | .loopbackStop ag _ _ => ag.all agentOk
  | .rtrTurnTbWrite ag _ _ => ag.all agentOk
  | .turnBackStart ag _ _ => ag.all agentOk
  | .debugUnlock q _ => q.length = 120
  | .dbgLockWrite ag _ => ag.all agentOk
  | .governorPeriod _ _ sets => sets.length ≤ 16
  | .pwrCfgWrite ag _ => agentOk ag
  | _ => true

end Sys2Proof
end

