-- ==== Sys2Proof/Decode.lean ====
section
/-!
DEFINITION. The words of a core's instruction memory: the five formats of a long operation (R61) and the operation that MAJ and FN pick (R64, R142,
R198, R204, R210 to R230). The rows of spec/opcode_table.json have no bits of their own, so no word spells a row as such (notes/assumptions/2.md).
-/
namespace Sys2Proof

/-- The command that the low `nbits` bits of `w` spell by the table: none, for the table gives no row any bits. (DESIGN CHOICE: notes/assumptions/2.md.) -/
def decodeTableWord (_nbits _w : Nat) : Option Instr := none

/-! ### Formats (R61) -/

/-- The major opcode. -/
def majOf (w : BitVec 32) : Nat := (w.extractLsb' 25 6).toNat

/-- The fields of format LR. -/
def lrOf (w : BitVec 32) : LR := ⟨w.extractLsb' 6 4, w.extractLsb' 20 5, w.extractLsb' 15 5, w.extractLsb' 10 5⟩

/-- FN of format LR. -/
def fnOf (w : BitVec 32) : BitVec 6 := w.extractLsb' 0 6

/-- FN[5:3], which picks the operation of a vector group (R228). -/
def opOf (w : BitVec 32) : BitVec 3 := w.extractLsb' 3 3

/-- FN[2:0], a vector operation's type (R228). -/
def tyOf (w : BitVec 32) : BitVec 3 := w.extractLsb' 0 3

/-- The fields of format LI. -/
def liOf (w : BitVec 32) : LI := ⟨w.extractLsb' 20 5, w.extractLsb' 15 5, w.extractLsb' 0 15⟩

/-- The fields of format LU. -/
def luOf (w : BitVec 32) : LU := ⟨w.extractLsb' 20 5, w.extractLsb' 0 20⟩

/-- The fields of format LB. -/
def lbOf (w : BitVec 32) : LB := ⟨w.extractLsb' 21 4, w.extractLsb' 0 21⟩

/-- The fields of format LL. -/
def llOf (w : BitVec 32) : LL := ⟨w.extractLsb' 23 2, w.getLsbD 22, w.extractLsb' 12 10, w.extractLsb' 0 12⟩

/-! ### Groups: the operation that FN picks, none where FN is reserved (R204) -/

/-- MAJ 0x00 (R210). -/
def decodeInt (c : CoreId) (t : ThreadId) (fn : Nat) (w : LR) : Option Instr :=
  match fn with
  | 0x00 => some (.intAddSub c t false w)
  | 0x01 => some (.intAddSub c t true w)
  | 0x02 => some (.intLogic c t .and w)
  | 0x03 => some (.intLogic c t .or w)
  | 0x04 => some (.intLogic c t .xor w)
  | 0x05 => some (.intLogic c t .andn w)
  | 0x08 => some (.intShift c t .shl w)
  | 0x09 => some (.intShift c t .shr w)
  | 0x0A => some (.intShift c t .sar w)
  | 0x10 => some (.mul c t w)
  | 0x11 => some (.mulh c t false w)
  | 0x12 => some (.mulh c t true w)
  | 0x18 => some (.div c t false w)
  | 0x19 => some (.div c t true w)
  | 0x1A => some (.rem c t false w)
  | 0x1B => some (.rem c t true w)
  | _ => none

/-- MAJ 0x01 (R212). -/
def decodePred (c : CoreId) (t : ThreadId) (fn : Nat) (w : LR) : Option Instr :=
  match fn with
  | 0x00 => some (.cmp c t .eq w)
  | 0x01 => some (.cmp c t .ne w)
  | 0x02 => some (.cmp c t .lt w)
  | 0x03 => some (.cmp c t .ge w)
  | 0x04 => some (.cmp c t .ltu w)
  | 0x05 => some (.cmp c t .geu w)
  | 0x10 => some (.predLogic c t .and w)
  | 0x11 => some (.predLogic c t .or w)
  | 0x12 => some (.predLogic c t .xor w)
  | 0x13 => some (.predLogic c t .andn w)
  | 0x14 => some (.pnot c t w)
  | 0x15 => some (.pset c t w)
  | _ => none

/-- MAJ 0x16 (R216). -/
def decodeAtomic (c : CoreId) (t : ThreadId) (fn : Nat) (w : LR) : Option Instr :=
  match fn with
  | 0x00 => some (.aadd c t false w)
  | 0x01 => some (.aadd c t true w)
  | 0x02 => some (.amin c t false w)
  | 0x03 => some (.amin c t true w)
  | 0x04 => some (.amax c t false w)
  | 0x05 => some (.amax c t true w)
  | 0x06 => some (.aswap c t false w)
  | 0x07 => some (.aswap c t true w)
  | 0x08 => some (.acas c t false w)
  | 0x09 => some (.acas c t true w)
  | 0x10 => some (.ldfe c t false w)
  | 0x11 => some (.ldfe c t true w)
  | 0x12 => some (.ldff c t false w)
  | 0x13 => some (.ldff c t true w)
  | 0x14 => some (.stfe c t w)
  | 0x16 => some (.stf c t w)
  | 0x18 => some (.sete c t w)
  | 0x20 => some (.mbLoad c t .d w)
  | 0x21 => some (.mbLoad c t .w w)
  | 0x22 => some (.mbLoad c t .b w)
  | 0x30 => some (.paddX c t w)
  | 0x31 => some (.paddT c t w)
  | 0x32 => some (.paddF c t w)
  | 0x38 => some (.wrf c t w)
  | _ => none

/-- MAJ 0x17 (R220). -/
def decodeMailCache (c : CoreId) (t : ThreadId) (fn : Nat) (w : LR) : Option Instr :=
  match fn with
  | 0x00 => some (.mbrd c t w)
  | 0x01 => some (.mbtst c t w)
  | 0x02 => some (.mbwait c t w)
  | 0x03 => some (.mbset c t w)
  | 0x10 => some (.cflush c t w)
  | 0x11 => some (.cinv c t w)
  | 0x12 => some (.cflinv c t w)
  | 0x13 => some (.cinvAll c t w)
  | 0x14 => some (.preload c t w)
  | 0x15 => some (.clock c t w)
  | 0x16 => some (.cunlock c t w)
  | 0x18 => some (.pref c t w)
  | _ => none

/-- MAJ 0x1A (R222). -/
def decodeJump (c : CoreId) (t : ThreadId) (fn : Nat) (w : LR) : Option Instr :=
  match fn with
  | 0x00 => some (.jr c t w)
  | 0x01 => some (.callr c t w)
  | 0x02 => some (.ret c t w)
  | _ => none

/-- MAJ 0x1E (R224, R225). -/
def decodeSystem (c : CoreId) (t : ThreadId) (fn : Nat) (w : LR) : Option Instr :=
  match fn with
  | 0x00 => some (.trap c t w)
  | 0x01 => some (.rfe c t w)
  | 0x02 => some (.isync c t w)
  | 0x03 => some (.setm c t w)
  | 0x04 => some (.tstart c t w)
  | 0x05 => some (.tstop c t w)
  | 0x08 => some (.tset c t .scalar w)
  | 0x09 => some (.tset c t .pred w)
  | 0x0A => some (.tset c t .loop w)
  | 0x0B => some (.tset c t .sreg0 w)
  | 0x0C => some (.tset c t .sreg2 w)
  | 0x10 => some (.lcrd c t w)
  | 0x11 => some (.lcwr c t w)
  | 0x12 => some (.rspill c t w)
  | 0x13 => some (.rsfill c t w)
  | 0x18 => some (.sleep c t w)
  | 0x19 => some (.waitf c t w)
  | 0x1A => some (.waken c t w)
  | 0x1B => some (.fence c t w)
  | _ => none

/-- MAJ 0x27 (R142): MOV, SEL, PERM, ROT, BCAST, EXT and INS by FN[5:3]. -/
def decodeVmove (c : CoreId) (t : ThreadId) (op : Nat) (ty : BitVec 3) (w : LR) : Option Instr :=
  match op with
  | 0 => some (.vmove c t .mov ty w)
  | 1 => some (.vmove c t .sel ty w)
  | 2 => some (.vpermRot c t false ty w)
  | 3 => some (.vpermRot c t true ty w)
  | 4 => some (.vmove c t .bcast ty w)
  | 5 => some (.vext c t ty w)
  | 6 => some (.vmove c t .ins ty w)
  | _ => none

/-- MAJ 0x29 (R142, R228). R142 requires FN[2:0] to be zero and R228 assigns the two values with it zero: another is reserved, and its detail 0x01 lies
below 0x11 (R103, R204). (DEDUCED: notes/assumptions/104.md.) -/
def decodeVmem (c : CoreId) (t : ThreadId) (fn : Nat) (w : LR) : Option Instr :=
  match fn with
  | 0x00 => some (.vld c t w)
  | 0x08 => some (.vst c t w)
  | _ => none

/-- MAJ 0x3A (R198), by FN[5:3]. -/
def decodeAccum (c : CoreId) (t : ThreadId) (op : Nat) (w : LR) : Option Instr :=
  match op with
  | 0 => some (.azero c t w)
  | 1 => some (.astx c t w)
  | 2 => some (.aldx c t w)
  | 3 => some (.aldxAdd c t w)
  | 4 => some (.msync c t w)
  | _ => none

/-- An operation that only FN 0 of its major opcode picks (R230). -/
def onlyFn0 (fn : Nat) (i : Instr) : Option Instr := if fn = 0 then some i else none

/-- An operation of a major opcode whose FN 0 and FN 1 pick two (R230). -/
def fn01 (fn : Nat) (i j : Instr) : Option Instr := if fn = 0 then some i else if fn = 1 then some j else none

/-- FN bits that R198 requires to be zero: the rest of the word decides whether the operation stands, and these bits take detail 0x11. -/
def fnZero (ok : Bool) (i : Option Instr) : Except Nat Instr :=
  match i with
  | none => .error 0x01
  | some i => if ok then .ok i else .error 0x11

/-- An operation, or detail 0x01 where its number is reserved (R103). -/
def reserved1 (i : Option Instr) : Except Nat Instr :=
  match i with
  | none => .error 0x01
  | some i => .ok i

/-- The operation of a word of thread t of core c, or the detail of illegal (vector 1) where the word's MAJ or FN stands for none (R61, R64, R103, R204).
The fields of the operation are checked as it issues. -/
def decodeCoreWord (c : CoreId) (t : ThreadId) (w : BitVec 32) : Except Nat Instr :=
  if w.getLsbD 31 then .ok (.pairIssue c t w)
  else
    let r := lrOf w
    let fn := fnOf w
    let n := fn.toNat
    let op := opOf w
    let ty := tyOf w
    match majOf w with
    | 0x00 => reserved1 (decodeInt c t n r)
    | 0x01 => reserved1 (decodePred c t n r)
    | 0x02 => .ok (.addi c t (liOf w))
    | 0x03 => .ok (.logicImm c t .andi (liOf w))
    | 0x04 => .ok (.logicImm c t .ori (liOf w))
    | 0x05 => .ok (.logicImm c t .xori (liOf w))
    | 0x06 => .ok (.shiftImm c t (liOf w))
    | 0x07 => .ok (.cmpImm c t (liOf w))
    | 0x08 => .ok (.lui c t (luOf w))
    | 0x09 => .ok (.luh c t (luOf w))
    | 0x10 => .ok (.ld c t (liOf w))
    | 0x11 => .ok (.ldw c t (liOf w))
    | 0x12 => .ok (.ldb c t (liOf w))
    | 0x13 => .ok (.st c t (liOf w))
    | 0x14 => .ok (.stw c t (liOf w))
    | 0x15 => .ok (.stb c t (liOf w))
    | 0x16 => reserved1 (decodeAtomic c t n r)
    | 0x17 => reserved1 (decodeMailCache c t n r)
    | 0x18 => .ok (.b c t (lbOf w))
    | 0x19 => .ok (.call c t (lbOf w))
    | 0x1A => reserved1 (decodeJump c t n r)
    | 0x1B => .ok (.loop c t (llOf w))
    | 0x1C => .ok (.gets c t (liOf w))
    | 0x1D => .ok (.sets c t (liOf w))
    | 0x1E => reserved1 (decodeSystem c t n r)
    | 0x20 => .ok (.vintArith c t op ty r)
    | 0x21 => .ok (.vlogic c t op ty r)
    | 0x22 => .ok (.vfloat c t op ty r)
    | 0x23 => .ok (if op.toNat < 6 then .vcmp c t op ty r else .vanyVall c t (op = 7) ty r)
    | 0x24 => .ok (.vspecial c t false op ty r)
    | 0x25 => .ok (.vspecial c t true op ty r)
    | 0x26 => .ok (.vcvt c t fn r)
    | 0x27 => reserved1 (decodeVmove c t op.toNat ty r)
    | 0x28 => .ok (.vreduce c t op ty r)
    | 0x29 => reserved1 (decodeVmem c t n r)
    | 0x30 => reserved1 (onlyFn0 n (.tcfg c t r))
    | 0x31 => reserved1 (fn01 n (.tld c t r) (.tldR c t r))
    | 0x32 => reserved1 (onlyFn0 n (.tst c t r))
    | 0x33 => reserved1 (onlyFn0 n (.tldq c t r))
    | 0x34 => reserved1 (onlyFn0 n (.tmovv c t r))
    | 0x35 => reserved1 (onlyFn0 n (.tmovt c t r))
    | 0x36 => reserved1 (fn01 n (.tscl c t r) (.tsclw c t r))
    | 0x37 => reserved1 (onlyFn0 n (.trel c t r))
    | 0x38 => .ok (.mma c t fn r)
    | 0x39 => fnZero (n = 0) (some (.acvt c t r))
    | 0x3A => fnZero (ty.toNat = 0) (decodeAccum c t op.toNat r)
    | _ => .error 0x01

end Sys2Proof
end

