-- ==== Sys2Proof/Machine/Sha.lean ====
section
/-!
DEFINITION. The SHA-384 digest of a byte list (R383, R500), as FIPS 180-4 defines it: its constants are leading fraction bits of roots of the first primes,
and each round makes one new value of each of two sequences. (DESIGN CHOICE: notes/assumptions/92.md.)
-/
namespace Sys2Proof.Machine

/-- The first 80 primes lie below 410. -/
def shaPrimes : List Nat :=
  (List.range 410).filter (fun n => 2 ≤ n && (List.range 21).all (fun d => d < 2 || n ≤ d || n % d ≠ 0))

/-- The largest number below 2^n more than r whose k-th power does not exceed x. -/
def rootFloor (k x : Nat) : Nat → Nat → Nat
  | 0, r => r
  | n + 1, r => rootFloor k x n (if (r + 2 ^ n) ^ k ≤ x then r + 2 ^ n else r)

/-- The first 64 bits of the fraction of a prime's k-th root. -/
def rootBits (k p : Nat) : Word := BitVec.ofNat 64 (rootFloor k (p * 2 ^ (64 * k)) 70 0)

/-- The constant that each of the 80 rounds adds: from cube roots. -/
def shaAdds : List Word := shaPrimes.map (rootBits 3)

/-- The hash value that SHA-384 starts from: from the square roots of the ninth to the sixteenth prime. -/
def shaStart : List Word := ((shaPrimes.drop 8).take 8).map (rootBits 2)

/-- The exclusive or of a value's rotations to the right. -/
def turns (x : Word) (l : List Nat) : Word := l.foldl (fun a n => a ^^^ x.rotateRight n) 0

/-- A block's message words, latest first, with `n` more made of the sixteen latest. -/
def shaMessage : Nat → List Word → List Word
  | 0, l => l
  | n + 1, l =>
    let back := fun (k : Nat) => l.getD (k - 1) 0
    let mix := fun (x : Word) (i j k : Nat) => turns x [i, j] ^^^ x >>> k
    shaMessage n ((mix (back 2) 19 61 6 + back 7 + mix (back 15) 1 8 7 + back 16) :: l)

/-- One round on the two sequences, latest value first, of which the hash value's halves are four values each. -/
def shaStep (x : List Word × List Word) (m : Word) : List Word × List Word :=
  let p := fun (i : Nat) => x.1.getD i 0
  let q := fun (i : Nat) => x.2.getD i 0
  let sum := m + q 3 + turns (q 0) [14, 18, 41] + (q 0 &&& q 1 ^^^ ~~~(q 0) &&& q 2)
  let both := p 0 &&& p 1 ^^^ p 0 &&& p 2 ^^^ p 1 &&& p 2
  ((sum + turns (p 0) [28, 34, 39] + both) :: x.1.take 3, (p 3 + sum) :: x.2.take 3)

/-- Bytes [i, i + n) of a list. -/
def bytesAt (l : List Nat) (i n : Nat) : List Nat := (l.drop i).take n

/-- A number's n bytes, most significant first. -/
def msbBytes (v n : Nat) : List Nat := (List.range n).map (fun i => v / 256 ^ (n - 1 - i) % 256)

/-- The 64-bit words that bytes spell, most significant first. -/
def msbWords (l : List Nat) : List Word :=
  (List.range (l.length / 8)).map (fun i => BitVec.ofNat 64 ((bytesAt l (8 * i) 8).foldl (fun a b => 256 * a + b) 0))

/-- A hash value after a block of 128 bytes. -/
def shaAfter (h : List Word) (block : List Nat) : List Word :=
  let m := (shaMessage 64 (msbWords block).reverse).reverse
  let x := (m.zip shaAdds).foldl (fun x e => shaStep x (e.1 + e.2)) (h.take 4, h.drop 4)
  (h.zip (x.1 ++ x.2)).map (fun e => e.1 + e.2)

/-- A message of n bytes is filled up to whole blocks: a one bit, zeros, and its length in bits as the last 16 bytes. -/
def shaFill (n : Nat) : List Nat := [0x80] ++ List.replicate ((239 - n % 128) % 128) 0 ++ msbBytes (8 * n) 16

/-- The 48 bytes of the SHA-384 digest of a byte list. -/
def sha384 (m : List Nat) : List Nat :=
  let p := m ++ shaFill m.length
  let h := (List.range (p.length / 128)).foldl (fun h i => shaAfter h (bytesAt p (128 * i) 128)) shaStart
  (h.take 6).flatMap (fun w => msbBytes w.toNat 8)

/-- The bytes of a number, least significant first. -/
def bytesOf (v : Nat) : Nat → List Nat
  | 0 => []
  | n + 1 => v % 256 :: bytesOf (v / 256) n

/-- The number that bytes spell, least significant first. -/
def ofBytes (l : List Nat) : Nat := l.foldr (fun b a => b + 256 * a) 0

end Sys2Proof.Machine
end

