-- ==== Sys2Proof/Config.lean ====
section
/-!
DEFINITION. What the spec leaves open: values that nothing in the model constrains. Each is an opaque constant without a
body, so no proof can rest on a value of it (notes/assumptions/1.md).
-/
namespace Sys2Proof.Config

/-- The n-th free value: a number the spec does not state, used where an operation goes on with a value the spec calls
unspecified or does not give. The step supplies n from the state's counter. (DESIGN CHOICE: notes/assumptions/1.md.) -/
opaque freeNat : Nat → Nat

/-- The highest FREQ_STEP that the Keeper's calibration gives a half, 2 × parcel + half, at a set point in units of 2.5 mV (R34, R508): the
spec gives the ceiling no figure but at the reset voltage. (DESIGN CHOICE: notes/assumptions/105.md.) -/
opaque ceilStep : Nat → Nat → Nat

/-- The manufacturer identity that fuses give IDCODE (R732). (DESIGN CHOICE: notes/assumptions/1.md.) -/
opaque manufacturer : BitVec 11

end Sys2Proof.Config
end

