-- ==== Sys2Proof/Machine/Sparse.lean ====
section
/-!
DEFINITION. Sparse maps as plain data: a list of (key, value) pairs with strictly rising keys and no pair equal to what an
unlisted key holds, so that equal maps are equal lists. Registers, memory, tags, register files and tables are all held so.
-/
namespace Sys2Proof.Machine

/-- A map from numbers to values, as a sorted list of pairs. What an unlisted key holds is said by its reader. -/
abbrev Sparse (α : Type) := List (Nat × α)

/-- The value at key `q`, or `d` where it is not listed. -/
def Sparse.get {α : Type} (d : α) : Sparse α → Nat → α
  | [], _ => d
  | (k, v) :: r, q => if k = q then v else Sparse.get d r q

/-- Whether key `q` is listed. -/
def Sparse.has {α : Type} : Sparse α → Nat → Bool
  | [], _ => false
  | (k, _) :: r, q => k == q || Sparse.has r q

/-- The map without key `q`. -/
def Sparse.erase {α : Type} : Sparse α → Nat → Sparse α
  | [], _ => []
  | (k, v) :: r, q => if k = q then Sparse.erase r q else (k, v) :: Sparse.erase r q

/-- The map with `v` at key `q`, keys kept rising. -/
def Sparse.put {α : Type} : Sparse α → Nat → α → Sparse α
  | [], q, v => [(q, v)]
  | (k, w) :: r, q, v =>
    if q < k then (q, v) :: (k, w) :: r
    else if q = k then (q, v) :: r
    else (k, w) :: Sparse.put r q v

/-- The map with `v` at key `q`, where `d` is what the unlisted key `q` holds: writing `d` removes the entry. -/
def Sparse.set {α : Type} [DecidableEq α] (d : α) (m : Sparse α) (q : Nat) (v : α) : Sparse α :=
  if v = d then Sparse.erase m q else Sparse.put m q v

/-- Key `k` is above the bound, if there is one. -/
def Sparse.above (b : Option Nat) (k : Nat) : Bool :=
  match b with
  | none => true
  | some x => decide (x < k)

/-- Every listed key is above `b`, keys rise, and no listed value equals `d`. -/
def Sparse.okAbove {α : Type} [DecidableEq α] (d : α) : Option Nat → Sparse α → Bool
  | _, [] => true
  | b, (k, v) :: r => Sparse.above b k && !decide (v = d) && Sparse.okAbove d (some k) r

/-- The canonical form: keys strictly rising, no listed value equal to the default `d`. -/
def Sparse.wf {α : Type} [DecidableEq α] (d : α) (m : Sparse α) : Bool := Sparse.okAbove d none m

/-- Keep only the entries whose key satisfies `p`. -/
def Sparse.keep {α : Type} (p : Nat → Bool) (m : Sparse α) : Sparse α := m.filter (fun e => p e.1)

/-- Change every value; those that become the default leave the list. -/
def Sparse.mapVals {α : Type} [DecidableEq α] (d : α) (f : α → α) (m : Sparse α) : Sparse α :=
  m.filterMap (fun e => if f e.2 = d then none else some (e.1, f e.2))

end Sys2Proof.Machine
end

