-- ==== Sys2Proof/Machine/CoreState.lean ====
section
/-!
DEFINITION. What one core holds beside its registers of the register table (R51, R52): its eight threads, instruction
memory, tile file, accumulators, matrix queue, data cache, Pot slots, watch table and core DMA engines.
-/
namespace Sys2Proof.Machine

/-- Thread states of R104. -/
inductive TState where
  | stopped | ready | waiting | sleeping | suspended | halted
  deriving DecidableEq, Repr

/-- Mailbox states of R80. -/
inductive MbState where
  | empty | pending | full | error
  deriving DecidableEq, Repr

/-- A mailbox: 64 bits and a state (R52), and the status code that mberr shows for it. -/
structure Mbox where
  st : MbState := .empty
  val : Word := 0
  err : Status := 0
  deriving DecidableEq, Repr

/-- The destination of a register write in flight (R71): scalar, predicate, loop counter, vector, state register, a tile's
row data or its scale bytes, or the sticky float flags. -/
inductive Dest where
  | s (n : Nat) | p (n : Nat) | lc (n : Nat) | v (n : Nat) | sreg (n : Nat) (sup : Bool) | row (tile r : Nat)
  | scale (tile r : Nat) | flags | mbox (n : Nat)
  deriving DecidableEq, Repr

/-- A register write in flight: it is seen by reads in cycle `due` or later (R71). -/
structure Flight where
  dest : Dest
  val : Nat
  due : Nat
  deriving DecidableEq, Repr

/-- A branch whose delay slot issues next (R84): where the branch stood, where it goes if taken, and what R127 puts back. -/
structure Slot where
  bpc : Nat
  target : Option Nat
  rstack : List Nat
  active : Nat
  shadow : Nat
  deriving DecidableEq, Repr

/-- What an abandoned or failed word returns to: the thread's place before the word issued (R127 to R129, R136), and the cycle in which it issued (R121). -/
structure Ctx where
  pc : Nat := 0
  slot : Option Slot := none
  shadow : Nat := 0
  lc : Sparse Nat := []
  active : Nat := 0
  cycle : Nat := 0
  deriving DecidableEq, Repr

/-- What a WAITING or SLEEPING thread waits for. The words of `mbrd`, `mbwait` and `pair` run at the arrival they wait for,
that of `pair` with the scalar registers it read when it issued (R68); the
words of `cacheRoom`, `mqRoom`, `wrf` and `txHold` are withheld and issue again. `load` holds the destination, the access size in bytes and, for a word
whose value the module already holds (an MMR read), that value; `preload` the lines of the range and the next one to fetch. -/
inductive Wait where
  | none
  | load (dest : Dest) (size : Nat) (addr : Word) (val : Option Nat)
  | atomic (dest : Dest) (addr : Word) (id : Nat) (cnt : Bool)
  | mmrStore (addr : Word)
  | fill (dest : Dest) (size : Nat) (addr : Word) (fid : Nat)
  | cacheRoom
  | cacheOff
  | flush (addr : Word) (lo hi : Nat) (inv : Bool)
  | preload (first next last : Nat)
  | tstop (k : Nat)
  | mqRoom
  | msync
  | fence (scope : Nat)
  | fe (op : Nat) (dest : Nat) (addr : Word) (opt : Nat) (data : Word)
  | mbrd (dest mb : Nat)
  | mbwait (mask : Nat)
  | pair (word : BitVec 32) (regs : Sparse Word)
  | sleep
  | wrf
  | txHold
  deriving DecidableEq, Repr

/-- Where a full/empty wait stands: its operation is on its way, its watch is armed, or its watch was refused and the poll
interval runs (R336, R339). -/
inductive WatchPhase where
  | sent | armed | poll
  deriving DecidableEq, Repr

/-- What a mailbox-directed operation still needs of its reply: a full/empty read that may be issued again (R339), an atomic to
count (R559) with the number of its write, or the value that a register has already given. -/
inductive MbWait where
  | fe (op : Nat) (addr : Word) (opt : Nat) (ph : WatchPhase)
  | atomic (id : Nat) (cnt : Bool)
  | val (v : Nat)
  deriving DecidableEq, Repr

/-- A write of a thread that its target has not yet acknowledged (R324, R328): a number, and the smallest scope that
contains the target. -/
structure OutWrite where
  id : Nat
  scope : Nat
  deriving DecidableEq, Repr

/-- A release that has not left the core: it waits for the writes numbered below `before` whose target lies in `scope`. -/
structure HeldRelease where
  id : Nat
  scope : Nat
  before : Nat
  addr : Word
  data : Word
  kind : Nat
  deriving DecidableEq, Repr

/-- One hardware thread (R51, R52, R104). -/
structure Thread where
  st : TState := .stopped
  x : Sparse Word := []
  v : Sparse Vec := []
  p : BitVec 8 := 0
  lc : Sparse Nat := []
  mb : Sparse Mbox := []
  rstack : List Nat := []
  pc : Nat := 0
  slot : Option Slot := none
  shadow : Nat := 0
  oldMode : Nat := 0
  notBefore : Nat := 0
  flight : List Flight := []
  wait : Wait := .none
  armed : Bool := false
  poll : Bool := false
  waitStart : Nat := 0
  snap : Ctx := {}
  stopReq : Bool := false
  haltReq : Bool := false
  stepReq : Bool := false
  preHalt : Option TState := none
  heldWake : Option Nat := none
  timerHeld : Bool := false
  wdog : Nat := 0
  outw : List OutWrite := []
  nextW : Nat := 0
  held : List HeldRelease := []
  wrfOut : Option (Nat × Nat × Nat) := none
  mbWait : Sparse MbWait := []
  smx : Option (Nat × Nat) := none
  send : Sparse Word := []
  sendStatus : Option Nat := none
  sendTimer : Bool := false
  susVec : Nat := 0
  deriving DecidableEq, Repr

/-- One row of a tile: BPR data bytes and its scale bytes (R153). -/
structure TileRow where
  data : Vec := 0
  scale : BitVec 32 := 0
  deriving DecidableEq, Repr

/-- A tile's rows and valid bits; its configuration is the register tcfgN (R155, R169). `short` lists the short row
operations that keep it busy: until which cycle, issued by which thread (R163). -/
structure Tile where
  valid : BitVec 64 := 0
  rows : Sparse TileRow := []
  short : List (Nat × Nat) := []
  deriving DecidableEq, Repr

/-- A TLD or TST in progress, with the world and level of its word, that its rows are checked for (R116, R160 to R162).
(DESIGN CHOICE: notes/assumptions/99.md.) -/
structure TileXfer where
  tile : Nat
  thread : Nat
  world : Nat := 0
  level : Nat := 0
  store : Bool
  base : Word
  stride : Word
  mb : Nat
  todo : List Nat
  out : List Nat := []
  done : Nat := 0
  fail : Option (Nat × Status) := none
  quit : Bool := false
  deriving DecidableEq, Repr

/-- An operand latch set (R166). -/
structure Latch where
  live : Bool := false
  fresh : Bool := false
  world : Nat := 0
  tile : Nat := 0
  slice : Nat := 0
  rows : List TileRow := []
  deriving DecidableEq, Repr

/-- An accumulator tile: type (0 NONE, 1 EXACT, 2 FP32), world, elements and invalid bits (R181, R190), and the check values of an EXACT one's
elements (R199). An element is its 128-bit word or its 32 bits, at key 16 × i + j. -/
structure Accum where
  typ : Nat := 0
  world : Nat := 0
  el : Sparse Nat := []
  inv : BitVec 256 := 0
  chk : Sparse Nat := []
  deriving DecidableEq, Repr

/-- The matrix operations that queue (R179). -/
inductive MOp where
  | mma (ta tb qa qb : Nat) (keepA keepB : Bool)
  | acvt (tn q c : Nat) (scale : Word)
  | azero
  | astx (mb : Nat) (addr : Word)
  | aldx (mb : Nat) (addr : Word)
  | aldxAdd (mb : Nat) (addr : Word)
  deriving DecidableEq, Repr

/-- An entry of the matrix queue: operation, accumulator, issuer, its word's address, mode, world and level, what its issue checks found
of the accumulator, whether it runs, and since which cycle (R179, R180). -/
structure MEntry where
  op : MOp
  acc : Nat
  thread : Nat
  pc : Nat
  mode : Nat
  typ : Nat
  world : Nat
  issWorld : Nat
  issLevel : Nat := 0
  running : Bool := false
  start : Nat := 0
  void : Bool := false
  deriving DecidableEq, Repr

/-- The image access of an ASTX, ALDX or ALDX.ADD whose queue entry has run, for its mailbox (R196): the status already known; the area whose
acknowledgements are outstanding; and whether the lowest of them lies below what is already known to be refused. -/
structure ImageAccess where
  thread : Nat
  mb : Nat
  status : Option Status
  area : Option (Word × Nat) := none
  below : Bool := false
  deriving DecidableEq, Repr

/-- What the shadow checker captured of the MMA it recomputes: its entry, operand slices and starting accumulator (R200). -/
structure ShadowOp where
  entry : MEntry
  a : List TileRow
  b : List TileRow
  acc : Accum
  deriving DecidableEq, Repr

/-- A cache entry (R255). `left` marks the bytes of the fill `fid` in flight that have not landed; `pref` says that a PREF fetches them (R261). -/
structure CEntry where
  line : Nat
  world : Nat
  valid : BitVec 64 := 0
  dirty : BitVec 64 := 0
  lock : Bool := false
  data : Vec := 0
  left : BitVec 64 := 0
  pref : Bool := false
  fid : Nat := 0
  deriving DecidableEq, Repr

/-- A side-buffer entry (R261). -/
structure SideEntry where
  line : Nat
  world : Nat
  valid : BitVec 64 := 0
  data : Vec := 0
  left : BitVec 64 := 0
  fid : Nat := 0
  deriving DecidableEq, Repr

/-- A write-back in flight: line, world, mask, data, and the thread of a range operation that waits for it (R259). -/
structure WriteBack where
  line : Nat
  world : Nat
  mask : BitVec 64
  data : Vec
  thread : Option Nat
  deriving DecidableEq, Repr

/-- What ends an access in flight (R326): a reply to a thread, to one of its mailboxes or to its full/empty operation; the acknowledgement of one of its
writes; a row of a transfer to a mailbox; an image; a fill; a write-back of a line; the commit of its staged words. -/
inductive AccKey where
  | none | word (t : Nat) | mail (t m : Nat) | fe (t : Nat) | write (t id : Nat) | row (t m r : Nat) | image (b : Nat) | fill (fid : Nat)
  | line (l : Nat) | send (t : Nat)
  deriving DecidableEq, Repr

/-- An access of the core in flight (R326): what ends it, the bytes it names, the parts of its reply that have not come, whether it is a release that
waits for its thread's writes (R328), and the request of one that waits in the core. -/
structure Access where
  key : AccKey
  mem : Nat
  off : Nat
  len : Nat
  parts : List Nat
  held : Bool := false
  msg : Option (List Nat) := none
  deriving DecidableEq, Repr

/-- A watch of the core's watch table (R336). -/
structure Watch where
  word : Nat
  onFull : Bool
  waiter : Word
  plot : Nat
  epoch : Nat
  waitf : Bool
  deriving DecidableEq, Repr

/-- A Pot slot (R314): state (0 closed, 1 open, 2 ERROR), destination as a window offset, the counts, the sum so far and the tree
nodes held, by k × 2^20 + i; `leaves` are the tags covered and `spoiled` says that software wrote the hold area (R323). -/
structure PotSlot where
  state : Nat := 0
  form : Nat := 0
  err : Nat := 0
  done : Nat := 0
  n : Nat := 0
  scope : Nat := 0
  plot : Nat := 0
  world : Nat := 0
  dest : Nat := 0
  sums : List Nat := []
  nodes : Sparse (List Nat) := []
  leaves : Nat := 0
  spoiled : Bool := false
  deriving DecidableEq, Repr

/-- One core, beside its registers of the register table. `tfpend` are the TFPEND bits as each world sees them and `tfnew` those
whose notice has not been taken yet (R124); `stale` lists the worlds whose stalemate has been raised (R135); `reserved` is the
bank (true for the cellar) and cycle kept for the network port (R237); `corrDue` the code words whose correction is to be
written back (R243). -/
structure Core where
  threads : Sparse Thread := []
  imem : Sparse (BitVec 32) := []
  cyc : Nat := 0
  lastIssue : Nat := 7
  tfpendT : BitVec 8 := 0
  stale : List Nat := []
  tfpendK : BitVec 8 := 0
  tfnewT : BitVec 8 := 0
  tfnewK : BitVec 8 := 0
  inReset : Bool := true
  tiles : Sparse Tile := []
  xfers : List TileXfer := []
  latchA : Latch := {}
  latchB : Latch := {}
  accs : Sparse Accum := []
  mq : List MEntry := []
  images : List ImageAccess := []
  shadowArm : Bool := false
  shadowOp : Option ShadowOp := none
  shadowStart : Nat := 0
  shadowCnt : Nat := 0
  cache : List CEntry := []
  dropped : List CEntry := []
  nextFill : Nat := 1
  side : List SideEntry := []
  wbs : List WriteBack := []
  wbLost : Bool := false
  kend : Bool := false
  kcodes : List Nat := []
  cerrK : Word := 0
  cerraK : Word := 0
  flying : List Access := []
  watches : List Watch := []
  pots : Sparse PotSlot := []
  holdVal : Nat := 0
  reserved : Option (Bool × Nat) := none
  corrDue : List Nat := []
  deriving DecidableEq, Repr

end Sys2Proof.Machine
end

