-- ==== Sys2Proof/Machine/DmaState.lean ====
section
/-!
DEFINITION. What a DMA channel holds beside its registers (R359 to R395).
-/
namespace Sys2Proof.Machine

/-- The kinds of request a channel makes: its descriptor, a block of program words, a target list, a read and a write of a MOVE, a
HASH digest, the four SIGNALs, the full/empty operation of a WAIT, the read-back, the residual bitmap, the status words and the OWN
word of the descriptor. -/
inductive DmaKind where
  | desc | prog | list | read | write | digest | fill | add | post | event | wait | readBack | resid | status | own
  deriving DecidableEq, Repr

/-- A request that has no final reply yet: its number, kind, address and bytes, what it writes, where read data goes, the instruction
that issued it, the retries it has had (R389), and for a fabric Deal the entry of its target list. `failed` holds the retryable
status it waits to be retried for. -/
structure DmaReq where
  id : Nat
  kind : DmaKind
  addr : Word
  len : Nat
  data : Nat := 0
  dst : Word := 0
  pc : Nat := 0
  tries : Nat := 0
  entry : Option Nat := none
  failed : Option Nat := none
  deriving DecidableEq, Repr

/-- An open LOOP level (R378): the word after the LOOP, iterations left, iteration number and increments. -/
structure DmaLoop where
  start : Nat
  left : Nat
  iter : Nat
  sinc : Int
  dinc : Int
  deriving DecidableEq, Repr

/-- What a channel waits for in a WAIT (R379 to R381): a word (`empty` when it is then set EMPTY) whose watch is armed or not, or
events; with its timeout in µs. -/
inductive DmaWait where
  | word (empty : Bool) (addr : Word) (armed : Bool) (limit : Nat)
  | events (mask limit : Nat)
  deriving DecidableEq, Repr

/-- A MOVE in progress (R374 to R387): its first addresses with the loop offsets added, its shape, the next element, and how it
runs: `deal` 0 plain, 1 Deal, 2 fabric Deal; `one` an element to a request, `seq` a request at a time, `whole` every source byte
read first, `beyond` that the loop offset takes a Deal target's OFFSET out of its field. `list` is a fabric Deal's target list, `shared` says that elements of the destination share bytes, `written` holds the bytes
written so far in that case. -/
structure DmaMove where
  src : Word
  dst : Word
  e : Nat
  n0 : Nat
  n1 : Nat
  n2 : Nat
  ss1 : Nat
  ds1 : Nat
  ss2 : Nat
  ds2 : Nat
  deal : Nat := 0
  len : Nat
  i : Nat := 0
  one : Bool := false
  seq : Bool := false
  whole : Bool := false
  beyond : Bool := false
  shared : Bool := false
  written : List Nat := []
  list : Option (List Nat) := none
  deriving DecidableEq, Repr

/-- A channel's run: descriptor, identity, program, position, outstanding requests, digest and outcome. `stage` counts the steps of
its completion (R392). -/
structure Dma where
  running : Bool := false
  fetching : Bool := false
  descAddr : Word := 0
  w0 : Word := 0
  prog : Word := 0
  resid : Word := 0
  world : Nat := 0
  level : Nat := 0
  plot : Nat := 0
  epoch : Nat := 0
  thread : Option Nat := none
  mb : Option Nat := none
  irq : Bool := false
  words : Sparse Word := []
  pc : Nat := 0
  loops : List DmaLoop := []
  move : Option DmaMove := none
  wait : Option DmaWait := none
  outs : List DmaReq := []
  nextId : Nat := 0
  code : Option Nat := none
  cause : Nat := 0
  endPc : Nat := 0
  faultAddr : Word := 0
  bytes : Nat := 0
  retries : Nat := 0
  lastWrite : Option Word := none
  undelivered : List Nat := []
  digest : Option (List Nat) := none
  feeding : Bool := false
  stage : Nat := 0
  descFault : Option Nat := none
  deriving DecidableEq, Repr

end Sys2Proof.Machine
end

