-- ==== Sys2Proof/Machine/HostState.lean ====
section
/-!
DEFINITION. What the host interface and the command processor hold beside their registers (R459 to R494).
-/
namespace Sys2Proof.Machine

/-- A completion entry that is to be written (R476): status, command identifier, kind, words 1 to 7, and the DMA request (channel,
number) that it answers when written (R474). -/
structure Entry where
  status : Nat
  cid : Nat
  kind : Nat
  words : List Nat
  dma : Option (Nat × Nat) := none
  deriving DecidableEq, Repr

/-- A queue pair's engine (R471 to R475): the completion phase, entries that wait for room, entries posted since the last interrupt,
and whether a ring read or write waits to be repeated. -/
structure Qp where
  phase : Bool := true
  wait : List Entry := []
  fresh : Nat := 0
  sqRetry : Bool := false
  cqRetry : Bool := false
  deriving DecidableEq, Repr

/-- Where a command stands (R471, R481, R486, R479): to be carried out at fetch, waiting for admission, between steps, in a step whose
work is to be done or has been done, or a LAUNCH whose kernels run. -/
inductive CmdPhase where
  | atFetch | waiting | between | granted | worked | launched
  deriving DecidableEq, Repr

/-- A command of a queue (R476): its words, class (0 Trump to 3 Pass) and plot, its fetch time and admission wait in µs, its steps,
what is to end it, and its results so far. `post` is false once its completion is to be discarded (R465); `after` is the command
that a CANCEL's own completion follows (R487); `notes` are what the command's own steps keep. -/
structure Cmd where
  seq : Nat
  q : Nat
  cid : Nat
  words : List Nat
  cls : Nat
  plot : Nat
  phase : CmdPhase
  fetched : Nat
  wait : Nat := 0
  done : Nat := 0
  total : Nat := 1
  cancelled : Bool := false
  aborted : Bool := false
  post : Bool := true
  code : Nat := 0
  res0 : Nat := 0
  res1 : Nat := 0
  after : Option Nat := none
  notes : List Nat := []
  deriving DecidableEq, Repr

/-- A log record (R465, R466, R472, R478): its page and its values. -/
structure LogRec where
  page : Nat
  vals : List Nat
  deriving DecidableEq, Repr

/-- A PCIe function beside its registers: log2 of its BAR4 size, whether its accesses use address translation services, and its
window reads that have had no reply yet, as (offset, length) (R460, R463). -/
structure Fn where
  bar4 : Nat := 30
  ats : Bool := false
  reads : List (Nat × Nat) := []
  deriving DecidableEq, Repr

/-- A host link (R460, R728, R758): training has been started, it is up, PERSTn_N is asserted, the link is in LTSSM Loopback, and the
4 KiB pages whose translations its cache holds, newest last. -/
structure Link where
  training : Bool := false
  up : Bool := false
  perst : Bool := false
  loop : Bool := false
  ats : List Nat := []
  deriving DecidableEq, Repr

/-- The command processor and queue engines: queue pairs, commands by age, logs, the place in the frame of 16 grants, and the
admissions of the last millisecond as (time, class, wait). -/
structure Cp where
  qps : Sparse Qp := []
  cmds : List Cmd := []
  nextSeq : Nat := 0
  logs : List LogRec := []
  frame : Nat := 0
  waits : List (Nat × Nat × Nat) := []
  fns : Sparse Fn := []
  links : Sparse Link := []
  deriving DecidableEq, Repr

end Sys2Proof.Machine
end

