-- ==== Sys2Proof/Machine/FabState.lean ====
section
/-!
DEFINITION. What the Aelx fabric ports and the transport hold beside their registers (R423 to R455).
-/
namespace Sys2Proof.Machine

/-- A message (R439, R440): its header's fields, STREAM and STATUS in one, and its payload as a little-endian number of `len` bytes. -/
structure FabMsg where
  op : Nat
  kw : Bool := false
  sup : Bool := false
  plot : Nat := 0
  epoch : Nat := 0
  len : Nat := 0
  tag : Nat := 0
  off : Nat := 0
  strm : Nat := 0
  arg : Nat := 0
  data : Nat := 0
  deriving DecidableEq, Repr

/-- A frame of a space that its peer has not acknowledged (R436): its TSEQ, messages, re-sends, and the port it last left by. -/
structure FabFrame where
  tseq : Nat
  msgs : List FabMsg
  tries : Nat := 0
  port : Nat
  deriving DecidableEq, Repr

/-- A sequence space (R434, R436, R453): the next TSEQ, unacknowledged frames, messages that wait for room, the window with the frames
acknowledged since it last grew, the next TSEQ to receive in order and those received beyond it, and a routed space's port. -/
structure Space where
  next : Nat := 0
  frames : List FabFrame := []
  queue : List FabMsg := []
  window : Nat := 8
  grow : Nat := 0
  rx : Nat := 0
  got : List Nat := []
  port : Option Nat := none
  deriving DecidableEq, Repr

/-- A stream counter (R446). -/
structure Stream where
  num : Nat
  count : Nat := 0
  failed : Bool := false
  deriving DecidableEq, Repr

/-- A connection (R434 to R438): generation, OPEN to be set until a frame acknowledges it, refused with BUSY, closing, the eight
spaces by 2 × VC + lane, and stream counters. -/
structure Conn where
  gen : Nat
  opening : Bool := false
  busy : Bool := false
  closing : Bool := false
  spaces : Sparse Space := []
  streams : List Stream := []
  deriving DecidableEq, Repr

/-- The keys that routed ports hold for a peer (R449, R450): the slots installed (a bit each), the slot in use and the frames encrypted. -/
structure FabKeys where
  keys : Nat := 0
  key : Nat := 0
  sealed : Nat := 0
  deriving DecidableEq, Repr

/-- A message that waits at a port's ingress (R432, R441): its peer, class, lane, and the cells its frame gives back when it leaves. -/
structure RxMsg where
  peer : Nat
  vc : Nat
  resp : Bool
  cells : Nat
  msg : FabMsg
  deriving DecidableEq, Repr

/-- A Pot contribution in a port's combiner (R448), on its way out to `peer` or in from it. -/
structure FabComb where
  out : Bool
  peer : Nat
  vc : Nat
  kw : Bool
  sup : Bool
  part : PotPart
  deriving DecidableEq, Repr

/-- A port (R426 to R433): link sequence numbers, the replay buffer, replays without progress, the NAK sent, credit held and owed by
2 × VC + lane, the ingress messages, the combiner, and a direct port's keys. -/
structure FabPort where
  lnext : Nat := 0
  lrx : Nat := 0xFFFF
  naked : Bool := false
  replay : List (Nat × List Nat) := []
  replays : Nat := 0
  credit : Sparse Nat := []
  owed : Sparse Nat := []
  rx : List RxMsg := []
  comb : List FabComb := []
  keys : Nat := 0
  key : Nat := 0
  sealed : Nat := 0
  deriving DecidableEq, Repr

/-- What an agent of this module asked of another module: its request as it was sent, the messages that have had no reply, the first
failing status and the data read so far. -/
structure FabGroup where
  id : Nat
  req : List Nat
  left : Nat
  bad : Nat := 0
  acc : Nat := 0
  deriving DecidableEq, Repr

/-- A message whose reply has not come (R439): its tag, peer, class, group, and where its data goes in the group's. -/
structure FabOut where
  tag : Nat
  peer : Nat
  vc : Nat
  grp : Nat
  pos : Nat
  deriving DecidableEq, Repr

/-- A WRITE_FINAL that is held (R446): the port it came by, its peer and class, and the message. -/
structure FabFinal where
  port : Nat
  peer : Nat
  vc : Nat
  msg : FabMsg
  deriving DecidableEq, Repr

/-- The fabric: ports, connections by peer, the last GEN and the routed ports' keys of each peer, what is outstanding, WRITE_FINALs held, by message tag the other
tags that a combined contribution answers (R448) and the requests whose watches are armed elsewhere (R454), and how much of what the module's
units have sent has been packed. -/
structure Fab where
  ports : Sparse FabPort := []
  conns : Sparse Conn := []
  gens : Sparse Nat := []
  peerKeys : Sparse FabKeys := []
  outs : List FabOut := []
  groups : List FabGroup := []
  nextTag : Nat := 0
  finals : List FabFinal := []
  joined : Sparse (List Nat) := []
  armed : Sparse (List Nat) := []
  cursor : Nat := 0
  deriving DecidableEq, Repr

end Sys2Proof.Machine
end

