-- ==== Sys2Proof/Machine/HangState.lean ====
section
/-!
DEFINITION. What the Keeper holds of hangs and crash dumps (R650 to R662).
-/
namespace Sys2Proof.Machine

/-- A hang: the kind of its engine (1 core, 2 plot stalemate, 3 serving step, 4 router, 5 HBM stack, 6 fabric port), the engine as LOC of a
fault record names it, the domains to reset as (parcel, domain, index), the suspects in ascending order, and the seconds at detection. -/
structure HangRec where
  kind : Nat
  loc : Nat
  doms : List (Nat × Nat × Nat)
  suspects : List Nat
  sec : Nat
  deriving DecidableEq, Repr

/-- Where a recovery stands (R652): none, the dump of step 3, steps 4 and 5, a replay, or the teardown of the guilty context. -/
inductive HangPhase where
  | idle | dumping | resetting | replaying | resuming
  deriving DecidableEq, Repr

/-- A dump to be written (R658): its REASON, the hang or record number, the domains and the plots it covers, and the DUMP message that asked for it and
is answered once it starts (R710). -/
structure DumpReq where
  reason : Nat
  id : Nat := 0
  doms : List (Nat × Nat × Nat) := []
  plots : List Nat := []
  asker : Option MgmtSrc := none
  deriving DecidableEq, Repr

/-- The hang procedure: the hang being recovered, the resets still to be asked for and those in progress, the plots held and the threads that
holding them suspended, as core × 8 + thread, the suspects still to be replayed, the one being replayed, those that hung again, the guilty
plot whose teardown runs, the commands that the reset interrupted, by their numbers, the hangs that wait, the dumps that wait with the
first one running, the units that the side path has found silent, with the bytes read of each, and the dump buffer of Rootstock. -/
structure Hang where
  phase : HangPhase := .idle
  cur : HangRec := ⟨0, 0, [], [], 0⟩
  todo : List (Nat × Nat × Nat) := []
  busy : List (Nat × Nat × Nat) := []
  held : List Nat := []
  threads : List Nat := []
  left : List Nat := []
  replay : Option Nat := none
  again : List Nat := []
  guilty : Option Nat := none
  cut : List Nat := []
  next : List HangRec := []
  dumps : List DumpReq := []
  silent : List (DumpUnit × Nat) := []
  buffer : List Nat := []
  deriving DecidableEq, Repr

end Sys2Proof.Machine
end

