-- ==== Sys2Proof/Machine/ImageState.lean ====
section
/-!
DEFINITION. What the Keeper holds of plots, layout images, profiles and teardowns (R495 to R542, R643 to R649).
-/
namespace Sys2Proof.Machine

/-- A plot as its image binds it, beside PLOT_STAT_n (R502): service core, pool banks, pool range and spill pages. -/
structure PlotBind where
  service : Nat := 0x3FFF
  spill : Nat := 0
  pool : Nat := 0
  pooln : Nat := 0
  vbase : Nat := 0
  gbase : Nat := 0
  deriving DecidableEq, Repr

/-- A teardown in progress (R646, R647): the plot, the CONTEXT_TEARDOWN commands that complete with it, its quiesce horizon in µs, and
what follows it: 0 nothing, 1 the rest of a partial re-bind (R528), 2 the verdict of a hang recovery (R652). -/
structure Teardown where
  plot : Nat
  cmds : List Nat := []
  horizon : Nat := 200
  next : Nat := 0
  deriving DecidableEq, Repr

/-- A partial re-bind between its commit and its completion (R528): command, image, what the plot was bound to before, whether a
reset has ended it (R532), and whether the image failed check 2 or 3 (R519). -/
structure Rebind where
  plot : Nat
  cmd : Nat
  image : List Nat
  regs : Sparse (BitVec 64)
  bind : PlotBind
  masks : Sparse Nat
  aborted : Bool := false
  unsigned : Bool := false
  deriving DecidableEq, Repr

/-- Images (R499, R505, R524, R533 to R539). `slots` are the profile slots of SPI NOR device d at 4 × d + slot; `masks` the world
masks by logical core; `spares` what each parcel's SPARES record permits; `repaired` the repair record, as physical cores; `reads` the bytes that each
image command has read; `cause` and `slot` are the choice of the last command (0 none, 1 SWITCH_PROFILE, 2 a staged full image);
`toReset` says that a
Module reset is due for it (R524). -/
structure Images where
  slots : Sparse (List Nat) := []
  inForce : List Nat := []
  staged : Option (List Nat) := none
  cause : Nat := 0
  slot : Nat := 0
  toReset : Bool := false
  masks : Sparse Nat := []
  spares : Sparse Nat := []
  repaired : List Nat := []
  reads : Sparse (List Nat) := []
  rebinds : List Rebind := []
  deriving DecidableEq, Repr

end Sys2Proof.Machine
end

