-- ==== Sys2Proof/Machine/MgmtState.lean ====
section
/-!
DEFINITION. What Rootstock holds of time, management, security, debug, loopbacks and power (R689 to R767).
-/
namespace Sys2Proof.Machine

/-- The servo (R693 to R698): the consecutive measurements below 100 ns, whether ACQUIRING has stepped, the time of the last accepted PPS_IN edge
in 2^-16 ns, the seconds that wait for the next edge, and what the Announce messages have told, by port (32 for the management port): the
data set in the order of its comparison, and currentUtcOffset. -/
structure Servo where
  good : Nat := 0
  stepped : Bool := false
  edge : Option Nat := none
  set : Option Nat := none
  masters : Sparse (List Nat × Nat) := []
  deriving DecidableEq, Repr

/-- Management (R701 to R712): the MCTP endpoint ID and the transmission unit of PCIe VDM, the PLDM terminus ID, the responses stored by address and SEQ,
the SPDM sessions with whether their requester authenticated to the owner root, the owner root digest, the chain of slot 1, the static address
of the management port (kind, prefix length, bytes), and the numeric sensors disabled. -/
structure Mgmt where
  eid : Nat := 0
  unit : Nat := 64
  tid : Nat := 0
  seen : List (Nat × Nat × List Nat) := []
  sessions : List (Nat × Bool) := []
  root : Option (List Nat) := none
  chain : List Nat := []
  static : Option (Nat × Nat × List Nat) := none
  disabled : List Nat := []
  deriving DecidableEq, Repr

/-- A boot record of an SPI NOR device (R718): active bank, trial flag, trial boot count and sequence number. (DESIGN CHOICE: notes/assumptions/71.md.) -/
structure BootRec where
  active : Nat := 0
  trial : Bool := false
  count : Nat := 0
  seq : Nat := 0
  deriving DecidableEq, Repr

/-- Firmware (R713 to R721): the bundles in bank b of device d at 2 × d + b, the governing boot records by device, the bundle that runs and that which
ran before a trial, where an update stands (0 none, 1 requested, 2 table passed, 3 transferring, 4 waiting for activation), its length and the bytes received, the
module blocks whose cores hold other Keeper code than the bundle that runs, what recovery boot waits for (0 none, 2 the host, 3 TFTP), and the bytes of the recovery
buffer. -/
structure Firm where
  banks : Sparse (List Nat) := []
  boots : Sparse BootRec := []
  run : List Nat := []
  prev : List Nat := []
  upd : Nat := 0
  size : Nat := 0
  got : List Nat := []
  old : List Nat := []
  recovery : Nat := 0
  buffer : Sparse Nat := []
  deriving DecidableEq, Repr

/-- JTAG instructions (R732). -/
inductive JtagIr where
  | idcode | bypass | sample | extest | dbgAccess | scan | mbist | hbm1500
  deriving DecidableEq, Repr

/-- Test and debug (R730, R732): the test flits that each router's turn-back test has had back, the JTAG instruction in force, and the boundary-scan
cells. -/
structure Test where
  turns : Sparse Nat := []
  ir : JtagIr := .idcode
  cells : List Bool := []
  deriving DecidableEq, Repr

/-- Power (R751 to R763): AUX in range and the ROM started; a thermal trip not yet released; FAULT_N held low by a record that asks for a module
replacement; coolant inlet and flow in their cap ranges; the milliseconds that the cap has held; the HBM stacks refreshed at the double
rate. -/
structure Power where
  aux : Bool := false
  trip : Bool := false
  fault : Bool := false
  inlet : Bool := false
  flow : Bool := false
  held : Nat := 0
  hot : List Nat := []
  deriving DecidableEq, Repr

end Sys2Proof.Machine
end

