-- ==== Sys2Proof/Machine/RackState.lean ====
section
/-!
DEFINITION. What the Keeper holds of racking (R668 to R688).
-/
namespace Sys2Proof.Machine

/-- A RACK or RESTORE past admission (R677, R682): its command and plot, RACK_CFG and RACK_NVME as admission found them, its phase (RACK: 0 to
begin, 1 capture, 2 drain and seal; RESTORE: 0 to find its record, 1 copy, 2 check, 3 write), the pieces of memory still to be copied, as
(address, offset in the record, bytes), the record's header and directory so far, its length and generation, the drain steps done to tiers 1 and
2 (none where the tier is skipped, sealed or not named), the tier-2 slot and the tiers sealed. `lost` is the map entry whose region the record lacks;
`nvme` are the NVMe commands that its step waits for, `slot` the place in a tier that a RESTORE reads. -/
structure RackJob where
  cmd : Nat
  plot : Nat
  cfg : BitVec 64
  area : BitVec 64
  phase : Nat := 0
  pieces : List (Nat × Nat × Nat) := []
  head : List Nat := []
  bytes : Nat := 0
  gen : Nat := 0
  t1 : Option Nat := none
  t2 : Option Nat := none
  slot1 : Nat := 0
  slot2 : Nat := 0
  sealed : Nat := 0
  lost : Option Nat := none
  nvme : List Nat := []
  slot : Nat := 0
  deriving DecidableEq, Repr

/-- The other end of a partner registration (R673, R674): its module, rack and feed IDs and the override flag. -/
structure Peer where
  module : Nat
  rack : Nat
  feed : Nat
  override : Bool
  deriving DecidableEq, Repr

/-- Racking: the jobs, the last generation of each plot, the capture times of each plot's last 8 RACKs in µs, the tier-1 and tier-2 slots to be
written next, the seconds of power that make no whole hour yet, the registered partner and the hosted module, the modules whose answers registrations await, with the override flag and the request that asked,
the successors named, as (module whose records are held, successor) (R681), whether a failure of R684 has been counted since the last restore, and the
next number of an NVMe command, those not completed as (number, 1 Write, 2 Read, 3 Flush, 4 Identify), and whether the device has power. -/
structure Rack where
  jobs : List RackJob := []
  gens : Sparse Nat := []
  caps : Sparse (List Nat) := []
  next1 : Sparse Nat := []
  next2 : Nat := 0
  secs : Nat := 0
  partner : Option Peer := none
  hosted : Option Peer := none
  asked : List (Nat × Bool × MgmtSrc) := []
  successors : List (Nat × Nat) := []
  hurt : Bool := false
  nvmeId : Nat := 0
  nvme : List (Nat × Nat) := []
  nvmeOn : Bool := true
  deriving DecidableEq, Repr

end Sys2Proof.Machine
end

