-- ==== Sys2Proof/Machine/RepairState.lean ====
section
/-!
DEFINITION. What the Keeper holds of tests, repairs, ageing and its own steward pairs (R600 to R634).
-/
namespace Sys2Proof.Machine

/-- A block under test (R612, R613): its parcel and block, the SELF_TEST command that asked for it, the cores moved to spares by temporary
grafts as (core, spare), and whether its core islands are fenced. -/
structure BlockTest where
  parcel : Nat
  block : Nat
  cmd : Option Nat := none
  moved : List (Nat × Nat) := []
  fenced : Bool := false
  deriving DecidableEq, Repr

/-- Repairs. `overdue` are the module blocks untested for 60 minutes; `saved` the fault records in the Keeper records area of both SPI NOR
devices, oldest first (R604); `rows` the spare rows and columns used, by core × 64 + sub-array + 1, the cellar at sub-array 63 (R244); `lanes` the
module lane that each spare lane, by parcel × 18 + lane, stands in for; `phases` the regulator phases lost by rail; `stewards` the steward
pairs that run; `ring` the management-ring stops bypassed (R23); `plan` the core and router steps that the image plans for an island, as
core × 256 + router (R508), and `aged` those that ageing leaves it (R627, R628). `factory` is the fuses' record of factory repair: the spare that each
logical core went to (R29, R30). Of the readings that the ageing aggregator keeps (R624), `slices` are the latest of each module island, and `eyes` of each
module lane, as width × 256 + height. (DESIGN CHOICE: notes/assumptions/3.md.) -/
structure Repair where
  tests : List BlockTest := []
  overdue : List Nat := []
  saved : List (List Nat) := []
  rows : Sparse Nat := []
  lanes : Sparse Nat := []
  phases : Sparse Nat := []
  stewards : Nat := 2
  ring : List Nat := []
  plan : Sparse Nat := []
  aged : Sparse Nat := []
  factory : Sparse Nat := []
  slices : Sparse Slice := []
  eyes : Sparse Nat := []
  deriving DecidableEq, Repr

end Sys2Proof.Machine
end

