-- ==== Sys2Proof/Machine/ServeState.lean ====
section
/-!
DEFINITION. What the serving engine holds (R569 to R596).
-/
namespace Sys2Proof.Machine

/-- An entry of a step's batch table (R581). -/
structure SrvEntry where
  rid : Nat
  bslot : Nat
  pos : Nat
  nt : Nat
  final : Bool
  deriving DecidableEq, Repr

/-- A step in progress (R580, R583): its entries, whether the kernel runs here, the members whose report is awaited, the first code
other than OK of a kernel, the sums of DET_CNT over the kernel cores at its start, what the members' cores have counted, and whether a hang's reset has ended
the kernel, so that it is to run again. -/
structure SrvStep where
  entries : List SrvEntry
  here : Bool := true
  members : List Nat := []
  code : Nat := 0
  det : List Nat := [0, 0, 0, 0]
  far : List Nat := [0, 0, 0, 0]
  again : Bool := false
  deriving DecidableEq, Repr

/-- A tokeniser table (R586): the token of each byte value, the bytes of each token, and the merges by rank. -/
structure SrvTable where
  bytemap : List Nat
  strings : List (List Nat)
  merges : List (Nat × Nat × Nat)
  deriving DecidableEq, Repr

/-- A loaded model slot of a plot: its descriptor (R572), its group's members by virtual module ID, its tokeniser table, the steps begun,
the step in progress, whether a member has been lost (R594), and the leader where this module is a member (R574). -/
structure SrvModel where
  plot : Nat
  slot : Nat
  desc : List Nat
  members : List Nat := []
  table : Option SrvTable := none
  steps : Nat := 0
  step : Option SrvStep := none
  lost : Bool := false
  leader : Option Nat := none
  deriving DecidableEq, Repr

/-- A tracked request (R575 to R594): the words of its entry, class, time of fetch and admission wait in µs, prompt as tokens once read and
encoded (`enc` while a byte prompt is being encoded), batch slot, KV blocks, positions written, tokens generated, tokens in posted entries, text
that waits with `cont` where it continues a token, whether it has had a slot, an entry, a delay, when it was preempted and the wait that is to be
told, the CANCEL commands that name it and whether its queue was reset (R472), its DET_CNT sums and whether a step held others, and its age. -/
structure SrvReq where
  rid : Nat
  plot : Nat
  q : Nat
  cid : Nat
  cls : Nat
  words : List Nat
  fetched : Nat
  order : Nat := 0
  wait : Nat := 0
  tokens : Option (List Nat) := none
  enc : Option (List Nat) := none
  bslot : Option Nat := none
  blocks : List Nat := []
  pos : Nat := 0
  gen : List Nat := []
  posted : Nat := 0
  text : List Nat := []
  cont : Bool := false
  granted : Bool := false
  began : Bool := false
  delayed : Bool := false
  preAt : Option Nat := none
  preWait : Option Nat := none
  cancels : List Nat := []
  stop : Bool := false
  marks : List Nat := [0, 0, 0, 0]
  shared : Bool := false
  deriving DecidableEq, Repr

/-- The serving engine: models, tracked requests in the order in which they take slots, the next age, and the admissions of the last second as
(time, plot, class, wait). -/
structure Srv where
  models : List SrvModel := []
  reqs : List SrvReq := []
  nextAge : Nat := 0
  waits : List (Nat × Nat × Nat × Nat) := []
  deriving DecidableEq, Repr

end Sys2Proof.Machine
end

