-- ==== Sys2Proof/Machine/KeeperState.lean ====
section
/-!
DEFINITION. What the Keeper and the management units hold beside their registers: translation caches, HBM books, plots, resets, repair,
hang recovery, images, serving, racking, time, management, debug and power.
-/
namespace Sys2Proof.Machine

/-! ### Translation and HBM (R405 to R420) -/

/-- A translation that a cache holds (R411, R413): of a page, from virtual offset `vbase` to module offset `target`, or of a virtual
module ID. -/
structure TxEntry where
  plot : Nat
  mid : Bool
  vbase : Nat
  size : Nat
  target : Nat
  w : Bool
  sup : Bool
  deriving DecidableEq, Repr

/-- What a lookup comes to (R409): an entry, a fault with its detail of vector 12, or a wait on the HOLD of an entry (R414). -/
inductive Lk where
  | ok (x : TxEntry)
  | fault (det : Nat)
  | hold (e : Nat)
  deriving DecidableEq, Repr

/-- A lookup of a translation cache that misses (R411): the cache's port, the thread whose word waits for it, what it looks up, and the
answer once the store has given it; `none` while it is on its way or waits. -/
structure Lookup where
  port : Nat
  thread : Option Nat
  plot : Nat
  sup : Bool
  addr : Word
  write : Bool
  ans : Option Lk := none
  deriving DecidableEq, Repr

/-- The book of an HBM stack (R415 to R418): retired pages, reserve pages taken, Keeper pages moved, and extents (first page, count)
to be zeroised before they are granted again; pseudo-channels in power-down (R403). -/
structure Stack where
  retired : List Nat := []
  used : List Nat := []
  moved : Sparse Nat := []
  dirty : List (Nat × Nat) := []
  pdown : Nat := 0
  deriving DecidableEq, Repr

/-- A platform event that waits for its receiver (R708): its class, kind and payload bytes. -/
structure PEvent where
  cls : Nat
  kind : Nat
  data : List Nat
  deriving DecidableEq, Repr

/-- The event receiver (R708): how it takes events (0 none, 1 sent to it, 2 polled by it), its address, the events that wait for it and
those dropped since the last one sent. -/
structure Receiver where
  mode : Nat := 0
  addr : Nat := 0
  waiting : List PEvent := []
  dropped : Nat := 0
  deriving DecidableEq, Repr

/-- The Keeper's state. `tx` are the translation caches: of core n at n, of bulk channel u at 10368 + u; `syncs` the ranges of the
translation syncs in progress, by plot; `flash` the fault records still to be copied to SPI NOR (R604); `fences` what is draining (3), fenced for a reset (4) or fenced
for repair (5): core n at n, port m at 20000 + m; `resets` says of parcel p that its RESET_REQ is forced (R638); `modReset` is 1 and 2 while a Compute
reset drains and is held, 3 and 4 the same for a Module reset, 5 once that is released and its image is due; `pinLow` is MOD_RESET_N (R759);
`reroute` are the route-table entries of a change that waits for its old routes to drain (R292). -/
structure Keeper where
  tx : Sparse (List TxEntry) := []
  lookups : List Lookup := []
  syncs : Sparse (Nat × Nat) := []
  hbm : Sparse Stack := []
  flash : List Nat := []
  events : Receiver := {}
  plots : Sparse PlotBind := []
  tds : List Teardown := []
  fences : Sparse Nat := []
  resets : Sparse Bool := []
  modReset : Nat := 0
  pinLow : Bool := false
  img : Images := {}
  srv : Srv := {}
  fab : Fab := {}
  rep : Repair := {}
  hang : Hang := {}
  rack : Rack := {}
  servo : Servo := {}
  mgmt : Mgmt := {}
  firm : Firm := {}
  test : Test := {}
  power : Power := {}
  reroute : List (CoreId × Fin 16 × Word) := []
  deriving DecidableEq, Repr

end Sys2Proof.Machine
end

