-- ==== Sys2Proof/Machine/MeshState.lean ====
section
/-!
DEFINITION. What a router of the Trellis holds beside its registers (R276 to R320).
-/
namespace Sys2Proof.Machine

/-- The meters of an injection point (R286): the Trump flits injected in the last 64 cycles by cycle, each plot's Lead credit in 64ths of a flit with the
cycle it was taken at, and the requests that wait at the point, in order. -/
structure Meter where
  trump : List (Nat × Nat) := []
  lead : Sparse (Nat × Nat) := []
  waiting : List Packet := []
  deriving DecidableEq, Repr

/-- A router: the Pot combiner, with the inputs that its contributions came by (R318); the meters of its injection points, 4 local and 5 attachment
(R286); the packets in its input buffers by input port, oldest first (R281); the packets on its outgoing links by output, which are those of the links'
replay buffers (R280); the requests it holds as a seam proxy (R301); and, for each output, the place in the frame of grants and the input that each class
and lane was last granted to (R287). -/
structure Router where
  comb : List (Nat × Packet) := []
  points : Sparse Meter := []
  buf : List (Nat × Packet) := []
  wire : List (Nat × Packet) := []
  proxied : List Packet := []
  frame : Sparse Nat := []
  turn : Sparse Nat := []
  deriving DecidableEq, Repr

/-- A Deal on its way (R309): the packet it left as, its targets, those whose copy is still out, the copies carried out, and the lowest-numbered target
whose copy was not, with its status. -/
structure DealRun where
  id : Nat
  targets : Nat
  out : List Nat
  done : Nat := 0
  low : Option (Nat × Nat) := none
  deriving DecidableEq, Repr

end Sys2Proof.Machine
end

