-- ==== Sys2Proof/Machine/Msg.lean ====
section
/-!
DEFINITION. What the module's units send: requests, replies, notices, interrupts and events. A unit that sends something
appends it to State.sent, oldest first; the command that makes it arrive at another unit is a row of the table.
-/
namespace Sys2Proof.Machine

/-- The kinds of things sent; the arguments' order is given beside each. -/
inductive MsgKind where
  /-- A memory request of a core: core, thread, access code (0 read, 1 write, 2 atomic, 3 full/empty, 4 Pot, 5 final write,
  6 wake, 7 disarm, 8 row), address, bytes, data. -/
  | request
  /-- The answer of a bank, a register or an ingress port: status, data. -/
  | reply
  /-- A wake notify or fired watch on its way: address, thread mask or waiter. -/
  | wake
  /-- A fault record that a core sends to Rootstock over the management ring: core, thread, vector (R125, R135). -/
  | coreFault
  /-- An event to the debugger through DBG_ACCESS. -/
  | dbg
  /-- A completion entry: queue, cid, status. -/
  | completion
  /-- An entry on a module's local queue or a platform event: code, arguments. -/
  | event
  /-- An MSI-X message: function, vector. -/
  | msix
  /-- A frame leaving a fabric port: port, arguments. -/
  | frame
  /-- A packet a router passes on: router, output, arguments. -/
  | packet
  /-- A management response: code, arguments. -/
  | mgmt
  /-- A signal driven on a pin: pin, level. -/
  | pin
  /-- A message of the PCIe links: link or function, arguments. -/
  | pcie
  /-- A JTAG or debug answer. -/
  | jtag
  /-- An order to or a report of the engines of other modules. -/
  | engine
  /-- An NVMe command on the root port. -/
  | nvme
  deriving DecidableEq, Repr

/-- One thing sent. -/
structure Msg where
  kind : MsgKind
  args : List Nat
  deriving DecidableEq, Repr

end Sys2Proof.Machine
end

