-- ==== Sys2Proof/Machine/RegTable.lean ====
section
/-!
DEFINITION. The register tables of spec/ (R8 to R11 and the tables of R50, R58, R101, R137, R139, R169, R202, R273,
R274, R321 to R323, R358, R397, R407, R421, R422, R457, R458, R491 to R494, R542, R568, R596, R606, R633, R634,
R664 to R667, R688, R714, R723, R724, R745 to R748, R766): one constructor of RegName for each register, one Field for each
field that is not Res0, with its bits, access code and reset value as the table gives them. A reset value that the table
does not give as a number (from fuses, latched, live, random, from a record) stands as 0 here, notes/assumptions/3.md.
-/
namespace Sys2Proof.Machine

/-- A register of the module, by the name its table gives it; an array of registers is one name with an index. -/
inductive RegName where
  | MOD_IDENT | MODULE_ID | SPARE_AVAIL | HALF_RAIL_STATUS | ISLAND_STATUS | IMEM_PTR
  | IMEM_DATA | IMEM_CTL | lpa | lstat | dslim | rstat
  | rspill | rsreg | mbstat | mberr | cyc | tid
  | wstat | tvec | svt | wtimeout | epc | estat
  | ecause | eaddr | emode | tstate | tmcmp | ipend
  | tfsel | tfpc | THREAD_CTL | SWI_RAISE | WRANGE_CTL | WRANGE_n
  | tcfg | tprog | tsel | vflags | mode | astat
  | mchk | ccfg | cstat | chit | cmiss | cerr
  | cerra | lderr | BANK_ARB | MEM_ERR_S | MEM_ERR_C | POISON_CLR
  | TAG_ADDR | TAG_DATA | SEAM_CTL | SEAM_STAT | LB_GEN | CLASS_ARB
  | LEAD_RATE_n | RTR_OVR_k | RTR_REDIR | RTR_STAT | RTR_LINKERR | TCLASS
  | POT_HOLD | POT_OPEN | POT_CTL | POT_ORPHAN | POT_SLOT_n | SYNC_CTL
  | STREAM_SEL_0 | STREAM_SEL_1 | SCOPE_MISMATCH_CNT | SMX_INFO | SMX_ADDR | WATCH_STAT
  | DMA_CTL | DMA_STAT | DMA_RING_BASE | DMAC_GO | DMA_RING_CFG | DMA_HEAD
  | DMA_TAIL | DMA_RETRY_LIMIT | DMA_TIMEOUT | DMA_EVENT_SET | DMA_EVENT | DMA_BIND
  | DMA_COUNT | TU_RANGE_W0 | TU_RANGE_W1 | HBM_STAT | HBM_CFG | HBM_ERR_q
  | TU_WSTAT | TU_SYNC | TU_FAULT_INFO | TU_FAULT_ADDR | TU_GRANT_g | TU_MODMAP_v
  | PORT_CFG | PORT_STAT | PORT_BIND | PORT_PLOTS | PORT_POOL_v | PORT_LINK
  | PORT_ERR | PORT_DROP | PORT_MAC | PORT_GW_MAC | PORT_QOS | PORT_VLAN
  | PORT_PTP | FAB_CFG | FAB_PREFIX_HI | FAB_PREFIX_LO | FAB_IPV4 | FAB_ADMIT
  | FAB_STREAM | FAB_DEAL | FAB_POT | FAB_CONN | PT_ENTRY_W0 | PT_ENTRY_W1
  | FUNC_BIND | FUNC_STAT | FUNC_WIN | FUNC_WINERR | QP_BIND | QP_CFG
  | QP_SQ_BASE | QP_CQ_BASE | QP_COAL | QP_STAT | QP_SQ_TAIL | QP_CQ_HEAD
  | QP_CQ_POST | QP_CTL | ADMIT_CFG | ADMIT_STAT | ADMIT_PLOT_n | KEXIT
  | KSTAT | STRAP_STAT | PROFILE_STAT | IMG_STAT | IMG_DIGEST_i | DET_CNT
  | SRV_MOD | SRV_PLOT_A_n | SRV_PLOT_B_n | CORE_CHK | WDOG_CTL | WDOG_KICK
  | FLT_STAT | FLT_HEAD | SCRUB_CFG | SCRUB_STAT | TEST_CFG | TEST_STAT
  | AGE_CFG | AGE_STAT | REPAIR_SUM | RESET_REQ | RESET_STAT | FENCE_DROP_CNT
  | CTX_BIND | EPOCH_DROP | HANG_CFG | HANG_STAT | DUMP_CFG | DUMP_NVME
  | DUMP_STAT | MOD_RESET | DUMP_CTL | TD_STAT | HANG_PLOT_n | RACK_LOC
  | RACK_PARTNER | RACK_CFG | RACK_NVME | RACK_STAT | TIME_NOW_0 | TIME_NOW_1
  | TIME_STAT | TIME_SRC | TIME_CFG | TIME_SET | PPS_TS | FW_STAT
  | FUSE_STAT | FW_CFG | dbp | dwp | dstat | SEND_DATA_w
  | SEND_DEST | SEND_COMMIT | SEND_STAT | DBG_RUN | DBG_STAT | RTR_TURN
  | DBG_LOCK | DBG_NONCE_i | DBG_HOLD | LB_CTL_i | LB_STAT_i | LAST_LB
  | PWR_CFG | PWR_STAT | PWR_EVT | LB_FIXED | LB_HOP_TL | LB_HOP_FP
  | LB_BRG_TL | LB_BRG_FP | SRV_STAT_W0 | SRV_STAT_W1 | PLOT_STAT_W0 | PLOT_STAT_W1
  | RACK_PLOT_W0 | RACK_PLOT_W1 | FLT_REC_W0 | FLT_REC_W1 | FLT_REC_W2 | FLT_REC_W3
  | tfcause | tfaddr | FW_RECOVERY
  deriving DecidableEq, Repr

/-- The access codes of R8; `rws` is a RW bit that, once 1, stays 1 (R11). -/
inductive Acc where
  | ro | rw | rw1c | rwl | wo | rc | rws
  deriving DecidableEq, Repr

/-- The blocks of registers: where a table places its registers (R44, R46 and the owning chapters); `thr` and `cst` are
the state registers of a thread and of a core, reached by GETS and SETS. -/
inductive Block where
  | ident | parcel | router | core | thr | cst | dma | tu | hbm | port | fab | func | queue | adm | image | serve | flt
  | hang | rack | time | sec | dbg | power | recov
  deriving DecidableEq, Repr

/-- One field of a register table. `rep` and `step` describe a field the table repeats along the register
("[2k+1:2k] for k = 0–7"): element k lies at lo + k × step. `legal` lists the ranges of values that are not reserved;
the empty list says that every value is defined (R10). -/
structure Field where
  reg : RegName
  hi : Nat
  lo : Nat
  acc : Acc
  reset : Nat
  sup : Bool := false
  rep : Nat := 1
  step : Nat := 0
  legal : List (Nat × Nat) := []
  deriving DecidableEq, Repr

/-- Where a register lies in its block: offset (or state register number), stride and count of an array, width in bits. -/
structure RegDesc where
  blk : Block
  off : Nat
  stride : Nat
  cnt : Nat
  width : Nat
  deriving DecidableEq, Repr

def MOD_IDENT_PARCELS : Field := ⟨.MOD_IDENT, 39, 32, .ro, 8, false, 1, 0, []⟩
def MOD_IDENT_GRID : Field := ⟨.MOD_IDENT, 31, 24, .ro, 0x24, false, 1, 0, []⟩
def MOD_IDENT_SPARES_PER_PARCEL : Field := ⟨.MOD_IDENT, 23, 16, .ro, 0x10, false, 1, 0, []⟩
def MOD_IDENT_STEPPING : Field := ⟨.MOD_IDENT, 15, 8, .ro, 0xb0, false, 1, 0, []⟩
def MOD_IDENT_PART : Field := ⟨.MOD_IDENT, 7, 0, .ro, 0xa, false, 1, 0, []⟩
def MODULE_ID_ID_LOCK : Field := ⟨.MODULE_ID, 16, 16, .rws, 0, false, 1, 0, []⟩
def MODULE_ID_ID : Field := ⟨.MODULE_ID, 15, 0, .rwl, 0xffff, false, 1, 0, []⟩
def SPARE_AVAIL_FREE : Field := ⟨.SPARE_AVAIL, 4, 0, .ro, 16, false, 8, 5, []⟩
def HALF_RAIL_STATUS_VCORE_SET : Field := ⟨.HALF_RAIL_STATUS, 31, 16, .ro, 0x12c, false, 1, 0, []⟩
def HALF_RAIL_STATUS_CEIL_STEP : Field := ⟨.HALF_RAIL_STATUS, 15, 8, .ro, 0x80, false, 1, 0, []⟩
def HALF_RAIL_STATUS_STATE : Field := ⟨.HALF_RAIL_STATUS, 2, 0, .ro, 0, false, 1, 0, []⟩
def ISLAND_STATUS_CORE_STEP : Field := ⟨.ISLAND_STATUS, 47, 40, .ro, 0x80, false, 1, 0, []⟩
def ISLAND_STATUS_ROUTER_STEP : Field := ⟨.ISLAND_STATUS, 39, 32, .ro, 0x80, false, 1, 0, []⟩
def ISLAND_STATUS_ROUTER_STATE : Field := ⟨.ISLAND_STATUS, 6, 4, .ro, 0, false, 1, 0, []⟩
def ISLAND_STATUS_CORE_STATE : Field := ⟨.ISLAND_STATUS, 2, 0, .ro, 0, false, 1, 0, []⟩
def IMEM_PTR_PART : Field := ⟨.IMEM_PTR, 16, 16, .rw, 0, false, 1, 0, []⟩
def IMEM_PTR_ADDR : Field := ⟨.IMEM_PTR, 15, 3, .rw, 0, false, 1, 0, []⟩
def IMEM_DATA_HI_WORD : Field := ⟨.IMEM_DATA, 63, 32, .wo, 0, false, 1, 0, []⟩
def IMEM_DATA_LO_WORD : Field := ⟨.IMEM_DATA, 31, 0, .wo, 0, false, 1, 0, []⟩
def IMEM_CTL_OVR : Field := ⟨.IMEM_CTL, 2, 2, .rw1c, 0, false, 1, 0, []⟩
def IMEM_CTL_KLOCK : Field := ⟨.IMEM_CTL, 0, 0, .rws, 0, false, 1, 0, []⟩
def lpa_END : Field := ⟨.lpa, 29, 16, .rw, 0, true, 1, 0, []⟩
def lpa_START : Field := ⟨.lpa, 13, 0, .rw, 0, true, 1, 0, []⟩
def lstat_ACTIVE : Field := ⟨.lstat, 3, 0, .rw, 0, true, 1, 0, []⟩
def dslim_EN : Field := ⟨.dslim, 63, 63, .rw, 0, true, 1, 0, []⟩
def dslim_HIGH : Field := ⟨.dslim, 46, 32, .rw, 0, true, 1, 0, []⟩
def dslim_LOW : Field := ⟨.dslim, 14, 0, .rw, 0, true, 1, 0, []⟩
def rstat_SPILLED : Field := ⟨.rstat, 47, 16, .rw, 0, true, 1, 0, []⟩
def rstat_CAUSE : Field := ⟨.rstat, 9, 8, .ro, 0, false, 1, 0, []⟩
def rstat_INH : Field := ⟨.rstat, 5, 5, .ro, 0, false, 1, 0, []⟩
def rstat_DEPTH : Field := ⟨.rstat, 4, 0, .ro, 0, false, 1, 0, []⟩
def rspill_PTR : Field := ⟨.rspill, 17, 3, .rw, 0, true, 1, 0, []⟩
def rsreg_EN : Field := ⟨.rsreg, 63, 63, .rw, 0, true, 1, 0, []⟩
def rsreg_HIGH : Field := ⟨.rsreg, 46, 32, .rw, 0, true, 1, 0, []⟩
def rsreg_LOW : Field := ⟨.rsreg, 14, 0, .rw, 0, true, 1, 0, []⟩
def mbstat_STATE : Field := ⟨.mbstat, 1, 0, .rw, 0, true, 4, 2, []⟩
def mberr_CODE : Field := ⟨.mberr, 15, 0, .ro, 0, false, 4, 16, []⟩
def cyc_COUNT : Field := ⟨.cyc, 63, 0, .ro, 0, false, 1, 0, []⟩
def tid_LOGICAL : Field := ⟨.tid, 45, 32, .ro, 0, false, 1, 0, []⟩
def tid_PHYSICAL : Field := ⟨.tid, 29, 16, .ro, 0, false, 1, 0, []⟩
def tid_THREAD : Field := ⟨.tid, 2, 0, .ro, 0, false, 1, 0, []⟩
def wstat_EXL : Field := ⟨.wstat, 7, 7, .rw, 0, true, 1, 0, []⟩
def wstat_SELF : Field := ⟨.wstat, 6, 6, .rw, 0, true, 1, 0, []⟩
def wstat_IE : Field := ⟨.wstat, 5, 5, .rw, 0, true, 1, 0, []⟩
def wstat_WORLD : Field := ⟨.wstat, 1, 1, .ro, 0, false, 1, 0, []⟩
def wstat_LEVEL : Field := ⟨.wstat, 0, 0, .ro, 1, false, 1, 0, []⟩
def tvec_EN : Field := ⟨.tvec, 31, 1, .rw, 0, true, 1, 0, []⟩
def svt_KEEPER : Field := ⟨.svt, 10, 8, .rw, 7, true, 1, 0, []⟩
def svt_TENANT : Field := ⟨.svt, 2, 0, .rw, 0, true, 1, 0, []⟩
def wtimeout_EN : Field := ⟨.wtimeout, 31, 31, .rw, 0, true, 1, 0, []⟩
def wtimeout_LIMIT : Field := ⟨.wtimeout, 23, 0, .rw, 0, true, 1, 0, []⟩
def epc_ADDR : Field := ⟨.epc, 15, 2, .rw, 0, true, 1, 0, []⟩
def estat_RSVD : Field := ⟨.estat, 31, 12, .rw, 0, true, 1, 0, []⟩
def estat_SHADOW : Field := ⟨.estat, 11, 10, .rw, 0, true, 1, 0, [(0, 2)]⟩
def estat_DS : Field := ⟨.estat, 8, 8, .rw, 0, true, 1, 0, []⟩
def estat_SAVED : Field := ⟨.estat, 7, 0, .rw, 0, true, 1, 0, []⟩
def ecause_STATUS : Field := ⟨.ecause, 63, 48, .ro, 0, false, 1, 0, []⟩
def ecause_THREAD : Field := ⟨.ecause, 42, 40, .ro, 0, false, 1, 0, []⟩
def ecause_DETAIL : Field := ⟨.ecause, 31, 24, .ro, 0, false, 1, 0, []⟩
def ecause_VECTOR : Field := ⟨.ecause, 8, 0, .ro, 0, false, 1, 0, []⟩
def eaddr_ADDR : Field := ⟨.eaddr, 63, 0, .ro, 0, false, 1, 0, []⟩
def emode_MODE : Field := ⟨.emode, 31, 0, .rw, 0, true, 1, 0, []⟩
def tstate_STATE : Field := ⟨.tstate, 2, 0, .ro, 0, false, 8, 3, []⟩
def tmcmp_EN : Field := ⟨.tmcmp, 63, 63, .rw, 0, false, 1, 0, []⟩
def tmcmp_CMP : Field := ⟨.tmcmp, 62, 0, .rw, 0, false, 1, 0, []⟩
def ipend_PEND : Field := ⟨.ipend, 31, 2, .rw1c, 0, true, 1, 0, []⟩
def tfsel_TFPEND : Field := ⟨.tfsel, 15, 8, .ro, 0, false, 1, 0, []⟩
def tfsel_SEL : Field := ⟨.tfsel, 2, 0, .rw, 0, true, 1, 0, []⟩
def tfpc_DS : Field := ⟨.tfpc, 18, 18, .ro, 0, false, 1, 0, []⟩
def tfpc_SHADOW : Field := ⟨.tfpc, 17, 16, .ro, 0, false, 1, 0, []⟩
def tfpc_ADDR : Field := ⟨.tfpc, 15, 2, .ro, 0, false, 1, 0, []⟩
def THREAD_CTL_STOP : Field := ⟨.THREAD_CTL, 23, 16, .wo, 0, false, 1, 0, []⟩
def THREAD_CTL_START : Field := ⟨.THREAD_CTL, 15, 8, .wo, 0, false, 1, 0, []⟩
def THREAD_CTL_ERR : Field := ⟨.THREAD_CTL, 0, 0, .rw1c, 0, false, 1, 0, []⟩
def SWI_RAISE_RAISE : Field := ⟨.SWI_RAISE, 15, 0, .wo, 0, false, 1, 0, []⟩
def WRANGE_CTL_LOCK : Field := ⟨.WRANGE_CTL, 0, 0, .rws, 0, false, 1, 0, []⟩
def WRANGE_n_EN : Field := ⟨.WRANGE_n, 63, 63, .rwl, 0, false, 1, 0, []⟩
def WRANGE_n_WORLD : Field := ⟨.WRANGE_n, 62, 62, .rwl, 0, false, 1, 0, []⟩
def WRANGE_n_SUP : Field := ⟨.WRANGE_n, 61, 61, .rwl, 0, false, 1, 0, []⟩
def WRANGE_n_LIMIT : Field := ⟨.WRANGE_n, 41, 32, .rwl, 0, false, 1, 0, []⟩
def WRANGE_n_BASE : Field := ⟨.WRANGE_n, 9, 0, .rwl, 0, false, 1, 0, []⟩
def tcfg_WORLD : Field := ⟨.tcfg, 30, 30, .ro, 0, false, 1, 0, []⟩
def tcfg_BASE : Field := ⟨.tcfg, 29, 27, .ro, 0, false, 1, 0, []⟩
def tcfg_GANG : Field := ⟨.tcfg, 26, 23, .ro, 0, false, 1, 0, []⟩
def tcfg_FMT : Field := ⟨.tcfg, 20, 16, .ro, 0, false, 1, 0, []⟩
def tcfg_BPR : Field := ⟨.tcfg, 14, 8, .ro, 0, false, 1, 0, []⟩
def tcfg_ROWS : Field := ⟨.tcfg, 6, 0, .ro, 0, false, 1, 0, []⟩
def tprog_VALID : Field := ⟨.tprog, 63, 0, .rw, 0, true, 1, 0, []⟩
def tsel_EMPTY : Field := ⟨.tsel, 23, 16, .ro, 0xff, false, 1, 0, []⟩
def tsel_BUSY : Field := ⟨.tsel, 15, 8, .ro, 0, false, 1, 0, []⟩
def tsel_TILE : Field := ⟨.tsel, 2, 0, .rw, 0, false, 1, 0, []⟩
def vflags_NV : Field := ⟨.vflags, 4, 4, .rw1c, 0, false, 1, 0, []⟩
def vflags_DZ : Field := ⟨.vflags, 3, 3, .rw1c, 0, false, 1, 0, []⟩
def vflags_OF : Field := ⟨.vflags, 2, 2, .rw1c, 0, false, 1, 0, []⟩
def vflags_UF : Field := ⟨.vflags, 1, 1, .rw1c, 0, false, 1, 0, []⟩
def vflags_NX : Field := ⟨.vflags, 0, 0, .rw1c, 0, false, 1, 0, []⟩
def mode_OSAT : Field := ⟨.mode, 2, 2, .ro, 0, false, 1, 0, []⟩
def mode_ACC : Field := ⟨.mode, 0, 0, .ro, 0, false, 1, 0, []⟩
def astat_QDEPTH : Field := ⟨.astat, 18, 16, .ro, 0, false, 1, 0, []⟩
def astat_PEND : Field := ⟨.astat, 3, 3, .ro, 0, false, 4, 4, []⟩
def astat_WORLD : Field := ⟨.astat, 2, 2, .ro, 0, false, 4, 4, []⟩
def astat_TYPE : Field := ⟨.astat, 1, 0, .ro, 0, false, 4, 4, []⟩
def mchk_RESERR : Field := ⟨.mchk, 63, 48, .ro, 0, false, 1, 0, []⟩
def mchk_SHERR : Field := ⟨.mchk, 47, 32, .ro, 0, false, 1, 0, []⟩
def mchk_SHDONE : Field := ⟨.mchk, 31, 16, .ro, 0, false, 1, 0, []⟩
def mchk_SHBUSY : Field := ⟨.mchk, 8, 8, .ro, 0, false, 1, 0, []⟩
def mchk_SHCNT : Field := ⟨.mchk, 5, 0, .ro, 0, false, 1, 0, []⟩
def ccfg_LOCKMAX : Field := ⟨.ccfg, 13, 8, .rw, 0x20, true, 1, 0, [(0, 40)]⟩
def ccfg_PFEN : Field := ⟨.ccfg, 1, 1, .rw, 1, true, 1, 0, []⟩
def ccfg_EN : Field := ⟨.ccfg, 0, 0, .rw, 1, true, 1, 0, []⟩
def cstat_LOCKFAIL : Field := ⟨.cstat, 40, 40, .rw1c, 0, false, 1, 0, []⟩
def cstat_LOCKED : Field := ⟨.cstat, 37, 32, .ro, 0, false, 1, 0, []⟩
def cstat_DIRTY : Field := ⟨.cstat, 29, 24, .ro, 0, false, 1, 0, []⟩
def cstat_VALID : Field := ⟨.cstat, 21, 16, .ro, 0, false, 1, 0, []⟩
def cstat_FILLS : Field := ⟨.cstat, 12, 8, .ro, 0, false, 1, 0, []⟩
def cstat_SBUF : Field := ⟨.cstat, 2, 0, .ro, 0, false, 1, 0, []⟩
def chit_HITS : Field := ⟨.chit, 63, 0, .ro, 0, false, 1, 0, []⟩
def cmiss_MISSES : Field := ⟨.cmiss, 63, 0, .ro, 0, false, 1, 0, []⟩
def cerr_STATUS : Field := ⟨.cerr, 63, 48, .ro, 0, false, 1, 0, []⟩
def cerr_LOST : Field := ⟨.cerr, 15, 0, .rc, 0, false, 1, 0, []⟩
def cerra_LINE : Field := ⟨.cerra, 63, 6, .ro, 0, false, 1, 0, []⟩
def lderr_SKIP : Field := ⟨.lderr, 18, 16, .ro, 0, false, 1, 0, []⟩
def lderr_NEXT : Field := ⟨.lderr, 15, 2, .ro, 0, false, 1, 0, []⟩
def BANK_ARB_NET_WAIT : Field := ⟨.BANK_ARB, 3, 0, .rw, 8, false, 1, 0, [(1, 15)]⟩
def MEM_ERR_S_CORR : Field := ⟨.MEM_ERR_S, 63, 48, .rc, 0, false, 1, 0, []⟩
def MEM_ERR_S_UNCORR : Field := ⟨.MEM_ERR_S, 47, 32, .rc, 0, false, 1, 0, []⟩
def MEM_ERR_S_SYMBOL : Field := ⟨.MEM_ERR_S, 31, 26, .ro, 0, false, 1, 0, []⟩
def MEM_ERR_S_LAST_UNC : Field := ⟨.MEM_ERR_S, 25, 25, .ro, 0, false, 1, 0, []⟩
def MEM_ERR_S_CWORD : Field := ⟨.MEM_ERR_S, 15, 0, .ro, 0, false, 1, 0, []⟩
def MEM_ERR_C_CORR : Field := ⟨.MEM_ERR_C, 63, 48, .rc, 0, false, 1, 0, []⟩
def MEM_ERR_C_UNCORR : Field := ⟨.MEM_ERR_C, 47, 32, .rc, 0, false, 1, 0, []⟩
def MEM_ERR_C_SYMBOL : Field := ⟨.MEM_ERR_C, 31, 26, .ro, 0, false, 1, 0, []⟩
def MEM_ERR_C_LAST_UNC : Field := ⟨.MEM_ERR_C, 25, 25, .ro, 0, false, 1, 0, []⟩
def MEM_ERR_C_CWORD : Field := ⟨.MEM_ERR_C, 15, 0, .ro, 0, false, 1, 0, []⟩
def POISON_CLR_CW_OFF : Field := ⟨.POISON_CLR, 21, 5, .wo, 0, false, 1, 0, []⟩
def TAG_ADDR_CW_OFF : Field := ⟨.TAG_ADDR, 21, 5, .rw, 0, false, 1, 0, []⟩
def TAG_DATA_ERR : Field := ⟨.TAG_DATA, 31, 31, .ro, 0, false, 1, 0, []⟩
def TAG_DATA_SCOPE : Field := ⟨.TAG_DATA, 11, 4, .rw, 0, false, 1, 0, []⟩
def TAG_DATA_FE : Field := ⟨.TAG_DATA, 3, 0, .rw, 0, false, 1, 0, []⟩
def SEAM_CTL_HOLD : Field := ⟨.SEAM_CTL, 12, 8, .rw, 0x10, false, 1, 0, [(1, 16)]⟩
def SEAM_CTL_ACT_E : Field := ⟨.SEAM_CTL, 3, 2, .rw, 0, false, 1, 0, [(0, 1)]⟩
def SEAM_CTL_ACT_W : Field := ⟨.SEAM_CTL, 1, 0, .rw, 0, false, 1, 0, [(0, 1)]⟩
def SEAM_STAT_RETRY_ANS : Field := ⟨.SEAM_STAT, 63, 48, .rc, 0, false, 1, 0, []⟩
def SEAM_STAT_WAKES : Field := ⟨.SEAM_STAT, 47, 32, .rc, 0, false, 1, 0, []⟩
def SEAM_STAT_ABSORBED : Field := ⟨.SEAM_STAT, 31, 16, .rc, 0, false, 1, 0, []⟩
def LB_GEN_GEN : Field := ⟨.LB_GEN, 31, 0, .ro, 0, false, 1, 0, []⟩
def CLASS_ARB_TRUMP_RATE : Field := ⟨.CLASS_ARB, 22, 16, .rw, 0x10, false, 1, 0, [(1, 64)]⟩
def CLASS_ARB_LEAD_W : Field := ⟨.CLASS_ARB, 11, 8, .rw, 0xa, false, 1, 0, []⟩
def CLASS_ARB_FOLLOW_W : Field := ⟨.CLASS_ARB, 7, 4, .rw, 4, false, 1, 0, []⟩
def CLASS_ARB_PASS_W : Field := ⟨.CLASS_ARB, 3, 0, .rw, 2, false, 1, 0, []⟩
def LEAD_RATE_n_BURST : Field := ⟨.LEAD_RATE_n, 15, 8, .rw, 0x40, false, 1, 0, [(4, 255)]⟩
def LEAD_RATE_n_RATE : Field := ⟨.LEAD_RATE_n, 6, 0, .rw, 0x40, false, 1, 0, [(1, 64)]⟩
def RTR_OVR_k_EN : Field := ⟨.RTR_OVR_k, 63, 63, .rw, 0, false, 1, 0, []⟩
def RTR_OVR_k_CLS : Field := ⟨.RTR_OVR_k, 62, 59, .rw, 0, false, 1, 0, []⟩
def RTR_OVR_k_PORT : Field := ⟨.RTR_OVR_k, 58, 56, .rw, 0, false, 1, 0, [(0, 3)]⟩
def RTR_OVR_k_X0 : Field := ⟨.RTR_OVR_k, 55, 48, .rw, 0, false, 1, 0, []⟩
def RTR_OVR_k_X1 : Field := ⟨.RTR_OVR_k, 47, 40, .rw, 0, false, 1, 0, []⟩
def RTR_OVR_k_Y0 : Field := ⟨.RTR_OVR_k, 38, 32, .rw, 0, false, 1, 0, []⟩
def RTR_OVR_k_Y1 : Field := ⟨.RTR_OVR_k, 30, 24, .rw, 0, false, 1, 0, []⟩
def RTR_REDIR_EN : Field := ⟨.RTR_REDIR, 31, 31, .rw, 0, false, 1, 0, []⟩
def RTR_REDIR_SX : Field := ⟨.RTR_REDIR, 11, 6, .rw, 0, false, 1, 0, []⟩
def RTR_REDIR_SY : Field := ⟨.RTR_REDIR, 5, 0, .rw, 0, false, 1, 0, []⟩
def RTR_STAT_POT_COMB : Field := ⟨.RTR_STAT, 63, 48, .rc, 0, false, 1, 0, []⟩
def RTR_STAT_DEAL_REP : Field := ⟨.RTR_STAT, 47, 32, .rc, 0, false, 1, 0, []⟩
def RTR_STAT_TRUMP_HELD : Field := ⟨.RTR_STAT, 31, 16, .rc, 0, false, 1, 0, []⟩
def RTR_STAT_LEAD_HELD : Field := ⟨.RTR_STAT, 15, 0, .rc, 0, false, 1, 0, []⟩
def RTR_LINKERR_REPLAY_N : Field := ⟨.RTR_LINKERR, 47, 40, .rc, 0, false, 1, 0, []⟩
def RTR_LINKERR_REPLAY_E : Field := ⟨.RTR_LINKERR, 39, 32, .rc, 0, false, 1, 0, []⟩
def RTR_LINKERR_REPLAY_S : Field := ⟨.RTR_LINKERR, 31, 24, .rc, 0, false, 1, 0, []⟩
def RTR_LINKERR_REPLAY_W : Field := ⟨.RTR_LINKERR, 23, 16, .rc, 0, false, 1, 0, []⟩
def RTR_LINKERR_DOWN : Field := ⟨.RTR_LINKERR, 3, 0, .rw, 0, false, 1, 0, []⟩
def TCLASS_CLASS : Field := ⟨.TCLASS, 1, 0, .rw, 0, false, 8, 2, []⟩
def POT_HOLD_ENTRIES : Field := ⟨.POT_HOLD, 41, 32, .rw, 0, false, 1, 0, []⟩
def POT_HOLD_BASE : Field := ⟨.POT_HOLD, 17, 6, .rw, 0, false, 1, 0, []⟩
def POT_OPEN_SLOT : Field := ⟨.POT_OPEN, 63, 60, .wo, 0, false, 1, 0, []⟩
def POT_OPEN_FORM : Field := ⟨.POT_OPEN, 59, 58, .wo, 0, false, 1, 0, []⟩
def POT_OPEN_SCOPE : Field := ⟨.POT_OPEN, 57, 56, .wo, 0, false, 1, 0, []⟩
def POT_OPEN_BASE : Field := ⟨.POT_OPEN, 55, 55, .wo, 0, false, 1, 0, []⟩
def POT_OPEN_LAST : Field := ⟨.POT_OPEN, 39, 20, .wo, 0, false, 1, 0, []⟩
def POT_OPEN_DEST : Field := ⟨.POT_OPEN, 15, 0, .wo, 0, false, 1, 0, []⟩
def POT_CTL_OPEN_ERR : Field := ⟨.POT_CTL, 31, 28, .ro, 0, false, 1, 0, []⟩
def POT_CTL_CANCEL : Field := ⟨.POT_CTL, 15, 0, .wo, 0, false, 1, 0, []⟩
def POT_ORPHAN_COUNT : Field := ⟨.POT_ORPHAN, 15, 0, .rc, 0, false, 1, 0, []⟩
def POT_SLOT_n_STATE : Field := ⟨.POT_SLOT_n, 63, 62, .ro, 0, false, 1, 0, []⟩
def POT_SLOT_n_FORM : Field := ⟨.POT_SLOT_n, 61, 60, .ro, 0, false, 1, 0, []⟩
def POT_SLOT_n_ERR : Field := ⟨.POT_SLOT_n, 59, 56, .ro, 0, false, 1, 0, []⟩
def POT_SLOT_n_DONE : Field := ⟨.POT_SLOT_n, 39, 20, .ro, 0, false, 1, 0, []⟩
def POT_SLOT_n_DEST : Field := ⟨.POT_SLOT_n, 15, 0, .ro, 0, false, 1, 0, []⟩
def SYNC_CTL_SMX_EN : Field := ⟨.SYNC_CTL, 15, 8, .rw, 0, false, 1, 0, []⟩
def SYNC_CTL_POLL : Field := ⟨.SYNC_CTL, 3, 0, .rw, 4, false, 1, 0, [(1, 15)]⟩
def STREAM_SEL_0_STREAM : Field := ⟨.STREAM_SEL_0, 15, 0, .rw, 0, false, 4, 16, []⟩
def STREAM_SEL_1_STREAM : Field := ⟨.STREAM_SEL_1, 15, 0, .rw, 0, false, 4, 16, []⟩
def SCOPE_MISMATCH_CNT_ACQ : Field := ⟨.SCOPE_MISMATCH_CNT, 31, 16, .rc, 0, false, 1, 0, []⟩
def SCOPE_MISMATCH_CNT_REL : Field := ⟨.SCOPE_MISMATCH_CNT, 15, 0, .rc, 0, false, 1, 0, []⟩
def SMX_INFO_KIND : Field := ⟨.SMX_INFO, 7, 7, .ro, 0, false, 1, 0, []⟩
def SMX_INFO_TAG : Field := ⟨.SMX_INFO, 6, 5, .ro, 0, false, 1, 0, []⟩
def SMX_INFO_THREAD : Field := ⟨.SMX_INFO, 2, 0, .ro, 0, false, 1, 0, []⟩
def SMX_ADDR_ADDR : Field := ⟨.SMX_ADDR, 63, 0, .ro, 0, false, 1, 0, []⟩
def WATCH_STAT_REFUSED : Field := ⟨.WATCH_STAT, 63, 48, .rc, 0, false, 1, 0, []⟩
def WATCH_STAT_STALE_WAKE : Field := ⟨.WATCH_STAT, 47, 32, .rc, 0, false, 1, 0, []⟩
def WATCH_STAT_HELD : Field := ⟨.WATCH_STAT, 5, 0, .ro, 0, false, 1, 0, []⟩
def DMA_CTL_STOP : Field := ⟨.DMA_CTL, 1, 1, .wo, 0, false, 1, 0, []⟩
def DMA_CTL_GO : Field := ⟨.DMA_CTL, 0, 0, .wo, 0, false, 1, 0, []⟩
def DMA_STAT_LAST_CODE : Field := ⟨.DMA_STAT, 63, 48, .ro, 0, false, 1, 0, []⟩
def DMA_STAT_LAST_CAUSE : Field := ⟨.DMA_STAT, 47, 32, .ro, 0, false, 1, 0, []⟩
def DMA_STAT_PC : Field := ⟨.DMA_STAT, 31, 20, .ro, 0, false, 1, 0, []⟩
def DMA_STAT_RING_STALL : Field := ⟨.DMA_STAT, 6, 6, .rw1c, 0, false, 1, 0, []⟩
def DMA_STAT_DESC_FAULT : Field := ⟨.DMA_STAT, 5, 5, .rw1c, 0, false, 1, 0, []⟩
def DMA_STAT_BUSY_ERR : Field := ⟨.DMA_STAT, 4, 4, .rw1c, 0, false, 1, 0, []⟩
def DMA_STAT_STATE : Field := ⟨.DMA_STAT, 2, 0, .ro, 0, false, 1, 0, []⟩
def DMA_RING_BASE_BASE : Field := ⟨.DMA_RING_BASE, 63, 6, .rw, 0, false, 1, 0, []⟩
def DMAC_GO_IRQ : Field := ⟨.DMAC_GO, 23, 23, .wo, 0, false, 1, 0, []⟩
def DMAC_GO_MBEN : Field := ⟨.DMAC_GO, 22, 22, .wo, 0, false, 1, 0, []⟩
def DMAC_GO_MB : Field := ⟨.DMAC_GO, 21, 20, .wo, 0, false, 1, 0, []⟩
def DMAC_GO_DESC : Field := ⟨.DMAC_GO, 17, 6, .wo, 0, false, 1, 0, []⟩
def DMA_RING_CFG_LOG2N : Field := ⟨.DMA_RING_CFG, 3, 0, .rw, 4, false, 1, 0, [(4, 12)]⟩
def DMA_HEAD_INDEX : Field := ⟨.DMA_HEAD, 15, 0, .ro, 0, false, 1, 0, []⟩
def DMA_TAIL_INDEX : Field := ⟨.DMA_TAIL, 15, 0, .rw, 0, false, 1, 0, []⟩
def DMA_RETRY_LIMIT_GAP : Field := ⟨.DMA_RETRY_LIMIT, 23, 16, .rw, 0x40, false, 1, 0, [(1, 255)]⟩
def DMA_RETRY_LIMIT_LIMIT : Field := ⟨.DMA_RETRY_LIMIT, 3, 0, .rw, 3, false, 1, 0, []⟩
def DMA_TIMEOUT_REPLY_TO : Field := ⟨.DMA_TIMEOUT, 15, 0, .rw, 0x7d0, false, 1, 0, [(1, 65535)]⟩
def DMA_EVENT_SET_SET : Field := ⟨.DMA_EVENT_SET, 15, 0, .wo, 0, false, 1, 0, []⟩
def DMA_EVENT_EV : Field := ⟨.DMA_EVENT, 15, 0, .rw1c, 0, false, 1, 0, []⟩
def DMA_BIND_BOUND : Field := ⟨.DMA_BIND, 63, 63, .rw, 0, false, 1, 0, []⟩
def DMA_BIND_WORLD : Field := ⟨.DMA_BIND, 62, 62, .rw, 0, false, 1, 0, []⟩
def DMA_BIND_LEVEL : Field := ⟨.DMA_BIND, 61, 61, .rw, 0, false, 1, 0, []⟩
def DMA_BIND_PLOT : Field := ⟨.DMA_BIND, 53, 48, .rw, 0, false, 1, 0, []⟩
def DMA_BIND_EPOCH : Field := ⟨.DMA_BIND, 47, 40, .ro, 0, false, 1, 0, []⟩
def DMA_COUNT_DONE : Field := ⟨.DMA_COUNT, 63, 32, .ro, 0, false, 1, 0, []⟩
def DMA_COUNT_RETRIES : Field := ⟨.DMA_COUNT, 31, 0, .rc, 0, false, 1, 0, []⟩
def TU_RANGE_W0_EN : Field := ⟨.TU_RANGE_W0, 63, 63, .rw, 0, false, 1, 0, []⟩
def TU_RANGE_W0_KOWN : Field := ⟨.TU_RANGE_W0, 62, 62, .ro, 0, false, 1, 0, []⟩
def TU_RANGE_W0_KIND : Field := ⟨.TU_RANGE_W0, 61, 60, .rw, 0, false, 1, 0, [(0, 1)]⟩
def TU_RANGE_W0_PS : Field := ⟨.TU_RANGE_W0, 59, 59, .rw, 0, false, 1, 0, []⟩
def TU_RANGE_W0_W : Field := ⟨.TU_RANGE_W0, 58, 58, .rw, 0, false, 1, 0, []⟩
def TU_RANGE_W0_SUP : Field := ⟨.TU_RANGE_W0, 57, 57, .rw, 0, false, 1, 0, []⟩
def TU_RANGE_W0_HOLD : Field := ⟨.TU_RANGE_W0, 56, 56, .rw, 0, false, 1, 0, []⟩
def TU_RANGE_W0_VBASE : Field := ⟨.TU_RANGE_W0, 47, 21, .rw, 0, false, 1, 0, []⟩
def TU_RANGE_W1_COUNT : Field := ⟨.TU_RANGE_W1, 63, 32, .rw, 0, false, 1, 0, []⟩
def TU_RANGE_W1_PBASE : Field := ⟨.TU_RANGE_W1, 31, 0, .rw, 0, false, 1, 0, []⟩
def HBM_STAT_RESERVE_OUT : Field := ⟨.HBM_STAT, 63, 63, .ro, 0, false, 1, 0, []⟩
def HBM_STAT_DEGRADED : Field := ⟨.HBM_STAT, 62, 62, .ro, 0, false, 1, 0, []⟩
def HBM_STAT_STATE : Field := ⟨.HBM_STAT, 58, 56, .ro, 1, false, 1, 0, []⟩
def HBM_STAT_RETIRED : Field := ⟨.HBM_STAT, 47, 32, .ro, 0, false, 1, 0, []⟩
def HBM_STAT_PC_OFF : Field := ⟨.HBM_STAT, 31, 0, .ro, 0, false, 1, 0, []⟩
def HBM_CFG_RESERVE : Field := ⟨.HBM_CFG, 31, 20, .rw, 0x258, false, 1, 0, []⟩
def HBM_CFG_PC_THR : Field := ⟨.HBM_CFG, 19, 16, .rw, 8, false, 1, 0, [(1, 15)]⟩
def HBM_CFG_RATE : Field := ⟨.HBM_CFG, 10, 8, .rw, 0, false, 1, 0, [(0, 2)]⟩
def HBM_CFG_RETIRE_THR : Field := ⟨.HBM_CFG, 7, 0, .rw, 0x10, false, 1, 0, [(1, 255)]⟩
def HBM_ERR_q_CORR : Field := ⟨.HBM_ERR_q, 63, 48, .rc, 0, false, 1, 0, []⟩
def HBM_ERR_q_UNCORR : Field := ⟨.HBM_ERR_q, 47, 32, .rc, 0, false, 1, 0, []⟩
def HBM_ERR_q_DIECC : Field := ⟨.HBM_ERR_q, 31, 16, .rc, 0, false, 1, 0, []⟩
def HBM_ERR_q_PAGE : Field := ⟨.HBM_ERR_q, 14, 0, .ro, 0, false, 1, 0, []⟩
def TU_WSTAT_WERR : Field := ⟨.TU_WSTAT, 31, 28, .ro, 0, false, 1, 0, []⟩
def TU_SYNC_GO : Field := ⟨.TU_SYNC, 63, 63, .wo, 0, false, 1, 0, []⟩
def TU_SYNC_DONE : Field := ⟨.TU_SYNC, 62, 62, .ro, 1, false, 1, 0, []⟩
def TU_SYNC_VBASE : Field := ⟨.TU_SYNC, 47, 21, .rw, 0, false, 1, 0, []⟩
def TU_SYNC_COUNT : Field := ⟨.TU_SYNC, 18, 0, .rw, 0, false, 1, 0, []⟩
def TU_FAULT_INFO_DETAIL : Field := ⟨.TU_FAULT_INFO, 31, 24, .ro, 0, false, 1, 0, []⟩
def TU_FAULT_INFO_COUNT : Field := ⟨.TU_FAULT_INFO, 15, 0, .rc, 0, false, 1, 0, []⟩
def TU_FAULT_ADDR_ADDR : Field := ⟨.TU_FAULT_ADDR, 63, 0, .ro, 0, false, 1, 0, []⟩
def TU_GRANT_g_EN : Field := ⟨.TU_GRANT_g, 63, 63, .rw, 0, false, 1, 0, []⟩
def TU_GRANT_g_STACK : Field := ⟨.TU_GRANT_g, 58, 56, .rw, 0, false, 1, 0, []⟩
def TU_GRANT_g_GBASE : Field := ⟨.TU_GRANT_g, 55, 38, .rw, 0, false, 1, 0, []⟩
def TU_GRANT_g_P : Field := ⟨.TU_GRANT_g, 32, 18, .rw, 0, false, 1, 0, []⟩
def TU_GRANT_g_COUNT : Field := ⟨.TU_GRANT_g, 14, 0, .rw, 0, false, 1, 0, []⟩
def TU_MODMAP_v_EN : Field := ⟨.TU_MODMAP_v, 31, 31, .rw, 0, false, 1, 0, []⟩
def TU_MODMAP_v_ID : Field := ⟨.TU_MODMAP_v, 15, 0, .rw, 0, false, 1, 0, []⟩
def PORT_CFG_EN : Field := ⟨.PORT_CFG, 31, 31, .rw, 0, false, 1, 0, []⟩
def PORT_CFG_MODE : Field := ⟨.PORT_CFG, 30, 30, .rw, 0, false, 1, 0, []⟩
def PORT_CFG_SPEED : Field := ⟨.PORT_CFG, 29, 28, .rw, 0, false, 1, 0, [(0, 1)]⟩
def PORT_CFG_PMD : Field := ⟨.PORT_CFG, 27, 27, .rw, 0, false, 1, 0, []⟩
def PORT_CFG_AN : Field := ⟨.PORT_CFG, 26, 26, .rw, 1, false, 1, 0, []⟩
def PORT_CFG_ENC : Field := ⟨.PORT_CFG, 25, 25, .rw, 0, false, 1, 0, []⟩
def PORT_CFG_PTP : Field := ⟨.PORT_CFG, 24, 24, .rw, 0, false, 1, 0, []⟩
def PORT_CFG_PFC : Field := ⟨.PORT_CFG, 23, 23, .rw, 0, false, 1, 0, []⟩
def PORT_STAT_PEER_ID : Field := ⟨.PORT_STAT, 63, 48, .ro, 0xffff, false, 1, 0, []⟩
def PORT_STAT_PEER_PORT : Field := ⟨.PORT_STAT, 44, 40, .ro, 0, false, 1, 0, []⟩
def PORT_STAT_SPARE : Field := ⟨.PORT_STAT, 9, 8, .ro, 0, false, 1, 0, []⟩
def PORT_STAT_STATE : Field := ⟨.PORT_STAT, 2, 0, .ro, 0, false, 1, 0, []⟩
def PORT_BIND_KEEPER_OK : Field := ⟨.PORT_BIND, 31, 31, .rw, 0, false, 1, 0, []⟩
def PORT_BIND_SUP_OK : Field := ⟨.PORT_BIND, 30, 30, .rw, 0, false, 1, 0, []⟩
def PORT_PLOTS_PLOTS : Field := ⟨.PORT_PLOTS, 63, 0, .rw, 0, false, 1, 0, []⟩
def PORT_POOL_v_RESP : Field := ⟨.PORT_POOL_v, 27, 16, .rw, 0, false, 1, 0, []⟩
def PORT_POOL_v_REQ : Field := ⟨.PORT_POOL_v, 11, 0, .rw, 0, false, 1, 0, []⟩
def PORT_LINK_RETRY_MAX : Field := ⟨.PORT_LINK, 11, 8, .rw, 8, false, 1, 0, [(1, 15)]⟩
def PORT_LINK_ACK_TO : Field := ⟨.PORT_LINK, 7, 0, .rw, 4, false, 1, 0, [(1, 255)]⟩
def PORT_ERR_FEC_CORR : Field := ⟨.PORT_ERR, 63, 48, .rc, 0, false, 1, 0, []⟩
def PORT_ERR_FEC_UNC : Field := ⟨.PORT_ERR, 47, 32, .rc, 0, false, 1, 0, []⟩
def PORT_ERR_FCS : Field := ⟨.PORT_ERR, 31, 16, .rc, 0, false, 1, 0, []⟩
def PORT_ERR_REPLAY : Field := ⟨.PORT_ERR, 15, 0, .rc, 0, false, 1, 0, []⟩
def PORT_DROP_AUTH : Field := ⟨.PORT_DROP, 63, 48, .rc, 0, false, 1, 0, []⟩
def PORT_DROP_MISDEL : Field := ⟨.PORT_DROP, 47, 32, .rc, 0, false, 1, 0, []⟩
def PORT_DROP_DENIED : Field := ⟨.PORT_DROP, 31, 16, .rc, 0, false, 1, 0, []⟩
def PORT_DROP_NOCONN : Field := ⟨.PORT_DROP, 15, 0, .rc, 0, false, 1, 0, []⟩
def PORT_MAC_MAC : Field := ⟨.PORT_MAC, 47, 0, .ro, 0, false, 1, 0, []⟩
def PORT_GW_MAC_MAC : Field := ⟨.PORT_GW_MAC, 47, 0, .rw, 0, false, 1, 0, []⟩
def PORT_QOS_DSCP : Field := ⟨.PORT_QOS, 5, 0, .rw, 0, false, 4, 6, []⟩
def PORT_VLAN_EN : Field := ⟨.PORT_VLAN, 31, 31, .rw, 0, false, 1, 0, []⟩
def PORT_VLAN_MTU : Field := ⟨.PORT_VLAN, 27, 14, .rw, 0x1194, false, 1, 0, [(1500, 9000)]⟩
def PORT_VLAN_VID : Field := ⟨.PORT_VLAN, 11, 0, .rw, 0, false, 1, 0, []⟩
def PORT_PTP_DELAY_PS : Field := ⟨.PORT_PTP, 63, 32, .ro, 0, false, 1, 0, []⟩
def PORT_PTP_DOMAIN : Field := ⟨.PORT_PTP, 7, 0, .rw, 0, false, 1, 0, []⟩
def FAB_CFG_UDP_PORT : Field := ⟨.FAB_CFG, 63, 48, .rw, 0xc0a1, false, 1, 0, []⟩
def FAB_CFG_IPV6 : Field := ⟨.FAB_CFG, 47, 47, .rw, 1, false, 1, 0, []⟩
def FAB_CFG_RETRY_MAX : Field := ⟨.FAB_CFG, 39, 32, .rw, 8, false, 1, 0, [(1, 255)]⟩
def FAB_CFG_RTO_R : Field := ⟨.FAB_CFG, 31, 16, .rw, 0xc8, false, 1, 0, [(1, 65535)]⟩
def FAB_CFG_RTO_D : Field := ⟨.FAB_CFG, 15, 0, .rw, 0x14, false, 1, 0, [(1, 65535)]⟩
def FAB_PREFIX_HI_HI : Field := ⟨.FAB_PREFIX_HI, 63, 0, .rw, 0, false, 1, 0, []⟩
def FAB_PREFIX_LO_LO : Field := ⟨.FAB_PREFIX_LO, 63, 16, .rw, 0, false, 1, 0, []⟩
def FAB_IPV4_PREFIX : Field := ⟨.FAB_IPV4, 31, 16, .rw, 0, false, 1, 0, []⟩
def FAB_ADMIT_FOLLOW_WAIT : Field := ⟨.FAB_ADMIT, 31, 16, .rw, 0x1f4, false, 1, 0, [(1, 65535)]⟩
def FAB_ADMIT_PASS_WAIT : Field := ⟨.FAB_ADMIT, 15, 0, .rw, 0x64, false, 1, 0, [(1, 65535)]⟩
def FAB_STREAM_HELD : Field := ⟨.FAB_STREAM, 23, 16, .ro, 0, false, 1, 0, []⟩
def FAB_STREAM_HOLD_LIMIT : Field := ⟨.FAB_STREAM, 15, 0, .rw, 0x7d0, false, 1, 0, [(1, 65535)]⟩
def FAB_DEAL_LIMIT : Field := ⟨.FAB_DEAL, 19, 16, .rw, 4, false, 1, 0, []⟩
def FAB_DEAL_GAP : Field := ⟨.FAB_DEAL, 15, 0, .rw, 0x14, false, 1, 0, [(1, 65535)]⟩
def FAB_POT_WAIT : Field := ⟨.FAB_POT, 15, 0, .rw, 0x1f4, false, 1, 0, []⟩
def FAB_CONN_IN_USE : Field := ⟨.FAB_CONN, 60, 48, .ro, 0, false, 1, 0, []⟩
def FAB_CONN_BUSY : Field := ⟨.FAB_CONN, 31, 16, .rc, 0, false, 1, 0, []⟩
def FAB_CONN_FAILED : Field := ⟨.FAB_CONN, 15, 0, .rc, 0, false, 1, 0, []⟩
def PT_ENTRY_W0_EN : Field := ⟨.PT_ENTRY_W0, 63, 63, .rw, 0, false, 1, 0, []⟩
def PT_ENTRY_W0_HI : Field := ⟨.PT_ENTRY_W0, 31, 16, .rw, 0, false, 1, 0, []⟩
def PT_ENTRY_W0_LO : Field := ⟨.PT_ENTRY_W0, 15, 0, .rw, 0, false, 1, 0, []⟩
def PT_ENTRY_W1_PORTS : Field := ⟨.PT_ENTRY_W1, 31, 0, .rw, 0, false, 1, 0, []⟩
def FUNC_BIND_FUNC : Field := ⟨.FUNC_BIND, 47, 42, .ro, 0, false, 1, 0, []⟩
def FUNC_BIND_VF : Field := ⟨.FUNC_BIND, 41, 41, .ro, 0, false, 1, 0, []⟩
def FUNC_BIND_LINK : Field := ⟨.FUNC_BIND, 40, 40, .ro, 0, false, 1, 0, []⟩
def FUNC_BIND_WCLASS : Field := ⟨.FUNC_BIND, 33, 32, .rw, 1, false, 1, 0, []⟩
def FUNC_BIND_ADMIN : Field := ⟨.FUNC_BIND, 31, 31, .rw, 0, false, 1, 0, []⟩
def FUNC_BIND_LEVEL : Field := ⟨.FUNC_BIND, 30, 30, .rw, 0, false, 1, 0, []⟩
def FUNC_BIND_PLOT : Field := ⟨.FUNC_BIND, 23, 18, .rw, 0, false, 1, 0, []⟩
def FUNC_BIND_QCOUNT : Field := ⟨.FUNC_BIND, 13, 0, .rw, 0, false, 1, 0, [(0, 16368)]⟩
def FUNC_STAT_EVLOST : Field := ⟨.FUNC_STAT, 31, 16, .rc, 0, false, 1, 0, []⟩
def FUNC_STAT_FATAL : Field := ⟨.FUNC_STAT, 2, 2, .rw1c, 0, false, 1, 0, []⟩
def FUNC_STAT_FLR : Field := ⟨.FUNC_STAT, 1, 1, .ro, 0, false, 1, 0, []⟩
def FUNC_STAT_LINK_UP : Field := ⟨.FUNC_STAT, 0, 0, .ro, 0, false, 1, 0, []⟩
def FUNC_WIN_BASE : Field := ⟨.FUNC_WIN, 63, 30, .rw, 0, false, 1, 0, []⟩
def FUNC_WINERR_STATUS : Field := ⟨.FUNC_WINERR, 63, 48, .ro, 0, false, 1, 0, []⟩
def FUNC_WINERR_RD : Field := ⟨.FUNC_WINERR, 31, 16, .rc, 0, false, 1, 0, []⟩
def FUNC_WINERR_WR : Field := ⟨.FUNC_WINERR, 15, 0, .rc, 0, false, 1, 0, []⟩
def QP_BIND_TARGET : Field := ⟨.QP_BIND, 63, 62, .ro, 0, false, 1, 0, []⟩
def QP_BIND_CLASS : Field := ⟨.QP_BIND, 61, 60, .ro, 1, false, 1, 0, []⟩
def QP_BIND_KEEPER : Field := ⟨.QP_BIND, 59, 59, .ro, 0, false, 1, 0, []⟩
def QP_BIND_PLOT : Field := ⟨.QP_BIND, 55, 50, .ro, 0, false, 1, 0, []⟩
def QP_BIND_FUNC : Field := ⟨.QP_BIND, 49, 44, .ro, 0, false, 1, 0, []⟩
def QP_BIND_LOCAL : Field := ⟨.QP_BIND, 43, 30, .ro, 0, false, 1, 0, []⟩
def QP_BIND_CORE : Field := ⟨.QP_BIND, 13, 0, .ro, 0, false, 1, 0, []⟩
def QP_CFG_EN : Field := ⟨.QP_CFG, 31, 31, .rw, 0, false, 1, 0, []⟩
def QP_CFG_SQ_HOST : Field := ⟨.QP_CFG, 30, 30, .rw, 0, false, 1, 0, []⟩
def QP_CFG_CQ_HOST : Field := ⟨.QP_CFG, 29, 29, .rw, 0, false, 1, 0, []⟩
def QP_CFG_IEN : Field := ⟨.QP_CFG, 28, 28, .rw, 0, false, 1, 0, []⟩
def QP_CFG_SQ_LOG2 : Field := ⟨.QP_CFG, 27, 23, .rw, 4, false, 1, 0, []⟩
def QP_CFG_CQ_LOG2 : Field := ⟨.QP_CFG, 22, 18, .rw, 4, false, 1, 0, []⟩
def QP_CFG_VEC : Field := ⟨.QP_CFG, 10, 0, .rw, 0, false, 1, 0, []⟩
def QP_SQ_BASE_BASE : Field := ⟨.QP_SQ_BASE, 63, 12, .rw, 0, false, 1, 0, []⟩
def QP_CQ_BASE_BASE : Field := ⟨.QP_CQ_BASE, 63, 12, .rw, 0, false, 1, 0, []⟩
def QP_COAL_COAL_N : Field := ⟨.QP_COAL, 23, 16, .rw, 0, false, 1, 0, []⟩
def QP_COAL_COAL_T : Field := ⟨.QP_COAL, 15, 0, .rw, 0, false, 1, 0, []⟩
def QP_STAT_SQ_HEAD : Field := ⟨.QP_STAT, 63, 48, .ro, 0, false, 1, 0, []⟩
def QP_STAT_CQ_TAIL : Field := ⟨.QP_STAT, 47, 32, .ro, 0, false, 1, 0, []⟩
def QP_STAT_ERR : Field := ⟨.QP_STAT, 31, 24, .ro, 0, false, 1, 0, []⟩
def QP_STAT_STATE : Field := ⟨.QP_STAT, 18, 16, .ro, 0, false, 1, 0, []⟩
def QP_STAT_ACTIVE : Field := ⟨.QP_STAT, 15, 0, .ro, 0, false, 1, 0, []⟩
def QP_SQ_TAIL_INDEX : Field := ⟨.QP_SQ_TAIL, 15, 0, .rw, 0, false, 1, 0, []⟩
def QP_CQ_HEAD_INDEX : Field := ⟨.QP_CQ_HEAD, 15, 0, .rw, 0, false, 1, 0, []⟩
def QP_CQ_POST_INDEX : Field := ⟨.QP_CQ_POST, 15, 0, .rw, 0, false, 1, 0, []⟩
def QP_CTL_RESET : Field := ⟨.QP_CTL, 0, 0, .wo, 0, false, 1, 0, []⟩
def ADMIT_CFG_FOLLOW_WAIT : Field := ⟨.ADMIT_CFG, 63, 48, .rw, 0x2710, false, 1, 0, [(1, 65535)]⟩
def ADMIT_CFG_PASS_WAIT : Field := ⟨.ADMIT_CFG, 47, 32, .rw, 0x3e8, false, 1, 0, [(1, 65535)]⟩
def ADMIT_CFG_DELAY_THR : Field := ⟨.ADMIT_CFG, 31, 24, .rw, 0x32, false, 1, 0, []⟩
def ADMIT_CFG_PASS_Q : Field := ⟨.ADMIT_CFG, 23, 16, .rw, 0x20, false, 1, 0, []⟩
def ADMIT_CFG_LEAD_W : Field := ⟨.ADMIT_CFG, 11, 8, .rw, 0xa, false, 1, 0, []⟩
def ADMIT_CFG_FOLLOW_W : Field := ⟨.ADMIT_CFG, 7, 4, .rw, 4, false, 1, 0, []⟩
def ADMIT_CFG_PASS_W : Field := ⟨.ADMIT_CFG, 3, 0, .rw, 2, false, 1, 0, []⟩
def ADMIT_STAT_DELAYED : Field := ⟨.ADMIT_STAT, 63, 48, .rc, 0, false, 1, 0, []⟩
def ADMIT_STAT_REF_BUSY : Field := ⟨.ADMIT_STAT, 47, 32, .rc, 0, false, 1, 0, []⟩
def ADMIT_STAT_REF_QUOTA : Field := ⟨.ADMIT_STAT, 31, 16, .rc, 0, false, 1, 0, []⟩
def ADMIT_STAT_SLOTS : Field := ⟨.ADMIT_STAT, 4, 0, .ro, 0, false, 1, 0, []⟩
def ADMIT_PLOT_n_LEAD_CMDS : Field := ⟨.ADMIT_PLOT_n, 3, 0, .rw, 0, false, 1, 0, []⟩
def KEXIT_CODE : Field := ⟨.KEXIT, 31, 0, .wo, 0, false, 1, 0, []⟩
def KSTAT_ACTIVE : Field := ⟨.KSTAT, 8, 8, .ro, 0, false, 1, 0, []⟩
def KSTAT_RUN : Field := ⟨.KSTAT, 7, 0, .ro, 0, false, 1, 0, []⟩
def STRAP_STAT_DIFF : Field := ⟨.STRAP_STAT, 63, 48, .ro, 0, false, 1, 0, []⟩
def STRAP_STAT_TEST_MODE : Field := ⟨.STRAP_STAT, 27, 27, .ro, 0, false, 1, 0, []⟩
def STRAP_STAT_PTP_SRC : Field := ⟨.STRAP_STAT, 26, 26, .ro, 0, false, 1, 0, []⟩
def STRAP_STAT_SEC_LOCK : Field := ⟨.STRAP_STAT, 25, 25, .ro, 0, false, 1, 0, []⟩
def STRAP_STAT_PROFILE_DEF : Field := ⟨.STRAP_STAT, 24, 23, .ro, 0, false, 1, 0, []⟩
def STRAP_STAT_PROFILE_PIN_EN : Field := ⟨.STRAP_STAT, 22, 22, .ro, 0, false, 1, 0, []⟩
def STRAP_STAT_FEED_ID : Field := ⟨.STRAP_STAT, 21, 18, .ro, 0, false, 1, 0, []⟩
def STRAP_STAT_SLOT_ID : Field := ⟨.STRAP_STAT, 17, 10, .ro, 0, false, 1, 0, []⟩
def STRAP_STAT_HOST_MODE : Field := ⟨.STRAP_STAT, 9, 8, .ro, 0, false, 1, 0, []⟩
def STRAP_STAT_BOOT_SRC : Field := ⟨.STRAP_STAT, 1, 0, .ro, 0, false, 1, 0, []⟩
def PROFILE_STAT_EDGES : Field := ⟨.PROFILE_STAT, 63, 48, .rc, 0, false, 1, 0, []⟩
def PROFILE_STAT_PINS : Field := ⟨.PROFILE_STAT, 19, 18, .ro, 0, false, 1, 0, []⟩
def PROFILE_STAT_UNSIGNED : Field := ⟨.PROFILE_STAT, 17, 17, .ro, 0, false, 1, 0, []⟩
def PROFILE_STAT_FALLBACK : Field := ⟨.PROFILE_STAT, 16, 16, .ro, 0, false, 1, 0, []⟩
def PROFILE_STAT_SOURCE : Field := ⟨.PROFILE_STAT, 11, 10, .ro, 0, false, 1, 0, []⟩
def PROFILE_STAT_DEVICE : Field := ⟨.PROFILE_STAT, 9, 9, .ro, 0, false, 1, 0, []⟩
def PROFILE_STAT_SLOT : Field := ⟨.PROFILE_STAT, 7, 6, .ro, 0, false, 1, 0, []⟩
def PROFILE_STAT_STATE : Field := ⟨.PROFILE_STAT, 2, 0, .ro, 0, false, 1, 0, []⟩
def IMG_STAT_RECORD : Field := ⟨.IMG_STAT, 63, 32, .ro, 0, false, 1, 0, []⟩
def IMG_STAT_CODE : Field := ⟨.IMG_STAT, 31, 16, .ro, 0, false, 1, 0, []⟩
def IMG_STAT_DETAIL : Field := ⟨.IMG_STAT, 15, 0, .ro, 0, false, 1, 0, []⟩
def IMG_DIGEST_i_DIGEST : Field := ⟨.IMG_DIGEST_i, 63, 0, .ro, 0, false, 1, 0, []⟩
def DET_CNT_ATOMIC : Field := ⟨.DET_CNT, 63, 48, .rc, 0, false, 1, 0, []⟩
def DET_CNT_FASTPOT : Field := ⟨.DET_CNT, 47, 32, .rc, 0, false, 1, 0, []⟩
def DET_CNT_TIMEOUT : Field := ⟨.DET_CNT, 31, 16, .rc, 0, false, 1, 0, []⟩
def DET_CNT_PROBE : Field := ⟨.DET_CNT, 15, 0, .rc, 0, false, 1, 0, []⟩
def SRV_MOD_IN_USE : Field := ⟨.SRV_MOD, 30, 16, .ro, 0, false, 1, 0, []⟩
def SRV_MOD_FREE : Field := ⟨.SRV_MOD, 14, 0, .ro, 0x4000, false, 1, 0, []⟩
def SRV_PLOT_A_n_TRACK_MAX : Field := ⟨.SRV_PLOT_A_n, 62, 48, .rw, 0x100, false, 1, 0, []⟩
def SRV_PLOT_A_n_TRACK_LEAD : Field := ⟨.SRV_PLOT_A_n, 46, 32, .rw, 0x40, false, 1, 0, []⟩
def SRV_PLOT_A_n_LEAD_SEQ : Field := ⟨.SRV_PLOT_A_n, 25, 16, .rw, 0x40, false, 1, 0, [(0, 512)]⟩
def SRV_PLOT_A_n_PASS_HW : Field := ⟨.SRV_PLOT_A_n, 14, 0, .rw, 0xc0, false, 1, 0, []⟩
def SRV_PLOT_B_n_FOLLOW_WAIT : Field := ⟨.SRV_PLOT_B_n, 63, 48, .rw, 0x3e8, false, 1, 0, [(1, 65535)]⟩
def SRV_PLOT_B_n_PASS_WAIT : Field := ⟨.SRV_PLOT_B_n, 47, 32, .rw, 0x64, false, 1, 0, [(1, 65535)]⟩
def SRV_PLOT_B_n_KV_LEAD : Field := ⟨.SRV_PLOT_B_n, 31, 8, .rw, 0, false, 1, 0, []⟩
def SRV_PLOT_B_n_STREAM_HOLD : Field := ⟨.SRV_PLOT_B_n, 7, 0, .rw, 0x40, false, 1, 0, [(1, 255)]⟩
def CORE_CHK_SECDED_CORR : Field := ⟨.CORE_CHK, 63, 48, .rc, 0, false, 1, 0, []⟩
def CORE_CHK_ALU_ERR : Field := ⟨.CORE_CHK, 47, 32, .rc, 0, false, 1, 0, []⟩
def CORE_CHK_LAST_UNIT : Field := ⟨.CORE_CHK, 23, 16, .ro, 0, false, 1, 0, []⟩
def CORE_CHK_STOPPED : Field := ⟨.CORE_CHK, 7, 0, .rw1c, 0, false, 1, 0, []⟩
def WDOG_CTL_EN : Field := ⟨.WDOG_CTL, 31, 24, .rw, 0, false, 1, 0, []⟩
def WDOG_CTL_LIMIT : Field := ⟨.WDOG_CTL, 8, 0, .rw, 0x186, false, 1, 0, [(1, 511)]⟩
def WDOG_KICK_KICK : Field := ⟨.WDOG_KICK, 0, 0, .wo, 0, false, 1, 0, []⟩
def FLT_STAT_LAPSE_ENV : Field := ⟨.FLT_STAT, 63, 63, .ro, 0, false, 1, 0, []⟩
def FLT_STAT_LAPSE_SCRUB : Field := ⟨.FLT_STAT, 62, 62, .ro, 0, false, 1, 0, []⟩
def FLT_STAT_LAPSE_TEST : Field := ⟨.FLT_STAT, 61, 61, .ro, 0, false, 1, 0, []⟩
def FLT_STAT_LAPSE_KEEPER : Field := ⟨.FLT_STAT, 60, 60, .ro, 0, false, 1, 0, []⟩
def FLT_STAT_NOSPARE : Field := ⟨.FLT_STAT, 47, 32, .ro, 0, false, 1, 0, []⟩
def FLT_STAT_SEQ : Field := ⟨.FLT_STAT, 31, 0, .ro, 0, false, 1, 0, []⟩
def FLT_HEAD_NEXT : Field := ⟨.FLT_HEAD, 9, 0, .ro, 0, false, 1, 0, []⟩
def SCRUB_CFG_EN : Field := ⟨.SCRUB_CFG, 31, 31, .rw, 1, false, 1, 0, []⟩
def SCRUB_CFG_HBM_H : Field := ⟨.SCRUB_CFG, 12, 8, .rw, 0xc, false, 1, 0, [(1, 24)]⟩
def SCRUB_CFG_SRAM_H : Field := ⟨.SCRUB_CFG, 4, 0, .rw, 4, false, 1, 0, [(1, 24)]⟩
def SCRUB_STAT_SRAM_AGE_M : Field := ⟨.SCRUB_STAT, 63, 48, .ro, 0, false, 1, 0, []⟩
def SCRUB_STAT_HBM_AGE_M : Field := ⟨.SCRUB_STAT, 47, 32, .ro, 0, false, 1, 0, []⟩
def SCRUB_STAT_PASSES : Field := ⟨.SCRUB_STAT, 31, 0, .ro, 0, false, 1, 0, []⟩
def TEST_CFG_EN : Field := ⟨.TEST_CFG, 31, 31, .rw, 1, false, 1, 0, []⟩
def TEST_CFG_PERIOD_M : Field := ⟨.TEST_CFG, 23, 16, .rw, 0x2d, false, 1, 0, [(1, 60)]⟩
def TEST_CFG_MIGRATE : Field := ⟨.TEST_CFG, 0, 0, .rw, 1, false, 1, 0, []⟩
def TEST_STAT_OVERDUE : Field := ⟨.TEST_STAT, 63, 48, .ro, 0, false, 1, 0, []⟩
def TEST_STAT_FAILED : Field := ⟨.TEST_STAT, 47, 32, .rc, 0, false, 1, 0, []⟩
def TEST_STAT_LAST : Field := ⟨.TEST_STAT, 21, 12, .ro, 0, false, 1, 0, []⟩
def AGE_CFG_PERIOD_H : Field := ⟨.AGE_CFG, 31, 24, .rw, 0xa8, false, 1, 0, [(1, 255)]⟩
def AGE_CFG_VMAX : Field := ⟨.AGE_CFG, 23, 16, .rw, 0x68, false, 1, 0, [(0, 104)]⟩
def AGE_CFG_MARGIN_PS : Field := ⟨.AGE_CFG, 15, 8, .rw, 0x1e, false, 1, 0, [(1, 255)]⟩
def AGE_CFG_EYE_MIN_MV : Field := ⟨.AGE_CFG, 7, 0, .rw, 0x14, false, 1, 0, []⟩
def AGE_STAT_REPLANS : Field := ⟨.AGE_STAT, 63, 32, .ro, 0, false, 1, 0, []⟩
def AGE_STAT_SLOWED : Field := ⟨.AGE_STAT, 31, 16, .ro, 0, false, 1, 0, []⟩
def AGE_STAT_ALARMS : Field := ⟨.AGE_STAT, 15, 0, .rc, 0, false, 1, 0, []⟩
def REPAIR_SUM_CORE_GRAFTS : Field := ⟨.REPAIR_SUM, 63, 48, .ro, 0, false, 1, 0, []⟩
def REPAIR_SUM_ROW_COL : Field := ⟨.REPAIR_SUM, 47, 32, .ro, 0, false, 1, 0, []⟩
def REPAIR_SUM_LANES : Field := ⟨.REPAIR_SUM, 31, 24, .ro, 0, false, 1, 0, []⟩
def REPAIR_SUM_ROUTERS : Field := ⟨.REPAIR_SUM, 23, 16, .ro, 0, false, 1, 0, []⟩
def REPAIR_SUM_PHASES : Field := ⟨.REPAIR_SUM, 15, 8, .ro, 0, false, 1, 0, []⟩
def REPAIR_SUM_STEWARD : Field := ⟨.REPAIR_SUM, 7, 0, .ro, 0, false, 1, 0, []⟩
def RESET_REQ_GO : Field := ⟨.RESET_REQ, 63, 63, .wo, 0, false, 1, 0, []⟩
def RESET_REQ_DOMAIN : Field := ⟨.RESET_REQ, 58, 56, .rw, 0, false, 1, 0, [(0, 5)]⟩
def RESET_REQ_FORCED : Field := ⟨.RESET_REQ, 55, 55, .rw, 0, false, 1, 0, []⟩
def RESET_REQ_INDEX : Field := ⟨.RESET_REQ, 15, 0, .rw, 0, false, 1, 0, []⟩
def RESET_STAT_STATE : Field := ⟨.RESET_STAT, 63, 61, .ro, 0, false, 1, 0, []⟩
def RESET_STAT_DOMAIN : Field := ⟨.RESET_STAT, 60, 58, .ro, 0, false, 1, 0, []⟩
def RESET_STAT_ERR : Field := ⟨.RESET_STAT, 57, 57, .rw1c, 0, false, 1, 0, []⟩
def RESET_STAT_DRAIN_US : Field := ⟨.RESET_STAT, 47, 32, .ro, 0, false, 1, 0, []⟩
def RESET_STAT_INDEX : Field := ⟨.RESET_STAT, 15, 0, .ro, 0, false, 1, 0, []⟩
def FENCE_DROP_CNT_ANSWERED : Field := ⟨.FENCE_DROP_CNT, 63, 48, .rc, 0, false, 1, 0, []⟩
def FENCE_DROP_CNT_ABSORBED : Field := ⟨.FENCE_DROP_CNT, 47, 32, .rc, 0, false, 1, 0, []⟩
def FENCE_DROP_CNT_OWNER_FENCED : Field := ⟨.FENCE_DROP_CNT, 31, 16, .rc, 0, false, 1, 0, []⟩
def CTX_BIND_BOUND : Field := ⟨.CTX_BIND, 63, 63, .rw, 0, false, 1, 0, []⟩
def CTX_BIND_PLOT : Field := ⟨.CTX_BIND, 53, 48, .rw, 0, false, 1, 0, []⟩
def CTX_BIND_EPOCH : Field := ⟨.CTX_BIND, 47, 40, .rw, 0, false, 1, 0, []⟩
def EPOCH_DROP_STALE : Field := ⟨.EPOCH_DROP, 63, 48, .rc, 0, false, 1, 0, []⟩
def EPOCH_DROP_PLOT : Field := ⟨.EPOCH_DROP, 37, 32, .ro, 0, false, 1, 0, []⟩
def EPOCH_DROP_EPOCH : Field := ⟨.EPOCH_DROP, 31, 24, .ro, 0, false, 1, 0, []⟩
def HANG_CFG_EN : Field := ⟨.HANG_CFG, 63, 63, .rw, 1, false, 1, 0, []⟩
def HANG_CFG_DUMP : Field := ⟨.HANG_CFG, 62, 62, .rw, 1, false, 1, 0, []⟩
def HANG_CFG_REPLAY_MS : Field := ⟨.HANG_CFG, 47, 32, .rw, 0xc8, false, 1, 0, [(1, 65535)]⟩
def HANG_CFG_STALL_MS : Field := ⟨.HANG_CFG, 31, 24, .rw, 0x32, false, 1, 0, [(1, 255)]⟩
def HANG_CFG_HBM_WAIT : Field := ⟨.HANG_CFG, 23, 16, .rw, 0xa, false, 1, 0, [(1, 255)]⟩
def HANG_CFG_ROUTER_WAIT : Field := ⟨.HANG_CFG, 15, 8, .rw, 0xa, false, 1, 0, [(1, 255)]⟩
def HANG_CFG_PORT_MS : Field := ⟨.HANG_CFG, 7, 0, .rw, 0xa, false, 1, 0, [(1, 255)]⟩
def HANG_STAT_STATE : Field := ⟨.HANG_STAT, 63, 61, .ro, 0, false, 1, 0, []⟩
def HANG_STAT_REPLAY_PLOT : Field := ⟨.HANG_STAT, 53, 48, .ro, 0, false, 1, 0, []⟩
def HANG_STAT_GUILTY : Field := ⟨.HANG_STAT, 47, 32, .ro, 0, false, 1, 0, []⟩
def HANG_STAT_HANG_ID : Field := ⟨.HANG_STAT, 31, 0, .ro, 0, false, 1, 0, []⟩
def DUMP_CFG_DEST : Field := ⟨.DUMP_CFG, 63, 63, .rw, 0, false, 1, 0, []⟩
def DUMP_CFG_SCOPE : Field := ⟨.DUMP_CFG, 62, 62, .rw, 0, false, 1, 0, []⟩
def DUMP_CFG_TILES : Field := ⟨.DUMP_CFG, 61, 61, .rw, 0, false, 1, 0, []⟩
def DUMP_CFG_STACK : Field := ⟨.DUMP_CFG, 58, 56, .rw, 0, false, 1, 0, []⟩
def DUMP_CFG_PAGES : Field := ⟨.DUMP_CFG, 55, 40, .rw, 0x40, false, 1, 0, []⟩
def DUMP_CFG_PAGE : Field := ⟨.DUMP_CFG, 14, 0, .rw, 0x4068, false, 1, 0, []⟩
def DUMP_NVME_LBA : Field := ⟨.DUMP_NVME, 47, 0, .rw, 0, false, 1, 0, []⟩
def DUMP_STAT_STATE : Field := ⟨.DUMP_STAT, 63, 61, .ro, 0, false, 1, 0, []⟩
def DUMP_STAT_WHERE : Field := ⟨.DUMP_STAT, 60, 60, .ro, 0, false, 1, 0, []⟩
def DUMP_STAT_HELD : Field := ⟨.DUMP_STAT, 59, 59, .ro, 0, false, 1, 0, []⟩
def DUMP_STAT_NORESP : Field := ⟨.DUMP_STAT, 47, 32, .ro, 0, false, 1, 0, []⟩
def DUMP_STAT_BYTES : Field := ⟨.DUMP_STAT, 31, 0, .ro, 0, false, 1, 0, []⟩
def MOD_RESET_GO : Field := ⟨.MOD_RESET, 31, 31, .wo, 0, false, 1, 0, []⟩
def MOD_RESET_DOMAIN : Field := ⟨.MOD_RESET, 1, 0, .rw, 0, false, 1, 0, [(0, 1)]⟩
def DUMP_CTL_GO : Field := ⟨.DUMP_CTL, 0, 0, .wo, 0, false, 1, 0, []⟩
def TD_STAT_STALE : Field := ⟨.TD_STAT, 31, 16, .rc, 0, false, 1, 0, []⟩
def TD_STAT_TEARDOWNS : Field := ⟨.TD_STAT, 15, 0, .rc, 0, false, 1, 0, []⟩
def HANG_PLOT_n_REPLAY : Field := ⟨.HANG_PLOT_n, 31, 31, .rw, 1, false, 1, 0, []⟩
def HANG_PLOT_n_VERDICT : Field := ⟨.HANG_PLOT_n, 17, 16, .ro, 0, false, 1, 0, []⟩
def HANG_PLOT_n_HANGS : Field := ⟨.HANG_PLOT_n, 15, 0, .rc, 0, false, 1, 0, []⟩
def RACK_LOC_RACK_ID : Field := ⟨.RACK_LOC, 15, 0, .rw, 0xffff, false, 1, 0, []⟩
def RACK_PARTNER_PARTNER : Field := ⟨.RACK_PARTNER, 63, 48, .ro, 0xffff, false, 1, 0, []⟩
def RACK_PARTNER_HOSTED : Field := ⟨.RACK_PARTNER, 47, 32, .ro, 0xffff, false, 1, 0, []⟩
def RACK_PARTNER_LAST_CODE : Field := ⟨.RACK_PARTNER, 31, 16, .ro, 0, false, 1, 0, []⟩
def RACK_PARTNER_AT_RISK : Field := ⟨.RACK_PARTNER, 2, 2, .ro, 0, false, 1, 0, []⟩
def RACK_PARTNER_STATE : Field := ⟨.RACK_PARTNER, 1, 0, .ro, 0, false, 1, 0, []⟩
def RACK_CFG_MTBF_PRIOR : Field := ⟨.RACK_CFG, 63, 44, .rw, 0xc350, false, 1, 0, [(1, 1048575)]⟩
def RACK_CFG_T1_MBPS : Field := ⟨.RACK_CFG, 43, 32, .rw, 0x9c4, false, 1, 0, [(1, 4095)]⟩
def RACK_CFG_VERIFY_MS : Field := ⟨.RACK_CFG, 31, 16, .rw, 0x2710, false, 1, 0, [(1, 65535)]⟩
def RACK_CFG_NVME_GENS : Field := ⟨.RACK_CFG, 8, 6, .rw, 2, false, 1, 0, [(1, 4)]⟩
def RACK_CFG_T1_PLOT : Field := ⟨.RACK_CFG, 5, 0, .rw, 0, false, 1, 0, []⟩
def RACK_NVME_BLOCKS : Field := ⟨.RACK_NVME, 63, 40, .rw, 0, false, 1, 0, []⟩
def RACK_NVME_LBA : Field := ⟨.RACK_NVME, 39, 0, .rw, 0, false, 1, 0, []⟩
def RACK_STAT_HOURS : Field := ⟨.RACK_STAT, 63, 32, .ro, 0, false, 1, 0, []⟩
def RACK_STAT_FAILS : Field := ⟨.RACK_STAT, 31, 16, .ro, 0, false, 1, 0, []⟩
def RACK_STAT_NVME_OK : Field := ⟨.RACK_STAT, 0, 0, .ro, 0, false, 1, 0, []⟩
def TIME_NOW_0_SEC_LO : Field := ⟨.TIME_NOW_0, 63, 48, .ro, 0, false, 1, 0, []⟩
def TIME_NOW_0_NS : Field := ⟨.TIME_NOW_0, 45, 16, .ro, 0, false, 1, 0, []⟩
def TIME_NOW_0_FRAC : Field := ⟨.TIME_NOW_0, 15, 0, .ro, 0, false, 1, 0, []⟩
def TIME_NOW_1_SEC_HI : Field := ⟨.TIME_NOW_1, 31, 0, .ro, 0, false, 1, 0, []⟩
def TIME_STAT_UTC_OFF : Field := ⟨.TIME_STAT, 63, 48, .ro, 0, false, 1, 0, []⟩
def TIME_STAT_STEPS : Field := ⟨.TIME_STAT, 47, 32, .rc, 0, false, 1, 0, []⟩
def TIME_STAT_OFFSET : Field := ⟨.TIME_STAT, 31, 0, .ro, 0, false, 1, 0, []⟩
def TIME_SRC_REF10_OK : Field := ⟨.TIME_SRC, 11, 11, .ro, 0, false, 1, 0, []⟩
def TIME_SRC_PORT : Field := ⟨.TIME_SRC, 6, 2, .ro, 0, false, 1, 0, []⟩
def TIME_SRC_STATE : Field := ⟨.TIME_SRC, 1, 0, .ro, 0, false, 1, 0, []⟩
def TIME_CFG_REF10 : Field := ⟨.TIME_CFG, 31, 31, .rw, 0, false, 1, 0, []⟩
def TIME_CFG_PPS_OUT : Field := ⟨.TIME_CFG, 30, 30, .rw, 1, false, 1, 0, []⟩
def TIME_CFG_SRC : Field := ⟨.TIME_CFG, 29, 28, .rw, 0, false, 1, 0, [(0, 2)]⟩
def TIME_CFG_DOMAIN : Field := ⟨.TIME_CFG, 23, 16, .rw, 0, false, 1, 0, []⟩
def TIME_CFG_TRANSPORT : Field := ⟨.TIME_CFG, 9, 8, .rw, 1, false, 1, 0, [(0, 2)]⟩
def TIME_CFG_STEP_US : Field := ⟨.TIME_CFG, 7, 0, .rw, 1, false, 1, 0, [(1, 255)]⟩
def TIME_SET_SEC : Field := ⟨.TIME_SET, 47, 0, .wo, 0, false, 1, 0, []⟩
def PPS_TS_TS : Field := ⟨.PPS_TS, 63, 0, .ro, 0, false, 1, 0, []⟩
def FW_STAT_RUN_SVN : Field := ⟨.FW_STAT, 63, 48, .ro, 0, false, 1, 0, []⟩
def FW_STAT_CORE_OLD : Field := ⟨.FW_STAT, 47, 32, .ro, 0, false, 1, 0, []⟩
def FW_STAT_LAST_CODE : Field := ⟨.FW_STAT, 31, 16, .ro, 0, false, 1, 0, []⟩
def FW_STAT_UNSIGNED : Field := ⟨.FW_STAT, 7, 7, .ro, 0, false, 1, 0, []⟩
def FW_STAT_REVERTED : Field := ⟨.FW_STAT, 6, 6, .rw1c, 0, false, 1, 0, []⟩
def FW_STAT_TRIAL : Field := ⟨.FW_STAT, 5, 5, .ro, 0, false, 1, 0, []⟩
def FW_STAT_DEVICE : Field := ⟨.FW_STAT, 4, 4, .ro, 0, false, 1, 0, []⟩
def FW_STAT_BANK : Field := ⟨.FW_STAT, 3, 3, .ro, 0, false, 1, 0, []⟩
def FW_STAT_UPD_STATE : Field := ⟨.FW_STAT, 2, 0, .ro, 0, false, 1, 0, []⟩
def FUSE_STAT_SECURE_ONLY : Field := ⟨.FUSE_STAT, 63, 63, .ro, 0, false, 1, 0, []⟩
def FUSE_STAT_OWNED : Field := ⟨.FUSE_STAT, 62, 62, .ro, 0, false, 1, 0, []⟩
def FUSE_STAT_REVOKED : Field := ⟨.FUSE_STAT, 59, 56, .ro, 0, false, 1, 0, []⟩
def FUSE_STAT_FW_CTR : Field := ⟨.FUSE_STAT, 47, 40, .ro, 0, false, 1, 0, []⟩
def FUSE_STAT_IMG_CTR : Field := ⟨.FUSE_STAT, 39, 32, .ro, 0, false, 1, 0, []⟩
def FW_CFG_TRIAL_MIN : Field := ⟨.FW_CFG, 7, 0, .rw, 0xa, false, 1, 0, []⟩
def dbp_EN : Field := ⟨.dbp, 31, 31, .rw, 0, true, 1, 0, []⟩
def dbp_ACT : Field := ⟨.dbp, 30, 30, .rw, 0, true, 1, 0, []⟩
def dbp_ADDR : Field := ⟨.dbp, 15, 2, .rw, 0, true, 1, 0, []⟩
def dwp_LINE : Field := ⟨.dwp, 63, 6, .rw, 0, true, 1, 0, []⟩
def dwp_ACT : Field := ⟨.dwp, 3, 3, .rw, 0, true, 1, 0, []⟩
def dwp_WR : Field := ⟨.dwp, 2, 2, .rw, 0, true, 1, 0, []⟩
def dwp_RD : Field := ⟨.dwp, 1, 1, .rw, 0, true, 1, 0, []⟩
def dwp_EN : Field := ⟨.dwp, 0, 0, .rw, 0, true, 1, 0, []⟩
def dstat_SKIP : Field := ⟨.dstat, 8, 8, .rw, 0, true, 1, 0, []⟩
def dstat_SS : Field := ⟨.dstat, 7, 7, .rw, 0, true, 1, 0, []⟩
def dstat_CAUSE : Field := ⟨.dstat, 3, 0, .ro, 0, false, 1, 0, []⟩
def SEND_DATA_w_DATA : Field := ⟨.SEND_DATA_w, 63, 0, .wo, 0, false, 1, 0, []⟩
def SEND_DEST_ADDR : Field := ⟨.SEND_DEST, 63, 3, .rw, 0, false, 1, 0, []⟩
def SEND_COMMIT_SCOPE : Field := ⟨.SEND_COMMIT, 9, 8, .wo, 0, false, 1, 0, []⟩
def SEND_COMMIT_LEN : Field := ⟨.SEND_COMMIT, 4, 0, .wo, 0, false, 1, 0, []⟩
def SEND_STAT_CODE : Field := ⟨.SEND_STAT, 63, 48, .ro, 0, false, 1, 0, []⟩
def SEND_STAT_BUSY : Field := ⟨.SEND_STAT, 25, 25, .ro, 0, false, 1, 0, []⟩
def SEND_STAT_DISCARDED : Field := ⟨.SEND_STAT, 24, 24, .ro, 0, false, 1, 0, []⟩
def SEND_STAT_STAGED : Field := ⟨.SEND_STAT, 23, 0, .ro, 0, false, 1, 0, []⟩
def DBG_RUN_DISCARD : Field := ⟨.DBG_RUN, 31, 24, .wo, 0, false, 1, 0, []⟩
def DBG_RUN_STEP : Field := ⟨.DBG_RUN, 23, 16, .wo, 0, false, 1, 0, []⟩
def DBG_RUN_RESUME : Field := ⟨.DBG_RUN, 15, 8, .wo, 0, false, 1, 0, []⟩
def DBG_RUN_HALT : Field := ⟨.DBG_RUN, 7, 0, .wo, 0, false, 1, 0, []⟩
def DBG_STAT_EXPIRED : Field := ⟨.DBG_STAT, 7, 0, .rw1c, 0, false, 1, 0, []⟩
def RTR_TURN_DONE : Field := ⟨.RTR_TURN, 48, 48, .ro, 1, false, 1, 0, []⟩
def RTR_TURN_ERR : Field := ⟨.RTR_TURN, 47, 32, .rc, 0, false, 1, 0, []⟩
def RTR_TURN_COUNT : Field := ⟨.RTR_TURN, 31, 16, .rw, 0, false, 1, 0, []⟩
def RTR_TURN_TX_GO : Field := ⟨.RTR_TURN, 6, 6, .wo, 0, false, 1, 0, []⟩
def RTR_TURN_TX_PORT : Field := ⟨.RTR_TURN, 5, 4, .rw, 0, false, 1, 0, []⟩
def RTR_TURN_TB : Field := ⟨.RTR_TURN, 3, 0, .rw, 0, false, 1, 0, []⟩
def DBG_LOCK_LEVEL : Field := ⟨.DBG_LOCK, 63, 62, .ro, 0, false, 1, 0, []⟩
def DBG_LOCK_PLOT : Field := ⟨.DBG_LOCK, 53, 48, .ro, 0, false, 1, 0, []⟩
def DBG_LOCK_LOCK : Field := ⟨.DBG_LOCK, 0, 0, .wo, 0, false, 1, 0, []⟩
def DBG_NONCE_i_NONCE : Field := ⟨.DBG_NONCE_i, 63, 0, .ro, 0, false, 1, 0, []⟩
def DBG_HOLD_CHAN_HOLD_LIMIT : Field := ⟨.DBG_HOLD, 15, 0, .rw, 0x3e8, false, 1, 0, [(1, 65535)]⟩
def LB_CTL_i_CODE : Field := ⟨.LB_CTL_i, 63, 48, .ro, 0, false, 1, 0, []⟩
def LB_CTL_i_STATE : Field := ⟨.LB_CTL_i, 33, 32, .ro, 0, false, 1, 0, []⟩
def LB_CTL_i_GO : Field := ⟨.LB_CTL_i, 31, 31, .rw, 0, false, 1, 0, []⟩
def LB_CTL_i_ROLE : Field := ⟨.LB_CTL_i, 26, 26, .rw, 0, false, 1, 0, []⟩
def LB_CTL_i_PATTERN : Field := ⟨.LB_CTL_i, 25, 24, .rw, 0, false, 1, 0, []⟩
def LB_CTL_i_LANES : Field := ⟨.LB_CTL_i, 23, 8, .rw, 0, false, 1, 0, []⟩
def LB_CTL_i_DEPTH : Field := ⟨.LB_CTL_i, 2, 0, .rw, 0, false, 1, 0, [(0, 4)]⟩
def LB_STAT_i_ERRORS : Field := ⟨.LB_STAT_i, 63, 32, .rc, 0, false, 1, 0, []⟩
def LB_STAT_i_STEPS : Field := ⟨.LB_STAT_i, 31, 16, .rc, 0, false, 1, 0, []⟩
def LB_STAT_i_LOCK : Field := ⟨.LB_STAT_i, 15, 0, .ro, 0, false, 1, 0, []⟩
def LAST_LB_CODE : Field := ⟨.LAST_LB, 31, 16, .ro, 0, false, 1, 0, []⟩
def LAST_LB_INDEX : Field := ⟨.LAST_LB, 15, 10, .ro, 0, false, 1, 0, []⟩
def LAST_LB_STATE : Field := ⟨.LAST_LB, 1, 0, .ro, 0, false, 1, 0, []⟩
def PWR_CFG_FIXED : Field := ⟨.PWR_CFG, 31, 31, .rw, 0, false, 1, 0, []⟩
def PWR_CFG_FIXED_STEP : Field := ⟨.PWR_CFG, 23, 16, .rw, 0x60, false, 1, 0, [(32, 128)]⟩
def PWR_CFG_LIMIT_W : Field := ⟨.PWR_CFG, 11, 0, .rw, 0xa28, false, 1, 0, [(1000, 2600)]⟩
def PWR_STAT_CAP_STEP : Field := ⟨.PWR_STAT, 63, 56, .ro, 0xa0, false, 1, 0, []⟩
def PWR_STAT_GOV_STATE : Field := ⟨.PWR_STAT, 55, 53, .ro, 0, false, 1, 0, []⟩
def PWR_STAT_FEED_A_OK : Field := ⟨.PWR_STAT, 52, 52, .ro, 0, false, 1, 0, []⟩
def PWR_STAT_FEED_B_OK : Field := ⟨.PWR_STAT, 51, 51, .ro, 0, false, 1, 0, []⟩
def PWR_STAT_POWER_EN : Field := ⟨.PWR_STAT, 50, 50, .ro, 0, false, 1, 0, []⟩
def PWR_STAT_PWR_GOOD : Field := ⟨.PWR_STAT, 49, 49, .ro, 0, false, 1, 0, []⟩
def PWR_STAT_STRAP_DIFF_HI : Field := ⟨.PWR_STAT, 47, 42, .ro, 0, false, 1, 0, []⟩
def PWR_STAT_POWER_W : Field := ⟨.PWR_STAT, 27, 16, .ro, 0, false, 1, 0, []⟩
def PWR_EVT_CAP_MS : Field := ⟨.PWR_EVT, 63, 48, .rc, 0, false, 1, 0, []⟩
def PWR_EVT_FEED_LOSS : Field := ⟨.PWR_EVT, 47, 32, .rc, 0, false, 1, 0, []⟩
def PWR_EVT_TRIPS : Field := ⟨.PWR_EVT, 31, 16, .rc, 0, false, 1, 0, []⟩
def LB_FIXED_FIXED_PS : Field := ⟨.LB_FIXED, 63, 32, .ro, 0x1388, false, 1, 0, []⟩
def LB_FIXED_XING_PS : Field := ⟨.LB_FIXED, 31, 0, .ro, 0x4e2, false, 1, 0, []⟩
def LB_HOP_TL_TRUMP_PS : Field := ⟨.LB_HOP_TL, 63, 32, .ro, 0x2bf2, false, 1, 0, []⟩
def LB_HOP_TL_LEAD_PS : Field := ⟨.LB_HOP_TL, 31, 0, .ro, 0x668a, false, 1, 0, []⟩
def LB_HOP_FP_FOLLOW_PS : Field := ⟨.LB_HOP_FP, 63, 32, .ro, 0xef42, false, 1, 0, []⟩
def LB_HOP_FP_PASS_PS : Field := ⟨.LB_HOP_FP, 31, 0, .ro, 0x275e2, false, 1, 0, []⟩
def LB_BRG_TL_TRUMP_PS : Field := ⟨.LB_BRG_TL, 63, 32, .ro, 0xc350, false, 1, 0, []⟩
def LB_BRG_TL_LEAD_PS : Field := ⟨.LB_BRG_TL, 31, 0, .ro, 0x1adb0, false, 1, 0, []⟩
def LB_BRG_FP_FOLLOW_PS : Field := ⟨.LB_BRG_FP, 63, 32, .ro, 0x3d090, false, 1, 0, []⟩
def LB_BRG_FP_PASS_PS : Field := ⟨.LB_BRG_FP, 31, 0, .ro, 0x9eb10, false, 1, 0, []⟩
def SRV_STAT_W0_TRACKED : Field := ⟨.SRV_STAT_W0, 62, 48, .ro, 0, false, 1, 0, []⟩
def SRV_STAT_W0_WAITING : Field := ⟨.SRV_STAT_W0, 46, 32, .ro, 0, false, 1, 0, []⟩
def SRV_STAT_W0_RUNNING : Field := ⟨.SRV_STAT_W0, 25, 16, .ro, 0, false, 1, 0, []⟩
def SRV_STAT_W1_STEPS : Field := ⟨.SRV_STAT_W1, 63, 32, .ro, 0, false, 1, 0, []⟩
def SRV_STAT_W1_PREEMPT : Field := ⟨.SRV_STAT_W1, 31, 16, .rc, 0, false, 1, 0, []⟩
def SRV_STAT_W1_REFUSED : Field := ⟨.SRV_STAT_W1, 15, 0, .rc, 0, false, 1, 0, []⟩
def PLOT_STAT_W0_OWNER : Field := ⟨.PLOT_STAT_W0, 63, 32, .ro, 0, false, 1, 0, []⟩
def PLOT_STAT_W0_EPOCH : Field := ⟨.PLOT_STAT_W0, 23, 16, .ro, 0, false, 1, 0, []⟩
def PLOT_STAT_W0_STATE : Field := ⟨.PLOT_STAT_W0, 2, 0, .ro, 0, false, 1, 0, []⟩
def PLOT_STAT_W1_PARTIALS : Field := ⟨.PLOT_STAT_W1, 63, 32, .ro, 0, false, 1, 0, []⟩
def PLOT_STAT_W1_COUNT : Field := ⟨.PLOT_STAT_W1, 29, 16, .ro, 0, false, 1, 0, []⟩
def PLOT_STAT_W1_FIRST : Field := ⟨.PLOT_STAT_W1, 13, 0, .ro, 0, false, 1, 0, []⟩
def RACK_PLOT_W0_JOB : Field := ⟨.RACK_PLOT_W0, 63, 48, .rw, 0, false, 1, 0, []⟩
def RACK_PLOT_W0_INTERVAL_S : Field := ⟨.RACK_PLOT_W0, 47, 32, .ro, 0, false, 1, 0, []⟩
def RACK_PLOT_W0_C_US : Field := ⟨.RACK_PLOT_W0, 31, 0, .ro, 0, false, 1, 0, []⟩
def RACK_PLOT_W1_GEN : Field := ⟨.RACK_PLOT_W1, 63, 32, .ro, 0, false, 1, 0, []⟩
def RACK_PLOT_W1_TIERS : Field := ⟨.RACK_PLOT_W1, 2, 0, .ro, 0, false, 1, 0, []⟩
def FLT_REC_W0_WORD : Field := ⟨.FLT_REC_W0, 63, 0, .ro, 0, false, 1, 0, []⟩
def FLT_REC_W1_WORD : Field := ⟨.FLT_REC_W1, 63, 0, .ro, 0, false, 1, 0, []⟩
def FLT_REC_W2_WORD : Field := ⟨.FLT_REC_W2, 63, 0, .ro, 0, false, 1, 0, []⟩
def FLT_REC_W3_WORD : Field := ⟨.FLT_REC_W3, 63, 0, .ro, 0, false, 1, 0, []⟩
def tfcause_STATUS : Field := ⟨.tfcause, 63, 48, .ro, 0, false, 1, 0, []⟩
def tfcause_THREAD : Field := ⟨.tfcause, 42, 40, .ro, 0, false, 1, 0, []⟩
def tfcause_DETAIL : Field := ⟨.tfcause, 31, 24, .ro, 0, false, 1, 0, []⟩
def tfcause_VECTOR : Field := ⟨.tfcause, 8, 0, .ro, 0, false, 1, 0, []⟩
def tfaddr_ADDR : Field := ⟨.tfaddr, 63, 0, .ro, 0, false, 1, 0, []⟩
def FW_RECOVERY_LENGTH : Field := ⟨.FW_RECOVERY, 31, 0, .wo, 0, false, 1, 0, []⟩

/-- The fields of a register, in the order of its table. (DESIGN CHOICE: notes/assumptions/3.md.) -/
def RegName.fields : RegName → List Field
  | .MOD_IDENT => [ MOD_IDENT_PARCELS, MOD_IDENT_GRID, MOD_IDENT_SPARES_PER_PARCEL, MOD_IDENT_STEPPING, MOD_IDENT_PART]
  | .MODULE_ID => [ MODULE_ID_ID_LOCK, MODULE_ID_ID]
  | .SPARE_AVAIL => [SPARE_AVAIL_FREE]
  | .HALF_RAIL_STATUS => [HALF_RAIL_STATUS_VCORE_SET, HALF_RAIL_STATUS_CEIL_STEP, HALF_RAIL_STATUS_STATE]
  | .ISLAND_STATUS => [ISLAND_STATUS_CORE_STEP, ISLAND_STATUS_ROUTER_STEP, ISLAND_STATUS_ROUTER_STATE, ISLAND_STATUS_CORE_STATE]
  | .IMEM_PTR => [IMEM_PTR_PART, IMEM_PTR_ADDR]
  | .IMEM_DATA => [IMEM_DATA_HI_WORD, IMEM_DATA_LO_WORD]
  | .IMEM_CTL => [IMEM_CTL_OVR, IMEM_CTL_KLOCK]
  | .lpa => [lpa_END, lpa_START]
  | .lstat => [lstat_ACTIVE]
  | .dslim => [dslim_EN, dslim_HIGH, dslim_LOW]
  | .rstat => [rstat_SPILLED, rstat_CAUSE, rstat_INH, rstat_DEPTH]
  | .rspill => [rspill_PTR]
  | .rsreg => [rsreg_EN, rsreg_HIGH, rsreg_LOW]
  | .mbstat => [mbstat_STATE]
  | .mberr => [mberr_CODE]
  | .cyc => [cyc_COUNT]
  | .tid => [tid_LOGICAL, tid_PHYSICAL, tid_THREAD]
  | .wstat => [wstat_EXL, wstat_SELF, wstat_IE, wstat_WORLD, wstat_LEVEL]
  | .tvec => [tvec_EN]
  | .svt => [svt_KEEPER, svt_TENANT]
  | .wtimeout => [wtimeout_EN, wtimeout_LIMIT]
  | .epc => [epc_ADDR]
  | .estat => [estat_RSVD, estat_SHADOW, estat_DS, estat_SAVED]
  | .ecause => [ecause_STATUS, ecause_THREAD, ecause_DETAIL, ecause_VECTOR]
  | .eaddr => [eaddr_ADDR]
  | .emode => [emode_MODE]
  | .tstate => [tstate_STATE]
  | .tmcmp => [tmcmp_EN, tmcmp_CMP]
  | .ipend => [ipend_PEND]
  | .tfsel => [tfsel_TFPEND, tfsel_SEL]
  | .tfpc => [tfpc_DS, tfpc_SHADOW, tfpc_ADDR]
  | .THREAD_CTL => [THREAD_CTL_STOP, THREAD_CTL_START, THREAD_CTL_ERR]
  | .SWI_RAISE => [SWI_RAISE_RAISE]
  | .WRANGE_CTL => [WRANGE_CTL_LOCK]
  | .WRANGE_n => [WRANGE_n_EN, WRANGE_n_WORLD, WRANGE_n_SUP, WRANGE_n_LIMIT, WRANGE_n_BASE]
  | .tcfg => [tcfg_WORLD, tcfg_BASE, tcfg_GANG, tcfg_FMT, tcfg_BPR, tcfg_ROWS]
  | .tprog => [tprog_VALID]
  | .tsel => [tsel_EMPTY, tsel_BUSY, tsel_TILE]
  | .vflags => [vflags_NV, vflags_DZ, vflags_OF, vflags_UF, vflags_NX]
  | .mode => [mode_OSAT, mode_ACC]
  | .astat => [astat_QDEPTH, astat_PEND, astat_WORLD, astat_TYPE]
  | .mchk => [mchk_RESERR, mchk_SHERR, mchk_SHDONE, mchk_SHBUSY, mchk_SHCNT]
  | .ccfg => [ccfg_LOCKMAX, ccfg_PFEN, ccfg_EN]
  | .cstat => [cstat_LOCKFAIL, cstat_LOCKED, cstat_DIRTY, cstat_VALID, cstat_FILLS, cstat_SBUF]
  | .chit => [chit_HITS]
  | .cmiss => [cmiss_MISSES]
  | .cerr => [cerr_STATUS, cerr_LOST]
  | .cerra => [cerra_LINE]
  | .lderr => [lderr_SKIP, lderr_NEXT]
  | .BANK_ARB => [BANK_ARB_NET_WAIT]
  | .MEM_ERR_S => [MEM_ERR_S_CORR, MEM_ERR_S_UNCORR, MEM_ERR_S_SYMBOL, MEM_ERR_S_LAST_UNC, MEM_ERR_S_CWORD]
  | .MEM_ERR_C => [MEM_ERR_C_CORR, MEM_ERR_C_UNCORR, MEM_ERR_C_SYMBOL, MEM_ERR_C_LAST_UNC, MEM_ERR_C_CWORD]
  | .POISON_CLR => [POISON_CLR_CW_OFF]
  | .TAG_ADDR => [TAG_ADDR_CW_OFF]
  | .TAG_DATA => [TAG_DATA_ERR, TAG_DATA_SCOPE, TAG_DATA_FE]
  | .SEAM_CTL => [SEAM_CTL_HOLD, SEAM_CTL_ACT_E, SEAM_CTL_ACT_W]
  | .SEAM_STAT => [SEAM_STAT_RETRY_ANS, SEAM_STAT_WAKES, SEAM_STAT_ABSORBED]
  | .LB_GEN => [LB_GEN_GEN]
  | .CLASS_ARB => [CLASS_ARB_TRUMP_RATE, CLASS_ARB_LEAD_W, CLASS_ARB_FOLLOW_W, CLASS_ARB_PASS_W]
  | .LEAD_RATE_n => [LEAD_RATE_n_BURST, LEAD_RATE_n_RATE]
  | .RTR_OVR_k => [RTR_OVR_k_EN, RTR_OVR_k_CLS, RTR_OVR_k_PORT, RTR_OVR_k_X0, RTR_OVR_k_X1, RTR_OVR_k_Y0, RTR_OVR_k_Y1]
  | .RTR_REDIR => [RTR_REDIR_EN, RTR_REDIR_SX, RTR_REDIR_SY]
  | .RTR_STAT => [RTR_STAT_POT_COMB, RTR_STAT_DEAL_REP, RTR_STAT_TRUMP_HELD, RTR_STAT_LEAD_HELD]
  | .RTR_LINKERR => [RTR_LINKERR_REPLAY_N, RTR_LINKERR_REPLAY_E, RTR_LINKERR_REPLAY_S, RTR_LINKERR_REPLAY_W, RTR_LINKERR_DOWN]
  | .TCLASS => [TCLASS_CLASS]
  | .POT_HOLD => [POT_HOLD_ENTRIES, POT_HOLD_BASE]
  | .POT_OPEN => [POT_OPEN_SLOT, POT_OPEN_FORM, POT_OPEN_SCOPE, POT_OPEN_BASE, POT_OPEN_LAST, POT_OPEN_DEST]
  | .POT_CTL => [POT_CTL_OPEN_ERR, POT_CTL_CANCEL]
  | .POT_ORPHAN => [POT_ORPHAN_COUNT]
  | .POT_SLOT_n => [POT_SLOT_n_STATE, POT_SLOT_n_FORM, POT_SLOT_n_ERR, POT_SLOT_n_DONE, POT_SLOT_n_DEST]
  | .SYNC_CTL => [SYNC_CTL_SMX_EN, SYNC_CTL_POLL]
  | .STREAM_SEL_0 => [STREAM_SEL_0_STREAM]
  | .STREAM_SEL_1 => [STREAM_SEL_1_STREAM]
  | .SCOPE_MISMATCH_CNT => [SCOPE_MISMATCH_CNT_ACQ, SCOPE_MISMATCH_CNT_REL]
  | .SMX_INFO => [SMX_INFO_KIND, SMX_INFO_TAG, SMX_INFO_THREAD]
  | .SMX_ADDR => [SMX_ADDR_ADDR]
  | .WATCH_STAT => [WATCH_STAT_REFUSED, WATCH_STAT_STALE_WAKE, WATCH_STAT_HELD]
  | .DMA_CTL => [DMA_CTL_STOP, DMA_CTL_GO]
  | .DMA_STAT => [DMA_STAT_LAST_CODE, DMA_STAT_LAST_CAUSE, DMA_STAT_PC, DMA_STAT_RING_STALL, DMA_STAT_DESC_FAULT, DMA_STAT_BUSY_ERR, DMA_STAT_STATE]
  | .DMA_RING_BASE => [DMA_RING_BASE_BASE]
  | .DMAC_GO => [DMAC_GO_IRQ, DMAC_GO_MBEN, DMAC_GO_MB, DMAC_GO_DESC]
  | .DMA_RING_CFG => [DMA_RING_CFG_LOG2N]
  | .DMA_HEAD => [DMA_HEAD_INDEX]
  | .DMA_TAIL => [DMA_TAIL_INDEX]
  | .DMA_RETRY_LIMIT => [DMA_RETRY_LIMIT_GAP, DMA_RETRY_LIMIT_LIMIT]
  | .DMA_TIMEOUT => [DMA_TIMEOUT_REPLY_TO]
  | .DMA_EVENT_SET => [DMA_EVENT_SET_SET]
  | .DMA_EVENT => [DMA_EVENT_EV]
  | .DMA_BIND => [DMA_BIND_BOUND, DMA_BIND_WORLD, DMA_BIND_LEVEL, DMA_BIND_PLOT, DMA_BIND_EPOCH]
  | .DMA_COUNT => [DMA_COUNT_DONE, DMA_COUNT_RETRIES]
  | .TU_RANGE_W0 => [TU_RANGE_W0_EN, TU_RANGE_W0_KOWN, TU_RANGE_W0_KIND, TU_RANGE_W0_PS, TU_RANGE_W0_W, TU_RANGE_W0_SUP, TU_RANGE_W0_HOLD, TU_RANGE_W0_VBASE]
  | .TU_RANGE_W1 => [TU_RANGE_W1_COUNT, TU_RANGE_W1_PBASE]
  | .HBM_STAT => [HBM_STAT_RESERVE_OUT, HBM_STAT_DEGRADED, HBM_STAT_STATE, HBM_STAT_RETIRED, HBM_STAT_PC_OFF]
  | .HBM_CFG => [HBM_CFG_RESERVE, HBM_CFG_PC_THR, HBM_CFG_RATE, HBM_CFG_RETIRE_THR]
  | .HBM_ERR_q => [HBM_ERR_q_CORR, HBM_ERR_q_UNCORR, HBM_ERR_q_DIECC, HBM_ERR_q_PAGE]
  | .TU_WSTAT => [TU_WSTAT_WERR]
  | .TU_SYNC => [TU_SYNC_GO, TU_SYNC_DONE, TU_SYNC_VBASE, TU_SYNC_COUNT]
  | .TU_FAULT_INFO => [TU_FAULT_INFO_DETAIL, TU_FAULT_INFO_COUNT]
  | .TU_FAULT_ADDR => [TU_FAULT_ADDR_ADDR]
  | .TU_GRANT_g => [TU_GRANT_g_EN, TU_GRANT_g_STACK, TU_GRANT_g_GBASE, TU_GRANT_g_P, TU_GRANT_g_COUNT]
  | .TU_MODMAP_v => [TU_MODMAP_v_EN, TU_MODMAP_v_ID]
  | .PORT_CFG => [PORT_CFG_EN, PORT_CFG_MODE, PORT_CFG_SPEED, PORT_CFG_PMD, PORT_CFG_AN, PORT_CFG_ENC, PORT_CFG_PTP, PORT_CFG_PFC]
  | .PORT_STAT => [PORT_STAT_PEER_ID, PORT_STAT_PEER_PORT, PORT_STAT_SPARE, PORT_STAT_STATE]
  | .PORT_BIND => [PORT_BIND_KEEPER_OK, PORT_BIND_SUP_OK]
  | .PORT_PLOTS => [PORT_PLOTS_PLOTS]
  | .PORT_POOL_v => [PORT_POOL_v_RESP, PORT_POOL_v_REQ]
  | .PORT_LINK => [PORT_LINK_RETRY_MAX, PORT_LINK_ACK_TO]
  | .PORT_ERR => [PORT_ERR_FEC_CORR, PORT_ERR_FEC_UNC, PORT_ERR_FCS, PORT_ERR_REPLAY]
  | .PORT_DROP => [PORT_DROP_AUTH, PORT_DROP_MISDEL, PORT_DROP_DENIED, PORT_DROP_NOCONN]
  | .PORT_MAC => [PORT_MAC_MAC]
  | .PORT_GW_MAC => [PORT_GW_MAC_MAC]
  | .PORT_QOS => [PORT_QOS_DSCP]
  | .PORT_VLAN => [PORT_VLAN_EN, PORT_VLAN_MTU, PORT_VLAN_VID]
  | .PORT_PTP => [PORT_PTP_DELAY_PS, PORT_PTP_DOMAIN]
  | .FAB_CFG => [FAB_CFG_UDP_PORT, FAB_CFG_IPV6, FAB_CFG_RETRY_MAX, FAB_CFG_RTO_R, FAB_CFG_RTO_D]
  | .FAB_PREFIX_HI => [FAB_PREFIX_HI_HI]
  | .FAB_PREFIX_LO => [FAB_PREFIX_LO_LO]
  | .FAB_IPV4 => [FAB_IPV4_PREFIX]
  | .FAB_ADMIT => [FAB_ADMIT_FOLLOW_WAIT, FAB_ADMIT_PASS_WAIT]
  | .FAB_STREAM => [FAB_STREAM_HELD, FAB_STREAM_HOLD_LIMIT]
  | .FAB_DEAL => [FAB_DEAL_LIMIT, FAB_DEAL_GAP]
  | .FAB_POT => [FAB_POT_WAIT]
  | .FAB_CONN => [FAB_CONN_IN_USE, FAB_CONN_BUSY, FAB_CONN_FAILED]
  | .PT_ENTRY_W0 => [PT_ENTRY_W0_EN, PT_ENTRY_W0_HI, PT_ENTRY_W0_LO]
  | .PT_ENTRY_W1 => [PT_ENTRY_W1_PORTS]
  | .FUNC_BIND => [FUNC_BIND_FUNC, FUNC_BIND_VF, FUNC_BIND_LINK, FUNC_BIND_WCLASS, FUNC_BIND_ADMIN, FUNC_BIND_LEVEL, FUNC_BIND_PLOT, FUNC_BIND_QCOUNT]
  | .FUNC_STAT => [FUNC_STAT_EVLOST, FUNC_STAT_FATAL, FUNC_STAT_FLR, FUNC_STAT_LINK_UP]
  | .FUNC_WIN => [FUNC_WIN_BASE]
  | .FUNC_WINERR => [FUNC_WINERR_STATUS, FUNC_WINERR_RD, FUNC_WINERR_WR]
  | .QP_BIND => [QP_BIND_TARGET, QP_BIND_CLASS, QP_BIND_KEEPER, QP_BIND_PLOT, QP_BIND_FUNC, QP_BIND_LOCAL, QP_BIND_CORE]
  | .QP_CFG => [QP_CFG_EN, QP_CFG_SQ_HOST, QP_CFG_CQ_HOST, QP_CFG_IEN, QP_CFG_SQ_LOG2, QP_CFG_CQ_LOG2, QP_CFG_VEC]
  | .QP_SQ_BASE => [QP_SQ_BASE_BASE]
  | .QP_CQ_BASE => [QP_CQ_BASE_BASE]
  | .QP_COAL => [QP_COAL_COAL_N, QP_COAL_COAL_T]
  | .QP_STAT => [QP_STAT_SQ_HEAD, QP_STAT_CQ_TAIL, QP_STAT_ERR, QP_STAT_STATE, QP_STAT_ACTIVE]
  | .QP_SQ_TAIL => [QP_SQ_TAIL_INDEX]
  | .QP_CQ_HEAD => [QP_CQ_HEAD_INDEX]
  | .QP_CQ_POST => [QP_CQ_POST_INDEX]
  | .QP_CTL => [QP_CTL_RESET]
  | .ADMIT_CFG => [ADMIT_CFG_FOLLOW_WAIT, ADMIT_CFG_PASS_WAIT, ADMIT_CFG_DELAY_THR, ADMIT_CFG_PASS_Q, ADMIT_CFG_LEAD_W, ADMIT_CFG_FOLLOW_W, ADMIT_CFG_PASS_W]
  | .ADMIT_STAT => [ADMIT_STAT_DELAYED, ADMIT_STAT_REF_BUSY, ADMIT_STAT_REF_QUOTA, ADMIT_STAT_SLOTS]
  | .ADMIT_PLOT_n => [ADMIT_PLOT_n_LEAD_CMDS]
  | .KEXIT => [KEXIT_CODE]
  | .KSTAT => [KSTAT_ACTIVE, KSTAT_RUN]
  | .STRAP_STAT => [STRAP_STAT_DIFF, STRAP_STAT_TEST_MODE, STRAP_STAT_PTP_SRC, STRAP_STAT_SEC_LOCK, STRAP_STAT_PROFILE_DEF, STRAP_STAT_PROFILE_PIN_EN, STRAP_STAT_FEED_ID, STRAP_STAT_SLOT_ID, STRAP_STAT_HOST_MODE, STRAP_STAT_BOOT_SRC]
  | .PROFILE_STAT => [PROFILE_STAT_EDGES, PROFILE_STAT_PINS, PROFILE_STAT_UNSIGNED, PROFILE_STAT_FALLBACK, PROFILE_STAT_SOURCE, PROFILE_STAT_DEVICE, PROFILE_STAT_SLOT, PROFILE_STAT_STATE]
  | .IMG_STAT => [IMG_STAT_RECORD, IMG_STAT_CODE, IMG_STAT_DETAIL]
  | .IMG_DIGEST_i => [IMG_DIGEST_i_DIGEST]
  | .DET_CNT => [DET_CNT_ATOMIC, DET_CNT_FASTPOT, DET_CNT_TIMEOUT, DET_CNT_PROBE]
  | .SRV_MOD => [SRV_MOD_IN_USE, SRV_MOD_FREE]
  | .SRV_PLOT_A_n => [SRV_PLOT_A_n_TRACK_MAX, SRV_PLOT_A_n_TRACK_LEAD, SRV_PLOT_A_n_LEAD_SEQ, SRV_PLOT_A_n_PASS_HW]
  | .SRV_PLOT_B_n => [SRV_PLOT_B_n_FOLLOW_WAIT, SRV_PLOT_B_n_PASS_WAIT, SRV_PLOT_B_n_KV_LEAD, SRV_PLOT_B_n_STREAM_HOLD]
  | .CORE_CHK => [CORE_CHK_SECDED_CORR, CORE_CHK_ALU_ERR, CORE_CHK_LAST_UNIT, CORE_CHK_STOPPED]
  | .WDOG_CTL => [WDOG_CTL_EN, WDOG_CTL_LIMIT]
  | .WDOG_KICK => [WDOG_KICK_KICK]
  | .FLT_STAT => [FLT_STAT_LAPSE_ENV, FLT_STAT_LAPSE_SCRUB, FLT_STAT_LAPSE_TEST, FLT_STAT_LAPSE_KEEPER, FLT_STAT_NOSPARE, FLT_STAT_SEQ]
  | .FLT_HEAD => [FLT_HEAD_NEXT]
  | .SCRUB_CFG => [SCRUB_CFG_EN, SCRUB_CFG_HBM_H, SCRUB_CFG_SRAM_H]
  | .SCRUB_STAT => [SCRUB_STAT_SRAM_AGE_M, SCRUB_STAT_HBM_AGE_M, SCRUB_STAT_PASSES]
  | .TEST_CFG => [TEST_CFG_EN, TEST_CFG_PERIOD_M, TEST_CFG_MIGRATE]
  | .TEST_STAT => [TEST_STAT_OVERDUE, TEST_STAT_FAILED, TEST_STAT_LAST]
  | .AGE_CFG => [AGE_CFG_PERIOD_H, AGE_CFG_VMAX, AGE_CFG_MARGIN_PS, AGE_CFG_EYE_MIN_MV]
  | .AGE_STAT => [AGE_STAT_REPLANS, AGE_STAT_SLOWED, AGE_STAT_ALARMS]
  | .REPAIR_SUM => [REPAIR_SUM_CORE_GRAFTS, REPAIR_SUM_ROW_COL, REPAIR_SUM_LANES, REPAIR_SUM_ROUTERS, REPAIR_SUM_PHASES, REPAIR_SUM_STEWARD]
  | .RESET_REQ => [RESET_REQ_GO, RESET_REQ_DOMAIN, RESET_REQ_FORCED, RESET_REQ_INDEX]
  | .RESET_STAT => [RESET_STAT_STATE, RESET_STAT_DOMAIN, RESET_STAT_ERR, RESET_STAT_DRAIN_US, RESET_STAT_INDEX]
  | .FENCE_DROP_CNT => [FENCE_DROP_CNT_ANSWERED, FENCE_DROP_CNT_ABSORBED, FENCE_DROP_CNT_OWNER_FENCED]
  | .CTX_BIND => [CTX_BIND_BOUND, CTX_BIND_PLOT, CTX_BIND_EPOCH]
  | .EPOCH_DROP => [EPOCH_DROP_STALE, EPOCH_DROP_PLOT, EPOCH_DROP_EPOCH]
  | .HANG_CFG => [HANG_CFG_EN, HANG_CFG_DUMP, HANG_CFG_REPLAY_MS, HANG_CFG_STALL_MS, HANG_CFG_HBM_WAIT, HANG_CFG_ROUTER_WAIT, HANG_CFG_PORT_MS]
  | .HANG_STAT => [HANG_STAT_STATE, HANG_STAT_REPLAY_PLOT, HANG_STAT_GUILTY, HANG_STAT_HANG_ID]
  | .DUMP_CFG => [DUMP_CFG_DEST, DUMP_CFG_SCOPE, DUMP_CFG_TILES, DUMP_CFG_STACK, DUMP_CFG_PAGES, DUMP_CFG_PAGE]
  | .DUMP_NVME => [DUMP_NVME_LBA]
  | .DUMP_STAT => [DUMP_STAT_STATE, DUMP_STAT_WHERE, DUMP_STAT_HELD, DUMP_STAT_NORESP, DUMP_STAT_BYTES]
  | .MOD_RESET => [ MOD_RESET_GO, MOD_RESET_DOMAIN]
  | .DUMP_CTL => [DUMP_CTL_GO]
  | .TD_STAT => [TD_STAT_STALE, TD_STAT_TEARDOWNS]
  | .HANG_PLOT_n => [HANG_PLOT_n_REPLAY, HANG_PLOT_n_VERDICT, HANG_PLOT_n_HANGS]
  | .RACK_LOC => [RACK_LOC_RACK_ID]
  | .RACK_PARTNER => [RACK_PARTNER_PARTNER, RACK_PARTNER_HOSTED, RACK_PARTNER_LAST_CODE, RACK_PARTNER_AT_RISK, RACK_PARTNER_STATE]
  | .RACK_CFG => [RACK_CFG_MTBF_PRIOR, RACK_CFG_T1_MBPS, RACK_CFG_VERIFY_MS, RACK_CFG_NVME_GENS, RACK_CFG_T1_PLOT]
  | .RACK_NVME => [RACK_NVME_BLOCKS, RACK_NVME_LBA]
  | .RACK_STAT => [RACK_STAT_HOURS, RACK_STAT_FAILS, RACK_STAT_NVME_OK]
  | .TIME_NOW_0 => [TIME_NOW_0_SEC_LO, TIME_NOW_0_NS, TIME_NOW_0_FRAC]
  | .TIME_NOW_1 => [TIME_NOW_1_SEC_HI]
  | .TIME_STAT => [TIME_STAT_UTC_OFF, TIME_STAT_STEPS, TIME_STAT_OFFSET]
  | .TIME_SRC => [TIME_SRC_REF10_OK, TIME_SRC_PORT, TIME_SRC_STATE]
  | .TIME_CFG => [TIME_CFG_REF10, TIME_CFG_PPS_OUT, TIME_CFG_SRC, TIME_CFG_DOMAIN, TIME_CFG_TRANSPORT, TIME_CFG_STEP_US]
  | .TIME_SET => [TIME_SET_SEC]
  | .PPS_TS => [PPS_TS_TS]
  | .FW_STAT => [FW_STAT_RUN_SVN, FW_STAT_CORE_OLD, FW_STAT_LAST_CODE, FW_STAT_UNSIGNED, FW_STAT_REVERTED, FW_STAT_TRIAL, FW_STAT_DEVICE, FW_STAT_BANK, FW_STAT_UPD_STATE]
  | .FUSE_STAT => [FUSE_STAT_SECURE_ONLY, FUSE_STAT_OWNED, FUSE_STAT_REVOKED, FUSE_STAT_FW_CTR, FUSE_STAT_IMG_CTR]
  | .FW_CFG => [FW_CFG_TRIAL_MIN]
  | .dbp => [dbp_EN, dbp_ACT, dbp_ADDR]
  | .dwp => [dwp_LINE, dwp_ACT, dwp_WR, dwp_RD, dwp_EN]
  | .dstat => [dstat_SKIP, dstat_SS, dstat_CAUSE]
  | .SEND_DATA_w => [SEND_DATA_w_DATA]
  | .SEND_DEST => [SEND_DEST_ADDR]
  | .SEND_COMMIT => [SEND_COMMIT_SCOPE, SEND_COMMIT_LEN]
  | .SEND_STAT => [SEND_STAT_CODE, SEND_STAT_BUSY, SEND_STAT_DISCARDED, SEND_STAT_STAGED]
  | .DBG_RUN => [DBG_RUN_DISCARD, DBG_RUN_STEP, DBG_RUN_RESUME, DBG_RUN_HALT]
  | .DBG_STAT => [DBG_STAT_EXPIRED]
  | .RTR_TURN => [RTR_TURN_DONE, RTR_TURN_ERR, RTR_TURN_COUNT, RTR_TURN_TX_GO, RTR_TURN_TX_PORT, RTR_TURN_TB]
  | .DBG_LOCK => [DBG_LOCK_LEVEL, DBG_LOCK_PLOT, DBG_LOCK_LOCK]
  | .DBG_NONCE_i => [DBG_NONCE_i_NONCE]
  | .DBG_HOLD => [DBG_HOLD_CHAN_HOLD_LIMIT]
  | .LB_CTL_i => [LB_CTL_i_CODE, LB_CTL_i_STATE, LB_CTL_i_GO, LB_CTL_i_ROLE, LB_CTL_i_PATTERN, LB_CTL_i_LANES, LB_CTL_i_DEPTH]
  | .LB_STAT_i => [LB_STAT_i_ERRORS, LB_STAT_i_STEPS, LB_STAT_i_LOCK]
  | .LAST_LB => [LAST_LB_CODE, LAST_LB_INDEX, LAST_LB_STATE]
  | .PWR_CFG => [PWR_CFG_FIXED, PWR_CFG_FIXED_STEP, PWR_CFG_LIMIT_W]
  | .PWR_STAT => [PWR_STAT_CAP_STEP, PWR_STAT_GOV_STATE, PWR_STAT_FEED_A_OK, PWR_STAT_FEED_B_OK, PWR_STAT_POWER_EN, PWR_STAT_PWR_GOOD, PWR_STAT_STRAP_DIFF_HI, PWR_STAT_POWER_W]
  | .PWR_EVT => [PWR_EVT_CAP_MS, PWR_EVT_FEED_LOSS, PWR_EVT_TRIPS]
  | .LB_FIXED => [LB_FIXED_FIXED_PS, LB_FIXED_XING_PS]
  | .LB_HOP_TL => [LB_HOP_TL_TRUMP_PS, LB_HOP_TL_LEAD_PS]
  | .LB_HOP_FP => [LB_HOP_FP_FOLLOW_PS, LB_HOP_FP_PASS_PS]
  | .LB_BRG_TL => [LB_BRG_TL_TRUMP_PS, LB_BRG_TL_LEAD_PS]
  | .LB_BRG_FP => [LB_BRG_FP_FOLLOW_PS, LB_BRG_FP_PASS_PS]
  | .SRV_STAT_W0 => [SRV_STAT_W0_TRACKED, SRV_STAT_W0_WAITING, SRV_STAT_W0_RUNNING]
  | .SRV_STAT_W1 => [SRV_STAT_W1_STEPS, SRV_STAT_W1_PREEMPT, SRV_STAT_W1_REFUSED]
  | .PLOT_STAT_W0 => [PLOT_STAT_W0_OWNER, PLOT_STAT_W0_EPOCH, PLOT_STAT_W0_STATE]
  | .PLOT_STAT_W1 => [PLOT_STAT_W1_PARTIALS, PLOT_STAT_W1_COUNT, PLOT_STAT_W1_FIRST]
  | .RACK_PLOT_W0 => [RACK_PLOT_W0_JOB, RACK_PLOT_W0_INTERVAL_S, RACK_PLOT_W0_C_US]
  | .RACK_PLOT_W1 => [RACK_PLOT_W1_GEN, RACK_PLOT_W1_TIERS]
  | .FLT_REC_W0 => [FLT_REC_W0_WORD]
  | .FLT_REC_W1 => [FLT_REC_W1_WORD]
  | .FLT_REC_W2 => [FLT_REC_W2_WORD]
  | .FLT_REC_W3 => [FLT_REC_W3_WORD]
  | .tfcause => [tfcause_STATUS, tfcause_THREAD, tfcause_DETAIL, tfcause_VECTOR]
  | .tfaddr => [tfaddr_ADDR]
  | .FW_RECOVERY => [FW_RECOVERY_LENGTH]

/-- Where each register lies, as the line above its table says. -/
def RegName.desc : RegName → RegDesc
  | .MOD_IDENT => ⟨.ident, 0x0, 0, 1, 64⟩
  | .MODULE_ID => ⟨.ident, 0x8, 0, 1, 32⟩
  | .SPARE_AVAIL => ⟨.ident, 0x10, 0, 1, 64⟩
  | .HALF_RAIL_STATUS => ⟨.parcel, 0x800, 8, 2, 64⟩
  | .ISLAND_STATUS => ⟨.parcel, 0x1000, 8, 90, 64⟩
  | .IMEM_PTR => ⟨.core, 0x0, 0, 1, 64⟩
  | .IMEM_DATA => ⟨.core, 0x8, 0, 1, 64⟩
  | .IMEM_CTL => ⟨.core, 0x10, 0, 1, 32⟩
  | .lpa => ⟨.thr, 0x20, 1, 4, 32⟩
  | .lstat => ⟨.thr, 0x24, 0, 1, 32⟩
  | .dslim => ⟨.thr, 0x28, 0, 1, 64⟩
  | .rstat => ⟨.thr, 0x29, 0, 1, 64⟩
  | .rspill => ⟨.thr, 0x2a, 0, 1, 64⟩
  | .rsreg => ⟨.thr, 0x2b, 0, 1, 64⟩
  | .mbstat => ⟨.thr, 0x2c, 0, 1, 32⟩
  | .mberr => ⟨.thr, 0x2d, 0, 1, 64⟩
  | .cyc => ⟨.cst, 0x30, 0, 1, 64⟩
  | .tid => ⟨.thr, 0x31, 0, 1, 64⟩
  | .wstat => ⟨.thr, 0x0, 0, 1, 32⟩
  | .tvec => ⟨.thr, 0x1, 0, 1, 32⟩
  | .svt => ⟨.cst, 0x2, 0, 1, 32⟩
  | .wtimeout => ⟨.thr, 0x3, 0, 1, 32⟩
  | .epc => ⟨.thr, 0x4, 0, 1, 32⟩
  | .estat => ⟨.thr, 0x5, 0, 1, 32⟩
  | .ecause => ⟨.thr, 0x6, 0, 1, 64⟩
  | .eaddr => ⟨.thr, 0x7, 0, 1, 64⟩
  | .emode => ⟨.thr, 0x8, 0, 1, 32⟩
  | .tstate => ⟨.cst, 0x9, 0, 1, 32⟩
  | .tmcmp => ⟨.thr, 0xa, 0, 1, 64⟩
  | .ipend => ⟨.cst, 0xb, 0, 1, 32⟩
  | .tfsel => ⟨.cst, 0xc, 0, 1, 32⟩
  | .tfpc => ⟨.thr, 0xd, 0, 1, 32⟩
  | .THREAD_CTL => ⟨.core, 0x100, 0, 1, 64⟩
  | .SWI_RAISE => ⟨.core, 0x108, 0, 1, 32⟩
  | .WRANGE_CTL => ⟨.core, 0x138, 0, 1, 32⟩
  | .WRANGE_n => ⟨.core, 0x140, 8, 8, 64⟩
  | .tcfg => ⟨.cst, 0x10, 1, 8, 32⟩
  | .tprog => ⟨.thr, 0x18, 0, 1, 64⟩
  | .tsel => ⟨.thr, 0x19, 0, 1, 32⟩
  | .vflags => ⟨.thr, 0x1a, 0, 1, 32⟩
  | .mode => ⟨.thr, 0x40, 0, 1, 32⟩
  | .astat => ⟨.thr, 0x41, 0, 1, 32⟩
  | .mchk => ⟨.thr, 0x42, 0, 1, 64⟩
  | .ccfg => ⟨.cst, 0x50, 0, 1, 32⟩
  | .cstat => ⟨.cst, 0x51, 0, 1, 64⟩
  | .chit => ⟨.cst, 0x52, 0, 1, 64⟩
  | .cmiss => ⟨.cst, 0x53, 0, 1, 64⟩
  | .cerr => ⟨.cst, 0x54, 0, 1, 64⟩
  | .cerra => ⟨.cst, 0x55, 0, 1, 64⟩
  | .lderr => ⟨.thr, 0x56, 0, 1, 32⟩
  | .BANK_ARB => ⟨.core, 0x200, 0, 1, 32⟩
  | .MEM_ERR_S => ⟨.core, 0x208, 0, 1, 64⟩
  | .MEM_ERR_C => ⟨.core, 0x210, 0, 1, 64⟩
  | .POISON_CLR => ⟨.core, 0x220, 0, 1, 64⟩
  | .TAG_ADDR => ⟨.core, 0x228, 0, 1, 64⟩
  | .TAG_DATA => ⟨.core, 0x230, 0, 1, 32⟩
  | .SEAM_CTL => ⟨.parcel, 0x900, 0, 1, 32⟩
  | .SEAM_STAT => ⟨.parcel, 0x908, 0, 1, 64⟩
  | .LB_GEN => ⟨.parcel, 0xa00, 0, 1, 64⟩
  | .CLASS_ARB => ⟨.parcel, 0xb00, 0, 1, 32⟩
  | .LEAD_RATE_n => ⟨.parcel, 0xc00, 8, 64, 32⟩
  | .RTR_OVR_k => ⟨.router, 0x0, 8, 16, 64⟩
  | .RTR_REDIR => ⟨.router, 0x80, 0, 1, 32⟩
  | .RTR_STAT => ⟨.router, 0x88, 0, 1, 64⟩
  | .RTR_LINKERR => ⟨.router, 0x90, 0, 1, 64⟩
  | .TCLASS => ⟨.core, 0x300, 0, 1, 32⟩
  | .POT_HOLD => ⟨.core, 0x308, 0, 1, 64⟩
  | .POT_OPEN => ⟨.core, 0x310, 0, 1, 64⟩
  | .POT_CTL => ⟨.core, 0x318, 0, 1, 32⟩
  | .POT_ORPHAN => ⟨.core, 0x320, 0, 1, 32⟩
  | .POT_SLOT_n => ⟨.core, 0x340, 8, 16, 64⟩
  | .SYNC_CTL => ⟨.core, 0x400, 0, 1, 32⟩
  | .STREAM_SEL_0 => ⟨.core, 0x408, 0, 1, 64⟩
  | .STREAM_SEL_1 => ⟨.core, 0x410, 0, 1, 64⟩
  | .SCOPE_MISMATCH_CNT => ⟨.core, 0x418, 0, 1, 32⟩
  | .SMX_INFO => ⟨.core, 0x420, 0, 1, 32⟩
  | .SMX_ADDR => ⟨.core, 0x428, 0, 1, 64⟩
  | .WATCH_STAT => ⟨.core, 0x430, 0, 1, 64⟩
  | .DMA_CTL => ⟨.dma, 0x0, 0, 1, 32⟩
  | .DMA_STAT => ⟨.dma, 0x8, 0, 1, 64⟩
  | .DMA_RING_BASE => ⟨.dma, 0x10, 0, 1, 64⟩
  | .DMAC_GO => ⟨.dma, 0x10, 0, 1, 64⟩
  | .DMA_RING_CFG => ⟨.dma, 0x18, 0, 1, 32⟩
  | .DMA_HEAD => ⟨.dma, 0x20, 0, 1, 32⟩
  | .DMA_TAIL => ⟨.dma, 0x28, 0, 1, 32⟩
  | .DMA_RETRY_LIMIT => ⟨.dma, 0x30, 0, 1, 32⟩
  | .DMA_TIMEOUT => ⟨.dma, 0x38, 0, 1, 32⟩
  | .DMA_EVENT_SET => ⟨.dma, 0x40, 0, 1, 32⟩
  | .DMA_EVENT => ⟨.dma, 0x48, 0, 1, 32⟩
  | .DMA_BIND => ⟨.dma, 0x50, 0, 1, 64⟩
  | .DMA_COUNT => ⟨.dma, 0x58, 0, 1, 64⟩
  | .TU_RANGE_W0 => ⟨.tu, 0x1000, 16, 256, 64⟩
  | .TU_RANGE_W1 => ⟨.tu, 0x1008, 16, 256, 64⟩
  | .HBM_STAT => ⟨.hbm, 0x0, 0, 1, 64⟩
  | .HBM_CFG => ⟨.hbm, 0x8, 0, 1, 32⟩
  | .HBM_ERR_q => ⟨.hbm, 0x100, 8, 32, 64⟩
  | .TU_WSTAT => ⟨.tu, 0x0, 0, 1, 32⟩
  | .TU_SYNC => ⟨.tu, 0x8, 0, 1, 64⟩
  | .TU_FAULT_INFO => ⟨.tu, 0x10, 0, 1, 32⟩
  | .TU_FAULT_ADDR => ⟨.tu, 0x18, 0, 1, 64⟩
  | .TU_GRANT_g => ⟨.tu, 0x400, 8, 64, 64⟩
  | .TU_MODMAP_v => ⟨.tu, 0x4000, 4, 4096, 32⟩
  | .PORT_CFG => ⟨.port, 0x0, 0, 1, 32⟩
  | .PORT_STAT => ⟨.port, 0x8, 0, 1, 64⟩
  | .PORT_BIND => ⟨.port, 0x10, 0, 1, 32⟩
  | .PORT_PLOTS => ⟨.port, 0x18, 0, 1, 64⟩
  | .PORT_POOL_v => ⟨.port, 0x20, 8, 4, 32⟩
  | .PORT_LINK => ⟨.port, 0x40, 0, 1, 32⟩
  | .PORT_ERR => ⟨.port, 0x48, 0, 1, 64⟩
  | .PORT_DROP => ⟨.port, 0x50, 0, 1, 64⟩
  | .PORT_MAC => ⟨.port, 0x60, 0, 1, 64⟩
  | .PORT_GW_MAC => ⟨.port, 0x68, 0, 1, 64⟩
  | .PORT_QOS => ⟨.port, 0x70, 0, 1, 32⟩
  | .PORT_VLAN => ⟨.port, 0x78, 0, 1, 32⟩
  | .PORT_PTP => ⟨.port, 0x80, 0, 1, 64⟩
  | .FAB_CFG => ⟨.fab, 0x80000, 0, 1, 64⟩
  | .FAB_PREFIX_HI => ⟨.fab, 0x80008, 0, 1, 64⟩
  | .FAB_PREFIX_LO => ⟨.fab, 0x80010, 0, 1, 64⟩
  | .FAB_IPV4 => ⟨.fab, 0x80018, 0, 1, 32⟩
  | .FAB_ADMIT => ⟨.fab, 0x80020, 0, 1, 32⟩
  | .FAB_STREAM => ⟨.fab, 0x80028, 0, 1, 32⟩
  | .FAB_DEAL => ⟨.fab, 0x80030, 0, 1, 32⟩
  | .FAB_POT => ⟨.fab, 0x80038, 0, 1, 32⟩
  | .FAB_CONN => ⟨.fab, 0x80040, 0, 1, 64⟩
  | .PT_ENTRY_W0 => ⟨.fab, 0x90000, 16, 1024, 64⟩
  | .PT_ENTRY_W1 => ⟨.fab, 0x90008, 16, 1024, 64⟩
  | .FUNC_BIND => ⟨.func, 0x0, 0, 1, 64⟩
  | .FUNC_STAT => ⟨.func, 0x8, 0, 1, 32⟩
  | .FUNC_WIN => ⟨.func, 0x10, 0, 1, 64⟩
  | .FUNC_WINERR => ⟨.func, 0x18, 0, 1, 64⟩
  | .QP_BIND => ⟨.queue, 0x0, 0, 1, 64⟩
  | .QP_CFG => ⟨.queue, 0x8, 0, 1, 32⟩
  | .QP_SQ_BASE => ⟨.queue, 0x10, 0, 1, 64⟩
  | .QP_CQ_BASE => ⟨.queue, 0x18, 0, 1, 64⟩
  | .QP_COAL => ⟨.queue, 0x20, 0, 1, 32⟩
  | .QP_STAT => ⟨.queue, 0x28, 0, 1, 64⟩
  | .QP_SQ_TAIL => ⟨.queue, 0x40, 0, 1, 32⟩
  | .QP_CQ_HEAD => ⟨.queue, 0x48, 0, 1, 32⟩
  | .QP_CQ_POST => ⟨.queue, 0x50, 0, 1, 32⟩
  | .QP_CTL => ⟨.queue, 0x58, 0, 1, 32⟩
  | .ADMIT_CFG => ⟨.adm, 0x0, 0, 1, 64⟩
  | .ADMIT_STAT => ⟨.adm, 0x8, 0, 1, 64⟩
  | .ADMIT_PLOT_n => ⟨.adm, 0x100, 8, 64, 32⟩
  | .KEXIT => ⟨.core, 0x600, 0, 1, 32⟩
  | .KSTAT => ⟨.core, 0x608, 0, 1, 32⟩
  | .STRAP_STAT => ⟨.image, 0x0, 0, 1, 64⟩
  | .PROFILE_STAT => ⟨.image, 0x8, 0, 1, 64⟩
  | .IMG_STAT => ⟨.image, 0x10, 0, 1, 64⟩
  | .IMG_DIGEST_i => ⟨.image, 0x40, 8, 6, 64⟩
  | .DET_CNT => ⟨.core, 0x700, 0, 1, 64⟩
  | .SRV_MOD => ⟨.serve, 0x0, 0, 1, 32⟩
  | .SRV_PLOT_A_n => ⟨.serve, 0x1000, 16, 64, 64⟩
  | .SRV_PLOT_B_n => ⟨.serve, 0x1008, 16, 64, 64⟩
  | .CORE_CHK => ⟨.core, 0x800, 0, 1, 64⟩
  | .WDOG_CTL => ⟨.core, 0x808, 0, 1, 32⟩
  | .WDOG_KICK => ⟨.core, 0x810, 0, 1, 32⟩
  | .FLT_STAT => ⟨.flt, 0x0, 0, 1, 64⟩
  | .FLT_HEAD => ⟨.flt, 0x8, 0, 1, 32⟩
  | .SCRUB_CFG => ⟨.flt, 0x10, 0, 1, 32⟩
  | .SCRUB_STAT => ⟨.flt, 0x18, 0, 1, 64⟩
  | .TEST_CFG => ⟨.flt, 0x20, 0, 1, 32⟩
  | .TEST_STAT => ⟨.flt, 0x28, 0, 1, 64⟩
  | .AGE_CFG => ⟨.flt, 0x30, 0, 1, 32⟩
  | .AGE_STAT => ⟨.flt, 0x38, 0, 1, 64⟩
  | .REPAIR_SUM => ⟨.flt, 0x40, 0, 1, 64⟩
  | .RESET_REQ => ⟨.parcel, 0x2000, 0, 1, 64⟩
  | .RESET_STAT => ⟨.parcel, 0x2008, 0, 1, 64⟩
  | .FENCE_DROP_CNT => ⟨.router, 0x98, 0, 1, 64⟩
  | .CTX_BIND => ⟨.core, 0x900, 0, 1, 64⟩
  | .EPOCH_DROP => ⟨.core, 0x908, 0, 1, 64⟩
  | .HANG_CFG => ⟨.hang, 0x0, 0, 1, 64⟩
  | .HANG_STAT => ⟨.hang, 0x8, 0, 1, 64⟩
  | .DUMP_CFG => ⟨.hang, 0x10, 0, 1, 64⟩
  | .DUMP_NVME => ⟨.hang, 0x18, 0, 1, 64⟩
  | .DUMP_STAT => ⟨.hang, 0x20, 0, 1, 64⟩
  | .MOD_RESET => ⟨.hang, 0x28, 0, 1, 32⟩
  | .DUMP_CTL => ⟨.hang, 0x30, 0, 1, 32⟩
  | .TD_STAT => ⟨.hang, 0x38, 0, 1, 32⟩
  | .HANG_PLOT_n => ⟨.hang, 0x100, 8, 64, 32⟩
  | .RACK_LOC => ⟨.rack, 0x0, 0, 1, 32⟩
  | .RACK_PARTNER => ⟨.rack, 0x8, 0, 1, 64⟩
  | .RACK_CFG => ⟨.rack, 0x10, 0, 1, 64⟩
  | .RACK_NVME => ⟨.rack, 0x18, 0, 1, 64⟩
  | .RACK_STAT => ⟨.rack, 0x20, 0, 1, 64⟩
  | .TIME_NOW_0 => ⟨.time, 0x0, 0, 1, 64⟩
  | .TIME_NOW_1 => ⟨.time, 0x8, 0, 1, 64⟩
  | .TIME_STAT => ⟨.time, 0x10, 0, 1, 64⟩
  | .TIME_SRC => ⟨.time, 0x18, 0, 1, 32⟩
  | .TIME_CFG => ⟨.time, 0x20, 0, 1, 32⟩
  | .TIME_SET => ⟨.time, 0x28, 0, 1, 64⟩
  | .PPS_TS => ⟨.time, 0x30, 0, 1, 64⟩
  | .FW_STAT => ⟨.sec, 0x0, 0, 1, 64⟩
  | .FUSE_STAT => ⟨.sec, 0x8, 0, 1, 64⟩
  | .FW_CFG => ⟨.sec, 0x10, 0, 1, 32⟩
  | .dbp => ⟨.thr, 0x60, 1, 4, 32⟩
  | .dwp => ⟨.thr, 0x64, 1, 2, 64⟩
  | .dstat => ⟨.thr, 0x66, 0, 1, 32⟩
  | .SEND_DATA_w => ⟨.core, 0xa00, 8, 24, 64⟩
  | .SEND_DEST => ⟨.core, 0xac0, 0, 1, 64⟩
  | .SEND_COMMIT => ⟨.core, 0xac8, 0, 1, 32⟩
  | .SEND_STAT => ⟨.core, 0xad0, 0, 1, 64⟩
  | .DBG_RUN => ⟨.core, 0xad8, 0, 1, 64⟩
  | .DBG_STAT => ⟨.core, 0xae0, 0, 1, 32⟩
  | .RTR_TURN => ⟨.router, 0xa0, 0, 1, 64⟩
  | .DBG_LOCK => ⟨.dbg, 0x0, 0, 1, 64⟩
  | .DBG_NONCE_i => ⟨.dbg, 0x8, 8, 2, 64⟩
  | .DBG_HOLD => ⟨.dbg, 0x18, 0, 1, 32⟩
  | .LB_CTL_i => ⟨.dbg, 0x100, 16, 44, 64⟩
  | .LB_STAT_i => ⟨.dbg, 0x108, 16, 44, 64⟩
  | .LAST_LB => ⟨.dbg, 0x80, 0, 1, 32⟩
  | .PWR_CFG => ⟨.power, 0x0, 0, 1, 32⟩
  | .PWR_STAT => ⟨.power, 0x8, 0, 1, 64⟩
  | .PWR_EVT => ⟨.power, 0x10, 0, 1, 64⟩
  | .LB_FIXED => ⟨.parcel, 0xa40, 64, 2, 64⟩
  | .LB_HOP_TL => ⟨.parcel, 0xa48, 64, 2, 64⟩
  | .LB_HOP_FP => ⟨.parcel, 0xa50, 64, 2, 64⟩
  | .LB_BRG_TL => ⟨.parcel, 0xa58, 64, 2, 64⟩
  | .LB_BRG_FP => ⟨.parcel, 0xa60, 64, 2, 64⟩
  | .SRV_STAT_W0 => ⟨.serve, 0x2000, 16, 64, 64⟩
  | .SRV_STAT_W1 => ⟨.serve, 0x2008, 16, 64, 64⟩
  | .PLOT_STAT_W0 => ⟨.image, 0x100, 16, 64, 64⟩
  | .PLOT_STAT_W1 => ⟨.image, 0x108, 16, 64, 64⟩
  | .RACK_PLOT_W0 => ⟨.rack, 0x100, 16, 64, 64⟩
  | .RACK_PLOT_W1 => ⟨.rack, 0x108, 16, 64, 64⟩
  | .FLT_REC_W0 => ⟨.flt, 0x8000, 32, 1024, 64⟩
  | .FLT_REC_W1 => ⟨.flt, 0x8008, 32, 1024, 64⟩
  | .FLT_REC_W2 => ⟨.flt, 0x8010, 32, 1024, 64⟩
  | .FLT_REC_W3 => ⟨.flt, 0x8018, 32, 1024, 64⟩
  | .tfcause => ⟨.thr, 0xe, 0, 1, 64⟩
  | .tfaddr => ⟨.thr, 0xf, 0, 1, 64⟩
  | .FW_RECOVERY => ⟨.recov, 0x0, 0, 1, 32⟩

/-- Every register of a block. -/
def Block.regs : Block → List RegName
  | .ident => [.MOD_IDENT, .MODULE_ID, .SPARE_AVAIL]
  | .parcel => [.HALF_RAIL_STATUS, .ISLAND_STATUS, .SEAM_CTL, .SEAM_STAT, .LB_GEN, .CLASS_ARB, .LEAD_RATE_n, .RESET_REQ, .RESET_STAT, .LB_FIXED, .LB_HOP_TL, .LB_HOP_FP, .LB_BRG_TL, .LB_BRG_FP]
  | .core => [.IMEM_PTR, .IMEM_DATA, .IMEM_CTL, .THREAD_CTL, .SWI_RAISE, .WRANGE_CTL, .WRANGE_n, .BANK_ARB, .MEM_ERR_S, .MEM_ERR_C, .POISON_CLR, .TAG_ADDR, .TAG_DATA, .TCLASS, .POT_HOLD, .POT_OPEN, .POT_CTL, .POT_ORPHAN, .POT_SLOT_n, .SYNC_CTL, .STREAM_SEL_0, .STREAM_SEL_1, .SCOPE_MISMATCH_CNT, .SMX_INFO, .SMX_ADDR, .WATCH_STAT, .KEXIT, .KSTAT, .DET_CNT, .CORE_CHK, .WDOG_CTL, .WDOG_KICK, .CTX_BIND, .EPOCH_DROP, .SEND_DATA_w, .SEND_DEST, .SEND_COMMIT, .SEND_STAT, .DBG_RUN, .DBG_STAT]
  | .thr => [.lpa, .lstat, .dslim, .rstat, .rspill, .rsreg, .mbstat, .mberr, .tid, .wstat, .tvec, .wtimeout, .epc, .estat, .ecause, .eaddr, .emode, .tmcmp, .tfpc, .tprog, .tsel, .vflags, .mode, .astat, .mchk, .lderr, .dbp, .dwp, .dstat, .tfcause, .tfaddr]
  | .cst => [.cyc, .svt, .tstate, .ipend, .tfsel, .tcfg, .ccfg, .cstat, .chit, .cmiss, .cerr, .cerra]
  | .router => [.RTR_OVR_k, .RTR_REDIR, .RTR_STAT, .RTR_LINKERR, .FENCE_DROP_CNT, .RTR_TURN]
  | .dma => [.DMA_CTL, .DMA_STAT, .DMA_RING_BASE, .DMAC_GO, .DMA_RING_CFG, .DMA_HEAD, .DMA_TAIL, .DMA_RETRY_LIMIT, .DMA_TIMEOUT, .DMA_EVENT_SET, .DMA_EVENT, .DMA_BIND, .DMA_COUNT]
  | .tu => [.TU_RANGE_W0, .TU_RANGE_W1, .TU_WSTAT, .TU_SYNC, .TU_FAULT_INFO, .TU_FAULT_ADDR, .TU_GRANT_g, .TU_MODMAP_v]
  | .hbm => [.HBM_STAT, .HBM_CFG, .HBM_ERR_q]
  | .port => [.PORT_CFG, .PORT_STAT, .PORT_BIND, .PORT_PLOTS, .PORT_POOL_v, .PORT_LINK, .PORT_ERR, .PORT_DROP, .PORT_MAC, .PORT_GW_MAC, .PORT_QOS, .PORT_VLAN, .PORT_PTP]
  | .fab => [.FAB_CFG, .FAB_PREFIX_HI, .FAB_PREFIX_LO, .FAB_IPV4, .FAB_ADMIT, .FAB_STREAM, .FAB_DEAL, .FAB_POT, .FAB_CONN, .PT_ENTRY_W0, .PT_ENTRY_W1]
  | .func => [.FUNC_BIND, .FUNC_STAT, .FUNC_WIN, .FUNC_WINERR]
  | .queue => [.QP_BIND, .QP_CFG, .QP_SQ_BASE, .QP_CQ_BASE, .QP_COAL, .QP_STAT, .QP_SQ_TAIL, .QP_CQ_HEAD, .QP_CQ_POST, .QP_CTL]
  | .adm => [.ADMIT_CFG, .ADMIT_STAT, .ADMIT_PLOT_n]
  | .image => [.STRAP_STAT, .PROFILE_STAT, .IMG_STAT, .IMG_DIGEST_i, .PLOT_STAT_W0, .PLOT_STAT_W1]
  | .serve => [.SRV_MOD, .SRV_PLOT_A_n, .SRV_PLOT_B_n, .SRV_STAT_W0, .SRV_STAT_W1]
  | .flt => [.FLT_STAT, .FLT_HEAD, .SCRUB_CFG, .SCRUB_STAT, .TEST_CFG, .TEST_STAT, .AGE_CFG, .AGE_STAT, .REPAIR_SUM, .FLT_REC_W0, .FLT_REC_W1, .FLT_REC_W2, .FLT_REC_W3]
  | .hang => [.HANG_CFG, .HANG_STAT, .DUMP_CFG, .DUMP_NVME, .DUMP_STAT, .MOD_RESET, .DUMP_CTL, .TD_STAT, .HANG_PLOT_n]
  | .rack => [.RACK_LOC, .RACK_PARTNER, .RACK_CFG, .RACK_NVME, .RACK_STAT, .RACK_PLOT_W0, .RACK_PLOT_W1]
  | .time => [.TIME_NOW_0, .TIME_NOW_1, .TIME_STAT, .TIME_SRC, .TIME_CFG, .TIME_SET, .PPS_TS]
  | .sec => [.FW_STAT, .FUSE_STAT, .FW_CFG]
  | .dbg => [.DBG_LOCK, .DBG_NONCE_i, .DBG_HOLD, .LB_CTL_i, .LB_STAT_i, .LAST_LB]
  | .power => [.PWR_CFG, .PWR_STAT, .PWR_EVT]
  | .recov => [.FW_RECOVERY]

end Sys2Proof.Machine
end

