-- ==== Sys2Proof/Machine/State.lean ====
section
/-!
DEFINITION. The state of the module as plain data, the reasons a step can stop, and the state right after reset.
-/
namespace Sys2Proof.Machine

/-- Why a step faults. -/
inductive Fault where
  /-- Raised by no command: the spec answers every access and request with a status, an exception or no effect. Safe: it
  never occurs. -/
  | never
  deriving DecidableEq, Repr

/-- Why a command is refused. -/
inductive Refusal where
  /-- A command that has no meaning in the model yet: safe. -/
  | notModelled (mnemonic : String)
  deriving DecidableEq, Repr

/-- The whole module. -/
structure State where
  /-- The commands that wait, first in, first out. -/
  pending : List Instr
  /-- What the module's units have sent, oldest first. -/
  sent : List Msg
  /-- The model's own counter of free values taken (notes/assumptions/1.md). -/
  freeCtr : Nat
  /-- Every register of the register table whose value differs from its reset value, by RegName.key. -/
  regs : Sparse Word
  /-- Scratch, cellar and HBM bytes by module offset of the physical place (R43 to R45). -/
  mem : List Host.Cell
  /-- Full/empty bit and scope tag of each 8-byte word, by module offset / 8: 4 × full + scope (R245). -/
  tags : Sparse Nat
  /-- The error pattern of each stored code word, by module offset / 32: eight bits for each of its symbols in error (R240, R242). -/
  bad : Sparse Nat
  /-- The cores by physical number. -/
  cores : Sparse Core
  /-- Logical cores whose physical core differs from the default map (R30, R31). -/
  lmap : Sparse Nat
  /-- Word 1 of each translation range entry as its last commit took it, by plot × 256 + entry (R408). -/
  tuW1 : Sparse Word
  /-- The epoch in force of each plot (R643), as the Keeper, the HBM controllers and the queue engines hold it. -/
  epochs : Sparse Nat
  /-- The DMA channels: bulk channel c of parcel p is p × 32 + c, core channel c of core n is 256 + 2 × n + c (R359). -/
  dmas : Sparse Dma
  /-- The routers by physical core number (R276). -/
  routers : Sparse Router
  /-- The Deals of the Trellis that have copies out (R309). -/
  deals : List DealRun
  /-- The queue engines and the command processor (R459 to R494). -/
  cp : Cp
  /-- The Keeper and the management units. -/
  kp : Keeper
  deriving DecidableEq, Repr

/-- The module right after reset. (DESIGN CHOICE: notes/assumptions/5.md.) -/
def State.reset : State :=
  { pending := [], sent := [], freeCtr := 0, regs := [], mem := [], tags := [], bad := [], cores := [], lmap := [], tuW1 := [],
    epochs := [], dmas := [], routers := [], deals := [], cp := {}, kp := {} }

end Sys2Proof.Machine
end

