-- ==== Sys2Proof/Machine/SzCode.lean ====
section
/-!
DEFINITION. The SZ code of the memories: GF(2^8), the check symbols of a code word, and what a read of its 37 symbols finds (R240 to R242, R402).
-/
namespace Sys2Proof.Machine

/-- α × a in GF(2^8) with the primitive polynomial 0x11D, α = 0x02 (R241). -/
def gfX (a : Byte) : Byte := (a <<< 1) ^^^ (if a.msb then 0x1D else 0)

/-- α^n × a. -/
def gfShift (a : Byte) : Nat → Byte
  | 0 => a
  | n + 1 => gfX (gfShift a n)

/-- The check symbols K0, K1, K2: the coefficients of x^2, x and 1 of a remainder by g(x). -/
structure SzCheck where
  k0 : Byte := 0
  k1 : Byte := 0
  k2 : Byte := 0
  deriving DecidableEq, Repr

/-- The remainder of (m(x) × x + s) × x^3 by g(x), from the remainder of m(x) × x^3 (R241): g(x) = (x − 1)(x − α)(x − α^2) =
x^3 + (1 + α + α^2) x^2 + (α + α^2 + α^3) x + α^3. -/
def SzCheck.shift (r : SzCheck) (s : Byte) : SzCheck :=
  let f := r.k0 ^^^ s
  ⟨r.k1 ^^^ f ^^^ gfX f ^^^ gfShift f 2, r.k2 ^^^ gfX f ^^^ gfShift f 2 ^^^ gfShift f 3, gfShift f 3⟩

/-- The check symbols of a message: symbols 0 to 33, the first the highest coefficient (R241). -/
def szCheck (l : List Byte) : SzCheck := l.foldl SzCheck.shift {}

/-- A code word: the message with its check symbols behind it. -/
def szEncode (l : List Byte) : List Byte := l ++ [(szCheck l).k0, (szCheck l).k1, (szCheck l).k2]

/-- The value of the polynomial of a list of symbols at α^j, the first symbol the highest coefficient. -/
def szAt (j : Nat) (l : List Byte) : Byte := l.foldl (fun a s => gfShift a j ^^^ s) 0

/-- What a read of a code word finds (R242): no symbol in error, symbol i wrong by e, or more than it can correct. -/
inductive SzFinding where
  | clean
  | one (i : Nat) (e : Byte)
  | bad
  deriving DecidableEq, Repr

/-- The symbol that an error of value e stands at by the syndromes, counted from the last, where `t1` and `t2` are e × α^k and e × α^2k
for the place k reached. -/
def szPlace (s1 s2 : Byte) : Nat → Byte → Byte → Option Nat
  | 0, _, _ => none
  | n + 1, t1, t2 => if t1 = s1 && t2 = s2 then some n else szPlace s1 s2 n (gfX t1) (gfShift t2 2)

/-- The bits of symbol i that are stored: four of symbol 33 (R240), and none of symbols 32 and 33 in HBM (R402). -/
def szStored (hbm : Bool) (i : Nat) : Byte := if hbm && (i = 32 || i = 33) then 0 else if i = 33 then 0x0F else 0xFF

/-- What the code finds in 37 symbols (R241, R242): the three syndromes are zero, or name one symbol and its error, or neither. An error in bits that
are not stored is none that a single symbol can have. (DEDUCED: notes/assumptions/4.md.) -/
def szFind (hbm : Bool) (l : List Byte) : SzFinding :=
  let s0 := szAt 0 l
  let s1 := szAt 1 l
  let s2 := szAt 2 l
  if s0 = 0 && s1 = 0 && s2 = 0 then .clean
  else if s0 = 0 then .bad
  else
    match szPlace s1 s2 37 s0 s0 with
    | some i => if s0 &&& szStored hbm i = s0 then .one i s0 else .bad
    | none => .bad

/-- Symbol i of a pattern of 37 symbols, eight bits each from bit 0. -/
def patSym (p i : Nat) : Byte := BitVec.ofNat 8 (p / 256 ^ i)

/-- A pattern with one symbol. -/
def symPat (i : Nat) (e : Byte) : Nat := e.toNat * 256 ^ i

/-- The 37 symbols of a pattern. -/
def patSyms (p : Nat) : List Byte := (List.range 37).map (patSym p)

end Sys2Proof.Machine
end

