-- ==== Sys2Proof/Machine/Base.lean ====
section
/-!
DEFINITION. The base operations over the state: registers and their fields (R8 to R11), cores and threads, memory bytes and
tags, the address map (R24 to R49) and the checks of an access (R47, R48, R116).
-/
namespace Sys2Proof.Machine

/-! ### Bits and free values -/

/-- Bits [hi:lo] of a word, as a number. -/
def bitsOf (w : Word) (hi lo : Nat) : Nat := (w.toNat >>> lo) % 2 ^ (hi + 1 - lo)

/-- The word with `v` in bits [hi:lo]. -/
def withBits (w : Word) (hi lo v : Nat) : Word :=
  BitVec.ofNat 64 (w.toNat - (bitsOf w hi lo) <<< lo + (v % 2 ^ (hi + 1 - lo)) <<< lo)

/-- Bit `i` of a number, as a number. -/
def nbit (n i : Nat) : Nat := (n >>> i) % 2

/-- Sign extension of an n-bit number to a word. -/
def sextN (n v : Nat) : Word := BitVec.ofInt 64 (if nbit v (n - 1) = 1 then (v : Int) - 2 ^ n else v)

/-- Take the next free value (notes/assumptions/1.md): a number that nothing constrains, and the state after. -/
def State.free (s : State) : Nat × State := (Config.freeNat s.freeCtr, { s with freeCtr := s.freeCtr + 1 })

/-- The plot is a suspect that hang recovery holds (R652). -/
def State.plotHeld (s : State) (n : Nat) : Bool := s.kp.hang.held.contains n

/-- Append something sent. (DESIGN CHOICE: notes/assumptions/21.md.) (DESIGN CHOICE: notes/assumptions/82.md.) -/
def State.send (s : State) (k : MsgKind) (args : List Nat) : State := { s with sent := s.sent ++ [⟨k, args⟩] }

/-! ### Status codes (R12 to R15) -/

/-- The status code is one that the SZ10 uses or may use: none that R14 reserves (R14, R15). -/
def statusUsed (c : Nat) : Bool :=
  c ≤ 1 || (0x0102 ≤ c && c < 0x0C00 && !(([0x0200, 0x0300, 0x0400, 0x0403, 0x0404, 0x0500, 0x0600, 0x0700] : List Nat).contains c))

/-- A status that reports that an operation was not carried out in full: the one given, or another where that is reserved or reports the contrary
(R13, R15). (DESIGN CHOICE: notes/assumptions/21.md.) -/
def refusalCode (n : Nat) : Nat := if statusUsed (n % 65536) && 1 < n % 65536 then n % 65536 else 0x0102

/-- The status with which an access that another agent answered ends: its answer, and never a reserved code (R15). Numbers above 16 bits are the
model's own marks. (DESIGN CHOICE: notes/assumptions/21.md.) -/
def answerCode (n : Nat) : Nat := if n < 65536 && !statusUsed n then 0x0402 else n

/-! ### Registers (R8 to R11) -/

/-- The key of register `r` of unit `u`, index `i` (below 2^20 each). -/
def RegName.key (r : RegName) (u i : Nat) : Nat := (r.ctorIdx * 1048576 + u) * 1048576 + i

/-- The reset value of one field, all its repetitions. -/
def Field.resetBits (f : Field) : Nat :=
  (List.range f.rep).foldl (fun a k => a + (f.reset <<< (f.lo + k * f.step))) 0

/-- The reset value of a register: its fields' reset values (the tables' Reset column), with the values that depend on the
register's place: the world map's defaults (R114, R139, R633), the pools and code points of R457, the function numbers
of R491. (DESIGN CHOICE: notes/assumptions/3.md.) (PRESUMED: notes/assumptions/91.md.) -/
def RegName.resetVal (r : RegName) (u i : Nat) : Word :=
  match r with
  | .wstat => if i / 32 = 7 then 3 else 1
  | .WRANGE_n => if i = 0 then 0xC000003F0000003C else 0
  | .TCLASS => 0x1555
  | .PORT_POOL_v =>
    let n := match i with | 0 => 256 | 1 => 1536 | 2 => 1280 | _ => 1024
    BitVec.ofNat 64 (n <<< 16 + n)
  | .PORT_QOS => BitVec.ofNat 64 (48 + 34 <<< 6 + 18 <<< 12 + 8 <<< 18)
  | .WDOG_CTL => BitVec.ofNat 64 (0x80 <<< 24 + 0x186)
  | .FUNC_BIND => BitVec.ofNat 64 ((r.fields.foldl (fun a f => a + f.resetBits) 0) + u <<< 42)
  | _ => BitVec.ofNat 64 (r.fields.foldl (fun a f => a + f.resetBits) 0)

/-- The value of a register. -/
def State.reg (s : State) (r : RegName) (u i : Nat) : Word := Sparse.get (r.resetVal u i) s.regs (r.key u i)

/-- The state with a register's value replaced. -/
def State.setReg (s : State) (r : RegName) (u i : Nat) (w : Word) : State :=
  { s with regs := Sparse.set (r.resetVal u i) s.regs (r.key u i) w }

/-- Element `k` of a field of a register. -/
def State.fld (s : State) (f : Field) (u i : Nat) (k : Nat := 0) : Nat :=
  bitsOf (s.reg f.reg u i) (f.hi + k * f.step) (f.lo + k * f.step)

/-- The state with element `k` of a field replaced. -/
def State.setFld (s : State) (f : Field) (u i v : Nat) (k : Nat := 0) : State :=
  s.setReg f.reg u i (withBits (s.reg f.reg u i) (f.hi + k * f.step) (f.lo + k * f.step) v)

/-- Count up in a field that holds at its highest value. -/
def State.bump (s : State) (f : Field) (u i : Nat) (n : Nat := 1) : State :=
  s.setFld f u i (min (s.fld f u i + n) (2 ^ (f.hi + 1 - f.lo) - 1))

/-- Count up in a field that wraps. -/
def State.bumpWrap (s : State) (f : Field) (u i : Nat) (n : Nat := 1) : State := s.setFld f u i (s.fld f u i + n)

/-- A field holds a defined encoding (R10). -/
def Field.allows (f : Field) (v : Nat) : Bool := f.legal.isEmpty || f.legal.any (fun r => r.1 ≤ v && v ≤ r.2)

/-- The value of one field element after a write of `v` over `old`, by its access code (R8, R10); `unlocked` says that the
lock bit that governs RWL fields is 0 (R11). -/
def Field.written (f : Field) (unlocked : Bool) (old v : Nat) : Nat :=
  match f.acc with
  | .rw => if f.allows v then v else old
  | .rwl => if unlocked && f.allows v then v else old
  | .rw1c => old &&& (2 ^ (f.hi + 1 - f.lo) - 1 - v)
  | .rws => old ||| v
  | .ro | .wo | .rc => old

/-- A register's value after a write of `w`, for the field elements that lie wholly in bits [top:bot] (R8, R10, R47). -/
def RegName.written (r : RegName) (unlocked : Bool) (top bot : Nat) (old w : Word) : Word :=
  r.fields.foldl (fun a f =>
    (List.range f.rep).foldl (fun a k =>
      let hi := f.hi + k * f.step
      let lo := f.lo + k * f.step
      if bot ≤ lo && hi ≤ top then withBits a hi lo (f.written unlocked (bitsOf old hi lo) (bitsOf w hi lo)) else a) a) old

/-- What a read of a register shows: a WO field reads zero (R8). -/
def RegName.readable (r : RegName) (w : Word) : Word :=
  r.fields.foldl (fun a f => if f.acc = .wo then withBits a f.hi f.lo 0 else a) w

/-- A register's value after a read: RC fields clear (R8). -/
def RegName.afterRead (r : RegName) (w : Word) : Word :=
  r.fields.foldl (fun a f => if f.acc = .rc then withBits a f.hi f.lo 0 else a) w

/-- A register holds a WO or an RC field, so that it takes 8-byte accesses only (R47). -/
def RegName.whole (r : RegName) : Bool := r.fields.any (fun f => f.acc = .wo || f.acc = .rc)

/-- Return every register of a block's unit to its reset value. -/
def State.resetRegs (s : State) (b : Block) (u : Nat) : State :=
  { s with regs := Sparse.keep (fun k => !(b.regs.any (fun r => k / 1048576 = r.ctorIdx * 1048576 + u))) s.regs }

/-! ### Cores and threads -/

/-- A core by its physical number. -/
def State.core (s : State) (c : Nat) : Core := Sparse.get {} s.cores c

/-- The state with a core replaced. -/
def State.setCore (s : State) (c : Nat) (k : Core) : State := { s with cores := Sparse.set {} s.cores c k }

/-- A thread; as reset leaves it, it is STOPPED (R107, R137). -/
def State.thr (s : State) (c t : Nat) : Thread := Sparse.get {} (s.core c).threads t

/-- The state with a thread replaced. -/
def State.setThr (s : State) (c t : Nat) (h : Thread) : State :=
  s.setCore c { s.core c with threads := Sparse.set {} (s.core c).threads t h }

/-- Element of a field of a thread's state register, or of its copy of a core MMR; `i` counts along an array. -/
def State.tf (s : State) (f : Field) (c t : Nat) (i : Nat := 0) : Nat := s.fld f c (t * 32 + i)

/-- Write a field of a thread's state register. -/
def State.setTf (s : State) (f : Field) (c t v : Nat) (i : Nat := 0) : State := s.setFld f c (t * 32 + i) v

/-- A whole state register of a thread. -/
def State.treg (s : State) (r : RegName) (c t : Nat) : Word := s.reg r c (t * 32)

/-- Write a whole state register of a thread. -/
def State.setTreg (s : State) (r : RegName) (c t : Nat) (w : Word) : State := s.setReg r c (t * 32) w

/-- The thread's world: 0 Tenant, 1 Keeper (R114). -/
def State.world (s : State) (c t : Nat) : Nat := s.tf wstat_WORLD c t

/-- The thread's level: 0 user, 1 supervisor (R115). -/
def State.level (s : State) (c t : Nat) : Nat := s.tf wstat_LEVEL c t

/-- The supervisor thread of a world of a core (R137 svt). -/
def State.supOf (s : State) (c w : Nat) : Nat := if w = 1 then s.fld svt_KEEPER c 0 else s.fld svt_TENANT c 0

/-! ### Numbering (R24 to R33) -/

/-- The parcel, row and column of a physical core number (R24). -/
def coreP (n : Nat) : Nat := n / 1296
/-- Row y of a physical core. -/
def coreY (n : Nat) : Nat := (n % 1296) / 36
/-- Column x of a physical core. -/
def coreX (n : Nat) : Nat := n % 36

/-- Global mesh coordinates (R25). -/
def meshX (n : Nat) : Nat := (coreP n % 4) * 36 + coreX n
/-- Global mesh row (R25). -/
def meshY (n : Nat) : Nat := (coreP n / 4) * 36 + coreY n

/-- The physical core at global mesh coordinates (R25). -/
def coreAt (x y : Nat) : Nat := ((y / 36) * 4 + x / 36) * 1296 + (y % 36) * 36 + x % 36

/-- The block of a core within its parcel (R26). -/
def coreBlock (n : Nat) : Nat := (coreY n / 4) * 9 + coreX n / 4

/-- The half of a core: 0 west, 1 east (R27). -/
def coreHalf (n : Nat) : Nat := if coreX n < 18 then 0 else 1

/-- A spare position (R28). -/
def isSpare (n : Nat) : Bool := coreX n % 9 == 4 && coreY n % 9 == 4

/-- The island column of a core column (R33). -/
def islandCol (x : Nat) : Nat := if x < 16 then x / 4 else if x < 18 then 4 else if x < 20 then 5 else x / 4 + 1

/-- The island of a core within its parcel (R33). -/
def coreIsland (n : Nat) : Nat := (coreY n / 4) * 10 + islandCol (coreX n)

/-- a(v) of R30: the count of spare positions' columns below v. -/
def sparesBelow (v : Nat) : Nat := (v + 4) / 9

/-- The default physical core of a logical core (R30). -/
def defaultPhys (l : Nat) : Nat :=
  let p := l / 1280
  let k := l % 1280
  let cum := fun y => 36 * y - 4 * sparesBelow y
  let y := ((List.range 36).find? (fun y => cum y ≤ k && k < cum (y + 1))).getD 0
  let j := k - cum y
  let x := if y % 9 = 4 then j + (j + 4) / 8 else j
  p * 1296 + y * 36 + x

/-- The default logical number of a physical core (R30); none for a spare position. -/
def defaultLogical (n : Nat) : Option Nat :=
  if isSpare n then none
  else
    let x := coreX n
    let y := coreY n
    some (coreP n * 1280 + (y * 36 + x - 4 * sparesBelow y - (if y % 9 = 4 then sparesBelow x else 0)))

/-- The physical core of a logical core, by the map in force (R31). -/
def State.physOf (s : State) (l : Nat) : Nat := Sparse.get (defaultPhys l) s.lmap l

/-- The logical core of a physical core, by the map in force; none for a free spare or a grafted-out core. -/
def State.logicalOf (s : State) (n : Nat) : Option Nat :=
  match s.lmap.find? (fun e => e.2 == n) with
  | some e => some e.1
  | none =>
    match defaultLogical n with
    | some l => if s.physOf l = n then some l else none
    | none => none

/-! ### Memory bytes -/

/-- The canonical form of memory: addresses strictly rising, no byte listed that equals what an unlisted address reads as. -/
def Memory.wf (m : List Host.Cell) : Bool := Sparse.wf (0 : Byte) m

/-- The byte at a physical module offset; what nothing has written reads as zero (R38, R756). (DESIGN CHOICE: notes/assumptions/5.md.) -/
def State.byte (s : State) (a : Nat) : Byte := Sparse.get 0 s.mem a

/-- Write one byte. -/
def State.setByte (s : State) (a : Nat) (b : Byte) : State := { s with mem := Sparse.set 0 s.mem a b }

/-- Read n bytes, little-endian (R7). -/
def State.readLE (s : State) (a : Nat) : Nat → Nat
  | 0 => 0
  | n + 1 => (s.byte a).toNat + 256 * s.readLE (a + 1) n

/-- Write n bytes, little-endian (R7). -/
def State.writeLE (s : State) (a : Nat) : Nat → Nat → State
  | 0, _ => s
  | n + 1, v => (s.setByte a (BitVec.ofNat 8 v)).writeLE (a + 1) n (v / 256)

/-- Write the bytes of `v` whose bit in `mask` is 1. -/
def State.writeMask (s : State) (a : Nat) : Nat → Nat → Nat → State
  | 0, _, _ => s
  | n + 1, mask, v =>
    (if mask % 2 = 1 then s.setByte a (BitVec.ofNat 8 v) else s).writeMask (a + 1) n (mask / 2) (v / 256)

/-- Write a list of bytes. -/
def State.writeBytes (s : State) (a : Nat) : List Nat → State
  | [] => s
  | b :: r => (s.setByte a (BitVec.ofNat 8 b)).writeBytes (a + 1) r

/-- The n bytes at a. -/
def State.readBytes (s : State) (a : Nat) : Nat → List Nat
  | 0 => []
  | n + 1 => (s.byte a).toNat :: s.readBytes (a + 1) n

/-- The tag of an 8-byte word: 4 × full + scope (R245). -/
def State.tag (s : State) (a : Nat) : Nat := Sparse.get 0 s.tags (a / 8)

/-- Write the tag of an 8-byte word. -/
def State.setTag (s : State) (a t : Nat) : State := { s with tags := Sparse.set 0 s.tags (a / 8) t }

/-- The error pattern of the code word that holds a byte: what its stored symbols differ by from those of its bytes and tags (R240, R242). -/
def State.pat (s : State) (a : Nat) : Nat := Sparse.get 0 s.bad (a / 32)

/-- Set the error pattern of a code word. -/
def State.setPat (s : State) (a p : Nat) : State := { s with bad := Sparse.set 0 s.bad (a / 32) p }

/-- The number of 1 bits among the low n. -/
def popCount (m : Nat) : Nat → Nat
  | 0 => 0
  | n + 1 => m % 2 + popCount (m / 2) n

/-- The module offset lies in an HBM stack's memory, whose symbols 32 and 33 are not stored (R402). -/
def inHbm (a : Nat) : Bool := 0x10000000000 ≤ a

/-- The message of a code word (R240): its 32 bytes, the full/empty bits with the scope tags of words 0 and 1, and those of words 2 and 3. -/
def State.message (s : State) (a : Nat) : List Byte :=
  let o := a / 32 * 32
  let fe := fun w => s.tag (o + 8 * w) / 4 % 2
  let sc := fun w => s.tag (o + 8 * w) % 4
  (List.range 32).map (fun i => s.byte (o + i)) ++ [
    if inHbm a then 0 else BitVec.ofNat 8 (fe 0 + 2 * fe 1 + 4 * fe 2 + 8 * fe 3 + 16 * sc 0 + 64 * sc 1),
    if inHbm a then 0 else BitVec.ofNat 8 (sc 2 + 4 * sc 3)]

/-- The 37 symbols stored for a code word (R240, R241): those that its bytes and tags encode to, with its error pattern. -/
def State.storedSyms (s : State) (a : Nat) : List Byte := List.zipWith (· ^^^ ·) (szEncode (s.message a)) (patSyms (s.pat a))

/-- What a read of a code word finds (R242). The code is linear, so the syndromes of the stored symbols are those of the error pattern. -/
def State.finding (s : State) (a : Nat) : SzFinding := if s.pat a = 0 then .clean else szFind (inHbm a) (patSyms (s.pat a))

/-- A code word that a read finds uncorrectable (R242). -/
def State.uncorrectable (s : State) (a : Nat) : Bool := s.finding a = .bad

/-- The bytes and tags of a code word changed by the symbols of a pattern. -/
def State.flipWord (s : State) (a p : Nat) : State :=
  let o := a / 32 * 32
  let s1 := (List.range 32).foldl (fun s i => s.setByte (o + i) (s.byte (o + i) ^^^ patSym p i)) s
  let x := (patSym p 32).toNat + 256 * (patSym p 33).toNat
  if inHbm a then s1
  else (List.range 4).foldl (fun s w =>
    s.setTag (o + 8 * w) (s.tag (o + 8 * w) ^^^ (4 * (x / 2 ^ w % 2) + x / 2 ^ (4 + 2 * w) % 4))) s1

/-- The code word told by what a read of it delivers (R242): its bytes and tags are those the code corrects the stored symbols to, and its error
pattern is what it corrects. Nothing that is stored changes; only three symbols in error or more make a difference. -/
def State.asRead (s : State) (a : Nat) : State :=
  match s.finding a with
  | .bad => s
  | .clean => if s.pat a = 0 then s else (s.flipWord a (s.pat a)).setPat a 0
  | .one i e => if s.pat a = symPat i e then s else (s.flipWord a (s.pat a ^^^ symPat i e)).setPat a (symPat i e)

/-- The code words that n bytes at a touch, by their first byte. -/
def codeWords (a n : Nat) : List Nat := (List.range ((a + n + 31) / 32 - a / 32)).map (fun i => (a / 32 + i) * 32)

/-- Some code word of the n bytes at a is uncorrectable. -/
def State.anyBad (s : State) (a n : Nat) : Bool :=
  (codeWords a n).any s.uncorrectable

/-- Set n bytes to zero. -/
def State.zeroBytes (s : State) (a n : Nat) : State :=
  { s with mem := Sparse.keep (fun k => k < a || a + n ≤ k) s.mem }

/-- An initialising write of the code words of the n bytes at a (R247): bytes zero, tags EMPTY and CORE, no symbol in error. -/
def State.initBytes (s : State) (a n : Nat) : State :=
  { s.zeroBytes a n with
    tags := Sparse.keep (fun k => k < a / 8 || (a + n) / 8 ≤ k) s.tags
    bad := Sparse.keep (fun k => k < a / 32 || (a + n) / 32 ≤ k) s.bad }

/-! ### The address map (R40 to R48) -/

/-- What a fabric address names. -/
inductive Place where
  | bank (n off : Nat)
  | coreMmr (n off : Nat)
  | hbm (p off : Nat)
  | mmr (off : Nat)
  | root (off : Nat)
  | remote (mid off : Nat)
  | reserved
  | noId
  deriving DecidableEq, Repr

/-- The bytes of a core window (R44). -/
def windowPlace (n off : Nat) : Place :=
  if off < 0x40000 then .bank n off
  else if 0x100000 ≤ off && off < 0x300000 then .bank n off
  else if 0x3F0000 ≤ off then .coreMmr n off
  else .reserved

/-- A module offset lies in a block that R46 lists. -/
def mmrListed (off : Nat) : Bool :=
  let o := off - 0x20000000000
  o < 0x8000000 || (0x10000000 ≤ o && o < 0x10800000) || (0x20000000 ≤ o && o < 0x24000000)
    || (0x30000000 ≤ o && o < 0x32000000) || (0x40000000 ≤ o && o < 0x40800000) || (0x50000000 ≤ o && o < 0x60000000)
    || (0x60000000 ≤ o && o < 0x60001000) || (0x70000000 ≤ o && o < 0x74000000)

/-- Where byte `off` of stack p lies, when the Keeper has moved the page of its own that held it (R415, R417). (DEDUCED: notes/assumptions/110.md.) -/
def State.hbmOff (s : State) (p off : Nat) : Nat :=
  let m := (Sparse.get {} s.kp.hbm p : Stack).moved
  if m.isEmpty then off else m.foldl (fun g _ => Sparse.get g m g) (off / 2 ^ 21) * 2 ^ 21 + off % 2 ^ 21

/-- What a module offset of this module names (R43 to R46). -/
def State.localPlace (s : State) (off : Nat) : Place :=
  if off < 0xA20000000 then windowPlace (off / 0x400000) (off % 0x400000)
  else if 0x1000000000 ≤ off && off < 0x1A00000000 then
    windowPlace (s.physOf ((off - 0x1000000000) / 0x400000)) (off % 0x400000)
  else if 0x10000000000 ≤ off && off < 0x18000000000 then
    let p := (off - 0x10000000000) / 0x1000000000
    let o := off % 0x1000000000
    if o < 0x860000000 then .hbm p (s.hbmOff p o) else .reserved
  else if 0x20000000000 ≤ off && off < 0x20100000000 then (if mmrListed off then .mmr off else .reserved)
  else if 0x21000000000 ≤ off && off < 0x21100000000 then .root off
  else .reserved

/-- What a fabric address names, seen from this module (R40 to R42, R48). -/
def State.place (s : State) (a : Word) : Place :=
  let mid := a.toNat >>> 48
  let off := a.toNat % 2 ^ 48
  let id := s.fld MODULE_ID_ID 0 0
  if mid = 0xFFFF then s.localPlace off
  else if id = 0xFFFF then .noId
  else if mid = id then s.localPlace off
  else match s.localPlace off with
    | .reserved => .reserved
    | _ => .remote mid off

/-- The physical module offset of a bank byte of core n. -/
def bankAddr (n off : Nat) : Nat := n * 0x400000 + off

/-- The module offset of an HBM byte. -/
def hbmAddr (p off : Nat) : Nat := 0x10000000000 + p * 0x1000000000 + off

/-- A place in MMR space: a module MMR block, a core MMR page or Rootstock (R215, R218). -/
def Place.isMmr : Place → Bool
  | .coreMmr _ _ | .mmr _ | .root _ => true
  | _ => false

/-- A place in MMR space, of this module or another (R215, R218). -/
def State.regSpace (s : State) (p : Place) : Bool :=
  match p with
  | .remote _ off => (s.localPlace off).isMmr
  | _ => p.isMmr

/-- The block, unit and offset in the block of a module MMR offset (R46 and the owning chapters). -/
def mmrBlock (off : Nat) : Option (Block × Nat × Nat) :=
  let o := off - 0x20000000000
  if o < 0x8000000 then
    let p := o / 0x1000000
    let q := o % 0x1000000
    if 0x100000 ≤ q && q < 0x100000 + 1296 * 0x100 then some (.router, p * 1296 + (q - 0x100000) / 0x100, q % 0x100)
    else some (.parcel, p, q)
  else if 0x10000000 ≤ o && o < 0x10800000 then
    some (.dma, (o - 0x10000000) / 0x100000 * 32 + (o % 0x100000) / 0x8000, o % 0x8000)
  else if 0x20000000 ≤ o && o < 0x24000000 then some (.queue, (o - 0x20000000) / 0x1000, o % 0x1000)
  else if 0x30000000 ≤ o && o < 0x32000000 then
    let m := (o - 0x30000000) / 0x100000
    let q := o % 0x100000
    if 0x80000 ≤ q then (if m = 0 then some (.fab, 0, q) else none) else some (.port, m, q)
  else if 0x40000000 ≤ o && o < 0x40800000 then some (.hbm, (o - 0x40000000) / 0x100000, o % 0x100000)
  else if 0x50000000 ≤ o && o < 0x58000000 then some (.func, (o - 0x50000000) / 0x200000, o % 0x200000)
  else if 0x58000000 ≤ o && o < 0x60000000 then some (.adm, 0, o - 0x58000000)
  else if 0x60000000 ≤ o && o < 0x60001000 then some (.ident, 0, o - 0x60000000)
  else if 0x70000000 ≤ o && o < 0x74000000 then some (.tu, (o - 0x70000000) / 0x100000, o % 0x100000)
  else none

/-- The block of a Rootstock offset. Four registers of the time block appear again on its second page (R723). -/
def rootBlock (off : Nat) : Option (Block × Nat × Nat) :=
  let o := off - 0x21000000000
  let q := o % 0x10000
  match o / 0x10000 with
  | 1 => some (.image, 0, q)
  | 2 => some (.serve, 0, q)
  | 3 => some (.flt, 0, q)
  | 4 => some (.hang, 0, q)
  | 5 => some (.rack, 0, q)
  | 6 => if q < 0x1000 then some (.time, 0, q) else if q < 0x1020 then some (.time, 0, q - 0x1000) else none
  | 7 => some (.sec, 0, q)
  | 8 => some (.dbg, 0, q)
  | 9 => some (.power, 0, q)
  | _ => none

/-- The block of a core MMR window offset: channel c of the core's DMA channels is unit 256 + 2 × core + c (R397). -/
def coreMmrBlock (n off : Nat) : Block × Nat × Nat :=
  let o := off - 0x3F0000
  if 0x500 ≤ o && o < 0x600 then (.dma, 256 + 2 * n + (o - 0x500) / 0x80, o % 0x80) else (.core, n, o)

/-- A register found at an address: its name, unit, index and the byte of it that the address names. -/
structure RegAt where
  r : RegName
  u : Nat
  i : Nat
  byte : Nat
  deriving DecidableEq, Repr

/-- Whether register `r` lies at offset `o` of its block: its index and byte. Core channels have DMAC_GO where bulk channels
have DMA_RING_BASE, and no ring registers (R397). -/
def RegName.covers (r : RegName) (u o : Nat) : Option (Nat × Nat) :=
  let d := r.desc
  let absent := match r with
    | .DMAC_GO => u < 256
    | .DMA_RING_BASE | .DMA_RING_CFG | .DMA_HEAD | .DMA_TAIL => 256 ≤ u
    | _ => false
  if absent || o < d.off then none
  else if d.stride = 0 then (if o < d.off + d.width / 8 then some (0, o - d.off) else none)
  else
    let i := (o - d.off) / d.stride
    let b := (o - d.off) % d.stride
    if i < d.cnt && b < d.width / 8 then some (i, b) else none

/-- The register at an offset of a block, if one lies there. -/
def findReg (blk : Block) (u o : Nat) : Option RegAt :=
  blk.regs.findSome? (fun r => (r.covers u o).map (fun p => ⟨r, u, p.1, p.2⟩))

/-- The register at a place of MMR space. -/
def Place.regAt : Place → Option RegAt
  | .coreMmr n off => let b := coreMmrBlock n off; findReg b.1 b.2.1 b.2.2
  | .mmr off => (mmrBlock off).bind (fun b => findReg b.1 b.2.1 b.2.2)
  | .root off => (rootBlock off).bind (fun b => findReg b.1 b.2.1 b.2.2)
  | _ => none

/-- The place 4 bytes above one in MMR space (R47). -/
def Place.up4 : Place → Place
  | .coreMmr n off => .coreMmr n (off + 4)
  | .mmr off => .mmr (off + 4)
  | .root off => .root (off + 4)
  | p => p

/-- The second 32-bit register that an access of n bytes at a 32-bit register reaches (R47). -/
def Place.upper (p : Place) (n : Nat) : Option RegAt :=
  match p.regAt with
  | some r => if n = 8 && r.r.desc.width = 32 then p.up4.regAt.filter (fun u => u.r.desc.width = 32 && u.byte = 0) else none
  | none => none

/-- An access of n bytes at address a to MMR space that R47 does not carry out: not aligned, not of 4 or 8 bytes, or of 4 bytes at a register that
takes only whole accesses. -/
def State.mmrShape (s : State) (p : Place) (a : Word) (n : Nat) : Bool :=
  let q := match p with | .remote _ off => s.localPlace off | _ => p
  (n ≠ 4 && n ≠ 8) || a.toNat % n ≠ 0 || (n = 4 && (q.regAt.map (fun r => r.r.whole && r.r.desc.width = 64)).getD false)

/-! ### Who accesses, and the checks of an access -/

/-- The agent of an access: world, level and plot that its request carries (R116), its core if it is a core's thread, and the
translation cache that it goes through (R411). -/
structure Who where
  world : Nat
  level : Nat
  plot : Nat
  core : Option Nat := none
  thread : Option Nat := none
  epoch : Nat := 0
  port : Option Nat := none
  deriving DecidableEq, Repr

/-- The agent of a request that reaches a unit. -/
def whoOf (a : Agent) : Who :=
  ⟨if a.keeper then 1 else 0, if a.sup then 1 else 0, a.plot.val, a.core.map (·.val), a.thread.map (·.val), a.epoch.toNat, none⟩

/-- The thread as an agent: its plot is that of its core's CTX_BIND (R279). -/
def State.who (s : State) (c t : Nat) : Who :=
  ⟨s.world c t, s.level c t, s.fld CTX_BIND_PLOT c 0, some c, some t, s.fld CTX_BIND_EPOCH c 0, some c⟩

/-- The Keeper as an agent. -/
def Who.keeper : Who := ⟨1, 1, 0, none, none, 0, none⟩

/-- A core that answers FENCED: a free spare, a grafted-out core or a fenced core (R48). -/
def State.fencedCore (s : State) (n : Nat) : Bool :=
  (s.logicalOf n).isNone || 4 ≤ Sparse.get 0 s.kp.fences n || s.fld ISLAND_STATUS_CORE_STATE (coreP n) (coreIsland n) = 4

/-- A half of a parcel is without power: gated, or its rails still ramping (R50, R301). -/
def State.gated (s : State) (p h : Nat) : Bool := s.fld HALF_RAIL_STATUS_STATE p h = 2 || s.fld HALF_RAIL_STATUS_STATE p h = 1

/-- The core's block is under test (R612, R613). -/
def State.underTest (s : State) (n : Nat) : Bool := s.kp.rep.tests.any (fun x => x.parcel = coreP n && x.block = coreBlock n)

/-- A core is fenced, or takes part in a reset's drain (R48, R640). (DEDUCED: notes/assumptions/88.md.) -/
def State.answersFenced (s : State) (n : Nat) : Bool :=
  s.fencedCore n || Sparse.get 0 s.kp.fences n = 3
    || (s.fld ISLAND_STATUS_CORE_STATE (coreP n) (coreIsland n) = 3 && !s.underTest n)

/-- A request to core n is answered before it reaches the core: by the seam proxy of a gated half, or by the fence of the core or of its reset
(R39, R48, R301, R640). -/
def State.answeredAhead (s : State) (n : Nat) : Bool := s.gated (coreP n) (coreHalf n) || s.answersFenced n

/-- A router island is in a reset's drain or fence, or has failed, so that the boundary of its routers lies outside them (R640). -/
def State.islandShut (s : State) (n : Nat) : Bool :=
  let v := s.fld ISLAND_STATUS_ROUTER_STATE (coreP n) (coreIsland n)
  v = 3 || v = 4

/-- The boundary of a fenced part at router n counts what it answers or absorbs (R640): router n itself, or for a domain that contains it the first
router outside the domain on the route, which is a free value. (DESIGN CHOICE: notes/assumptions/111.md.) -/
def State.boundaryCount (s : State) (n : Nat) (f : Field) : State :=
  if s.islandShut n then
    let x := s.free
    x.2.bump f (x.1 % 10368) 0
  else s.bump f n 0

/-- A reply, an acknowledgement or a wake from outside reaches core c: the proxy of a gated half or a fence absorbs it and counts it (R303, R640). -/
def State.inward (s : State) (c : Nat) (f : State → State) : State :=
  if !s.answeredAhead c then f s
  else if s.gated (coreP c) (coreHalf c) then s.bump SEAM_STAT_ABSORBED (coreP c) 0
  else s.boundaryCount c FENCE_DROP_CNT_ABSORBED

/-- The core that a reply, an acknowledgement or a wake for core c reaches: the spare that its router's RTR_REDIR names (R618). -/
def State.redir (s : State) (c : CoreId) : CoreId :=
  let n := coreP c * 1296 + s.fld RTR_REDIR_SY c 0 * 36 + s.fld RTR_REDIR_SX c 0
  if s.fld RTR_REDIR_EN c 0 = 1 then (if h : n < 10368 then ⟨n, h⟩ else c) else c

/-- A channel that a reply for channel u reaches: a core's own channels go with the core (R618). -/
def State.redirDma (s : State) (u : DmaUnit) : DmaUnit :=
  if h : 256 ≤ u.val then
    let c : CoreId := ⟨(u.val - 256) / 2, by omega⟩
    ⟨256 + 2 * (s.redir c).val + u.val % 2, by omega⟩
  else u

/-- The lowest-numbered enabled world range that contains a window offset (R116). -/
def State.rangeOf (s : State) (n off : Nat) : Option Nat :=
  (List.range 8).find? (fun i =>
    s.fld WRANGE_n_EN n i = 1 && s.fld WRANGE_n_BASE n i ≤ off / 4096 && off / 4096 ≤ s.fld WRANGE_n_LIMIT n i)

/-- The refusal of an access by the world ranges and the core's binding (R116, R126): none where it is allowed. -/
def State.worldCheck (s : State) (n off : Nat) (w : Who) : Option Nat :=
  let range := s.rangeOf n off
  let rw := match range with | some i => s.fld WRANGE_n_WORLD n i | none => 0
  let rs := match range with | some i => s.fld WRANGE_n_SUP n i | none => 0
  if w.world = 0 && rw = 1 then some 0x02
  else if w.level = 0 && rs = 1 then some 0x03
  else if w.world = 0 && (s.fld CTX_BIND_BOUND n 0 = 0 || s.fld CTX_BIND_PLOT n 0 ≠ w.plot) then some 0x0D
  else none

/-- Thread t's rsreg protects a slot that `len` bytes at window offset `off` touch (R98). -/
def State.spillProtects (s : State) (n t off len : Nat) : Bool :=
  s.tf rsreg_EN n t = 1 && s.tf rsreg_LOW n t ≤ (off + len - 1) / 8 && off / 8 ≤ s.tf rsreg_HIGH n t

/-- A write of a byte range is refused by R98: every thread whose region it touches lets only supervisor code of its own world on the same core
store there. -/
def State.spillRefuses (s : State) (n off len : Nat) (w : Who) : Bool :=
  (List.range 8).any (fun t => s.spillProtects n t off len && !(w.core = some n && w.level = 1 && w.world = s.world n t))

/-- An RSPILL of thread t to `len` bytes at `off` touches another thread's protected slots (R98): only their owner's RSPILL may write them. -/
def State.spillForeign (s : State) (n t off len : Nat) : Bool :=
  (List.range 8).any (fun j => j ≠ t && s.spillProtects n j off len)

end Sys2Proof.Machine
end

