-- ==== Sys2Proof/Machine/InFlight.lean ====
section
/-!
DEFINITION. The accesses of a core that are in flight, and the order of those that share a byte (R77, R326).
-/
namespace Sys2Proof.Machine

/-- The memory and the byte that a place names: two places of one memory share bytes by their offsets. -/
def Place.spot : Place → Option (Nat × Nat)
  | .bank n off => some (n, off)
  | .hbm p off => some (2 ^ 20 + p, off)
  | .remote mid off => some (2 ^ 21 + mid, off)
  | .coreMmr n off => some (2 ^ 22 + n, off)
  | .mmr off => some (2 ^ 23, off)
  | .root off => some (2 ^ 23 + 1, off)
  | _ => none

/-- The n bytes from address a, as the range of an access with key `key` whose reply comes in `parts`. Ranges are ranges of addresses, as the cache's
lines are (R255, R326). (DEDUCED: notes/assumptions/109.md.) -/
def State.accessRange (s : State) (key : AccKey) (a : Word) (n : Nat) (parts : List Nat) : Option Access :=
  (s.place a).spot.map (fun p => { key := key, mem := p.1, off := p.2, len := n, parts := parts })

/-- Two ranges share a byte. -/
def Access.meets (x y : Access) : Bool := x.mem = y.mem && x.off < y.off + y.len && y.off < x.off + x.len

/-- An access of the core that is in flight, or waits in it, shares a byte with the n bytes from address a. -/
def State.inFlight (s : State) (c : Nat) (a : Word) (n : Nat) : Bool :=
  match s.accessRange .none a n [] with
  | some x => (s.core c).flying.any (fun y => y.meets x)
  | none => false

/-- Send the waiting accesses that no earlier one overlaps (R326). A release that still waits for its thread's writes holds its place (R328). -/
def State.settle (s : State) (c : Nat) : State :=
  let r := (s.core c).flying.foldl (fun (q : List Access × List (List Nat)) x =>
    match x.msg with
    | some m => if q.1.any (fun y => y.meets x) then (q.1 ++ [x], q.2) else (q.1 ++ [{ x with msg := none }], q.2 ++ [m])
    | none => (q.1 ++ [x], q.2)) ([], [])
  r.2.foldl (fun s m => s.send .request m) (s.setCore c { s.core c with flying := r.1 })

/-- An access leaves the core, or waits in it for the earlier accesses that share a byte with it (R326); a release that has held its place leaves from
there. -/
def State.depart (s : State) (c : Nat) (key : AccKey) (a : Word) (n : Nat) (parts : List Nat) (msg : List Nat) : State :=
  let k := s.core c
  match s.accessRange key a n parts with
  | none => s.send .request msg
  | some x =>
    let own := fun (y : Access) => y.held && y.key = key && y.meets x
    if k.flying.any own then
      State.settle (s.setCore c { k with flying := k.flying.map (fun y => if own y then { y with held := false, msg := some msg } else y) }) c
    else if k.flying.any (fun y => y.meets x) then
      s.setCore c { k with flying := k.flying ++ [{ x with msg := some msg }] }
    else (s.setCore c { k with flying := k.flying ++ [x] }).send .request msg

/-- A release that waits for its thread's writes takes its place among the accesses of its core (R328). -/
def State.holdPlace (s : State) (c : Nat) (key : AccKey) (a : Word) (n : Nat) : State :=
  match s.accessRange key a n [0] with
  | none => s
  | some x => s.setCore c { s.core c with flying := (s.core c).flying ++ [{ x with held := true }] }

/-- An earlier access in flight overlaps a release that has held its place (R326). -/
def State.placeBlocked (s : State) (c : Nat) (key : AccKey) : Bool :=
  let l := (s.core c).flying
  match l.find? (fun x => x.key = key && x.held) with
  | none => false
  | some x => (l.takeWhile (fun y => !(y.key = key && y.held))).any (fun y => y.meets x)

/-- A release that has held its place is performed where it leaves: the accesses that waited for it follow (R326). -/
def State.dropPlace (s : State) (c : Nat) (key : AccKey) : State :=
  if (s.core c).flying.any (fun x => x.key = key && x.held) then
    State.settle (s.setCore c { s.core c with flying := (s.core c).flying.filter (fun x => !(x.key = key && x.held)) }) c
  else s

/-- Part `p` of an access's reply has come: with its last part the access has been performed, and the accesses that waited for it leave (R326). -/
def State.landAccess (s : State) (c : Nat) (key : AccKey) (p : Nat) : State :=
  let k := s.core c
  match k.flying.find? (fun x => x.key = key && x.msg.isNone && !x.held) with
  | none => s
  | some x =>
    let y := { x with parts := x.parts.filter (· ≠ p) }
    if y.parts = [] then (s.setCore c { k with flying := k.flying.erase x }).settle c
    else s.setCore c { k with flying := k.flying.map (fun z => if z = x then y else z) }

end Sys2Proof.Machine
end

