-- ==== Sys2Proof/Machine/Cache.lean ====
section
/-!
DEFINITION. The data cache of a core: its entries, its side buffer, what goes out of it and what empties it (R252 to R266).
-/
namespace Sys2Proof.Machine

/-! ### Lines and entries -/

/-- The line of an address: fabric address bits [63:6], the module's own ID held as 0xFFFF (R255). -/
def State.lineOf (s : State) (a : Word) : Nat :=
  let mid := a.toNat >>> 48
  let id := s.fld MODULE_ID_ID 0 0
  (a.toNat % 2 ^ 48 + (if mid = id then 0xFFFF else mid) * 2 ^ 48) / 64

/-- The fabric address of a line. -/
def lineAddr (l : Nat) : Word := BitVec.ofNat 64 (l * 64)

/-- A mask of n bytes from byte b of a line. -/
def byteMask (b n : Nat) : BitVec 64 := BitVec.ofNat 64 ((2 ^ n - 1) <<< b)

/-- The bytes of word k of a line. -/
def wordMask (k : Nat) : BitVec 64 := byteMask (8 * k) 8

/-- A byte mask widened to bits. -/
def wideMask (m : BitVec 64) : Vec :=
  (List.range 64).foldl (fun a i => if nbit m.toNat i = 1 then a ||| BitVec.ofNat 512 (255 <<< (8 * i)) else a) 0

/-- Merge the bytes of `new` named by `m` into `old`. -/
def mergeBytes (old new : Vec) (m : BitVec 64) : Vec := (old &&& ~~~ (wideMask m)) ||| (new &&& wideMask m)

/-- n bytes of a line from byte b, as a number. -/
def lineBytes (d : Vec) (b n : Nat) : Nat := (d.toNat >>> (8 * b)) % 2 ^ (8 * n)

/-- A cache entry's line is visible to a world (R256). -/
def CEntry.seenBy (e : CEntry) (w : Nat) : Bool := w = 1 || e.world = 0

/-- Send a write-back of an entry's dirty bytes (R259). -/
def State.writeBack (s : State) (c : Nat) (e : CEntry) (t : Option Nat) : State :=
  if e.dirty = 0 then s
  else
    let k := s.core c
    (s.setCore c { k with wbs := k.wbs ++ [⟨e.line, e.world, e.dirty, e.data, t⟩] }).depart c (.line e.line) (lineAddr e.line) 64 [0]
      [c, t.getD 8, 13, e.line * 64, 64, e.dirty.toNat, e.data.toNat, e.world]

/-- Replace the cache of a core. -/
def State.setCache (s : State) (c : Nat) (l : List CEntry) : State := s.setCore c { s.core c with cache := l }

/-- The entry of a line. -/
def State.entry (s : State) (c line : Nat) : Option CEntry := (s.core c).cache.find? (fun e => e.line = line)

/-- Replace the entry of a line, as the most recently used one. -/
def State.putEntry (s : State) (c : Nat) (e : CEntry) : State :=
  s.setCache c (e :: (s.core c).cache.filter (fun x => x.line ≠ e.line))

/-- Write back and drop the entry of a line; a fill in flight for it goes on for the accesses that wait for it, and installs nothing further
(R256, R257, R262). (DEDUCED: notes/assumptions/95.md.) -/
def State.evict (s : State) (c : Nat) (e : CEntry) : State :=
  let k := (s.writeBack c e none).core c
  (s.writeBack c e none).setCore c { k with
    cache := k.cache.filter (fun x => x.line ≠ e.line)
    dropped := if e.left = 0 then k.dropped else k.dropped ++ [e] }

/-- A Tenant access to a line held in a Keeper-world entry, or in a Keeper-world side-buffer entry: the entry is written back
and dropped, the side-buffer entry discarded (R256, R261). -/
def State.purgeKeeper (s : State) (c w line : Nat) : State :=
  if w = 1 then s
  else
    let s1 := match s.entry c line with
      | some e => if e.world = 1 then s.evict c e else s
      | none => s
    let k := s1.core c
    s1.setCore c { k with side := k.side.filter (fun x => !(x.line = line && x.world = 1)) }

/-- Make room for a line: an entry of the line, or the least recently used unlocked entry with no fill in flight goes
(R257). None where every entry is locked or filling. -/
def State.allocate (s : State) (c line world : Nat) : Option (CEntry × State) :=
  match s.entry c line with
  | some e => some (e, s)
  | none =>
    let fresh : CEntry := { line := line, world := world }
    if (s.core c).cache.length < 48 then some (fresh, s)
    else match (s.core c).cache.reverse.find? (fun e => !e.lock && e.left = 0) with
      | some v => some (fresh, s.evict c v)
      | none => none

/-- The side-buffer entry of a line. -/
def State.sideEntry (s : State) (c line : Nat) : Option SideEntry := (s.core c).side.find? (fun x => x.line = line)

/-- The bytes `m` of a line are on their way into the side buffer: an access that names them waits (R261). -/
def State.fetchHolds (s : State) (c line : Nat) (m : BitVec 64) : Bool :=
  ((s.sideEntry c line).map (fun x => decide (x.left &&& m ≠ 0))).getD false

/-- Move a side-buffer entry of the line into the cache for an access of world `w` (R261): its bytes that have still to land, none of which the access
names, land there. (DEDUCED: notes/assumptions/95.md.) -/
def State.sideMove (s : State) (c w line : Nat) : State :=
  match s.sideEntry c line with
  | none => s
  | some x =>
    match s.allocate c line w with
    | none => s
    | some (e, s1) =>
      let k := s1.core c
      (s1.setCore c { k with side := k.side.filter (fun y => y.line ≠ line) }).putEntry c
        { e with
          valid := e.valid ||| x.valid
          data := mergeBytes e.data x.data (x.valid &&& ~~~e.dirty)
          left := x.left
          pref := true
          fid := x.fid }

/-- An entry whose fill is in flight; the fetch of a PREF is no fill (R257, R261). -/
def CEntry.filling (e : CEntry) : Bool := e.left ≠ 0 && !e.pref

/-- Fills in flight, those that install nothing further among them (R257, R262). -/
def Core.fills (k : Core) : Nat := (k.cache.filter CEntry.filling).length + (k.dropped.filter CEntry.filling).length

/-- The entry that a waiting access of fill `fid` takes its bytes from. -/
def Core.fillEntry (k : Core) (fid : Nat) : Option CEntry := (k.cache ++ k.dropped).find? (fun e => e.fid = fid)

/-- Start the fill of a line into an entry: eight words, the one that holds byte address `a` first; fetched bytes fill only
bytes that are not dirty (R257). -/
def State.startFill (s : State) (c t : Nat) (e : CEntry) (a : Word) : Nat × State :=
  let k := s.core c
  let s1 := s.setCore c { k with nextFill := k.nextFill + 1 }
  (k.nextFill, (s1.putEntry c { e with left := ~~~e.dirty, pref := false, fid := k.nextFill }).depart c (.fill k.nextFill) (lineAddr e.line) 64 (List.range 8)
    [c, t, 8, a.toNat / 8 * 8, 64, k.nextFill])

/-! ### Write-backs and invalidation -/

/-- Write back every dirty byte of the entries that `f` names, which stay valid and become clean (R262): for the thread of a range operation, or
for none. -/
def State.flushEntries (s : State) (c : Nat) (t : Option Nat) (f : CEntry → Bool) : State :=
  let hit := (s.core c).cache.filter (fun e => f e && e.dirty ≠ 0)
  let s1 := hit.foldl (fun s e => s.writeBack c e t) s
  s1.setCache c ((s1.core c).cache.map (fun e => if f e then { e with dirty := 0 } else e))

/-- Invalidate the clean bytes of the entries that `f` names; a fill in flight for one of them goes on for the accesses that wait
for it and installs nothing further (R262, R264). Entries that hold nothing go. -/
def State.invalidate (s : State) (c : Nat) (f : CEntry → Bool) (g : SideEntry → Bool) : State :=
  let k := s.core c
  s.setCore c { k with
    dropped := k.dropped ++ k.cache.filter (fun e => f e && e.left ≠ 0)
    cache := (k.cache.map (fun e => if f e then { e with valid := e.valid &&& e.dirty, left := 0, fid := 0 } else e)).filter
      (fun e => e.valid ≠ 0 || e.left ≠ 0 || e.lock)
    side := k.side.filter (fun x => !g x) }

/-- CINV.ALL (R262, R264). -/
def State.cinvAll (s : State) (c : Nat) : State := s.invalidate c (fun e => !e.lock) (fun _ => true)

/-- A line lies in a range of lines. -/
def inLines (lo hi l : Nat) : Bool := lo ≤ l && l ≤ hi

/-- The last line that an access of n bytes touches. -/
def State.lastLine (s : State) (a : Word) (n : Nat) : Nat := s.lineOf a + (a.toNat % 64 + n - 1) / 64

/-- A line that a bypassing access of n bytes touches has dirty bytes, or a write-back that is not acknowledged (R254). -/
def State.bypassWaits (s : State) (c : Nat) (a : Word) (n : Nat) : Bool :=
  let k := s.core c
  k.cache.any (fun e => e.dirty ≠ 0 && inLines (s.lineOf a) (s.lastLine a n) e.line)
    || k.wbs.any (fun b => inLines (s.lineOf a) (s.lastLine a n) b.line)

/-- The cache writes back the dirty bytes of every line that a bypassing access touches, before it leaves (R254). -/
def State.bypassFlush (s : State) (c : Nat) (a : Word) (n : Nat) : State :=
  s.flushEntries c none (fun e => inLines (s.lineOf a) (s.lastLine a n) e.line)

/-- A bypassing access leaves the core: one that writes invalidates the clean bytes of the lines it touches, with what is on its way to them (R254,
R77). (DEDUCED: notes/assumptions/95.md.) -/
def State.bypassGo (s : State) (c : Nat) (a : Word) (n : Nat) (write : Bool) : State :=
  if write then s.invalidate c (fun e => inLines (s.lineOf a) (s.lastLine a n) e.line) (fun x => inLines (s.lineOf a) (s.lastLine a n) x.line)
  else s

/-- An access that leaves with its write-backs: an operation issued again by a wake, not by a word (R254, R339).
(DESIGN CHOICE: notes/assumptions/21.md.) -/
def State.bypass (s : State) (c : Nat) (a : Word) (n : Nat) (write : Bool) : State := (s.bypassFlush c a n).bypassGo c a n write

/-- The whole cache written back and emptied: locks cleared, the side buffer empty (R266). -/
def State.emptyCache (s : State) (c : Nat) : State :=
  let s1 := s.flushEntries c none (fun _ => true)
  let k := s1.core c
  (s1.setCore c { k with cache := k.cache.map (fun e => { e with lock := false }) }).invalidate c (fun _ => true) (fun _ => true)

end Sys2Proof.Machine
end

