-- ==== Sys2Proof/Machine/StateRegs.lean ====
section
/-!
DEFINITION. State registers as GETS reads them and SETS writes them (R99 to R102, R137, R138, R169, R202, R273, R745), and
the register writes in flight (R71 to R75).
-/
namespace Sys2Proof.Machine

/-! ### What the live fields show -/

/-- The three bits of a thread state (R104). -/
def TState.code : TState → Nat
  | .stopped => 0 | .ready => 1 | .waiting => 2 | .sleeping => 3 | .suspended => 4 | .halted => 5

/-- The two bits of a mailbox state (R101 mbstat). -/
def MbState.code : MbState → Nat
  | .empty => 0 | .pending => 1 | .full => 2 | .error => 3

/-- A mailbox of a thread. -/
def Thread.mbox (h : Thread) (n : Nat) : Mbox := Sparse.get {} h.mb n

/-- The thread with a mailbox replaced. -/
def Thread.setMbox (h : Thread) (n : Nat) (m : Mbox) : Thread := { h with mb := Sparse.set {} h.mb n m }

/-- A tile of a core. -/
def Core.tile (k : Core) (n : Nat) : Tile := Sparse.get {} k.tiles n

/-- An accumulator of a core. -/
def Core.acc (k : Core) (n : Nat) : Accum := Sparse.get {} k.accs n

/-- The tiles an entry of the matrix queue keeps busy in cycle `cyc` (R180): the operands until cycle 15 of its run, the destination of an
ACVT until it completes. -/
def MEntry.holds (e : MEntry) (cyc n : Nat) : Bool :=
  match e.op with
  | .mma ta tb _ _ _ _ => (!e.running || (!e.void && cyc < e.start + 16)) && (ta = n || tb = n)
  | .acvt tn _ _ _ => tn = n
  | _ => false

/-- The thread whose operation keeps a tile busy, if one does (R163): that of a transfer before that of a queue entry, and that before a row move's
(DESIGN CHOICE: notes/assumptions/100.md.) -/
def Core.busyBy (k : Core) (n : Nat) : Option Nat :=
  match k.xfers.find? (fun x => x.tile = n && (!x.store || !x.todo.isEmpty)) with
  | some x => some x.thread
  | none =>
    match k.mq.find? (fun e => e.holds k.cyc n) with
    | some e => some e.thread
    | none => ((k.tile n).short.find? (fun p => k.cyc < p.1)).map (·.2)

/-- Sum of bits: bit i of the result is `f i`. -/
def maskOf (n : Nat) (f : Nat → Bool) : Nat := (List.range n).foldl (fun a i => if f i then a + 2 ^ i else a) 0

/-- The state registers at a number, with the index of an array's element (R99). -/
def sregAt (num : Nat) : Option (RegName × Nat) :=
  (Block.thr.regs ++ Block.cst.regs).findSome? (fun r =>
    let d := r.desc
    if d.off ≤ num && num < d.off + d.cnt then some (r, num - d.off) else none)

/-- Registers whose GETS is supervisor only (R101, R137, R202). -/
def RegName.getsSup : RegName → Bool
  | .rspill | .rsreg | .tfsel | .tfpc | .tfcause | .tfaddr | .mchk => true
  | _ => false

/-- Registers with a supervisor-only field (R100, R101); a SETS of one that is supervisor-only to GETS and has no writable field is refused at user level
too. (DESIGN CHOICE: notes/assumptions/102.md.) -/
def RegName.setsSup (r : RegName) : Bool := r.getsSup || r.fields.any (·.sup)

/-- The lines of tvec and ipend that only Keeper threads see: 38 and 52 to 55 (R119, R137). -/
def keeperLines : Nat := 2 ^ 6 + 2 ^ 20 + 2 ^ 21 + 2 ^ 22 + 2 ^ 23

/-- Remove the Keeper-only lines from a Tenant thread's view. -/
def lineView (world v : Nat) : Nat := if world = 1 then v else v - (v &&& keeperLines)

/-- What GETS of a state register shows to thread t of core c (R101, R137, R138, R169, R202, R273). (DESIGN CHOICE: notes/assumptions/3.md; DEDUCED: notes/assumptions/112.md.) -/
def State.gets (s : State) (c t : Nat) (r : RegName) (i : Nat) : Word :=
  let h := s.thr c t
  let k := s.core c
  let w := s.world c t
  let own := s.reg r c (t * 32 + i)
  match r with
  | .tstate => BitVec.ofNat 64 ((List.range 8).foldl (fun a j => a + (s.thr c j).st.code <<< (3 * j)) 0)
  | .tid => BitVec.ofNat 64 (((s.logicalOf c).getD 0x3FFF) <<< 32 + c <<< 16 + t)
  | .cyc => BitVec.ofNat 64 k.cyc
  | .rstat => withBits own 4 0 h.rstack.length
  | .mbstat => BitVec.ofNat 64 ((List.range 4).foldl (fun a j => a + (h.mbox j).st.code <<< (2 * j)) 0)
  | .mberr => BitVec.ofNat 64 ((List.range 4).foldl (fun a j => a + (h.mbox j).err.toNat <<< (16 * j)) 0)
  | .tvec => BitVec.ofNat 64 (lineView w own.toNat)
  | .ipend => BitVec.ofNat 64 (lineView w (s.reg .ipend c 0).toNat)
  | .tfsel =>
    withBits (s.reg .tfsel c 0) 15 8 (if w = 1 then k.tfpendK.toNat else k.tfpendT.toNat)
  | .tfpc | .tfcause | .tfaddr =>
    let sel := s.fld tfsel_SEL c 0
    if w = 0 && s.world c sel = 1 then 0 else s.reg r c (sel * 32)
  | .tcfg => if w = 0 && s.fld tcfg_WORLD c i = 1 then 0 else s.reg .tcfg c i
  | .tprog =>
    let n := s.tf tsel_TILE c t
    if w = 0 && s.fld tcfg_WORLD c n = 1 then 0
    else BitVec.ofNat 64 ((k.tile n).valid.toNat % 2 ^ s.fld tcfg_ROWS c n)
  | .tsel =>
    withBits (withBits own 15 8 (maskOf 8 (fun n => (k.busyBy n).isSome))) 23 16
      (maskOf 8 (fun n => s.fld tcfg_ROWS c n = 0 || (k.tile n).valid = 0))
  | .mode => if 0 < h.shadow then BitVec.ofNat 64 h.oldMode else own
  | .astat =>
    BitVec.ofNat 64 ((min k.mq.length 7) <<< 16 + (List.range 4).foldl (fun a n =>
      let x := k.acc n
      if x.world = 1 && w = 0 then a
      else a + (8 * (if k.mq.any (fun e => e.acc = n) then 1 else 0) + 4 * x.world + x.typ) <<< (4 * n)) 0)
  | .mchk => withBits (s.reg .mchk c 0) 8 8 (if k.shadowOp.isSome then 1 else 0)
  | .cstat =>
    let cnt := fun (f : CEntry → Bool) => (k.cache.filter f).length
    withBits (withBits (withBits (withBits (withBits (s.reg .cstat c 0) 37 32 (cnt (·.lock)))
      29 24 (cnt (fun e => e.dirty ≠ 0))) 21 16 (cnt (fun e => e.valid ≠ 0))) 12 8 k.fills)
      2 0 k.side.length
  | .cerr => if w = 1 then k.cerrK else s.reg .cerr c 0
  | .cerra => if w = 1 then k.cerraK else s.reg .cerra c 0
  | .svt | .ccfg | .chit | .cmiss => s.reg r c 0
  | _ => own

/-- A GETS of cerr clears the reading world's LOST count (R8, R273). -/
def State.afterGets (s : State) (c t : Nat) (r : RegName) : State :=
  match r with
  | .cerr =>
    if s.world c t = 1 then s.setCore c { s.core c with cerrK := withBits (s.core c).cerrK 15 0 0 }
    else s.setFld cerr_LOST c 0 0
  | _ => s

/-! ### SETS -/

/-- The active levels after a SETS of lstat (R102): a level whose END is 0 keeps what it is. -/
def State.lstatNew (s : State) (c t old : Nat) (v : Word) : Nat :=
  maskOf 4 (fun j => nbit v.toNat j = 1 && (nbit old j = 1 || s.tf lpa_END c t j ≠ 0))

/-- A thread that waits becomes READY. -/
def State.ready (s : State) (c t : Nat) : State :=
  s.setThr c t { s.thr c t with st := .ready, wait := .none, armed := false, poll := false }

/-- The thread whose SETS turned the cache off goes on once every write-back is acknowledged (R266). -/
def State.cacheOffDone (s : State) (c : Nat) : State :=
  if s.fld ccfg_EN c 0 = 1 || !(s.core c).wbs.isEmpty then s
  else (List.range 8).foldl (fun s t => if (s.thr c t).st = .waiting && (s.thr c t).wait = .cacheOff then s.ready c t else s) s

/-- The effect of SETS on a state register, when it lands (R10, R100 to R102, R137, R155, R169, R202, R273). `w` is the
world of the writer. -/
def State.sets (s : State) (c t w : Nat) (r : RegName) (i : Nat) (v : Word) : State :=
  let h := s.thr c t
  let idx := t * 32 + i
  let generic := s.setReg r c idx (r.written true 63 0 (s.reg r c idx) v)
  match r with
  | .tvec =>
    let old := (s.reg r c idx).toNat
    let kept := if w = 1 then 0 else old &&& keeperLines
    let new := (v.toNat % 2 ^ 32) - v.toNat % 2
    s.setReg r c idx (BitVec.ofNat 64 (kept + lineView w new))
  | .svt =>
    let nk := bitsOf v 10 8
    let nt := bitsOf v 2 0
    let s1 := if w = 1 && s.world c nk = 1 then s.setFld svt_KEEPER c 0 nk else s
    if s.world c nt = 0 then s1.setFld svt_TENANT c 0 nt else s1
  | .tmcmp => (generic).setThr c t { h with timerHeld := false }
  | .ipend =>
    let clr := (lineView w v.toNat) % 2 ^ 32
    let old := (s.reg .ipend c 0).toNat
    s.setReg .ipend c 0 (BitVec.ofNat 64 (old - (old &&& (clr - clr % 4))))
  | .tfsel => s.setFld tfsel_SEL c 0 (bitsOf v 2 0)
  | .lstat =>
    s.setTf lstat_ACTIVE c t (s.lstatNew c t (s.tf lstat_ACTIVE c t) v)
  | .mbstat =>
    (List.range 4).foldl (fun a j =>
      let hj := a.thr c t
      let m := hj.mbox j
      if bitsOf v (2 * j + 1) (2 * j) = 0 && (m.st = .full || m.st = .error)
      then a.setThr c t (hj.setMbox j {}) else a) s
  | .tprog =>
    let n := s.tf tsel_TILE c t
    let k := s.core c
    if s.fld tcfg_WORLD c n ≠ w || (k.busyBy n).isSome || s.fld tcfg_ROWS c n = 0 then s
    else
      let mask := v.toNat % 2 ^ s.fld tcfg_ROWS c n
      s.setCore c { k with tiles := Sparse.set {} k.tiles n { k.tile n with valid := BitVec.ofNat 64 mask } }
  | .ccfg =>
    if w = 1 then
      let s1 := s.setReg .ccfg c 0 (r.written true 63 0 (s.reg .ccfg c 0) v)
      if s.fld ccfg_EN c 0 = 1 && s1.fld ccfg_EN c 0 = 0 then (s1.emptyCache c).cacheOffDone c else s1
    else s
  | .cstat => s.setReg .cstat c 0 (r.written true 63 0 (s.reg .cstat c 0) v)
  | .tcfg | .tstate | .cyc | .chit | .cmiss | .cerr | .cerra => s
  | _ => generic

/-! ### Register writes in flight -/

/-- Insert a write in flight, ordered by the cycle it lands in and then by issue (R73). -/
def addFlight (f : Flight) : List Flight → List Flight
  | [] => [f]
  | g :: r => if f.due < g.due then f :: g :: r else g :: addFlight f r

/-- Put a number into the element of a core's tile row. -/
def State.setRow (s : State) (c tile r : Nat) (f : TileRow → TileRow) (valid : Bool) : State :=
  let k := s.core c
  let tl := k.tile tile
  let row := f (Sparse.get {} tl.rows r)
  let v := if valid then tl.valid ||| BitVec.ofNat 64 (2 ^ r) else tl.valid
  let touch := fun (l : Latch) => if l.tile = tile && l.slice = r / 16 then { l with fresh := false } else l
  s.setCore c { k with
    tiles := Sparse.set {} k.tiles tile { tl with rows := Sparse.set {} tl.rows r row, valid := v }
    latchA := touch k.latchA, latchB := touch k.latchB }

/-- A write in flight lands. What lands in a loop's state is kept for the waiting word too: undoing its end check (R129) does not undo the writes of
earlier words (R74). -/
def State.landOne (s : State) (c t : Nat) (f : Flight) : State :=
  let h := s.thr c t
  match f.dest with
  | .s n => s.setThr c t { h with x := Sparse.set 0 h.x n (BitVec.ofNat 64 f.val) }
  | .p n => s.setThr c t { h with p := BitVec.ofNat 8 (h.p.toNat - nbit h.p.toNat n * 2 ^ n + (f.val % 2) * 2 ^ n) }
  | .lc n => s.setThr c t { h with
      lc := Sparse.set 0 h.lc n (f.val % 2 ^ 32), snap := { h.snap with lc := Sparse.set 0 h.snap.lc n (f.val % 2 ^ 32) } }
  | .v n => s.setThr c t { h with v := Sparse.set 0 h.v n (BitVec.ofNat 512 f.val) }
  | .sreg n _ => match sregAt n with
    | some (r, i) =>
      let s1 := s.sets c t (s.world c t) r i (BitVec.ofNat 64 f.val)
      if r = .lstat then
        let h1 := s1.thr c t
        s1.setThr c t { h1 with snap := { h1.snap with active := s.lstatNew c t h.snap.active (BitVec.ofNat 64 f.val) } }
      else s1
    | none => s
  | .row tile r => s.setRow c tile r (fun x => { x with data := BitVec.ofNat 512 f.val }) true
  | .scale tile r => s.setRow c tile r (fun x => { x with scale := BitVec.ofNat 32 f.val }) false
  | .flags => s.setTreg .vflags c t (s.treg .vflags c t ||| BitVec.ofNat 64 (f.val % 32))
  | .mbox n => if (h.mbox n).st = .pending then s.setThr c t (h.setMbox n ⟨.full, BitVec.ofNat 64 f.val, 0⟩) else s

/-- Land the given writes, in order. -/
def State.landList (s : State) (c t : Nat) : List Flight → State
  | [] => s
  | f :: r => (s.landOne c t f).landList c t r

/-- Land every write of a thread that is due by cycle `now` (R71). (DESIGN CHOICE: notes/assumptions/22.md.) -/
def State.landDue (s : State) (c t now : Nat) : State :=
  let h := s.thr c t
  (s.setThr c t { h with flight := h.flight.filter (fun f => now < f.due) }).landList c t
    (h.flight.filter (fun f => f.due ≤ now))

/-- Land every write in flight of a thread, results addressed to mailboxes apart (R74). -/
def State.landAll (s : State) (c t : Nat) : State :=
  let h := s.thr c t
  let mb := fun (f : Flight) => match f.dest with | .mbox _ => true | _ => false
  (s.setThr c t { h with flight := h.flight.filter mb }).landList c t (h.flight.filter (fun f => !mb f))

/-- Put a register write in flight: seen from cycle cyc + d on (R71). (DEDUCED: notes/assumptions/13.md.) -/
def State.fly (s : State) (c t : Nat) (d : Dest) (v dist : Nat) : State :=
  let h := s.thr c t
  s.setThr c t { h with flight := addFlight ⟨d, v, (s.core c).cyc + dist⟩ h.flight }

end Sys2Proof.Machine
end

