-- ==== Sys2Proof/Machine/Keeper.lean ====
section
/-!
DEFINITION. What many of the Keeper's procedures share: the time counter as records take it, platform events, fault records and notices
(R604 to R607, R656, R708).
(DESIGN CHOICE: notes/assumptions/68.md.)
-/
namespace Sys2Proof.Machine

/-- The seconds of the time counter (R689). -/
def State.timeSec (s : State) : Nat := s.fld TIME_NOW_0_SEC_LO 0 0 + s.fld TIME_NOW_1_SEC_HI 0 0 <<< 16

/-- The nanoseconds of the time counter. -/
def State.timeNs (s : State) : Nat := s.fld TIME_NOW_0_NS 0 0

/-- The n bytes of a number, little-endian. -/
def leBytes (v : Nat) : Nat → List Nat
  | 0 => []
  | n + 1 => v % 256 :: leBytes (v / 256) n

/-- The n bytes of a number, big-endian. -/
def beBytes (v n : Nat) : List Nat := (leBytes v n).reverse

/-- Replace the Keeper's state. -/
def State.setKp (s : State) (k : Keeper) : State := { s with kp := k }

/-- A platform event goes to the fabric manager and to the event receiver, where at most 256 wait (R708). (DESIGN CHOICE: notes/assumptions/86.md.) -/
def State.platformEvent (s : State) (cls kind : Nat) (data : List Nat) : State :=
  let s1 := s.send .mgmt ([0, cls, 0, kind] ++ data)
  let r := s1.kp.events
  if r.mode = 1 then
    (s1.setKp { s1.kp with events := { r with dropped := 0 } }).send .mgmt ([1, cls, r.dropped, kind] ++ data)
  else if r.mode = 2 then
    let full := 256 ≤ r.waiting.length
    s1.setKp { s1.kp with events := { r with
      waiting := (if full then r.waiting.drop 1 else r.waiting) ++ [⟨cls, kind, data⟩]
      dropped := if full then min 0xFFFF (r.dropped + 1) else r.dropped } }
  else s1

/-- The four words of a fault record (R606). -/
def State.recWords (s : State) (cls act plot seq det loc : Nat) : List Nat :=
  [cls <<< 56 + act <<< 48 + plot <<< 40 + seq, s.timeSec <<< 16, s.timeNs <<< 32 + det % 2 ^ 32, loc]

/-- Answer a management request; what answers a KMP datagram is stored, so that a repeat is answered with it (R704). -/
def State.mgmtAnswer (s : State) (src : MgmtSrc) (b : List Nat) : State :=
  let x := s.kp.mgmt
  let s1 := match src.seq with
    | some q => s.setKp { s.kp with mgmt := { x with seen := x.seen ++ [(src.addr, q.toNat, b)] } }
    | none => s
  s1.send .mgmt ([3, src.addr, (src.seq.map (fun q => q.toNat)).getD 0] ++ b)

/-- A measurement has changed while the module runs (R708, R712). -/
def State.measured (s : State) (idx : Nat) (digest : List Nat) : State := s.platformEvent 0xF2 2 ([idx, 0, 0, 0] ++ digest)

/-- A measurement whose bytes the spec does not give. -/
def State.measuredFree (s : State) (idx : Nat) : State := let f := s.free; f.2.measured idx (leBytes (f.1 % 2 ^ 384) 48)

/-- The number that bytes spell, most significant first. -/
def ofBe (l : List Nat) : Nat := l.foldl (fun a b => a * 256 + b % 256) 0

/-- The number that bytes spell, least significant first. -/
def ofLe (l : List Nat) : Nat := l.foldr (fun b a => a * 256 + b % 256) 0

/-- Replace the firmware's state. -/
def State.setFirm (s : State) (x : Firm) : State := s.setKp { s.kp with firm := x }

/-- The section of a type in a bundle: its offset and length (R713). -/
def bundleSec (b : List Nat) (typ : Nat) : Option (Nat × Nat) :=
  let le := fun (i n : Nat) => ofLe (bytesAt b i n)
  ((List.range (le 12 2)).find? (fun j => le (64 + 16 * j) 2 = typ)).map (fun j => (le (68 + 16 * j) 4, le (72 + 16 * j) 4))

/-- The core Keeper code of a bundle, as instruction words. -/
def bundleKeeper (b : List Nat) : List Nat :=
  match bundleSec b 0x0102 with
  | some (o, _) => (List.range (ofLe (bytesAt b o 2) / 4)).map (fun i => ofLe (bytesAt b (o + 8 + 4 * i) 4))
  | none => []

/-- Load the running bundle's core Keeper code into the Keeper partition of a list of cores (R713). (DESIGN CHOICE: notes/assumptions/73.md.) -/
def State.loadKeeper (s : State) (l : List Nat) : State :=
  let code := bundleKeeper s.kp.firm.run
  l.foldl (fun s c =>
    let k := s.core c
    s.setCore c { k with imem := ((List.range code.length).zip code).foldl (fun m e => Sparse.set 0 m (65536 + e.1) (BitVec.ofNat 32 e.2)) k.imem }) s

/-- A block whose test holds its cores in Core reset receives the running bundle's core Keeper code (R719 step 7, R720). -/
def State.updateBlock (s : State) (m : Nat) (cores : List Nat) : State :=
  let x := s.kp.firm
  if !x.old.contains m then s
  else
    let old := x.old.filter (· ≠ m)
    ((((s.loadKeeper cores).setFirm { x with old := old }).setFld FW_STAT_CORE_OLD 0 0 old.length)).measuredFree 3

/-- The blocks of the module. -/
def allBlocks : List Nat := List.range 648

/-- A trial ends with the previous bundle (R720): its bank is active again on both devices, and blocks updated already are reloaded at their next
test. -/
def State.fwRevert (s : State) : State :=
  let x := s.kp.firm
  let back := fun (m : Sparse BootRec) (d : Nat) =>
    let r := Sparse.get {} m d
    Sparse.set {} m d { active := 1 - r.active, trial := false, count := 0, seq := r.seq + 1 }
  let trial := s.fld FW_STAT_TRIAL 0 0 = 1
  let old := if trial then allBlocks.filter (fun m => !x.old.contains m) else x.old
  let s1 := s.setFirm { x with boots := back (back x.boots 1) 0, run := if trial then x.prev else x.run, prev := [], upd := 0, old := old }
  let s2 := ((s1.setFld FW_STAT_TRIAL 0 0 0).setFld FW_STAT_REVERTED 0 0 1).setFld FW_STAT_LAST_CODE 0 0 0x0902
  let s3 := (s2.setFld FW_STAT_UPD_STATE 0 0 0).setFld FW_STAT_CORE_OLD 0 0 old.length
  if trial then (s3.setFld FW_STAT_RUN_SVN 0 0 (ofLe (bytesAt x.prev 16 4))).setFld FW_STAT_BANK 0 0 (1 - s3.fld FW_STAT_BANK 0 0) else s3

/-- Replace the hang procedure's state. -/
def State.setHang (s : State) (h : Hang) : State := s.setKp { s.kp with hang := h }

/-- The first dump starts; the DUMP message that asked for it is answered (R710). -/
def State.dumpBegun (s : State) : State :=
  match s.kp.hang.dumps.head?.bind (·.asker) with
  | some src => s.mgmtAnswer src [8, 1, 0, 0]
  | none => s

/-- A dump is asked for: it runs, or waits for the dumps before it (R658). -/
def State.askDump (s : State) (d : DumpReq) : State :=
  let h := s.kp.hang
  let s1 := s.setHang { h with dumps := h.dumps ++ [d] }
  if h.dumps.isEmpty then (s1.setFld DUMP_STAT_STATE 0 0 1).dumpBegun else s1

/-- Replace the Keeper's book of repairs. -/
def State.setRep (s : State) (x : Repair) : State := s.setKp { s.kp with rep := x }

/-- The debug level returns to LOCKED; a change of level changes measurement 7 (R735). -/
def State.dbgLock (s : State) : State :=
  if s.fld DBG_LOCK_LEVEL 0 0 = 0 then s else ((s.setFld DBG_LOCK_LEVEL 0 0 0).setFld DBG_LOCK_PLOT 0 0 0).measuredFree 7

/-- A new unlock nonce (R734). (DESIGN CHOICE: notes/assumptions/3.md.) (DESIGN CHOICE: notes/assumptions/76.md.) -/
def State.newNonce (s : State) : State :=
  let f := s.free
  (f.2.setReg .DBG_NONCE_i 0 0 (BitVec.ofNat 64 f.1)).setReg .DBG_NONCE_i 0 1 (BitVec.ofNat 64 (f.1 / 2 ^ 64))

/-- Loopbacks of interfaces that a reset covers stop at the end of their step (R729). -/
def State.loopStop (s : State) (l : List Nat) : State :=
  l.foldl (fun s i => if s.fld LB_CTL_i_STATE 0 i = 1 then s.setFld LB_CTL_i_GO 0 i 0 else s) s

/-- The integer square root, for roots below 2 ^ n. -/
def floorRoot (v : Nat) : Nat → Nat
  | 0 => 0
  | n + 1 =>
    let hi := floorRoot (v / 4) n * 2
    if (hi + 1) * (hi + 1) ≤ v then hi + 1 else hi

/-- Give the NVMe device a command (R672): 1 Write of n bytes, 2 Read, 3 Flush, 4 Identify. -/
def State.nvmeCmd (s : State) (op lba n v : Nat) : Nat × State :=
  let x := s.kp.rack
  (x.nvmeId, (s.setKp { s.kp with rack := { x with nvmeId := x.nvmeId + 1, nvme := x.nvme ++ [(x.nvmeId, op)] } }).send .nvme [op, x.nvmeId, lba, n, v])

/-- The mean capture time of a plot's last 8 RACKs in µs; 1 s before the first (R684). -/
def State.rackMean (s : State) (n : Nat) : Nat :=
  let l := Sparse.get [] s.kp.rack.caps n
  if l.isEmpty then 1000000 else l.foldl (· + ·) 0 / l.length

/-- Recompute the racking intervals (R684): T = sqrt(2 × C × M), from 30 to 21,600 s, in whole seconds. -/
def State.rackIntervals (s : State) : State :=
  (List.range 64).foldl (fun s n =>
    let job := s.fld RACK_PLOT_W0_JOB 0 n
    let hours := s.fld RACK_CFG_MTBF_PRIOR 0 0 + s.fld RACK_STAT_HOURS 0 0
    let t := floorRoot (2 * s.rackMean n * hours * 3600 / (1000000 * (1 + s.fld RACK_STAT_FAILS 0 0) * job)) 40
    if job = 0 then s else s.setFld RACK_PLOT_W0_INTERVAL_S 0 n (max 30 (min 21600 t))) s

/-- A failure of R684 is counted. -/
def State.rackFail (s : State) : State :=
  let s1 := s.bump RACK_STAT_FAILS 0 0
  (s1.setKp { s1.kp with rack := { s1.kp.rack with hurt := true } }).rackIntervals

/-- Write a fault record to the ring (R604): class, action, plot (0xFF for none), DETAIL and LOC. Its copy to SPI NOR is due, and it is
sent as a platform event. One of CLASS 0x12, or before a module
replacement, starts a dump (R658), and some actions count as failures of the module (R684). -/
def State.faultRec (s : State) (cls act plot det loc : Nat) : State :=
  let seq := s.fld FLT_STAT_SEQ 0 0
  let i := s.fld FLT_HEAD_NEXT 0 0
  let w := s.recWords cls act plot seq det loc
  let put := fun (r : RegName) (k : Nat) (s : State) => s.setReg r 0 i (BitVec.ofNat 64 (w.getD k 0))
  let s1 := put .FLT_REC_W3 3 (put .FLT_REC_W2 2 (put .FLT_REC_W1 1 (put .FLT_REC_W0 0 s)))
  let s2 := (s1.bumpWrap FLT_STAT_SEQ 0 0).bumpWrap FLT_HEAD_NEXT 0 0
  let s3 := (s2.setKp { s2.kp with flash := s2.kp.flash ++ [i] }).platformEvent 0xF0 0 (w.flatMap (fun x => leBytes x 8))
  let s3 := if act = 0x11 then s3.setKp { s3.kp with power := { s3.kp.power with fault := true } } else s3
  let s4 := if act = 0x05 || act = 0x0B || act = 0x11 then s3.rackFail else s3
  if cls = 0x12 then s4.askDump { reason := 2, id := seq } else if act = 0x11 then s4.askDump { reason := 3, id := seq } else s4

/-- Tell the fabric manager (R604, R656). (DESIGN CHOICE: notes/assumptions/86.md.) -/
def State.tellManager (s : State) (args : List Nat) : State := s.send .mgmt (2 :: args)

/-- The base of a core's physical window, as LOC of a record names it (R606). -/
def coreLoc (n : Nat) : Nat := n * 0x400000

/-- The plot that a record names for a core: 0xFF for none (R606). -/
def State.plotOf (s : State) (c : Nat) : Nat := if s.fld CTX_BIND_BOUND c 0 = 1 then s.fld CTX_BIND_PLOT c 0 else 0xFF

end Sys2Proof.Machine
end

