-- ==== Sys2Proof/Machine/Ops.lean ====
section
/-!
DEFINITION. The named operations of a core: taking an exception (R118 to R125), returning from one (R131, R132), and what ends
a word with its delay slot, loop end and SETM shadow (R62, R78, R84 to R90, R121 to R129, R736, R737).
-/
namespace Sys2Proof.Machine

/-! ### Saved state in awkward places -/

/-- The mode in force for the thread's next word (R78, R128). -/
def State.modeNow (s : State) (c t : Nat) : Nat :=
  let h := s.thr c t
  if 0 < h.shadow then h.oldMode else (s.treg .mode c t).toNat

/-- The thread's place before its next word issues. -/
def State.ctxOf (s : State) (c t : Nat) : Ctx :=
  let h := s.thr c t
  ⟨h.pc, h.slot, h.shadow, h.lc, s.tf lstat_ACTIVE c t, (s.core c).cyc⟩

/-- Put a thread back to a place it held (R129, R136). -/
def State.restoreCtx (s : State) (c t : Nat) (x : Ctx) : State :=
  let h := s.thr c t
  (s.setThr c t { h with pc := x.pc, slot := x.slot, shadow := x.shadow, lc := x.lc }).setTf lstat_ACTIVE c t x.active

/-- Undo the branch before a delay slot (R127): the thread stands at the branch, with its pushes, pops and loop levels put
back. Answers whether there was one. -/
def State.undoSlot (s : State) (c t : Nat) : Bool × State :=
  let h := s.thr c t
  match h.slot with
  | none => (false, s)
  | some i =>
    (true, (s.setThr c t { h with pc := i.bpc, slot := none, rstack := i.rstack, shadow := i.shadow }).setTf
      lstat_ACTIVE c t i.active)

/-! ### Exception entry -/

/-- Enter vector `vec` on the thread itself (R121): the saved registers written, the level supervisor, EXL 1 and IE 0, and the
program counter at the vector's entry (R117). (DEDUCED: notes/assumptions/14.md.) -/
def State.enter (s : State) (c t vec det : Nat) (addr : Word) (status thread : Nat) : State :=
  let s1 := s.landAll c t
  let u := s1.undoSlot c t
  let s2 := u.2
  let h := s2.thr c t
  let saved := (s2.treg .wstat c t).toNat % 256
  let emode := if h.shadow = 0 then (s2.treg .mode c t).toNat else h.oldMode
  let s3 := s2.setTreg .epc c t (BitVec.ofNat 64 (h.pc % 65536))
  let s4 := s3.setTreg .estat c t (BitVec.ofNat 64 (saved + (if u.1 then 256 else 0) + (h.shadow % 4) <<< 10))
  let s5 := s4.setTreg .ecause c t (BitVec.ofNat 64 (vec + det <<< 24 + thread <<< 40 + status <<< 48))
  let s6 := (s5.setTreg .eaddr c t addr).setTreg .emode c t (BitVec.ofNat 64 emode)
  let s7 := ((s6.setTf wstat_LEVEL c t 1).setTf wstat_EXL c t 1).setTf wstat_IE c t 0
  let s8 := if vec = 8 then s7.setTf rstat_INH c t 1 else s7
  let h8 := s8.thr c t
  let first := if vec < 32 then h8.snap.cycle + 2 else h8.notBefore
  s8.setThr c t { h8 with st := .ready, wait := .none, armed := false, pc := 16 * vec, slot := none, shadow := 0, notBefore := first }

/-- A thread that cannot take a notice: STOPPED, SUSPENDED or HALTED (R125). -/
def State.away (s : State) (c t : Nat) : Bool :=
  match (s.thr c t).st with
  | .stopped | .suspended | .halted => true
  | _ => false

/-- Thread k is SUSPENDED: the TSTOPs that wait for it complete (R110). -/
def State.stopDone (s : State) (c k : Nat) : State :=
  (List.range 8).foldl (fun s j => if (s.thr c j).wait = .tstop k then
    s.setThr c j { s.thr c j with st := .ready, wait := .none } else s) s

/-- Suspend thread k with a fault record, and tell the supervisor thread of world `w`, or the Keeper's where that thread is
the faulting one or unavailable, or Rootstock where that one is too (R123 to R125). -/
def State.suspendNotice (s : State) (c k w vec det : Nat) (addr : Word) (status : Nat) : State :=
  let u := (s.landAll c k).undoSlot c k
  let s1 := u.2
  let h := s1.thr c k
  let s2 := s1.setTreg .tfpc c k
    (BitVec.ofNat 64 (h.pc % 65536 + (h.shadow % 4) <<< 16 + (if u.1 then 1 <<< 18 else 0)))
  let s3 := s2.setTreg .tfcause c k (BitVec.ofNat 64 (vec + det <<< 24 + status <<< 48))
  let s4 := s3.setTreg .tfaddr c k addr
  let s5 := (s4.setThr c k { s4.thr c k with st := .suspended, wait := .none, armed := false, stopReq := false, susVec := vec }).stopDone c k
  let bit := BitVec.ofNat 8 (2 ^ k)
  let r := s5.supOf c w
  let kr := s5.supOf c 1
  if !(r = k || s5.away c r) then
    let q := s5.core c
    if w = 1 then s5.setCore c { q with tfpendK := q.tfpendK ||| bit, tfnewK := q.tfnewK ||| bit }
    else s5.setCore c { q with tfpendT := q.tfpendT ||| bit, tfnewT := q.tfnewT ||| bit }
  else if !(kr = k || s5.away c kr) then
    let q := s5.core c
    s5.setCore c { q with tfpendK := q.tfpendK ||| bit, tfnewK := q.tfnewK ||| bit }
  else s5.send .coreFault [c, k, vec, det]

/-- Raise an exception at the thread's present place: taken by the thread itself, or the thread is suspended with a notice
(R118, R123). A notice of vectors 6 and 15 goes to the Keeper's supervisor thread. -/
def State.raise (s : State) (c t vec det : Nat) (addr : Word) (status : Nat) : State :=
  let w := s.world c t
  let self := s.tf wstat_SELF c t = 1 || s.supOf c w = t
  if vec = 6 || vec = 15 then s.suspendNotice c t 1 vec det addr status
  else if s.tf wstat_EXL c t = 1 then s.suspendNotice c t w vec det addr status
  else if vec = 8 && s.tf rstat_INH c t = 1 then s.suspendNotice c t w vec det addr status
  else if (1 ≤ vec && vec ≤ 5) || vec = 12 then
    (if self then s.enter c t vec det addr status 0 else s.suspendNotice c t w vec det addr status)
  else s.enter c t vec det addr status 0

/-- Return from an exception (R131, R132): refused returns take vector 11 at the current level with the saved registers
untouched. -/
def State.rfe (s : State) (c t : Nat) : State :=
  let h := s.thr c t
  let w := s.world c t
  let l := s.level c t
  let sv := s.tf estat_SAVED c t
  let bad := l < sv % 2 || (nbit sv 1 ≠ w && !(w = 1 && l = 1)) || s.tf estat_RSVD c t ≠ 0 || s.tf estat_SHADOW c t = 3
  if bad then
    let s1 := (s.setTreg .ecause c t 11).setTreg .eaddr c t (BitVec.ofNat 64 h.pc)
    let s2 := s1.landAll c t
    s2.setThr c t { s2.thr c t with pc := 16 * 11, slot := none, shadow := 0 }
  else
    let s1 := s.setTreg .wstat c t (BitVec.ofNat 64 (sv % 128 &&& 0x63))
    let s2 := s1.setTf rstat_INH c t 0
    s2.setThr c t { s2.thr c t with
      pc := s2.tf epc_ADDR c t * 4, slot := none, shadow := s2.tf estat_SHADOW c t, oldMode := (s2.treg .emode c t).toNat }

/-- Abandon the wait of a WAITING or SLEEPING thread (R136): its place returns to the waiting word, and an armed watch is
disarmed (R341). A SLEEP that an interrupt ends (`ends`) leaves the thread after it (R120). (DEDUCED: notes/assumptions/23.md.) -/
def State.abandon (s : State) (c t : Nat) (ends : Bool) : State :=
  let h := s.thr c t
  let s1 := match h.wait with
    | .fe _ _ a _ _ => if h.armed then s.send .request [c, t, 7, a.toNat] else s
    | _ => s
  let s2 := if h.wait = .none || (h.wait = .sleep && ends) then s1 else s1.restoreCtx c t h.snap
  s2.setThr c t { s2.thr c t with wait := .none, armed := false, poll := false }

/-! ### Issuing a word -/

/-- What a word does when its guard holds: it completes; it raises an exception before any effect; it is a branch with its
delay slot to come; it completes and goes on at an address (R87); it leaves the thread as it says, mostly waiting; or it is withheld and issues again. -/
inductive Fx where
  | done (s : State)
  | exc (vec det : Nat) (addr : Word) (status : Nat)
  | branch (s : State) (target : Option Nat)
  | goto (s : State) (pc : Nat)
  | hold (s : State)
  | again (s : State)
  deriving DecidableEq, Repr

/-- A guard field holds (R62). -/
def guardHolds (p : BitVec 8) (g : BitVec 4) : Bool :=
  if g = 0 then true
  else if 8 ≤ g.toNat then nbit p.toNat (g.toNat - 8) = 1
  else nbit p.toNat g.toNat = 0

/-- The end-of-body check of R88 for the word at `w`, whose next word is at `next` where no level goes round again: answers the next address and
the state, from level k − 1 down. -/
def State.loopEnd (s : State) (c t w next : Nat) : Nat → Nat × State
  | 0 => (next, s)
  | k + 1 =>
    let act := s.tf lstat_ACTIVE c t
    if nbit act k = 1 && s.tf lpa_END c t k * 4 = w then
      let h := s.thr c t
      let n := Sparse.get 0 h.lc k
      if 1 < n then
        (s.tf lpa_START c t k * 4, s.setThr c t { h with lc := Sparse.set 0 h.lc k (n - 1) })
      else
        ((s.setThr c t { h with lc := Sparse.set 0 h.lc k 0 }).setTf lstat_ACTIVE c t (act - 2 ^ k)).loopEnd c t w next k
    else s.loopEnd c t w next k

/-- Some active loop level ends at `w`, and the check is on (R89, R123). -/
def State.atLoopEnd (s : State) (c t w : Nat) : Bool :=
  s.tf wstat_EXL c t = 0 &&
    (List.range 4).any (fun k => nbit (s.tf lstat_ACTIVE c t) k = 1 && s.tf lpa_END c t k * 4 = w)

/-- After a word at `pc` that goes on at `next`: the next word's address by the delay slot and the loop end, and
one word of a shadow used (R78, R84, R88). -/
def State.advanceTo (s : State) (c t pc next : Nat) (loops : Bool) : State :=
  let h := s.thr c t
  let sh := h.shadow - 1
  let r : Nat × State := match h.slot with
    | some i => (i.target.getD next, s)
    | none => if loops && s.tf wstat_EXL c t = 0 then s.loopEnd c t pc next 4 else (next, s)
  let h2 := r.2.thr c t
  r.2.setThr c t { h2 with pc := r.1, slot := none, shadow := sh }

/-- After a word that goes on at the word after it (R78, R84, R88). -/
def State.advance (s : State) (c t pc : Nat) (loops : Bool) : State := s.advanceTo c t pc (pc + 4) loops

/-- A thread enters HALTED: writes in flight land, and what it was is kept, with its wait and, for its wait timeout, the cycles it has waited
(R736 to R739). -/
def State.halt (s : State) (c t cause : Nat) : State :=
  let s1 := (s.landAll c t).setTf dstat_CAUSE c t cause
  let h := s1.thr c t
  s1.setThr c t { h with st := .halted, preHalt := some h.st, haltReq := false, stepReq := false, waitStart := (s1.core c).cyc - h.waitStart }

/-- The single step (R737, R738): the thread is HALTED after the word it has issued, one that waits for a reply once that lands. -/
def State.stepHalt (s : State) (c t : Nat) : State :=
  let h := s.thr c t
  if h.stepReq || s.tf dstat_SS c t = 1 then
    match h.st with
    | .ready | .sleeping => s.halt c t 7
    | .waiting => s.setThr c t { h with haltReq := true, stepReq := true }
    | _ => s.setThr c t { h with stepReq := false }
  else s

/-- A waiting thread whose word has not issued: it issues again. -/
def Wait.withheld : Wait → Bool
  | .cacheRoom | .mqRoom | .wrf | .txHold => true
  | _ => false

/-- The last word address of a world's partition, plus one (R56, R57). -/
def fetchLimit (world : Nat) : Nat := if world = 1 then 0x4000 else 0xC000

/-- The breakpoint that matches the word at `pc`, if the thread's checks are not skipped (R736, R737). -/
def State.breakAt (s : State) (c t pc : Nat) : Option Nat :=
  if s.tf dstat_SKIP c t = 1 then none
  else (List.range 4).find? (fun k => s.tf dbp_EN c t k = 1 && s.tf dbp_ADDR c t k * 4 = pc)

/-- A debug stop: vector 13 on the thread, or the thread HALTED at the word (R736). -/
def State.debugStop (s : State) (c t cause act : Nat) (addr : Word) : State :=
  if act = 0 then (s.setTf dstat_CAUSE c t cause).raise c t 13 0 addr 0 else s.halt c t cause

/-- The end of a word whose operation takes effect: `f` is what the operation does at this state, and `s2` the state before the
word, from which an exception is taken. -/
def State.finish (s : State) (c t : Nat) (s2 : State) (f : Fx) : State :=
  let h := s.thr c t
  match f with
  | .exc v d a st => (s2.raise c t v d a st).stepHalt c t
  | .done s4 => (s4.advance c t h.pc true).stepHalt c t
  | .branch s4 tgt =>
    State.stepHalt (s4.setThr c t { s4.thr c t with
      pc := h.pc + 4, slot := some ⟨h.pc, tgt, h.rstack, s.tf lstat_ACTIVE c t, h.shadow⟩, shadow := h.shadow - 1 }) c t
  | .goto s4 p => (s4.advanceTo c t h.pc p true).stepHalt c t
  | .hold s4 => if (s4.thr c t).wait.withheld then s4 else s4.stepHalt c t
  | .again s4 => s4

/-! ### Register reads of a word -/

/-- A scalar register as the word reads it (R52, R53). -/
def State.x (s : State) (c t : Nat) (n : BitVec 5) : Word := Sparse.get 0 (s.thr c t).x n.toNat

/-- A vector register. -/
def State.vr (s : State) (c t : Nat) (n : BitVec 5) : Vec := Sparse.get 0 (s.thr c t).v (n.toNat % 16)

/-- A predicate. -/
def State.pr (s : State) (c t : Nat) (n : BitVec 5) : Bool := nbit (s.thr c t).p.toNat (n.toNat % 8) = 1

/-- A loop counter. -/
def State.lcr (s : State) (c t n : Nat) : Nat := Sparse.get 0 (s.thr c t).lc n

/-- Write a scalar register at distance d. -/
def State.outX (s : State) (c t : Nat) (n : BitVec 5) (v : Word) (d : Nat) : State := s.fly c t (.s n.toNat) v.toNat d

/-- Write a predicate at distance d. -/
def State.outP (s : State) (c t : Nat) (n : BitVec 5) (v : Bool) (d : Nat) : State :=
  s.fly c t (.p n.toNat) (if v then 1 else 0) d

/-! ### Encoding conditions (R63, R103) -/

/-- Detail 0x10 where a vector operand field is above 15. -/
def encV (l : List (BitVec 5)) : List Nat := if l.any (fun n => 16 ≤ n.toNat) then [0x10] else []

/-- Detail 0x10 where a predicate operand field is above 7. -/
def encP (l : List (BitVec 5)) : List Nat := if l.any (fun n => 8 ≤ n.toNat) then [0x10] else []

/-- Detail 0x11 where a field that must be zero is not. -/
def encZ (l : List Bool) : List Nat := if l.any (fun b => !b) then [0x11] else []

/-- A supervisor-only operation at user level (R103 detail 0x0F). -/
def State.supOnly (s : State) (c t : Nat) (k : Fx) : Fx := if s.level c t = 0 then .exc 1 0x0F 0 0 else k

end Sys2Proof.Machine
end

