-- ==== Sys2Proof/Machine/Access.lean ====
section
/-!
DEFINITION. The data accesses of a core: translation (R405 to R410), grants (R49), the data cache (R252 to R266), own-bank and
remote loads and stores (R75, R214, R215, R249, R250), and the order of a thread's writes (R325 to R330).
-/
namespace Sys2Proof.Machine

/-! ### Translation -/

/-- What translating an address gives: a place, a fault with its detail of vector 12, or a wait on a HOLD entry (R414). -/
inductive Tx where
  | to (p : Place)
  | fault (det : Nat)
  | hold (e : Nat)
  deriving DecidableEq, Repr

/-- The physical HBM page of a grant-relative page, by the lowest-numbered enabled extent that holds it (R406). -/
def State.grantPage (s : State) (plot g : Nat) : Option (Nat × Nat) :=
  ((List.range 64).find? (fun i => s.fld TU_GRANT_g_EN plot i = 1 && s.fld TU_GRANT_g_GBASE plot i ≤ g
      && g < s.fld TU_GRANT_g_GBASE plot i + s.fld TU_GRANT_g_COUNT plot i)).map
    (fun i => (s.fld TU_GRANT_g_STACK plot i, s.fld TU_GRANT_g_P plot i + g - s.fld TU_GRANT_g_GBASE plot i))

/-- The plot, extent and grant-relative page that a physical page serves (R406). -/
def State.grantOf (s : State) (p pg : Nat) : Option (Nat × Nat × Nat) :=
  (List.range 64).findSome? (fun n => (List.range 64).findSome? (fun i =>
    let p0 := s.fld TU_GRANT_g_P n i
    if s.fld TU_GRANT_g_EN n i = 1 && s.fld TU_GRANT_g_STACK n i = p && p0 ≤ pg && pg < p0 + s.fld TU_GRANT_g_COUNT n i
        && s.grantPage n (s.fld TU_GRANT_g_GBASE n i + pg - p0) = some (p, pg) then
      some (n, i, s.fld TU_GRANT_g_GBASE n i + pg - p0)
    else none))

/-- Word 1 of a range entry as the last commit of its word 0 took it (R408). -/
def State.rangeW1 (s : State) (plot e : Nat) : Word := Sparse.get 0 s.tuW1 (plot * 256 + e)

/-- The pages of a range entry in force. -/
def State.rangeCount (s : State) (plot e : Nat) : Nat := bitsOf (s.rangeW1 plot e) 63 32

/-- The first page or bank of a range entry in force. -/
def State.rangeBase (s : State) (plot e : Nat) : Nat := bitsOf (s.rangeW1 plot e) 31 0

/-- The bytes of a page of a range entry. -/
def State.rangePage (s : State) (plot e : Nat) : Nat := if s.fld TU_RANGE_W0_PS plot e = 1 then 2 ^ 30 else 2 ^ 21

/-- The enabled range entry of a plot that holds a virtual offset (R409). -/
def State.rangeEntry (s : State) (plot va : Nat) : Option Nat :=
  (List.range 256).find? (fun e => s.fld TU_RANGE_W0_EN plot e = 1 && s.fld TU_RANGE_W0_VBASE plot e * 2 ^ 21 ≤ va
    && va < s.fld TU_RANGE_W0_VBASE plot e * 2 ^ 21 + s.rangeCount plot e * s.rangePage plot e)

/-- The extent page that grant-relative pages g to g + 511 make up, if they are one physical 1 GiB page (R400, R408). -/
def State.gibPage (s : State) (plot g : Nat) : Option (Nat × Nat) :=
  match s.grantPage plot g with
  | none => none
  | some (st, pg) =>
    if pg % 512 = 0 && (List.range 512).all (fun i => s.grantPage plot (g + i) = some (st, pg + i)) then some (st, pg) else none

/-- The lookup of R409 for a translated HBM-window offset; a 1 GiB entry whose pages are not one physical 1 GiB page is served as
2 MiB translations (R415). -/
def State.lookEntry (s : State) (plot level va : Nat) (write : Bool) : Lk :=
  match s.rangeEntry plot va with
  | none => .fault 1
  | some e =>
    if s.fld TU_RANGE_W0_HOLD plot e = 1 then .hold e
    else if write && s.fld TU_RANGE_W0_W plot e = 0 then .fault 2
    else if level = 0 && s.fld TU_RANGE_W0_SUP plot e = 1 then .fault 3
    else
      let v0 := s.fld TU_RANGE_W0_VBASE plot e * 2 ^ 21
      let d := va - v0
      let mk := fun (unit target : Nat) => Lk.ok
        { plot := plot, mid := false, vbase := v0 + d / unit * unit, size := unit, target := target,
          w := s.fld TU_RANGE_W0_W plot e = 1, sup := s.fld TU_RANGE_W0_SUP plot e = 1 }
      if s.fld TU_RANGE_W0_KIND plot e = 0 then
        match (if s.fld TU_RANGE_W0_PS plot e = 1 then s.gibPage plot (s.rangeBase plot e + d / 2 ^ 30 * 512) else none) with
        | some (st, pg) => mk (2 ^ 30) (hbmAddr st (pg * 2 ^ 21))
        | none => match s.grantPage plot (s.rangeBase plot e + d / 2 ^ 21) with
          | none => .fault 4
          | some (st, pg) => mk (2 ^ 21) (hbmAddr st (pg * 2 ^ 21))
      else mk (2 ^ 21) (0x1000000000 + (s.rangeBase plot e % 2 ^ 14 + d / 2 ^ 21) * 0x400000 + 0x100000)

/-- The lookup of a virtual module ID (R410). -/
def State.lookMid (s : State) (plot mid : Nat) : Lk :=
  if mid < 4096 && s.fld TU_MODMAP_v_EN plot mid = 1 then
    .ok { plot := plot, mid := true, vbase := mid, size := 1, target := s.fld TU_MODMAP_v_ID plot mid, w := true, sup := false }
  else .fault 5

/-- The translation that cache `port` holds and that permits an access to `va`, or of virtual module ID `va` (R411). -/
def State.cachedTx (s : State) (port : Option Nat) (plot level va : Nat) (mid write : Bool) : Option TxEntry :=
  port.bind (fun n => (Sparse.get [] s.kp.tx n).find? (fun x => x.plot = plot && x.mid = mid && x.vbase ≤ va && va < x.vbase + x.size
    && (x.w || !write) && !(x.sup && level = 0)))

/-- A translation: what the agent's cache holds, or what the store answers (R409 to R411). -/
def State.look (s : State) (w : Who) (va : Nat) (mid write : Bool) : Lk :=
  match s.cachedTx w.port w.plot w.level va mid write with
  | some x => .ok x
  | none => if mid then s.lookMid w.plot va else s.lookEntry w.plot w.level va write

/-- The place of a translated HBM-window offset. -/
def State.lookup (s : State) (w : Who) (va : Nat) (write : Bool) : Tx :=
  match s.look w va false write with
  | .ok x => .to (s.localPlace (x.target + va - x.vbase))
  | .fault d => .fault d
  | .hold e => .hold e

/-- An offset in this module's HBM windows. -/
def inHbmWindow (off : Nat) : Bool := 0x10000000000 ≤ off && off < 0x18000000000

/-- The place an agent's address reaches, after translation (R405 to R410). A Tenant's offset in another module's HBM windows is not physical yet: that
module refuses what is not populated (R48). (DESIGN CHOICE: notes/assumptions/54.md.) -/
def State.translate (s : State) (w : Who) (a : Word) (write : Bool) : Tx :=
  let mid := a.toNat >>> 48
  let off := a.toNat % 2 ^ 48
  let id := s.fld MODULE_ID_ID 0 0
  let own := mid = 0xFFFF || (id ≠ 0xFFFF && mid = id)
  if own then
    (if w.world = 0 && inHbmWindow off then s.lookup w off write else .to (s.localPlace off))
  else if id = 0xFFFF then .fault 6
  else if w.world = 1 then .to (s.place a)
  else match s.look w mid true false with
    | .fault d => .fault d
    | .hold e => .hold e
    | .ok x =>
      if x.target = id || x.target = 0xFFFF then
        (if inHbmWindow off then s.lookup w off write else .to (s.localPlace off))
      else if inHbmWindow off then .to (.remote x.target off)
      else match s.localPlace off with
        | .reserved => .to .reserved
        | _ => .to (.remote x.target off)

/-- The word of a thread finds no translation in its core's cache for what its address needs (R411). -/
def State.txMiss (s : State) (w : Who) (a : Word) (write : Bool) : Bool :=
  let mid := a.toNat >>> 48
  let off := a.toNat % 2 ^ 48
  let id := s.fld MODULE_ID_ID 0 0
  let page := inHbmWindow off && (s.cachedTx w.port w.plot w.level off false write).isNone
  if w.world = 1 then false
  else if mid = 0xFFFF || (id ≠ 0xFFFF && mid = id) then page
  else if id = 0xFFFF then false
  else match s.cachedTx w.port w.plot w.level mid true false with
    | none => true
    | some x => (x.target = id || x.target = 0xFFFF) && page

/-- The place of a word's access: a wait where its core's cache misses (R411). -/
def State.translateWord (s : State) (w : Who) (a : Word) (write : Bool) : Tx :=
  if s.txMiss w a write then .hold 0 else s.translate w a write

/-- The physical cellar bank of core n backs a page of its plot's pool range (R267, R270). -/
def State.poolBacked (s : State) (n : Nat) : Bool :=
  match s.logicalOf n with
  | none => false
  | some l =>
    let plot := s.fld CTX_BIND_PLOT n 0
    (List.range 256).any (fun e => s.fld TU_RANGE_W0_EN plot e = 1 && s.fld TU_RANGE_W0_KIND plot e = 1
      && s.rangeBase plot e % 2 ^ 14 ≤ l
      && l < s.rangeBase plot e % 2 ^ 14 + s.rangeCount plot e)

/-! ### A bank's own accesses (R234, R240 to R251) -/

/-- Count a finding in the bank register of core n: a correction or an uncorrectable code word at window offset `off` (R242, R250, R274). -/
def State.countErr (s : State) (n off : Nat) : State :=
  let scratch := off < 0x40000
  let cw := if scratch then off / 32 else (off - 0x100000) / 32
  let r : RegName := if scratch then .MEM_ERR_S else .MEM_ERR_C
  let w := s.reg r n 0
  let inc := fun hi lo => min (bitsOf w hi lo + 1) 0xFFFF
  match s.finding (bankAddr n off) with
  | .clean => s
  | .one i _ => s.setReg r n 0 (withBits (withBits (withBits (withBits w 63 48 (inc 63 48)) 31 26 i) 25 25 0) 15 0 cw)
  | .bad => s.setReg r n 0 (withBits (withBits (withBits w 47 32 (inc 47 32)) 25 25 1) 15 0 cw)

/-- What an access finds in a code word is reported to the Keeper, which writes a record of every uncorrectable finding, and of a correction where it is
the first at its row, column or page in 24 h: a free value tells whether it is (R251, R599, R605). (DESIGN CHOICE: notes/assumptions/87.md.) -/
def State.reportFinding (s : State) (f : SzFinding) (cls plot a : Nat) : State :=
  match f with
  | .clean => s
  | .one i _ => let q := s.free; if q.1 % 2 = 1 then q.2.faultRec cls 0x01 plot i a else q.2
  | .bad => s.faultRec 0x12 0x00 plot 0x0401 a

/-- A finding in a code word of core n's banks: counted, and reported. -/
def State.bankFinding (s : State) (n off : Nat) : State :=
  let a := bankAddr n off / 32 * 32
  (s.countErr n off).reportFinding (s.finding a) 0x01 (s.plotOf n) a

/-- The code word's write-back is due (R243). -/
def State.dueBack (s : State) (n off : Nat) : State :=
  let k := s.core n
  let w := bankAddr n off / 32
  if k.corrDue.contains w then s else s.setCore n { k with corrDue := k.corrDue ++ [w] }

/-- A code word of core n is read in an access: what the code delivers stands, and a correction is counted, reported and due to be written back
(R242, R243). -/
def State.readWord (s : State) (n off : Nat) : State :=
  let a := bankAddr n off
  if s.pat a = 0 then s
  else
    match s.finding a with
    | .one _ _ => ((s.asRead a).bankFinding n off).dueBack n off
    | _ => s.asRead a

/-- A code word of core n is written: no symbol is in error, and its write-back is dropped (R243). -/
def State.wroteWord (s : State) (n off : Nat) : State :=
  let a := bankAddr n off
  let s1 := s.setPat a 0
  let k := s1.core n
  s1.setCore n { k with corrDue := k.corrDue.filter (fun w => w ≠ a / 32) }

/-- The window offsets of the code words that n bank bytes touch. -/
def wordsOf (off n : Nat) : List Nat := codeWords off n

/-- An access of n bytes of a bank finds its first uncorrectable code word (R248 to R250). -/
def State.foundBad (s : State) (core off n : Nat) : State :=
  s.bankFinding core (((wordsOf off n).find? (fun o => s.uncorrectable (bankAddr core o))).getD off)

/-- The code words of n bank bytes are read, none of them uncorrectable. -/
def State.readWords (s : State) (core off n : Nat) : State := (wordsOf off n).foldl (fun s o => s.readWord core o) s

/-- A read of n bank bytes: none where a code word is uncorrectable; a single symbol in error is corrected, counted and its
write-back made due (R242, R243). -/
def State.bankRead (s : State) (core off n : Nat) : Option Nat × State :=
  let a := bankAddr core off
  if s.anyBad a n then (none, s.foundBad core off n)
  else
    let s1 := s.readWords core off n
    (some (s1.readLE a n), s1)

/-- n bank bytes are written under a byte mask, in code words that the access has read (R234): they are left without error, and their write-backs are
dropped (R243). -/
def State.bankPut (s : State) (core off n mask v : Nat) : State :=
  (wordsOf off n).foldl (fun s o => s.wroteWord core o) (s.writeMask (bankAddr core off) n mask v)

/-- A write of the tag of one word of a bank, in an access of its code word (R234, R243, R250). -/
def State.tagWord (s : State) (core off t : Nat) : State :=
  if s.uncorrectable (bankAddr core off) then s.bankFinding core off
  else ((s.readWord core off).wroteWord core off).setTag (bankAddr core off) t

/-- A write of n bank bytes under a byte mask, a read-modify-write of each code word (R234): not carried out on an uncorrectable code word, counted
there (R250). -/
def State.bankWrite (s : State) (core off n mask v : Nat) : Bool × State :=
  if s.anyBad (bankAddr core off) n then (false, s.foundBad core off n)
  else (true, (s.readWords core off n).bankPut core off n mask v)

/-- A window offset lies in the scratch or the cellar bank (R232). -/
def bankOff (off : Nat) : Bool := off < 0x40000 || (0x100000 ≤ off && off < 0x300000)

/-- A read of TAG_DATA (R274), an access of the bank: the tags of the code word that TAG_ADDR names, or ERR where there is none or its tags cannot be
read. -/
def State.tagRead (s : State) (n : Nat) : State :=
  let off := s.fld TAG_ADDR_CW_OFF n 0 * 32
  let a := bankAddr n off
  if !bankOff off then s.setReg .TAG_DATA n 0 (BitVec.ofNat 64 (2 ^ 31))
  else if s.uncorrectable a then (s.bankFinding n off).setReg .TAG_DATA n 0 (BitVec.ofNat 64 (2 ^ 31))
  else
    let s1 := s.readWord n off
    let fe := (List.range 4).foldl (fun v w => v + (s1.tag (a + 8 * w) / 4) <<< w) 0
    let sc := (List.range 4).foldl (fun v w => v + (s1.tag (a + 8 * w) % 4) <<< (4 + 2 * w)) 0
    s1.setReg .TAG_DATA n 0 (BitVec.ofNat 64 (fe + sc))

/-! ### Registers as an access sees them -/

/-- The grants of R49: whether a Tenant agent of `plot` may access the register, to read or to write. -/
def State.granted (s : State) (plot : Nat) (r : RegAt) (page1 : Bool) (write : Bool) : Bool :=
  match r.r.desc.blk with
  | .queue => s.fld QP_BIND_KEEPER r.u 0 = 0 && s.fld QP_BIND_PLOT r.u 0 = plot
  | .dma => r.u < 256 && s.fld DMA_BIND_BOUND r.u 0 = 1 && s.fld DMA_BIND_PLOT r.u 0 = plot
      && !(write && r.r = .DMA_BIND)
  | .port => !write && (r.r = .PORT_STAT || r.r = .PORT_ERR || r.r = .PORT_DROP)
      && nbit (s.reg .PORT_PLOTS r.u 0).toNat plot = 1
  | .tu => r.u = plot && !(write && (r.r = .TU_GRANT_g || r.r = .TU_MODMAP_v))
  | .time => page1 && !write
  | .serve => !write && (r.r = .SRV_STAT_W0 || r.r = .SRV_STAT_W1) && r.i = plot
  | .rack => !write && (r.r = .RACK_PLOT_W0 || r.r = .RACK_PLOT_W1) && r.i = plot
  | _ => false

/-- Core MMRs that only the Keeper accesses, or writes (R113, R274, R633, R666). -/
def coreMmrKeeper (r : RegName) (write : Bool) : Bool :=
  match r with
  | .BANK_ARB | .MEM_ERR_S | .MEM_ERR_C | .CORE_CHK => true
  | .THREAD_CTL | .WRANGE_CTL | .WRANGE_n | .CTX_BIND => write
  | _ => false

/-- Core MMRs that only threads of the same core reach (R366, R492, R494, R741, R746). -/
def coreMmrOwnOnly (r : RegName) (write : Bool) : Bool :=
  match r with
  | .SEND_DATA_w | .SEND_DEST | .SEND_COMMIT | .SEND_STAT => true
  | .DMAC_GO | .KEXIT => write
  | _ => false

/-- Registers reached only over the debug side path (R746). -/
def coreMmrDebug (r : RegName) : Bool := r = .DBG_RUN || r = .DBG_STAT

/-- The detail of R116 for an access to the code word that POISON_CLR or TAG_DATA names (R274): none outside the banks. -/
def State.codeWordCheck (s : State) (n off : Nat) (w : Who) : Option Nat := if bankOff off then s.worldCheck n off w else none

/-- The detail of vector 3 with which an access of one register is refused, if it is (R48, R49, R113, R126, R274).
(DEDUCED: notes/assumptions/88.md.) -/
def State.regCheck (s : State) (p : Place) (r : RegAt) (w : Who) (write : Bool) : Option Nat :=
  match p with
  | .coreMmr n off =>
    match s.worldCheck n off w with
    | some d => some d
    | none =>
      if w.world = 0 && coreMmrKeeper r.r write then some 6
      else if coreMmrOwnOnly r.r write && w.core ≠ some n then some 6
      else if coreMmrDebug r.r then some 6
      else if w.level = 0 && r.r = .TAG_DATA then some 3
      else if w.level = 0 && write && (r.r = .POISON_CLR || r.r = .SYNC_CTL || r.r = .STREAM_SEL_0
          || r.r = .STREAM_SEL_1 || r.r = .WDOG_CTL || r.r = .TCLASS || r.r = .POT_HOLD) then some 3
      else if r.r = .TAG_DATA then s.codeWordCheck n (s.fld TAG_ADDR_CW_OFF n 0 * 32) w
      else none
  | .root off => if w.world = 1 || s.granted w.plot r (off % 0x10000 / 0x1000 = 1) write then none else some 6
  | _ => if w.world = 1 || s.granted w.plot r false write then none else some 6

/-- The detail of vector 3 with which an access of n bytes of MMR space is refused, if it is: at the register that its address names, or at the
second one that it reaches (R47, R48). -/
def State.mmrCheck (s : State) (p : Place) (w : Who) (n : Nat) (write : Bool) : Option Nat :=
  match p.regAt with
  | none => some 5
  | some r => (s.regCheck p r w write).orElse (fun _ => (p.upper n).bind (fun u => s.regCheck p.up4 u w write))

/-- The detail of vector 3 with which a write of value v is refused for what it names (R59, R274). -/
def State.mmrValueCheck (s : State) (p : Place) (w : Who) (v : Nat) : Option Nat :=
  match p.regAt with
  | none => none
  | some r => match r.r with
    | .IMEM_PTR => if w.world = 0 && nbit v IMEM_PTR_PART.lo = 1 then some 7 else none
    | .POISON_CLR => s.codeWordCheck r.u (bitsOf (BitVec.ofNat 64 v) 21 5 * 32) w
    | _ => none

/-- Registers of which their chapters say that reads depend on timing (R323, R358, R397, R457, R559, R596, R688, R691, R748, R766).
(DEDUCED: notes/assumptions/12.md.) -/
def RegName.timingDep : RegName → Bool
  | .POT_SLOT_n | .POT_ORPHAN | .WATCH_STAT | .SCOPE_MISMATCH_CNT | .SMX_INFO | .SMX_ADDR | .TIME_NOW_0 | .TIME_NOW_1
  | .TIME_STAT | .TIME_SRC | .PPS_TS | .DMA_STAT | .DMA_COUNT | .PORT_ERR | .PORT_DROP | .FAB_STREAM | .FAB_CONN
  | .SRV_MOD | .SRV_STAT_W0 | .SRV_STAT_W1 | .RACK_STAT | .RACK_PLOT_W0 | .RACK_PLOT_W1 | .LB_STAT_i | .PWR_STAT | .PWR_EVT => true
  | _ => false

/-- Count a timing-dependent read of a Tenant thread (R559). -/
def State.probe (s : State) (c t : Nat) : State := if s.world c t = 0 then s.bump DET_CNT_PROBE c 0 else s

/-- CORE_STATE as a read of ISLAND_STATUS shows it (R50): an island of a gated half is power-gated, and one that is neither fenced nor
draining is idle while some thread of its cores sleeps and none is READY or WAITING. (DESIGN CHOICE: notes/assumptions/106.md.) -/
def State.liveCoreState (s : State) (p i : Nat) : Nat :=
  let st := s.fld ISLAND_STATUS_CORE_STATE p i
  let threads : List TState := (((List.range 1296).map (fun n => p * 1296 + n)).filter (fun n => coreIsland n = i)).flatMap (fun n =>
    (List.range 8).map (fun t => (s.thr n t).st))
  if st ≠ 0 then st
  else if s.gated p (if i % 10 < 5 then 0 else 1) then 2
  else if threads.contains .sleeping && !threads.contains .ready && !threads.contains .waiting then 1
  else 0

/-- What a read of a register shows: live values, then R8's rules. Per-thread copies are those of the reading thread. -/
def State.mmrValue (s : State) (r : RegAt) (w : Who) : Word :=
  let t := w.thread.getD 0
  match r.r with
  | .SEND_DEST | .SEND_STAT => s.reg r.r r.u (t * 32)
  | .ISLAND_STATUS => withBits (r.r.readable (s.reg r.r r.u r.i)) 2 0 (s.liveCoreState r.u r.i)
  | .WATCH_STAT => withBits (s.reg r.r r.u r.i) 5 0 (s.core r.u).watches.length
  | _ => r.r.readable (s.reg r.r r.u r.i)

/-- Read a register: its value, and the state with the RC fields cleared, unless the reader is a Tenant agent through its
grants of other blocks or the read-only time page (R8, R49, R723). -/
def State.regRead (s0 : State) (p : Place) (r : RegAt) (w : Who) : Word × State :=
  let s := if r.r = .TAG_DATA then s0.tagRead r.u else s0
  let v := s.mmrValue r w
  let keep : Bool := match p with
    | .root _ | .mmr _ => decide (w.world = 0) && (r.r.desc.blk = .port || r.r.desc.blk = .time || r.r.desc.blk = .serve
        || r.r.desc.blk = .rack) || (match p with | .root off => r.r.desc.blk = .time && off % 0x10000 / 0x1000 = 1 | _ => false)
    | _ => false
  (v >>> (8 * r.byte), if keep then s else s.setReg r.r r.u r.i (r.r.afterRead (s.reg r.r r.u r.i)))

/-- A read of n bytes at a place of MMR space: the register there, and above it the second 32-bit register that an 8-byte access reaches (R47). -/
def State.mmrRead (s : State) (p : Place) (w : Who) (n : Nat) : Word × State :=
  match p.regAt with
  | none => (0, s)
  | some r =>
    let lo := s.regRead p r w
    match p.upper n with
    | none => lo
    | some u => let hi := lo.2.regRead p.up4 u w; (lo.1 + hi.1 <<< 32, hi.2)

/-- Count a thread's load that a timing-dependent register answers (R559). -/
def State.probeLoad (s : State) (c t : Nat) (p : Place) : State :=
  match p.regAt with
  | some r => if r.r.timingDep then s.probe c t else s
  | none => s

/-! ### A thread's writes (R325 to R330) -/

/-- The smallest scope whose region around core c holds a place (R325). -/
def scopeTo (c : Nat) : Place → Nat
  | .bank n _ => if n = c then 0 else if coreP n = coreP c then 1 else 2
  | .hbm p _ => if p = coreP c then 1 else 2
  | .remote _ _ => 3
  | _ => 2

/-- A write of the thread leaves the core and is not yet acknowledged; writes to the own banks are acknowledged at once.
(DESIGN CHOICE: notes/assumptions/90.md.) -/
def State.noteWrite (s : State) (c t : Nat) (p : Place) : State :=
  let sc := scopeTo c p
  if sc = 0 then s
  else
    let h := s.thr c t
    s.setThr c t { h with outw := h.outw ++ [⟨h.nextW, sc⟩], nextW := h.nextW + 1 }

/-! ### Waits of a word -/

/-- A thread of the core waits: it is WAITING for what `w` says, from the word just issued. -/
def State.waitOn (s : State) (c t : Nat) (w : Wait) : State :=
  let h := s.thr c t
  s.setThr c t { h with st := .waiting, wait := w, waitStart := (s.core c).cyc }

/-- The word's thread waits for a lookup, which its core's cache sends (R411). (DESIGN CHOICE: notes/assumptions/54.md.) -/
def State.txWait (s : State) (c t : Nat) (a : Word) (write : Bool) : State :=
  let w := s.who c t
  let x : Lookup := { port := c, thread := some t, plot := w.plot, sup := w.level = 1, addr := a, write := write }
  let s1 := { s with kp := { s.kp with lookups := s.kp.lookups.filter (fun y : Lookup => !(y.port = c && y.thread = some t)) ++ [x] } }
  s1.waitOn c t .txHold

/-- A bypassing access of a word leaves once the write-backs of the lines it touches are acknowledged: until then the word is withheld, and its thread
not ready (R254). (DEDUCED: notes/assumptions/95.md.) -/
def State.afterFlush (s : State) (c t : Nat) (a : Word) (n : Nat) (k : State → Fx) : Fx :=
  if s.bypassWaits c a n then .hold ((s.bypassFlush c a n).waitOn c t .cacheRoom) else k s

/-- A word that has issued fails when its reply lands: the thread stands at it again and takes the exception (R79, R129). -/
def State.failWord (s : State) (c t vec det : Nat) (a : Word) (status : Nat) : State :=
  ((s.restoreCtx c t (s.thr c t).snap).ready c t).raise c t vec det a status

/-- A thread of the core sleeps (R133). -/
def State.sleepOn (s : State) (c t : Nat) (w : Wait) : State :=
  let h := s.thr c t
  s.setThr c t { h with st := .sleeping, wait := w, waitStart := (s.core c).cyc }

/-! ### The checks of a data access -/

/-- The watchpoint that an access of the thread matches (R736, R737): line and directions. -/
def State.watchHit (s : State) (c t : Nat) (a : Word) (n : Nat) (read write : Bool) : Option Nat :=
  if s.tf dstat_SKIP c t = 1 then none
  else (List.range 2).find? (fun k => s.tf dwp_EN c t k = 1 && ((write && s.tf dwp_WR c t k = 1) || (read && s.tf dwp_RD c t k = 1))
    && (s.tf dwp_LINE c t k = a.toNat / 64 || s.tf dwp_LINE c t k = (a.toNat + n - 1) / 64))

/-- The checks every data access of a word makes before it has an effect, in the order of R122: misaligned, page fault,
watchpoint, data access. On success the place it reaches. -/
inductive Chk where
  | ok (p : Place)
  | bad (f : Fx)
  deriving DecidableEq, Repr

/-- The bank of own-core offset `off` keeps this cycle for its network port: a word that accesses it is withheld and issues at
the thread's next opportunity (R237). -/
def State.portHeld (s : State) (c off : Nat) : Bool :=
  (s.core c).reserved = some (decide (0x100000 ≤ off), (s.core c).cyc)

/-- The bytes of an accumulator's image (R195). -/
def imageLen (typ : Nat) : Nat := if typ = 1 then 4128 else 1024

/-- The blocks of an image: block number and its bytes (R179). -/
def imageBlocks (typ : Nat) : List (Nat × Nat) :=
  if typ = 1 then (List.range 64).map (fun b => (b, 64)) ++ [(64, 32)] else (List.range 16).map (fun b => (b, 64))

/-- An access of n bytes at place p shares a byte with the image at `a`. -/
def State.onImage (s : State) (w : Who) (p : Place) (n : Nat) (a : Word) (len : Nat) : Bool :=
  (List.range ((len + 63) / 64)).any (fun b =>
    match s.translate w (a + BitVec.ofNat 64 (64 * b)) false with
    | .to q => match p.spot, q.spot with
      | some (m, x), some (k, y) => m = k && x < y + min 64 (len - 64 * b) && y < x + n
      | _, _ => false
    | _ => false)

/-- An access to an own bank shares a byte with a release of the core that still waits for its thread's writes (R77, R326, R328). -/
def State.releaseOrder (s : State) (c : Nat) (w : Who) (p : Place) (n : Nat) : Bool :=
  match p with
  | .bank m _ => m = c && (List.range 8).any (fun u => (s.thr c u).held.any (fun r =>
      s.onImage w p n r.addr (if r.kind = 9 then 8 * r.data.toNat else 8)))
  | _ => false

/-- An access shares a byte with an image that an earlier word stores or loads, and that has not been moved (R77, R196, R326), or with a release that
has not left (R328): a load of an image orders only writes. -/
def State.imageOrder (s : State) (c t : Nat) (p : Place) (n : Nat) (write : Bool) : Bool :=
  let k := s.core c
  let w := s.who c t
  k.mq.any (fun e => !e.void && match e.op with
      | .astx _ a => !e.running && s.onImage w p n a (imageLen e.typ)
      | .aldx _ a => write && s.onImage w p n a (imageLen (if e.mode % 2 = 0 then 1 else 2))
      | .aldxAdd _ a => write && s.onImage w p n a (imageLen e.typ)
      | _ => false)
    || k.images.any (fun i => match i.area with | some (a, l) => s.onImage w p n a l | none => false)
    || s.releaseOrder c w p n

/-- The checks of an access to a place of this module that answers for itself (R48, R49, R98, R116, R237, R270). (DEDUCED: notes/assumptions/98.md.) -/
def State.checkPlace (s : State) (c t : Nat) (a : Word) (n : Nat) (write : Bool) (p : Place) : Chk :=
  let w := s.who c t
  match p with
  | .reserved => .bad (.exc 3 5 a 0)
  | .noId => .bad (.exc 12 6 a 0x0402)
  | .bank m off =>
    match s.worldCheck m off w with
    | some d => .bad (.exc 3 d a 0)
    | none =>
      if (m = c || w.world = 0) && 0x100000 ≤ off && s.poolBacked m && !inHbmWindow (a.toNat % 2 ^ 48) then .bad (.exc 3 2 a 0)
      else if write && s.spillRefuses m off n w then .bad (.exc 3 0x0C a 0)
      else if m = c && !inHbmWindow (a.toNat % 2 ^ 48) && s.portHeld c off then .bad (.again s)
      else .ok p
  | .coreMmr _ _ | .mmr _ | .root _ =>
    match s.mmrCheck p w n write with
    | some d => .bad (.exc 3 d a 0)
    | none => .ok p
  | _ => .ok p

/-- The place lies in another core that the seam proxy or a fence answers for (R39, R48). -/
def State.aheadOf (s : State) (c : Nat) (p : Place) : Bool :=
  match p with
  | .bank m _ | .coreMmr m _ => m ≠ c && s.answeredAhead m
  | _ => false

/-- The checks of a data access of n bytes (R47, R48, R116, R215, R412, R737); an access that shares bytes with an image still to be moved is
withheld (R196; DEDUCED: notes/assumptions/101.md.) A request that is answered before it reaches its core meets none of that
core's checks (R39, R48, R116). An atomic both reads and writes, and a range operation is checked by no watchpoint (R736). -/
def State.check (s : State) (c t : Nat) (a : Word) (n : Nat) (aligned write : Bool) (read : Bool := !write) : Chk :=
  if !aligned then .bad (.exc 2 0 a 0)
  else match s.translateWord (s.who c t) a write with
    | .fault d => .bad (.exc 12 d a 0x0402)
    | .hold _ => .bad (.hold (s.txWait c t a write))
    | .to p =>
      if s.regSpace p && s.mmrShape p a n then .bad (.exc 2 0 a 0)
      else match s.watchHit c t a n read write with
        | some k => .bad (.hold (s.debugStop c t (k + 5) (s.tf dwp_ACT c t k) a))
        | none => match (if s.aheadOf c p then .ok p else s.checkPlace c t a n write p) with
          | .ok q => if s.imageOrder c t q n write then .bad (.again s) else .ok q
          | b => b

/-- Distances of a load from own scratch, own cellar and the cache (R75, R152). -/
structure LoadDist where
  scratch : Nat
  cellar : Nat
  hit : Nat
  deriving DecidableEq, Repr

/-- An own-bank load that finds its code word uncorrectable (R249): vector 3 at the first word boundary, with lderr. -/
def State.loadFault (s : State) (c t : Nat) (a : Word) : Fx :=
  let h := s.thr c t
  let s1 := (s.setTf lderr_SKIP c t 0).setTf lderr_NEXT c t (((s.advance c t h.pc true).thr c t).pc / 4)
  .hold (s1.raise c t 3 4 a 0x0401)

/-! ### The cache's loads and stores -/

/-- Deliver what has landed of fill `fid` to the threads that wait for it, or the failing status to those that wait for its bytes `bad`
(R79, R257). -/
def State.deliverFill (s : State) (c fid : Nat) (bad : BitVec 64) (status : Nat) : State :=
  match (s.core c).fillEntry fid with
  | none => s
  | some e =>
    (List.range 8).foldl (fun s t =>
      let h := s.thr c t
      if h.st ≠ .waiting then s
      else match h.wait with
        | .fill dest n a f =>
          let m := byteMask (a.toNat % 64) n
          if f ≠ fid then s
          else if m &&& bad ≠ 0 then s.failWord c t 3 4 a status
          else if e.left &&& m = 0 then (s.landOne c t ⟨dest, lineBytes e.data (a.toNat % 64) n, 0⟩).ready c t
          else s
        | .preload first _ last =>
          if bad ≠ 0 && inLines first last e.line then s.failWord c t 3 4 (lineAddr e.line) status else s
        | _ => s) s

/-- A cached load of n bytes: a hit at distance d, a wait on a fill, or a miss (R256, R257, R261). While the cache is off the access bypasses it
(R266). -/
def State.cacheLoad (s : State) (c t : Nat) (a : Word) (n : Nat) (dest : Dest) (d : Nat) : Fx :=
  let w := s.world c t
  if s.fld ccfg_EN c 0 = 0 then
    s.afterFlush c t a n (fun s => .done ((s.depart c (.word t) a n [0] [c, t, 0, a.toNat, n]).waitOn c t (.load dest n a none)))
  else
    let line := s.lineOf a
    let m := byteMask (a.toNat % 64) n
    let s0 := s.purgeKeeper c w line
    let full := fun (s : State) => Fx.hold (s.waitOn c t .cacheRoom)
    let miss := fun (s : State) => s.bumpWrap cmiss_MISSES c 0
    let fill := fun (e : CEntry) (s : State) =>
      let r := (miss s).startFill c t e a
      Fx.done (r.2.waitOn c t (.fill dest n a r.1))
    if s0.fetchHolds c line m then full s0
    else
      let s1 := s0.sideMove c w line
      match s1.entry c line with
      | some e =>
        if e.valid &&& m = m then
          .done (((s1.putEntry c e).bumpWrap chit_HITS c 0).fly c t dest (lineBytes e.data (a.toNat % 64) n) d)
        else if e.left ≠ 0 then
          (if m &&& ~~~(e.valid ||| e.left) = 0 then .done ((miss s1).waitOn c t (.fill dest n a e.fid)) else full s1)
        else if 16 ≤ (s1.core c).fills then full s1
        else fill e s1
      | none =>
        if 16 ≤ (s1.core c).fills then full s1
        else match s1.allocate c line w with
          | none => full s1
          | some (e, s2) => fill e s2

/-- A cached store of n bytes: it hits, or allocates and fetches nothing (R258); the bytes it gives are there for the accesses that wait for them
(R77, R257). -/
def State.cacheStore (s : State) (c t : Nat) (a : Word) (n v : Nat) (p : Place) : Fx :=
  let w := s.world c t
  if s.fld ccfg_EN c 0 = 0 then
    s.afterFlush c t a n (fun s =>
      .done (((s.bypassGo c a n true).depart c (.write t (s.thr c t).nextW) a n [0] [c, t, 1, a.toNat, n, v, (s.thr c t).nextW]).noteWrite c t p))
  else
    let line := s.lineOf a
    let m := byteMask (a.toNat % 64) n
    let s0 := s.purgeKeeper c w line
    if s0.fetchHolds c line m then .hold (s0.waitOn c t .cacheRoom)
    else
      let s1 := s0.sideMove c w line
      let hit := ((s1.entry c line).map (fun e => decide (e.valid &&& m = m))).getD false
      match s1.allocate c line w with
      | none => .hold (s1.waitOn c t .cacheRoom)
      | some (e, s2) =>
        let d := BitVec.ofNat 512 ((v % 2 ^ (8 * n)) <<< (8 * (a.toNat % 64)))
        let s3 := if hit then s2.bumpWrap chit_HITS c 0 else s2.bumpWrap cmiss_MISSES c 0
        .done ((s3.putEntry c { e with
          valid := e.valid ||| m, dirty := e.dirty ||| m, data := mergeBytes e.data d m, left := e.left &&& ~~~m }).deliverFill c e.fid 0 0)

/-- What a register of this module gives for a load of MMR space that reaches it (R8, R47, R559): another module, a seam proxy or a fence answers
in its place (R39, R48). -/
def State.mmrLoad (s : State) (c t : Nat) (p : Place) (n : Nat) : Option Nat × State :=
  if !p.isMmr || s.aheadOf c p then (none, s)
  else
    let r := s.mmrRead p (s.who c t) n
    (some (r.1.toNat % 2 ^ (8 * n)), r.2.probeLoad c t p)

/-- A place in the own banks that an address names outside the HBM windows: its offset (R252). -/
def Place.ownBank (p : Place) (c : Nat) (a : Word) : Option Nat :=
  match p with
  | .bank m off => if m = c && !inHbmWindow (a.toNat % 2 ^ 48) then some off else none
  | _ => none

/-- A place in the own banks (R252). -/
def Place.isOwnBank (p : Place) (c : Nat) (a : Word) : Bool := (p.ownBank c a).isSome

/-- A load of n bytes into a destination (R75, R79, R214, R249, R252, R257). (DESIGN CHOICE: notes/assumptions/21.md.) -/
def State.load (s : State) (c t : Nat) (a : Word) (n : Nat) (dest : Dest) (d : LoadDist) : Fx :=
  match s.check c t a n (a.toNat % n = 0) false with
  | .bad f => f
  | .ok p =>
    match p.ownBank c a with
    | some off =>
      match s.bankRead c off n with
      | (none, s1) => s1.loadFault c t a
      | (some v, s1) => .done (s1.fly c t dest v (if off < 0x40000 then d.scratch else d.cellar))
    | none =>
      if s.regSpace p then
        let r := s.mmrLoad c t p n
        .done ((r.2.depart c (.word t) a n [0] [c, t, 0, a.toNat, n]).waitOn c t (.load dest n a r.1))
      else s.cacheLoad c t a n dest d.hit

/-- A store of n bytes (R214, R215, R250, R252, R258). A store to MMR space is not posted: the thread waits for its reply.
(DESIGN CHOICE: notes/assumptions/21.md.) (DESIGN CHOICE: notes/assumptions/90.md.) -/
def State.store (s : State) (c t : Nat) (a : Word) (n v : Nat) : Fx :=
  match s.check c t a n (a.toNat % n = 0) true with
  | .bad f => f
  | .ok p =>
    match p.ownBank c a with
    | some off => .done (s.bankWrite c off n (2 ^ n - 1) (v % 2 ^ (8 * n))).2
    | none =>
      if s.regSpace p then
        match (if s.aheadOf c p then none else s.mmrValueCheck p (s.who c t) v) with
        | some d => .exc 3 d a 0
        | none => .done ((s.depart c (.word t) a n [0] [c, t, 1, a.toNat, n, v % 2 ^ (8 * n)]).waitOn c t (.mmrStore a))
      else s.cacheStore c t a n v p

end Sys2Proof.Machine
end

