-- ==== Sys2Proof/Machine/Operands.lean ====
section
/-!
DEFINITION. The operand forms of a core's words: immediates (R61, R63), option fields (R217), the scalar results of R210 to
R213, and the slots of a pair word (R65, R66).
-/
namespace Sys2Proof.Machine

/-! ### Immediates and result functions -/

/-- IMM15 sign-extended. -/
def immS (w : LI) : Word := w.imm.signExtend 64

/-- IMM15 zero-extended. -/
def immZ (w : LI) : Word := w.imm.zeroExtend 64

/-- The 10-bit immediate of B and C (R63). -/
def immBC (w : LR) : Nat := w.b.toNat * 32 + w.c.toNat

/-- Bitwise operations (R210). -/
def logicVal (op : LogicOp) (x y : Word) : Word :=
  match op with
  | .and => x &&& y | .or => x ||| y | .xor => x ^^^ y | .andn => x &&& ~~~y

/-- Bitwise operations on predicates (R212). -/
def predVal (op : LogicOp) (x y : Bool) : Bool :=
  match op with
  | .and => x && y | .or => x || y | .xor => xor x y | .andn => x && !y

/-- Shifts by n places (R210). -/
def shiftVal (op : ShiftOp) (x : Word) (n : Nat) : Word :=
  match op with
  | .shl => x <<< n | .shr => x >>> n | .sar => x.sshiftRight n

/-- Relations (R212). -/
def relVal (r : Rel) (x y : Word) : Bool :=
  match r with
  | .eq => x == y | .ne => x != y | .lt => x.slt y | .ge => !(x.slt y) | .ltu => x.ult y | .geu => !(x.ult y)

/-- The high 64 bits of the 128-bit product (R210). -/
def mulHigh (unsigned : Bool) (x y : Word) : Word :=
  if unsigned then BitVec.ofNat 64 ((x.toNat * y.toNat) / 2 ^ 64) else BitVec.ofInt 64 ((x.toInt * y.toInt) / 2 ^ 64)

/-- Quotients, truncated toward zero, with the edge cases of R211. -/
def quotient (unsigned : Bool) (x y : Word) : Word :=
  if y = 0 then BitVec.allOnes 64
  else if unsigned then x.udiv y else x.sdiv y

/-- Remainders, with the edge cases of R211. -/
def remainder (unsigned : Bool) (x y : Word) : Word :=
  if y = 0 then x
  else if unsigned then x.umod y else x.srem y

/-- The relation of a compare immediate by IMM15[14:12] (R213). -/
def cmpImm (sel : Nat) (x y : Word) : Bool :=
  match sel with
  | 0 => x == y | 1 => x != y | 2 => x.slt y | 3 => !(x.slt y) | 4 => x.ult y | 5 => !(x.ult y)
  | 6 => y.slt x | _ => !(y.slt x)

/-! ### The option field of full/empty operations (R217) -/

/-- ACQ. -/
def optAcq (c : BitVec 5) : Bool := nbit c.toNat 3 = 1
/-- REL. -/
def optRel (c : BitVec 5) : Bool := nbit c.toNat 2 = 1
/-- SCOPE. -/
def optScope (c : BitVec 5) : Nat := c.toNat % 4

/-- The field is permitted on an operation that can carry ACQ. -/
def optAcqOk (c : BitVec 5) : Bool := c.toNat = 0 || c.toNat = 8

/-- The field is permitted on an operation that can carry REL. -/
def optRelOk (c : BitVec 5) : Bool := c.toNat = 0 || (4 ≤ c.toNat && c.toNat < 8)

/-! ### The slots of a pair word -/

/-- SOP of a slot. -/
def slotSop (s : Nat) : Nat := s / 1024
/-- D of a slot. -/
def slotD (s : Nat) : Nat := s / 64 % 16
/-- S of a slot. -/
def slotS (s : Nat) : Nat := s / 4 % 16
/-- X of a slot. -/
def slotX (s : Nat) : Nat := s % 4
/-- IMM6 of a slot. -/
def slotImm (s : Nat) : Nat := s % 64
/-- PD of a slot. -/
def slotPD (s : Nat) : Nat := s / 128 % 8
/-- Z of a slot. -/
def slotZ (s : Nat) : Nat := s / 8 % 16
/-- COND of a slot. -/
def slotCond (s : Nat) : Nat := s % 8

/-- A reserved SOP, X or COND value, or an SNOP with a field that is not zero: detail 0x02 (R66, R69, R103). -/
def slotReserved (s : Nat) : Bool :=
  match slotSop s with
  | 0x00 => s % 1024 ≠ 0
  | 0x01 => slotX s = 3
  | 0x0C => 6 ≤ slotCond s
  | 0x0D => slotX s = 3
  | n => 0x0E ≤ n

/-- A field that the format requires to be zero is not: detail 0x11 (R66). -/
def slotNonZero (s : Nat) : Bool :=
  slotSop s = 0x0D && ((slotX s < 2 && slotS s ≠ 0) || (slotX s = 2 && 4 ≤ slotS s))

/-- The registers a slot writes: a scalar n as n, a predicate n as 100 + n (R69). -/
def slotWrites (s : Nat) : List Nat :=
  match slotSop s with
  | 0x00 => []
  | 0x09 => if slotX s < 2 then [slotD s] else []
  | 0x0B => []
  | 0x0C => [100 + slotPD s]
  | 0x0D => match slotX s with | 0 => [30] | 1 => [slotD s, 30] | _ => [slotD s]
  | _ => [slotD s]

/-- A slot that accesses memory (R69). -/
def slotMem (s : Nat) : Bool :=
  (0x09 ≤ slotSop s && slotSop s ≤ 0x0B) || (slotSop s = 0x0D && slotX s < 2)

/-- The encoding conditions of a pair word (R69, R103). -/
def pairEnc (w : Nat) : List Nat :=
  let a := w / 65536 % 32768
  let b := w % 32768
  (if slotReserved a || slotReserved b then [2] else []) ++
  (if nbit w 15 = 1 then [3] else []) ++
  (if (slotWrites a).any (fun r => (slotWrites b).contains r) then [4] else []) ++
  (if slotMem a && slotMem b then [5] else []) ++
  (if slotNonZero a || slotNonZero b then [0x11] else [])

/-- The scalar result of a short operation that reads registers only (R66). -/
def slotAlu (s : Nat) (d x : Word) : Word :=
  let i : Word := BitVec.ofNat 64 (slotImm s)
  match slotSop s, slotX s with
  | 0x01, 0 => x
  | 0x01, 1 => ~~~x
  | 0x01, _ => 0 - x
  | 0x02, 0 => d + x
  | 0x02, 1 => d - x
  | 0x02, 2 => d &&& x
  | 0x02, _ => d ||| x
  | 0x03, 0 => d ^^^ x
  | 0x03, 1 => d <<< (x.toNat % 64)
  | 0x03, 2 => d >>> (x.toNat % 64)
  | 0x03, _ => d.sshiftRight (x.toNat % 64)
  | 0x04, _ => d + sextN 6 (slotImm s)
  | 0x05, _ => sextN 6 (slotImm s)
  | 0x06, _ => d <<< i.toNat
  | 0x07, _ => d >>> i.toNat
  | _, _ => d.sshiftRight i.toNat

/-- The condition of CMPZ (R66). -/
def slotCmp (cond : Nat) (z : Word) : Bool :=
  match cond with
  | 0 => z == 0 | 1 => z != 0 | 2 => z.slt 0 | 3 => !(z.slt 0) | 4 => (0 : Word).slt z | _ => !((0 : Word).slt z)

end Sys2Proof.Machine
end

