-- ==== Sys2Proof/Machine/Slots.lean ====
section
/-!
DEFINITION. Mailboxes and what a thread does at them (R80 to R83), and the slots of a pair word (R65 to R70, R92, R93, R227): what they do, and how a
reply ends the wait of a thread that sleeps on a mailbox.
-/
namespace Sys2Proof.Machine

/-! ### Mailboxes -/

/-- The mailbox becomes PENDING (R80). -/
def State.mbPend (s : State) (c t n : Nat) : State := s.setThr c t ((s.thr c t).setMbox n { st := .pending })

/-- A reply reaches a PENDING mailbox: FULL with its value for OK (0) and OK_DELAYED (0x0001), ERROR with the status code
otherwise (R80). -/
def State.mbArrive (s : State) (c t n status : Nat) (v : Word) : State :=
  let h := s.thr c t
  if (h.mbox n).st ≠ .pending then s
  else s.setThr c t (h.setMbox n
    (if status ≤ 1 then { st := .full, val := v } else { st := .error, err := BitVec.ofNat 16 status }))

/-- Note what the pending mailbox's reply needs. -/
def State.mbNote (s : State) (c t n : Nat) (m : MbWait) : State :=
  s.setThr c t { s.thr c t with mbWait := Sparse.put (s.thr c t).mbWait n m }

/-- A mailbox is not EMPTY (R80). -/
def State.mbBusy (s : State) (c t n : Nat) : Bool := ((s.thr c t).mbox n).st ≠ .empty

/-- What MBRD does to a FULL mailbox that holds `v` and to the destination (R80): the mailbox is emptied. -/
def State.mbRead (s : State) (c t dest m : Nat) (v : Word) : State :=
  (s.setThr c t ((s.thr c t).setMbox m {})).fly c t (.s dest) v.toNat 2

/-- MBRD by the mailbox's state (R80); a PENDING one puts the thread to sleep at the word. -/
def State.mbrd (s : State) (c t dest m : Nat) (re : Wait) : Fx :=
  let b := (s.thr c t).mbox m
  match b.st with
  | .full => .done (s.mbRead c t dest m b.val)
  | .pending => .hold (s.sleepOn c t re)
  | .error => .exc 3 8 0 b.err.toNat
  | .empty => .exc 1 0x0B 0 0

/-- Some mailbox of the mask has arrived (R81). -/
def Thread.mbArrived (h : Thread) (mask : Nat) : Bool :=
  (List.range 4).any (fun n => nbit mask n = 1 && ((h.mbox n).st = .full || (h.mbox n).st = .error))

/-- MBWAIT by the mailboxes' states (R81). -/
def State.mbwait (s : State) (c t mask : Nat) : Fx :=
  let h := s.thr c t
  if h.mbArrived mask then .done s
  else if (List.range 4).all (fun n => nbit mask n = 0 || (h.mbox n).st = .empty) then .exc 1 0x0B 0 0
  else .hold (s.sleepOn c t (.mbwait mask))

/-! ### The slots of a pair word -/

/-- What a slot does: register and memory effects, an exception, a wait, or a bank's cycle kept for its network port (R237). -/
inductive SlotFx where
  | ok (f : State → State)
  | exc (vec det : Nat) (addr : Word) (status : Nat)
  | wait
  | held

/-- The rank of an exception among those of one word (R122). -/
def vecRank (v : Nat) : Nat :=
  match v with
  | 1 => 2 | 4 => 3 | 5 => 4 | 2 => 5 | 7 => 6 | 8 => 7 | 12 => 8 | _ => 9

/-- The fabric address of an own-scratch offset (R42, R67, R92). -/
def slotAddr (c : Nat) (off : Word) : Word := BitVec.ofNat 64 (0xFFFF <<< 48 + bankAddr c (off.toNat % 2 ^ 18))

/-- An own-scratch access of a slot: its checks, then a load to a register or a store (R67, R116, R249, R250). -/
def State.slotMem (s : State) (c t : Nat) (off n : Nat) (write : Bool) (f : State → State) : SlotFx :=
  let a : Word := BitVec.ofNat 64 (0xFFFF <<< 48 + bankAddr c off)
  match s.worldCheck c off (s.who c t) with
  | some d => .exc 3 d a 0
  | none => if write && s.spillRefuses c off n (s.who c t) then .exc 3 0x0C a 0
    else if s.portHeld c off || s.imageOrder c t (.bank c off) n write then .held else .ok f

/-- The slot of the data stack at `v` is refused: a misaligned slot, one outside dslim, or one beyond own scratch (R92, R93). -/
def State.stackRefuses (s : State) (c t : Nat) (v : Word) : Option (Nat × Nat) :=
  if v.toNat % 8 ≠ 0 then some (2, 0)
  else if s.tf dslim_EN c t = 1 then
    (if 2 ^ 18 ≤ v.toNat || v.toNat / 8 < s.tf dslim_LOW c t || s.tf dslim_HIGH c t < v.toNat / 8 then some (7, 0) else none)
  else if 2 ^ 18 ≤ v.toNat then some (3, 0x0B)
  else none

/-- A load from own scratch into scalar register d at distance 4. A code word that cannot be corrected gives no value (R249). -/
def State.slotLoad (s : State) (c t off n d : Nat) : State :=
  match s.bankRead c off n with
  | (some v, s1) => s1.fly c t (.s d) v 4
  | (none, s1) => s1

/-- A slot's memory access finds an uncorrectable code word in a load (R249). -/
def State.slotBad (s : State) (c off n : Nat) : Bool := s.anyBad (bankAddr c off) n

/-- An access to the data stack at slot v. -/
def State.stackOp (s : State) (c t : Nat) (v : Word) (write : Bool) (f : State → State) : SlotFx :=
  match s.stackRefuses c t v with
  | some (vec, det) => .exc vec det (slotAddr c v) 0
  | none => s.slotMem c t v.toNat 8 write f

/-- A scalar register as the pair word read it when it issued (R68). -/
def slotReg (x : Sparse Word) (n : Nat) : Word := Sparse.get 0 x n

/-- The scratch offset that a slot reads, if it is a load (R249). -/
def slotReadAt (x : Sparse Word) (sl : Nat) : Option (Nat × Nat) :=
  let r := fun n => (slotReg x n).toNat
  match slotSop sl with
  | 0x09 => if slotX sl = 0 then some (r (slotS sl), 8) else if slotX sl = 1 then some (r (slotS sl), 4) else none
  | 0x0A => some ((r 30 + 8 * slotImm sl) % 2 ^ 64, 8)
  | 0x0D => if slotX sl = 1 then some (r 30, 8) else none
  | _ => none

/-- What one slot does with the registers `x` as the word read them (R66, R67, R92, R227). Both slots read the state before the word (R68).
A slot's address is the fabric address of its own-scratch offset, bits [17:0] of what it computes. (DEDUCED: notes/assumptions/94.md.) -/
def State.slotFx (s : State) (c t sl : Nat) (x : Sparse Word) : SlotFx :=
  let r := slotReg x
  let d := slotD sl
  let sp := r 30
  match slotSop sl with
  | 0x00 => .ok id
  | 0x09 =>
    let a := r (slotS sl)
    let n := if slotX sl % 2 = 0 then 8 else 4
    if a.toNat % n ≠ 0 then .exc 2 0 (slotAddr c a) 0
    else if 2 ^ 18 ≤ a.toNat then .exc 3 0x0B (slotAddr c a) 0
    else if slotX sl < 2 then s.slotMem c t a.toNat n false (fun q => q.slotLoad c t a.toNat n d)
    else s.slotMem c t a.toNat n true (fun q => (q.bankWrite c a.toNat n (2 ^ n - 1) ((r d).toNat % 2 ^ (8 * n))).2)
  | 0x0A =>
    let v := sp + BitVec.ofNat 64 (8 * slotImm sl)
    s.stackOp c t v false (fun q => q.slotLoad c t v.toNat 8 d)
  | 0x0B =>
    let v := sp + BitVec.ofNat 64 (8 * slotImm sl)
    s.stackOp c t v true (fun q => (q.bankWrite c v.toNat 8 0xFF (r d).toNat).2)
  | 0x0C => .ok (fun q => q.fly c t (.p (slotPD sl)) (if slotCmp (slotCond sl) (r (slotZ sl)) then 1 else 0) 2)
  | 0x0D =>
    match slotX sl with
    | 0 =>
      let v := sp - 8
      s.stackOp c t v true (fun q => ((q.bankWrite c v.toNat 8 0xFF (r d).toNat).2).fly c t (.s 30) v.toNat 1)
    | 1 => s.stackOp c t sp false (fun q => (q.slotLoad c t sp.toNat 8 d).fly c t (.s 30) (sp + 8).toNat 1)
    | _ =>
      let m := slotS sl % 4
      let b := (s.thr c t).mbox m
      match b.st with
      | .full => .ok (fun q => q.mbRead c t d m b.val)
      | .pending => .wait
      | .error => .exc 3 8 0 b.err.toNat
      | .empty => .exc 1 0x0B 0 0
  | _ => .ok (fun q => q.fly c t (.s d) (slotAlu sl (r d) (r (slotS sl))).toNat 1)

/-- What a pair word does with the registers `x` as it read them (R68 to R70, R122): slot A's condition before slot B's of the same rank. A wait
keeps the whole word with what it read; its other slot's memory access is made when the mailbox arrives.
(DESIGN CHOICE: notes/assumptions/93.md.) -/
def State.pairFx (s : State) (c t w : Nat) (x : Sparse Word) : Fx :=
  let sa := w / 65536 % 32768
  let sb := w % 32768
  let sleep := Fx.hold (s.sleepOn c t (.pair (BitVec.ofNat 32 w) x))
  match s.slotFx c t sa x, s.slotFx c t sb x with
  | .exc v d a st, .exc v2 d2 a2 st2 => if vecRank v2 < vecRank v then .exc v2 d2 a2 st2 else .exc v d a st
  | .exc v d a st, _ => .exc v d a st
  | _, .exc v d a st => .exc v d a st
  | .held, _ => .again s
  | _, .held => .again s
  | .wait, _ => sleep
  | _, .wait => sleep
  | .ok f, .ok g =>
    match (slotReadAt x sa).orElse (fun _ => slotReadAt x sb) with
    | some (off, n) =>
      if s.slotBad c off n then (s.foundBad c off n).loadFault c t (slotAddr c (BitVec.ofNat 64 off))
      else .done (g (f s))
    | none => .done (g (f s))

/-! ### Arrivals that end a mailbox wait -/

/-- A thread that sleeps on its mailboxes goes on if what it waits for has arrived: its waiting word then runs (R80 to R83). -/
def State.mbWake (s : State) (c t : Nat) : State :=
  let h := s.thr c t
  let up := s.setThr c t { h with st := .ready, wait := .none }
  if h.st ≠ .sleeping then s
  else match h.wait with
    | .mbrd d m => if h.mbArrived (2 ^ m) then up.finish c t up (up.mbrd c t d m .none) else s
    | .mbwait mask => if h.mbArrived mask then up.finish c t up (.done up) else s
    | .pair w x =>
      let waits := fun sl => slotSop sl = 0x0D && slotX sl = 2 && (h.mbox (slotS sl % 4)).st = .pending
      if waits (w.toNat / 65536 % 32768) || waits (w.toNat % 32768) then s
      else up.finish c t up (up.pairFx c t w.toNat x)
    | _ => s

/-- A reply or completion for a mailbox, and the thread that waits for it (R80, R83). -/
def State.mbReply (s : State) (c t n status : Nat) (v : Word) : State := (s.mbArrive c t n status v).mbWake c t

end Sys2Proof.Machine
end

