-- ==== Sys2Proof/Machine/Issue.lean ====
section
/-!
DEFINITION. The issue slot of a core: the passing of its cycles, the choice of a thread, and the issue of one word (R57, R62, R71, R86, R89, R103,
R105, R603).
-/
namespace Sys2Proof.Machine

/-- `d` cycles pass for thread j's watchdog: its count rises while the thread is READY or WAITING and its watchdog is enabled
(R603). -/
def State.wdogTick (s : State) (c j d : Nat) : State :=
  let h := s.thr c j
  if nbit (s.fld WDOG_CTL_EN c 0) j = 1 && (h.st = .ready || h.st = .waiting) then s.setThr c j { h with wdog := h.wdog + d }
  else s

/-- The core's cycle count moves on to `now`: watchdogs count, the writes that are due land, and a
thread asleep on a mailbox that one of them fills goes on (R71, R80, R603). (DESIGN CHOICE: notes/assumptions/22.md.) -/
def State.passTo (s : State) (c now : Nat) : State :=
  let k := s.core c
  (List.range 8).foldl (fun a j => ((a.wdogTick c j (now - k.cyc)).landDue c j now).mbWake c j) (s.setCore c { k with cyc := now })

/-- One cycle of the issue slot given to thread t: the core's cycle count advances, for the first word of a fault's handler to no sooner than 2 cycles
after the faulting word (R121), and the writes that are due land. (DESIGN CHOICE: notes/assumptions/22.md.) -/
def State.tickIssue (s : State) (c t : Nat) : State :=
  let k := s.core c
  (s.setCore c { k with lastIssue := t, stale := k.stale.filter (· ≠ s.world c t) }).passTo c (max (k.cyc + 1) (s.thr c t).notBefore)

/-- Thread t may issue its next word: it is READY, with no suspension or halt due at this boundary (R104, R110, R736). -/
def State.mayIssue (s : State) (c t : Nat) : Bool :=
  (s.thr c t).st = .ready && !(s.thr c t).stopReq && !(s.thr c t).haltReq

/-- The thread that the issue slot chooses: the first that may issue in ascending order after the one that issued last, wrapping from 7 to 0 (R105). A
core in reset, or of a half without power, issues nothing (R38, R107). -/
def State.nextIssue (s : State) (c : Nat) : Option Nat :=
  if (s.core c).inReset || s.gated (coreP c) (coreHalf c) then none
  else ((List.range 8).map (fun i => ((s.core c).lastIssue + 1 + i) % 8)).find? (s.mayIssue c)

/-- Issue one word of thread t of core c. `guard` is the guard field of an operation that a guard switches off; `enc` lists
the encoding conditions the word meets (R103); `ctl` says that the word must not stand in a delay slot (R86), `br` that it is
a branch. A branch that its guard switches off in the delay slot of a taken branch leaves that branch's target standing (R62, R84).
A word of a thread that the issue slot does not choose does not issue: nothing changes (R105; notes/assumptions/6.md). (DEDUCED: notes/assumptions/20.md.) -/
def State.issue (s : State) (c t : Nat) (guard : BitVec 4) (enc : List Nat) (ctl br : Bool) (body : State → Fx) : State :=
  if s.nextIssue c ≠ some t then s
  else
    let s1 := s.tickIssue c t
    let h := s1.thr c t
    let s2 := s1.setThr c t { h with snap := s1.ctxOf c t }
    if fetchLimit (s2.world c t) ≤ h.pc then s2.raise c t 3 1 0 0
    else
      let on := guardHolds h.p guard
      match (if on then s2.breakAt c t h.pc else none) with
      | some k => s2.debugStop c t (k + 1) (s2.tf dbp_ACT c t k) 0
      | none =>
        match enc.min? with
        | some d => s2.raise c t 1 d 0 0
        | none =>
          let s3 := s2.setTf dstat_SKIP c t 0
          if on && ctl && h.slot.isSome then (s3.setThr c t { s3.thr c t with slot := none }).raise c t 1 6 0 0
          else if on && (br || h.slot.isSome) && s3.atLoopEnd c t h.pc then s3.raise c t 1 7 0 0
          else if !on then
            (if br && (h.slot.bind (fun i => i.target)).isNone then
              State.stepHalt (s3.setThr c t { s3.thr c t with
                pc := h.pc + 4, slot := some ⟨h.pc, none, h.rstack, s3.tf lstat_ACTIVE c t, h.shadow⟩, shadow := h.shadow - 1 }) c t
             else (s3.advance c t h.pc true).stepHalt c t)
          else s3.finish c t s2 (body s3)


end Sys2Proof.Machine
end

