-- ==== Sys2Proof/Machine/Scalar.lean ====
section
/-!
DEFINITION. The integer and predicate words: major opcodes 0x00 to 0x09 (R209 to R213).
-/
namespace Sys2Proof.Machine

/-- What a command answers. -/
abbrev Res := Host.Outcome State Fault Refusal

/-- A word of thread t that is no branch and may stand anywhere. -/
def State.word (s : State) (c t : Nat) (g : BitVec 4) (enc : List Nat) (body : State → Fx) : Res :=
  .next (s.issue c t g enc false false body)

/-- A word that writes one scalar register from registers, at distance d. -/
def State.alu (s : State) (c t : Nat) (g : BitVec 4) (a : BitVec 5) (d : Nat) (f : State → Word) : Res :=
  s.word c t g [] (fun s => .done (s.outX c t a (f s) d))

/-- A word that writes one predicate, at distance 2. -/
def State.cmpW (s : State) (c t : Nat) (g : BitVec 4) (enc : List Nat) (a : BitVec 5) (f : State → Bool) : Res :=
  s.word c t g enc (fun s => .done (s.outP c t a (f s) 2))

/-- ADD, SUB (R210). -/
def execIntAddSub (c : CoreId) (t : ThreadId) (sub : Bool) (w : LR) (s : State) : Res :=
  s.alu c t w.g w.a 1 (fun s => if sub then s.x c t w.b - s.x c t w.c else s.x c t w.b + s.x c t w.c)

/-- AND, OR, XOR, ANDN (R210). -/
def execIntLogic (c : CoreId) (t : ThreadId) (op : LogicOp) (w : LR) (s : State) : Res :=
  s.alu c t w.g w.a 1 (fun s => logicVal op (s.x c t w.b) (s.x c t w.c))

/-- SHL, SHR, SAR by C[5:0] (R210). -/
def execIntShift (c : CoreId) (t : ThreadId) (op : ShiftOp) (w : LR) (s : State) : Res :=
  s.alu c t w.g w.a 1 (fun s => shiftVal op (s.x c t w.b) ((s.x c t w.c).toNat % 64))

/-- MUL (R210). -/
def execMul (c : CoreId) (t : ThreadId) (w : LR) (s : State) : Res :=
  s.alu c t w.g w.a 3 (fun s => s.x c t w.b * s.x c t w.c)

/-- MULH, MULHU (R210). -/
def execMulh (c : CoreId) (t : ThreadId) (unsigned : Bool) (w : LR) (s : State) : Res :=
  s.alu c t w.g w.a 3 (fun s => mulHigh unsigned (s.x c t w.b) (s.x c t w.c))

/-- DIV, DIVU (R210, R211). -/
def execDiv (c : CoreId) (t : ThreadId) (unsigned : Bool) (w : LR) (s : State) : Res :=
  s.alu c t w.g w.a 20 (fun s => quotient unsigned (s.x c t w.b) (s.x c t w.c))

/-- REM, REMU (R210, R211). -/
def execRem (c : CoreId) (t : ThreadId) (unsigned : Bool) (w : LR) (s : State) : Res :=
  s.alu c t w.g w.a 20 (fun s => remainder unsigned (s.x c t w.b) (s.x c t w.c))

/-- CMPEQ to CMPGEU (R212). -/
def execCmp (c : CoreId) (t : ThreadId) (rel : Rel) (w : LR) (s : State) : Res :=
  s.cmpW c t w.g (encZ [w.a.toNat < 8]) w.a (fun s => relVal rel (s.x c t w.b) (s.x c t w.c))

/-- PAND, POR, PXOR, PANDN (R212). A[4:3] must be zero (R64); pB and pC are predicates 0 to 7 (R63). -/
def execPredLogic (c : CoreId) (t : ThreadId) (op : LogicOp) (w : LR) (s : State) : Res :=
  s.cmpW c t w.g (encP [w.b, w.c] ++ encZ [w.a.toNat < 8]) w.a (fun s => predVal op (s.pr c t w.b) (s.pr c t w.c))

/-- PNOT (R212). -/
def execPnot (c : CoreId) (t : ThreadId) (w : LR) (s : State) : Res :=
  s.cmpW c t w.g (encP [w.b] ++ encZ [w.a.toNat < 8, w.c = 0]) w.a (fun s => !s.pr c t w.b)

/-- PSET (R212). -/
def execPset (c : CoreId) (t : ThreadId) (w : LR) (s : State) : Res :=
  s.cmpW c t w.g (encZ [w.a.toNat < 8, w.b.toNat < 2, w.c = 0]) w.a (fun _ => w.b.toNat = 1)

/-- ADDI (R213). -/
def execAddi (c : CoreId) (t : ThreadId) (w : LI) (s : State) : Res :=
  s.alu c t 0 w.a 1 (fun s => s.x c t w.b + immS w)

/-- ANDI, ORI, XORI (R213). -/
def execLogicImm (c : CoreId) (t : ThreadId) (op : ImmOp) (w : LI) (s : State) : Res :=
  s.alu c t 0 w.a 1 (fun s => match op with
    | .andi => s.x c t w.b &&& immZ w | .ori => s.x c t w.b ||| immZ w | .xori => s.x c t w.b ^^^ immZ w)

/-- SHLI, SHRI, SARI, RORI: IMM15[14:13] selects, IMM15[12:6] is zero, IMM15[5:0] counts (R213). -/
def execShiftImm (c : CoreId) (t : ThreadId) (w : LI) (s : State) : Res :=
  let n := w.imm.toNat % 64
  s.word c t 0 (encZ [w.imm.toNat / 64 % 128 = 0]) (fun s =>
    let x := s.x c t w.b
    .done (s.outX c t w.a (match w.imm.toNat / 8192 with
      | 0 => x <<< n | 1 => x >>> n | 2 => x.sshiftRight n | _ => x.rotateRight n) 1))

/-- CMPcc with an immediate (R213). -/
def execCmpImm (c : CoreId) (t : ThreadId) (w : LI) (s : State) : Res :=
  s.cmpW c t 0 (encZ [w.a.toNat < 8]) w.a
    (fun s => cmpImm (w.imm.toNat / 4096) (s.x c t w.b) (sextN 12 (w.imm.toNat % 4096)))

/-- LUI (R213). -/
def execLui (c : CoreId) (t : ThreadId) (w : LU) (s : State) : Res :=
  s.alu c t 0 w.a 1 (fun _ => ((w.imm ++ (0 : BitVec 12)) : BitVec 32).signExtend 64)

/-- LUH (R213). -/
def execLuh (c : CoreId) (t : ThreadId) (w : LU) (s : State) : Res :=
  s.alu c t 0 w.a 1 (fun s => w.imm ++ (s.x c t w.a).truncate 44)

end Sys2Proof.Machine
end

