-- ==== Sys2Proof/Machine/Memory.lean ====
section
/-!
DEFINITION. Loads and stores (R214, R215, R253), and the mailboxes' own words (R80, R81, R220).
-/
namespace Sys2Proof.Machine

/-- The address B + IMM15 (R214). -/
def State.eaI (s : State) (c t : Nat) (w : LI) : Word := s.x c t w.b + immS w

/-- The distances of scalar loads (R75). -/
def scalarDist : LoadDist := ⟨4, 7, 5⟩

/-- LD (R214). -/
def execLd (c : CoreId) (t : ThreadId) (w : LI) (s : State) : Res :=
  s.word c t 0 [] (fun s => s.load c t (s.eaI c t w) 8 (.s w.a.toNat) scalarDist)

/-- LDW, zero-extended (R214). -/
def execLdw (c : CoreId) (t : ThreadId) (w : LI) (s : State) : Res :=
  s.word c t 0 [] (fun s => s.load c t (s.eaI c t w) 4 (.s w.a.toNat) scalarDist)

/-- LDB, zero-extended (R214). -/
def execLdb (c : CoreId) (t : ThreadId) (w : LI) (s : State) : Res :=
  s.word c t 0 [] (fun s => s.load c t (s.eaI c t w) 1 (.s w.a.toNat) scalarDist)

/-- ST (R214, R215). -/
def execSt (c : CoreId) (t : ThreadId) (w : LI) (s : State) : Res :=
  s.word c t 0 [] (fun s => s.store c t (s.eaI c t w) 8 (s.x c t w.a).toNat)

/-- STW, A[31:0] (R214, R215). -/
def execStw (c : CoreId) (t : ThreadId) (w : LI) (s : State) : Res :=
  s.word c t 0 [] (fun s => s.store c t (s.eaI c t w) 4 (s.x c t w.a).toNat)

/-- STB, A[7:0] (R214, R215). -/
def execStb (c : CoreId) (t : ThreadId) (w : LI) (s : State) : Res :=
  s.word c t 0 [] (fun s => s.store c t (s.eaI c t w) 1 (s.x c t w.a).toNat)

/-! ### Mailbox-directed loads -/

/-- Bytes of a mailbox-directed load. -/
def mbBytes : MbSize → Nat
  | .d => 8 | .w => 4 | .b => 1

/-- A mailbox-directed load of a cached address: a hit delivers from the entry; bytes that are on their way into the cache are waited for; a miss reads
the target, after the line's dirty bytes, and allocates nothing (R253, R254, R257, R261). -/
def State.mbCached (s : State) (c t : Nat) (a : Word) (n m : Nat) : Fx :=
  let remote (s : State) (k : State → State) : Fx := s.afterFlush c t a n (fun s =>
    .done (((k s).mbPend c t m).depart c (.mail t m) a n [0] [c, t, 0, a.toNat, n, 1 + m]))
  if s.fld ccfg_EN c 0 = 0 then remote s id
  else
    let line := s.lineOf a
    let mask := byteMask (a.toNat % 64) n
    let s0 := s.purgeKeeper c (s.world c t) line
    if s0.fetchHolds c line mask then .hold (s0.waitOn c t .cacheRoom)
    else
      let s1 := s0.sideMove c (s.world c t) line
      match s1.entry c line with
      | some e =>
        if e.valid &&& mask = mask then
          .done ((((s1.putEntry c e).bumpWrap chit_HITS c 0).mbPend c t m).fly c t (.mbox m) (lineBytes e.data (a.toNat % 64) n) 5)
        else if e.left &&& mask ≠ 0 then .hold (s1.waitOn c t .cacheRoom)
        else remote s1 (fun s => s.bumpWrap cmiss_MISSES c 0)
      | none => remote s1 (fun s => s.bumpWrap cmiss_MISSES c 0)

/-- LD.M, LDW.M, LDB.M (R216, R253). -/
def execMbLoad (c : CoreId) (t : ThreadId) (sz : MbSize) (w : LR) (s : State) : Res :=
  let n := mbBytes sz
  let m := w.a.toNat
  s.word c t w.g (encZ [m < 4]) (fun s =>
    let a := s.x c t w.b
    if s.mbBusy c t m then .exc 1 0x0A 0 0
    else match s.check c t a n (a.toNat % n = 0) false with
      | .bad f => f
      | .ok p =>
        match p.ownBank c a with
        | some off =>
          match (s.mbPend c t m).bankRead c off n with
          | (none, s2) => .done (s2.mbArrive c t m 0x0401 0)
          | (some v, s2) => .done (s2.fly c t (.mbox m) v (if off < 0x40000 then 4 else 7))
        | none =>
          if s.regSpace p then
            let r := (s.mbPend c t m).mmrLoad c t p n
            let s2 := r.2.depart c (.mail t m) a n [0] [c, t, 0, a.toNat, n, 1 + m]
            .done (match r.1 with
              | some v => s2.mbNote c t m (.val v)
              | none => s2)
          else s.mbCached c t a n m)

/-! ### Reading, testing and setting mailboxes -/

/-- MBRD sA, mN (R220). -/
def execMbrd (c : CoreId) (t : ThreadId) (w : LR) (s : State) : Res :=
  s.word c t w.g (encZ [w.b.toNat < 4, w.c = 0]) (fun s =>
    s.mbrd c t w.a.toNat w.b.toNat (.mbrd w.a.toNat w.b.toNat))

/-- MBTST pA, mN (R81, R220). -/
def execMbtst (c : CoreId) (t : ThreadId) (w : LR) (s : State) : Res :=
  s.word c t w.g (encZ [w.a.toNat < 8]) (fun s =>
    let st := ((s.thr c t).mbox (w.b.toNat % 4)).st
    .done ((s.probe c t).outP c t w.a (st = .full || st = .error) 2))

/-- MBWAIT #mask (R220). -/
def execMbwait (c : CoreId) (t : ThreadId) (w : LR) (s : State) : Res :=
  s.word c t w.g (encZ [w.a = 0, w.b.toNat < 16, w.c = 0]) (fun s => s.mbwait c t w.b.toNat)

/-- MBSET mN, sC (R80, R220). -/
def execMbset (c : CoreId) (t : ThreadId) (w : LR) (s : State) : Res :=
  s.word c t w.g (encZ [w.a = 0]) (fun s =>
    if ((s.thr c t).mbox (w.b.toNat % 4)).st = .pending then .exc 1 0x0A 0 0
    else s.supOnly c t (.done (s.setThr c t ((s.thr c t).setMbox (w.b.toNat % 4) { (s.thr c t).mbox (w.b.toNat % 4) with st := .full, val := s.x c t w.c }))))

end Sys2Proof.Machine
end

