-- ==== Sys2Proof/Machine/Sync.lean ====
section
/-!
DEFINITION. Atomics, full/empty operations, Pot contributions, WRF, wakes and fences: what a bank does with them (R219, R335 to
R346) and the words that issue them (R216 to R218, R224, R226, R328 to R331, R351, R353).
-/
namespace Sys2Proof.Machine

/-! ### What a bank does -/

/-- The new value of an atomic's word: 0 AADD, 1 AMIN, 2 AMAX, 3 ASWAP, 4 ACAS (R216). -/
def atomicNew (op : Nat) (old a b : Word) : Word :=
  match op with
  | 0 => old + a
  | 1 => if old.slt a then old else a
  | 2 => if a.slt old then old else a
  | 3 => a
  | _ => if old = a then b else old

/-- Bank n applies an atomic to the word at window offset `off`: the old value, or none where the code word is uncorrectable
(R219, R248). -/
def State.atomicBank (s : State) (n off op : Nat) (a b : Word) : Option Nat × State :=
  match s.bankRead n off 8 with
  | (none, s1) => (none, s1)
  | (some old, s1) => (some old, s1.bankPut n off 8 0xFF (atomicNew op (BitVec.ofNat 64 old) a b).toNat)

/-- Fire the watches of core n on a word whose condition is `full`: each leaves the table as a wake on its way to its waiter,
with the word's tag after the access (R338). -/
def State.fireWatches (s : State) (n off : Nat) (full : Bool) : State :=
  let k := s.core n
  let hit := fun (w : Watch) => w.word = off / 8 && w.onFull = full
  let s1 := s.setCore n { k with watches := k.watches.filter (fun w => !hit w) }
  (k.watches.filter hit).foldl (fun s w =>
    s.send .wake [n, off, w.waiter.toNat, w.plot, w.epoch, s.tag (bankAddr n off) % 4]) s1

/-- Cores a and b lie within one region of scope sc (R325). -/
def sameRegion (sc a b : Nat) : Bool := a = b || (1 ≤ sc && coreP a = coreP b) || 2 ≤ sc

/-- What a full/empty operation's reply carries: status, value, scope tag. -/
structure FeReply where
  status : Nat
  val : Nat := 0
  tag : Nat := 0
  deriving DecidableEq, Repr

/-- A bank arms a watch, or refuses it when the table of 32 is full (R336, R337). -/
def State.armWatch (s : State) (n off : Nat) (onFull : Bool) (who : Watch) : FeReply × State :=
  let k := s.core n
  if 32 ≤ k.watches.length then (⟨0x0441, 0, 0⟩, s.bump WATCH_STAT_REFUSED n 0)
  else (⟨0x0440, 0, 0⟩, s.setCore n { k with watches := k.watches ++ [{ who with word := off / 8, onFull := onFull }] })

/-- The release-side comparison of R346: `src` is the releasing core, if it is a core of this module. -/
def State.relCheck (s : State) (n off scope : Nat) (src : Option Nat) : State :=
  let ok := match src with
    | some m => sameRegion scope n m
    | none => scope = 3
  if ok then s
  else
    let s1 := s.bump SCOPE_MISMATCH_CNT_REL n 0
    let s2 := s1.setReg .SMX_INFO n 0 (BitVec.ofNat 64 (2 ^ 7 + scope <<< 5))
    s2.setReg .SMX_ADDR n 0 (BitVec.ofNat 64 (0xFFFF <<< 48 + bankAddr n off))

/-- Bank n performs a full/empty operation in one access: 0 LDFE, 1 LDFF, 2 STFE, 3 STF, 4 SETE, 5 WAITF (R335, R338). The access reads the code word,
and one that changes the word or its tag writes it (R243). A word that LDFE empties is stamped CORE, as every full/empty write without REL is
(notes/assumptions/7.md). -/
def State.feBank (s0 : State) (n off op : Nat) (data : Word) (rel : Bool) (scope : Nat) (src : Option Nat) (who : Watch) :
    FeReply × State :=
  let a := bankAddr n off
  if s0.uncorrectable a then (⟨0x0401, 0, 0⟩, s0.bankFinding n off)
  else
    let s := s0.readWord n off
    let full := 4 ≤ s.tag a
    let tag := s.tag a % 4
    let stamp := if rel then scope else 0
    let put := fun (f : Bool) (s : State) =>
      let s1 := (s.wroteWord n off).setTag a ((if f then 4 else 0) + stamp)
      let s2 := if rel then s1.relCheck n off scope src else s1
      s2.fireWatches n off f
    match op with
    | 0 =>
      if full then (⟨0, s.readLE a 8, tag⟩, ((s.wroteWord n off).setTag a 0).fireWatches n off false)
      else s.armWatch n off true who
    | 1 =>
      if full then (⟨0, s.readLE a 8, tag⟩, s)
      else s.armWatch n off true who
    | 2 =>
      if full then s.armWatch n off false who
      else (⟨0, 0, 0⟩, put true (s.bankPut n off 8 0xFF data.toNat))
    | 3 => (⟨0, 0, 0⟩, put true (s.bankPut n off 8 0xFF data.toNat))
    | 4 => (⟨0, 0, 0⟩, put false s)
    | _ => if full then (⟨0, 0, tag⟩, s) else s.armWatch n off true who

/-! ### The acquiring and waiting thread -/

/-- The waiter's number of a thread of this module. -/
def threadWaiter (c t : Nat) : Word := BitVec.ofNat 64 (c * 8 + t)

/-- The waiter's number of a thread's mailbox operation: 2^20 × (1 + mailbox) above the thread's. -/
def mboxWaiter (c t m : Nat) : Word := BitVec.ofNat 64 ((1 + m) * 2 ^ 20 + c * 8 + t)

/-- The watch that a thread of core c would have. -/
def State.watchOf (s : State) (c t : Nat) (m : Option Nat) (op : Nat) : Watch :=
  { word := 0, onFull := true, waiter := match m with | some k => mboxWaiter c t k | none => threadWaiter c t,
    plot := s.fld CTX_BIND_PLOT c 0, epoch := s.fld CTX_BIND_EPOCH c 0, waitf := op = 5 }

/-- The acquire-side comparison of R345. -/
def State.tagCovers (s : State) (c t : Nat) (a : Word) (tag : Nat) : Bool :=
  match s.translate (s.who c t) a false with
  | .to (.bank n _) => sameRegion tag c n
  | _ => tag = 3

/-- An acquire completes with OK: CINV.ALL, and the comparison of its tag; answers whether vector 14 is due (R331, R345). -/
def State.acquire (s : State) (c t : Nat) (a : Word) (tag : Nat) : Bool × State :=
  let s1 := s.cinvAll c
  if s.tagCovers c t a tag then (false, s1)
  else
    let s2 := s1.bump SCOPE_MISMATCH_CNT_ACQ c 0
    let s3 := s2.setReg .SMX_INFO c 0 (BitVec.ofNat 64 (tag <<< 5 + t))
    (nbit (s.fld SYNC_CTL_SMX_EN c 0) t = 1, s3.setReg .SMX_ADDR c 0 a)

/-- A thread's full/empty wait ends with OK (R331, R339, R345): the destination written, the acquire completed, the thread READY,
and vector 14 taken where it is due. -/
def State.feDone (s : State) (c t op dest : Nat) (a : Word) (opt : Nat) (r : FeReply) : State :=
  let s1 := if op ≤ 1 then s.landOne c t ⟨.s dest, r.val, 0⟩ else s
  let s2 := s1.ready c t
  if nbit opt 3 = 1 && (op ≤ 1 || op = 5) then
    let q := s2.acquire c t a r.tag
    if q.1 then q.2.raise c t 14 0 0 0 else q.2
  else s2

/-- What a thread's own full/empty operation does with the bank's reply: done, asleep with its watch armed, asleep until its poll
interval ends, or an access exception at the word (R79, R336, R339). -/
def State.feOutcome (s : State) (c t op dest : Nat) (a : Word) (opt : Nat) (data : Word) (r : FeReply) : State :=
  if r.status = 0 then s.feDone c t op dest a opt r
  else if r.status = 0x0440 || r.status = 0x0441 then
    let h := s.thr c t
    s.setThr c t { h with st := .sleeping, wait := .fe op dest a opt data, armed := r.status = 0x0440, poll := r.status = 0x0441,
                          waitStart := if h.st = .sleeping then h.waitStart else (s.core c).cyc }
  else
    let s1 := s.restoreCtx c t (s.thr c t).snap
    (s1.ready c t).raise c t 3 4 a r.status

/-- A mailbox's full/empty read ends or stays pending (R80, R339, R345). -/
def State.feMail (s : State) (c t m op : Nat) (a : Word) (opt : Nat) (r : FeReply) : State :=
  if r.status = 0x0440 || r.status = 0x0441 then
    s.mbNote c t m (.fe op a opt (if r.status = 0x0440 then .armed else .poll))
  else
    let s1 := s.mbArrive c t m r.status (BitVec.ofNat 64 r.val)
    if r.status = 0 && nbit opt 3 = 1 then
      let q := s1.acquire c t a r.tag
      let h := q.2.thr c t
      if q.1 && h.smx.isNone then q.2.setThr c t { h with smx := some (a.toNat, r.tag) } else q.2
    else s1

/-- The destination of a mailbox form or of a scalar form. -/
def mailOf (m : Bool) (a : BitVec 5) : Option Nat := if m then some a.toNat else none

/-! ### Atomics -/

/-- The stream that a thread's counted writes carry (R350). -/
def State.streamOf (s : State) (c t : Nat) : Nat :=
  if t < 4 then s.fld STREAM_SEL_0_STREAM c 0 t else s.fld STREAM_SEL_1_STREAM c 0 (t - 4)

/-- A counted write of the stream of an unacknowledged WRF to its destination module is held (R353). -/
def State.wrfHolds (s : State) (c t : Nat) (p : Place) : Bool :=
  match (s.thr c t).wrfOut, p with
  | some (_, mid, st), .remote m _ => m = mid && st = s.streamOf c t && st ≠ 0
  | _, _ => false

/-- The place of an address in MMR space, before the checks of an access (R218). -/
def State.mmrTarget (s : State) (c t : Nat) (a : Word) : Bool :=
  match s.translate (s.who c t) a true with
  | .to (.remote _ off) => (s.localPlace off).isMmr
  | .to p => p.isMmr
  | _ => false

/-- Count ASWAP and ACAS of a Tenant thread that take effect (R559). (DEDUCED: notes/assumptions/12.md.) -/
def State.countAtomic (s : State) (c t : Nat) (cnt : Bool) : State :=
  if cnt && s.world c t = 0 then s.bump DET_CNT_ATOMIC c 0 else s

/-- An atomic word (R216, R218, R219): on an own bank the bank applies it at once; elsewhere its request leaves after the
write-backs of R254 and the thread waits or its mailbox becomes PENDING. -/
def State.atomic (s : State) (c t op : Nat) (m : Bool) (w : LR) (b : State → Word) : Fx :=
  let a := s.x c t w.b
  let mb := w.a.toNat
  let cnt := decide (3 ≤ op)
  if m && s.mbBusy c t mb then .exc 1 0x0A 0 0
  else if a.toNat % 8 = 0 && s.mmrTarget c t a then .exc 3 5 a 0
  else match s.check c t a 8 (a.toNat % 8 = 0) true true with
    | .bad f => f
    | .ok p =>
      let v := s.x c t w.c
      let own := match p with
        | .bank n off => if n = c && !inHbmWindow (a.toNat % 2 ^ 48) then some off else none
        | _ => none
      match own with
      | some off =>
        match s.atomicBank c off op v (b s) with
        | (some old, s1) =>
          let s2 := s1.countAtomic c t cnt
          if m then .done ((s2.mbPend c t mb).mbArrive c t mb 0 (BitVec.ofNat 64 old))
          else .done (s2.fly c t (.s mb) old 1)
        | (none, s1) =>
          if m then .done ((s1.mbPend c t mb).mbArrive c t mb 0x0401 0) else .hold (s1.raise c t 3 4 a 0x0401)
      | none =>
        if s.wrfHolds c t p then .hold (s.waitOn c t .wrf)
        else s.afterFlush c t a 8 (fun s =>
          let id := (s.thr c t).nextW
          let s1 := ((s.bypassGo c a 8 true).noteWrite c t p).depart c (.write t id) a 8 [0]
            [c, t, 2, a.toNat, 8, op, v.toNat, (b s).toNat, if m then 1 + mb else 0]
          if m then .done ((s1.mbPend c t mb).mbNote c t mb (.atomic id cnt))
          else .done (s1.waitOn c t (.atomic (.s mb) a id cnt)))

/-- The encoding conditions of an atomic: a mailbox form's A[4:2] is zero (R216). -/
def atomicEnc (m : Bool) (w : LR) : List Nat := encZ [!m || w.a.toNat < 4]

/-- AADD[.M] (R216). -/
def execAadd (c : CoreId) (t : ThreadId) (m : Bool) (w : LR) (s : State) : Res :=
  s.word c t w.g (atomicEnc m w) (fun s => s.atomic c t 0 m w (fun _ => 0))

/-- AMIN[.M], signed (R216). -/
def execAmin (c : CoreId) (t : ThreadId) (m : Bool) (w : LR) (s : State) : Res :=
  s.word c t w.g (atomicEnc m w) (fun s => s.atomic c t 1 m w (fun _ => 0))

/-- AMAX[.M], signed (R216). -/
def execAmax (c : CoreId) (t : ThreadId) (m : Bool) (w : LR) (s : State) : Res :=
  s.word c t w.g (atomicEnc m w) (fun s => s.atomic c t 2 m w (fun _ => 0))

/-- ASWAP[.M] (R216). -/
def execAswap (c : CoreId) (t : ThreadId) (m : Bool) (w : LR) (s : State) : Res :=
  s.word c t w.g (atomicEnc m w) (fun s => s.atomic c t 3 m w (fun _ => 0))

/-- ACAS[.M]: compares with sC and swaps in s(C + 1); C[0] is zero (R216). -/
def execAcas (c : CoreId) (t : ThreadId) (m : Bool) (w : LR) (s : State) : Res :=
  s.word c t w.g (atomicEnc m w ++ encZ [w.c.toNat % 2 = 0])
    (fun s => s.atomic c t 4 m w (fun s => s.x c t (w.c + 1)))

/-! ### Full/empty words -/

/-- The thread's writes numbered below `n` that lie in the region of a scope are acknowledged (R328). -/
def State.clearBelow (s : State) (c t scope n : Nat) : Bool :=
  (s.thr c t).outw.all (fun w => !(w.id < n && w.scope ≤ scope))

/-- Count the thread as the issuer of a write to another module under its stream (R350): the request's last argument. -/
def State.feArgs (s : State) (c t op : Nat) (a data : Word) (opt : Nat) (m : Option Nat) (id : Nat) : List Nat :=
  [c, t, 3, a.toNat, 8, op, data.toNat, opt, match m with | some k => 1 + k | none => 0, s.streamOf c t, id]

/-- What ends a full/empty operation in flight: its mailbox's reply, the thread's, or a posted form's acknowledgement. -/
def feKey (t op : Nat) (m : Option Nat) (id : Nat) : AccKey :=
  match m with
  | some k => .mail t k
  | none => if op = 3 || op = 4 then .write t id else .fe t

/-- A full/empty operation leaves the core (R254, R335): on an own bank the bank performs it, elsewhere its request is sent. -/
def State.feLeave (s : State) (c t op : Nat) (a data : Word) (opt : Nat) (m : Option Nat) (own : Option Nat) (id : Nat) :
    Option FeReply × State :=
  match own with
  | some off =>
    let r := s.feBank c off op data (nbit opt 2 = 1) (opt % 4) (some c) (s.watchOf c t m op)
    (some r.1, r.2)
  | none => (none, (s.bypass c a 8 true).depart c (feKey t op m id) a 8 [0] (s.feArgs c t op a data opt m id))

/-- What becomes of an operation's reply: of a mailbox form, of a form that the thread waits for, or of a posted form. -/
def State.feApply (s : State) (c t op dest : Nat) (a data : Word) (opt : Nat) (m : Option Nat) (r : FeReply) : State :=
  match m with
  | some k => s.feMail c t k op a opt r
  | none => if op = 3 || op = 4 then s else s.feOutcome c t op dest a opt data r

/-- A full/empty word; the waiting STFE keeps the number of its write in place of a destination: 0 LDFE, 1 LDFF, 2 STFE, 3 STF, 4 SETE, 5 WAITF (R216 to R218, R328, R335, R339).
(DEDUCED: notes/assumptions/18.md.) -/
def State.feWord (s : State) (c t op : Nat) (m : Option Nat) (w : LR) : Fx :=
  let a := s.x c t w.b
  let opt := w.c.toNat
  let dest := if op = 2 then (s.thr c t).nextW else w.a.toNat
  let data := s.x c t w.a
  let writes := decide (op = 0 || (2 ≤ op && op ≤ 4))
  let busy := match m with | some k => s.mbBusy c t k | none => false
  let noTags : Fx := match m with
    | some k => .done ((s.mbPend c t k).mbArrive c t k 0x0405 0)
    | none => if op = 3 || op = 4 then .done s else .exc 3 4 a 0x0405
  if busy then .exc 1 0x0A 0 0
  else if a.toNat % 8 = 0 && s.mmrTarget c t a then noTags
  else match s.check c t a 8 (a.toNat % 8 = 0) writes (op ≤ 1 || op = 5) with
    | .bad f => f
    | .ok p => match p with
      | .hbm _ _ => noTags
      | _ =>
        let own := match p with
          | .bank n off => if n = c && !inHbmWindow (a.toNat % 2 ^ 48) then some off else none
          | _ => none
        let cw := decide (2 ≤ op && op ≤ 4)
        if cw && s.wrfHolds c t p then .hold (s.waitOn c t .wrf)
        else if own.isNone && s.bypassWaits c a 8 then .hold ((s.bypassFlush c a 8).waitOn c t .cacheRoom)
        else
          let n := (s.thr c t).nextW
          let s1 := match m with | some k => (s.mbPend c t k).mbNote c t k (.fe op a opt .sent) | none => s
          let s2 := if cw && own.isNone then s1.noteWrite c t p else s1
          let wait := fun (s : State) =>
            if m.isSome || op = 3 || op = 4 then s else s.waitOn c t (.fe op dest a opt data)
          if cw && nbit opt 2 = 1 && !s.clearBelow c t (opt % 4) n then
            let h := s2.thr c t
            let s3 := s2.setThr c t { h with held := h.held ++ [⟨n, opt % 4, n, a, data, op⟩] }
            .done (wait (if own.isSome then s3 else s3.holdPlace c (feKey t op m n) a 8))
          else
            let r := s2.feLeave c t op a data opt m own n
            match r.1 with
            | none => .done (wait r.2)
            | some rep =>
              if rep.status = 0 || rep.status = 0x0440 || rep.status = 0x0441 || m.isSome || op = 3 || op = 4
              then .done (match m with
                | some _ => r.2.feApply c t op dest a data opt m rep
                | none => if op ≤ 1 && rep.status = 0 then
                      (if nbit opt 3 = 1 then (r.2.fly c t (.s dest) rep.val 1).cinvAll c else r.2.fly c t (.s dest) rep.val 1)
                    else r.2.feApply c t op dest a data opt m rep)
              else .hold (r.2.raise c t 3 4 a rep.status)

/-- LDFE[.M] (R216, R217, R335). -/
def execLdfe (c : CoreId) (t : ThreadId) (m : Bool) (w : LR) (s : State) : Res :=
  s.word c t w.g (encZ [!m || w.a.toNat < 4, optAcqOk w.c]) (fun s => s.feWord c t 0 (mailOf m w.a) w)

/-- LDFF[.M] (R216, R217, R335). -/
def execLdff (c : CoreId) (t : ThreadId) (m : Bool) (w : LR) (s : State) : Res :=
  s.word c t w.g (encZ [!m || w.a.toNat < 4, optAcqOk w.c]) (fun s => s.feWord c t 1 (mailOf m w.a) w)

/-- STFE (R216, R217, R335). -/
def execStfe (c : CoreId) (t : ThreadId) (w : LR) (s : State) : Res :=
  s.word c t w.g (encZ [optRelOk w.c]) (fun s => s.feWord c t 2 none w)

/-- STF (R216, R217, R335). -/
def execStf (c : CoreId) (t : ThreadId) (w : LR) (s : State) : Res :=
  s.word c t w.g (encZ [optRelOk w.c]) (fun s => s.feWord c t 3 none w)

/-- SETE (R216, R217, R335). -/
def execSete (c : CoreId) (t : ThreadId) (w : LR) (s : State) : Res :=
  s.word c t w.g (encZ [w.a = 0, optRelOk w.c]) (fun s => s.feWord c t 4 none w)

/-- WAITF (R217, R224, R335). -/
def execWaitf (c : CoreId) (t : ThreadId) (w : LR) (s : State) : Res :=
  s.word c t w.g (encZ [optAcqOk w.c]) (fun s => s.feWord c t 5 none w)

/-! ### Pot contributions, WRF, wakes and fences -/

/-- A write of n bytes by a word that a watchpoint matches stops before it has an effect (R736, R737). -/
def State.watched (s : State) (c t : Nat) (a : Word) (n : Nat) (f : Fx) : Fx :=
  match s.watchHit c t a n false true with
  | some k => .hold (s.debugStop c t (k + 5) (s.tf dwp_ACT c t k) a)
  | none => f

/-- A Pot contribution: 0 exact, 1 tagged, 2 fast (R216, R218, R311, R312, R317). Its lanes or words follow the header. -/
def State.padd (s : State) (c t form : Nat) (w : LR) : Fx :=
  let a := s.x c t w.b
  if a.toNat % 64 ≠ 0 then .exc 2 0 a 0
  else match s.translateWord (s.who c t) a true with
    | .fault d => .exc 12 d a 0x0402
    | .hold _ => .hold (s.txWait c t a true)
    | .to p =>
      let ok := match p with
        | .bank _ _ => true
        | .remote _ off => match s.localPlace off with | .bank _ _ => true | _ => false
        | .noId => true
        | _ => false
      if p = .noId then .exc 12 6 a 0x0402
      else s.watched c t a 64 (
      if !ok then .exc 3 4 a 0x0405
      else
        s.afterFlush c t a 64 (fun s =>
        let s1 := if form = 2 && s.world c t = 0 then s.bump DET_CNT_FASTPOT c 0 else s
        let sc := (s.x c t w.c).toNat
        .done (((s1.bypassGo c a 64 true).noteWrite c t p).depart c (.write t (s1.thr c t).nextW) a 64 [0]
          [c, t, 4, a.toNat, 64, form, sc % 2 ^ 20, sc / 2 ^ 20 % 2 ^ 20, (s.vr c t w.a).toNat, (s1.thr c t).nextW])))

/-- PADD.X (R216, R311). -/
def execPaddX (c : CoreId) (t : ThreadId) (w : LR) (s : State) : Res :=
  s.word c t w.g (encV [w.a] ++ encZ [w.c = 0]) (fun s => s.padd c t 0 w)

/-- PADD.T (R216, R311, R317). -/
def execPaddT (c : CoreId) (t : ThreadId) (w : LR) (s : State) : Res :=
  s.word c t w.g (encV [w.a]) (fun s => s.padd c t 1 w)

/-- PADD.F (R216, R311). -/
def execPaddF (c : CoreId) (t : ThreadId) (w : LR) (s : State) : Res :=
  s.word c t w.g (encV [w.a]) (fun s => s.padd c t 2 w)

/-- WRF (R351, R353): to a scratch or cellar word of another module only. (DEDUCED: notes/assumptions/18.md.) -/
def execWrf (c : CoreId) (t : ThreadId) (w : LR) (s : State) : Res :=
  s.word c t w.g [] (fun s =>
    let a := s.x c t w.b
    if a.toNat % 8 ≠ 0 then .exc 2 0 a 0
    else match s.translateWord (s.who c t) a true with
      | .fault d => .exc 12 d a 0x0402
      | .hold _ => .hold (s.txWait c t a true)
      | .to .noId => .exc 12 6 a 0x0402
      | .to (.remote mid off) => s.watched c t a 8 (
        match s.localPlace off with
        | .bank _ _ =>
          let h := s.thr c t
          if h.wrfOut.isSome then .hold (s.waitOn c t .wrf)
          else s.afterFlush c t a 8 (fun s =>
            let n := (s.x c t w.c).toNat
            let s1 := s.setThr c t { h with wrfOut := some (h.nextW, mid, n % 2 ^ 16) }
            .done (((s1.bypassGo c a 8 true).noteWrite c t (.remote mid off)).depart c (.write t h.nextW) a 8 [0]
              [c, t, 5, a.toNat, 8, (s.x c t w.a).toNat, n % 2 ^ 16, n / 2 ^ 16 % 2 ^ 32, h.nextW]))
        | _ => .exc 3 4 a 0x0405)
      | .to _ => s.watched c t a 8 (.exc 3 4 a 0x0405))

/-- A module offset lies in a core window, physical or logical (R43). -/
def inCoreWindow (off : Nat) : Bool := off < 0xA20000000 || (0x1000000000 ≤ off && off < 0x1A00000000)

/-- WAKEN (R224, R226). -/
def execWaken (c : CoreId) (t : ThreadId) (w : LR) (s : State) : Res :=
  s.word c t w.g [] (fun s =>
    let a := s.x c t w.b
    if !inCoreWindow (a.toNat % 2 ^ 48) then .exc 3 5 a 0
    else match s.translateWord (s.who c t) a false with
      | .fault d => .exc 12 d a 0x0402
      | .hold _ => .hold (s.txWait c t a false)
      | .to .noId => .exc 12 6 a 0x0402
      | .to _ => .done (s.send .request [c, t, 6, a.toNat, 0, (s.x c t w.c).toNat % 256]))

/-- FENCE #S (R329): the thread waits until its earlier writes in the scope's region are acknowledged. -/
def execFence (c : CoreId) (t : ThreadId) (w : LR) (s : State) : Res :=
  s.word c t w.g (encZ [w.a = 0, w.b = 0, w.c.toNat < 4]) (fun s =>
    let sc := w.c.toNat
    if sc = 0 || s.clearBelow c t sc (s.thr c t).nextW then .done s else .done (s.waitOn c t (.fence sc)))

/-- SLEEP (R133, R224). -/
def execSleep (c : CoreId) (t : ThreadId) (w : LR) (s : State) : Res :=
  s.word c t w.g (encZ [w.a = 0, w.b = 0, w.c = 0]) (fun s => .done (s.sleepOn c t .sleep))

end Sys2Proof.Machine
end

