-- ==== Sys2Proof/Machine/CacheOps.lean ====
section
/-!
DEFINITION. The cache's range operations, locks and prefetch (R220, R221, R259 to R266).
-/
namespace Sys2Proof.Machine

/-- The first and last line of the byte range of a range operation; none for length zero (R221, R262). -/
def State.rangeLines (s : State) (c t : Nat) (w : LR) : Option (Nat × Nat) :=
  let a := s.x c t w.b
  let n := (s.x c t w.c).toNat
  if n = 0 then none else some (s.lineOf a, s.lineOf a + (a.toNat % 64 + n - 1) / 64)

/-- Invalidate a range of lines (R262). -/
def State.cinvRange (s : State) (c lo hi : Nat) : State :=
  s.invalidate c (fun e => inLines lo hi e.line) (fun x => inLines lo hi x.line)

/-- A range flush: the thread waits until every write-back of the range is acknowledged (R262). -/
def State.flushRange (s : State) (c t lo hi : Nat) (a : Word) (inv : Bool) : State :=
  let s1 := s.flushEntries c (some t) (fun e => inLines lo hi e.line)
  if (s1.core c).wbs.any (fun b => inLines lo hi b.line) then s1.waitOn c t (.flush a lo hi inv)
  else if inv then s1.cinvRange c lo hi else s1

/-- CFLUSH (R262). -/
def execCflush (c : CoreId) (t : ThreadId) (w : LR) (s : State) : Res :=
  s.word c t w.g [] (fun s => .done (match s.rangeLines c t w with
    | none => s
    | some (lo, hi) => s.flushRange c t lo hi (s.x c t w.b) false))

/-- CINV (R262). -/
def execCinv (c : CoreId) (t : ThreadId) (w : LR) (s : State) : Res :=
  s.word c t w.g [] (fun s => .done (match s.rangeLines c t w with
    | none => s
    | some (lo, hi) => s.cinvRange c lo hi))

/-- CFLINV (R262). -/
def execCflinv (c : CoreId) (t : ThreadId) (w : LR) (s : State) : Res :=
  s.word c t w.g [] (fun s => .done (match s.rangeLines c t w with
    | none => s
    | some (lo, hi) => s.flushRange c t lo hi (s.x c t w.b) true))

/-- CINV.ALL (R262). -/
def execCinvAll (c : CoreId) (t : ThreadId) (w : LR) (s : State) : Res :=
  s.word c t w.g (encZ [w.a = 0, w.b = 0, w.c = 0]) (fun s => .done (s.cinvAll c))

/-- Start the fills of the lines from `next` to `last` of a range that begins at `first`, as far as entries and the 16 fills allow (R257, R260): a check's
fault, or the thread waiting for the rest, or the state with all of them present. (DEDUCED: notes/assumptions/94.md.) -/
def State.preloadGo (s : State) (c t first next last : Nat) : Nat → Fx
  | 0 =>
    let k := s.core c
    if (k.cache ++ k.dropped).any (fun e => e.left ≠ 0 && inLines first last e.line) then .done (s.waitOn c t (.preload first next last))
    else .done s
  | n + 1 =>
    let stay := fun (s : State) => Fx.done (s.waitOn c t (.preload first next last))
    match s.check c t (lineAddr next) 64 true false false with
    | .bad f => f
    | .ok p =>
      if p.isOwnBank c (lineAddr next) then s.preloadGo c t first (next + 1) last n
      else
        let s0 := s.purgeKeeper c (s.world c t) next
        if s0.fetchHolds c next (BitVec.allOnes 64) then stay s0
        else
          let s1 := s0.sideMove c (s.world c t) next
          match s1.entry c next with
          | some e =>
            if e.valid = BitVec.allOnes 64 || e.left ≠ 0 then s1.preloadGo c t first (next + 1) last n
            else if 16 ≤ (s1.core c).fills then stay s1
            else (s1.startFill c t e (lineAddr next)).2.preloadGo c t first (next + 1) last n
          | none =>
            if 16 ≤ (s1.core c).fills then stay s1
            else match s1.allocate c next (s.world c t) with
              | none => stay s1
              | some (e, s2) => (s2.startFill c t e (lineAddr next)).2.preloadGo c t first (next + 1) last n

/-- PRELOAD (R260, R266). -/
def execPreload (c : CoreId) (t : ThreadId) (w : LR) (s : State) : Res :=
  s.word c t w.g [] (fun s => match s.rangeLines c t w with
    | none => .done s
    | some (lo, hi) => if s.fld ccfg_EN c 0 = 0 then .done s else s.preloadGo c t lo lo hi (hi + 1 - lo))

/-- Lock the entries that `f` names, until LOCKMAX (R260). -/
def State.lockEntries (s : State) (c : Nat) (f : CEntry → Bool) : State :=
  let k := s.core c
  let r := k.cache.foldl (fun (a : List CEntry × Nat × Bool) e =>
    if !f e || e.lock then (a.1 ++ [e], a.2.1, a.2.2)
    else if a.2.1 < s.fld ccfg_LOCKMAX c 0 then (a.1 ++ [{ e with lock := true }], a.2.1 + 1, a.2.2)
    else (a.1 ++ [e], a.2.1, true)) ([], (k.cache.filter (·.lock)).length, false)
  let s1 := s.setCache c r.1
  if r.2.2 then s1.setFld cstat_LOCKFAIL c 0 1 else s1

/-- CLOCK (R260, R266). -/
def execClock (c : CoreId) (t : ThreadId) (w : LR) (s : State) : Res :=
  s.word c t w.g [] (fun s => .done (match s.rangeLines c t w with
    | none => s
    | some (lo, hi) => if s.fld ccfg_EN c 0 = 0 then s else s.lockEntries c (fun e => inLines lo hi e.line)))

/-- CUNLOCK (R260). -/
def execCunlock (c : CoreId) (t : ThreadId) (w : LR) (s : State) : Res :=
  s.word c t w.g [] (fun s => .done (match s.rangeLines c t w with
    | none => s
    | some (lo, hi) => s.setCache c (((s.core c).cache.map
        (fun e => if inLines lo hi e.line then { e with lock := false } else e)).filter
          (fun e => e.valid ≠ 0 || e.left ≠ 0 || e.lock))))

/-- PREF fetches a line into the side buffer, unless a check refuses it (R221, R261). -/
def State.pref (s : State) (c t : Nat) (a : Word) : State :=
  let line := s.lineOf a
  let k := s.core c
  if s.fld ccfg_PFEN c 0 = 0 || s.fld ccfg_EN c 0 = 0 then s
  else if k.cache.any (fun e => e.line = line) || k.side.any (fun x => x.line = line) then s
  else match s.translate (s.who c t) a false with
    | .to p =>
      let ok := match p with
        | .bank m off => (m ≠ c || inHbmWindow (a.toNat % 2 ^ 48)) && (s.worldCheck m off (s.who c t)).isNone
        | .hbm _ _ => true
        | .remote _ off => !(s.localPlace off).isMmr
        | _ => false
      if !ok then s
      else
        let side := (if 4 ≤ k.side.length then k.side.drop 1 else k.side) ++
          [{ line := line, world := s.world c t, left := BitVec.allOnes 64, fid := k.nextFill }]
        (s.setCore c { k with side := side, nextFill := k.nextFill + 1 }).depart c (.fill k.nextFill) (lineAddr line) 64 (List.range 8)
          [c, t, 8, a.toNat / 8 * 8, 64, k.nextFill]
    | _ => s

/-- PREF (R221, R261). -/
def execPref (c : CoreId) (t : ThreadId) (w : LR) (s : State) : Res :=
  s.word c t w.g (encZ [w.c = 0]) (fun s => .done (s.pref c t (s.x c t w.b)))

end Sys2Proof.Machine
end

