-- ==== Sys2Proof/Machine/Control.lean ====
section
/-!
DEFINITION. Branches, hardware loops and the state-register words: major opcodes 0x18 to 0x1D (R84 to R91, R95, R96, R99 to R102,
R222, R223).
-/
namespace Sys2Proof.Machine

/-- A word that must not stand in a delay slot (R86); `br` says that it is a branch. -/
def State.ctlWord (s : State) (c t : Nat) (g : BitVec 4) (enc : List Nat) (br : Bool) (body : State → Fx) : Res :=
  .next (s.issue c t g enc true br body)

/-- A taken B or JR to `target` makes the lowest active level that it leaves, and every higher one, inactive (R90). -/
def State.leaveLoops (s : State) (c t target : Nat) : State :=
  let act := s.tf lstat_ACTIVE c t
  match (List.range 4).find? (fun k => nbit act k = 1 &&
      (target < s.tf lpa_START c t k * 4 || s.tf lpa_END c t k * 4 < target)) with
  | some k => s.setTf lstat_ACTIVE c t (act % 2 ^ k)
  | none => s

/-- The target of B and CALL: the branch word's address plus 4 × OFF21 (R85). -/
def branchTarget (pc : Nat) (off : BitVec 21) : Nat := (((pc : Int) + 4 * off.toInt) % 2 ^ 32).toNat

/-- Push a return address; at depth 16 the call has no effect and takes vector 8 (R95, R96). rstat.CAUSE tells a suspended thread's condition too.
(DESIGN CHOICE: notes/assumptions/102.md.) -/
def State.callTo (s : State) (c t target : Nat) : Fx :=
  let h := s.thr c t
  if h.rstack.length = 16 then .hold ((s.setTf rstat_CAUSE c t 1).raise c t 8 0 0 0)
  else .branch (s.setThr c t { h with rstack := (h.pc + 8) % 65536 :: h.rstack }) (some target)

/-- B (R84, R85, R90, R222). -/
def execB (c : CoreId) (t : ThreadId) (w : LB) (s : State) : Res :=
  s.ctlWord c t w.g [] true (fun s =>
    let a := branchTarget (s.thr c t).pc w.off
    .branch (s.leaveLoops c t a) (some a))

/-- CALL (R84, R85, R96, R222). -/
def execCall (c : CoreId) (t : ThreadId) (w : LB) (s : State) : Res :=
  s.ctlWord c t w.g [] true (fun s => s.callTo c t (branchTarget (s.thr c t).pc w.off))

/-- JR (R85, R90, R222). -/
def execJr (c : CoreId) (t : ThreadId) (w : LR) (s : State) : Res :=
  s.ctlWord c t w.g [] true (fun s =>
    let a := (s.x c t w.b).toNat % 65536
    if a % 4 ≠ 0 then .exc 2 0 0 0 else .branch (s.leaveLoops c t a) (some a))

/-- CALLR (R85, R96, R222). -/
def execCallr (c : CoreId) (t : ThreadId) (w : LR) (s : State) : Res :=
  s.ctlWord c t w.g [] true (fun s =>
    let a := (s.x c t w.b).toNat % 65536
    if a % 4 ≠ 0 then .exc 2 0 0 0 else s.callTo c t a)

/-- RET; B is zero (R85, R96, R222). With nothing held and nothing spilled it is illegal while INH is 1 too.
(DESIGN CHOICE: notes/assumptions/102.md.) -/
def execRet (c : CoreId) (t : ThreadId) (w : LR) (s : State) : Res :=
  s.ctlWord c t w.g (encZ [w.b = 0]) true (fun s =>
    let h := s.thr c t
    match h.rstack with
    | a :: r => .branch (s.setThr c t { h with rstack := r }) (some a)
    | [] => if s.tf rstat_SPILLED c t = 0 then .exc 1 0x0D 0 0
      else .hold ((s.setTf rstat_CAUSE c t 2).raise c t 8 0 0 0))

/-- LOOP (R87, R222): with I = 0 the count is bits [31:0] of the register that bits [16:12] name, and bits [21:17] are zero.
(DEDUCED: notes/assumptions/13.md.) A LOOP of count 0 at an outer level's END goes where R88's check of that END sends it, and to the word after its own
body where no level goes round. (DESIGN CHOICE: notes/assumptions/102.md.) -/
def execLoop (c : CoreId) (t : ThreadId) (w : LL) (s : State) : Res :=
  s.ctlWord c t 0 (encZ [w.i || w.cnt.toNat < 32]) false (fun s =>
    let k := w.lvl.toNat
    let e := w.stop.toNat
    let h := s.thr c t
    let n := if w.i then w.cnt.toNat else (s.x c t (w.cnt.truncate 5)).toNat % 2 ^ 32
    if nbit (s.tf lstat_ACTIVE c t) k = 1 || e = 0 then .exc 1 0x0C 0 0
    else if n = 0 then .goto s (h.pc + 4 * (e + 1))
    else
      let s1 := (s.setTf lpa_START c t (h.pc / 4 + 1) k).setTf lpa_END c t (h.pc / 4 + e) k
      .done ((s1.setTf lstat_ACTIVE c t (s.tf lstat_ACTIVE c t + 2 ^ k)).fly c t (.lc k) n 3))

/-- State registers whose GETS may vary between runs (R223, R273). -/
def RegName.varies : RegName → Bool
  | .cyc | .tstate | .ipend | .tfsel | .tsel | .tprog | .astat | .mchk | .mbstat | .mberr | .cstat | .chit | .cmiss | .cerr
  | .cerra => true
  | _ => false

/-- GETS (R99, R100, R222). -/
def execGets (c : CoreId) (t : ThreadId) (w : LI) (s : State) : Res :=
  s.word c t 0 (encZ [w.b = 0, w.imm.toNat < 1024]) (fun s =>
    match sregAt w.imm.toNat with
    | none => .exc 1 0x08 0 0
    | some (r, i) =>
      if r.getsSup && s.level c t = 0 then .exc 1 0x09 0 0
      else
        let v := s.gets c t r i
        let s1 := s.afterGets c t r
        .done ((if r.varies then s1.probe c t else s1).outX c t w.a v 2))

/-- SETS (R99, R100, R102, R222): its effect lands at distance 3. One that turns the cache off makes the thread wait until the cache is empty (R266). -/
def execSets (c : CoreId) (t : ThreadId) (w : LI) (s : State) : Res :=
  s.word c t 0 (encZ [w.a = 0, w.imm.toNat < 1024]) (fun s =>
    match sregAt w.imm.toNat with
    | none => .exc 1 0x08 0 0
    | some (r, _) =>
      if r.setsSup && s.level c t = 0 then .exc 1 0x09 0 0
      else
        let v := s.x c t w.b
        let off : Bool := r = .ccfg && s.world c t = 1 && s.fld ccfg_EN c 0 = 1 && v.toNat % 2 = 0
        let s1 := s.fly c t (.sreg w.imm.toNat (decide (s.level c t = 1))) v.toNat 3
        .done (if off then s1.waitOn c t .cacheOff else s1))

end Sys2Proof.Machine
end

