-- ==== Sys2Proof/Machine/System.lean ====
section
/-!
DEFINITION. The system words: major opcode 0x1E (R60, R78, R97, R108 to R112, R130 to R132, R224, R225).
-/
namespace Sys2Proof.Machine

/-- TRAP #n (R130, R224): entry at vector 64 + n with epc at the word after. (DEDUCED: notes/assumptions/14.md.) -/
def execTrap (c : CoreId) (t : ThreadId) (w : LR) (s : State) : Res :=
  s.ctlWord c t w.g (encZ [w.a = 0, immBC w < 256]) false (fun s =>
    let h := s.thr c t
    .hold ((s.setThr c t { h with pc := h.pc + 4, shadow := h.shadow - 1 }).raise c t (64 + immBC w) 0 0 0))

/-- RFE (R131, R132, R224). -/
def execRfe (c : CoreId) (t : ThreadId) (w : LR) (s : State) : Res :=
  s.ctlWord c t w.g (encZ [w.a = 0, w.b = 0, w.c = 0]) false (fun s => .hold (s.rfe c t))

/-- ISYNC (R60, R224): the model's instruction memory holds no word that a fetch could still see old. (DEDUCED: notes/assumptions/19.md.) -/
def execIsync (c : CoreId) (t : ThreadId) (w : LR) (s : State) : Res :=
  s.word c t w.g (encZ [w.a = 0, w.b = 0, w.c = 0]) (fun s => .done s)

/-- SETM #m (R78, R224): B:C bit 0 is ACC and bit 2 OSAT. The word after next but one runs in the new mode. -/
def execSetm (c : CoreId) (t : ThreadId) (w : LR) (s : State) : Res :=
  s.ctlWord c t w.g (encZ [immBC w = immBC w &&& 5]) false (fun s =>
    let h := s.thr c t
    if 0 < h.shadow then .exc 1 0x12 0 0
    else
      let s1 := s.setThr c t { h with shadow := 3, oldMode := (s.treg .mode c t).toNat }
      .done (s1.setTreg .mode c t (BitVec.ofNat 64 (immBC w))))

/-! ### Control of other threads -/

/-- The detail of a refused thread control: another world's thread (0x09), or a target that is not STOPPED or SUSPENDED (0x0A)
(R111). -/
def State.threadRefusal (s : State) (c t k : Nat) (needStopped : Bool) : Option Nat :=
  let h := s.thr c k
  if s.world c k ≠ s.world c t && !(s.world c t = 1 && s.level c t = 1) then some 9
  else if needStopped && h.st ≠ .stopped && h.st ≠ .suspended then some 0x0A
  else none

/-- The fault record and the TFPEND bits of a thread that starts are gone (R124). -/
def State.clearNotice (s : State) (c k : Nat) : State :=
  let s1 := ((s.setTreg .tfpc c k 0).setTreg .tfcause c k 0).setTreg .tfaddr c k 0
  let q := s1.core c
  let m := BitVec.ofNat 8 (2 ^ k)
  s1.setCore c { q with
    tfpendT := q.tfpendT &&& ~~~m
    tfpendK := q.tfpendK &&& ~~~m
    tfnewT := q.tfnewT &&& ~~~m
    tfnewK := q.tfnewK &&& ~~~m }

/-- Suspend a thread at a word boundary without a fault notice: its record shows the place and vector 0 (R110, R137). -/
def State.suspend (s : State) (c k : Nat) : State :=
  let s1 := (s.landAll c k).abandon c k false
  let u := s1.undoSlot c k
  let h := u.2.thr c k
  let s2 := ((u.2.setTreg .tfpc c k (BitVec.ofNat 64 (h.pc % 65536 + (h.shadow % 4) <<< 16 + (if u.1 then 2 ^ 18 else 0)))).setTreg
    .tfcause c k 0).setTreg .tfaddr c k 0
  (s2.setThr c k { s2.thr c k with st := .suspended, wait := .none, armed := false, stopReq := false, susVec := 0 }).stopDone c k

/-- TSTART k, sA, #f (R109, R111, R224). -/
def execTstart (c : CoreId) (t : ThreadId) (w : LR) (s : State) : Res :=
  s.word c t w.g (encZ [w.b.toNat < 4, w.c.toNat < 8]) (fun s =>
    let k := w.c.toNat
    let resume : Bool := nbit w.b.toNat 0 = 1
    let sup := nbit w.b.toNat 1
    let a := s.x c t w.a
    s.supOnly c t (
      if !resume && a.toNat % 4 ≠ 0 then .exc 2 0 0 0
      else match s.threadRefusal c t k true with
        | some d => .exc 3 d 0 0
        | none =>
          if resume && (s.thr c k).st = .stopped then .exc 3 0x0A 0 0
          else
            let s1 := s.clearNotice c k
            if resume then .done (s1.setThr c k { s1.thr c k with st := .ready })
            else
              let s2 := (((s1.setTf wstat_LEVEL c k sup).setTf wstat_EXL c k 0).setTf wstat_IE c k 0).setTf wstat_SELF c k 0
              .done (s2.setThr c k { s2.thr c k with
                st := .ready, pc := a.toNat % 65536, slot := none, shadow := 0, wait := .none, armed := false })))

/-- TSTOP k (R110, R111, R224). -/
def execTstop (c : CoreId) (t : ThreadId) (w : LR) (s : State) : Res :=
  s.word c t w.g (encZ [w.a = 0, w.b = 0, w.c.toNat < 8]) (fun s =>
    let k := w.c.toNat
    s.supOnly c t (match s.threadRefusal c t k false with
      | some d => .exc 3 d 0 0
      | none =>
        let h := s.thr c k
        if k = t.val then .done (s.setThr c k { h with stopReq := true })
        else match h.st with
          | .stopped | .suspended => .done s
          | .sleeping => .done (s.suspend c k)
          | _ => .done ((s.setThr c k { h with stopReq := true }).waitOn c t (.tstop k))))

/-- The state register that TSET's class and A name, if TSET may write it (R108, R225). -/
def tsetReg (cls : TsetClass) (a : Nat) : Option Nat :=
  match cls with
  | .sreg0 => if a = 1 || a = 3 || a = 0x0A then some a else none
  | .sreg2 => if a ≤ 4 || (8 ≤ a && a ≤ 0x0B) then some (0x20 + a) else none
  | _ => none

/-- The encoding conditions of TSET (R225). -/
def tsetEnc (cls : TsetClass) (w : LR) : List Nat :=
  encZ [w.c.toNat < 8] ++ match cls with
    | .scalar => []
    | .pred => encZ [w.a.toNat < 8]
    | .loop => encZ [w.a.toNat < 4]
    | .sreg0 | .sreg2 => if (tsetReg cls w.a.toNat).isNone then [0x10] else []

/-- Write a register of thread k at once (R108, R112). -/
def State.tset (s : State) (c t k : Nat) (cls : TsetClass) (a : Nat) (v : Word) : State :=
  match cls with
  | .scalar => s.landOne c k ⟨.s a, v.toNat, 0⟩
  | .pred => s.landOne c k ⟨.p a, v.toNat % 2, 0⟩
  | .loop => s.landOne c k ⟨.lc a, v.toNat % 2 ^ 32, 0⟩
  | .sreg0 | .sreg2 => match (tsetReg cls a).bind sregAt with
    | some (r, i) => s.sets c k (s.world c t) r i v
    | none => s

/-- TSET k, rd, sB (R108, R111, R112, R225). -/
def execTset (c : CoreId) (t : ThreadId) (cls : TsetClass) (w : LR) (s : State) : Res :=
  s.word c t w.g (tsetEnc cls w) (fun s =>
    let k := w.c.toNat
    s.supOnly c t (match s.threadRefusal c t k true with
      | some d => .exc 3 d 0 0
      | none => .done (s.tset c t k cls w.a.toNat (s.x c t w.b))))

/-! ### Loop counters and the return stack -/

/-- LCRD sA, lcN (R224). -/
def execLcrd (c : CoreId) (t : ThreadId) (w : LR) (s : State) : Res :=
  s.word c t w.g [] (fun s => .done (s.outX c t w.a (BitVec.ofNat 64 (s.lcr c t (w.b.toNat % 4))) 1))

/-- LCWR lcN, sB (R91, R224). -/
def execLcwr (c : CoreId) (t : ThreadId) (w : LR) (s : State) : Res :=
  s.word c t w.g (encZ [w.a.toNat < 4]) (fun s => .done (s.fly c t (.lc w.a.toNat) (s.x c t w.b).toNat 3))

/-- The slots of a spill or fill, `lo` up to `lo + n`, are in own scratch and in the spill region (R97). -/
def State.spillSlots (s : State) (c t lo n : Nat) : Bool :=
  lo + n ≤ 0x8000 && (s.tf rsreg_EN c t = 0 || (s.tf rsreg_LOW c t ≤ lo && lo + n ≤ s.tf rsreg_HIGH c t + 1))

/-- The world check of R116 over the slots of a spill or fill. -/
def State.slotsCheck (s : State) (c t lo n : Nat) : Option Nat :=
  (s.worldCheck c (lo * 8) (s.who c t)).orElse (fun _ => s.worldCheck c ((lo + n - 1) * 8) (s.who c t))

/-- RSPILL #n (R97, R98, R116, R224). A PTR past the last slot of own scratch wraps to 0 in its 15 bits.
(DESIGN CHOICE: notes/assumptions/102.md.) -/
def execRspill (c : CoreId) (t : ThreadId) (w : LR) (s : State) : Res :=
  s.word c t w.g (encZ [immBC w < 16]) (fun s =>
    let n := immBC w + 1
    let h := s.thr c t
    let lo := s.tf rspill_PTR c t
    if h.rstack.length < n then .exc 1 0x0E 0 0
    else s.supOnly c t (
      if !s.spillSlots c t lo n || s.spillForeign c t (lo * 8) (8 * n) then .exc 3 0x0C 0 0
      else match s.slotsCheck c t lo n with
      | some d => .exc 3 d (slotAddr c (BitVec.ofNat 64 (lo * 8))) 0
      | none =>
        let old := (h.rstack.drop (h.rstack.length - n)).reverse
        let s1 := (old.zip (List.range n)).foldl (fun s p => (s.bankWrite c ((lo + p.2) * 8) 8 0xFF p.1).2) s
        let s2 := (s1.setTf rspill_PTR c t (lo + n)).setTf rstat_SPILLED c t (s1.tf rstat_SPILLED c t + n)
        .done (s2.setThr c t { s2.thr c t with rstack := h.rstack.take (h.rstack.length - n) })))

/-- Read n return addresses of own scratch upward from slot lo: bits [15:2] of each word, with the rest dropped (DESIGN CHOICE:
notes/assumptions/102.md); a word whose code word is uncorrectable is a free value
(notes/assumptions/1.md). (DESIGN CHOICE: notes/assumptions/11.md.) -/
def State.readSlots (s : State) (c lo : Nat) : Nat → List Nat × State
  | 0 => ([], s)
  | n + 1 =>
    match s.bankRead c (lo * 8) 8 with
    | (some v, s1) =>
      let r := s1.readSlots c (lo + 1) n
      (v % 65536 / 4 * 4 :: r.1, r.2)
    | (none, s1) =>
      let f := s1.free
      let r := f.2.readSlots c (lo + 1) n
      (f.1 % 65536 / 4 * 4 :: r.1, r.2)

/-- RSFILL #n (R97, R116, R224). (DESIGN CHOICE: notes/assumptions/11.md.) -/
def execRsfill (c : CoreId) (t : ThreadId) (w : LR) (s : State) : Res :=
  s.word c t w.g (encZ [immBC w < 16]) (fun s =>
    let n := immBC w + 1
    let h := s.thr c t
    let ptr := s.tf rspill_PTR c t
    if 16 < h.rstack.length + n || s.tf rstat_SPILLED c t < n then .exc 1 0x0E 0 0
    else s.supOnly c t (
      if ptr < n || !s.spillSlots c t (ptr - n) n then .exc 3 0x0C 0 0
      else match s.slotsCheck c t (ptr - n) n with
      | some d => .exc 3 d (slotAddr c (BitVec.ofNat 64 ((ptr - n) * 8))) 0
      | none =>
        let r := s.readSlots c (ptr - n) n
        let s2 := (r.2.setTf rspill_PTR c t (ptr - n)).setTf rstat_SPILLED c t (s.tf rstat_SPILLED c t - n)
        .done (s2.setThr c t { s2.thr c t with rstack := h.rstack ++ r.1.reverse })))

end Sys2Proof.Machine
end

