-- ==== Sys2Proof/Machine/Pair.lean ====
section
/-!
DEFINITION. The pair word: two short operations that issue in one cycle as a unit (R65 to R70, R92, R93, R227).
-/
namespace Sys2Proof.Machine

/-- PAIR_ISSUE: the word with its pair bit [31] set (R61, R68). -/
def execPairIssue (c : CoreId) (t : ThreadId) (word : BitVec 32) (s : State) : Res :=
  s.word c t 0 (pairEnc word.toNat) (fun s => s.pairFx c t word.toNat (s.thr c t).x)

end Sys2Proof.Machine
end

