-- ==== Sys2Proof/Machine/Banks.lean ====
section
/-!
DEFINITION. Accesses of agents other than a core's own words: where an address leads (R48, R116, R405, R412, R640, R644), the
banks' network ports (R238 to R250, R335 to R346) and the HBM controllers (R398 to R404).
-/
namespace Sys2Proof.Machine

/-! ### Where a request leads -/

/-- A Tenant request that carries a stale epoch of the plot that core n holds (R644). -/
def State.stale (s : State) (n : Nat) (w : Who) : Bool :=
  w.world = 0 && s.fld CTX_BIND_BOUND n 0 = 1 && s.fld CTX_BIND_PLOT n 0 = w.plot && s.fld CTX_BIND_EPOCH n 0 ≠ w.epoch

/-- Count a request refused for its epoch at a core (R644). -/
def State.countStale (s : State) (n : Nat) (w : Who) : State :=
  ((s.bump EPOCH_DROP_STALE n 0).setFld EPOCH_DROP_PLOT n 0 w.plot).setFld EPOCH_DROP_EPOCH n 0 w.epoch

/-- The status that stands for an access that the translation unit or a seam proxy holds (R301, R409): the command that made it has no effect yet.
(DESIGN CHOICE: notes/assumptions/89.md.) -/
def viaHold : Nat := 0x10000

/-- The proxies of a gated half hold requests and ask for its power, rather than answer ASLEEP_RETRY (R301). -/
def State.wakeMode (s : State) (p h : Nat) : Bool := (if h = 0 then s.fld SEAM_CTL_ACT_W p 0 else s.fld SEAM_CTL_ACT_E p 0) = 1

/-- Why core n does not serve a request, with the counts that takes: a gated half, a fence, a stale epoch or the checks of R116 (R301, R636, R640, R644).
In wake mode a request to a gated half is held. (DEDUCED: notes/assumptions/88.md.) (DESIGN CHOICE: notes/assumptions/107.md.) -/
def State.coreRefuses (s : State) (n off len : Nat) (w : Who) : Option (Nat × State) :=
  if s.gated (coreP n) (coreHalf n) then
    if s.wakeMode (coreP n) (coreHalf n) then some (viaHold, s) else some (0x0203, s.bump SEAM_STAT_RETRY_ANS (coreP n) 0)
  else if s.answersFenced n || ((s.core n).inReset && w.world = 0) then some (0x0201, s.boundaryCount n FENCE_DROP_CNT_ANSWERED)
  else if s.stale n w then some (0x0202, s.countStale n w)
  else if (s.worldCheck n off w).isSome || (s.worldCheck n (off + (len - 1)) w).isSome then some (0x0402, s)
  else none

/-- The plot's HBM page controller answers: no access to a stack that is not ACTIVE or a retired pseudo-channel (R417, R419).
(DESIGN CHOICE: notes/assumptions/25.md.) -/
def State.hbmRefuses (s : State) (p off : Nat) : Option Nat :=
  if s.fld HBM_STAT_STATE p 0 ≠ 0 then some 0x0201
  else if nbit (s.fld HBM_STAT_PC_OFF p 0) (off / 2 ^ 21 % 32) = 1 then some 0x0402
  else none

/-- What an agent's request comes to. -/
inductive Reach where
  | to (p : Place)
  | refused (status : Nat) (s : State)
  | hold (e : Nat)

/-- The outer-edge router of parcel p at column x: parcels 0 to 3 lie north, 4 to 7 south (R18, R25). -/
def edgeRouter (p x : Nat) : Nat := p * 1296 + (if p < 4 then 0 else 35) * 36 + x

/-- The attachment router of HBM channel c of parcel p's stack (R19, R399). -/
def hbmRouter (p c : Nat) : Nat := edgeRouter p (10 + c)

/-- The attachment router of the HBM channel that holds a stack offset (R399). -/
def hbmHome (p off : Nat) : Nat := hbmRouter p (off / 2 ^ 21 % 32 / 2)

/-- The attachment router of a fenced stack counts the requests that it answers (R640). -/
def State.hbmFence (s : State) (p off status : Nat) : State :=
  if status = 0x0201 then s.boundaryCount (hbmHome p off) FENCE_DROP_CNT_ANSWERED else s

/-- What a status comes to that a request is turned away with. -/
def Reach.turned (status : Nat) (s : State) : Reach := if status = viaHold then .hold 0 else .refused status s

/-- Record a translation fault of an agent other than a core thread (R412). -/
def State.noteFault (s : State) (plot det : Nat) (a : Word) : State :=
  ((s.bump TU_FAULT_INFO_COUNT plot 0).setFld TU_FAULT_INFO_DETAIL plot 0 det).setReg .TU_FAULT_ADDR plot 0 a

/-- The place an agent's access of `len` bytes reaches, or the status that answers it (R42, R47, R48, R116, R405, R412, R644). -/
def State.reach (s : State) (w : Who) (a : Word) (len : Nat) (write : Bool) : Reach :=
  match s.translate w a write with
  | .fault d => .refused 0x0402 (if w.thread.isNone then s.noteFault w.plot d a else s)
  | .hold e => .hold e
  | .to p => match p with
    | .bank n off =>
      match s.coreRefuses n off len w with
      | some (st, s1) => .turned st s1
      | none =>
        if w.world = 0 && 0x100000 ≤ off && s.poolBacked n && !inHbmWindow (a.toNat % 2 ^ 48) then .refused 0x0402 s
        else if write && s.spillRefuses n off len w then .refused 0x0402 s
        else .to p
    | .hbm q off => match s.hbmRefuses q off with
      | some st => .refused st (s.hbmFence q off st)
      | none =>
        if w.world = 0 && Sparse.get 0 s.epochs w.plot ≠ w.epoch then .refused 0x0202 (s.bump TD_STAT_STALE 0 0) else .to p
    | .coreMmr n off =>
      match s.coreRefuses n off len w with
      | some (st, s1) => .turned st s1
      | none => if s.mmrShape p a len || (s.mmrCheck p w len write).isSome then .refused 0x0402 s else .to p
    | .mmr _ | .root _ => if s.mmrShape p a len || (s.mmrCheck p w len write).isSome then .refused 0x0402 s else .to p
    | .reserved | .noId => .refused 0x0402 s
    | .remote _ _ => .to p

/-! ### HBM -/

/-- The book of a stack. -/
def State.stack (s : State) (p : Nat) : Stack := Sparse.get {} s.kp.hbm p

/-- Replace the book of a stack. -/
def State.setStack (s : State) (p : Nat) (x : Stack) : State := { s with kp := { s.kp with hbm := Sparse.set {} s.kp.hbm p x } }

/-- A pseudo-channel in power-down leaves it for an access (R403). -/
def State.hbmWake (s : State) (p off : Nat) : State :=
  let k := s.stack p
  let q := off / 2 ^ 21 % 32
  if nbit k.pdown q = 1 then s.setStack p { k with pdown := k.pdown - 2 ^ q } else s

/-- Count a finding of a pseudo-channel (R402, R421). -/
def State.hbmCount (s : State) (p off : Nat) (unc : Bool) : State :=
  let q := off / 2 ^ 21 % 32
  (s.bump (if unc then HBM_ERR_q_UNCORR else HBM_ERR_q_CORR) p q).setFld HBM_ERR_q_PAGE p q (off / 2 ^ 21)

/-- A finding in a code word of a stack: counted, and reported for the plot that holds its page (R251, R402, R421). -/
def State.hbmFinding (s : State) (p off : Nat) : State :=
  let a := hbmAddr p off / 32 * 32
  (s.hbmCount p off (s.finding a = .bad)).reportFinding (s.finding a) 0x02 (((s.grantOf p (off / 2 ^ 21)).map (·.1)).getD 0xFF) a

/-- A code word of a stack is read in an access: what the code delivers stands, and a correction is counted, reported and written back (R402). -/
def State.hbmWord (s : State) (p off : Nat) : State :=
  let a := hbmAddr p off
  if s.pat a = 0 then s
  else
    match s.finding a with
    | .one _ _ => ((s.asRead a).hbmFinding p off).setPat a 0
    | _ => s.asRead a

/-- An access of n bytes of a stack finds its first uncorrectable code word. -/
def State.hbmBad (s : State) (p off n : Nat) : State :=
  s.hbmFinding p (((codeWords off n).find? (fun o => s.uncorrectable (hbmAddr p o))).getD off)

/-- Read n bytes of a stack: none where a code word is uncorrectable; corrections are counted and written back (R402). -/
def State.hbmRead (s0 : State) (p off n : Nat) : Option Nat × State :=
  let s := s0.hbmWake p off
  let a := hbmAddr p off
  if s.anyBad a n then (none, s.hbmBad p off n)
  else
    let s1 := (codeWords off n).foldl (fun s o => s.hbmWord p o) s
    (some (s1.readLE a n), s1)

/-- Write n bytes of a stack under a mask; not carried out on an uncorrectable code word (R402). -/
def State.hbmWrite (s0 : State) (p off n mask v : Nat) : Bool × State :=
  let s := s0.hbmWake p off
  let a := hbmAddr p off
  if s.anyBad a n then (false, s.hbmBad p off n)
  else (true, ((codeWords off n).foldl (fun s o => s.hbmWord p o) s).writeMask a n mask v)

/-! ### A local place read, written and changed -/

/-- Read n bytes of a bank or a stack: status and value (R248, R402). -/
def State.memRead (s : State) (p : Place) (n : Nat) : Nat × Nat × State :=
  match p with
  | .bank m off => match s.bankRead m off n with
    | (some v, s1) => (0, v, s1)
    | (none, s1) => (0x0401, 0, s1)
  | .hbm q off => match s.hbmRead q off n with
    | (some v, s1) => (0, v, s1)
    | (none, s1) => (0x0401, 0, s1)
  | _ => (0x0402, 0, s)

/-- Write n bytes of a bank or a stack under a mask (R234, R250, R402). -/
def State.memWrite (s : State) (p : Place) (n mask v : Nat) : Nat × State :=
  match p with
  | .bank m off => match s.bankWrite m off n mask v with
    | (true, s1) => (0, s1)
    | (false, s1) => (0x0401, s1)
  | .hbm q off => match s.hbmWrite q off n mask v with
    | (true, s1) => (0, s1)
    | (false, s1) => (0x0401, s1)
  | _ => (0x0402, s)

/-- An atomic at a bank or a controller (R219, R401); MMR space takes none (R218). -/
def State.memAtomic (s : State) (p : Place) (op : Nat) (a b : Word) : Nat × Nat × State :=
  match s.memRead p 8 with
  | (0, old, s1) =>
    let v := (atomicNew op (BitVec.ofNat 64 old) a b).toNat
    (0, old, match p with
      | .bank n off => s1.bankPut n off 8 0xFF v
      | .hbm q off => s1.writeMask (hbmAddr q off) 8 0xFF v
      | _ => s1)
  | (st, _, s1) => (st, 0, s1)

/-- A full/empty operation at a place: banks have tags, HBM and MMR space do not (R218, R335). -/
def State.memFe (s : State) (p : Place) (op : Nat) (data : Word) (rel : Bool) (scope : Nat) (src : Option Nat) (who : Watch) :
    FeReply × State :=
  match p with
  | .bank n off => s.feBank n off op data rel scope src who
  | _ => (⟨0x0405, 0, 0⟩, s)

/-! ### Requests at a network port (R238, R239, R248) -/

/-- The reply of a unit: transaction tag, status, value. (DESIGN CHOICE: notes/assumptions/27.md.) -/
def State.reply (s : State) (tag status val : Nat) : State := s.send .reply [tag, status, val]

/-- A request of `len` bytes at window offset `off` of core n that lies in one bank. -/
def State.bankReach (s : State) (w : Who) (n off len : Nat) (write : Bool) : Reach :=
  match s.coreRefuses n off len w with
  | some (st, s1) => .turned st s1
  | none =>
    if len = 0 || !bankOff off || !bankOff (off + len - 1) || off / 0x100000 ≠ (off + len - 1) / 0x100000 then .refused 0x0402 s
    else if write && s.spillRefuses n off len w then .refused 0x0402 s
    else .to (.bank n off)

/-- BANK_READ_REQUEST (R238, R248). -/
def execBankReadRequest (ag : Agent) (c : CoreId) (off : BitVec 22) (len : Fin 241) (tag : Nat) (s : State) : Res :=
  .next (match s.bankReach (whoOf ag) c off.toNat len false with
    | .to p => let r := s.memRead p len; r.2.2.reply tag r.1 r.2.1
    | .refused st s1 => s1.reply tag st 0
    | .hold _ => s)

/-- BANK_WRITE_REQUEST (R234, R250, R259): only the bytes of the mask are written. -/
def execBankWriteRequest (ag : Agent) (c : CoreId) (off : BitVec 22) (len : Fin 241) (mask : BitVec 240) (data : BitVec 1920)
    (tag : Nat) (s : State) : Res :=
  .next (match s.bankReach (whoOf ag) c off.toNat len true with
    | .to p => let r := s.memWrite p len mask.toNat data.toNat; r.2.reply tag r.1 0
    | .refused st s1 => s1.reply tag st 0
    | .hold _ => s)

/-- BANK_ATOMIC_REQUEST: AADD, AMIN, AMAX, ASWAP, ACAS (R216, R219); a misaligned word is not carried out. -/
def execBankAtomicRequest (ag : Agent) (c : CoreId) (off : BitVec 22) (op : Fin 5) (a b : Word) (tag : Nat) (s : State) : Res :=
  .next (if off.toNat % 8 ≠ 0 then s else match s.bankReach (whoOf ag) c off.toNat 8 true with
    | .to p => let r := s.memAtomic p op a b; r.2.2.reply tag r.1 r.2.1
    | .refused st s1 => s1.reply tag st 0
    | .hold _ => s)

/-- BANK_FE_REQUEST: LDFE, LDFF, STFE, STF, SETE, WAITF (R335 to R338, R346). The reply carries status, value and tag. -/
def execBankFeRequest (ag : Agent) (c : CoreId) (off : BitVec 22) (op : Fin 6) (data : Word) (rel : Bool) (scope : Fin 4)
    (waiter : Word) (tag : Nat) (s : State) : Res :=
  let w := whoOf ag
  .next (if off.toNat % 8 ≠ 0 then s else
    match s.bankReach w c off.toNat 8 (op.val = 0 || (2 ≤ op.val && op.val ≤ 4)) with
    | .to p =>
      let r := s.memFe p op data rel scope w.core
        { word := 0, onFull := true, waiter := waiter, plot := w.plot, epoch := w.epoch, waitf := op = 5 }
      r.2.send .reply [tag, r.1.status, r.1.val, r.1.tag]
    | .refused st s1 => s1.reply tag st 0
    | .hold _ => s)

/-- WATCH_DISARM: the bank frees the waiter's watch on a word (R341). -/
def execWatchDisarm (c : CoreId) (off : BitVec 22) (waiter : Word) (s : State) : Res :=
  let k := s.core c
  .next (s.setCore c { k with watches := k.watches.filter (fun w => !(w.word = off.toNat / 8 && w.waiter = waiter)) })

/-- BANK_NET_RESERVE: the bank keeps its next cycle for its network port (R237); `cellar` names the bank. -/
def execBankNetReserve (c : CoreId) (cellar : Bool) (s : State) : Res :=
  let k := s.core c
  .next (s.setCore c { k with reserved := some (cellar, k.cyc + 1) })

/-- CORRECTION_WRITEBACK: a corrected code word of core c is written back (R243); `cw` is its module offset divided by 32. -/
def execCorrectionWriteback (c : CoreId) (cw : BitVec 37) (s : State) : Res :=
  let k := s.core c
  .next (if k.corrDue.contains cw.toNat then
      (s.setCore c { k with corrDue := k.corrDue.filter (· ≠ cw.toNat) }).setPat (cw.toNat * 32) 0
    else s)

/-! ### The bank registers (R247, R274) -/

/-- The check of R116 of a register access that names a bank's bytes (R314). -/
def State.codeWordRefuses (s : State) (n off len : Nat) (w : Who) : Bool :=
  (s.coreRefuses n off len w).isSome

/-- POISON_CLR: a supervisor's initialising write of the named code word (R247, R274). -/
def execPoisonClr (ag : Agent) (c : CoreId) (v : Word) (s : State) : Res :=
  let off := bitsOf v 21 5 * 32
  let w := whoOf ag
  .next (match s.reach w (BitVec.ofNat 64 (0xFFFF <<< 48 + bankAddr c 0x3F0220)) 8 true with
    | .refused st s1 => s1.reply 0 st 0
    | .hold _ => s
    | _ =>
      if (s.codeWordCheck c off w).isSome then s.reply 0 0x0402 0
      else if !bankOff off then s.reply 0 0 0
      else
        ((s.initBytes (bankAddr c off) 32).wroteWord c off).reply 0 0 0)

/-- TAG_DATA_READ: the tags of the code word that TAG_ADDR names (R274). -/
def execTagDataRead (ag : Agent) (c : CoreId) (s : State) : Res :=
  .next (match s.reach (whoOf ag) (BitVec.ofNat 64 (0xFFFF <<< 48 + bankAddr c 0x3F0230)) 4 false with
    | .refused st s1 => s1.reply 0 st 0
    | .hold _ => s
    | _ =>
      let s1 := s.tagRead c
      s1.reply 0 0 (s1.reg .TAG_DATA c 0).toNat)

/-- TAG_DATA_WRITE: changes only the tag bits of the code word that TAG_ADDR names, in one access of the bank (R234, R246, R274). -/
def execTagDataWrite (ag : Agent) (c : CoreId) (v : Word) (s : State) : Res :=
  let off := s.fld TAG_ADDR_CW_OFF c 0 * 32
  let a := bankAddr c off
  .next (match s.reach (whoOf ag) (BitVec.ofNat 64 (0xFFFF <<< 48 + bankAddr c 0x3F0230)) 4 true with
    | .refused st s1 => s1.reply 0 st 0
    | .hold _ => s
    | _ =>
      if !bankOff off then (s.setFld TAG_DATA_ERR c 0 1).reply 0 0 0
      else if s.uncorrectable a then ((s.bankFinding c off).setFld TAG_DATA_ERR c 0 1).reply 0 0 0
      else
        let s1 := (List.range 4).foldl (fun s k =>
          s.setTag (a + 8 * k) (4 * nbit v.toNat k + bitsOf v (2 * k + 5) (2 * k + 4))) ((s.readWord c off).wroteWord c off)
        (s1.setFld TAG_DATA_ERR c 0 0).reply 0 0 0)

/-! ### HBM commands -/

/-- HBM_ACCESS: a controller carries out a request on a stack's bytes (R399 to R404): 0 read, 1 write, 2 atomic (operation in
`aop`), 3 full/empty, which has no tags. -/
def execHbmAccess (ag : Agent) (p : Fin 8) (off : BitVec 36) (kind : Fin 4) (aop : Fin 5) (len : Fin 241) (mask : BitVec 240)
    (data : BitVec 1920) (tag : Nat) (s : State) : Res :=
  let o := off.toNat
  .next (if 0x860000000 < o + len || len.val = 0 then s.reply tag 0x0402 0
    else match s.hbmRefuses p o with
      | some st => (s.hbmFence p o st).reply tag st 0
      | none =>
        if !ag.keeper && Sparse.get 0 s.epochs ag.plot ≠ ag.epoch.toNat then
          (s.bump TD_STAT_STALE 0 0).reply tag 0x0202 0
        else match kind with
          | 0 => let r := s.memRead (.hbm p o) len; r.2.2.reply tag r.1 r.2.1
          | 1 => let r := s.memWrite (.hbm p o) len mask.toNat data.toNat; r.2.reply tag r.1 0
          | 2 =>
            if o % 8 ≠ 0 then s.reply tag 0x0402 0
            else
              let r := s.memAtomic (.hbm p o) aop (BitVec.ofNat 64 data.toNat) (BitVec.ofNat 64 (data.toNat >>> 64))
              r.2.2.reply tag r.1 r.2.1
          | _ => s.reply tag 0x0405 0)

end Sys2Proof.Machine
end

