-- ==== Sys2Proof/Machine/Flags.lean ====
section
/-!
DEFINITION. Floating-point values, their formats (R140, R172), the single rounding with its exception flags (R144, R145, R188,
R193), and exact sums and products (R186 to R188).
-/
namespace Sys2Proof.Machine

/-! ### Formats and values -/

/-- How a format treats its highest codes: as IEEE 754 (infinity and NaNs), one NaN only (E4M3), or all finite (R172). -/
inductive FKind where
  | ieee | fn | fin
  deriving DecidableEq, Repr

/-- A floating-point format: exponent bits, fraction bits, bias, kind (R172). -/
structure Fmt where
  eb : Nat
  mb : Nat
  bias : Nat
  kind : FKind
  deriving DecidableEq, Repr

/-- binary32 (R140, R172). -/
def fmtF : Fmt := ⟨8, 23, 127, .ieee⟩
/-- binary16. -/
def fmtHF : Fmt := ⟨5, 10, 15, .ieee⟩
/-- bfloat16. -/
def fmtBF : Fmt := ⟨8, 7, 127, .ieee⟩
/-- E4M3. -/
def fmtE4M3 : Fmt := ⟨4, 3, 7, .fn⟩
/-- E5M2. -/
def fmtE5M2 : Fmt := ⟨5, 2, 15, .ieee⟩
/-- E3M2. -/
def fmtE3M2 : Fmt := ⟨3, 2, 3, .fin⟩
/-- E2M3. -/
def fmtE2M3 : Fmt := ⟨2, 3, 1, .fin⟩
/-- E2M1. -/
def fmtE2M1 : Fmt := ⟨2, 1, 1, .fin⟩

/-- Bits of a code. -/
def Fmt.width (f : Fmt) : Nat := 1 + f.eb + f.mb

/-- An exact value: NaN (signalling or not), infinity, or (−1)^neg × m × 2^e. -/
inductive FV where
  | nan (sig : Bool)
  | inf (neg : Bool)
  | fin (neg : Bool) (m : Nat) (e : Int)
  deriving DecidableEq, Repr

/-- The value of a code (R172). A NaN is signalling where its top fraction bit is 0, in the formats of R140. -/
def Fmt.decode (f : Fmt) (code : Nat) : FV :=
  let neg := nbit code (f.eb + f.mb) = 1
  let e := (code >>> f.mb) % 2 ^ f.eb
  let m := code % 2 ^ f.mb
  if f.kind = .ieee && e = 2 ^ f.eb - 1 then
    (if m = 0 then .inf neg else .nan (nbit m (f.mb - 1) = 0))
  else if f.kind = .fn && e = 2 ^ f.eb - 1 && m = 2 ^ f.mb - 1 then .nan false
  else if e = 0 then .fin neg m (1 - f.bias - f.mb)
  else .fin neg (2 ^ f.mb + m) ((e : Int) - f.bias - f.mb)

/-! ### Flags -/

/-- NV, DZ, OF, UF and NX as the bits of vflags (R169). -/
def flagNV : Nat := 16
/-- Division by zero. -/
def flagDZ : Nat := 8
/-- Overflow. -/
def flagOF : Nat := 4
/-- Underflow. -/
def flagUF : Nat := 2
/-- Inexact. -/
def flagNX : Nat := 1

/-- A code and the flags raised in making it. -/
structure Rnd where
  code : Nat
  flags : Nat := 0
  deriving DecidableEq, Repr

/-- The canonical quiet NaN (R144). E4M3 and E5M2 take R193's codes; the others have none and take +0 there. -/
def Fmt.canon (f : Fmt) : Nat :=
  match f.kind with
  | .ieee => (2 ^ f.eb - 1) <<< f.mb + (if f.eb = 5 && f.mb = 2 then 2 else 2 ^ (f.mb - 1))
  | .fn => 0x7F
  | .fin => 0

/-- Sign bit of a code. -/
def Fmt.sign (f : Fmt) (neg : Bool) : Nat := if neg then 2 ^ (f.eb + f.mb) else 0

/-- The code of infinity. -/
def Fmt.infCode (f : Fmt) (neg : Bool) : Nat := f.sign neg + (2 ^ f.eb - 1) <<< f.mb

/-- The code of the largest finite value. -/
def Fmt.maxCode (f : Fmt) (neg : Bool) : Nat :=
  f.sign neg + match f.kind with
    | .ieee => (2 ^ f.eb - 1) <<< f.mb - 1
    | .fn => 2 ^ (f.eb + f.mb) - 2
    | .fin => 2 ^ (f.eb + f.mb) - 1

/-- Bits needed for a number. -/
def bitLen (m : Nat) : Nat := if m = 0 then 0 else Nat.log2 m + 1

/-- Divide by 2^sh and round: to nearest even, or toward zero. `more` says that the exact value lies a little above. Answers the
quotient and whether it is inexact. -/
def roundShift (rtz : Bool) (m : Nat) (sh : Int) (more : Bool) : Nat × Bool :=
  if sh ≤ 0 then (m <<< (-sh).toNat, more)
  else
    let n := sh.toNat
    let q := m >>> n
    let r := m % 2 ^ n
    let half := 2 ^ (n - 1)
    let up := !rtz && (half < r || (r = half && (more || q % 2 = 1)))
    (if up then q + 1 else q, r ≠ 0 || more)

/-- Round (−1)^neg × m × 2^e, or a value a little above it in magnitude, once to a format (R144, R193): to nearest even or toward
zero; overflow gives infinity, or the largest finite value where `sat` says so, where the format has no infinity, or toward
zero. Tininess is detected after rounding as if the exponent range were unbounded. -/
def Fmt.round (f : Fmt) (rtz sat neg : Bool) (m : Nat) (e : Int) (more : Bool := false) : Rnd :=
  if m = 0 && !more then ⟨f.sign neg, 0⟩
  else
    let emin : Int := 1 - f.bias
    let top : Int := e + (bitLen m : Int) - 1
    let q : Int := max (top - f.mb) (emin - f.mb)
    let r := roundShift rtz m (q - e) more
    let u := roundShift rtz m (top - f.mb - e) more
    let carry := r.1 = 2 ^ (f.mb + 1)
    let mant := if carry then 2 ^ f.mb else r.1
    let qq : Int := if carry then q + 1 else q
    let field : Int := if mant < 2 ^ f.mb then 0 else qq + f.mb + f.bias
    let limit : Int := 2 ^ f.eb - 1
    let ovf := match f.kind with
      | .ieee => decide (limit ≤ field)
      | .fn => decide (limit < field) || (decide (field = limit) && decide (mant % 2 ^ f.mb = 2 ^ f.mb - 1))
      | .fin => decide (limit < field)
    if ovf then
      ⟨if sat || rtz || f.kind ≠ .ieee then f.maxCode neg else f.infCode neg, flagOF + flagNX⟩
    else
      let tiny := decide (top < emin) && !(decide (u.1 = 2 ^ (f.mb + 1)) && decide (top + 1 = emin))
      ⟨f.sign neg + field.toNat <<< f.mb + mant % 2 ^ f.mb,
        if r.2 then flagNX + (if tiny then flagUF else 0) else 0⟩

/-- The code of an exact value in a format; a NaN gives the canonical one. -/
def Fmt.encode (f : Fmt) (rtz sat : Bool) (v : FV) : Rnd :=
  match v with
  | .nan sig => ⟨f.canon, if sig then flagNV else 0⟩
  | .inf neg => ⟨if f.kind = .ieee && !sat then f.infCode neg else f.maxCode neg,
      if f.kind = .ieee && !sat then 0 else flagOF + flagNX⟩
  | .fin neg m e => f.round rtz sat neg m e

/-- Round an exact value once to an integer of w bits, signed or not: values outside saturate (R147, R193). Flags: `ovf` where
the value lies outside, inexact otherwise. -/
def roundInt (rtz : Bool) (w ovf : Nat) (neg : Bool) (m : Nat) (e : Int) : Rnd :=
  let r := roundShift rtz m (-e) false
  let v : Int := if neg then -(r.1 : Int) else r.1
  let lo : Int := -(2 ^ (w - 1))
  let hi : Int := 2 ^ (w - 1) - 1
  if v < lo then ⟨(lo % 2 ^ w).toNat, ovf⟩
  else if hi < v then ⟨hi.toNat, ovf⟩
  else ⟨(v % 2 ^ w).toNat, if r.2 then flagNX else 0⟩

/-! ### Exact arithmetic -/

/-- Sign of a value. -/
def FV.neg : FV → Bool
  | .nan _ => false
  | .inf n => n
  | .fin n _ _ => n

/-- The value with its sign changed. -/
def FV.negate : FV → FV
  | .nan s => .nan s
  | .inf n => .inf (!n)
  | .fin n m e => .fin (!n) m e

/-- A zero. -/
def FV.isZero : FV → Bool
  | .fin _ m _ => m = 0
  | _ => false

/-- A NaN. -/
def FV.isNan : FV → Bool
  | .nan _ => true
  | _ => false

/-- A signalling NaN. -/
def FV.isSig : FV → Bool
  | .nan s => s
  | _ => false

/-- The signed integer of a finite value in units of 2^u, for u at or below its exponent. -/
def scaled (neg : Bool) (m : Nat) (e u : Int) : Int :=
  let k := m <<< (e - u).toNat
  if neg then -(k : Int) else k

/-- The exact product; infinity times zero is NaN (R188). -/
def FV.mul (a b : FV) : FV :=
  match a, b with
  | .nan _, _ => .nan false
  | _, .nan _ => .nan false
  | .fin n1 m1 e1, .fin n2 m2 e2 => .fin (xor n1 n2) (m1 * m2) (e1 + e2)
  | .inf n, o => if o.isZero then .nan false else .inf (xor n o.neg)
  | o, .inf n => if o.isZero then .nan false else .inf (xor n o.neg)

/-- The exact sum; opposite infinities give NaN, and an exact zero is −0 only where both are −0 (R188). -/
def FV.add (a b : FV) : FV :=
  match a, b with
  | .nan _, _ => .nan false
  | _, .nan _ => .nan false
  | .inf n1, .inf n2 => if n1 = n2 then .inf n1 else .nan false
  | .inf n, _ => .inf n
  | _, .inf n => .inf n
  | .fin n1 m1 e1, .fin n2 m2 e2 =>
    let u := min e1 e2
    let v := scaled n1 m1 e1 u + scaled n2 m2 e2 u
    if v = 0 then .fin (n1 && n2) 0 u else .fin (v < 0) v.natAbs u

/-- a < b for values that are no NaN; −0 is below +0 where `zeros` says so (R144). -/
def FV.lt (zeros : Bool) (a b : FV) : Bool :=
  match a, b with
  | .inf n1, .inf n2 => n1 && !n2
  | .inf n, _ => n
  | _, .inf n => !n
  | .fin n1 m1 e1, .fin n2 m2 e2 =>
    let u := min e1 e2
    let x := scaled n1 m1 e1 u
    let y := scaled n2 m2 e2 u
    x < y || (zeros && x = 0 && y = 0 && n1 && !n2)
  | _, _ => false

/-- a = b for values that are no NaN; the zeros are equal. -/
def FV.eq (a b : FV) : Bool := !a.isNan && !b.isNan && !a.lt false b && !b.lt false a

/-- Some operand is a signalling NaN: NV. -/
def sigFlag (l : List FV) : Nat := if l.any FV.isSig then flagNV else 0

/-- NV of a product: zero times infinity. -/
def mulInvalid (a b : FV) : Bool := !a.isNan && !b.isNan && (a.mul b).isNan

/-- NV of a sum: opposite infinities. -/
def addInvalid (a b : FV) : Bool := !a.isNan && !b.isNan && (a.add b).isNan

/-- The rounded sum and its flags (R144, R188). -/
def Fmt.addR (f : Fmt) (a b : FV) : Rnd :=
  let r := f.encode false false (a.add b)
  ⟨r.code, r.flags ||| sigFlag [a, b] ||| (if addInvalid a b then flagNV else 0)⟩

/-- The rounded product and its flags (R144). -/
def Fmt.mulR (f : Fmt) (a b : FV) : Rnd :=
  let r := f.encode false false (a.mul b)
  ⟨r.code, r.flags ||| sigFlag [a, b] ||| (if mulInvalid a b then flagNV else 0)⟩

/-- a + b × c with one rounding (R144). IEEE 754 leaves open whether zero times infinity signals NV where `a` is a quiet NaN:
`open` is the bit it then takes. (DESIGN CHOICE: notes/assumptions/10.md.) -/
def Fmt.fmaR (f : Fmt) (a b c : FV) (openNV : Bool) : Rnd :=
  let p := b.mul c
  let r := f.encode false false (a.add p)
  let inv := if mulInvalid b c then (if a.isNan then openNV else true) else addInvalid a p
  ⟨r.code, r.flags ||| sigFlag [a, b, c] ||| (if inv then flagNV else 0)⟩

/-- MIN or MAX (R144): the canonical NaN if either is a NaN, −0 below +0. The codes are those of a and b. -/
def Fmt.minMaxR (f : Fmt) (maxi : Bool) (ca cb : Nat) : Rnd :=
  let a := f.decode ca
  let b := f.decode cb
  if a.isNan || b.isNan then ⟨f.canon, sigFlag [a, b]⟩
  else if a.lt true b then ⟨if maxi then cb else ca, 0⟩
  else ⟨if maxi then ca else cb, 0⟩

end Sys2Proof.Machine
end

