-- ==== Sys2Proof/Machine/Special.lean ====
section
/-!
DEFINITION. The special functions of R149, correctly rounded. RCP, RSQRT and SQRT are exact quotients and roots; the others are
evaluated in fixed point with 700 fraction bits, far past the distance of any result of these formats from a rounding boundary
(notes/assumptions/8.md), with the inputs whose result is exact taken apart.
-/
namespace Sys2Proof.Machine

/-- Fraction bits of the fixed-point evaluation. -/
def fxP : Nat := 700

/-- One in fixed point. -/
def fxOne : Int := 2 ^ 700

/-- Fixed-point product, rounded down. -/
def fxMul (a b : Int) : Int := a * b / fxOne

/-- Fixed-point quotient, rounded down. -/
def fxDiv (a b : Int) : Int := a * fxOne / b

/-- x + x³/(3 n²…): the sum of `n` terms of the alternating or plain arctangent series of 1/k, for pi and logarithms. -/
def fxAtanInv (alt : Bool) (k : Int) (n : Nat) (pow : Int) (odd : Nat) (neg : Bool) : Int :=
  match n with
  | 0 => 0
  | n + 1 =>
    let t := pow / odd
    (if neg then -t else t) + fxAtanInv alt k n (pow / (k * k)) (odd + 2) (if alt then !neg else false)

/-- pi by Machin's formula, with 200 more bits than the evaluation needs for the reduction of large arguments. -/
def fxPiWide : Int :=
  let one : Int := 2 ^ 900
  4 * (4 * fxAtanInv true 5 400 (one / 5) 1 false - fxAtanInv true 239 130 (one / 239) 1 false)

/-- ln 2 = 2 artanh(1/3). -/
def fxLn2 : Int := 2 * fxAtanInv false 3 450 (fxOne / 3) 1 false

/-- Σ x^k / k! from term `k`, `n` terms, with `t` the term before. -/
def fxExpSum (x : Int) (n : Nat) (k : Nat) (t : Int) : Int :=
  match n with
  | 0 => 0
  | n + 1 => t + fxExpSum x n (k + 1) (fxMul t x / (k + 1 : Nat))

/-- e^x for fixed-point x, as a pair (y, k): the value is y × 2^k, y fixed point in about [0.7, 1.5). (PRESUMED: notes/assumptions/8.md.) -/
def fxExp (x : Int) : Int × Int :=
  let k := (2 * x + fxLn2) / (2 * fxLn2)
  (fxExpSum (x - k * fxLn2) 130 0 fxOne, k)

/-- e^x as one fixed-point number. -/
def fxExpFlat (x : Int) : Int :=
  let r := fxExp x
  if 0 ≤ r.2 then r.1 * 2 ^ r.2.toNat else r.1 / 2 ^ (-r.2).toNat

/-- 2 artanh(z): Σ 2 z^(2i+1)/(2i+1), `n` terms. -/
def fxArtanh2 (zz : Int) (n : Nat) (pow : Int) (odd : Nat) : Int :=
  match n with
  | 0 => 0
  | n + 1 => 2 * pow / odd + fxArtanh2 zz n (fxMul pow zz) (odd + 2)

/-- ln(m × 2^e) for m > 0: the mantissa is brought to [2/3, 4/3) first. (PRESUMED: notes/assumptions/8.md.) -/
def fxLn (m : Nat) (e : Int) : Int :=
  let l := bitLen m
  let y : Int := ((m : Int) * fxOne) / 2 ^ l
  let y2 := if y < 2 * fxOne / 3 then (2 * y, e + l - 1) else (y, e + l)
  let z := fxDiv (y2.1 - fxOne) (y2.1 + fxOne)
  y2.2 * fxLn2 + fxArtanh2 (fxMul z z) 160 z 1

/-- Σ of the sine or cosine series: terms from `k`, with `t` the term before. -/
def fxTrigSum (xx : Int) (n : Nat) (k : Nat) (t : Int) : Int :=
  match n with
  | 0 => 0
  | n + 1 => t + fxTrigSum xx n (k + 2) (-(fxMul t xx) / ((k + 1 : Nat) * (k + 2 : Nat) : Int))

/-- sin or cos of m × 2^e, with the argument reduced by multiples of pi/2. (PRESUMED: notes/assumptions/8.md.) -/
def fxTrig (cosine neg : Bool) (m : Nat) (e : Int) : Int :=
  let wide : Int := if 0 ≤ e + 900 then (m : Int) * 2 ^ (e + 900).toNat else (m : Int) / 2 ^ (-(e + 900)).toNat
  let half := fxPiWide / 2
  let k := (2 * wide + half) / (2 * half)
  let r := (wide - k * half) / 2 ^ 200
  let rr := fxMul r r
  let sinv := fxTrigSum rr 100 1 r
  let cosv := fxTrigSum rr 100 0 fxOne
  let v := if cosine then
      match (k % 4).toNat with | 0 => cosv | 1 => -sinv | 2 => -cosv | _ => sinv
    else
      match (k % 4).toNat with | 0 => sinv | 1 => cosv | 2 => -sinv | _ => -cosv
  if neg && !cosine then -v else v

/-- Σ of the error function's series x^(2i+1)/(i! (2i+1)), alternating. -/
def fxErfSum (xx : Int) (n : Nat) (k : Nat) (t : Int) : Int :=
  match n with
  | 0 => 0
  | n + 1 => t / (2 * k + 1 : Nat) + fxErfSum xx n (k + 1) (-(fxMul t xx) / (k + 1 : Nat))

/-- The integer square root by Newton's steps from above. -/
def isqrtGo (n : Nat) : Nat → Nat → Nat
  | 0, x => x
  | f + 1, x =>
    let y := (x + n / x) / 2
    if y < x then isqrtGo n f y else x

/-- The integer square root. -/
def isqrt (n : Nat) : Nat := if n = 0 then 0 else isqrtGo n (bitLen n + 2) (2 ^ ((bitLen n + 1) / 2))

/-- erf of a fixed-point x: 2/sqrt(pi) times the series. (PRESUMED: notes/assumptions/8.md.) -/
def fxErf (x : Int) : Int :=
  let s := fxErfSum (fxMul x x) 400 0 x
  let rootPi : Int := isqrt ((fxPiWide / 2 ^ 200) * fxOne).toNat
  fxDiv (2 * s) rootPi

/-- The fixed-point form of m × 2^e with its sign. -/
def fxOf (neg : Bool) (m : Nat) (e : Int) : Int :=
  let v : Int := if 0 ≤ e + 700 then (m : Int) * 2 ^ (e + 700).toNat else (m : Int) / 2 ^ (-(e + 700)).toNat
  if neg then -v else v

/-- Round a fixed-point result that is not exact. -/
def Fmt.fxRound (f : Fmt) (v : Int) : Rnd := f.round false false (v < 0) v.natAbs (-700) true

/-- Round y × 2^k, y fixed point and not exact. (PRESUMED: notes/assumptions/8.md.) -/
def Fmt.fxRoundAt (f : Fmt) (y k : Int) : Rnd := f.round false false false y.natAbs (k - 700) true

/-- A result below half the smallest subnormal, or beyond every finite value. -/
def Fmt.far (f : Fmt) (big : Bool) : Rnd := f.round false false false 1 (if big then 2000 else -2000) true

/-- The exact quotient 1/m × 2^−e, rounded once. -/
def Fmt.recip (f : Fmt) (neg : Bool) (m : Nat) (e : Int) : Rnd :=
  let q := 2 ^ 200 / m
  f.round false false neg q (-200 - e) (2 ^ 200 % m ≠ 0)

/-- The square root of m × 2^e, rounded once. -/
def Fmt.root (f : Fmt) (m : Nat) (e : Int) : Rnd :=
  let h := if e % 2 = 0 then (m * 2 ^ 200, e - 200) else (m * 2 ^ 201, e - 201)
  let r := isqrt h.1
  f.round false false false r (h.2 / 2) (r * r ≠ h.1)

/-- The reciprocal square root of m × 2^e, rounded once. -/
def Fmt.rroot (f : Fmt) (m : Nat) (e : Int) : Rnd :=
  let h := if e % 2 = 0 then (m, e) else (2 * m, e - 1)
  let q := 2 ^ 400 / h.1
  let r := isqrt q
  f.round false false false r (-200 - h.2 / 2) (r * r * h.1 ≠ 2 ^ 400)

/-- Clamp the magnitude of an argument whose result is settled beyond `n`. -/
def fxClamp (n : Int) (x : Int) : Int := if n * fxOne < x then n * fxOne else if x < -(n * fxOne) then -(n * fxOne) else x

/-- 2^x for x = m × 2^e that is an integer, if it is one of moderate size. -/
def intOf (neg : Bool) (m : Nat) (e : Int) : Option Int :=
  if 20 < (bitLen m : Int) + e then none
  else if 0 ≤ e then some (if neg then -((m : Int) * 2 ^ e.toNat) else (m : Int) * 2 ^ e.toNat)
  else if m % 2 ^ (-e).toNat = 0 then
    some (if neg then -((m / 2 ^ (-e).toNat : Nat) : Int) else ((m / 2 ^ (-e).toNat : Nat) : Int))
  else none

/-- A special function of one value (R149): 0 to 7 RCP, RSQRT, SQRT, EXP2, EXP, LOG2, LN, TANH; 8 to 11 SIGM, SIN, COS, ERF.
(PRESUMED: notes/assumptions/8.md.) -/
def Fmt.special (f : Fmt) (op : Nat) (v : FV) : Rnd :=
  let one := f.round false false false 1 0
  let nan : Rnd := ⟨f.canon, flagNV⟩
  match v with
  | .nan sig => ⟨f.canon, if sig then flagNV else 0⟩
  | .inf neg =>
    match op with
    | 0 => ⟨f.sign neg, 0⟩
    | 1 => if neg then nan else ⟨0, 0⟩
    | 2 => if neg then nan else ⟨f.infCode false, 0⟩
    | 3 | 4 => ⟨if neg then 0 else f.infCode false, 0⟩
    | 5 | 6 => if neg then nan else ⟨f.infCode false, 0⟩
    | 7 | 11 => ⟨f.sign neg + one.code, 0⟩
    | 8 => ⟨if neg then 0 else one.code, 0⟩
    | _ => nan
  | .fin neg m e =>
    if m = 0 then
      match op with
      | 0 | 1 => ⟨f.infCode neg, flagDZ⟩
      | 2 => ⟨f.sign neg, 0⟩
      | 3 | 4 | 10 => one
      | 5 | 6 => ⟨f.infCode true, flagDZ⟩
      | 8 => f.round false false false 1 (-1)
      | _ => ⟨f.sign neg, 0⟩
    else
      let x := fxOf neg m e
      let large := (9 : Int) < (bitLen m : Int) + e
      match op with
      | 0 => f.recip neg m e
      | 1 => if neg then nan else f.rroot m e
      | 2 => if neg then nan else f.root m e
      | 3 => match intOf neg m e with
        | some k => f.round false false false 1 k
        | none => if large then f.far (!neg) else let r := fxExp (fxMul x fxLn2); f.fxRoundAt r.1 r.2
      | 4 => if large then f.far (!neg) else let r := fxExp x; f.fxRoundAt r.1 r.2
      | 5 => if neg then nan
        else if m = 2 ^ (bitLen m - 1) then
          let k := e + (bitLen m : Int) - 1
          f.round false false (k < 0) k.natAbs 0
        else f.fxRound (fxDiv (fxLn m e) fxLn2)
      | 6 => if neg then nan
        else if m = 2 ^ (bitLen m - 1) && e + (bitLen m : Int) - 1 = 0 then ⟨0, 0⟩
        else f.fxRound (fxLn m e)
      | 7 =>
        let y := fxClamp 200 (if large then (if neg then -(200 * fxOne) else 200 * fxOne) else x)
        let a := fxExpFlat (2 * (if neg then -y else y))
        let t := fxDiv (a - fxOne) (a + fxOne)
        f.fxRound (if neg then -t else t)
      | 8 => if large then (if neg then f.far false else f.fxRound (fxOne - 1))
        else if neg then
          let r := fxExp x
          let d := fxOne + fxExpFlat x
          f.fxRoundAt (fxDiv r.1 d) r.2
        else f.fxRound (fxDiv fxOne (fxOne + fxExpFlat (-x)))
      | 9 => f.fxRound (fxTrig false neg m e)
      | 10 => f.fxRound (fxTrig true neg m e)
      | _ =>
        if (3 : Int) < (bitLen m : Int) + e then (let r := f.fxRound (fxOne - 1); ⟨f.sign neg + r.code, r.flags⟩)
        else f.fxRound (fxErf x)

end Sys2Proof.Machine
end

