-- ==== Sys2Proof/Machine/Vector.lean ====
section
/-!
DEFINITION. The vector unit: major opcodes 0x20 to 0x29 (R140 to R152, R228, R229).
-/
namespace Sys2Proof.Machine

/-! ### Lanes and types -/

/-- Bits of an element of type code 0 to 6 (R140). -/
def typW (ty : Nat) : Nat :=
  match ty with
  | 0 => 8 | 1 => 16 | 2 => 32 | 3 => 64 | 4 => 16 | 5 => 16 | _ => 32

/-- The float format of type code 4, 5 or 6 (R140). -/
def typFmt (ty : Nat) : Fmt := if ty = 4 then fmtBF else if ty = 5 then fmtHF else fmtF

/-- Lanes of a type. -/
def typN (ty : Nat) : Nat := 512 / typW ty

/-- Lane i of w bits. -/
def lane (w : Nat) (v : Vec) (i : Nat) : Nat := (v.toNat >>> (w * i)) % 2 ^ w

/-- A register from its lanes. -/
def ofLanes (w n : Nat) (f : Nat → Nat) : Vec :=
  BitVec.ofNat 512 ((List.range n).foldl (fun a i => a + (f i % 2 ^ w) <<< (w * i)) 0)

/-- A lane as a signed number. -/
def sLane (w x : Nat) : Int := if nbit x (w - 1) = 1 then (x : Int) - 2 ^ w else x

/-- The w bits of an integer. -/
def wrapI (w : Nat) (x : Int) : Nat := (x % 2 ^ w).toNat

/-- An integer held to the range of a signed w-bit number. -/
def satI (w : Nat) (x : Int) : Nat := wrapI w (max (-(2 ^ (w - 1))) (min (2 ^ (w - 1) - 1) x))

/-- A reserved operation or type: detail 0x01 (R142, R204). -/
def encOp (l : List Bool) : List Nat := if l.any (fun b => !b) then [0x01] else []

/-- Write a vector register at distance d. -/
def State.outV (s : State) (c t : Nat) (n : BitVec 5) (v : Vec) (d : Nat) : State := s.fly c t (.v n.toNat) v.toNat d

/-- Raise vflags with a float word's result, at its distance (R145, R152). -/
def State.outFlags (s : State) (c t flags d : Nat) : State := if flags = 0 then s else s.fly c t .flags flags d

/-- OR of the flags of lanes. -/
def orFlags (l : List Rnd) : Nat := l.foldl (fun a r => a ||| r.flags) 0

/-- A register from rounded lanes. -/
def ofRnd (w : Nat) (l : List Rnd) : Vec := ofLanes w l.length (fun i => (l.getD i ⟨0, 0⟩).code)

/-- A word that writes rounded lanes and their flags. -/
def State.outR (s : State) (c t : Nat) (n : BitVec 5) (w : Nat) (l : List Rnd) (d : Nat) : State :=
  (s.outV c t n (ofRnd w l) d).outFlags c t (orFlags l) d

/-! ### Integer arithmetic, logic and shifts -/

/-- One lane of integer arithmetic (R143). -/
def vintLane (op w x y : Nat) : Nat :=
  let a := sLane w x
  let b := sLane w y
  match op with
  | 0 => wrapI w (a + b)
  | 1 => wrapI w (a - b)
  | 2 => wrapI w (a * b)
  | 3 => wrapI w (a * b / 2 ^ w)
  | 4 => if a ≤ b then x else y
  | 5 => if a ≤ b then y else x
  | 6 => satI w (a + b)
  | _ => satI w (a - b)

/-- VADD, VSUB, VMUL, VMULH, VMIN, VMAX, VADDS, VSUBS (R142, R143, R228). -/
def execVintArith (c : CoreId) (t : ThreadId) (op ty : BitVec 3) (w : LR) (s : State) : Res :=
  let o := op.toNat
  let b := typW ty.toNat
  s.word c t w.g (encOp [ty.toNat < 4] ++ encV [w.a, w.b, w.c]) (fun s =>
    let x := s.vr c t w.b
    let y := s.vr c t w.c
    .done (s.outV c t w.a (ofLanes b (typN ty.toNat) (fun i => vintLane o b (lane b x i) (lane b y i)))
      (if o = 2 || o = 3 then 4 else 2)))

/-- One lane of logic, a shift by the low log2(w) bits, or ABS (R143). -/
def vlogLane (op w x y : Nat) : Nat :=
  let n := y % w
  match op with
  | 0 => x &&& y
  | 1 => x ||| y
  | 2 => x ^^^ y
  | 3 => x &&& (2 ^ w - 1 - y)
  | 4 => (x <<< n) % 2 ^ w
  | 5 => x >>> n
  | 6 => wrapI w (sLane w x / 2 ^ n)
  | _ => wrapI w (sLane w x).natAbs

/-- VAND, VOR, VXOR, VANDN, VSHL, VSHR, VSAR; VABS with C zero (R142, R143, R228). -/
def execVlogic (c : CoreId) (t : ThreadId) (op ty : BitVec 3) (w : LR) (s : State) : Res :=
  let o := op.toNat
  let b := typW ty.toNat
  s.word c t w.g (encOp [ty.toNat < 4] ++ encV (if o = 7 then [w.a, w.b] else [w.a, w.b, w.c]) ++ encZ [o ≠ 7 || w.c = 0]) (fun s =>
    let x := s.vr c t w.b
    let y := s.vr c t w.c
    .done (s.outV c t w.a (ofLanes b (typN ty.toNat) (fun i => vlogLane o b (lane b x i) (lane b y i))) 2))

/-! ### Float arithmetic -/

/-- One lane of float arithmetic on the codes of A, B and C (R144). (DESIGN CHOICE: notes/assumptions/9.md.) -/
def vfloatLane (f : Fmt) (op ca cb cc : Nat) (openNV : Bool) : Rnd :=
  let a := f.decode ca
  let b := f.decode cb
  let x := f.decode cc
  match op with
  | 0 => f.addR b x
  | 1 => f.addR b x.negate
  | 2 => f.mulR b x
  | 3 => f.fmaR a b x openNV
  | 4 => f.fmaR a b.negate x openNV
  | 5 => f.minMaxR false cb cc
  | 6 => f.minMaxR true cb cc
  | _ => ⟨cb % 2 ^ (f.width - 1), 0⟩

/-- VADD, VSUB, VMUL, VFMA, VFMS, VMIN, VMAX, VABS of float types (R142, R144, R145, R228). -/
def execVfloat (c : CoreId) (t : ThreadId) (op ty : BitVec 3) (w : LR) (s : State) : Res :=
  let o := op.toNat
  let f := typFmt ty.toNat
  let b := typW ty.toNat
  s.word c t w.g (encOp [4 ≤ ty.toNat && ty.toNat < 7] ++ encV (if o = 7 then [w.a, w.b] else [w.a, w.b, w.c]) ++ encZ [o ≠ 7 || w.c = 0]) (fun s =>
    let v := s.vr c t w.a
    let x := s.vr c t w.b
    let y := s.vr c t w.c
    let q := s.free
    let l := (List.range (typN ty.toNat)).map (fun i =>
      vfloatLane f o (lane b v i) (lane b x i) (lane b y i) (nbit q.1 i = 1))
    .done ((if o = 3 || o = 4 then q.2 else s).outR c t w.a b l 4))

/-! ### Compares and predicates of lanes -/

/-- Whether a compare holds, and its flags: IEEE 754 leaves open whether a relation of order signals NV on a quiet NaN, and
`openNV` is the bit it then takes (R145, R146; notes/assumptions/9.md). -/
def vcmpLane (op ty x y : Nat) (openNV : Bool) : Bool × Nat :=
  let w := typW ty
  if ty < 4 then
    let a := sLane w x
    let b := sLane w y
    (match op with
      | 0 => x = y | 1 => x ≠ y | 2 => a < b | 3 => a ≤ b | 4 => x < y | _ => x ≤ y, 0)
  else
    let a := (typFmt ty).decode x
    let b := (typFmt ty).decode y
    let nan := a.isNan || b.isNan
    let fl := sigFlag [a, b] ||| (if nan && 2 ≤ op && openNV then flagNV else 0)
    (match op with
      | 0 => a.eq b
      | 1 => !(a.eq b)
      | 2 => !nan && a.lt false b
      | _ => !nan && !(b.lt false a), fl)

/-- VCMPEQ, VCMPNE, VCMPLT, VCMPLE, VCMPLTU, VCMPLEU (R142, R146, R228). -/
def execVcmp (c : CoreId) (t : ThreadId) (op ty : BitVec 3) (w : LR) (s : State) : Res :=
  let o := op.toNat
  let y := ty.toNat
  let b := typW y
  s.word c t w.g (encOp [o < 6, y < 7, o < 4 || y < 4] ++ encV [w.a, w.b, w.c]) (fun s =>
    let p := s.vr c t w.b
    let q := s.vr c t w.c
    let fr := s.free
    let l := (List.range (typN y)).map (fun i => vcmpLane o y (lane b p i) (lane b q i) (nbit fr.1 i = 1))
    let v := ofLanes b (typN y) (fun i => if (l.getD i (false, 0)).1 then 2 ^ b - 1 else 0)
    .done (((if 4 ≤ y then fr.2 else s).outV c t w.a v 2).outFlags c t (l.foldl (fun a r => a ||| r.2) 0) 2))

/-- VANY, VALL (R146, R228). -/
def execVanyVall (c : CoreId) (t : ThreadId) (all : Bool) (ty : BitVec 3) (w : LR) (s : State) : Res :=
  let b := typW ty.toNat
  s.word c t w.g (encOp [ty.toNat < 7] ++ encV [w.b] ++ encZ [w.a.toNat < 8, w.c = 0]) (fun s =>
    let v := s.vr c t w.b
    let top := fun i => nbit (lane b v i) (b - 1) = 1
    let l := List.range (typN ty.toNat)
    .done (s.outP c t w.a (if all then l.all top else l.any top) 3))

/-! ### Special functions -/

/-- VRCP to VTANH, and VSIGM, VSIN, VCOS, VERF (R142, R149, R228). -/
def execVspecial (c : CoreId) (t : ThreadId) (second : Bool) (op ty : BitVec 3) (w : LR) (s : State) : Res :=
  let o := op.toNat
  let b := typW ty.toNat
  s.word c t w.g (encOp [!second || o < 4, 4 ≤ ty.toNat && ty.toNat < 7] ++ encV [w.a, w.b]) (fun s =>
    let v := s.vr c t w.b
    let f := typFmt ty.toNat
    let l := (List.range (typN ty.toNat)).map (fun i => f.special (if second then 8 + o else o) (f.decode (lane b v i)))
    .done (s.outR c t w.a b l (if ty.toNat = 6 then 12 else 8)))

/-! ### Conversion -/

/-- Bits of a code of tile formats 0x01 to 0x07 (R154). -/
def tileW (fmt : Nat) : Nat :=
  match fmt with
  | 1 => 8 | 2 => 4 | 3 => 8 | 4 => 8 | 5 => 6 | 6 => 6 | _ => 4

/-- The float format of tile formats 0x03 to 0x07 (R172). -/
def tileFmt (fmt : Nat) : Fmt :=
  match fmt with
  | 3 => fmtE4M3 | 4 => fmtE5M2 | 5 => fmtE3M2 | 6 => fmtE2M3 | _ => fmtE2M1

/-- A signed integer as a value. -/
def intFV (x : Int) : FV := .fin (x < 0) x.natAbs 0

/-- The value of a code of tile formats 0x01 to 0x07 (R172, R173). -/
def tileDecode (fmt code : Nat) : FV :=
  if fmt ≤ 2 then intFV (sLane (tileW fmt) code) else (tileFmt fmt).decode code

/-- One lane converted between the types of R140 (R147): `fr` is the free value of an integer that does not fit a narrower
integer type, for which the spec states no result. (DESIGN CHOICE: notes/assumptions/10.md.) -/
def cvtLane (src dst code : Nat) (rtz : Bool) (fr : Nat) : Rnd :=
  let ws := typW src
  let wd := typW dst
  if src < 4 then
    let x := sLane ws code
    if dst < 4 then
      (if -(2 ^ (wd - 1)) ≤ x && x < 2 ^ (wd - 1) then ⟨wrapI wd x, 0⟩ else ⟨fr % 2 ^ wd, 0⟩)
    else (typFmt dst).encode rtz false (intFV x)
  else
    let v := (typFmt src).decode code
    if dst < 4 then
      match v with
      | .nan _ => ⟨0, flagNV⟩
      | .inf n => ⟨wrapI wd (if n then -(2 ^ (wd - 1)) else 2 ^ (wd - 1) - 1), flagNV⟩
      | .fin n m e => roundInt rtz wd flagNV n m e
    else (typFmt dst).encode rtz false v

/-- One wide lane packed into a code of tile formats 0x01 to 0x07, saturating (R147). A NaN gives 0 in the integer formats; for
the float formats the spec states no code, and `fr` is a free value. (DESIGN CHOICE: notes/assumptions/10.md.) -/
def packLane (fmt : Nat) (v : FV) (rtz : Bool) (fr : Nat) : Rnd :=
  let w := tileW fmt
  match v with
  | .nan sig => if fmt ≤ 2 then ⟨0, flagNV⟩ else ⟨fr % 2 ^ w, if sig then flagNV else 0⟩
  | .inf n => if fmt ≤ 2 then ⟨wrapI w (if n then -(2 ^ (w - 1)) else 2 ^ (w - 1) - 1), flagNV⟩
    else (tileFmt fmt).encode rtz true v
  | .fin n m e => if fmt ≤ 2 then roundInt rtz w flagNV n m e else (tileFmt fmt).round rtz true n m e

/-- The encoding conditions of VCVT (R147, R229). -/
def cvtEnc (fn : BitVec 6) (w : LR) : List Nat :=
  let k := fn.toNat / 16
  let src := fn.toNat % 8
  let d := w.c.toNat % 8
  encV [w.a, w.b] ++ encOp [w.c.toNat < 16, match k with
    | 0 => src < 7 && d < 7
    | 1 | 2 => 1 ≤ src && (d = 4 || d = 6)
    | _ => false]

/-- VCVT (R147, R229): conversions between types, unpacking and packing. (DESIGN CHOICE: notes/assumptions/10.md.)
(DESIGN CHOICE: notes/assumptions/16.md.) -/
def execVcvt (c : CoreId) (t : ThreadId) (fn : BitVec 6) (w : LR) (s : State) : Res :=
  let k := fn.toNat / 16
  let upper : Bool := nbit fn.toNat 3 = 1
  let src := fn.toNat % 8
  let d := w.c.toNat % 8
  let rtz : Bool := w.c.toNat / 8 = 1
  s.word c t w.g (cvtEnc fn w) (fun s =>
    let b := s.vr c t w.b
    let fr := fun i => Config.freeNat (s.freeCtr + i)
    let s1 := { s with freeCtr := s.freeCtr + 64 }
    match k with
    | 0 =>
      let ns := typN src
      let nd := typN d
      let base := if upper && nd < ns then ns / 2 else 0
      let n := min ns nd
      let l := (List.range n).map (fun i => cvtLane src d (lane (typW src) b (base + i)) rtz (fr i))
      .done (s1.outR c t w.a (typW d) l 3)
    | 1 =>
      let f := typFmt d
      let l := (List.range (typN d)).map (fun i =>
        f.encode false false (tileDecode src (((b.toNat >>> (if upper then 256 else 0)) >>> (tileW src * i)) % 2 ^ tileW src)))
      .done (s1.outR c t w.a (typW d) l 3)
    | _ =>
      let f := typFmt d
      let l := (List.range (typN d)).map (fun i => packLane src (f.decode (lane (typW d) b i)) rtz (fr i))
      .done (s1.outR c t w.a (tileW src) l 3))

/-! ### Moves, permutes, reductions and memory -/

/-- VMOV, VSEL, VBCAST, VINS (R142, R146, R228, R229). -/
def execVmove (c : CoreId) (t : ThreadId) (op : VMoveOp) (ty : BitVec 3) (w : LR) (s : State) : Res :=
  let b := typW ty.toNat
  let n := typN ty.toNat
  let regs := match op with
    | .mov => encV [w.a, w.b] | .sel => encV [w.a, w.b, w.c] | .bcast | .ins => encV [w.a]
  s.word c t w.g (encOp [ty.toNat < 7] ++ regs) (fun s =>
    let v := s.vr c t w.a
    .done (s.outV c t w.a (match op with
      | .mov => s.vr c t w.b
      | .sel => ofLanes b n (fun i =>
          if nbit (lane b v i) (b - 1) = 1 then lane b (s.vr c t w.b) i else lane b (s.vr c t w.c) i)
      | .bcast => ofLanes b n (fun _ => (s.x c t w.b).toNat)
      | .ins => ofLanes b n (fun i => if i = (s.x c t w.c).toNat % n then (s.x c t w.b).toNat else lane b v i)) 2))

/-- VPERM, VROT (R142, R228, R229). -/
def execVpermRot (c : CoreId) (t : ThreadId) (rot : Bool) (ty : BitVec 3) (w : LR) (s : State) : Res :=
  let b := typW ty.toNat
  let n := typN ty.toNat
  s.word c t w.g (encOp [ty.toNat < 7] ++ encV (if rot then [w.a, w.b] else [w.a, w.b, w.c])) (fun s =>
    let v := s.vr c t w.b
    .done (s.outV c t w.a (ofLanes b n (fun i =>
      lane b v (if rot then (i + (s.x c t w.c).toNat) % n else lane b (s.vr c t w.c) i % n))) 3))

/-- VEXT (R228, R229). The spec does not state the bits of sA above the lane's width: they are free values
(notes/assumptions/1.md). (DESIGN CHOICE: notes/assumptions/10.md.) -/
def execVext (c : CoreId) (t : ThreadId) (ty : BitVec 3) (w : LR) (s : State) : Res :=
  let b := typW ty.toNat
  s.word c t w.g (encOp [ty.toNat < 7] ++ encV [w.b]) (fun s =>
    let x := lane b (s.vr c t w.b) ((s.x c t w.c).toNat % typN ty.toNat)
    let q := s.free
    .done ((if b = 64 then s else q.2).outX c t w.a (BitVec.ofNat 64 (x + (if b = 64 then 0 else q.1) <<< b)) 2))

/-- The fixed tree of R148, over `n` rounds. -/
def treeReduce (f : Rnd → Rnd → Rnd) : Nat → List Rnd → List Rnd
  | 0, l => l
  | n + 1, l =>
    let rec pairUp : List Rnd → List Rnd
      | a :: b :: r => f a b :: pairUp r
      | l => l
    treeReduce f n (pairUp l)

/-- One combination of the reduction tree in binary32, with the flags so far (R148). -/
def reduceOp (op : Nat) (a b : Rnd) : Rnd :=
  let r := match op with
    | 0 => fmtF.addR (fmtF.decode a.code) (fmtF.decode b.code)
    | 1 => fmtF.minMaxR true a.code b.code
    | _ => fmtF.minMaxR false a.code b.code
  ⟨r.code, r.flags ||| a.flags ||| b.flags⟩

/-- The reduction of an integer vector (R148): exact, sign-extended, modulo 2^64. -/
def reduceInt (op w n : Nat) (v : Vec) : Word :=
  let l := (List.range n).map (fun i => sLane w (lane w v i))
  match op with
  | 0 => BitVec.ofInt 64 (l.foldl (· + ·) 0)
  | 1 => BitVec.ofInt 64 (l.foldl max (l.headD 0))
  | _ => BitVec.ofInt 64 (l.foldl min (l.headD 0))

/-- RSUM, RMAX, RMIN (R142, R148, R228). -/
def execVreduce (c : CoreId) (t : ThreadId) (op ty : BitVec 3) (w : LR) (s : State) : Res :=
  let o := op.toNat
  let y := ty.toNat
  let b := typW y
  s.word c t w.g (encOp [o < 3, y < 7] ++ encV [w.b]) (fun s =>
    let v := s.vr c t w.b
    if y < 4 then .done (s.outX c t w.a (reduceInt o b (typN y) v) 6)
    else
      let l := (List.range (typN y)).map (fun i => fmtF.encode false false ((typFmt y).decode (lane b v i)))
      let r := (treeReduce (reduceOp o) 5 l).headD ⟨0, 0⟩
      .done ((s.outX c t w.a (BitVec.ofNat 64 r.code) 6).outFlags c t r.flags 6))

/-- Distances of VLD (R152). -/
def vectorDist : LoadDist := ⟨5, 8, 6⟩

/-- VLD vA, [sB + sC] (R150, R151, R228). -/
def execVld (c : CoreId) (t : ThreadId) (w : LR) (s : State) : Res :=
  s.word c t w.g (encV [w.a]) (fun s => s.load c t (s.x c t w.b + s.x c t w.c) 64 (.v w.a.toNat) vectorDist)

/-- VST vA, [sB + sC] (R150, R228). -/
def execVst (c : CoreId) (t : ThreadId) (w : LR) (s : State) : Res :=
  s.word c t w.g (encV [w.a]) (fun s => s.store c t (s.x c t w.b + s.x c t w.c) 64 (s.vr c t w.a).toNat)

end Sys2Proof.Machine
end

