-- ==== Sys2Proof/Machine/Tile.lean ====
section
/-!
DEFINITION. The tile register file: TCFG, TLD, TLD.r, TST, TLDQ, the row moves and TREL, and the rows that a TLD or TST requests
(R153 to R167, R230).
-/
namespace Sys2Proof.Machine

/-! ### Formats and configurations -/

/-- The granule of a tile format's BPR; 0 where the format is reserved (R154). -/
def granule (fmt : Nat) : Nat :=
  match fmt with
  | 0 | 1 | 2 | 3 | 4 | 7 => 1
  | 5 | 6 => 3
  | 8 | 9 | 13 => 32
  | 10 | 11 => 24
  | 12 => 16
  | 14 | 15 => 2
  | 16 => 4
  | _ => 0

/-- An MX format (R154). -/
def isMx (fmt : Nat) : Bool := 8 ≤ fmt && fmt ≤ 13

/-- Scale bytes of a row (R153, R154). -/
def scaleBytes (fmt bpr : Nat) : Nat := if isMx fmt then bpr / granule fmt else 0

/-- ROWS of a tile; 0 is unconfigured. -/
def State.tRows (s : State) (c n : Nat) : Nat := s.fld tcfg_ROWS c n
/-- BPR of a tile. -/
def State.tBpr (s : State) (c n : Nat) : Nat := s.fld tcfg_BPR c n
/-- FMT of a tile. -/
def State.tFmt (s : State) (c n : Nat) : Nat := s.fld tcfg_FMT c n

/-- Bytes that a tile stores (R153). -/
def State.tileBytes (s : State) (c n : Nat) : Nat :=
  s.tRows c n * (s.tBpr c n + scaleBytes (s.tFmt c n) (s.tBpr c n))

/-- Thread t is a member of the tile's gang (R158). -/
def State.inGang (s : State) (c t n : Nat) : Bool :=
  s.fld tcfg_BASE c n ≤ t && t < s.fld tcfg_BASE c n + s.fld tcfg_GANG c n

/-- Thread t may operate on the tile: of its gang and its world (R158). -/
def State.tileMine (s : State) (c t n : Nat) : Bool := s.inGang c t n && s.fld tcfg_WORLD c n = s.world c t

/-- The rows that thread t holds, ascending (R158). -/
def State.myRows (s : State) (c t n : Nat) : List Nat :=
  (List.range (s.tRows c n)).filter (fun r => s.fld tcfg_BASE c n + r % s.fld tcfg_GANG c n = t)

/-- Replace a tile. -/
def State.setTile (s : State) (c n : Nat) (x : Tile) : State :=
  s.setCore c { s.core c with tiles := Sparse.set {} (s.core c).tiles n x }

/-- The operand latches of a tile are no longer LIVE (R157, R166). -/
def State.dropLatches (s : State) (c n : Nat) : State :=
  let k := s.core c
  let f := fun (l : Latch) => if l.tile = n then { l with live := false, fresh := false } else l
  s.setCore c { k with latchA := f k.latchA, latchB := f k.latchB }

/-- Configure or release a tile: valid bits clear, latches dropped, rows read as zero (R157). A released tile's tcfgN is 0 as a whole.
(DESIGN CHOICE: notes/assumptions/100.md.) -/
def State.configure (s : State) (c n : Nat) (w : Word) : State :=
  (((s.setReg .tcfg c n w).setTile c n {}).dropLatches c n)

/-- The hazard of a busy tile: vector 4 with the tile in DETAIL[2:0] and DETAIL[3] for another thread's operation (R163,
R164). -/
def State.hazard (s : State) (c t : Nat) (tiles : List Nat) : Option Nat :=
  tiles.findSome? (fun n => ((s.core c).busyBy n).map (fun o => n + if o = t then 0 else 8))

/-- The first condition of R156 that fails, by its detail. -/
def State.tcfgDetail (s : State) (c t n : Nat) (v : Word) : Option Nat :=
  let rows := bitsOf v 6 0
  let bpr := bitsOf v 14 8
  let fmt := bitsOf v 20 16
  let gang := bitsOf v 26 23
  let base := bitsOf v 29 27
  let world := s.world c t
  if bitsOf v 63 31 ≠ 0 || bitsOf v 22 21 ≠ 0 || bitsOf v 15 15 ≠ 0 || bitsOf v 7 7 ≠ 0 then some 0x0D
  else if s.tRows c n ≠ 0 && !s.inGang c t n && s.supOf c (s.fld tcfg_WORLD c n) ≠ t then some 0x07
  else if rows = 0 then none
  else if gang ≠ 1 && gang ≠ 2 && gang ≠ 4 && gang ≠ 8 then some 0x06
  else if base % gang ≠ 0 || !(base ≤ t && t < base + gang)
      || (List.range gang).any (fun i => s.world c (base + i) ≠ world) then some 0x06
  else if 64 < rows || 64 < bpr then some 0x01
  else if granule fmt = 0 then some 0x03
  else if bpr = 0 || bpr % granule fmt ≠ 0 then some 0x04
  else if rows % gang ≠ 0 then some 0x05
  else if 32768 < rows * (bpr + scaleBytes fmt bpr) +
      ((List.range 8).filter (· ≠ n)).foldl (fun a i => a + s.tileBytes c i) 0 then some 0x02
  else none

/-- TCFG tN, sB (R155 to R157, R163, R230). -/
def execTcfg (c : CoreId) (t : ThreadId) (w : LR) (s : State) : Res :=
  s.word c t w.g (encZ [w.a.toNat < 8, w.c = 0]) (fun s =>
    let n := w.a.toNat
    let v := s.x c t w.b
    match s.hazard c t [n] with
    | some d => .exc 4 d 0 0
    | none => match s.tcfgDetail c t n v with
      | some d => .exc 5 d 0 0
      | none => .done (s.configure c n (if bitsOf v 6 0 = 0 then 0
          else BitVec.ofNat 64 (v.toNat % 2 ^ 30 + s.world c t * 2 ^ 30))))

/-- TREL #mask, #f (R164, R165, R230). -/
def execTrel (c : CoreId) (t : ThreadId) (w : LR) (s : State) : Res :=
  s.word c t w.g (encZ [w.a = 0, immBC w < 512]) (fun s =>
    let tiles := (List.range 8).filter (fun n => nbit (immBC w) n = 1)
    let conf := tiles.filter (fun n => s.tRows c n ≠ 0)
    match s.hazard c t tiles with
    | some d => .exc 4 d 0 0
    | none =>
      if conf.any (fun n => !s.tileMine c t n) then .exc 5 8 0 0
      else .done (conf.foldl (fun s n =>
        if nbit (immBC w) 8 = 1 then s.configure c n 0
        else (s.setTile c n { (s.core c).tile n with valid := 0 }).dropLatches c n) s))

/-! ### TLD and TST -/

/-- The mailbox completes when every requested row has landed, been acknowledged or failed (R161, R162). -/
def State.xferEnd (s : State) (c : Nat) (x : TileXfer) : State :=
  if x.todo.isEmpty && x.out.isEmpty then
    let k := s.core c
    let s1 := s.setCore c { k with xfers := k.xfers.filter (fun y => !(y.thread = x.thread && y.mb = x.mb)) }
    match x.fail with
    | some (_, st) => s1.mbReply c x.thread x.mb st.toNat 0
    | none => if x.quit then s1.mbReply c x.thread x.mb 0x0104 0
      else s1.mbReply c x.thread x.mb 0 (BitVec.ofNat 64 x.done)
  else
    let k := s.core c
    s.setCore c { k with xfers := k.xfers.map (fun y => if y.thread = x.thread && y.mb = x.mb then x else y) }

/-- Start a TLD, TLD.r or TST over the given rows of the issuer (R160, R161). -/
def State.xferStart (s : State) (c t n : Nat) (store : Bool) (w : LR) (rows : List Nat) : State :=
  let k := s.core c
  let x : TileXfer := { tile := n, thread := t, world := s.world c t, level := s.level c t, store := store, base := s.x c t w.b, stride := s.x c t w.c,
                        mb := w.a.toNat / 8, todo := rows }
  ((s.setCore c { k with xfers := k.xfers ++ [x] }).mbPend c t (w.a.toNat / 8)).xferEnd c x

/-- The checks of TLD and TST before any row is requested (R80, R158 to R160). -/
def State.xferCheck (s : State) (c t : Nat) (w : LR) (k : Fx) : Fx :=
  let n := w.a.toNat % 8
  if s.mbBusy c t (w.a.toNat / 8) then .exc 1 0x0A 0 0
  else if s.tRows c n = 0 then .exc 5 0x0C 0 0
  else if !s.tileMine c t n then .exc 5 8 0 0
  else if (s.x c t w.b).toNat % 4 ≠ 0 || (s.x c t w.c).toNat % 4 ≠ 0 then .exc 2 0 (s.x c t w.b) 0
  else k

/-- TLD tN, mK, [sB], sC (R159 to R161, R230). -/
def execTld (c : CoreId) (t : ThreadId) (w : LR) (s : State) : Res :=
  s.word c t w.g [] (fun s => s.xferCheck c t w (
    let n := w.a.toNat % 8
    let rows := s.myRows c t n
    let x := (s.core c).tile n
    let keep := BitVec.ofNat 64 (maskOf 64 (fun r => !rows.contains r))
    .done ((s.setTile c n { x with valid := x.valid &&& keep }).xferStart c t n false w rows)))

/-- TLD.r tN, mK, [sB], sC (R159, R162, R230). -/
def execTldR (c : CoreId) (t : ThreadId) (w : LR) (s : State) : Res :=
  s.word c t w.g [] (fun s => s.xferCheck c t w (
    let n := w.a.toNat % 8
    .done (s.xferStart c t n false w
      ((s.myRows c t n).filter (fun r => nbit ((s.core c).tile n).valid.toNat r = 0)))))

/-- TST tN, mK, [sB], sC (R159 to R161, R230). -/
def execTst (c : CoreId) (t : ThreadId) (w : LR) (s : State) : Res :=
  s.word c t w.g [] (fun s => s.xferCheck c t w (
    let n := w.a.toNat % 8
    .done (s.xferStart c t n true w
      ((s.myRows c t n).filter (fun r => nbit ((s.core c).tile n).valid.toNat r = 1)))))

/-- TLDQ tN (R162, R230): the issuer's TLD on the tile requests no further row; the earliest of several. (DESIGN CHOICE: notes/assumptions/100.md.) -/
def execTldq (c : CoreId) (t : ThreadId) (w : LR) (s : State) : Res :=
  s.word c t w.g (encZ [w.a.toNat < 8, w.b = 0, w.c = 0]) (fun s =>
    let n := w.a.toNat
    match (s.core c).xfers.find? (fun x => x.tile = n && x.thread = t.val && !x.store && !x.todo.isEmpty && x.fail.isNone) with
    | some x => .done (s.xferEnd c { x with todo := [], quit := true })
    | none => .done s)

/-! ### Row moves -/

/-- The checks of TMOVV, TMOVT, TSCL and TSCLW in order (R159). -/
def State.rowDetail (s : State) (c t n r : Nat) (scales needValid : Bool) : Option Nat :=
  if s.tRows c n = 0 then some 0x0C
  else if !s.tileMine c t n then some 8
  else if scales && scaleBytes (s.tFmt c n) (s.tBpr c n) = 0 then some 0x0B
  else if s.tRows c n ≤ r then some 0x0A
  else if s.fld tcfg_BASE c n + r % s.fld tcfg_GANG c n ≠ t then some 8
  else if needValid && nbit ((s.core c).tile n).valid.toNat r = 0 then some 9
  else none

/-- The tile is busy for 3 cycles (R163). -/
def State.shortBusy (s : State) (c t n : Nat) : State :=
  let k := s.core c
  let x := k.tile n
  s.setTile c n { x with short := x.short.filter (fun p => k.cyc < p.1) ++ [(k.cyc + 3, t)] }

/-- A row of a tile. -/
def State.tileRow (s : State) (c n r : Nat) : TileRow := Sparse.get {} ((s.core c).tile n).rows r

/-- The row that sC[5:0] names. -/
def State.rowNum (s : State) (c t : Nat) (w : LR) : Nat := (s.x c t w.c).toNat % 64

/-- A row move that passes its checks. -/
def State.rowMove (s : State) (c t : Nat) (w : LR) (scales needValid : Bool) (f : State → Nat → Nat → State) : Fx :=
  let n := w.b.toNat
  let r := s.rowNum c t w
  match s.rowDetail c t n r scales needValid with
  | some d => .exc 5 d 0 0
  | none => .done (f (s.shortBusy c t n) n r)

/-- TMOVV vA, tN, sC (R159, R230). -/
def execTmovv (c : CoreId) (t : ThreadId) (w : LR) (s : State) : Res :=
  s.word c t w.g (encV [w.a] ++ encZ [w.b.toNat < 8]) (fun s =>
    s.rowMove c t w false true (fun s n r =>
      s.fly c t (.v w.a.toNat) ((s.tileRow c n r).data.toNat % 2 ^ (8 * s.tBpr c n)) 3))

/-- TMOVT tN, sC, vA (R159, R230). -/
def execTmovt (c : CoreId) (t : ThreadId) (w : LR) (s : State) : Res :=
  s.word c t w.g (encV [w.a] ++ encZ [w.b.toNat < 8]) (fun s =>
    s.rowMove c t w false false (fun s n r =>
      s.fly c t (.row n r) ((s.vr c t w.a).toNat % 2 ^ (8 * s.tBpr c n)) 3))

/-- TSCL sA, tN, sC (R159, R230). -/
def execTscl (c : CoreId) (t : ThreadId) (w : LR) (s : State) : Res :=
  s.word c t w.g (encZ [w.b.toNat < 8]) (fun s =>
    s.rowMove c t w true true (fun s n r => s.fly c t (.s w.a.toNat) (s.tileRow c n r).scale.toNat 3))

/-- TSCLW tN, sC, sB, the source register named by A (R159, R230). -/
def execTsclw (c : CoreId) (t : ThreadId) (w : LR) (s : State) : Res :=
  s.word c t w.g (encZ [w.b.toNat < 8]) (fun s =>
    s.rowMove c t w true false (fun s n r =>
      s.fly c t (.scale n r) ((s.x c t w.a).toNat % 2 ^ (8 * scaleBytes (s.tFmt c n) (s.tBpr c n))) 3))

/-! ### The rows of a TLD or TST -/

/-- The transfer of thread t that completes to mailbox m. -/
def Core.xfer (k : Core) (t m : Nat) : Option TileXfer := k.xfers.find? (fun x => x.thread = t && x.mb = m)

/-- A row fails: no further row is requested, and the lowest failed row's status is kept (R161). -/
def TileXfer.failed (x : TileXfer) (r status : Nat) : TileXfer :=
  { x with
    todo := []
    out := x.out.filter (· ≠ r)
    fail := match x.fail with
      | some (q, st) => if r < q then some (r, BitVec.ofNat 16 status) else some (q, st)
      | none => some (r, BitVec.ofNat 16 status) }

/-- A row lands or is acknowledged. -/
def TileXfer.landed (x : TileXfer) (r : Nat) : TileXfer := { x with out := x.out.filter (· ≠ r), done := x.done + 1 }

/-- The bytes of a row in memory: BPR data bytes, then the scale bytes (R159). -/
def State.rowLen (s : State) (c n : Nat) : Nat := s.tBpr c n + scaleBytes (s.tFmt c n) (s.tBpr c n)

/-- A row as one number, little-endian (R159). -/
def State.rowImage (s : State) (c n r : Nat) : Nat :=
  (s.tileRow c n r).data.toNat % 2 ^ (8 * s.tBpr c n) + (s.tileRow c n r).scale.toNat <<< (8 * s.tBpr c n)

/-- Put a landed row into its tile and set its valid bit (R161). -/
def State.putRow (s : State) (c n r v : Nat) : State :=
  let b := 8 * s.tBpr c n
  let sb := 8 * scaleBytes (s.tFmt c n) (s.tBpr c n)
  s.setRow c n r (fun _ => ⟨BitVec.ofNat 512 (v % 2 ^ b), BitVec.ofNat 32 ((v >>> b) % 2 ^ sb)⟩) true

/-- The place of an access of n bytes that a transfer or an image makes for `w`, the status with which its checks refuse it, or a wait in the
translation store (R48, R116, R160, R196, R412, R414). (DEDUCED: notes/assumptions/18.md.) -/
inductive RowAt where
  | to (p : Place)
  | refused (status : Nat)
  | hold
  deriving DecidableEq, Repr

/-- Where a row of a transfer, or a block of an image, leads. -/
def State.rowPlace (s : State) (c : Nat) (w : Who) (a : Word) (n : Nat) (write : Bool) : RowAt :=
  match s.translate w a write with
  | .fault _ => .refused 0x0402
  | .hold _ => .hold
  | .to p =>
    if s.aheadOf c p then (if p.isMmr then .refused 0x0402 else .to p)
    else match p with
      | .bank m off =>
        if (s.worldCheck m off w).isSome || (s.worldCheck m (off + n - 1) w).isSome then .refused 0x0402
        else if (m = c || w.world = 0) && 0x100000 ≤ off && s.poolBacked m && !inHbmWindow (a.toNat % 2 ^ 48) then .refused 0x0402
        else if write && s.spillRefuses m off n w then .refused 0x0402
        else .to p
      | .hbm _ _ => .to p
      | .remote _ _ => if s.regSpace p then .refused 0x0402 else .to p
      | _ => .refused 0x0402

/-- The agent of a transfer's rows. -/
def State.xferWho (s : State) (c : Nat) (x : TileXfer) : Who := { s.who c x.thread with world := x.world, level := x.level }

/-- A transfer requests row r, the first of those left, at place p: a row of an own bank is served at once, another's request leaves (R160, R161). -/
def State.rowRequest (s : State) (c : Nat) (x : TileXfer) (r : Nat) (a : Word) (p : Place) : State :=
  let n := s.rowLen c x.tile
  let t := x.thread
  match p.ownBank c a with
  | some off =>
    if x.store then
      let q := s.bankWrite c off n (2 ^ n - 1) (s.rowImage c x.tile r)
      q.2.xferEnd c (x.landed r)
    else match s.bankRead c off n with
      | (some v, s1) => (s1.putRow c x.tile r v).xferEnd c (x.landed r)
      | (none, s1) => s1.xferEnd c (x.failed r 0x0401)
  | none =>
    let s1 := s.bypassGo c a n x.store
    let s2 := if x.store then s1.noteWrite c t p else s1
    (s2.depart c (.row t x.mb r) a n [0] ([c, t, 9, a.toNat, n, x.mb, r] ++ (if x.store then [s.rowImage c x.tile r, s.streamOf c t, (s1.thr c t).nextW]
      else []))).xferEnd c x

/-- An access at place p pauses: its bank keeps this cycle for its network port (R237), or the write-backs of its lines are not acknowledged
(R254). -/
def State.accessPauses (s : State) (c : Nat) (a : Word) (n : Nat) (p : Place) : Bool :=
  match p.ownBank c a with
  | some off => s.portHeld c off
  | none => s.bypassWaits c a n

/-- TILE_ROW_REQUEST: the TLD or TST of thread t to mailbox m requests its next row, at most 16 outstanding (R160). While the row's access pauses, the
write-backs it waits for leave and the row is still to be requested (R237, R254). -/
def execTileRowRequest (c : CoreId) (t : ThreadId) (m : Fin 4) (s : State) : Res :=
  .next (match (s.core c).xfer t m with
    | none => s
    | some x =>
      match x.todo with
      | [] => s
      | r :: rest =>
        let a := x.base + x.stride * BitVec.ofNat 64 r
        let n := s.rowLen c x.tile
        let y := { x with todo := rest, out := x.out ++ [r] }
        if 16 ≤ x.out.length then s
        else match s.rowPlace c (s.xferWho c x) a n x.store with
          | .hold => s
          | .refused st => s.xferEnd c (y.failed r st)
          | .to p =>
            if s.accessPauses c a n p then (if (p.ownBank c a).isSome then s else s.bypassFlush c a n)
            else s.rowRequest c y r a p)

/-- TILE_ROW_LAND: the reply of a requested TLD row (R161). -/
def State.rowLand (s : State) (c : CoreId) (t : ThreadId) (m : Fin 4) (r : Fin 64) (status : Status) (v : BitVec 544) : State :=
  let s := s.landAccess c (.row t m r) 0
  (match (s.core c).xfer t m with
    | none => s
    | some x =>
      if x.store || !x.out.contains r.val then s
      else if status.toNat ≤ 1 then (s.putRow c x.tile r v.toNat).xferEnd c (x.landed r)
      else s.xferEnd c (x.failed r status.toNat))

/-- TILE_ROW_LAND (R161). -/
def execTileRowLand (c : CoreId) (t : ThreadId) (m : Fin 4) (r : Fin 64) (status : Status) (v : BitVec 544) (s : State) : Res :=
  .next (s.inward (s.redir c) (fun s => s.rowLand (s.redir c) t m r status v))

/-- TILE_ROW_ACK: the acknowledgement of a requested TST row (R161). -/
def State.rowAck (s : State) (c : CoreId) (t : ThreadId) (m : Fin 4) (r : Fin 64) (status : Status) : State :=
  let s := s.landAccess c (.row t m r) 0
  (match (s.core c).xfer t m with
    | none => s
    | some x =>
      if !x.store || !x.out.contains r.val then s
      else if status.toNat ≤ 1 then s.xferEnd c (x.landed r)
      else s.xferEnd c (x.failed r status.toNat))

/-- TILE_ROW_ACK (R161). -/
def execTileRowAck (c : CoreId) (t : ThreadId) (m : Fin 4) (r : Fin 64) (status : Status) (s : State) : Res :=
  .next (s.inward (s.redir c) (fun s => s.rowAck (s.redir c) t m r status))

end Sys2Proof.Machine
end

