-- ==== Sys2Proof/Machine/Matrix.lean ====
section
/-!
DEFINITION. The matrix array: the words MMA, ACVT, AZERO, ASTX, ALDX, ALDX.ADD and MSYNC, the matrix queue, exact and float
accumulation, conversion out, and the shadow checker (R172 to R203, R230).
-/
namespace Sys2Proof.Machine

/-! ### Elements -/

/-- Bits of an element of a tile format (R172 to R174). -/
def elemW (fmt : Nat) : Nat :=
  match fmt with
  | 2 | 7 | 12 => 4
  | 5 | 6 | 10 | 11 => 6
  | 14 | 15 => 16
  | 16 => 32
  | _ => 8

/-- The float format of a tile format's elements. -/
def elemFmt (fmt : Nat) : Fmt :=
  match fmt with
  | 3 | 8 => fmtE4M3
  | 4 | 9 => fmtE5M2
  | 5 | 10 => fmtE3M2
  | 6 | 11 => fmtE2M3
  | 14 => fmtBF
  | 15 => fmtHF
  | 16 => fmtF
  | _ => fmtE2M1

/-- The exact value of an element code (R172, R173). -/
def elemFV (fmt code : Nat) : FV :=
  match fmt with
  | 1 => intFV (sLane 8 code)
  | 2 => intFV (sLane 4 code)
  | 13 => .fin (decide (sLane 8 code < 0)) (sLane 8 code).natAbs (-6)
  | f => (elemFmt f).decode code

/-- Element e of a row (R174). -/
def TileRow.code (r : TileRow) (fmt e : Nat) : Nat := (r.data.toNat >>> (elemW fmt * e)) % 2 ^ elemW fmt

/-- Elements of a row of the tile (R174). -/
def State.tileK (s : State) (c n : Nat) : Nat := s.tBpr c n * 8 / elemW (s.tFmt c n)

/-- An exact-mode element in units of 2^−16; none for a NaN or an infinity (R182, R184). -/
def exactInt (fmt code : Nat) : Option Int :=
  match elemFV fmt code with
  | .fin n m e => some (scaled n m e (-16))
  | _ => none

/-- The depth d of an operand pair (R177). -/
def pairDepth (fa fb : Nat) : Nat :=
  let w := max (elemW fa) (elemW fb)
  if w = 4 then 8 else if w ≤ 8 then 4 else if w = 16 then 2 else 1

/-! ### One element of an MMA -/

/-- The exact path: the sum of products as a 128-bit word, and whether some input is a NaN or an infinity (R182 to R184). -/
def dotExact (fa fb k : Nat) (a b : TileRow) : Int × Bool :=
  (List.range k).foldl (fun (r : Int × Bool) i =>
    match exactInt fa (a.code fa i), exactInt fb (b.code fb i) with
    | some x, some y => (r.1 + x * y * 2 ^ 32, r.2)
    | _, _ => (r.1, true)) (0, false)

/-- The exact sum of a list of values (R186 to R188). (DESIGN CHOICE: notes/assumptions/17.md.) -/
def sumFV : List FV → FV
  | [] => .fin false 0 0
  | v :: r => r.foldl FV.add v

/-- acc + v rounded once to FP32 (R186 to R188). -/
def accAdd (acc : Nat) (v : FV) : Nat := (fmtF.encode false false ((fmtF.decode acc).add v)).code

/-- The float path over one element (R186). -/
def dotFloat (fa fb k : Nat) (a b : TileRow) (acc : Nat) : Nat :=
  let d := pairDepth fa fb
  (List.range ((k + d - 1) / d)).foldl (fun acc g =>
    let l := ((List.range d).map (fun i => g * d + i)).filter (· < k)
    accAdd acc (sumFV (l.map (fun i => (elemFV fa (a.code fa i)).mul (elemFV fb (b.code fb i)))))) acc

/-- The scale of a block: the scale byte of an MX row, 127 otherwise (R173, R176). -/
def blockScale (fmt : Nat) (r : TileRow) (blk : Nat) : Nat := if isMx fmt then (r.scale.toNat >>> (8 * blk)) % 256 else 127

/-- A value times a power of two. -/
def FV.shift (v : FV) (n : Int) : FV :=
  match v with
  | .fin s m e => .fin s m (e + n)
  | o => o

/-- The MX path over one element (R187). (DESIGN CHOICE: notes/assumptions/17.md.) -/
def dotMx (fa fb k : Nat) (a b : TileRow) (acc : Nat) : Nat :=
  (List.range (k / 32)).foldl (fun acc blk =>
    let xa := blockScale fa a blk
    let xb := blockScale fb b blk
    let l := (List.range 32).map (fun i => 32 * blk + i)
    let sm := sumFV (l.map (fun i => (elemFV fa (a.code fa i)).mul (elemFV fb (b.code fb i))))
    accAdd acc (if xa = 255 || xb = 255 then .nan false else sm.shift ((xa : Int) - 127 + xb - 127))) acc

/-- Rebuild an accumulator's elements. -/
def Accum.mapEl (x : Accum) (f : Nat → Nat → Nat) : Accum :=
  { x with el := (List.range 256).foldl (fun m e => Sparse.set 0 m e (f e (Sparse.get 0 x.el e))) [] }

/-- The check value of element e of an EXACT accumulator (R199). -/
def Accum.chkOf (x : Accum) (e : Nat) : Nat := Sparse.get 0 x.chk e

/-- Give the elements of an EXACT accumulator their check values (R199). -/
def Accum.withChk (x : Accum) (f : Nat → Nat) : Accum :=
  { x with chk := if x.typ = 1 then (List.range 256).foldl (fun m e => Sparse.set 0 m e (f e % 7)) [] else [] }

/-- The check value that a cell predicts for `old + add` in 128 bits, from the old check value and the residue of what is added: 2^128 is 4 modulo 7
(R199). -/
def predictChk (chk old : Nat) (add : Int) : Nat := (((chk : Int) + add % 7 - 4 * (((old : Int) + add) / 2 ^ 128)) % 7).toNat

/-- Some element's check value is not its content modulo 7 (R199). -/
def Accum.chkBad (x : Accum) : Bool := x.typ = 1 && (List.range 256).any (fun e => Sparse.get 0 x.el e % 7 ≠ x.chkOf e)

/-- An MMA over an accumulator: the operand slices' 16 rows, their formats, K and the path that the mode selects (R175, R176). -/
def mmaResult (exact : Bool) (fa fb k : Nat) (a b : List TileRow) (x : Accum) : Accum :=
  let ra := fun e => a.getD (e / 16) {}
  let rb := fun e => b.getD (e % 16) {}
  if exact then
    let y := x.mapEl (fun e old => (((old : Int) + (dotExact fa fb k (ra e) (rb e)).1) % 2 ^ 128).toNat)
    { y with inv := x.inv ||| BitVec.ofNat 256 (maskOf 256 (fun e => (dotExact fa fb k (ra e) (rb e)).2)) }.withChk
      (fun e => predictChk (x.chkOf e) (Sparse.get 0 x.el e) (dotExact fa fb k (ra e) (rb e)).1)
  else if isMx fa || isMx fb then x.mapEl (fun e old => dotMx fa fb k (ra e) (rb e) old)
  else x.mapEl (fun e old => dotFloat fa fb k (ra e) (rb e) old)

/-! ### Conversion out of an accumulator (R192, R193) -/

/-- The exact value of an accumulator element; none where it is invalid (R181, R184). -/
def Accum.value (x : Accum) (e : Nat) : Option FV :=
  let w := Sparse.get 0 x.el e
  if x.typ = 1 then
    (if nbit x.inv.toNat e = 1 then none
     else
       let v : Int := if nbit w 127 = 1 then (w : Int) - 2 ^ 128 else w
       some (.fin (decide (v < 0)) v.natAbs (-64)))
  else some (fmtF.decode w)

/-- An element times both scales, exactly; a zero that comes from an EXACT element is +0 (R192, R193). (DEDUCED: notes/assumptions/113.md.) -/
def scaleElem (exact : Bool) (v : FV) (scale : Word) : FV :=
  let p := (v.mul (fmtF.decode (scale.toNat % 2 ^ 32))).mul (fmtF.decode (scale.toNat / 2 ^ 32))
  if exact && p.isZero then .fin false 0 0 else p

/-- The code of an output element and its flags (R193). -/
def acvtCode (fmt : Nat) (osat : Bool) (v : Option FV) : Rnd :=
  let f := elemFmt fmt
  let int := fmt ≤ 2
  match v with
  | none => ⟨if int then 0 else f.canon, flagNV⟩
  | some (.nan _) => ⟨if int then 0 else f.canon, flagNV⟩
  | some (.inf n) =>
    if int then ⟨0, flagNV⟩
    else if f.kind = .ieee then ⟨f.infCode n, 0⟩
    else ⟨f.maxCode n, flagOF + flagNX⟩
  | some (.fin n m e) =>
    if int then roundInt false (elemW fmt) (flagOF + flagNX) n m e else f.round false osat n m e

/-! ### The words -/

/-- A matrix word finds a place in the queue of 4, or is withheld until one frees (R179). -/
def State.mqWord (s : State) (c t : Nat) (k : Fx) : Fx :=
  if 4 ≤ (s.core c).mq.length then .hold (s.waitOn c t .mqRoom) else k

/-- Put an entry into the queue. A matrix operation of the other world ends LIVE of a latch set (R166, R179). -/
def State.mqPut (s : State) (c t n : Nat) (op : MOp) : State :=
  let k := s.core c
  let w := s.world c t
  let f := fun (l : Latch) => if l.world ≠ w then { l with live := false, fresh := false } else l
  let x := k.acc n
  s.setCore c { k with
    latchA := f k.latchA, latchB := f k.latchB
    mq := k.mq ++ [{ op := op, acc := n, thread := t, pc := (s.thr c t).pc, mode := s.modeNow c t,
                     typ := x.typ, world := x.world, issWorld := w, issLevel := s.level c t }] }

/-- Replace an accumulator. -/
def State.setAcc (s : State) (c n : Nat) (x : Accum) : State :=
  s.setCore c { s.core c with accs := Sparse.set {} (s.core c).accs n x }

/-- The accumulator type that a mode selects: 1 EXACT, 2 FP32 (R176, R191). -/
def modeTyp (mode : Nat) : Nat := if mode % 2 = 0 then 1 else 2

/-- A tag of a latch set names the operand (R167). -/
def Latch.names (l : Latch) (world tile slice : Nat) : Bool := l.world = world && l.tile = tile && l.slice = slice

/-- A selected slice's rows are all valid, or its latch exempts it (R178). -/
def State.sliceOk (s : State) (c n q world : Nat) (keep : Bool) (l : Latch) : Bool :=
  (keep && l.live && l.names world n q) ||
    (List.range 16).all (fun i => nbit ((s.core c).tile n).valid.toNat (16 * q + i) = 1)

/-- The first condition of R178 that fails. -/
def State.mmaDetail (s : State) (c t d ta tb qa qb : Nat) (ka kb : Bool) : Option Nat :=
  let k := s.core c
  let w := s.world c t
  let x := k.acc d
  let mode := s.modeNow c t
  let fa := s.tFmt c ta
  let fb := s.tFmt c tb
  let ok := fun f => if mode % 2 = 0 then 1 ≤ f && f ≤ 7 else 1 ≤ f && f ≤ 16
  if s.tRows c ta = 0 || s.tRows c tb = 0 || x.typ = 0 then some 0x0C
  else if !s.tileMine c t ta || !s.tileMine c t tb || (x.world = 1 && w = 0) then some 8
  else if !ok fa || !ok fb || x.typ ≠ modeTyp mode then some 3
  else if s.tileK c ta ≠ s.tileK c tb || (mode % 2 = 1 && (isMx fa || isMx fb) && s.tileK c ta % 32 ≠ 0) then some 4
  else if s.tRows c ta ≤ 16 * qa + 15 || s.tRows c tb ≤ 16 * qb + 15 then some 0x0A
  else if !s.sliceOk c ta qa w ka k.latchA || !s.sliceOk c tb qb w kb k.latchB then some 9
  else none

/-- MMA aD, tA, tB, QA, QB (R175 to R179, R198, R230). -/
def execMma (c : CoreId) (t : ThreadId) (fn : BitVec 6) (w : LR) (s : State) : Res :=
  s.word c t w.g (encZ [w.a.toNat < 4, w.b.toNat < 8, w.c.toNat < 8]) (fun s =>
    let qa := fn.toNat % 4
    let qb := fn.toNat / 4 % 4
    let ka : Bool := nbit fn.toNat 4 = 1
    let kb : Bool := nbit fn.toNat 5 = 1
    s.mqWord c t (match s.mmaDetail c t w.a.toNat w.b.toNat w.c.toNat qa qb ka kb with
      | some d => .exc 5 d 0 0
      | none => .done (s.mqPut c t w.a.toNat (.mma w.b.toNat w.c.toNat qa qb ka kb))))

/-- The first condition of R192 that fails. -/
def State.acvtDetail (s : State) (c t n m q cc : Nat) : Option Nat :=
  let x := (s.core c).acc m
  let f := s.tFmt c n
  if s.tRows c n = 0 || x.typ = 0 then some 0x0C
  else if !s.tileMine c t n || (x.world = 1 && s.world c t = 0) then some 8
  else if f = 0 || isMx f then some 3
  else if s.tBpr c n * 8 < elemW f * (16 * (cc + 1)) then some 4
  else if s.tRows c n ≤ 16 * q + 15 then some 0x0A
  else none

/-- ACVT tN, aM, sC, q, c (R192, R198, R230). -/
def execAcvt (c : CoreId) (t : ThreadId) (w : LR) (s : State) : Res :=
  s.word c t w.g (encZ [w.b.toNat < 16]) (fun s =>
    let n := w.a.toNat % 8
    let q := w.a.toNat / 8
    let m := w.b.toNat % 4
    let cc := w.b.toNat / 4
    s.mqWord c t (match s.acvtDetail c t n m q cc with
      | some d => .exc 5 d 0 0
      | none => .done (s.mqPut c t m (.acvt n q cc (s.x c t w.c)))))

/-- AZERO aN (R191, R198, R230): type and world at issue, elements when the entry runs. -/
def execAzero (c : CoreId) (t : ThreadId) (w : LR) (s : State) : Res :=
  s.word c t w.g (encZ [w.a.toNat < 4, w.b = 0, w.c = 0]) (fun s =>
    let n := w.a.toNat
    let x := (s.core c).acc n
    s.mqWord c t (
      if x.world = 1 && s.world c t = 0 then .exc 5 8 0 0
      else .done ((s.setAcc c n { x with typ := modeTyp (s.modeNow c t), world := s.world c t }).mqPut c t n .azero)))

/-- An image word: the queue, the mailbox, vector 5 and then the alignment (R122, R194). -/
def State.imageWord (s : State) (c t : Nat) (w : LR) (det : Option Nat) (k : Fx) : Fx :=
  s.mqWord c t (
    if s.mbBusy c t w.c.toNat then .exc 1 0x0A 0 0
    else match det with
      | some d => .exc 5 d 0 0
      | none => if (s.x c t w.b).toNat % 64 ≠ 0 then .exc 2 0 (s.x c t w.b) 0 else k)

/-- The encoding conditions of the image words (R198). -/
def imageEnc (w : LR) : List Nat := encZ [w.a.toNat < 4, w.c.toNat < 4]

/-- ASTX aN, mK, [sB] (R194, R198, R230). -/
def execAstx (c : CoreId) (t : ThreadId) (w : LR) (s : State) : Res :=
  s.word c t w.g (imageEnc w) (fun s =>
    let n := w.a.toNat
    let x := (s.core c).acc n
    let a := s.x c t w.b
    let det := if x.typ = 0 then some 0x0C else if x.world = 1 && s.world c t = 0 then some 8 else none
    if s.wrfHolds c t (match s.translate (s.who c t) a true with | .to p => p | _ => .reserved) then .hold (s.waitOn c t .wrf)
    else s.imageWord c t w det (.done ((s.mbPend c t w.c.toNat).mqPut c t n (.astx w.c.toNat a))))

/-- ALDX aN, mK, [sB] (R194, R198, R230). -/
def execAldx (c : CoreId) (t : ThreadId) (w : LR) (s : State) : Res :=
  s.word c t w.g (imageEnc w) (fun s =>
    let n := w.a.toNat
    let x := (s.core c).acc n
    let det := if x.world = 1 && s.world c t = 0 then some 8 else none
    s.imageWord c t w det (.done (((s.mbPend c t w.c.toNat).setAcc c n
      { x with typ := modeTyp (s.modeNow c t), world := s.world c t }).mqPut c t n (.aldx w.c.toNat (s.x c t w.b)))))

/-- ALDX.ADD aN, mK, [sB] (R194, R198, R230). -/
def execAldxAdd (c : CoreId) (t : ThreadId) (w : LR) (s : State) : Res :=
  s.word c t w.g (imageEnc w) (fun s =>
    let n := w.a.toNat
    let x := (s.core c).acc n
    let det := if x.typ = 0 then some 0x0C else if x.world = 1 && s.world c t = 0 then some 8
      else if x.typ ≠ modeTyp (s.modeNow c t) then some 3 else none
    s.imageWord c t w det (.done ((s.mbPend c t w.c.toNat).mqPut c t n (.aldxAdd w.c.toNat (s.x c t w.b)))))

/-- MSYNC (R197, R198, R230). -/
def execMsync (c : CoreId) (t : ThreadId) (w : LR) (s : State) : Res :=
  s.word c t w.g (encZ [w.a = 0, w.b = 0, w.c = 0]) (fun s =>
    if (s.core c).mq.any (fun e => e.thread = t.val) then .done (s.waitOn c t .msync) else .done s)

/-! ### The queue's entries run -/

/-- The operand slice of an MMA: the latch where it serves, the tile's rows otherwise; and the latch after (R166, R167, R180). -/
def State.operand (s : State) (c n q world : Nat) (keep : Bool) (l : Latch) : List TileRow × Latch :=
  if l.names world n q && (if keep then l.live else l.live && l.fresh) then (l.rows, l)
  else
    let rows := (List.range 16).map (fun i => s.tileRow c n (16 * q + i))
    (rows, { live := true, fresh := true, world := world, tile := n, slice := q, rows := rows })

/-- An accumulator's image as one number, little-endian (R195). -/
def Accum.image (x : Accum) : Nat :=
  let b := if x.typ = 1 then 128 else 32
  let d := x.el.foldl (fun a p => a + p.2 <<< (b * p.1)) 0
  if x.typ = 1 then d + x.inv.toNat <<< (4096 * 8) else d

/-- The accumulator of an image (R195), with check values (R199). -/
def Accum.ofImage (x : Accum) (v : Nat) : Accum :=
  let b := if x.typ = 1 then 128 else 32
  ({ x.mapEl (fun e _ => (v >>> (b * e)) % 2 ^ b) with inv := if x.typ = 1 then BitVec.ofNat 256 (v >>> (4096 * 8)) else 0 } : Accum).withChk
    (fun e => (v >>> (128 * e)) % 2 ^ 128)

/-- Add an image into an accumulator, element by element (R183, R194, R199). -/
def Accum.addImage (x : Accum) (v : Nat) : Accum :=
  if x.typ = 1 then
    ({ x.mapEl (fun e old => (old + (v >>> (128 * e)) % 2 ^ 128) % 2 ^ 128) with
      inv := x.inv ||| BitVec.ofNat 256 (v >>> (4096 * 8)) } : Accum).withChk
        (fun e => predictChk (x.chkOf e) (Sparse.get 0 x.el e) ((v >>> (128 * e)) % 2 ^ 128 : Nat))
  else x.mapEl (fun e old => accAdd old (fmtF.decode ((v >>> (32 * e)) % 2 ^ 32)))

/-- The agent of an entry's image accesses: the level and world of its word (R196). -/
def State.entryWho (s : State) (c : Nat) (e : MEntry) : Who := { s.who c e.thread with world := e.issWorld, level := e.issLevel }

/-- What an image's blocks come to before they move: some block waits in the translation store, or pauses (R237, R254, R414). -/
def State.imagePauses (s : State) (c : Nat) (w : Who) (a : Word) (typ : Nat) (write : Bool) : Bool :=
  (imageBlocks typ).any (fun blk =>
    let ba := a + BitVec.ofNat 64 (64 * blk.1)
    match s.rowPlace c w ba blk.2 write with
    | .hold => true
    | .refused _ => false
    | .to p => s.accessPauses c ba blk.2 p)

/-- The write-backs that an image's blocks wait for leave (R254). -/
def State.imageFlush (s : State) (c : Nat) (w : Who) (a : Word) (typ : Nat) (write : Bool) : State :=
  (imageBlocks typ).foldl (fun q blk =>
    let ba := a + BitVec.ofNat 64 (64 * blk.1)
    match q.rowPlace c w ba blk.2 write with
    | .to p => if (p.ownBank c ba).isSome then q else q.bypassFlush c ba blk.2
    | _ => q) s

/-- What storing or asking for an image has come to: the status of the lowest block refused so far, whether blocks are outstanding, and whether one of
them lies below that block. -/
structure ImageGo where
  bad : Option Status := none
  out : Bool := false
  below : Bool := false
  s : State

/-- Store an image: own-bank blocks at once, the others' requests sent (R179, R196). -/
def State.storeImage (s : State) (c t : Nat) (w : Who) (a : Word) (x : Accum) : ImageGo :=
  let img := x.image
  (imageBlocks x.typ).foldl (fun (q : ImageGo) blk =>
    let ba := a + BitVec.ofNat 64 (64 * blk.1)
    let v := (img >>> (512 * blk.1)) % 2 ^ (8 * blk.2)
    match q.s.rowPlace c w ba blk.2 true with
    | .hold => q
    | .refused st => { q with bad := q.bad.orElse (fun _ => some (BitVec.ofNat 16 st)) }
    | .to p => match p.ownBank c ba with
      | some off => { q with s := (q.s.bankWrite c off blk.2 (2 ^ blk.2 - 1) v).2 }
      | none => { q with
        out := true
        below := q.below || q.bad.isNone
        s := ((q.s.bypassGo c ba blk.2 true).noteWrite c t p).depart c (.write t (q.s.thr c t).nextW) ba blk.2 [0]
          [c, t, 10, ba.toNat, blk.2, v, s.streamOf c t, (q.s.thr c t).nextW] }) { s := s }

/-- Load an image: own-bank blocks are read, the others come with the reply `data`; the status of the lowest refused block (R196). -/
def State.loadImage (s : State) (c : Nat) (w : Who) (a : Word) (typ : Nat) (status : Status) (data : Nat) : Status × Nat × State :=
  (imageBlocks typ).foldl (fun (q : Status × Nat × State) blk =>
    let ba := a + BitVec.ofNat 64 (64 * blk.1)
    let put := fun (v : Nat) => q.2.1 + v <<< (512 * blk.1)
    let bad := fun (st : Status) => if q.1.toNat ≤ 1 then st else q.1
    match q.2.2.rowPlace c w ba blk.2 false with
    | .hold => q
    | .refused st => (bad (BitVec.ofNat 16 st), q.2.1, q.2.2)
    | .to p => match p.ownBank c ba with
      | some off => match q.2.2.bankRead c off blk.2 with
        | (some v, s1) => (q.1, put v, s1)
        | (none, s1) => (bad 0x0401, q.2.1, s1)
      | none => (bad status, put ((data >>> (512 * blk.1)) % 2 ^ (8 * blk.2)), q.2.2)) (0, 0, s)

/-- Send the requests of an image's blocks that lie outside the own banks (R179). -/
def State.askImage (s : State) (c t : Nat) (w : Who) (a : Word) (typ : Nat) : State :=
  (imageBlocks typ).foldl (fun q blk =>
    let ba := a + BitVec.ofNat 64 (64 * blk.1)
    match q.rowPlace c w ba blk.2 false with
    | .to p => if (p.ownBank c ba).isSome then q else q.depart c (.image blk.1) ba blk.2 [0] [c, t, 11, ba.toNat, blk.2]
    | _ => q) s

/-- Replace the entry at the front of the queue. -/
def State.setFront (s : State) (c : Nat) (e : MEntry) : State :=
  let k := s.core c
  s.setCore c { k with mq := e :: k.mq.drop 1 }

/-- A residue or shadow mismatch (R201): the accumulator is NONE, and the issuer is suspended with vector 6. -/
def State.mismatch (s : State) (c : Nat) (e : MEntry) (det : Nat) : State :=
  let s1 := s.setAcc c e.acc { (s.core c).acc e.acc with typ := 0 }
  let h := s1.thr c e.thread
  match h.st with
  | .stopped | .suspended => s1
  | .waiting | .sleeping => (s1.abandon c e.thread false).suspendNotice c e.thread 1 6 det (BitVec.ofNat 64 e.pc) 0
  | _ => s1.suspendNotice c e.thread 1 6 det (BitVec.ofNat 64 e.pc) 0

/-- The vector 6 detail of a residue mismatch in an entry (R201). -/
def State.residueDetail (s : State) (c : Nat) (e : MEntry) : Nat :=
  match e.op with
  | .mma ta tb _ _ _ _ => if e.mode % 2 = 1 && (isMx (s.tFmt c ta) || isMx (s.tFmt c tb)) then 2 else 1
  | _ => 3

/-- The first cycle of an entry whose accumulator is as its word's checks found it (R179, R180, R191). (DEDUCED: notes/assumptions/15.md.) -/
def State.runEntry (s : State) (c : Nat) (e : MEntry) : State :=
  let k := s.core c
  let x := k.acc e.acc
  match e.op with
  | .mma ta tb qa qb ka kb =>
    let oa := s.operand c ta qa e.issWorld ka k.latchA
    let ob := s.operand c tb qb e.issWorld kb k.latchB
    let y := mmaResult (decide (e.mode % 2 = 0)) (s.tFmt c ta) (s.tFmt c tb) (s.tileK c ta) oa.1 ob.1 x
    let cap := k.shadowArm && decide (e.mode % 2 = 1)
    (s.setCore c { k with
      latchA := oa.2, latchB := ob.2
      shadowArm := k.shadowArm && !cap
      shadowOp := if cap then some ⟨{ e with running := true }, oa.1, ob.1, x⟩ else k.shadowOp }).setAcc c e.acc y
  | .azero => s.setAcc c e.acc { x with el := [], inv := 0, chk := [] }
  | .acvt _ _ _ _ => s
  | .astx mb a =>
    let r := s.storeImage c e.thread (s.entryWho c e) a x
    let q := r.s.core c
    r.s.setCore c { q with images := q.images ++ [{
      thread := e.thread, mb := mb, below := r.below
      status := if r.bad.isSome then r.bad else if r.out then none else some 0
      area := if r.out then some (a, imageLen x.typ) else none }] }
  | .aldx _ a => s.askImage c e.thread (s.entryWho c e) a (modeTyp e.mode)
  | .aldxAdd _ a => s.askImage c e.thread (s.entryWho c e) a e.typ

/-- The image of an entry that stores or loads one: its address, type and direction. -/
def MEntry.imageOf (e : MEntry) : Option (Word × Nat × Bool) :=
  match e.op with
  | .astx _ a => some (a, e.typ, true)
  | .aldx _ a => some (a, modeTyp e.mode, false)
  | .aldxAdd _ a => some (a, e.typ, false)
  | _ => none

/-- The entry's image accesses pause (R237, R254, R414): it has not begun, or not ended. -/
def State.entryPauses (s : State) (c : Nat) (e : MEntry) : Bool :=
  match e.imageOf with
  | some (a, typ, write) => s.imagePauses c (s.entryWho c e) a typ write
  | none => false

/-- An ACVT or ASTX verifies the check values of the elements that it uses (R199). -/
def State.entryChkBad (s : State) (c : Nat) (e : MEntry) : Bool :=
  match e.op with
  | .acvt _ _ _ _ | .astx _ _ => ((s.core c).acc e.acc).chkBad
  | _ => false

/-- MATRIX_ENTRY_START: the entry at the front begins (R179). Its accumulator is checked again; `residue` says that a cell's update of the entry
differs from the check value that it predicts (R199). An image whose accesses pause begins later (R237, R254). -/
def execMatrixEntryStart (c : CoreId) (residue : Bool) (s : State) : Res :=
  .next (match (s.core c).mq with
    | [] => s
    | e0 :: _ =>
      let e := { e0 with running := true, start := (s.core c).cyc }
      if e0.running then s
      else
        let x := (s.core c).acc e.acc
        let always := match e.op with | .azero | .aldx _ _ => true | _ => false
        if !always && (x.typ ≠ e.typ || x.world ≠ e.world) then s.setFront c { e with void := true }
        else if residue || s.entryChkBad c e then
          ((s.setFront c { e with void := true }).bump mchk_RESERR c 0).mismatch c e (s.residueDetail c e)
        else if s.entryPauses c e then
          (match e.imageOf with
            | some (a, typ, write) => s.imageFlush c (s.entryWho c e) a typ write
            | none => s)
        else (s.runEntry c e).setFront c e)

/-- The rows and vflags of an ACVT, of the accumulator as its entry found it (R192, R193). -/
def State.acvtRun (s : State) (c : Nat) (e : MEntry) (n q cc : Nat) (scale : Word) : State :=
  let x := { (s.core c).acc e.acc with typ := e.typ }
  let f := s.tFmt c n
  let w := elemW f
  let one := fun el => acvtCode f (nbit e.mode 2 = 1) ((x.value el).map (fun v => scaleElem (decide (x.typ = 1)) v scale))
  let s1 := (List.range 16).foldl (fun s i =>
    let bits := (List.range 16).foldl (fun a j => a + (one (16 * i + j)).code <<< (w * j)) 0
    s.setRow c n (16 * q + i) (fun r =>
      let d := r.data.toNat
      let lo := w * 16 * cc
      let keep := d - ((d >>> lo) % 2 ^ (w * 16)) <<< lo
      { r with data := BitVec.ofNat 512 (keep + bits <<< lo) }) true) s
  s1.landOne c e.thread ⟨.flags, (List.range 256).foldl (fun a el => a ||| (one el).flags) 0, 0⟩

/-- The end of an entry: what it leaves (R179, R192, R194, R196, R200). `status` and `data` are the reply of an image's blocks outside
the own banks. A type that a later word has given meanwhile stays (R191, R194); a load that fails leaves NONE. (DEDUCED: notes/assumptions/15.md.) -/
def State.endEntry (s : State) (c : Nat) (e : MEntry) (status : Status) (data : Nat) : State :=
  let note := fun (s : State) (mb : Nat) (st : Status) =>
    let k := s.core c
    s.setCore c { k with images := k.images ++ [{ thread := e.thread, mb := mb, status := some st }] }
  match e.op with
  | .mma _ _ _ _ _ _ =>
    if e.mode % 2 = 1 && !e.void then
      let k := s.core c
      (s.setCore c { k with shadowCnt := k.shadowCnt + 1 }).bump mchk_SHCNT c 0
    else s
  | .azero => s
  | .acvt n q cc scale => if e.void then s else s.acvtRun c e n q cc scale
  | .astx mb _ => if e.void then note s mb 0x0104 else s
  | .aldx mb a =>
    if e.void then note s mb 0x0104
    else
      let r := s.loadImage c (s.entryWho c e) a (modeTyp e.mode) status data
      let x := (r.2.2.core c).acc e.acc
      if r.1.toNat ≤ 1 then
        note (r.2.2.setAcc c e.acc { ({ x with typ := modeTyp e.mode } : Accum).ofImage r.2.1 with typ := x.typ }) mb 0
      else note (r.2.2.setAcc c e.acc { x with typ := 0 }) mb r.1
  | .aldxAdd mb a =>
    if e.void then note s mb 0x0104
    else
      let r := s.loadImage c (s.entryWho c e) a e.typ status data
      let x := (r.2.2.core c).acc e.acc
      if r.1.toNat ≤ 1 then note (r.2.2.setAcc c e.acc { ({ x with typ := e.typ } : Accum).addImage r.2.1 with typ := x.typ }) mb 0
      else note (r.2.2.setAcc c e.acc { x with typ := 0 }) mb r.1

/-- The entry loads an image, whose own-bank blocks are read as it ends. -/
def MEntry.loads (e : MEntry) : Bool := match e.op with | .aldx _ _ | .aldxAdd _ _ => true | _ => false

/-- A block of the image that the running entry loads has not left the core (R326). -/
def State.imageWaits (s : State) (c : Nat) : Bool :=
  (s.core c).flying.any (fun x => match x.key with | .image _ => x.msg.isSome | _ => false)

/-- The blocks of the image that the running entry loads have landed (R326). -/
def State.imageLanded (s : State) (c : Nat) : State :=
  let block := fun (x : Access) => match x.key with | .image _ => true | _ => false
  if (s.core c).flying.any block then
    State.settle (s.setCore c { s.core c with flying := (s.core c).flying.filter (fun x => !block x) }) c
  else s

/-- MATRIX_ENTRY_COMPLETE: the running entry ends and frees its place; threads withheld for room may issue again, and MSYNCs whose
entries are all done end (R179, R197). -/
def execMatrixEntryComplete (c : CoreId) (status : Status) (data : BitVec 33024) (s : State) : Res :=
  .next (match (s.core c).mq with
    | [] => s
    | e :: rest =>
      if !e.running || (!e.void && e.loads && (s.entryPauses c e || s.imageWaits c)) then s
      else
        let s1 := (s.imageLanded c).endEntry c e status data.toNat
        let s2 := s1.setCore c { s1.core c with mq := rest }
        (List.range 8).foldl (fun s t =>
          let h := s.thr c t
          let go : Bool := match h.wait with
            | .mqRoom => true
            | .msync => !rest.any (fun x => x.thread = t)
            | _ => false
          if go then s.setThr c t { h with st := .ready, wait := .none } else s) s2)

/-- IMAGE_ACCESS_COMPLETE: every byte of an image is acknowledged or has landed, or an access was refused: the mailbox completes
(R196). `status` is that of the lowest refused access outside the own banks. -/
def execImageAccessComplete (c : CoreId) (t : ThreadId) (m : Fin 4) (status : Status) (s : State) : Res :=
  let k := s.core c
  .next (match k.images.find? (fun i => i.thread = t.val && i.mb = m.val) with
    | none => s
    | some i =>
      let st := if 1 < status.toNat && i.area.isSome && i.below then status else i.status.getD status
      (s.setCore c { k with images := k.images.filter (fun j => !(j.thread = t.val && j.mb = m.val)) }).mbReply c t m st.toNat 0)

/-- SHADOW_CHECK_ARM: after 64 float-path or MX-path MMAs, or 2^17 cycles with at least one (R200). -/
def execShadowCheckArm (c : CoreId) (s : State) : Res :=
  let k := s.core c
  .next (
    if k.shadowArm || k.shadowOp.isSome then s
    else if 64 ≤ k.shadowCnt || (1 ≤ k.shadowCnt && 2 ^ 17 ≤ k.cyc - k.shadowStart) then
      (s.setCore c { k with shadowArm := true, shadowCnt := 0, shadowStart := k.cyc }).setFld mchk_SHCNT c 0 0
    else s)

/-- SHADOW_CHECK_DONE: the checker has recomputed the captured MMA after it completed; `differs` says that a result bit differs
(R200, R201). -/
def execShadowCheckDone (c : CoreId) (differs : Bool) (s : State) : Res :=
  let k := s.core c
  .next (match k.shadowOp with
    | none => s
    | some o =>
      if k.mq.any (fun e => e.running && e.pc = o.entry.pc && e.thread = o.entry.thread) then s
      else
        let s1 := (s.setCore c { k with shadowOp := none, shadowStart := k.cyc }).bumpWrap mchk_SHDONE c 0
        if differs then (s1.bump mchk_SHERR c 0).mismatch c o.entry 4 else s1)

end Sys2Proof.Machine
end

