-- ==== Sys2Proof/Machine/Replies.lean ====
section
/-!
DEFINITION. Replies and acknowledgements that reach a core (R79 to R83, R215, R257 to R261, R328 to R331, R339, R412).
-/
namespace Sys2Proof.Machine

/-- A kernel that has ended on a core is over once its write-backs and its threads' writes are acknowledged (R357). -/
def State.kernelOver (s : State) (c : Nat) : State :=
  let k := s.core c
  if k.kend && k.wbs.isEmpty && (List.range 8).all (fun t => (s.thr c t).outw.isEmpty && (s.thr c t).held.isEmpty) then
    (s.setCore c { k with kend := false }).setFld KSTAT_ACTIVE c 0 0
  else s

/-- Write number `id` of a thread is acknowledged: FENCEs and WRF holds that waited for it end (R329, R353). -/
def State.acked (s : State) (c t id : Nat) : State :=
  let h := s.thr c t
  let s1 := (s.landAccess c (.write t id) 0).setThr c t { h with
    outw := h.outw.filter (fun w => w.id ≠ id)
    wrfOut := match h.wrfOut with | some (n, m, st) => if n = id then none else some (n, m, st) | none => none }
  let h1 := s1.thr c t
  State.kernelOver (match h1.wait with
  | .fence sc => if h1.st = .waiting && s1.clearBelow c t sc h1.nextW then s1.ready c t else s1
  | .wrf => if h1.st = .waiting && h1.wrfOut.isNone then s1.ready c t else s1
  | _ => s1) c

/-- LOAD_REPLY (R79, R215, R216): the critical word, or a failing status, of the scalar or vector load or the atomic that the
thread waits for. `value` is what a place outside the model's banks gives; a register's value was read when the load issued. -/
def State.loadReply (s : State) (c : CoreId) (t : ThreadId) (status : Status) (value : Vec) : State :=
  let h := s.thr c t
  let s := s.landAccess c (.word t) 0
  (if h.st ≠ .waiting then s else match h.wait with
    | .load dest size a val =>
      if status.toNat ≤ 1 then (s.landOne c t ⟨dest, val.getD (value.toNat % 2 ^ (8 * size)), 0⟩).ready c t
      else s.failWord c t 3 4 a status.toNat
    | .atomic dest a id cnt =>
      let s1 := s.acked c t id
      if status.toNat ≤ 1 then ((s1.landOne c t ⟨dest, value.toNat % 2 ^ 64, 0⟩).countAtomic c t cnt).ready c t
      else s1.failWord c t 3 4 a status.toNat
    | _ => s)

/-- LOAD_REPLY (R79, R215, R216). -/
def execLoadReply (c : CoreId) (t : ThreadId) (status : Status) (value : Vec) (s : State) : Res :=
  .next (s.inward (s.redir c) (fun s => s.loadReply (s.redir c) t status value))

/-- A mailbox that another event completes: that of a row transfer, an image access or a queued image operation, or of a core DMA
channel. -/
def State.mbElsewhere (s : State) (c t m : Nat) : Bool :=
  let k := s.core c
  k.xfers.any (fun x => x.thread = t && x.mb = m) || k.images.any (fun x => x.thread = t && x.mb = m)
    || k.mq.any (fun e => e.thread = t && match e.op with
        | .astx b _ | .aldx b _ | .aldxAdd b _ => b = m
        | _ => false)
    || [0, 1].any (fun ch => let d := Sparse.get {} s.dmas (256 + 2 * c + ch)
        d.running && d.thread = some t && d.mb = some m)

/-- The thread's context is being torn down: replies to it are absorbed, and no mailbox changes for them (R83, R643, R646). -/
def State.tornDown (s : State) (c t : Nat) : Bool :=
  s.world c t = 0 && s.fld CTX_BIND_BOUND c 0 = 1 && s.kp.tds.any (fun x => x.plot = s.fld CTX_BIND_PLOT c 0)

/-- MAILBOX_REPLY (R80, R83): the reply of a mailbox-directed load or atomic, or the moment at which a load served by the core
itself becomes FULL (R253). -/
def State.mailboxReply (s : State) (c : CoreId) (t : ThreadId) (m : Fin 4) (status : Status) (value : Word) : State :=
  let h := s.thr c t
  let s := s.landAccess c (.mail t m) 0
  (if (h.mbox m).st ≠ .pending || s.mbElsewhere c t m || s.tornDown c t then s
    else match h.flight.find? (fun f => f.dest = .mbox m) with
      | some f => s.passTo c (max (s.core c).cyc f.due)
      | none =>
        let done := s.setThr c t { h with mbWait := Sparse.erase h.mbWait m }
        if Sparse.has h.mbWait m then
          match Sparse.get (MbWait.val 0) h.mbWait m with
          | .fe _ _ _ _ => s
          | .atomic id cnt =>
            let s1 := done.acked c t id
            (if status.toNat ≤ 1 then s1.countAtomic c t cnt else s1).mbReply c t m status.toNat value
          | .val v => done.mbReply c t m status.toNat (BitVec.ofNat 64 v)
        else done.mbReply c t m status.toNat value)

/-- MAILBOX_REPLY (R80, R83, R253). -/
def execMailboxReply (c : CoreId) (t : ThreadId) (m : Fin 4) (status : Status) (value : Word) (s : State) : Res :=
  let own := (s.thr (s.redir c) t).flight.any (fun f => f.dest = .mbox m)
  .next (if own then s.mailboxReply (s.redir c) t m status value else s.inward (s.redir c) (fun s => s.mailboxReply (s.redir c) t m status value))

/-- Apply `f` to a thread as it stood before a halt, and leave it HALTED (R738, R739). -/
def State.underHalt (s : State) (c t : Nat) (f : State → State) : State :=
  let h := s.thr c t
  match h.st, h.preHalt with
  | .halted, some p =>
    let s1 := f (s.setThr c t { h with st := p, preHalt := none })
    let h1 := s1.thr c t
    if h1.st = .suspended then s1 else s1.setThr c t { h1 with st := .halted, preHalt := some h1.st }
  | _, _ => f s

/-- FE_REPLY (R331, R336, R339): the reply of the full/empty operation that the thread (`m` none) or its mailbox waits for. An
STFE that completes is acknowledged with it. -/
def State.feReply (s : State) (c : CoreId) (t : ThreadId) (m : Option (Fin 4)) (status : Status) (value : Word) (tag : Fin 4) : State :=
  let r : FeReply := ⟨if status.toNat = 1 then 0 else status.toNat, value.toNat, tag⟩
  ((s.landAccess c (feKey t 0 (m.map (·.val)) 0) 0).underHalt c t fun s =>
    let h := s.thr c t
    match m with
    | some k =>
      match Sparse.has h.mbWait k, Sparse.get (MbWait.val 0) h.mbWait k with
      | true, .fe op a opt .sent =>
        if (h.mbox k).st ≠ .pending || s.tornDown c t then s
        else if r.status = 0x0440 || r.status = 0x0441 then s.feMail c t k op a opt r
        else ((s.setThr c t { h with mbWait := Sparse.erase h.mbWait k }).feMail c t k op a opt r).mbWake c t
      | _, _ => s
    | none =>
      match h.wait with
      | .fe op dest a opt data =>
        if (h.st ≠ .waiting && h.st ≠ .sleeping) || h.armed || h.poll then s
        else
          let armed := r.status = 0x0440 || r.status = 0x0441
          let s1 := if op = 2 && !armed then s.acked c t dest else s
          s1.feOutcome c t op dest a opt data r
      | _ => s)

/-- FE_REPLY (R331, R336, R339). -/
def execFeReply (c : CoreId) (t : ThreadId) (m : Option (Fin 4)) (status : Status) (value : Word) (tag : Fin 4) (s : State) : Res :=
  .next (s.inward (s.redir c) (fun s => s.feReply (s.redir c) t m status value tag))

/-- WRITE_ACK: the acknowledgement of write number `id` of the thread (R324, R329, R353), or with no number the reply of the
store to MMR space that it waits for (R215). The refusal of a posted write interrupts no thread. -/
def State.writeAck (s : State) (c : CoreId) (t : ThreadId) (id : Option Nat) (status : Status) : State :=
  let h := s.thr c t
  (match id with
    | some n => s.acked c t n
    | none =>
      let s := s.landAccess c (.word t) 0
      match h.wait with
      | .mmrStore a =>
        if h.st ≠ .waiting then s
        else if status.toNat ≤ 1 then s.ready c t else s.failWord c t 3 4 a status.toNat
      | _ => s)

/-- WRITE_ACK (R215, R324, R329, R353). -/
def execWriteAck (c : CoreId) (t : ThreadId) (id : Option Nat) (status : Status) (s : State) : Res :=
  .next (s.inward (s.redir c) (fun s => s.writeAck (s.redir c) t id status))

/-- The commit of a thread's staged words leaves: a bank of this module takes it at once, its status to be acknowledged (R741). -/
def State.sendLeave (s : State) (c t n scope : Nat) (a : Word) : State :=
  let h := s.thr c t
  let words := (List.range n).map (fun i => (Sparse.get (0 : Word) h.send i).toNat)
  let lead := words.dropLast.reverse.foldl (fun v w => v * 2 ^ 64 + w) 0
  let last := words.getLastD 0
  let la := a + BitVec.ofNat 64 (8 * (n - 1))
  let who := s.who c t
  let mark := fun (st : Nat) (s : State) => (s.setThr c t { s.thr c t with sendStatus := some st }).dropPlace c (.send t)
  match s.reach { who with thread := none } a (8 * n) true with
  | .to (.bank m off) =>
    let r1 := if n = 1 then (0, s) else s.memWrite (.bank m off) (8 * (n - 1)) (2 ^ (8 * (n - 1)) - 1) lead
    if r1.1 ≠ 0 then mark r1.1 r1.2
    else
      let r2 := r1.2.feBank m (off + 8 * (n - 1)) 3 (BitVec.ofNat 64 last) true scope (some c) (s.watchOf c t none 3)
      mark r2.1.status r2.2
  | .refused st s1 => mark st s1
  | _ => s.depart c (.send t) a (8 * n) [0] ([c, t, 12, a.toNat, 8 * n, scope, la.toNat] ++ words)

/-- RELEASE_DEPART: a held release leaves once the thread's earlier writes in the region of its scope, and the write-backs of its line, are acknowledged
(R254, R328). -/
def execReleaseDepart (c : CoreId) (t : ThreadId) (id : Nat) (s : State) : Res :=
  let h := s.thr c t
  .next (match h.held.find? (fun r => r.id = id) with
    | none => s
    | some r =>
      if !s.clearBelow c t r.scope r.before || (r.kind = 9 && s.placeBlocked c (.send t)) then s
      else
        let s1 := s.setThr c t { h with held := h.held.filter (fun x => x.id ≠ id) }
        if r.kind = 9 then s1.sendLeave c t r.data.toNat r.scope r.addr else
        let own := match s.translate (s.who c t) r.addr true with
          | .to p => p.ownBank c r.addr
          | _ => none
        if own.isNone && s.bypassWaits c r.addr 8 then s.bypassFlush c r.addr 8 else
        let opt := 4 + r.scope
        let q := s1.feLeave c t r.kind r.addr r.data opt none own r.id
        match q.1 with
        | some rep => q.2.feApply c t r.kind r.id r.addr r.data opt none rep
        | none => q.2)

/-! ### Fills, prefetches and write-backs -/

/-- Land word k of a fill in an entry: fetched bytes fill only the bytes that still want them (R257). -/
def CEntry.landWord (e : CEntry) (fid k : Nat) (ok : Bool) (v : Word) : CEntry :=
  if e.fid ≠ fid then e
  else
    let m := e.left &&& wordMask k
    let d := BitVec.ofNat 512 (v.toNat <<< (64 * k))
    { e with
      left := e.left &&& ~~~m
      valid := if ok then e.valid ||| m else e.valid
      data := if ok then mergeBytes e.data d m else e.data }

/-- The same of a side-buffer entry (R261). -/
def SideEntry.landWord (e : SideEntry) (fid k : Nat) (ok : Bool) (v : Word) : SideEntry :=
  if e.fid ≠ fid then e
  else
    let m := e.left &&& wordMask k
    let d := BitVec.ofNat 512 (v.toNat <<< (64 * k))
    { e with
      left := e.left &&& ~~~m
      valid := if ok then e.valid ||| m else e.valid
      data := if ok then mergeBytes e.data d m else e.data }

/-- A PRELOAD goes on with the lines that it has not fetched yet; one that must issue its word again, for a translation or a watchpoint of a later line,
stands at that word (R79, R260, R411). -/
def State.preloadOn (s : State) (c t first next last : Nat) : State :=
  let up := s.ready c t
  let again := (s.restoreCtx c t (s.thr c t).snap).ready c t
  match up.preloadGo c t first next last (last + 1 - next) with
  | .done s1 => s1
  | .exc v d a st => s.failWord c t v d a st
  | _ => match again.preloadGo c t first next last (last + 1 - next) with
    | .hold s1 => s1
    | _ => again

/-- Go on with the threads of a core that wait for room in the cache, for a PRELOAD's lines, for a range's write-backs, or for the cache to be off
(R257, R258, R260, R262, R266). -/
def State.recheck (s : State) (c : Nat) : State :=
  ((List.range 8).foldl (fun s t =>
    let h := s.thr c t
    if h.st ≠ .waiting then s
    else match h.wait with
      | .cacheRoom => s.ready c t
      | .preload first next last => s.preloadOn c t first next last
      | .flush _ lo hi inv =>
        if (s.core c).wbs.any (fun b => inLines lo hi b.line) then s
        else
          (if inv then s.cinvRange c lo hi else s).ready c t
      | _ => s) s).cacheOffDone c

/-- Land word k of fetch `fid` (R257, R261, R262). -/
def State.landFetch (s : State) (c fid k : Nat) (status : Nat) (v : Word) : State :=
  let ok : Bool := status ≤ 1
  let s := s.landAccess c (.fill fid) k
  let q := s.core c
  let s1 := s.setCore c { q with
    cache := q.cache.map (fun e => e.landWord fid k ok v)
    dropped := q.dropped.map (fun e => e.landWord fid k ok v)
    side := q.side.map (fun e => e.landWord fid k ok v) }
  let s2 := s1.deliverFill c fid (if ok then 0 else wordMask k) status
  let q2 := s2.core c
  (s2.setCore c { q2 with
    dropped := q2.dropped.filter (fun e => e.left ≠ 0)
    cache := q2.cache.filter (fun e => e.valid ≠ 0 || e.left ≠ 0 || e.lock) }).recheck c

/-- CACHE_FILL_LAND: word k of the line that fill `fid` fetches lands, or its request is refused (R257, R264). -/
def execCacheFillLand (c : CoreId) (fid : Nat) (k : Fin 8) (status : Status) (v : Word) (s : State) : Res :=
  .next (s.inward (s.redir c) (fun s => s.landFetch (s.redir c) fid k status.toNat v))

/-- PREF_LAND: word k of a PREF fetch lands in its side-buffer entry, or in the cache entry it has moved to (R261). -/
def execPrefLand (c : CoreId) (fid : Nat) (k : Fin 8) (status : Status) (v : Word) (s : State) : Res :=
  .next (s.inward (s.redir c) (fun s => s.landFetch (s.redir c) fid k status.toNat v))

/-- Record a refused write-back in the view of the entry's world (R259, R273). -/
def State.noteLost (s : State) (c world line status : Nat) : State :=
  if world = 1 then
    let k := s.core c
    let n := min (bitsOf k.cerrK 15 0 + 1) 0xFFFF
    s.setCore c { k with cerrK := BitVec.ofNat 64 (status <<< 48 + n), cerraK := BitVec.ofNat 64 (line * 64) }
  else
    ((s.bump cerr_LOST c 0).setFld cerr_STATUS c 0 status).setReg .cerra c 0 (BitVec.ofNat 64 (line * 64))

/-- WRITEBACK_ACK: the oldest write-back of a line in flight is acknowledged or refused (R259, R262). -/
def State.writebackAck (s : State) (c : CoreId) (line : BitVec 58) (status : Status) : State :=
  let s := s.landAccess c (.line line.toNat) 0
  let k := s.core c
  (match k.wbs.find? (fun b => b.line = line.toNat) with
    | none => s
    | some b =>
      let s1 := s.setCore c { k with wbs := k.wbs.erase b }
      if status.toNat ≤ 1 then (s1.recheck c).kernelOver c
      else
        let s2 := s1.noteLost c b.world b.line status.toNat
        let s3 := match b.thread with
          | none => s2
          | some t => match (s2.thr c t).st, (s2.thr c t).wait with
            | TState.waiting, Wait.flush a _ _ _ => s2.failWord c t 3 4 a status.toNat
            | _, _ => s2
        ((s3.setCore c { s3.core c with wbLost := true }).recheck c).kernelOver c)

/-- WRITEBACK_ACK (R259, R262). -/
def execWritebackAck (c : CoreId) (line : BitVec 58) (status : Status) (s : State) : Res :=
  .next (s.inward (s.redir c) (fun s => s.writebackAck (s.redir c) line status))

end Sys2Proof.Machine
end

