-- ==== Sys2Proof/Machine/Traps.lean ====
section
/-!
DEFINITION. What happens to threads beside their own words: suspension, fault notices, interrupts, timers, stalemate, timeouts,
wakes (R104 to R139, R226, R336 to R345).
-/
namespace Sys2Proof.Machine

/-- The core's clock has reached cycle `now`: writes due by then land (R71). (DESIGN CHOICE: notes/assumptions/22.md.) -/
def State.clockTo (s : State) (c now : Nat) : State :=
  if now ≤ (s.core c).cyc then s else s.passTo c now

/-- Set an interrupt line of a core pending (R119). -/
def State.setLine (s : State) (c line : Nat) : State :=
  let w := (s.reg .ipend c 0).toNat
  s.setReg .ipend c 0 (BitVec.ofNat 64 (w - nbit w line * 2 ^ line + 2 ^ line))

/-- THREAD_SUSPEND: a thread that a TSTOP or a STOP bit names is suspended at a word boundary, or at once if it sleeps (R110,
R113); a halt due at the same boundary is discarded (R740). -/
def execThreadSuspend (c : CoreId) (k : ThreadId) (s : State) : Res :=
  let h := s.thr c k
  .next (if !h.stopReq then s else match h.st with
    | .ready | .sleeping => let s1 := s.suspend c k; s1.setThr c k { s1.thr c k with haltReq := false }
    | _ => s)

/-- The lowest thread whose notice a world's supervisor thread has not taken. -/
def lowestBit (m : Nat) : Option Nat := (List.range 8).find? (fun i => nbit m i = 1)

/-- THREAD_FAULT_TAKEN: the supervisor thread of world `w` takes vector 32 for a notice, at its next boundary with EXL = 0,
never between a branch and its delay slot, woken if it sleeps (R120, R124). -/
def execThreadFaultTaken (c : CoreId) (keeper : Bool) (s : State) : Res :=
  let q := s.core c
  let r := s.supOf c (if keeper then 1 else 0)
  let h := s.thr c r
  let new := if keeper then q.tfnewK else q.tfnewT
  let pend := if keeper then q.tfpendK else q.tfpendT
  .next (match lowestBit new.toNat with
    | none => s
    | some k =>
      if s.tf wstat_EXL c r = 1 || h.slot.isSome || !(h.st = .ready || h.st = .sleeping) then s
      else
        let m := ~~~(BitVec.ofNat 8 (2 ^ k))
        let s1 := s.setCore c (if keeper then { q with tfnewK := q.tfnewK &&& m } else { q with tfnewT := q.tfnewT &&& m })
        let s2 := if h.st = .sleeping then s1.abandon c r true else s1
        s2.enter c r 32 0 0 0 ((lowestBit pend.toNat).getD k))

/-- A thread that can take an interrupt line (R119, R120): its tvec bit, of a line that its world may enable, IE, EXL, state, and no branch waiting for its
delay slot. -/
def State.canTake (s : State) (c t line : Nat) : Bool :=
  let h := s.thr c t
  nbit (lineView (s.world c t) (s.treg .tvec c t).toNat) line = 1 && s.tf wstat_IE c t = 1 && s.tf wstat_EXL c t = 0
    && (h.st = .ready || h.st = .sleeping) && h.slot.isNone

/-- INTERRUPT_TAKEN: a pending line (1 to 31 for vectors 33 to 63) is taken by the lowest-numbered thread that can (R119, R120). -/
def execInterruptTaken (c : CoreId) (line : Fin 32) (s : State) : Res :=
  let n := line.val
  let ready := fun t => s.canTake c t n && (n ≠ 1 || (s.thr c t).timerHeld)
  .next (if n = 0 || (2 ≤ n && nbit (s.reg .ipend c 0).toNat n = 0) then s
    else match (List.range 8).find? ready with
      | none => s
      | some t =>
        let w := (s.reg .ipend c 0).toNat
        let s1 := if n = 1 then s.setThr c t { s.thr c t with timerHeld := false }
          else s.setReg .ipend c 0 (BitVec.ofNat 64 (w - 2 ^ n))
        let s2 := if (s.thr c t).st = .sleeping then s1.abandon c t true else s1
        s2.enter c t (32 + n) 0 0 0 0)

/-- TIMER_FIRE: the core's clock reaches the compare value of a thread's timer (R119, R120, R137). -/
def execTimerFire (c : CoreId) (t : ThreadId) (now : Word) (s : State) : Res :=
  let s1 := s.clockTo c now.toNat
  .next (if s1.tf tmcmp_EN c t = 1 && s1.tf tmcmp_CMP c t ≤ (s1.core c).cyc then
      (s1.setTf tmcmp_EN c t 0).setThr c t { (s1.setTf tmcmp_EN c t 0).thr c t with timerHeld := true }
    else s1)

/-- A core DMA channel that thread t started runs, and completes to its mailbox or to a line it enables (R134). -/
def State.dmaWakes (s : State) (c t : Nat) : Bool :=
  [0, 1].any (fun ch =>
    let d := Sparse.get {} s.dmas (256 + 2 * c + ch)
    d.running && d.thread = some t && (d.mb.isSome || (d.irq && nbit (s.treg .tvec c t).toNat (2 + ch) = 1)))

/-- A sleeping thread has an outside wake source (R134, R336). -/
def State.wakeable (s : State) (c t : Nat) : Bool :=
  let h := s.thr c t
  (List.range 4).any (fun m => (h.mbox m).st = .pending)
    || s.dmaWakes c t
    || s.tf tmcmp_EN c t = 1
    || (match h.wait with
        | .sleep => s.tf wstat_IE c t = 1 && (s.treg .tvec c t).toNat / 4 % 2 ^ 22 ≠ 0
        | .fe _ _ a _ _ =>
          h.poll || (match s.translate (s.who c t) a false with
            | .to (.bank n off) => n ≠ c || s.tag (bankAddr n off) % 4 ≠ 0
            | _ => true)
        | _ => false)

/-- A world of a core is in stalemate (R135). -/
def State.stalemated (s : State) (c w : Nat) : Bool :=
  let live := (List.range 8).filter (fun t => s.world c t = w && !s.away c t)
  !live.isEmpty && live.all (fun t => (s.thr c t).st = .sleeping && !s.wakeable c t)

/-- STALEMATE: a stalemate that has lasted is raised once (R135, R136); its mask has the sleeping threads of the world in stalemate.
(DESIGN CHOICE: notes/assumptions/103.md.) -/
def execStalemate (c : CoreId) (keeper : Bool) (s : State) : Res :=
  let w := if keeper then 1 else 0
  let q := s.core c
  let r := s.supOf c w
  let kr := s.supOf c 1
  let mask := maskOf 8 (fun t => s.world c t = w && (s.thr c t).st = .sleeping)
  let noted := s.setCore c { q with stale := w :: q.stale }
  let take := fun (t : Nat) => match (noted.thr c t).st with
    | .sleeping => (noted.abandon c t false).raise c t 9 mask 0 0
    | .ready => noted.raise c t 9 mask 0 0
    | _ => s
  .next (if q.stale.contains w || !s.stalemated c w then s
    else if !s.away c r then take r
    else if w = 1 || s.away c kr then noted.send .coreFault [c, r, 9, mask]
    else take kr)

/-- WAIT_TIMEOUT: a sleep has lasted wtimeout.LIMIT × 256 cycles (R136). -/
def execWaitTimeout (c : CoreId) (t : ThreadId) (now : Word) (s : State) : Res :=
  let s1 := s.clockTo c now.toNat
  let h := s1.thr c t
  .next (if h.st = .sleeping && s1.tf wtimeout_EN c t = 1
        && s1.tf wtimeout_LIMIT c t * 256 ≤ (s1.core c).cyc - h.waitStart then
      let s2 := s1.abandon c t false
      (if s2.world c t = 0 then s2.bump DET_CNT_TIMEOUT c 0 else s2).raise c t 10 0 0 0
    else s1)

/-- SCOPE_MISMATCH_TAKEN: a held mismatch is taken at a boundary at which the thread is READY with EXL = 0 (R345). -/
def execScopeMismatchTaken (c : CoreId) (t : ThreadId) (s : State) : Res :=
  let h := s.thr c t
  .next (if h.smx.isSome && h.st = .ready && s.tf wstat_EXL c t = 0 && h.slot.isNone then
      (s.setThr c t { h with smx := none }).raise c t 14 0 0 0
    else s)

/-- WAKE_NOTIFY_ARRIVE: line 36 is set pending and the SLEEP of each named thread ends (R133, R226). -/
def State.wakeNotify (s : State) (c mask : Nat) : State :=
  (List.range 8).foldl (fun s t =>
    let h := s.thr c t
    if nbit mask t = 0 || h.wait ≠ .sleep then s
    else match h.st with
      | .sleeping => s.ready c t
      | .halted => s.setThr c t { h with heldWake := some 0 }
      | _ => s) (s.setLine c 4)

/-- WAKE_NOTIFY_ARRIVE (R226): a notify of another plot's epoch is refused as any request is (R644), and one to a fenced core is absorbed (R640). -/
def execWakeNotifyArrive (ag : Agent) (c : CoreId) (mask : BitVec 8) (s : State) : Res :=
  .next (s.inward c (fun s => if s.stale c (whoOf ag) then s.countStale c (whoOf ag) else s.wakeNotify c mask.toNat))

/-- Issue a full/empty operation of a thread or of its mailbox again (R336, R339). -/
def State.feAgain (s : State) (c t op dest : Nat) (a data : Word) (opt : Nat) (m : Option Nat) : State :=
  let own := match s.translate (s.who c t) a (op = 0 || (2 ≤ op && op ≤ 4)) with
    | .to (.bank n off) => if n = c && !inHbmWindow (a.toNat % 2 ^ 48) then some off else none
    | _ => none
  let h := s.thr c t
  let s1 := match m with
    | none => s.setThr c t { h with armed := false, poll := false }
    | some k => s.mbNote c t k (.fe op a opt .sent)
  let r := s1.feLeave c t op a data opt m own dest
  match r.1 with
  | none => r.2
  | some rep =>
    let s2 := if op = 2 && rep.status = 0 then r.2.acked c t dest else r.2
    match m with
    | some k => (s2.feMail c t k op a opt rep).mbWake c t
    | none => s2.feOutcome c t op dest a opt data rep

/-- A wake with its tag ends the wait of a sleeping thread: WAITF completes, another operation is issued again (R339). -/
def State.wakeThread (s : State) (c t tag : Nat) : State :=
  match (s.thr c t).wait with
  | .fe op dest a opt data => if op = 5 then s.feDone c t op dest a opt ⟨0, 0, tag⟩ else s.feAgain c t op dest a data opt none
  | _ => s

/-- WATCH_WAKE_ARRIVE: a fired watch on the word at `a`, with its tag, reaches its waiter (R338, R339, R341). -/
def State.watchWake (s : State) (c : CoreId) (t : ThreadId) (m : Option (Fin 4)) (a : Word) (tag : Fin 4) (epoch : BitVec 8) : State :=
  let h := s.thr c t
  let stale := s.bump WATCH_STAT_STALE_WAKE c 0
  (if epoch.toNat ≠ s.fld CTX_BIND_EPOCH c 0 then stale
    else match m with
      | none => match h.wait with
        | .fe _ _ b _ _ =>
          if !(h.armed && b = a) then stale
          else if h.st = .halted then s.setThr c t { h with heldWake := some tag.val, armed := false }
          else s.wakeThread c t tag
        | _ => stale
      | some k => match Sparse.has h.mbWait k, Sparse.get (MbWait.val 0) h.mbWait k with
        | true, .fe op b opt .armed =>
          if (h.mbox k).st = .pending && b = a then s.feAgain c t op 0 a 0 opt (some k) else stale
        | _, _ => stale)

/-- WATCH_WAKE_ARRIVE (R338, R339, R341). -/
def execWatchWakeArrive (c : CoreId) (t : ThreadId) (m : Option (Fin 4)) (a : Word) (tag : Fin 4) (epoch : BitVec 8) (s : State) : Res :=
  let own : Bool := match s.place a with
    | .bank n _ => n = (s.redir c).val
    | _ => false
  .next (if own then s.watchWake (s.redir c) t m a tag epoch else s.inward (s.redir c) (fun s => s.watchWake (s.redir c) t m a tag epoch))

/-- WATCH_POLL_EXPIRY: after a refused watch the operation is issued again when the poll interval ends (R336). -/
def execWatchPollExpiry (c : CoreId) (t : ThreadId) (m : Option (Fin 4)) (s : State) : Res :=
  let h := s.thr c t
  .next (match m with
    | none => match h.wait with
      | .fe op dest a opt data =>
        if !h.poll then s
        else if h.st = .halted then s.setThr c t { h with heldWake := some 0 }
        else s.feAgain c t op dest a data opt none
      | _ => s
    | some k => match Sparse.has h.mbWait k, Sparse.get (MbWait.val 0) h.mbWait k with
      | true, .fe op a opt .poll => s.feAgain c t op 0 a 0 opt (some k)
      | _, _ => s)

/-- KMSG_ARRIVE (R119). -/
def execKmsgArrive (c : CoreId) (s : State) : Res := .next (s.setLine c 6)

end Sys2Proof.Machine
end

