-- ==== Sys2Proof/Machine/CoreMmr.lean ====
section
/-!
DEFINITION. Writes of the registers of a core and of the module's identity, and of every register without a command of its own
(R8 to R11, R47, R50, R58, R59, R113, R139, R323, R358, R479, R494, R603, R633, R741 to R746).
-/
namespace Sys2Proof.Machine

/-- The fabric address of offset `off` of core n's register page. -/
def pageAddr (n off : Nat) : Word := BitVec.ofNat 64 (0xFFFF <<< 48 + bankAddr n (0x3F0000 + off))

/-- A write of an agent to a core register at `off`: refused with its status, or carried out by `f` and answered OK.
(DESIGN CHOICE: notes/assumptions/27.md.) -/
def State.coreWrite (s : State) (ag : Agent) (n off : Nat) (f : State → State) : State :=
  match s.reach (whoOf ag) (pageAddr n off) 8 true with
  | .refused st s1 => s1.reply 0 st 0
  | .hold _ => s
  | _ => (f s).reply 0 0 0

/-! ### Instruction memory (R57 to R59) -/

/-- The key of an instruction word: partition and word number. -/
def imemKey (part w : Nat) : Nat := part * 65536 + w

/-- IMEM_PTR_WRITE: refused for the Keeper partition from the Tenant world (R59). -/
def execImemPtrWrite (ag : Agent) (c : CoreId) (v : Word) (s : State) : Res :=
  .next (if !ag.keeper && bitsOf v 16 16 = 1 then s.reply 0 0x0402 0
    else s.coreWrite ag c 0 (fun s => s.setReg .IMEM_PTR c 0 (BitVec.ofNat 64 (v.toNat % 2 ^ 17 - v.toNat % 8))))

/-- IMEM_DATA_WRITE: two words stored, or discarded beyond the partition or under KLOCK; the pointer advances either way (R58,
R59). -/
def execImemDataWrite (ag : Agent) (c : CoreId) (v : Word) (s : State) : Res :=
  .next (s.coreWrite ag c 8 (fun s =>
    let part := s.fld IMEM_PTR_PART c 0
    let a := s.fld IMEM_PTR_ADDR c 0
    let lost := fetchLimit part ≤ a * 8 || (part = 1 && s.fld IMEM_CTL_KLOCK c 0 = 1)
    let k := s.core c
    let lo := Sparse.set 0 k.imem (imemKey part (2 * a)) (v.truncate 32)
    let im := Sparse.set 0 lo (imemKey part (2 * a + 1)) (BitVec.ofNat 32 (v.toNat >>> 32))
    let s1 := if lost then s.setFld IMEM_CTL_OVR c 0 1 else s.setCore c { k with imem := im }
    s1.setFld IMEM_PTR_ADDR c 0 (a + 1)))

/-! ### Threads from outside the core (R113, R139) -/

/-- THREAD_CTL_STOP: the STOP bits of a write act as TSTOP of each named thread (R113). -/
def execThreadCtlStop (ag : Agent) (c : CoreId) (v : Word) (s : State) : Res :=
  .next (s.coreWrite ag c 0x100 (fun s => (List.range 8).foldl (fun s k =>
    let h := s.thr c k
    if nbit v.toNat (16 + k) = 0 then s
    else match h.st with
      | .stopped | .suspended => s
      | .sleeping => s.suspend c k
      | _ => s.setThr c k { h with stopReq := true }) s))

/-- A thread starts as reset starts thread 0 (R107, R113). -/
def State.startThread (s : State) (c k : Nat) : State :=
  let s1 := s.clearNotice c k
  let s2 := ((((s1.setTf wstat_LEVEL c k 1).setTf wstat_EXL c k 0).setTf wstat_IE c k 0).setTf wstat_SELF c k 0)
  s2.setThr c k { s2.thr c k with st := .ready, pc := 0, slot := none, shadow := 0, wait := .none, armed := false, poll := false }

/-- THREAD_CTL_START: the START bits of a write start STOPPED threads, once its STOP bits have taken effect; a thread that is
not STOPPED sets ERR, whose own bit written 1 clears it (R113, R139). -/
def execThreadCtlStart (ag : Agent) (c : CoreId) (v : Word) (s : State) : Res :=
  .next (if (List.range 8).any (fun k => nbit v.toNat (16 + k) = 1 && (s.thr c k).stopReq) then s
    else s.coreWrite ag c 0x100 (fun s =>
      let s1 := if nbit v.toNat 0 = 1 then s.setFld THREAD_CTL_ERR c 0 0 else s
      (List.range 8).foldl (fun s k =>
        if nbit v.toNat (8 + k) = 0 then s
        else if (s.thr c k).st = .stopped then s.startThread c k
        else s.setFld THREAD_CTL_ERR c 0 1) s1))

/-- SWI_RAISE: bit i sets line 40 + i pending; bits 12 to 15 are the Keeper's (R139). -/
def execSwiRaise (ag : Agent) (c : CoreId) (v : Word) (s : State) : Res :=
  .next (s.coreWrite ag c 0x108 (fun s => (List.range 16).foldl (fun s i =>
    if nbit v.toNat i = 1 && (ag.keeper || i < 12) then s.setLine c (8 + i) else s) s))

/-- TCLASS_WRITE: a Tenant agent changes only Tenant threads' fields and names no Trump (R323). -/
def execTclassWrite (ag : Agent) (c : CoreId) (v : Word) (s : State) : Res :=
  .next (s.coreWrite ag c 0x300 (fun s => (List.range 8).foldl (fun s k =>
    let n := bitsOf v (2 * k + 1) (2 * k)
    if ag.keeper || (s.world c k = 0 && n ≠ 0) then s.setFld TCLASS_CLASS c 0 n k else s) s))

/-! ### The kernel, the watchdog and the send buffer -/

/-- Write back every dirty byte of a core's cache (R357). -/
def State.flushAll (s : State) (c : Nat) : State :=
  let hit := (s.core c).cache.filter (fun e => e.dirty ≠ 0)
  let s1 := hit.foldl (fun s e => s.writeBack c e none) s
  s1.setCache c ((s1.core c).cache.map (fun e => { e with dirty := 0 }))

/-- The kernel has ended on a core: its cache is written back, and the end is reported once its writes are acknowledged
(R357). -/
def State.kernelEnd (s : State) (c : Nat) : State :=
  let s1 := s.flushAll c
  (s1.setCore c { s1.core c with kend := true }).kernelOver c

/-- KEXIT: a thread of a running kernel leaves it with an exit code; it is STOPPED with its registers kept (R479, R494). -/
def execKexit (c : CoreId) (t : ThreadId) (v : Word) (s : State) : Res :=
  let run := s.fld KSTAT_RUN c 0
  .next (if s.fld KSTAT_ACTIVE c 0 = 0 || nbit run t = 0 then s
    else
      let code := v.toNat % 2 ^ 32
      let s0 := if (s.thr c t).wait = .none then s else s.ready c t
      let s1 := s0.suspend c t
      let s2 := s1.setThr c t { s1.thr c t with st := .stopped }
      let k := s2.core c
      let s3 := (s2.setCore c { k with kcodes := if code = 0 then k.kcodes else k.kcodes ++ [code] }).setFld
        KSTAT_RUN c 0 (run - 2 ^ t.val)
      if s3.fld KSTAT_RUN c 0 = 0 then s3.kernelEnd c else s3)

/-- WDOG_KICK: bit 0 sets the writing thread's watchdog count to zero (R603). -/
def execWdogKick (c : CoreId) (t : ThreadId) (v : Word) (s : State) : Res :=
  .next (if nbit v.toNat 0 = 1 then s.setThr c t { s.thr c t with wdog := 0 } else s)

/-- WDOG_CTL_WRITE: a Tenant agent changes only the EN bits of Tenant threads; LIMIT is the Keeper's (R633). -/
def execWdogCtlWrite (ag : Agent) (c : CoreId) (v : Word) (s : State) : Res :=
  .next (s.coreWrite ag c 0x808 (fun s =>
    let en := maskOf 8 (fun k => if ag.keeper || s.world c k = 0 then nbit v.toNat (24 + k) = 1
      else nbit (s.fld WDOG_CTL_EN c 0) k = 1)
    let s1 := s.setFld WDOG_CTL_EN c 0 en
    if ag.keeper && bitsOf v 8 0 ≠ 0 then s1.setFld WDOG_CTL_LIMIT c 0 (bitsOf v 8 0) else s1))

/-- SEND_DATA: word w of the thread's send buffer; while BUSY the write waits (R741). -/
def execSendData (c : CoreId) (t : ThreadId) (w : Fin 24) (v : Word) (s : State) : Res :=
  let h := s.thr c t
  .next (if s.tf SEND_STAT_BUSY c t = 1 then s
    else
      let st := s.tf SEND_STAT_STAGED c t
      (s.setThr c t { h with send := Sparse.set 0 h.send w v }).setTf SEND_STAT_STAGED c t (st - nbit st w * 2 ^ w.val + 2 ^ w.val))

/-- SEND_COMMIT (R741, R742). -/
def execSendCommit (c : CoreId) (t : ThreadId) (v : Word) (s : State) : Res :=
  let h := s.thr c t
  let n := bitsOf v 4 0
  let scope := bitsOf v 9 8
  let a : Word := BitVec.ofNat 64 (s.tf SEND_DEST_ADDR c t * 8)
  let code := fun (st : Nat) (s : State) => s.setTf SEND_STAT_CODE c t st
  let window := fun (p : Place) => match p with
    | .bank _ off => bankOff off && bankOff (off + 8 * n - 1) && off / 0x100000 = (off + 8 * n - 1) / 0x100000
    | _ => false
  .next (if s.tf SEND_STAT_BUSY c t = 1 then s
    else if s.tf SEND_STAT_DISCARDED c t = 1 then
      ((code 0x0A00 s).setTf SEND_STAT_DISCARDED c t 0).setTf SEND_STAT_STAGED c t 0
    else if n = 0 || 24 < n then code 0x0402 s
    else match s.translate (s.who c t) a true with
      | .fault _ => code 0x0402 s
      | .hold _ => s
      | .to p =>
        let near := match p with | .remote _ off => s.localPlace off | q => q
        match near with
        | .hbm _ _ => code 0x0405 s
        | q =>
          if !window q then code 0x0402 s
          else
            let s1 := (s.setTf SEND_STAT_STAGED c t 0).setTf SEND_STAT_BUSY c t 1
            let id := h.nextW
            if s.clearBelow c t scope id && !s.inFlight c a (8 * n) then s1.sendLeave c t n scope a
            else (s1.setThr c t { s1.thr c t with held := h.held ++ [⟨id, scope, id, a, BitVec.ofNat 64 n, 9⟩] }).holdPlace c (.send t) a (8 * n))

/-- The acknowledgement of a commit: BUSY clears and CODE holds its status (R741). A commit that the model performed at a bank of this module
has its status already; `status` is another module's. -/
def State.sendDone (s : State) (c : CoreId) (t : ThreadId) (status : Status) : State :=
  let h := s.thr c t
  let s := s.landAccess c (.send t) 0
  if s.tf SEND_STAT_BUSY c t = 0 || h.held.any (fun r => r.kind = 9) then s
  else ((s.setThr c t { h with sendStatus := none }).setTf SEND_STAT_BUSY c t 0).setTf SEND_STAT_CODE c t (h.sendStatus.getD status.toNat)

/-- SEND_ACK: that of a commit to another bank comes from outside the core (R640, R741). -/
def execSendAck (c : CoreId) (t : ThreadId) (status : Status) (s : State) : Res :=
  let a : Word := BitVec.ofNat 64 (s.tf SEND_DEST_ADDR (s.redir c) t * 8)
  let own : Bool := match s.place a with
    | .bank n _ => n = (s.redir c).val
    | _ => false
  .next (if own then s.sendDone (s.redir c) t status else s.inward (s.redir c) (fun s => s.sendDone (s.redir c) t status))

/-! ### The module's identity, and registers without a command of their own -/

/-- MODULE_ID_WRITE: the Keeper assigns the ID under its lock; 0xFFFF does not replace an assigned ID (R50). -/
def execModuleIdWrite (ag : Agent) (v : Word) (s : State) : Res :=
  let id := s.fld MODULE_ID_ID 0 0
  .next (if !ag.keeper then s.reply 0 0x0402 0
    else
      let n := bitsOf v 15 0
      let keep := s.fld MODULE_ID_ID_LOCK 0 0 = 1 || n = 0xFFFF
      let s1 := s.setFld MODULE_ID_ID 0 0 (if keep then id else n)
      (if bitsOf v 16 16 = 1 then s1.setFld MODULE_ID_ID_LOCK 0 0 1 else s1).reply 0 0 0)

/-- Registers whose write is a command of its own. -/
def RegName.ownCommand : RegName → Bool
  | .IMEM_PTR | .IMEM_DATA | .THREAD_CTL | .SWI_RAISE | .POISON_CLR | .TAG_DATA | .TCLASS | .POT_HOLD | .POT_OPEN | .POT_CTL
  | .KEXIT | .WDOG_KICK | .WDOG_CTL | .SEND_DATA_w | .SEND_COMMIT | .DMAC_GO | .MODULE_ID | .CLASS_ARB | .DMA_TAIL | .DMA_CTL | .PORT_CFG
  | .DMA_RING_BASE | .DMA_RING_CFG | .DMA_EVENT_SET | .TU_RANGE_W0 | .TU_SYNC | .QP_SQ_TAIL | .QP_CQ_HEAD | .QP_CQ_POST
  | .QP_CTL | .FUNC_WIN | .ADMIT_CFG | .ADMIT_PLOT_n | .RESET_REQ | .MOD_RESET | .DUMP_CTL | .TIME_CFG | .TIME_SET
  | .FW_RECOVERY | .LB_CTL_i | .RTR_TURN | .DBG_LOCK | .DBG_RUN | .PWR_CFG => true
  | _ => false

/-- The lock that governs a register's RWL fields is open (R11). -/
def State.unlocked (s : State) (r : RegAt) : Bool :=
  match r.r with
  | .WRANGE_n => s.fld WRANGE_CTL_LOCK r.u 0 = 0
  | .MODULE_ID => s.fld MODULE_ID_ID_LOCK 0 0 = 0
  | _ => true

/-- Keep the elements of Keeper threads from a Tenant agent's write (R358). -/
def State.keepKeeper (s : State) (c : Nat) (f : Field) (first : Nat) (old : State) : State :=
  (List.range f.rep).foldl (fun a k => if s.world c (first + k) = 1 then a.setFld f c 0 (old.fld f c 0 k) k else a) s

/-- A rack partner is given up: STATE returns to NONE (R674). -/
def State.dropPartner (s : State) : State :=
  let s1 := ((s.setFld RACK_PARTNER_STATE 0 0 0).setFld RACK_PARTNER_PARTNER 0 0 0xFFFF).setFld RACK_PARTNER_AT_RISK 0 0 0
  { s1 with kp := { s1.kp with rack := { s1.kp.rack with partner := none } } }

/-- The racking reserve is emptied, with its pages that have moved (R415, R671, R673). -/
def State.emptyReserve (s : State) : State := (List.range 8).foldl (fun s p =>
  ((s.stack p).moved.map (·.1)).foldl (fun s g =>
    if 14952 ≤ g && g < 16488 then s.initBytes (hbmAddr p (s.hbmOff p (g * 2 ^ 21))) (2 ^ 21) else s)
    (s.initBytes (hbmAddr p (14952 * 2 ^ 21)) (1536 * 2 ^ 21))) s

/-- The hosted module is released, and the reserve emptied (R674). -/
def State.dropHosted (s : State) : State :=
  let s1 := (s.setFld RACK_PARTNER_HOSTED 0 0 0xFFFF).emptyReserve
  { s1 with kp := { s1.kp with rack := { s1.kp.rack with hosted := none } } }

/-- This module and a registered one share a power feed, without the override (R673). -/
def State.oneFeed (s : State) (x : Peer) : Bool :=
  !x.override && x.rack = s.fld RACK_LOC_RACK_ID 0 0 && x.feed = s.fld STRAP_STAT_FEED_ID 0 0

/-- The check of R673 again, for the partner and the hosted module (R674). -/
def State.rackRecheck (s : State) : State :=
  let s1 := if s.kp.rack.partner.any (fun x => s.oneFeed x) then s.dropPartner else s
  if s1.kp.rack.hosted.any (fun x => s1.oneFeed x) then s1.dropHosted else s1

/-- RACK_LOC has been written: the modules concerned are told, and the check is made here (R674). -/
def State.rackMoved (s : State) : State :=
  let l := s.kp.rack.partner.toList ++ s.kp.rack.hosted.toList
  (l.foldl (fun s x => s.send .engine [1, x.module, s.fld RACK_LOC_RACK_ID 0 0]) s).rackRecheck

/-- A RACK_NVME area that would overlap the dump area (R672): DUMP_NVME gives its first block, and DUMP_CFG its size. -/
def State.nvmeClash (s : State) : Bool :=
  let a := s.fld RACK_NVME_LBA 0 0
  let n := s.fld RACK_NVME_BLOCKS 0 0
  let b := s.fld DUMP_NVME_LBA 0 0
  n ≠ 0 && a < b + s.fld DUMP_CFG_PAGES 0 0 * 512 && b < a + n

/-- The side effects of a register write beside its fields. -/
def State.afterWrite (s old : State) (r : RegAt) (w : Who) : State :=
  match r.r with
  | .STREAM_SEL_0 => if w.world = 1 then s else s.keepKeeper r.u STREAM_SEL_0_STREAM 0 old
  | .STREAM_SEL_1 => if w.world = 1 then s else s.keepKeeper r.u STREAM_SEL_1_STREAM 4 old
  | .SYNC_CTL =>
    if w.world = 1 then s
    else s.setFld SYNC_CTL_SMX_EN r.u 0 (maskOf 8 (fun k =>
      nbit ((if s.world r.u k = 1 then old else s).fld SYNC_CTL_SMX_EN r.u 0) k = 1))
  | .DMA_BIND =>
    if 256 ≤ r.u then old
    else
      let s1 := s.setFld DMA_BIND_EPOCH r.u 0 (Sparse.get 0 s.epochs (s.fld DMA_BIND_PLOT r.u 0))
      let st := s.fld DMA_STAT_STATE r.u 0
      if s.fld DMA_BIND_BOUND r.u 0 = 0 then s1.setFld DMA_STAT_STATE r.u 0 6
      else if st = 6 then s1.setFld DMA_STAT_STATE r.u 0 0 else s1
  | .QP_CFG =>
    let en := s.fld QP_CFG_EN r.u 0
    if old.fld QP_CFG_EN r.u 0 = 1 then
      (if en = 1 then old
       else
        let s1 := old.setFld QP_CFG_EN r.u 0 0
        if s1.fld QP_STAT_STATE r.u 0 = 1 then s1.setFld QP_STAT_STATE r.u 0 0 else s1)
    else if en = 1 then s.setFld QP_CFG_EN r.u 0 0 else s
  | .SRV_PLOT_A_n =>
    let total := (List.range 64).foldl (fun a n => a + s.fld SRV_PLOT_A_n_TRACK_MAX 0 n) 0
    if 16384 < total || s.fld SRV_PLOT_A_n_TRACK_MAX 0 r.i < s.fld SRV_PLOT_A_n_TRACK_LEAD 0 r.i then old else s
  | .TU_RANGE_W1 =>
    if w.world = 0 && s.fld TU_RANGE_W0_KOWN r.u r.i = 1 then old else s
  | .RACK_LOC => s.rackMoved
  | .RACK_NVME => if s.nvmeClash then old else s
  | .PORT_BIND =>
    let keys := (Sparse.get {} s.kp.fab.ports r.u).keys ≠ 0 || s.kp.fab.peerKeys.any (fun e => e.2.keys ≠ 0)
    if old.fld PORT_BIND_KEEPER_OK r.u 0 = 1 || (s.fld PORT_CFG_ENC r.u 0 = 1 && keys) then s else s.setFld PORT_BIND_KEEPER_OK r.u 0 0
  | .PORT_POOL_v =>
    let total := (List.range 4).foldl (fun a v => a + s.fld PORT_POOL_v_RESP r.u v + s.fld PORT_POOL_v_REQ r.u v) 0
    if s.fld PORT_STAT_STATE r.u 0 = 3 || 8192 < total then old else s
  | _ => s

/-- The unit and index that a write of the agent reaches: per-thread copies are the writing thread's. -/
def RegAt.forAgent (r : RegAt) (w : Who) : RegAt :=
  match r.r with
  | .SEND_DEST => { r with i := (w.thread.getD 0) * 32 }
  | _ => r

/-- A write of n bytes of a register has its effect. -/
def State.putRegister (s : State) (r : RegAt) (w : Who) (n : Nat) (v : Word) : State :=
  let b := 8 * r.byte
  (s.setReg r.r r.u r.i (r.r.written (s.unlocked r) (b + 8 * n - 1) b (s.reg r.r r.u r.i) (v <<< b))).afterWrite s r w

/-- A write of n bytes at a place of MMR space whose register is `r` has its effect, on the second 32-bit register that it reaches too (R47). -/
def State.putPlace (s : State) (p : Place) (r : RegAt) (w : Who) (n : Nat) (v : Word) : State :=
  match p.upper n with
  | none => s.putRegister r w n v
  | some u => (s.putRegister r w 4 v).putRegister (u.forAgent w) w 4 (v >>> 32)

/-- REGISTER_WRITE: a write of 8 bytes, or of 4 (`half`), to a register without a command of its own updates its fields by their
access codes (R8, R10, R11, R47); refused accesses change nothing (R48, R49, R113, R116, R126). -/
def execRegisterWrite (ag : Agent) (a : Word) (half : Bool) (v : Word) (s : State) : Res :=
  let w := whoOf ag
  let n := if half then 4 else 8
  .next (match s.reach w a n true with
      | .refused st s1 => s1.reply 0 st 0
      | .hold _ => s
      | .to p => match p.regAt with
        | none => s
        | some r0 =>
          let r := r0.forAgent w
          if r.r.ownCommand then s else (s.putPlace p r w n v).reply 0 0 0)

end Sys2Proof.Machine
end

