-- ==== Sys2Proof/Machine/Pot.lean ====
section
/-!
DEFINITION. The Pot units (R311 to R323).
-/
namespace Sys2Proof.Machine

/-- A slot of a core's Pot unit. -/
def State.pot (s : State) (c n : Nat) : PotSlot := Sparse.get {} (s.core c).pots n

/-- Write a slot, and its register with it (R323). -/
def State.setPot (s : State) (c n : Nat) (p : PotSlot) : State :=
  let k := s.core c
  (s.setCore c { k with pots := Sparse.set {} k.pots n p }).setReg .POT_SLOT_n c n
    (BitVec.ofNat 64 (p.state <<< 62 + p.form <<< 60 + p.err <<< 56 + (p.done % 2 ^ 20) <<< 20 + p.dest / 64))

/-- The hold entries that a slot reserves: ceil(N ÷ 2) for a tagged one (R315). -/
def PotSlot.entries (p : PotSlot) : Nat := if p.state ≠ 0 && p.form = 1 then (p.n + 1) / 2 else 0

/-- The hold entries in use. -/
def State.holdUsed (s : State) (c : Nat) : Nat := (List.range 16).foldl (fun a n => a + (s.pot c n).entries) 0

/-- The hold area: own-scratch offset and bytes (R323). -/
def State.holdArea (s : State) (c : Nat) : Nat × Nat := (s.fld POT_HOLD_BASE c 0 * 64, s.fld POT_HOLD_ENTRIES c 0 * 64)

/-- The bytes of the hold area as they stand. (DESIGN CHOICE: notes/assumptions/26.md.) -/
def State.holdNow (s : State) (c : Nat) : Nat := s.readLE (bankAddr c (s.holdArea c).1) (s.holdArea c).2

/-- Software has written the hold area while a tagged slot is open: the results of those slots are unspecified (R323).
(DESIGN CHOICE: notes/assumptions/26.md.) -/
def State.markSpoiled (s : State) (c : Nat) : State :=
  if 0 < s.holdUsed c && s.holdNow c ≠ (s.core c).holdVal then
    (List.range 16).foldl (fun s n =>
      let p := s.pot c n
      if p.state = 1 && p.form = 1 then s.setPot c n { p with spoiled := true } else s) s
  else s

/-- The hold area holds unspecified bytes: free values (R323, notes/assumptions/1.md). (DESIGN CHOICE: notes/assumptions/26.md.) -/
def State.stirHold (s : State) (c : Nat) : State :=
  let f := s.free
  let s1 := f.2.writeLE (bankAddr c (s.holdArea c).1) (s.holdArea c).2 f.1
  s1.setCore c { s1.core c with holdVal := s1.holdNow c }

/-- POT_HOLD_WRITE: the hold area, unless a tagged slot is open or it leaves own scratch (R323); a reserved ENTRIES keeps its value (R10). -/
def execPotHoldWrite (ag : Agent) (c : CoreId) (v : Word) (s : State) : Res :=
  .next (if !ag.sup then s.reply 0 0x0402 0
    else s.coreWrite ag c 0x308 (fun s =>
      let e := if 512 < bitsOf v 41 32 then s.fld POT_HOLD_ENTRIES c 0 else bitsOf v 41 32
      let b := bitsOf v 17 6
      if (List.range 16).any (fun n => (s.pot c n).state ≠ 0 && (s.pot c n).form = 1) || 0x40000 < b * 64 + e * 64 then s
      else (s.setFld POT_HOLD_ENTRIES c 0 e).setFld POT_HOLD_BASE c 0 b))

/-- POT_OPEN: a slot opens for a destination, or OPEN_ERR says why not (R314, R315). -/
def execPotOpen (ag : Agent) (c : CoreId) (v : Word) (s : State) : Res :=
  let w := whoOf ag
  .next (s.coreWrite ag c 0x310 (fun s =>
    let n := bitsOf v 63 60
    let form := bitsOf v 59 58
    let dest := bitsOf v 15 0 * 64
    let last := bitsOf v 39 20
    let inUse := (List.range 16).any (fun k => (s.pot c k).state ≠ 0 && (s.pot c k).dest = dest)
    let err :=
      if (s.pot c n).state ≠ 0 then 1
      else if !bankOff dest || inUse then 2
      else if form = 3 then 3
      else if form = 1 && (1023 < last || s.fld POT_HOLD_ENTRIES c 0 < s.holdUsed c + (last + 2) / 2) then 4
      else if s.codeWordRefuses c dest 64 w || s.spillRefuses c dest 64 w then 5
      else 0
    if err ≠ 0 then s.setFld POT_CTL_OPEN_ERR c 0 err
    else
      let s1 := (List.range 8).foldl (fun s i =>
        (s.tagWord c (dest + 8 * i) 0).fireWatches c (dest + 8 * i) false) s
      let base : Nat × State := match s1.bankRead c dest 64 with
        | (some x, s2) => (x, s2)
        | (none, s2) => s2.free
      let r := if form = 0 && bitsOf v 55 55 = 1 then base else (0, s1)
      let sums := if form = 0 then (List.range 4).map (fun i => (r.1 >>> (128 * i)) % 2 ^ 128) else []
      let s3 := r.2.setPot c n
        { state := 1, form := form, n := last + 1, scope := bitsOf v 57 56, plot := w.plot, world := w.world, dest := dest,
          sums := sums }
      if form = 1 then s3.stirHold c else s3))

/-- POT_CANCEL: each CANCEL bit closes its slot and frees its hold entries; the destination stays as it is (R320). -/
def execPotCancel (ag : Agent) (c : CoreId) (v : Word) (s : State) : Res :=
  .next (s.coreWrite ag c 0x318 (fun s => (List.range 16).foldl (fun s n =>
    let p := s.pot c n
    if nbit v.toNat n = 1 && p.state ≠ 0 then s.setPot c n { p with state := 0, sums := [], nodes := [], leaves := 0 } else s) s))

/-! ### Combining -/

/-- Lane-by-lane FP32 addition of two partials (R188, R311). -/
def addLanes (a b : List Nat) : List Nat :=
  (a.zip b).map (fun p => (fmtF.addR (fmtF.decode p.1) (fmtF.decode p.2)).code)

/-- Word-by-word addition modulo 2^128 (R183). -/
def addExact (a b : List Nat) : List Nat := (a.zip b).map (fun p => (p.1 + p.2) % 2 ^ 128)

/-- The 16 lanes, or the four exact words, of a 64-byte partial. -/
def partOf (form v : Nat) : List Nat :=
  if form = 0 then (List.range 4).map (fun i => (v >>> (128 * i)) % 2 ^ 128)
  else (List.range 16).map (fun i => (v >>> (32 * i)) % 2 ^ 32)

/-- The 64 bytes of a partial. -/
def ofPart (form : Nat) (l : List Nat) : Nat :=
  let w := if form = 0 then 128 else 32
  l.reverse.foldl (fun a x => a <<< w + x) 0

/-- ceil(log2 N), the root's level (R317). -/
def rootLevel (n : Nat) : Nat := if n ≤ 1 then 0 else Nat.log2 (n - 1) + 1

/-- The tags that node (k, i) covers below N, as a bit mask (R317). -/
def nodeLeaves (k i n : Nat) : Nat :=
  let lo := i * 2 ^ k
  let hi := min ((i + 1) * 2 ^ k) n
  if hi ≤ lo then 0 else (2 ^ (hi - lo) - 1) <<< lo

/-- Enter a node into a held set: promote it where it has no right sibling, combine it with its sibling where that is held, and
go on upward (R317). Answers the held nodes and the root, if it has formed. -/
def climb (n : Nat) (held : Sparse (List Nat)) (k i : Nat) (v : List Nat) : Nat → Sparse (List Nat) × Option (List Nat)
  | 0 => (Sparse.put held (k * 2 ^ 20 + i) v, none)
  | f + 1 =>
    if k = rootLevel n then (held, some v)
    else if i % 2 = 0 && n ≤ (i + 1) * 2 ^ k then climb n held (k + 1) (i / 2) v f
    else
      let sib := if i % 2 = 0 then i + 1 else i - 1
      let key := k * 2 ^ 20 + sib
      if Sparse.has held key then
        let o := Sparse.get [] held key
        climb n (Sparse.erase held key) (k + 1) (i / 2) (if i % 2 = 0 then addLanes v o else addLanes o v) f
      else (Sparse.put held (k * 2 ^ 20 + i) v, none)

/-- The result is written, its eight words set FULL with the named scope in the same access, and the slot closes (R319). -/
def State.potFinish (s : State) (c n : Nat) (p : PotSlot) (r : List Nat) : State :=
  let a := bankAddr c p.dest
  let f := s.free
  let v := if p.spoiled then f.1 else ofPart p.form r
  let s0 := if p.spoiled then f.2 else s
  let s1 := s0.setPot c n { p with state := 0, sums := [], nodes := [], leaves := 0 }
  match s1.bankWrite c p.dest 64 (2 ^ 64 - 1) v with
  | (false, s2) => s2
  | (true, s2) =>
    (List.range 8).foldl (fun s i => (s.setTag (a + 8 * i) (4 + p.scope)).fireWatches c (p.dest + 8 * i) true) s2

/-- What the slot finds wrong with a contribution (R320): its ERR code, or 0. -/
def PotSlot.fault (p : PotSlot) (x : PotPart) : Nat :=
  if x.form.val ≠ p.form then 1
  else if p.form = 1 then
    (if x.last + 1 ≠ p.n then 3
     else if p.n ≤ x.i * 2 ^ x.k.val || nodeLeaves x.k x.i p.n &&& p.leaves ≠ 0 then 2 else 0)
  else if p.n < p.done + x.count then 4 else 0

/-- The slot takes a contribution, and completes when it was the last (R317, R319). -/
def State.potAccept (s : State) (c n : Nat) (x : PotPart) : State :=
  let p := s.pot c n
  let v := partOf p.form x.payload.toNat
  if p.form = 1 then
    let r := climb p.n p.nodes x.k x.i v 22
    let m := nodeLeaves x.k x.i p.n
    let q := { p with nodes := r.1, leaves := p.leaves ||| m, done := p.done + popCount (m >>> (x.i * 2 ^ x.k.val)) 1024 }
    match r.2 with
    | some root => (s.potFinish c n q root).stirHold c
    | none => (s.setPot c n q).stirHold c
  else
    let sum := if p.form = 0 then addExact p.sums v else if p.sums.isEmpty then v else addLanes p.sums v
    let q := { p with sums := sum, done := p.done + x.count }
    if q.done = q.n then s.potFinish c n q sum else s.setPot c n q

/-- Answer every contributor that a contribution holds (R316). -/
def State.potAnswer (s : State) (tags : List Nat) (status : Nat) : State := tags.foldl (fun s g => s.reply g status 0) s

/-- R116 refuses a contribution at its destination: the worlds and binding of the core, a spill region, or a bank lent to a pool (R98, R116, R270). -/
def State.potRefused (s : State) (c off : Nat) (w : Who) : Bool :=
  (s.worldCheck c off w).isSome || s.spillRefuses c off 64 w || (w.world = 0 && 0x100000 ≤ off && s.poolBacked c)

/-- A contribution reaches the Pot unit of core c for the destination at window offset `off`: it is absorbed by the proxy of a gated half, answered by a
fence, or accepted, discarded or refused, and acknowledged (R303, R316, R319, R320, R640). (DESIGN CHOICE: notes/assumptions/107.md.) -/
def State.potArrive (s0 : State) (ag : Agent) (c : CoreId) (off : BitVec 22) (x : PotPart) : State :=
  let s := s0.markSpoiled c
  let w := { whoOf ag with plot := x.plot, epoch := x.epoch }
  let orphan := fun (st : Nat) => (s.bump POT_ORPHAN_COUNT c 0).potAnswer x.tags st
  if s.gated (coreP c) (coreHalf c) then (s.bump SEAM_STAT_ABSORBED (coreP c) 0).potAnswer x.tags 0x0203
  else if s.answersFenced c then (s.boundaryCount c FENCE_DROP_CNT_ANSWERED).potAnswer x.tags 0x0201
  else if s.stale c w then (s.countStale c w).potAnswer x.tags 0x0202
  else (match (List.range 16).find? (fun n => (s.pot c n).state ≠ 0 && (s.pot c n).dest = off.toNat) with
    | none => orphan 0x0B00
    | some n =>
      let p := s.pot c n
      if p.state = 2 || p.plot ≠ x.plot then orphan 0x0B00
      else if s.potRefused c off.toNat w then orphan 0x0402
      else
        let e := p.fault x
        if e ≠ 0 then (s.setPot c n { p with state := 2, err := e }).potAnswer x.tags 0x0B00
        else (s.potAccept c n x).potAnswer x.tags 0)

/-- POT_CONTRIBUTION_ARRIVE (R316, R319, R320). -/
def execPotContributionArrive (ag : Agent) (c : CoreId) (off : BitVec 22) (x : PotPart) (s : State) : Res :=
  .next (s.potArrive ag c off x)

end Sys2Proof.Machine
end

