-- ==== Sys2Proof/Machine/Mesh.lean ====
section
/-!
DEFINITION. The geometry of the Trellis: attachments, links, routes and the check of the route tables, a Deal's targets and tree, and the joining of Pot
contributions (R19, R276, R288 to R290, R305 to R308, R317, R318).
-/
namespace Sys2Proof.Machine

/-- A router by its physical core number. -/
def State.rtr (s : State) (n : Nat) : Router := Sparse.get {} s.routers n

/-- Replace a router. -/
def State.setRtr (s : State) (n : Nat) (r : Router) : State := { s with routers := Sparse.set {} s.routers n r }

/-! ### Attachments (R19, R21, R288) -/

/-- The lower column of a module port's two attachments (R19, R288). -/
def portColumn (m : Nat) : Nat := [2, 6, 30, 33].getD (m % 4) 0

/-- The routers that a module port attaches to (R19). -/
def portRouters (m : Nat) : List Nat := [edgeRouter (m / 4) (portColumn m), edgeRouter (m / 4) (portColumn m + 1)]

/-- The router that requests to a module port's block go to (R288). -/
def portRouter (m : Nat) : Nat := edgeRouter (m / 4) (portColumn m)

/-- The attachment router of a bulk channel (R19). -/
def dmaRouter (u : Nat) : Nat := edgeRouter (u / 32) (if u % 32 < 16 then u % 32 else u % 32 + 4)

/-- The parcel of a PCIe lane, and of a link in ×8 + ×8 host mode (R21). -/
def laneParcel (lane : Nat) : Nat := if lane < 8 then 0 else 7

/-- The parcel whose half a PCIe link uses, in each host mode (R21): lanes 0–7 of a ×16 link are on parcel 0. -/
def linkParcels (split : Bool) (link : Nat) : List Nat :=
  if split then [laneParcel (8 * link)] else [laneParcel 0, laneParcel 8]

/-- The routers that the PCIe half of parcel 0 or 7 attaches to (R19). -/
def pcieRouters (p : Nat) : List Nat := [edgeRouter p 27, edgeRouter p 28]

/-- The router of a parcel's translation store (R19, R411). -/
def storeRouter (p : Nat) : Nat := edgeRouter p 26

/-- The router with a parcel's service port (R276). -/
def serviceRouter (p : Nat) : Nat := p * 1296 + 17 * 36 + 17

/-- The router, and the port there, that a request for a place of this module leaves the Trellis by (R288): 4 local, 5 attachment, 6 service. -/
def Place.exit : Place → Option (Nat × Nat)
  | .bank n _ | .coreMmr n _ => some (n, 4)
  | .hbm p off => some (hbmHome p off, 5)
  | .root _ => some (serviceRouter 0, 6)
  | .mmr off => match mmrBlock off with
    | some (.dma, u, _) => some (dmaRouter u, 5)
    | some (.port, m, _) => some (portRouter m, 5)
    | some (.fab, _, _) => some (portRouter 0, 5)
    | some (.hbm, p, _) => some (hbmRouter p 0, 5)
    | some (.queue, _, _) | some (.func, _, _) | some (.adm, _, _) => some (edgeRouter 0 27, 5)
    | some (.tu, _, _) => some (storeRouter 0, 5)
    | some (.parcel, p, _) => some (serviceRouter p, 6)
    | some (.router, n, _) => some (serviceRouter (coreP n), 6)
    | some (.ident, _, _) => some (serviceRouter 0, 6)
    | _ => none
  | _ => none

/-! ### Links and routes (R17, R276, R289, R290) -/

/-- The outputs of a router. -/
inductive Out where
  | north | east | south | west | here
  deriving DecidableEq, Repr

/-- The number of an output: 0 north, 1 east, 2 south, 3 west, 4 the ports of the router itself. -/
def Out.num : Out → Nat
  | .north => 0 | .east => 1 | .south => 2 | .west => 3 | .here => 4

/-- An output by RTR_OVR's PORT number. -/
def outOf (n : Nat) : Out := match n with | 0 => .north | 1 => .east | 2 => .south | 3 => .west | _ => .here

/-- The number of the port at the other end of a link. -/
def backPort (o : Nat) : Nat := (o + 2) % 4

/-- The router at the other end of a link: none where the port lies on the module boundary (R276). -/
def linkTo (n : Nat) (o : Out) : Option Nat :=
  let x := meshX n
  let y := meshY n
  match o with
  | .north => if y = 0 then none else some (coreAt x (y - 1))
  | .south => if 71 ≤ y then none else some (coreAt x (y + 1))
  | .east => if 143 ≤ x then none else some (coreAt (x + 1) y)
  | .west => if x = 0 then none else some (coreAt (x - 1) y)
  | .here => none

/-- A link joins two parcels (R17). -/
def isBridge (n : Nat) (o : Out) : Bool := match linkTo n o with | some m => coreP m ≠ coreP n | none => false

/-- The lowest-numbered enabled RTR_OVR entry that holds a destination and the class (R289). -/
def State.override (s : State) (n dx dy cls : Nat) : Option Nat :=
  (List.range 16).find? (fun k => s.fld RTR_OVR_k_EN n k = 1 && nbit (s.fld RTR_OVR_k_CLS n k) cls = 1
    && s.fld RTR_OVR_k_X0 n k ≤ dx && dx ≤ s.fld RTR_OVR_k_X1 n k && s.fld RTR_OVR_k_Y0 n k ≤ dy && dy ≤ s.fld RTR_OVR_k_Y1 n k)

/-- The next link of a packet at router n (R289). -/
def State.routeOut (s : State) (n dx dy cls : Nat) : Out :=
  match s.override n dx dy cls with
  | some k => outOf (s.fld RTR_OVR_k_PORT n k)
  | none =>
    if meshX n < dx then .east else if dx < meshX n then .west
    else if dy < meshY n then .north else if meshY n < dy then .south else .here

/-- A router is fenced, alone or with its island (R50, R290). -/
def State.fencedRouter (s : State) (n : Nat) : Bool :=
  Sparse.get 0 s.kp.fences (40000 + n) ≠ 0 || s.fld ISLAND_STATUS_ROUTER_STATE (coreP n) (coreIsland n) = 4

/-- No route enters a router: it is fenced, or its half is gated (R290). -/
def State.closedRouter (s : State) (n : Nat) : Bool := s.fencedRouter n || s.gated (coreP n) (coreHalf n)

/-- The router that an output leads to where a route may take it: a link that is there, not marked DOWN at either end, to a router that may be entered
(R276, R290, R322). -/
def State.openLink (s : State) (n : Nat) (o : Out) : Option Nat :=
  (linkTo n o).filter (fun m => nbit (s.fld RTR_LINKERR_DOWN n 0) o.num = 0 && nbit (s.fld RTR_LINKERR_DOWN m 0) (backPort o.num) = 0
    && !s.closedRouter m)

/-- The links that a packet of a class takes from router n to router d, as router and output, within f hops; none where it meets a link that no route may
take, or does not arrive (R289, R290). -/
def State.walk (s : State) (cls d : Nat) : Nat → Nat → Option (List (Nat × Nat))
  | _, 0 => none
  | n, f + 1 =>
    let o := s.routeOut n (meshX d) (meshY d) cls
    if o = .here then some []
    else match s.openLink n o with
      | none => none
      | some m => (s.walk cls d m f).map (fun l => (n, o.num) :: l)

/-- Whether no cycle is left when the edges that nothing leads to are taken away again and again. -/
def acyclic (e : List ((Nat × Nat) × (Nat × Nat))) : Nat → Bool
  | 0 => e.isEmpty
  | f + 1 =>
    let l := e.filter (fun x => e.any (fun y => y.2 = x.1))
    l.isEmpty || (l.length < e.length && acyclic l f)

/-- No route table says anything and no link, router or half is out: every packet goes by R289's last lines, X before Y. -/
def State.plainMesh (s : State) : Bool :=
  s.regs.all (fun e =>
    let r := e.1 / 2 ^ 40
    (r ≠ RegName.ctorIdx .RTR_OVR_k || bitsOf e.2 63 63 = 0) && (r ≠ RegName.ctorIdx .RTR_LINKERR || bitsOf e.2 3 0 = 0)
      && (r ≠ RegName.ctorIdx .ISLAND_STATUS || bitsOf e.2 6 4 = 0) && (r ≠ RegName.ctorIdx .HALF_RAIL_STATUS || bitsOf e.2 2 0 = 0))
    && s.kp.fences.all (fun e => e.1 < 40000)

/-- The check of R290 on the route tables as they stand: for every class, and so for both its lanes, every live router is reached from every live router by
links that a route may take, and no cycle of dependencies runs through the link buffers. X before Y alone meets it. -/
def State.routesPass (s : State) : Bool :=
  s.plainMesh || (List.range 4).all (fun cls =>
    let live := (List.range 10368).filter (fun n => !s.closedRouter n)
    let paths := live.flatMap (fun n => live.map (fun d => s.walk cls d n 10369))
    paths.all Option.isSome && acyclic ((paths.flatMap (fun p => let l := p.getD []; l.zip l.tail)).eraseDups) 41473)

/-! ### Deals (R305 to R308) -/

/-- The target positions of a Deal target word, as physical core numbers, ascending (R306). -/
def dealTargets (w : Word) : List Nat :=
  let x0 := bitsOf w 63 56
  let x1 := bitsOf w 55 48
  let y0 := bitsOf w 47 41
  let y1 := bitsOf w 40 34
  let xs := (List.range ((x1 - x0) / 2 ^ bitsOf w 33 31 + 1)).map (fun i => x0 + i * 2 ^ bitsOf w 33 31)
  let ys := (List.range ((y1 - y0) / 2 ^ bitsOf w 30 28 + 1)).map (fun j => y0 + j * 2 ^ bitsOf w 30 28)
  ((List.range 8).flatMap (fun p => (ys.filter (fun y => y / 36 = p / 4)).flatMap (fun y =>
    (xs.filter (fun x => x / 36 = p % 4)).map (fun x => coreAt x y)))).filter (fun n => !isSpare n)

/-- A Deal target word that R306 refuses. -/
def dealBad (w : Word) : Bool :=
  bitsOf w 55 48 < bitsOf w 63 56 || bitsOf w 40 34 < bitsOf w 47 41 || 144 ≤ bitsOf w 55 48 || 72 ≤ bitsOf w 40 34
    || bitsOf w 27 22 ≠ 0

/-- The spare that RTR_REDIR names at a position, or the position itself (R306, R322). -/
def State.dealCore (s : State) (n : Nat) : Nat :=
  if s.fld RTR_REDIR_EN n 0 = 1 then coreP n * 1296 + s.fld RTR_REDIR_SY n 0 * 36 + s.fld RTR_REDIR_SX n 0 else n

/-- Why the copy for a position is not sent (R308): the core that it would reach is fenced, or its half is gated. -/
def State.dealUnsent (s : State) (n : Nat) : Option Nat :=
  let c := s.dealCore n
  if s.gated (coreP c) (coreHalf c) then some 0x0203 else if s.answersFenced c then some 0x0201 else none

/-- The branches a Deal leaves router n by: along the row of its entry, then along each target column, and to a target's local
port (R307). `row` says that it still moves along the entry row; `from_` is the link it came in by. -/
def dealBranches (n : Nat) (w : Word) (row : Bool) (from_ : Option Out) : List Out :=
  let t := dealTargets w
  let x := meshX n
  let y := meshY n
  let came := fun (o : Out) => from_ = some o
  let e := if row && t.any (fun q => x < meshX q) && !came .east then [Out.east] else []
  let v := if row && t.any (fun q => meshX q < x) && !came .west then [Out.west] else []
  let a := if t.any (fun q => meshX q = x && meshY q < y) && !came .north then [Out.north] else []
  let b := if t.any (fun q => meshX q = x && y < meshY q) && !came .south then [Out.south] else []
  let h := if t.any (fun q => q = n) then [Out.here] else []
  e ++ v ++ a ++ b ++ h

/-- The routers that a Deal's tree enters from router n (R307). -/
def dealTree (n : Nat) (w : Word) : List Nat :=
  let t := dealTargets w
  let between := fun (a b i : Nat) => decide (min a b ≤ i) && decide (i ≤ max a b)
  (List.range 10368).filter (fun m => t.any (fun q =>
    (meshY m = meshY n && between (meshX n) (meshX q) (meshX m)) || (meshX m = meshX q && between (meshY n) (meshY q) (meshY m))))

/-- A Deal from router n goes as unicast copies: its tree would enter a fenced router or a gated half (R308). -/
def State.dealSplits (s : State) (n : Nat) (w : Word) : Bool := (dealTree n w).any s.closedRouter

/-- Note what became of the copy for position n: carried out where the status is 0 (R309). -/
def DealRun.note (r : DealRun) (n status : Nat) : DealRun :=
  let r1 := { r with out := r.out.erase n }
  if status = 0 then { r1 with done := r.done + 1 }
  else match r.low with
    | some x => if n < x.1 then { r1 with low := some (n, status) } else r1
    | none => { r1 with low := some (n, status) }

/-- The status of a Deal's acknowledgement: that of the lowest-numbered target whose copy was not carried out, or OK (R309). -/
def DealRun.status (r : DealRun) : Nat := (r.low.map (·.2)).getD 0

/-- The acknowledgement of one copy is combined with the others'; the last lets the issuer have the Deal's, with the number of targets and of copies
carried out (R309). -/
def State.dealAck (s : State) (p : Packet) (pos status : Nat) : State :=
  match s.deals.find? (fun r => r.id = p.id) with
  | none => s
  | some r =>
    let r1 := r.note pos status
    if r1.out.isEmpty then ({ s with deals := s.deals.erase r } : State).reply p.tag r1.status (r1.targets <<< 32 + r1.done)
    else { s with deals := s.deals.map (fun x => if x.id = p.id then r1 else x) }

/-- A request that a fence turns back is answered FENCED: a Deal's copy to the Deal, a contribution to its contributors (R309, R640). -/
def State.turnBack (s : State) (p : Packet) : State :=
  match p.deal, p.pot with
  | some d, _ => s.dealAck p ((d.only.map (·.val)).getD (coreAt p.dx p.dy)) 0x0201
  | none, some x => s.potAnswer x.tags 0x0201
  | none, none => s.reply p.tag 0x0201 0

/-! ### Joining contributions (R317, R318) -/

/-- Two contributions that a combiner joins (R318). -/
def potPartner (a b : PotPart) : Bool :=
  a.dest = b.dest && a.form = b.form && a.epoch = b.epoch && a.plot = b.plot && a.last = b.last
    && (a.form ≠ 1 || (a.k = b.k && a.i / 2 = b.i / 2 && a.i ≠ b.i))

/-- The contribution that two partners become, promoted as far as it has no right sibling (R317, R318). -/
def potJoin (a b : PotPart) : PotPart :=
  let va := partOf a.form a.payload.toNat
  let vb := partOf b.form b.payload.toNat
  if a.form = 1 then
    let v := if a.i < b.i then addLanes va vb else addLanes vb va
    { a with k := a.k + 1, i := a.i / 2, count := a.count + b.count, payload := BitVec.ofNat 512 (ofPart 1 v),
             tags := a.tags ++ b.tags }
  else
    let v := if a.form = 0 then addExact va vb else addLanes va vb
    { a with count := a.count + b.count, payload := BitVec.ofNat 512 (ofPart a.form v), tags := a.tags ++ b.tags }

/-- A node without a right sibling is promoted as soon as anything holds it (R317). -/
def potPromote (x : PotPart) : Nat → PotPart
  | 0 => x
  | f + 1 =>
    if x.form = 1 && x.k.val < rootLevel (x.last + 1) && x.i % 2 = 0 && x.last + 1 ≤ (x.i + 1) * 2 ^ x.k.val then
      potPromote { x with k := x.k + 1, i := x.i / 2 } f
    else x

/-- What a combiner makes of a contribution and the parts it holds: it joins a partner, and the node that this makes joins a sibling held beside it, as
long as one is there (R317, R318). Answers the contribution and the places of the parts it took, the last taken first; a place that holds no part for
it is `none`. -/
def potGather (held : List (Option PotPart)) (x : PotPart) (took : List Nat) : Nat → PotPart × List Nat
  | 0 => (x, took)
  | f + 1 =>
    let at_ := fun (i : Nat) => (held.getD i none).filter (fun y => !took.contains i && potPartner y x)
    match (List.range held.length).find? (fun i => (at_ i).isSome) with
    | some i => potGather held (potPromote (potJoin ((at_ i).getD x) x) 21) (i :: took) f
    | none => (x, took)

/-- The members of a list but those at the places in `took`. -/
def leaveOut {α : Type} (l : List α) (took : List Nat) : List α :=
  ((List.range l.length).zip l).filterMap (fun p => if took.contains p.1 then none else some p.2)

/-! ### Halves and waits -/

/-- Initialise the banks of every core of a half (R38, R247). -/
def State.zeroHalf (s : State) (p h : Nat) : State :=
  (List.range 1296).foldl (fun s i =>
    let n := p * 1296 + i
    if coreHalf n = h then (s.initBytes (bankAddr n 0) 0x40000).initBytes (bankAddr n 0x100000) 0x200000 else s) s

/-- The per-hop waits w(k) of a parcel: R295's figures at the reset values of CLASS_ARB, otherwise the Keeper's. -/
def State.hopWaits (s : State) (p : Nat) (w : List Nat) : List Nat :=
  if s.reg .CLASS_ARB p 0 = RegName.resetVal .CLASS_ARB p 0 then [16, 40, 96, 256] else w

end Sys2Proof.Machine
end

