-- ==== Sys2Proof/Machine/Via.lean ====
section
/-!
DEFINITION. Accesses of many bytes by an engine: a DMA channel, the command processor, a queue engine or the host window. They are
served in aligned 64-byte blocks, each whole (R236, R375, R463). What another module or host memory answers is an operand of the
command that makes the access.
-/
namespace Sys2Proof.Machine

/-- The pieces of n bytes at offset `o` cut at 64-byte boundaries: distance from the start, and length. -/
def blocksFrom (o d n : Nat) : Nat → List (Nat × Nat)
  | 0 => []
  | f + 1 =>
    if n = 0 then []
    else
      let l := min n (64 - (o + d) % 64)
      (d, l) :: blocksFrom o (d + l) (n - l) f

/-- The pieces of n bytes at an address. -/
def blocksOf (a : Word) (n : Nat) : List (Nat × Nat) := blocksFrom (a.toNat % 64) 0 n (n / 64 + 2)

/-- Address arithmetic within the 48 offset bits (R374). -/
def addOff (a : Word) (d : Int) : Word :=
  BitVec.ofNat 64 ((a.toNat >>> 48) <<< 48 + (((a.toNat % 2 ^ 48 : Nat) + d) % 2 ^ 48).toNat)

/-- Read n bytes in their blocks: status, value, and the state after. Another module's answer is `fs` and `fd`. -/
def State.readVia (s : State) (w : Who) (a : Word) (n fs fd : Nat) : Nat × Nat × State :=
  (blocksOf a n).foldl (fun r b =>
    if r.1 ≠ 0 then r
    else match r.2.2.reach w (addOff a b.1) b.2 false with
      | .hold _ => (viaHold, 0, r.2.2)
      | .refused st s1 => (st, 0, s1)
      | .to (.remote _ _) =>
        ((if fs ≤ 1 then 0 else answerCode fs), r.2.1 + ((fd >>> (8 * b.1)) % 2 ^ (8 * b.2)) <<< (8 * b.1), r.2.2)
      | .to p =>
        if p.isMmr then
          let v := r.2.2.mmrRead p w b.2
          (0, r.2.1 + (v.1.toNat % 2 ^ (8 * b.2)) <<< (8 * b.1), v.2)
        else
          let v := r.2.2.memRead p b.2
          (v.1, r.2.1 + v.2.1 <<< (8 * b.1), v.2.2)) (0, 0, s)

/-- Write n bytes in their blocks: the first failing status, the bytes written before it, and the state after. A block in another
module or in MMR space leaves as a request, answered `fs`. -/
def State.writeVia (s : State) (w : Who) (a : Word) (n v fs : Nat) : Nat × Nat × State :=
  (blocksOf a n).foldl (fun r b =>
    if r.1 ≠ 0 then r
    else
      let x := (v >>> (8 * b.1)) % 2 ^ (8 * b.2)
      let leave := fun (s : State) => s.send .request [2 ^ 21, w.world, 1, (addOff a b.1).toNat, b.2, x, w.level, w.plot, w.epoch]
      match r.2.2.reach w (addOff a b.1) b.2 true with
      | .hold _ => (viaHold, r.2.1, r.2.2)
      | .refused st s1 => (st, r.2.1, s1)
      | .to (.remote _ _) => if fs ≤ 1 then (0, r.2.1 + b.2, leave r.2.2) else (answerCode fs, r.2.1, leave r.2.2)
      | .to p =>
        if p.isMmr then (if fs ≤ 1 then (0, r.2.1 + b.2, leave r.2.2) else (answerCode fs, r.2.1, leave r.2.2))
        else
          let q := r.2.2.memWrite p b.2 (2 ^ b.2 - 1) x
          if q.1 = 0 then (0, r.2.1 + b.2, q.2) else (q.1, r.2.1, q.2)) (0, 0, s)

/-- The i-th little-endian 64-bit word of a value. -/
def wordAt (v i : Nat) : Nat := (v >>> (64 * i)) % 2 ^ 64

/-- The value of a list of 64-bit words. -/
def ofWords (l : List Nat) : Nat := l.foldr (fun w a => w % 2 ^ 64 + a <<< 64) 0

/-- Bits [hi:lo] of a number. -/
def nbits (v hi lo : Nat) : Nat := (v >>> lo) % 2 ^ (hi + 1 - lo)

/-- The first number below n + i, from i up, that satisfies p. -/
def firstFrom (p : Nat → Bool) (i : Nat) : Nat → Option Nat
  | 0 => none
  | n + 1 => if p i then some i else firstFrom p (i + 1) n

/-- The units whose register `r` holds something other than its reset value. -/
def State.unitsOf (s : State) (r : RegName) : List Nat :=
  (s.regs.filterMap (fun e => if e.1 / 2 ^ 40 = r.ctorIdx then some (e.1 / 2 ^ 20 % 2 ^ 20) else none)).eraseDups

/-- The fabric address of a place of this module. -/
def ownAddr (off : Nat) : Word := BitVec.ofNat 64 (0xFFFF <<< 48 + off)

/-- A write of an agent to a register of this module's MMR space: refused with its status, or carried out by `f` and answered OK.
(DESIGN CHOICE: notes/assumptions/27.md.) -/
def State.regWrite (s : State) (ag : Agent) (off len : Nat) (f : State → State) : State :=
  match s.reach (whoOf ag) (ownAddr off) len true with
  | .refused st s1 => s1.reply 0 st 0
  | .hold _ => s
  | _ => (f s).reply 0 0 0

end Sys2Proof.Machine
end

