-- ==== Sys2Proof/Machine/Fence.lean ====
section
/-!
DEFINITION. Reset domains: their extents, and how the parts of a domain show that they drain, are fenced and are free again (R635, R639).
-/
namespace Sys2Proof.Machine

/-- The physical cores of a domain of parcel p: 0 Core, 1 Block, 2 Half, 3 Parcel; none of a Port or Stack (R26, R27, R635). -/
def domCores (p dom idx : Nat) : List Nat :=
  match dom with
  | 0 => [p * 1296 + idx % 1296]
  | 1 => ((List.range 1296).map (fun i => p * 1296 + i)).filter (fun n => coreBlock n = idx)
  | 2 => ((List.range 1296).map (fun i => p * 1296 + i)).filter (fun n => coreHalf n = idx % 2)
  | 3 => (List.range 1296).map (fun i => p * 1296 + i)
  | _ => []

/-- The islands of a domain that holds routers too. -/
def domIslands (p dom idx : Nat) : List Nat := if dom = 0 then [] else ((domCores p dom idx).map coreIsland).eraseDups

/-- The ports of a domain, by module number (R423). -/
def domPorts (p dom idx : Nat) : List Nat := if dom = 3 then (List.range 4).map (fun i => 4 * p + i) else if dom = 4 then [4 * p + idx % 4] else []

/-- The domain holds parcel p's stack. -/
def domStack (dom : Nat) : Bool := dom = 3 || dom = 5

/-- Mark a part by its key in `fences`; 0 takes the mark away, and a repair fence stays (R642). -/
def State.setFence (s : State) (key v : Nat) : State :=
  if Sparse.get 0 s.kp.fences key = 5 then s
  else { s with kp := { s.kp with fences := Sparse.set 0 s.kp.fences key v } }

/-- Show every part of a domain draining (3), fenced (4) or free (0), where it has a state field (R639). A stack's states follow R419. -/
def State.markDomain (s : State) (p dom idx v : Nat) : State :=
  let s1 := if dom = 0 then s.setFence (p * 1296 + idx % 1296) v else s
  let s2 := (domIslands p dom idx).foldl (fun s i =>
    let gone := fun (f : Field) (s : State) => if s.fld f p i = 2 then s else s.setFld f p i v
    gone ISLAND_STATUS_CORE_STATE (gone ISLAND_STATUS_ROUTER_STATE s)) s1
  let s3 := (domPorts p dom idx).foldl (fun s m => s.setFence (20000 + m) v) s2
  if domStack dom then s3.setFld HBM_STAT_STATE p 0 (if v = 3 then 3 else if v = 4 then 2 else 1) else s3

/-- A reset of parcel p's RESET_REQ begins to drain (R639 steps 1 and 2). -/
def State.resetDrain (s : State) (p : Nat) : State :=
  (s.setFld RESET_STAT_STATE p 0 2).markDomain p (s.fld RESET_STAT_DOMAIN p 0) (s.fld RESET_STAT_INDEX p 0) 3

end Sys2Proof.Machine
end

