-- ==== Sys2Proof/Machine/Queue.lean ====
section
/-!
DEFINITION. Queue pairs, completions, admission and the steps of commands (R467 to R493).
-/
namespace Sys2Proof.Machine

/-! ### Queue pairs -/

/-- A queue pair's engine. -/
def State.qp (s : State) (q : Nat) : Qp := Sparse.get {} s.cp.qps q

/-- Replace a queue pair's engine. -/
def State.setQp (s : State) (q : Nat) (x : Qp) : State := { s with cp := { s.cp with qps := Sparse.set {} s.cp.qps q x } }

/-- Add a log record (R465, R472, R486). -/
def State.log (s : State) (page : Nat) (vals : List Nat) : State :=
  { s with cp := { s.cp with logs := s.cp.logs ++ [⟨page, vals⟩] } }

/-- The queue is ENABLED. -/
def State.qOn (s : State) (q : Nat) : Bool := s.fld QP_STAT_STATE q 0 = 1

/-- The effective class of a queue: Keeper queues are Trump, and no other is (R467, R481). -/
def State.qClass (s : State) (q : Nat) : Nat :=
  if s.fld QP_BIND_KEEPER q 0 = 1 then 0 else max 1 (s.fld QP_BIND_CLASS q 0)

/-- Who a queue's accesses are made as (R468, R478). (DEDUCED: notes/assumptions/28.md.) -/
def State.qWho (s : State) (q : Nat) : Who :=
  let plot := s.fld QP_BIND_PLOT q 0
  if s.fld QP_BIND_KEEPER q 0 = 1 then ⟨1, 1, plot, none, none, 0, none⟩
  else ⟨0, s.fld FUNC_BIND_LEVEL (s.fld QP_BIND_FUNC q 0) 0, plot, none, none, Sparse.get 0 s.epochs plot, none⟩

/-- The queue's function has a host link: a PCIe function of a link arrangement that has links (R459). -/
def State.qLinked (s : State) (q : Nat) : Bool := s.fld QP_BIND_KEEPER q 0 = 0 && s.fld STRAP_STAT_HOST_MODE 0 0 ≠ 2

/-- The number of entries of the queue's CQ. -/
def State.cqSize (s : State) (q : Nat) : Nat := 2 ^ s.fld QP_CFG_CQ_LOG2 q 0

/-- The number of entries of the queue's SQ. -/
def State.sqSize (s : State) (q : Nat) : Nat := 2 ^ s.fld QP_CFG_SQ_LOG2 q 0

/-- The local queue n of a function (R467). -/
def State.localQueue (s : State) (f n : Nat) : Option Nat :=
  firstFrom (fun q => s.fld QP_BIND_KEEPER q 0 = 0 && s.fld QP_BIND_FUNC q 0 = f && s.fld QP_BIND_LOCAL q 0 = n) 0 16384

/-! ### Completions (R473 to R476) -/

/-- A host link. -/
def State.link (s : State) (l : Nat) : Link := Sparse.get {} s.cp.links l

/-- Replace a host link. -/
def State.setLink (s : State) (l : Nat) (x : Link) : State := { s with cp := { s.cp with links := Sparse.set {} s.cp.links l x } }

/-- A function. -/
def State.fn (s : State) (f : Nat) : Fn := Sparse.get {} s.cp.fns f

/-- Replace a function. -/
def State.setFn (s : State) (f : Nat) (x : Fn) : State := { s with cp := { s.cp with fns := Sparse.set {} s.cp.fns f x } }

/-- Write n bytes to host memory for a function; a function that uses address translation services has its link's cache hold the
page, 256 at most (R460). (DESIGN CHOICE: notes/assumptions/34.md.) -/
def State.hostWrite (s : State) (f : Nat) (a : Word) (n v : Nat) : State :=
  let l := s.fld FUNC_BIND_LINK f 0
  let x := s.link l
  let page := a.toNat / 4096
  let s1 := if (s.fn f).ats then
      let kept := x.ats.filter (· ≠ page)
      s.setLink l { x with ats := kept.drop (kept.length - 255) ++ [page] }
    else s
  s1.send .pcie [f, 1, a.toNat, n, v]

/-- Word 0 of an entry (R476). -/
def State.entryWord (s : State) (q : Nat) (e : Entry) : Nat :=
  e.status <<< 48 + s.fld QP_STAT_SQ_HEAD q 0 <<< 32 + e.cid <<< 16 + (if (s.qp q).phase then 1 else 0) <<< 15 + e.kind <<< 12

/-- The MSI-X message of a queue, with no entry left unsignalled (R475). (DESIGN CHOICE: notes/assumptions/36.md.) -/
def State.interrupt (s : State) (q : Nat) : State :=
  (s.setQp q { s.qp q with fresh := 0 }).send .msix [s.fld QP_BIND_FUNC q 0, s.fld QP_CFG_VEC q 0]

/-- Count an entry posted toward the queue's interrupt (R475). -/
def State.posted (s : State) (q n : Nat) : State :=
  let x := s.qp q
  let s1 := s.setQp q { x with fresh := x.fresh + n }
  if s.fld QP_CFG_IEN q 0 = 0 || n = 0 then s1
  else if s.fld QP_COAL_COAL_N q 0 ≤ x.fresh + n then s1.interrupt q else s1

/-- Write one entry at the CQ's tail: words 1 to 7, and then word 0 with the phase (R473). Answers the first failing status. -/
def State.writeEntry (s : State) (q : Nat) (e : Entry) : Nat × State :=
  let tail := s.fld QP_STAT_CQ_TAIL q 0
  let a : Word := BitVec.ofNat 64 ((s.fld QP_CQ_BASE_BASE q 0) <<< 12 + 64 * tail)
  let rest := ofWords e.words
  let w0 := s.entryWord q e
  if s.fld QP_CFG_CQ_HOST q 0 = 1 then
    (0, (s.hostWrite (s.fld QP_BIND_FUNC q 0) (a + 8) 56 rest).hostWrite (s.fld QP_BIND_FUNC q 0) a 8 w0)
  else
    let r := s.writeVia (s.qWho q) (addOff a 8) 56 rest 0
    if r.1 ≠ 0 then (r.1, r.2.2)
    else
      let r2 := r.2.2.writeVia (s.qWho q) a 8 w0 0
      (r2.1, r2.2.2)

/-- A DMA channel's SIGNAL POST is acknowledged once its entry is written (R474). -/
def State.dmaAcked (s : State) : Option (Nat × Nat) → State
  | none => s
  | some (u, id) =>
    let d := Sparse.get {} s.dmas u
    { s with dmas := Sparse.set {} s.dmas u { d with outs := d.outs.filter (fun r => r.id ≠ id) } }

/-- Write waiting entries while the CQ has room. Answers whether a write was refused (R472, R474). -/
def State.drainCq (s : State) (q : Nat) : Nat → Bool × State
  | 0 => (false, s)
  | n + 1 =>
    let x := s.qp q
    let tail := s.fld QP_STAT_CQ_TAIL q 0
    let next := (tail + 1) % s.cqSize q
    match x.wait with
    | [] => (false, s)
    | e :: rest =>
      if next = s.fld QP_CQ_HEAD_INDEX q 0 then (false, s)
      else
        let r := s.writeEntry q e
        if r.1 = 0x0201 || r.1 = 0x0203 || r.1 = viaHold then
          (false, r.2.setQp q { r.2.qp q with cqRetry := true })
        else if r.1 ≠ 0 then (true, r.2)
        else
          let y := r.2.qp q
          let s1 := (r.2.dmaAcked e.dma).setQp q { y with
            wait := rest, phase := if next = 0 then !y.phase else y.phase, cqRetry := false }
          ((s1.setFld QP_STAT_CQ_TAIL q 0 next).posted q 1).drainCq q n

/-- The queue enters ERROR; completions that wait are recorded and discarded (R472). -/
def State.qErrorMark (s : State) (q code : Nat) : State :=
  let x := s.qp q
  let s1 := (s.setFld QP_STAT_STATE q 0 2).setFld QP_STAT_ERR q 0 code
  let s2 := s1.setQp q { x with wait := [], sqRetry := false, cqRetry := false }
  x.wait.foldl (fun s e => if e.kind = 0 then s.log 1 ([q, e.cid, e.status] ++ e.words) else s) s2

/-- Local queue 0 of the function is in ERROR (R472). -/
def State.fatal (s : State) (f : Nat) : State := (s.setFld FUNC_STAT_FATAL f 0 1).send .msix [f, 0]

/-- An event entry waits for the CQ, or is folded into the one of its type that waits (R474, R477). (DESIGN CHOICE: notes/assumptions/34.md.) -/
def addEvent (code : Nat) (words : List Nat) : List Entry → Bool × List Entry
  | [] => (false, [⟨0, 0xFFFF, 2, [0, code <<< 48 + 1 <<< 32] ++ words, none⟩])
  | e :: r =>
    if e.kind = 2 && nbits (e.words.getD 1 0) 63 48 = code then
      let n := min 0xFFFF (nbits (e.words.getD 1 0) 47 32 + 1)
      (true, { e with words := [0, code <<< 48 + n <<< 32] ++ e.words.drop 2 } :: r)
    else
      let x := addEvent code words r
      (x.1, e :: x.2)

/-- Queue up an event without writing it. -/
def State.queueEvent (s : State) (q code : Nat) (words : List Nat) : State :=
  let x := s.qp q
  let r := addEvent code words x.wait
  let s1 := s.setQp q { x with wait := r.2 }
  if r.1 && s.fld QP_BIND_KEEPER q 0 = 0 then
    (s1.bump FUNC_STAT_EVLOST (s.fld QP_BIND_FUNC q 0) 0).log 3 [q, code] else s1

/-- More entries than any CQ holds: the fuel of a drain. -/
def cqFuel : Nat := 65537

/-- A queue fails: it enters ERROR, and QUEUE_ERROR goes to local queue 0 of its function, or FATAL is set (R472). -/
def State.qError (s : State) (q code : Nat) : State :=
  let f := s.fld QP_BIND_FUNC q 0
  let s1 := s.qErrorMark q code
  if s.fld QP_BIND_KEEPER q 0 = 1 then s1
  else if s.fld QP_BIND_LOCAL q 0 = 0 then s1.fatal f
  else match s1.localQueue f 0 with
    | none => s1
    | some z =>
      if s1.fld QP_STAT_STATE z 0 = 2 then s1.fatal f
      else if !s1.qOn z then s1
      else
        let r := (s1.queueEvent z 1 [q + code <<< 16]).drainCq z cqFuel
        if r.1 then (r.2.qErrorMark z 3).fatal f else r.2

/-- Write what waits for a CQ; a refused write is ERR 3 (R472). -/
def State.drain (s : State) (q : Nat) : State :=
  let r := s.drainCq q cqFuel
  if r.1 then r.2.qError q 3 else r.2

/-- Post an entry to a queue (R473, R474). A queue that is not ENABLED posts nothing; a completion for a queue in ERROR is
recorded (R472). (DESIGN CHOICE: notes/assumptions/34.md.) -/
def State.postEntry (s : State) (q : Nat) (e : Entry) : State :=
  if s.qOn q then
    let x := s.qp q
    let s1 := s.setQp q { x with wait := x.wait ++ [e] }
    if x.cqRetry then s1 else s1.drain q
  else if e.kind = 0 && s.fld QP_STAT_STATE q 0 = 2 then s.log 1 ([q, e.cid, e.status] ++ e.words)
  else s

/-- Post an event to a queue (R477). -/
def State.postEvent (s : State) (q code : Nat) (words : List Nat) : State :=
  if s.qOn q then
    let s1 := s.queueEvent q code words
    if (s.qp q).cqRetry then s1 else s1.drain q
  else s

/-- Post an event to every enabled queue of a plot (R477). (DEDUCED: notes/assumptions/58.md.) -/
def State.eventToPlot (s : State) (plot code : Nat) (words : List Nat) : State :=
  (s.unitsOf .QP_STAT).foldl (fun s q => if s.fld QP_BIND_PLOT q 0 = plot then s.postEvent q code words else s) s

/-- Post an event to local queue 0 of every function (R477). -/
def State.eventToFunctions (s : State) (code : Nat) (words : List Nat) : State :=
  (s.unitsOf .QP_STAT).foldl (fun s q =>
    if s.fld QP_BIND_KEEPER q 0 = 0 && s.fld QP_BIND_LOCAL q 0 = 0 then s.postEvent q code words else s) s

/-! ### Commands -/

/-- Word i of a command. -/
def Cmd.word (k : Cmd) (i : Nat) : Nat := k.words.getD i 0

/-- The opcode of a command (R476). -/
def Cmd.opc (k : Cmd) : Nat := nbits (k.word 0) 63 56

/-- Word i of the command holds a host bus address. -/
def Cmd.host (k : Cmd) (i : Nat) : Bool := nbit (k.word 0) (47 + i) = 1

/-- The command holds a step slot (R481). -/
def Cmd.inStep (k : Cmd) : Bool := k.phase = .granted || k.phase = .worked

/-- The command is in progress (R482): a LAUNCH is not, once its start steps have ended. -/
def Cmd.inProgress (k : Cmd) : Bool := k.inStep || k.phase = .between

/-- Replace a command. -/
def State.setCmd (s : State) (k : Cmd) : State :=
  { s with cp := { s.cp with cmds := s.cp.cmds.map (fun x => if x.seq = k.seq then k else x) } }

/-- Remove a command. -/
def State.dropCmd (s : State) (k : Cmd) : State :=
  { s with cp := { s.cp with cmds := s.cp.cmds.filter (fun x => x.seq ≠ k.seq) } }

/-- The oldest command of queue q with identifier cid that `p` holds of. -/
def State.cmdAt (s : State) (q cid : Nat) (p : Cmd → Bool) : Option Cmd :=
  s.cp.cmds.find? (fun k => k.q = q && k.cid = cid && p k)

/-- Write a progress record: word 1 before word 0 (R473, R486). A refused write goes to log page 1. `state` is 0 waiting, 1
running, 2 ended. -/
def State.progress (s : State) (k : Cmd) (state : Nat) : State :=
  let a : Word := BitVec.ofNat 64 (k.word 1)
  let w0 := k.done <<< 32 + k.total % 2 ^ 32
  let w1 := k.cid <<< 48 + state <<< 32
  if k.word 1 = 0 then s
  else if k.host 1 then
    (s.hostWrite (s.fld QP_BIND_FUNC k.q 0) (a + 8) 8 w1).hostWrite (s.fld QP_BIND_FUNC k.q 0) a 8 w0
  else
    let r := s.writeVia (s.qWho k.q) (addOff a 8) 8 w1 0
    let r2 := if r.1 = 0 then r.2.2.writeVia (s.qWho k.q) a 8 w0 0 else r
    if r2.1 = 0 then r2.2.2 else r2.2.2.log 1 [k.q, k.cid, r2.1]

/-- The CANCEL commands whose target has completed complete with RESULT0 1 (R487). -/
def State.afterCompletion (s : State) (seq : Nat) : State :=
  (s.cp.cmds.filter (fun k => k.after = some seq)).foldl (fun s k =>
    let s1 := s.dropCmd k
    if k.post then s1.postEntry k.q ⟨0, k.cid, 0, [0, 1], none⟩ else s1) s

/-- The step slots in use, as ADMIT_STAT shows them. -/
def State.countSlots (s : State) : State := s.setFld ADMIT_STAT_SLOTS 0 0 ((s.cp.cmds.filter (·.inStep)).length)

/-- An FLR is in progress while an admitted command of the function is still to end (R465). -/
def State.flrOver (s : State) (f : Nat) : State :=
  if s.fld FUNC_STAT_FLR f 0 = 1 && !(s.cp.cmds.any (fun k => !k.post && s.fld QP_BIND_FUNC k.q 0 = f)) then
    s.setFld FUNC_STAT_FLR f 0 0
  else s

/-! ### RACK and RESTORE at admission and at their end (R677, R678, R686) -/

/-- A full/empty operation on the word at an address, as the command processor makes it: its status. -/
def State.flagOp (s : State) (w : Who) (a : Word) (op v : Nat) (rel : Bool) (scope status : Nat) : Nat × State :=
  match s.reach w a 8 true with
  | .hold _ => (viaHold, s)
  | .refused st s1 => (st, s1)
  | .to (.remote _ _) =>
    (if status ≤ 1 then 0 else status,
      s.send .request [2 ^ 21, w.world, 14, a.toNat, op, v, w.level, w.plot, w.epoch, (if rel then 4 else 0) + scope])
  | .to p =>
    let r := s.memFe p op (BitVec.ofNat 64 v) rel scope none { word := 0, onFull := false, waiter := 0, plot := w.plot, epoch := w.epoch, waitf := false }
    (if r.1.status ≤ 1 then 0 else r.1.status, r.2)

/-- Replace the Keeper's racking state. -/
def State.setRack (s : State) (x : Rack) : State := { s with kp := { s.kp with rack := x } }

/-- RACK or RESTORE. -/
def Cmd.racks (k : Cmd) : Bool := k.opc = 0x38 || k.opc = 0x39

/-- Another RACK or RESTORE of the plot is past admission (R677). -/
def State.rackBusy (s : State) (k : Cmd) : Bool := k.racks && s.kp.rack.jobs.any (fun j => j.plot = k.plot && j.cmd ≠ k.seq)

/-- A RACK or RESTORE is admitted: its plot is BUSY, and it keeps RACK_CFG as it stands (R542, R686). -/
def State.rackAdmit (s : State) (k : Cmd) : State :=
  if !k.racks then s
  else
    let x := s.kp.rack
    let s1 := s.setRack { x with jobs := x.jobs ++ [{ cmd := k.seq, plot := k.plot, cfg := s.reg .RACK_CFG 0 0, area := s.reg .RACK_NVME 0 0 }] }
    if s.fld PLOT_STAT_W0_STATE 0 k.plot = 1 then s1.setFld PLOT_STAT_W0_STATE 0 k.plot 3 else s1

/-- A RACK or RESTORE ends: a RACK whose capture has not completed fills FLAG with 0 (R678). -/
def State.rackEnd (s : State) (k : Cmd) : State :=
  if !k.racks then s
  else
    let s1 := if k.opc = 0x38 && k.notes.isEmpty then (s.flagOp (s.qWho k.q) (BitVec.ofNat 64 (k.word 5)) 3 0 true 2 0).2 else s
    let x := s1.kp.rack
    let mine := x.jobs.any (fun j => j.cmd = k.seq)
    let s2 := s1.setRack { x with jobs := x.jobs.filter (fun j => j.cmd ≠ k.seq) }
    if mine && s2.fld PLOT_STAT_W0_STATE 0 k.plot = 3 && !s2.plotHeld k.plot then s2.setFld PLOT_STAT_W0_STATE 0 k.plot 1 else s2

/-- Complete a command (R476, R483): OK_DELAYED replaces OK after a long wait; a discarded completion is recorded (R465). `retry` is
RETRY_US of a refusal. -/
def State.complete (s : State) (k : Cmd) (status retry : Nat) (more : List Nat) : State :=
  let admitted := k.phase ≠ .atFetch && k.phase ≠ .waiting
  let late := status = 0 && admitted && s.fld ADMIT_CFG_DELAY_THR 0 0 < k.wait
  let s1 := ((s.rackEnd k).dropCmd k).countSlots
  let s2 := if admitted then s1.setFld QP_STAT_ACTIVE k.q 0 (s1.fld QP_STAT_ACTIVE k.q 0 - 1) else s1
  let s3 := if late then s2.bump ADMIT_STAT_DELAYED 0 0 else s2
  let e : Entry := ⟨if late then 1 else status, k.cid, 0,
    [(if admitted then k.wait % 2 ^ 32 else 0) <<< 32 + retry % 2 ^ 32, k.res0, k.res1] ++ more, none⟩
  let s4 := if k.post then s3.postEntry k.q e else s3.log 2 [k.q, k.cid, k.opc, k.done, k.total]
  (s4.flrOver (s.fld QP_BIND_FUNC k.q 0)).afterCompletion k.seq

/-! ### The checks of R480 -/

/-- What the words of an opcode may hold: for each word 2 to 7 the bits that are fields, and the words that name an address that may
be a host address (R478, R479). -/
structure CmdShape where
  masks : List Nat
  addrs : List Nat
  admin : Bool := false
  model : Bool := false

/-- All 64 bits. -/
def m64 : Nat := 2 ^ 64 - 1

/-- The bits [hi:lo]. -/
def mb (hi lo : Nat) : Nat := (2 ^ (hi + 1 - lo) - 1) <<< lo

/-- The commands of TARGET 0 queues (R478). -/
def cmdShape (opc : Nat) : Option CmdShape :=
  match opc with
  | 0x00 => some ⟨[], [], false, false⟩
  | 0x01 => some ⟨[m64], [2], false, false⟩
  | 0x02 => some ⟨[m64, mb 7 0 + mb 47 16], [2], false, false⟩
  | 0x03 => some ⟨[mb 29 0], [], false, false⟩
  | 0x10 => some ⟨[mb 45 32 + mb 13 0, mb 39 32 + mb 24 24 + mb 15 0, m64, m64, mb 31 0], [], false, false⟩
  | 0x11 => some ⟨[m64, m64, mb 2 0 + mb 5 4], [], false, false⟩
  | 0x12 => some ⟨[m64, m64, m64], [2, 3], false, false⟩
  | 0x13 => some ⟨[mb 45 32 + mb 13 0, m64, mb 15 0 + mb 47 32], [3], false, false⟩
  | 0x20 | 0x21 => some ⟨[m64, m64], [], false, false⟩
  | 0x22 => some ⟨[m64, m64, 1], [], false, false⟩
  | 0x28 => some ⟨[m64, m64], [], false, false⟩
  | 0x30 => some ⟨[mb 5 0], [], true, false⟩
  | 0x38 => some ⟨[m64, mb 63 32 + mb 15 0, m64, m64, m64, mb 2 0], [], false, false⟩
  | 0x39 => some ⟨[m64, mb 63 16 + mb 2 0, mb 31 0, m64, m64], [], false, false⟩
  | 0x40 => some ⟨[m64, m64, mb 3 0], [2], true, false⟩
  | 0x41 => some ⟨[mb 1 0], [], true, false⟩
  | 0x42 => some ⟨[mb 10 8 + mb 6 0 + mb 16 16], [], true, false⟩
  | 0x43 => some ⟨[mb 9 0], [], true, false⟩
  | _ => none

/-- The commands of TARGET 1 queues (R571, R575); the model commands are the third kind of R571. -/
def serveShape (opc : Nat) : Option CmdShape :=
  match opc with
  | 0x80 => some ⟨[mb 63 57 + mb 51 0, m64, m64, mb 40 32, m64, m64], [7], false, false⟩
  | 0x81 => some ⟨[mb 15 0], [], false, false⟩
  | 0x88 => some ⟨[m64], [2], false, true⟩
  | 0x89 => some ⟨[m64, mb 3 0], [2], false, true⟩
  | 0x8A => some ⟨[mb 3 0], [], false, true⟩
  | 0x8B => some ⟨[m64, m64, mb 5 0], [], true, false⟩
  | _ => none

/-- The service core of a plot, 0x3FFF where it has none (R502). -/
def State.serviceCore (s : State) (n : Nat) : Nat := (Sparse.get {} s.kp.plots n).service

/-- What an entry of queue q may hold: by its target, with nothing but a few commands in the no-profile state, and nothing on a serving
queue of a plot without a service core (R478, R536, R571). -/
def State.shapeOf (s : State) (q : Nat) (k : Cmd) : Option CmdShape :=
  if s.fld QP_BIND_TARGET q 0 = 1 then
    (if s.serviceCore k.plot = 0x3FFF then none else serveShape k.opc)
  else if s.fld PROFILE_STAT_STATE 0 0 = 2 && !([0x00, 0x01, 0x02, 0x40, 0x41].contains k.opc) then none
  else cmdShape k.opc

/-- Every core of a range is bound to a plot (R479). -/
def State.coresBound (s : State) (l0 n plot : Nat) : Bool :=
  (List.range n).all (fun i =>
    let c := s.physOf (l0 + i)
    s.fld CTX_BIND_BOUND c 0 = 1 && s.fld CTX_BIND_PLOT c 0 = plot)

/-- A logical core window's offset (R42). -/
def inLogicalWindow (off : Nat) : Bool := 0x1000000000 ≤ off && off < 0x1A00000000

/-- An address names a word of a scratch or a cellar, in a core's window (R43). -/
def namesBankWord (a : Nat) : Bool :=
  let off := a % 2 ^ 48
  inCoreWindow off && a % 8 = 0 && (off % 2 ^ 22 < 0x40000 || (0x100000 ≤ off % 2 ^ 22 && off % 2 ^ 22 < 0x300000))

/-- An address, alignment, length or count of a command is out of range (R478, R479; detail 0x05). (DESIGN CHOICE: notes/assumptions/31.md.) -/
def Cmd.badRange (k : Cmd) : Bool :=
  let w := k.word
  match k.opc with
  | 0x02 => nbits (w 3) 7 0 = 0 || 3 < nbits (w 3) 7 0
  | 0x10 =>
    let n := nbits (w 2) 45 32
    n = 0 || 10240 < n || 10240 < nbits (w 2) 13 0 + n || nbits (w 3) 15 0 % 4 ≠ 0 || 0xC000 ≤ nbits (w 3) 15 0
  | 0x11 => nbits (w 4) 1 0 = 3 || (nbits (w 4) 1 0 ≠ 2 && w 2 % 8 ≠ 0) || (nbits (w 4) 1 0 = 2 && 255 < w 3)
  | 0x12 => w 4 = 0 || 2 ^ 40 < w 4
  | 0x13 =>
    let n := nbits (w 2) 45 32
    let words := nbits (w 4) 47 32
    n = 0 || 10240 < n || 10240 < nbits (w 2) 13 0 + n || words = 0 || 0xC000 < nbits (w 4) 15 0 * 8 + words * 8
  | 0x20 | 0x21 | 0x22 | 0x28 => w 2 % 2 ^ 21 ≠ 0 || w 3 % 2 ^ 21 ≠ 0 || w 3 = 0
  | 0x38 => nbits (w 3) 15 0 = 0 || 4096 < nbits (w 3) 15 0 || !namesBankWord (w 5) || w 6 % 2 ^ 21 ≠ 0 || !inHbmWindow (w 6 % 2 ^ 48)
  | 0x39 => nbits (w 3) 31 16 = 0 || 4096 < nbits (w 3) 31 16 || nbits (w 3) 2 0 = 0 || 3 < nbits (w 3) 2 0 || w 5 % 8 ≠ 0 || w 6 % 2 ^ 21 ≠ 0 || !inHbmWindow (w 6 % 2 ^ 48)
  | 0x40 => w 3 = 0
  | 0x89 => 7 < w 3
  | 0x8A => 7 < w 2
  | _ => false

/-- A pool command names an address outside its plot's pool range, or in another module (R267, R478). -/
def State.poolRange (s : State) (k : Cmd) : Bool :=
  let b := Sparse.get {} s.kp.plots k.plot
  let a := k.word 2 % 2 ^ 48
  let v := b.vbase * 2 ^ 21
  let mid := k.word 2 >>> 48
  if k.opc = 0x20 || k.opc = 0x21 || k.opc = 0x22 then
    !(mid = 0xFFFF || mid = s.fld MODULE_ID_ID 0 0) || a < v || v + (b.pooln + b.spill) * 2 ^ 21 < a + k.word 3
  else false

/-- The detail of an entry that fails its checks, the lowest that applies (R480). (DESIGN CHOICE: notes/assumptions/29.md.) -/
def State.cmdDetail (s : State) (k : Cmd) : Option Nat :=
  let q := k.q
  match s.shapeOf q k with
  | none => some 1
  | some sh =>
    let f := s.fld QP_BIND_FUNC q 0
    let n0 := nbits (k.word 2) 13 0
    let n := nbits (k.word 2) 45 32
    let service := s.serviceCore k.plot
    let admin := s.fld QP_BIND_KEEPER q 0 = 1 || s.fld FUNC_BIND_ADMIN f 0 = 1
    let stray := k.word 0 % 2 ^ 16 ≠ 0
      || (List.range 6).any (fun i => k.word (i + 2) % 2 ^ 64 &&& (m64 - sh.masks.getD i 0) ≠ 0)
    let hosts := (List.range 7).filter (fun i => k.host (i + 1))
    let badHost := (!hosts.isEmpty && !s.qLinked q)
      || hosts.any (fun i => !(i = 0 || sh.addrs.contains (i + 1)))
      || (k.opc = 0x12 && k.host 2 && k.host 3)
    if stray then some 2
    else if (sh.admin && !admin) || (sh.model && !admin && s.fld FUNC_BIND_LEVEL f 0 = 0) then some 3
    else if badHost then some 4
    else if k.badRange || s.poolRange k then some 5
    else if (k.opc = 0x10 || k.opc = 0x13) && (!s.coresBound n0 n k.plot || (n0 ≤ service && service < n0 + n)) then some 6
    else none

/-- The steps of a command as far as its words give them; 0 is not known (R479, R486, R488). -/
def Cmd.steps (k : Cmd) : Nat :=
  let up := fun (a b : Nat) => (a + b - 1) / b
  match k.opc with
  | 0x10 => up (nbits (k.word 2) 45 32) 1024
  | 0x12 => up (k.word 4) (4 * 2 ^ 20)
  | 0x13 => up (nbits (k.word 4) 47 32 * 8) (16 * 2 ^ 10)
  | 0x20 | 0x21 | 0x22 => up (k.word 3) (16 * 2 ^ 21)
  | 0x28 => 2 * up (k.word 3) (32 * 2 ^ 21)
  | 0x01 | 0x02 | 0x11 => 1
  | 0x43 => ((List.range 8).filter (fun p => nbit (k.word 2) p = 1)).length * (nbit (k.word 2) 8 * 92 + nbit (k.word 2) 9 * 1072)
  | _ => 0

/-! ### Admission (R471, R481 to R484) -/

/-- The mean wait of a class over the last millisecond (R483); with no admission in it the spec gives no value. -/
def State.meanWait (s : State) (cls now : Nat) : Nat × State :=
  let l := s.cp.waits.filter (fun x => x.2.1 = cls && now < x.1 + 1000)
  if l.isEmpty then s.free else (l.foldl (fun a x => a + x.2.2) 0 / l.length, s)

/-- The retry hint of REFUSED_QUOTA (R483): 50 µs for each remaining step of the plot's Lead command nearest completion.
(DESIGN CHOICE: notes/assumptions/34.md.) -/
def State.quotaHint (s : State) (plot : Nat) : Nat × State :=
  let l := (s.cp.cmds.filter (fun k => k.inProgress && k.cls = 1 && k.plot = plot && k.total ≠ 0)).map (fun k => k.total - k.done)
  match l.min? with
  | some n => (50 * n, s)
  | none => s.free

/-- Refuse a command for capacity (R482). -/
def State.refuseBusy (s : State) (k : Cmd) (now : Nat) : State :=
  let r := s.meanWait k.cls now
  (r.2.bump ADMIT_STAT_REF_BUSY 0 0).complete k 0x0102 r.1 []

/-- The Lead commands of a plot that are in progress. -/
def State.leadUsed (s : State) (plot : Nat) : Nat :=
  (s.cp.cmds.filter (fun k => k.inProgress && k.cls = 1 && k.plot = plot)).length

/-- Take a fetched entry in (R471, R480, R482). -/
def State.intake (s : State) (q now : Nat) (v : Vec) : State :=
  let words := (List.range 8).map (fun i => wordAt v.toNat i)
  let k0 : Cmd := { seq := s.cp.nextSeq, q := q, cid := nbits (words.getD 0 0) 31 16, words := words, cls := s.qClass q,
                    plot := s.fld QP_BIND_PLOT q 0, phase := .waiting, fetched := now }
  let k := { k0 with total := k0.steps }
  let s1 := { s with cp := { s.cp with nextSeq := s.cp.nextSeq + 1 } }
  let add := fun (k : Cmd) (s : State) => { s with cp := { s.cp with cmds := s.cp.cmds ++ [k] } }
  match s.cmdDetail k with
  | some d => s1.complete { k with res0 := d } 0x0105 0 []
  | none =>
    if k.opc = 0x00 || k.opc = 0x03 || s.fld QP_BIND_TARGET q 0 = 1 then add { k with phase := .atFetch } s1
    else if k.cls = 1 && s.fld ADMIT_PLOT_n_LEAD_CMDS 0 k.plot ≤ s.leadUsed k.plot then
      let r := s1.quotaHint k.plot
      (r.2.bump ADMIT_STAT_REF_QUOTA 0 0).complete k 0x0103 r.1 []
    else if k.cls = 3 && s.fld ADMIT_CFG_PASS_Q 0 0
        ≤ (s.cp.cmds.filter (fun x => x.phase = .waiting && x.cls = 3)).length then s1.refuseBusy k now
    else (add k s1).progress k 0

/-- A command that its SQ's order lets be admitted (R471); of a plot's RACKs and RESTOREs one at a time, in fetch order (R677). -/
def State.mayStart (s : State) (k : Cmd) : Bool :=
  let before := s.cp.cmds.filter (fun x => x.q = k.q && x.seq < k.seq)
  !(before.any (fun x => x.phase = .waiting))
    && (nbit (k.word 0) 55 = 0 || before.isEmpty)
    && (k.cls ≠ 1 || s.leadUsed k.plot < s.fld ADMIT_PLOT_n_LEAD_CMDS 0 k.plot)
    && !s.rackBusy k
    && !(k.racks && s.cp.cmds.any (fun x => x.racks && x.plot = k.plot && x.phase = .waiting && x.seq < k.seq))

/-- A command waits for a step and may have it; those of a held suspect may not (R652), nor may one of a queue that drains be admitted (R646).
(DESIGN CHOICE: notes/assumptions/34.md.) -/
def State.cmdReady (s : State) (k : Cmd) : Bool :=
  (k.phase = .between || (k.phase = .waiting && s.mayStart k && s.fld QP_STAT_STATE k.q 0 ≠ 3)) && !(s.fld QP_BIND_KEEPER k.q 0 = 0 && s.plotHeld k.plot)

/-- The oldest command of a class that waits for a step. -/
def State.nextOf (s : State) (cls : Nat) : Option Cmd := s.cp.cmds.find? (fun k => k.cls = cls && s.cmdReady k)

/-- The first command that waits among the classes in the order given. -/
def State.firstOf (s : State) : List Nat → Option Cmd
  | [] => none
  | c :: r => match s.nextOf c with
    | some k => some k
    | none => s.firstOf r

/-- The command that R481 grants the next slot to, and whether the frame of 16 grants moves on. -/
def State.nextStep (s : State) : Option (Cmd × Bool) :=
  let used := (s.cp.cmds.filter (·.inStep)).length
  let plain := (s.cp.cmds.filter (fun k => k.inStep && k.cls ≠ 0)).length
  let lead := s.cp.cmds.find? (fun k => k.cls = 1 && s.cmdReady k
    && (s.cp.cmds.filter (fun x => x.inStep && x.cls = 1 && x.plot = k.plot)).length < s.fld ADMIT_PLOT_n_LEAD_CMDS 0 k.plot)
  let l := s.fld ADMIT_CFG_LEAD_W 0 0
  let f := s.fld ADMIT_CFG_FOLLOW_W 0 0
  let order := if s.cp.frame < l then [1, 2, 3] else if s.cp.frame < l + f then [2, 3, 1] else [3, 1, 2]
  if 16 ≤ used then none
  else match s.nextOf 0 with
    | some k => some (k, false)
    | none =>
      if 14 ≤ plain then none
      else match lead with
        | some k => some (k, false)
        | none => (s.firstOf order).map (fun k => (k, true))

/-- The physical cores of a LAUNCH, with their logical numbers. -/
def State.launchCores (s : State) (k : Cmd) : List (Nat × Nat) :=
  (List.range (nbits (k.word 2) 45 32)).map (fun i => (nbits (k.word 2) 13 0 + i, s.physOf (nbits (k.word 2) 13 0 + i)))

/-- The exit code that a core's kernel threads left: 0, or a non-zero one; with several the spec does not say which (R479).
(DESIGN CHOICE: notes/assumptions/24.md.) -/
def State.exitCode (s : State) (c : Nat) : Nat × State :=
  let l := (s.core c).kcodes
  match l with
  | [] => (0, s)
  | [x] => (x, s)
  | _ => let f := s.free; (l.getD (f.1 % l.length) 0, f.2)

/-- Stop the threads of a core that its kernel still runs, as TSTOP does (R479): a thread that waits stops when its wait ends. -/
def State.stopKernel (s : State) (c : Nat) : State :=
  (List.range 8).foldl (fun s t =>
    let h := s.thr c t
    if nbit (s.fld KSTAT_RUN c 0) t = 0 then s
    else match h.st with
      | .stopped | .suspended => s
      | .ready | .sleeping => s.suspend c t
      | _ => s.setThr c t { h with stopReq := true }) s

/-- End the kernel of a core whose stopped threads have all stopped (R357, R479). -/
def State.settleKernel (s : State) (c : Nat) : State :=
  let run := (List.range 8).filter (fun t => nbit (s.fld KSTAT_RUN c 0) t = 1)
  if s.fld KSTAT_ACTIVE c 0 = 1 && !run.isEmpty && run.all (fun t => (s.thr c t).st = .suspended || (s.thr c t).st = .stopped) then
    (s.setFld KSTAT_RUN c 0 0).kernelEnd c
  else s

/-- A LAUNCH past its start steps: once every core has reported its end, it completes (R357, R479). A launch that is being stopped
ends its kernels first. -/
def State.launchEnd (s : State) (k : Cmd) : State :=
  let cores := s.launchCores k
  let s1 := if k.code ≠ 0 then cores.foldl (fun s p => s.settleKernel p.2) s else s
  if cores.any (fun p => s1.fld KSTAT_ACTIVE p.2 0 = 1) then s1
  else
    let bad := cores.filter (fun p => !(s1.core p.2).kcodes.isEmpty)
    let lost := cores.any (fun p => (s1.core p.2).wbLost)
    let r := match bad.head? with
      | some p => let e := s1.exitCode p.2; (p.1 <<< 32 + e.1, e.2)
      | none => (0, s1)
    let code := if k.code ≠ 0 then k.code else if lost then 0x0108 else 0
    r.2.complete { k with res0 := bad.length, res1 := r.1 } code 0 []

/-- Stop a LAUNCH whose kernels run, to complete with `code`; one whose kernels have all ended ends normally (R479, R487, R489). -/
def State.stopLaunch (s : State) (k : Cmd) (code : Nat) : State :=
  let cores := s.launchCores k
  if cores.all (fun p => s.fld KSTAT_ACTIVE p.2 0 = 0) then s.launchEnd k
  else
    let k1 := { k with code := code }
    (cores.foldl (fun s p => s.stopKernel p.2) (s.setCmd k1)).launchEnd k1

/-! ### Doorbells and control -/

/-- The module offset of a register of a queue page (R46). -/
def qpOff (q off : Nat) : Nat := 0x20020000000 + q * 0x1000 + off

/-- A write of a queue register: by an agent in module space, or by the host through BAR2 or BAR0 of the queue's function, where
a queue at or above QCOUNT is not reached (R462). -/
def State.qpWrite (s : State) (ag : Option Agent) (q off len : Nat) (f : State → State) : State :=
  match ag with
  | some a => s.regWrite a (qpOff q off) len f
  | none =>
    if s.fld QP_BIND_KEEPER q 0 = 1 || s.fld FUNC_BIND_QCOUNT (s.fld QP_BIND_FUNC q 0) 0 ≤ s.fld QP_BIND_LOCAL q 0
        || !s.qLinked q then s
    else f s

/-- SQ_TAIL_DOORBELL (R469, R475, R489). -/
def execSqTailDoorbell (ag : Option Agent) (q : Fin 16384) (v : BitVec 16) (s : State) : Res :=
  .next (s.qpWrite ag q 0x40 4 (fun s =>
    if v.toNat = s.fld QP_SQ_TAIL_INDEX q 0 then s
    else if !s.qOn q then s.setFld QP_SQ_TAIL_INDEX q 0 v.toNat
    else if s.sqSize q ≤ v.toNat then s.qError q 1
    else
      let s1 := s.setFld QP_SQ_TAIL_INDEX q 0 v.toNat
      if s.fld QP_BIND_TARGET q 0 = 2 then s1.setLine (s.physOf (s.fld QP_BIND_CORE q 0)) 5 else s1))

/-- CQ_HEAD_DOORBELL (R469, R474). -/
def execCqHeadDoorbell (ag : Option Agent) (q : Fin 16384) (v : BitVec 16) (s : State) : Res :=
  let n := s.cqSize q
  let head := s.fld QP_CQ_HEAD_INDEX q 0
  .next (s.qpWrite ag q 0x48 4 (fun s =>
    if v.toNat = head then s
    else if !s.qOn q then s.setFld QP_CQ_HEAD_INDEX q 0 v.toNat
    else if n ≤ v.toNat || (s.fld QP_STAT_CQ_TAIL q 0 + n - head) % n < (v.toNat + n - head) % n then s.qError q 1
    else
      let s1 := s.setFld QP_CQ_HEAD_INDEX q 0 v.toNat
      if (s.qp q).cqRetry then s1 else s1.drain q))

/-- A QP_CFG value that may be enabled (R468). -/
def State.cfgOk (s : State) (q : Nat) (v : Word) : Bool :=
  let sl := bitsOf v 27 23
  let cl := bitsOf v 22 18
  let sq := (s.fld QP_SQ_BASE_BASE q 0) <<< 12
  let cq := (s.fld QP_CQ_BASE_BASE q 0) <<< 12
  let host := bitsOf v 30 30 = 1 || bitsOf v 29 29 = 1
  let target := s.fld QP_BIND_TARGET q 0
  4 ≤ sl && sl ≤ 16 && 4 ≤ cl && cl ≤ 16 && cq % (64 * 2 ^ cl) = 0 && (target = 3 || sq % (64 * 2 ^ sl) = 0)
    && !(host && (target = 2 || !s.qLinked q))

/-- A queue returns to DISABLED: what waits for admission is dropped, and its admitted commands end as cancelled at their next step
boundary (R465, R492). `post` says whether they still post completions. (DESIGN CHOICE: notes/assumptions/34.md.)
(DESIGN CHOICE: notes/assumptions/36.md.) -/
def State.disableQueue (s : State) (q : Nat) (post : Bool) : State :=
  let s1 := ((s.setFld QP_STAT_STATE q 0 0).setFld QP_STAT_ERR q 0 0).setFld QP_CFG_EN q 0 0
  let srv := s1.kp.srv
  let reqs := srv.reqs.map (fun r => if r.q = q then { r with stop := true } else r)
  let s2 := { s1.setQp q {} with kp := { s1.kp with srv := { srv with reqs := reqs } } }
  let mine := s2.cp.cmds.filter (fun k => k.q = q)
  mine.foldl (fun s k =>
    let k1 := { k with post := k.post && post }
    if k.phase = .atFetch then s.dropCmd k
    else if k.phase = .waiting then (if post then s.complete k1 0x0104 0 [] else (s.rackEnd k).dropCmd k)
    else if k.phase = .between then s.complete k1 0x0104 0 []
    else if k.phase = .launched && k.opc = 0x10 then (if post then s.stopLaunch k1 0x0104 else s.setCmd k1)
    else if k.phase = .launched && k.opc = 0x39 then s.complete k1 0x0104 0 []
    else s.setCmd { k1 with cancelled := true }) s2

/-- QP_ENABLE: a write of QP_CFG. One with EN = 1 enables the queue (R468); one with EN = 0 disables it, or sets the fields of a queue that is
disabled (R492). (DESIGN CHOICE: notes/assumptions/34.md.) -/
def execQpEnable (ag : Option Agent) (q : Fin 16384) (v : Word) (s : State) : Res :=
  .next (s.qpWrite ag q 0x08 4 (fun s =>
      if bitsOf v 31 31 = 0 then
        (if s.fld QP_CFG_EN q 0 = 1 then s.disableQueue q true
         else s.setReg .QP_CFG q 0 (RegName.written .QP_CFG true 31 0 (s.reg .QP_CFG q 0) v))
      else if s.fld QP_CFG_EN q 0 = 1 then s
      else if !s.cfgOk q v then s.setFld QP_STAT_ERR q 0 5
      else
        let s1 := s.setReg .QP_CFG q 0 (RegName.written .QP_CFG true 31 0 (s.reg .QP_CFG q 0) v)
        let s2 := ((s1.setFld QP_STAT_SQ_HEAD q 0 0).setFld QP_STAT_CQ_TAIL q 0 0).setFld QP_STAT_ERR q 0 0
        let s3 := ((s2.setFld QP_SQ_TAIL_INDEX q 0 0).setFld QP_CQ_HEAD_INDEX q 0 0).setFld QP_STAT_STATE q 0 1
        s3.setQp q {}))

/-- QP_RESET: a write of QP_CTL.RESET (R472, R489, R492). -/
def execQpReset (ag : Option Agent) (q : Fin 16384) (s : State) : Res :=
  .next (s.qpWrite ag q 0x58 4 (fun s => s.disableQueue q true))

/-- CQ_POST: the bound core of a target-2 queue, or the Keeper, publishes the CQ's new tail (R473, R475, R492).
(DESIGN CHOICE: notes/assumptions/34.md.) -/
def execCqPost (ag : Agent) (q : Fin 16384) (v : BitVec 16) (s : State) : Res :=
  let bound := s.fld QP_BIND_TARGET q 0 = 2
    && (ag.core.map (fun c => c.val)) = some (s.physOf (s.fld QP_BIND_CORE q 0)) && ag.thread.isSome
  .next (if !bound && !ag.keeper then s.reply 0 0x0402 0
    else
      let n := s.cqSize q
      let tail := s.fld QP_STAT_CQ_TAIL q 0
      let s1 := s.setFld QP_CQ_POST_INDEX q 0 v.toNat
      (if !s.qOn q || n ≤ v.toNat then s1
       else (s1.setFld QP_STAT_CQ_TAIL q 0 v.toNat).posted q ((v.toNat + n - tail) % n)).reply 0 0 0)

/-- MSIX_COAL_TIMER: COAL_T µs have passed since the first entry not yet signalled (R475). -/
def execMsixCoalTimer (q : Fin 16384) (s : State) : Res :=
  .next (if s.fld QP_CFG_IEN q 0 = 1 && s.fld QP_COAL_COAL_T q 0 ≠ 0 && (s.qp q).fresh ≠ 0 then s.interrupt q else s)

/-! ### Fetch, grants and step ends -/

/-- Fetch n entries in ring order; `far` is what host memory or another module answers, with `status` (R471, R472). -/
def State.fetch (s : State) (q now status : Nat) : List Vec → Nat → State
  | _, 0 => s
  | far, n + 1 =>
    let head := s.fld QP_STAT_SQ_HEAD q 0
    if head = s.fld QP_SQ_TAIL_INDEX q 0 || !s.qOn q then s
    else
      let a : Word := BitVec.ofNat 64 ((s.fld QP_SQ_BASE_BASE q 0) <<< 12 + 64 * head)
      let given := (far.headD 0).toNat
      let r := if s.fld QP_CFG_SQ_HOST q 0 = 1 then ((if status ≤ 1 then 0 else status), given, s)
        else s.readVia (s.qWho q) a 64 status given
      if r.1 = 0x0201 || r.1 = 0x0203 || r.1 = viaHold then r.2.2.setQp q { r.2.2.qp q with sqRetry := true }
      else if r.1 ≠ 0 then r.2.2.qError q 2
      else
        let s1 := r.2.2.setFld QP_STAT_SQ_HEAD q 0 ((head + 1) % s.sqSize q)
        (s1.intake q now (BitVec.ofNat 512 r.2.1)).fetch q now status far.tail n

/-- A block of up to 8 entries is fetched from a queue that the module serves, unless its plot is held (R467, R471, R652). -/
def State.fetchBlock (s : State) (q now n status : Nat) (far : List Vec) : State :=
  let inLoop := s.qLinked q && (s.link (s.fld FUNC_BIND_LINK (s.fld QP_BIND_FUNC q 0) 0)).loop
  let held := s.fld QP_BIND_KEEPER q 0 = 0 && s.plotHeld (s.fld QP_BIND_PLOT q 0)
  if !s.qOn q || 2 ≤ s.fld QP_BIND_TARGET q 0 || inLoop || held then s else s.fetch q now status far (min n 8)

/-- SQ_FETCH: the queue engine fetches a block of n entries at time `now`, in µs (R471). -/
def execSqFetch (q : Fin 16384) (now : Nat) (n : Fin 9) (status : Status) (far : List Vec) (s : State) : Res :=
  .next (if (s.qp q).sqRetry then s else s.fetchBlock q now n status.toNat far)

/-- RING_ACCESS_RETRY: a ring access answered FENCED or ASLEEP_RETRY is repeated (R472). -/
def execRingAccessRetry (q : Fin 16384) (now : Nat) (n : Fin 9) (status : Status) (far : List Vec) (s : State) : Res :=
  let x := s.qp q
  let s1 := if x.cqRetry then (s.setQp q { x with cqRetry := false }).drain q else s
  .next (if x.sqRetry then (s1.setQp q { s1.qp q with sqRetry := false }).fetchBlock q now n status.toNat far else s1)

/-- STEP_GRANT: the command that R481 names takes a slot for its next step, at time `now` in µs; its first grant admits it (R482). -/
def execStepGrant (now : Nat) (s : State) : Res :=
  .next (match s.nextStep with
    | none => s
    | some (k, move) =>
      let s0 := if move then { s with cp := { s.cp with frame := (s.cp.frame + 1) % 16 } } else s
      if k.phase = .waiting then
        let w := now - k.fetched
        let k1 := { k with phase := .granted, wait := w }
        let s1 := (s0.setCmd k1).bump QP_STAT_ACTIVE k.q 0
        let s2 := { s1 with cp := { s1.cp with
          waits := (s1.cp.waits.filter fun x : Nat × Nat × Nat => now < x.1 + 1000) ++ [(now, k.cls, w)] } }
        (s2.countSlots.rackAdmit k1).progress k1 1
      else (s0.setCmd { k with phase := .granted }).countSlots)

/-- RESULT1 counts steps for these opcodes (R478). -/
def stepsInResult (opc : Nat) : Bool := opc = 0x12 || opc = 0x13 || opc = 0x28 || opc = 0x40 || opc = 0x41

/-- A plot has a core or a channel in a domain, or pages of its stack. -/
def State.plotIn (s : State) (n p dom idx : Nat) : Bool :=
  (s.unitsOf .CTX_BIND).any (fun c =>
      s.fld CTX_BIND_BOUND c 0 = 1 && s.fld CTX_BIND_PLOT c 0 = n && (domCores p dom idx).contains c)
    || (dom = 3 && (List.range 32).any (fun i => s.fld DMA_BIND_BOUND (32 * p + i) 0 = 1 && s.fld DMA_BIND_PLOT (32 * p + i) 0 = n))
    || (domStack dom && (List.range 64).any (fun g => s.fld TU_GRANT_g_EN n g = 1 && s.fld TU_GRANT_g_STACK n g = p))

/-- A command acts on resources in a domain (R488, R638): its plot has some there; a self-test or a scrub names the parcel; a LOAD_IMAGE
re-binds a plot that has. -/
def State.touches (s : State) (k : Cmd) (p dom idx : Nat) : Bool :=
  if k.opc = 0x42 then nbits (k.word 2) 10 8 = p
  else if k.opc = 0x43 then nbit (k.word 2) p = 1
  else s.plotIn k.plot p dom idx || s.kp.img.rebinds.any (fun x => x.cmd = k.seq && s.plotIn x.plot p dom idx)

/-- Resets that wait for a step (R638) begin to drain once no step acts on their domain. -/
def State.resetSteps (s : State) : State :=
  (List.range 8).foldl (fun s p =>
    if s.fld RESET_STAT_STATE p 0 = 1
        && !(s.cp.cmds.any (fun k => k.inStep && s.touches k p (s.fld RESET_STAT_DOMAIN p 0) (s.fld RESET_STAT_INDEX p 0))) then
      s.resetDrain p
    else s) s

/-- STEP_END: the step's work is acknowledged; its slot is released, progress written, and the command goes on, ends, or is ended
(R485 to R489). On a LAUNCH past its start steps: every core has reported, and it completes. -/
def execStepEnd (q : Fin 16384) (cid : BitVec 16) (s : State) : Res :=
  .next (match s.cmdAt q cid.toNat (fun k => k.phase = .worked) with
    | some k => State.resetSteps (
      let last := k.done + 1 = k.total
      let k0 := { k with done := k.done + 1, phase := .between }
      let k1 := if stepsInResult k.opc then { k0 with res1 := k0.done } else k0
      let s1 := (s.setCmd k1).countSlots
      let finish := fun (code : Nat) => (s1.progress k1 2).complete k1 code 0 (if k.opc = 0x40 || k.opc = 0x41 || k.racks then k.notes else [])
      if k.aborted then finish 0x0106
      else if k.code ≠ 0 then finish k.code
      else if k.cancelled && !last then finish 0x0104
      else if last then
        (if k.opc = 0x10 then (s1.progress k1 1).setCmd { k1 with phase := .launched } else finish 0)
      else s1.progress k1 1)
    | none => match s.cmdAt q cid.toNat (fun k => k.phase = .launched && k.opc = 0x10) with
      | some k => s.launchEnd k
      | none => s)

/-- ADMIT_TIMEOUT: a command has waited for admission until `now`, past its class limit or its MAXWAIT (R482). -/
def execAdmitTimeout (q : Fin 16384) (cid : BitVec 16) (now : Nat) (s : State) : Res :=
  .next (match s.cmdAt q cid.toNat (fun k => k.phase = .waiting) with
    | none => s
    | some k =>
      let w := now - k.fetched
      let mine := nbits (k.word 0) 47 32
      if (k.cls = 2 && s.fld ADMIT_CFG_FOLLOW_WAIT 0 0 ≤ w) || (k.cls = 3 && s.fld ADMIT_CFG_PASS_WAIT 0 0 ≤ w)
          || (mine ≠ 0 && mine ≤ w) then s.refuseBusy k now
      else s)

/-! ### Admission registers (R493) -/

/-- ADMIT_CFG_WRITE. -/
def execAdmitCfgWrite (ag : Agent) (v : Word) (s : State) : Res :=
  .next (if !ag.keeper then s.reply 0 0x0402 0
    else
      let w := bitsOf v 11 8 + bitsOf v 7 4 + bitsOf v 3 0
      let bad := w ≠ 16 || bitsOf v 11 8 = 0 || bitsOf v 7 4 = 0 || bitsOf v 3 0 = 0
      let new := RegName.written .ADMIT_CFG true 63 0 (s.reg .ADMIT_CFG 0 0) v
      let s1 := s.setReg .ADMIT_CFG 0 0 new
      (if bad then ((s1.setFld ADMIT_CFG_LEAD_W 0 0 (s.fld ADMIT_CFG_LEAD_W 0 0)).setFld ADMIT_CFG_FOLLOW_W 0 0
        (s.fld ADMIT_CFG_FOLLOW_W 0 0)).setFld ADMIT_CFG_PASS_W 0 0 (s.fld ADMIT_CFG_PASS_W 0 0) else s1).reply 0 0 0)

/-- ADMIT_PLOT_WRITE: LEAD_CMDS summed over all plots stays at 14 or below. -/
def execAdmitPlotWrite (ag : Agent) (n : Fin 64) (v : Word) (s : State) : Res :=
  .next (if !ag.keeper then s.reply 0 0x0402 0
    else
      let others := (List.range 64).foldl (fun a i => if i = n.val then a else a + s.fld ADMIT_PLOT_n_LEAD_CMDS 0 i) 0
      let new := bitsOf v 3 0
      (if 14 < others + new then s else s.setFld ADMIT_PLOT_n_LEAD_CMDS 0 n new).reply 0 0 0)

end Sys2Proof.Machine
end

