-- ==== Sys2Proof/Machine/HostIf.lean ====
section
/-!
DEFINITION. The PCIe links and functions: the BAR4 window, function level resets, link state and configuration requests (R459 to R466,
R728, R758).
-/
namespace Sys2Proof.Machine

/-! ### The window (R463) -/

/-- Who a function's window accesses are made as. -/
def State.fnWho (s : State) (f : Nat) : Who :=
  let plot := s.fld FUNC_BIND_PLOT f 0
  ⟨0, s.fld FUNC_BIND_LEVEL f 0, plot, none, none, Sparse.get 0 s.epochs plot, none⟩

/-- The fabric address of offset o of a function's window: BASE with the bits below the window's size taken as zero (R491). -/
def State.winAddr (s : State) (f o : Nat) : Word :=
  let base := s.fld FUNC_WIN_BASE f 0 <<< 30
  let size := 2 ^ (s.fn f).bar4
  addOff (BitVec.ofNat 64 (base - base % size)) o

/-- Some block of a window access lies in MMR space, in this or another module. -/
def State.winMmr (s : State) (w : Who) (a : Word) (n : Nat) (write : Bool) : Bool :=
  (blocksOf a n).any (fun b => match s.translate w (addOff a b.1) write with
    | .to (.remote _ off) => (s.localPlace off).isMmr
    | .to p => p.isMmr
    | _ => false)

/-- The function's link is up. -/
def State.fnUp (s : State) (f : Nat) : Bool := s.fld FUNC_STAT_LINK_UP f 0 = 1

/-- Answer a window read (R463): 0 completed, 1 Completer Abort, 2 poisoned. -/
def State.winAnswer (s : State) (f code v : Nat) : State := s.send .pcie [f, 2, code, v]

/-- While the ROM waits for a bundle of the host, BAR4 of function 0 holds the 32 MiB recovery buffer (R714). -/
def State.inRecovery (s : State) (f o n : Nat) : Bool := f = 0 && s.fnUp f && o + n ≤ 32 * 2 ^ 20

/-- n bytes of the recovery buffer. -/
def State.recoveryRead (s : State) (o n : Nat) : Nat :=
  (List.range n).foldr (fun i a => a * 256 + Sparse.get 0 s.kp.firm.buffer (o + i)) 0

/-- Write n bytes of the recovery buffer. -/
def State.recoveryWrite (s : State) (o n v : Nat) : State :=
  let b := (List.range n).foldl (fun m i => Sparse.set 0 m (o + i) (v / 256 ^ i % 256)) s.kp.firm.buffer
  { s with kp := { s.kp with firm := { s.kp.firm with buffer := b } } }

/-- BAR4_READ of n bytes at offset o; `far` is another module's answer, none while it has not come. A read that gets no answer waits
(R463). -/
def execBar4Read (f : Fin 64) (o : BitVec 36) (n : Fin 4097) (far : Option (Status × BitVec 32768)) (s : State) : Res :=
  let w := s.fnWho f
  let a := s.winAddr f o.toNat
  let x := s.fn f
  let key := (o.toNat, n.val)
  .next (if s.kp.firm.recovery = 2 then (if s.inRecovery f o.toNat n then s.winAnswer f 0 (s.recoveryRead o.toNat n) else s)
    else if !s.fnUp f || 2 ^ x.bar4 < o.toNat + n then s
    else
      let r := if s.winMmr w a n false then (0x0402, 0, s)
        else s.readVia w a n (match far with | some p => p.1.toNat | none => viaHold) (match far with | some p => p.2.toNat | none => 0)
      if r.1 = viaHold then (if x.reads.contains key then s else s.setFn f { x with reads := x.reads ++ [key] })
      else
        let s1 := r.2.2.setFn f { x with reads := x.reads.erase key }
        if r.1 = 0 then s1.winAnswer f 0 r.2.1
        else if r.1 = 0x0401 then s1.winAnswer f 2 0
        else ((s1.bump FUNC_WINERR_RD f 0).setFld FUNC_WINERR_STATUS f 0 r.1).winAnswer f 1 0)

/-- WINDOW_READ_TIMEOUT: a window read has had no reply for 1 ms (R463). -/
def execWindowReadTimeout (f : Fin 64) (o : BitVec 36) (n : Fin 4097) (s : State) : Res :=
  let x := s.fn f
  .next (if x.reads.contains (o.toNat, n.val) then
      ((s.setFn f { x with reads := x.reads.erase (o.toNat, n.val) }).setFld FUNC_WINERR_STATUS f 0 0x0305).winAnswer f 1 0
    else s)

/-- BAR4_WRITE of n bytes at offset o: each aligned 64-byte block is written whole or refused (R463). -/
def execBar4Write (f : Fin 64) (o : BitVec 36) (n : Fin 513) (data : BitVec 4096) (status : Status) (s : State) : Res :=
  let w := s.fnWho f
  let a := s.winAddr f o.toNat
  .next (if s.kp.firm.recovery = 2 then (if s.inRecovery f o.toNat n then s.recoveryWrite o.toNat n data.toNat else s)
    else if !s.fnUp f || 2 ^ (s.fn f).bar4 < o.toNat + n then s
    else
      let r := if s.winMmr w a n true then (0x0402, s)
        else (blocksOf a n).foldl (fun r b =>
          let q := r.2.writeVia w (addOff a b.1) b.2 ((data.toNat >>> (8 * b.1)) % 2 ^ (8 * b.2)) status.toNat
          (if r.1 = 0 then q.1 else r.1, q.2.2)) (0, s)
      if r.1 = 0 then r.2
      else if r.1 = viaHold then s
      else (r.2.bump FUNC_WINERR_WR f 0).setFld FUNC_WINERR_STATUS f 0 r.1)

/-- FUNC_WIN_WRITE: by the host through BAR0 or by an agent (R464, R491). Every earlier BAR4 write has been answered by then. -/
def execFuncWinWrite (ag : Option Agent) (f : Fin 64) (v : Word) (s : State) : Res :=
  let put := fun (s : State) => s.setReg .FUNC_WIN f 0 (RegName.written .FUNC_WIN true 63 0 (s.reg .FUNC_WIN f 0) v)
  .next (match ag with
    | some a => s.regWrite a (0x20050000000 + f.val * 0x200000 + 0x10) 8 put
    | none => if s.fnUp f then put s else s)

/-! ### Resets and links -/

/-- A function level reset (R465): its queues are DISABLED, its admitted commands end without completions and are recorded, kernels go
on with their completions discarded, and its window returns to zero. -/
def State.flr (s : State) (f : Nat) : State :=
  let mine := ((s.unitsOf .QP_STAT).filter (fun q => s.fld QP_BIND_KEEPER q 0 = 0 && s.fld QP_BIND_FUNC q 0 = f))
  let s1 := mine.foldl (fun s q => s.disableQueue q false) (s.setFld FUNC_STAT_FLR f 0 1)
  ((s1.setFld FUNC_WIN_BASE f 0 0).setFn f { s1.fn f with reads := [] }).flrOver f

/-- FLR of a function (R465). -/
def execFlr (f : Fin 64) (s : State) : Res := .next (s.flr f)

/-- The functions of a link: none without links, and PF 0 alone where the arrangement has no other (R459). -/
def State.fnsOf (s : State) (l : Nat) : List Nat :=
  let mode := s.fld STRAP_STAT_HOST_MODE 0 0
  (List.range (if mode = 2 then 0 else if mode = 3 then 1 else 64)).filter (fun f => s.fld FUNC_BIND_LINK f 0 = l)

/-- The link goes down: a function level reset of each of its functions (R465). -/
def State.linkDown (s : State) (l : Nat) : State :=
  let s1 := s.setLink l { s.link l with up := false, training := false, loop := false, ats := [] }
  (s1.fnsOf l).foldl (fun s f => (s.flr f).setFld FUNC_STAT_LINK_UP f 0 0) s1

/-- LINK_DOWN: the link goes down, or a hot reset comes over it (R465). -/
def execLinkDown (l : Fin 2) (s : State) : Res := .next (s.linkDown l)

/-- PERST_ASSERT: PERSTn_N puts the link's transmitters in electrical idle, as a link-down (R758). -/
def execPerstAssert (l : Fin 2) (s : State) : Res :=
  let s1 := s.linkDown l
  .next ((s1.setLink l { s1.link l with perst := true }).send .pcie [l.val, 4])

/-- PERST_DEASSERT: link training starts (R758), where the arrangement has the link (R459). -/
def execPerstDeassert (l : Fin 2) (s : State) : Res :=
  let mode := s.fld STRAP_STAT_HOST_MODE 0 0
  .next (if mode = 2 || (l = 1 && mode ≠ 1) then s.setLink l { s.link l with perst := false }
    else (s.setLink l { s.link l with perst := false, training := true }).send .pcie [l.val, 5])

/-- PCIE_LINK_TRAINED: the link reaches L0 (R758); a link that was in Loopback leaves it (R728). -/
def execPcieLinkTrained (l : Fin 2) (s : State) : Res :=
  let x := s.link l
  .next (if x.perst || !x.training then s
    else (s.fnsOf l).foldl (fun s f => s.setFld FUNC_STAT_LINK_UP f 0 1)
      (s.setLink l { x with training := false, up := true, loop := false }))

/-- The PCIe Revision ID of every function: the stepping (R3). -/
def revisionId : Nat := 0xB0

/-- CONFIG_REQUEST: Request Retry Status before READY or NO_PROFILE; then served (R758). A request may set the BAR4 size, 2^(30 + n)
bytes, or the use of address translation services of its function (R460); the completion shows the function's Revision ID (R3). -/
def execConfigRequest (f : Fin 64) (bar4 : Option (Fin 7)) (ats : Option Bool) (s : State) : Res :=
  let x := s.fn f
  .next (if !s.fnUp f then s
    else if s.fld PROFILE_STAT_STATE 0 0 = 0 then s.send .pcie [f, 3, 1]
    else
      let x1 := match bar4 with | some n => { x with bar4 := 30 + n.val } | none => x
      let x2 := match ats with | some b => { x1 with ats := b } | none => x1
      (s.setFn f x2).send .pcie [f, 3, 0, revisionId])

/-- ATS_INVALIDATION: the link's cache drops the page's translation; every request that used it has completed (R460). -/
def execAtsInvalidation (l : Fin 2) (page : BitVec 52) (s : State) : Res :=
  let x := s.link l
  .next ((s.setLink l { x with ats := x.ats.filter (· ≠ page.toNat) }).send .pcie [l.val, 6, page.toNat])

/-- PCIE_LOOPBACK: the host port leads the link into LTSSM Loopback; the link's queues fetch nothing until it is back in L0 (R728). -/
def execPcieLoopback (l : Fin 2) (s : State) : Res :=
  let x := s.link l
  .next (if x.up && !x.loop then s.setLink l { x with loop := true, training := true } else s)

end Sys2Proof.Machine
end

