-- ==== Sys2Proof/Machine/Dma.lean ====
section
/-!
DEFINITION. DMA channels: rings, descriptors, channel programs, retries and completion (R359 to R397, R447).
-/
namespace Sys2Proof.Machine

/-! ### Channels -/

/-- A channel. -/
def State.dma (s : State) (u : Nat) : Dma := Sparse.get {} s.dmas u

/-- Replace a channel. -/
def State.setDma (s : State) (u : Nat) (d : Dma) : State := { s with dmas := Sparse.set {} s.dmas u d }

/-- The core of a core channel. -/
def dmaCore (u : Nat) : Option Nat := if u < 256 then none else some ((u - 256) / 2)

/-- The identity of a channel's requests (R360). -/
def dmaWho (u : Nat) (d : Dma) : Who :=
  ⟨d.world, d.level, d.plot, none, none, d.epoch, some (if u < 256 then 10368 + u else (u - 256) / 2)⟩

/-- The channel is paused: it belongs to a suspect that hang recovery holds (R652). -/
def State.dmaPaused (s : State) (u : Nat) : Bool :=
  if u < 256 then s.fld DMA_BIND_BOUND u 0 = 1 && s.plotHeld (s.fld DMA_BIND_PLOT u 0)
  else s.fld CTX_BIND_BOUND ((u - 256) / 2) 0 = 1 && s.plotHeld (s.fld CTX_BIND_PLOT ((u - 256) / 2) 0)

/-- The state of a channel (R397 STATE). -/
def State.dmaState (s : State) (u : Nat) : Nat := s.fld DMA_STAT_STATE u 0

/-- The program ends, with the code, cause, place and address of its first failure or its end (R390, R392). A WAIT is abandoned and
its watch disarmed (R341); requests that wait to be retried are not issued again. -/
def State.dmaEnd (s : State) (u code cause pc : Nat) (a : Word) : State :=
  let d := s.dma u
  if d.code.isSome then s
  else
    let s1 := match d.wait with
      | some (.word _ b true _) => match s.reach (dmaWho u d) b 8 true with
        | .to (.bank n off) =>
          let k := s.core n
          s.setCore n { k with watches := k.watches.filter (fun w => !(w.word = off / 8 && w.waiter.toNat = 2 ^ 40 + u)) }
        | _ => s.send .request [2 ^ 20 + u, 0, 7, b.toNat]
      | _ => s
    (s1.setDma u { d with
      code := some code, cause := cause, endPc := pc, faultAddr := a, move := none, wait := none, fetching := false
      outs := d.outs.filter (fun r => r.failed.isNone) }).setFld DMA_STAT_STATE u 0 3

/-- A retryable status (R388): FENCED only where the address lies in a logical window. -/
def retryable (status : Nat) (a : Word) : Bool :=
  let off := a.toNat % 2 ^ 48
  status = 0x0102 || status = 0x0203 || status = 0x0305
    || (status = 0x0201 && 0x1000000000 ≤ off && off < 0x1A00000000)

/-- A request is in the list of those without a final reply. -/
def State.dmaAwait (s : State) (u : Nat) (r : DmaReq) : State :=
  let d := s.dma u
  s.setDma u { d with outs := d.outs ++ [r] }

/-- The request number that the channel gives next. -/
def State.dmaNext (s : State) (u : Nat) : Nat × State :=
  let d := s.dma u
  (d.nextId, s.setDma u { d with nextId := d.nextId + 1 })

/-! ### A request is carried out -/

/-- What carrying out a request comes to: a final answer with a value and tag, or its reply is to come. -/
inductive DmaAns where
  | done (status val : Nat) (s : State)
  | later (s : State)

/-- The request leaves for another module, or for a register. -/
def State.dmaSend (s : State) (u : Nat) (r : DmaReq) (code : Nat) : State :=
  (s.send .request [2 ^ 20 + u, r.id, code, r.addr.toNat, r.len, r.data]).dmaAwait u r

/-- The fabric address lies in another module. -/
def State.isRemote (s : State) (w : Who) (a : Word) (write : Bool) : Bool :=
  match s.translate w a write with
  | .to (.remote _ _) => true
  | _ => false

/-- The bytes that reading a place gives, with a core channel's bypass of its core's cache done before (R367): none while the
write-backs that takes are not acknowledged. -/
def State.dmaBypass (s : State) (u : Nat) (a : Word) (n : Nat) (write : Bool) : Bool × State :=
  match dmaCore u with
  | none => (true, s)
  | some c =>
    let s1 := s.bypass c a n write
    let l0 := s1.lineOf a
    let lines := (a.toNat % 64 + n + 63) / 64
    (!((s1.core c).wbs.any (fun b => l0 ≤ b.line && b.line < l0 + lines)), s1)

/-- A write is acknowledged: MOVE bytes count, and its last byte's word is what the read-back reads (R391, R392). -/
def State.dmaWrote (s : State) (u : Nat) (r : DmaReq) (n : Nat) : State :=
  let d := s.dma u
  let last := addOff r.addr ((r.len : Int) - 1)
  s.setDma u { d with
    bytes := if r.kind = .write then d.bytes + n else d.bytes
    lastWrite := if n = 0 then d.lastWrite else some (BitVec.ofNat 64 (last.toNat - last.toNat % 8)) }

/-- The places that a Deal's copies of `n` bytes at offset `off` go to, with their fabric addresses (R306). -/
def State.dealAddrs (s : State) (w : Word) (off : Nat) : List Word :=
  (dealTargets w).map (fun n => ownAddr (bankAddr (s.dealCore n) off))

/-- A core channel's request to its own core's bank pauses: the bank keeps this cycle for its network port (R237). -/
def State.dmaHeld (s : State) (u : Nat) (r : DmaReq) : Bool :=
  match dmaCore u, s.translate (dmaWho u (s.dma u)) r.addr false with
  | some c, .to p => (match p.ownBank c r.addr with
    | some off => s.portHeld c off
    | none => false)
  | _, _ => false

/-- Carry out a request (R374 to R383, R390, R392). One that its bank holds back this cycle is made again (R237). -/
def State.dmaPerform (s : State) (u : Nat) (r : DmaReq) : DmaAns :=
  if s.dmaHeld u r then .done viaHold 0 s
  else
  let d := s.dma u
  let w := dmaWho u d
  let rd := fun (_ : Unit) =>
    if s.isRemote w r.addr false then DmaAns.later (s.dmaSend u r 0)
    else let x := s.readVia w r.addr r.len 0 0; DmaAns.done x.1 x.2.1 x.2.2
  let wr := fun (_ : Unit) =>
    if s.isRemote w r.addr true then DmaAns.later (s.dmaSend u r (if r.entry.isSome then 13 else 1))
    else let x := s.writeVia w r.addr r.len r.data 0; DmaAns.done x.1 x.2.1 x.2.2
  match r.kind with
  | .desc | .prog | .list | .read | .readBack => rd ()
  | .write | .digest | .resid | .status | .own => wr ()
  | .event =>
    (match s.reach w r.addr 4 true with
    | .refused st s1 => .done st 0 s1
    | .hold _ => .done viaHold 0 s
    | .to _ => .done 0 0 (s.send .request [2 ^ 20 + u, r.id, 1, r.addr.toNat, 4, r.data]))
  | .add =>
    (match s.reach w r.addr 8 true with
    | .refused st s1 => .done st 0 s1
    | .hold _ => .done viaHold 0 s
    | .to (.remote _ _) => .later (s.dmaSend u r 2)
    | .to p => let x := s.memAtomic p 0 (BitVec.ofNat 64 r.data) 0; .done x.1 x.2.1 x.2.2)
  | .fill | .wait =>
    (let op := if r.kind = .fill then 3 else if r.len = 1 then 0 else 1
    match s.reach w r.addr 8 (r.kind = .fill || r.len = 1) with
    | .refused st s1 => .done st 0 s1
    | .hold _ => .done viaHold 0 s
    | .to (.remote _ _) => .later (s.dmaSend u r 3)
    | .to p =>
      let who : Watch := { word := 0, onFull := true, waiter := BitVec.ofNat 64 (2 ^ 40 + u), plot := w.plot, epoch := w.epoch,
                           waitf := false }
      let near := match dmaCore u with
        | some c => some c
        | none => some (dmaRouter u)
      let x := s.memFe p op (BitVec.ofNat 64 r.data) true (if r.kind = .fill then r.len else 0) near who
      .done x.1.status x.1.val x.2)
  | .post =>
    (let q := r.addr.toNat % 2 ^ 14
    if s.fld QP_BIND_PLOT q 0 ≠ w.plot then .done 0x0402 0 s
    else .later ((s.dmaAwait u r).postEntry q ⟨0, 0xFFFF, 1, [0, nbits d.w0.toNat 31 16, r.data], some (u, r.id)⟩))

/-! ### Program words and instructions (R370 to R373) -/

/-- What the channel finds at its place in the program. -/
inductive DmaIns where
  | missing
  | bad (detail : Nat)
  | move (m : DmaMove)
  | loop (count : Nat) (sinc dinc : Int)
  | endl
  | waitWord (empty : Bool) (a : Word) (limit : Nat)
  | waitEvents (mask limit : Nat)
  | fill (scope : Nat) (a v : Word)
  | add (a v : Word)
  | post (q : Nat) (v : Word)
  | event (a v : Word)
  | hashBegin
  | hashPause
  | hashResume
  | hashFinal (a : Word)
  | fin
  deriving DecidableEq, Repr

/-- A signed 32-bit field. -/
def sx32 (n : Nat) : Int := if nbit n 31 = 1 then (n : Int) - 2 ^ 32 else n

/-- The loop offsets S and D of R378. -/
def loopOffsets (l : List DmaLoop) : Int × Int :=
  l.foldl (fun a x => (a.1 + x.iter * x.sinc, a.2 + x.iter * x.dinc)) (0, 0)

/-- The MOVE whose words are `w`, with loop offsets added, or the detail of its failed check (R370, R372, R374). -/
def dmaMoveOf (d : Dma) (w : Nat → Nat) : DmaIns :=
  let w0 := w 0
  let dim := nbits w0 55 54
  let e := 2 ^ nbits w0 50 48
  let deal := if nbit w0 53 = 1 then 1 else if nbit w0 52 = 1 then 2 else 0
  let n1 := if 1 ≤ dim then nbits (w 4) 31 0 else 1
  let n2 := if dim = 2 then nbits (w 6) 31 0 else 1
  let st := fun (i hi lo : Nat) => if i ≤ dim then nbits (w (2 * i + 1)) hi lo else 0
  let o := loopOffsets d.loops
  let src := addOff (BitVec.ofNat 64 (w 1)) o.1
  let dst : Word := if deal = 1 then BitVec.ofNat 64 (w 2 - w 2 % 2 ^ 22 + (((w 2 % 2 ^ 22 : Nat) + o.2) % 2 ^ 22).toNat)
    else if deal = 2 then BitVec.ofNat 64 (w 2) else addOff (BitVec.ofNat 64 (w 2)) o.2
  let dal := if deal = 1 then dst.toNat % 2 ^ 22 % e else if deal = 2 then dst.toNat % 8 else dst.toNat % e
  if (1 ≤ dim && nbits (w 4) 63 32 ≠ 0) || (dim = 2 && nbits (w 6) 63 32 ≠ 0) then .bad 2
  else if src.toNat % e ≠ 0 || dal ≠ 0 || st 1 63 32 % e ≠ 0 || st 1 31 0 % e ≠ 0 || st 2 63 32 % e ≠ 0 || st 2 31 0 % e ≠ 0 then
    .bad 3
  else if nbits w0 31 0 = 0 || n1 = 0 || n2 = 0 then .bad 4
  else .move { src := src, dst := dst, e := e, n0 := nbits w0 31 0, n1 := n1, n2 := n2, ss1 := st 1 63 32, ds1 := st 1 31 0,
               ss2 := st 2 63 32, ds2 := st 2 31 0, deal := deal, len := 3 + 2 * dim
               beyond := deal = 1 && decide (((w 2 % 2 ^ 22 : Nat) + o.2) / 2 ^ 22 ≠ 0) }

/-- The number of words of an instruction, or the detail of what its first word alone shows wrong (R370, R372). -/
def dmaLen (w0 : Nat) : Nat × Option Nat :=
  let res := fun (m : Nat) (n : Nat) => (n, if w0 % 2 ^ 56 &&& m ≠ 0 then some 2 else none)
  match nbits w0 63 56 with
  | 1 =>
    if nbits w0 55 54 = 3 || nbits w0 50 48 = 7 || nbits w0 53 52 = 3 then (1, some 1)
    else res (mb 51 51 + mb 47 32) (3 + 2 * nbits w0 55 54)
  | 2 => res (mb 55 32) 2
  | 3 => res (mb 55 0) 1
  | 4 => if nbits w0 55 54 = 3 then (1, some 1) else res (mb 53 48 + mb 31 16 + (if nbits w0 55 54 = 2 then 0 else mb 15 0)) 2
  | 5 => res (mb 53 50 + mb 47 0 + (if nbits w0 55 54 = 0 then 0 else mb 49 48)) 3
  | 6 => res (mb 53 0) (if nbits w0 55 54 = 3 then 2 else 1)
  | 7 => res (mb 55 0) 1
  | _ => (1, some 1)

/-- The instruction at the channel's place (R370, R372). -/
def dmaAt (d : Dma) : DmaIns :=
  let plen := nbits d.w0.toNat 15 0
  let w := fun i => (Sparse.get (0 : Word) d.words (d.pc + i)).toNat
  let have' := fun n => (List.range n).all (fun i => Sparse.has d.words (d.pc + i))
  let wd := fun i => BitVec.ofNat 64 (w i)
  if plen ≤ d.pc then .bad 7
  else if !have' 1 then .missing
  else match dmaLen (w 0) with
    | (_, some x) => .bad x
    | (n, none) =>
      if plen < d.pc + n then .bad 7
      else if !have' n then .missing
      else match nbits (w 0) 63 56 with
        | 1 => dmaMoveOf d w
        | 2 =>
          if nbits (w 0) 31 0 = 0 then .bad 4
          else if 4 ≤ d.loops.length then .bad 5
          else .loop (nbits (w 0) 31 0) (sx32 (nbits (w 1) 63 32)) (sx32 (nbits (w 1) 31 0))
        | 3 => if d.loops.isEmpty then .bad 6 else .endl
        | 4 =>
          let lim := nbits (w 0) 47 32
          if nbits (w 0) 55 54 = 2 then (if w 1 ≠ 0 then .bad 2 else .waitEvents (nbits (w 0) 15 0) lim)
          else if w 1 % 8 ≠ 0 then .bad 3
          else .waitWord (nbits (w 0) 55 54 = 1) (wd 1) lim
        | 5 =>
          (match nbits (w 0) 55 54 with
          | 0 => if w 1 % 8 ≠ 0 then .bad 3 else .fill (nbits (w 0) 49 48) (wd 1) (wd 2)
          | 1 => if w 1 % 8 ≠ 0 then .bad 3 else .add (wd 1) (wd 2)
          | 2 => if 2 ^ 14 ≤ w 1 then .bad 2 else .post (w 1) (wd 2)
          | _ => if w 1 % 4 ≠ 0 then .bad 3 else .event (wd 1) (wd 2))
        | 6 =>
          (match nbits (w 0) 55 54 with
          | 0 => .hashBegin
          | k =>
            if k = 3 && w 1 % 8 ≠ 0 then .bad 3
            else if d.digest.isNone then .bad 9
            else if k = 1 then .hashPause else if k = 2 then .hashResume else .hashFinal (wd 1))
        | _ => if d.loops.isEmpty then .fin else .bad 6

/-! ### Requests and their answers -/

/-- The bytes of an element or run that a MOVE writes next: the distances of its source and destination from their first bytes, and
the number of elements of the run (R374, R375). -/
def DmaMove.piece (m : DmaMove) (i : Nat) : Nat × Nat × Nat :=
  let i0 := i % m.n0
  let i1 := i / m.n0 % m.n1
  let i2 := i / m.n0 / m.n1
  let so := i0 * m.e + i1 * m.ss1 + i2 * m.ss2
  let dof := i0 * m.e + i1 * m.ds1 + i2 * m.ds2
  let page := fun (a : Nat) => (2 ^ 21 - a % 2 ^ 21) / m.e
  let room := min (240 / m.e) (min (page (m.src.toNat + so)) (page (m.dst.toNat + dof)))
  (so, dof, if m.whole then m.n0 else if m.one || m.shared then 1 else max 1 (min (m.n0 - i0) room))

/-- Feed bytes to the digest (R383). (DESIGN CHOICE: notes/assumptions/52.md.) -/
def Dma.feed (d : Dma) (v n : Nat) : Dma :=
  if d.feeding then { d with digest := d.digest.map (fun l => l ++ bytesOf v n) } else d

/-- A copy of a fabric Deal is undelivered (R447). -/
def State.dmaUndelivered (s : State) (u e : Nat) : State :=
  let d := s.dma u
  s.setDma u { d with undelivered := if d.undelivered.contains e then d.undelivered else d.undelivered ++ [e] }

/-- A failing status of a request: it waits for its retry, ends the program, or leaves a fabric target undelivered (R388 to R390,
R447). -/
def State.dmaFailed (s : State) (u : Nat) (r : DmaReq) (status : Nat) : State :=
  match r.entry with
  | some e => s.dmaUndelivered u e
  | none =>
    let once := r.kind = .add || r.kind = .post
    if status = viaHold || (retryable status r.addr && !(once && status = 0x0305)) then
      (if r.tries < s.fld DMA_RETRY_LIMIT_LIMIT u 0 || status = viaHold then s.dmaAwait u { r with failed := some status }
       else s.dmaEnd u 0x0301 status r.pc r.addr)
    else if status = 0x0305 then s.dmaEnd u 0x0303 0 r.pc r.addr
    else s.dmaEnd u status 0 r.pc r.addr

/-- A Deal packet's copies of a write, in ascending core number, each carried out at its target as a unicast write of the agent is; the copies that R308
does not send count as not carried out. Answers what the acknowledgement carries, the state after, and the address that the lowest-numbered copy
carried out went to (R305 to R309). -/
def State.dealWrite (s : State) (w : Who) (target : Word) (off n v : Nat) : DealRun × State × Option Word :=
  let t := dealTargets target
  t.foldl (fun (a : DealRun × State × Option Word) q =>
    match a.2.1.dealUnsent q with
    | some st => (a.1.note q st, a.2)
    | none =>
      let to_ := ownAddr (bankAddr (a.2.1.dealCore q) off)
      let x := a.2.1.writeVia w to_ n v 0
      (a.1.note q x.1, x.2.2, if x.1 = 0 then a.2.2 <|> some to_ else a.2.2))
    ({ id := 0, targets := t.length, out := t }, s, none)

/-- Where elements of a destination share bytes the spec does not say whose value stays (R376): each byte that an earlier element of
the MOVE wrote keeps its value or takes the new one by a free value. (DESIGN CHOICE: notes/assumptions/53.md.) -/
def State.mixOver (s : State) (w : Who) (a : Word) (n v : Nat) (written : List Nat) : Nat × State :=
  let old := (s.readVia w a n 0 0).2.1
  (List.range n).foldl (fun r (i : Nat) =>
    let b := (addOff a i).toNat
    if written.contains b then
      let f := r.2.free
      let pick := if f.1 % 2 = 0 then (old >>> (8 * i)) % 256 else (v >>> (8 * i)) % 256
      (r.1 + pick <<< (8 * i), f.2)
    else (r.1 + ((v >>> (8 * i)) % 256) <<< (8 * i), r.2)) (0, s)

/-- Data read for a MOVE is written: to its address, as a Deal, or as the copies of a fabric Deal (R374, R386, R387). `off` is the
destination's distance from the MOVE's first destination byte. (DESIGN CHOICE: notes/assumptions/53.md.) -/
def State.dmaMoveWrite (s : State) (u : Nat) (m : DmaMove) (off n v pc : Nat) : State :=
  let d := s.dma u
  let w := dmaWho u d
  let finish := fun (s : State) (r : DmaReq) => match s.dmaPerform u r with
    | .later s1 => s1
    | .done 0 _ s1 => s1.dmaWrote u r n
    | .done st got s1 => (s1.dmaWrote u r got).dmaFailed u r st
  if m.deal = 1 then
    let o := (m.dst.toNat % 2 ^ 22 + off) % 2 ^ 22
    let x := s.dealWrite w m.dst o n v
    let d1 := x.2.1.dma u
    if x.1.status = 0 then
      x.2.1.setDma u { d1 with bytes := d1.bytes + n, lastWrite := match x.2.2 with
        | some a => let b := addOff a ((n : Int) - 1); some (BitVec.ofNat 64 (b.toNat - b.toNat % 8))
        | none => d1.lastWrite }
    else x.2.1.dmaEnd u x.1.status 0 pc (BitVec.ofNat 64 o)
  else if m.deal = 2 then
    let es := m.list.getD []
    (List.range es.length).foldl (fun s i =>
      if (s.dma u).undelivered.contains i then s
      else
        let x := s.dmaNext u
        finish x.2 { id := x.1, kind := .write, addr := addOff (BitVec.ofNat 64 (es.getD i 0)) off, len := n, data := v, pc := pc,
                     entry := some i }) s
  else
    let a := addOff m.dst off
    let x := if m.shared then s.mixOver w a n v m.written else (v, s)
    let y := x.2.dmaNext u
    let s1 := if m.shared then
        let d1 := y.2.dma u
        y.2.setDma u { d1 with move := d1.move.map (fun m => { m with
          written := m.written ++ (List.range n).map (fun (i : Nat) => (addOff a i).toNat) }) }
      else y.2
    let b := s1.dmaBypass u a n true
    let r : DmaReq := { id := y.1, kind := .write, addr := a, len := n, data := x.1, pc := pc }
    if b.1 then finish b.2 r else b.2.dmaAwait u { r with failed := some viaHold }

/-- The program goes on past an instruction of n words. -/
def State.dmaAdvance (s : State) (u n : Nat) : State :=
  let d := s.dma u
  (s.setDma u { d with pc := d.pc + n }).setFld DMA_STAT_PC u 0 (d.pc + n)

/-- A descriptor has been read: an entry that software still owns stalls the ring; otherwise its program starts (R364, R368, R372). -/
def State.dmaDesc (s : State) (u : Nat) (v : Nat) : State :=
  let d := s.dma u
  let w0 := wordAt v 0
  let prog := wordAt v 1
  let plen := nbits w0 15 0
  if u < 256 && nbit w0 63 = 0 then
    (s.setDma u { d with fetching := false, running := false }).setFld DMA_STAT_RING_STALL u 0 1
  else
    let s1 := s.setDma u { d with
      fetching := false, running := true, w0 := BitVec.ofNat 64 w0, prog := BitVec.ofNat 64 prog
      resid := BitVec.ofNat 64 (wordAt v 5) }
    let s2 := (s1.setFld DMA_STAT_STATE u 0 1).setFld DMA_STAT_PC u 0 0
    if plen = 0 || 4096 < plen || prog % 8 ≠ 0 then s2.dmaEnd u 0x0306 8 0 0 else s2

/-- A request has its OK answer: what it brings takes effect. -/
def State.dmaOk (s : State) (u : Nat) (r : DmaReq) (v : Nat) : State :=
  let d := s.dma u
  match r.kind with
  | .desc => s.dmaDesc u v
  | .prog =>
    let first := r.data
    let n := r.len / 8
    s.setDma u { d with words := (List.range n).foldl (fun ws i =>
      if first + i < nbits d.w0.toNat 15 0 && !Sparse.has ws (first + i)
      then Sparse.put ws (first + i) (BitVec.ofNat 64 (wordAt v i)) else ws) d.words }
  | .list =>
    (match d.move with
    | none => s
    | some m =>
      let c := wordAt v 0
      let es := (List.range (r.len / 8 - 1)).map (fun i => wordAt v (i + 1))
      if r.len = 8 then
        (if 2 ^ 9 ≤ c then s.dmaEnd u 0x0306 2 r.pc 0
         else if c = 0 || 256 < c then s.dmaEnd u 0x0306 4 r.pc 0
         else s.setDma u { d with move := some { m with written := [c] } })
      else if es.any (fun a => a % m.e ≠ 0) then s.dmaEnd u 0x0306 3 r.pc 0
      else s.setDma u { d with move := some { m with list := some es, written := [] } })
  | .read =>
    (match d.move with
    | none => s
    | some m => (s.setDma u (d.feed v r.len)).dmaMoveWrite u m r.dst.toNat r.len v r.pc)
  | .write | .digest | .fill | .add | .event => s.dmaWrote u r r.len
  | .wait => (s.setDma u { d with wait := none }).setFld DMA_STAT_STATE u 0 1 |>.dmaAdvance u 2
  | .post => s
  | .readBack => s.setDma u { d with stage := 1 }
  | .resid => s.setDma u { d with stage := 2 }
  | .status => s.setDma u { d with stage := 3 }
  | .own => s.setDma u { d with stage := 4 }

/-- A request has an answer (R388 to R393). -/
def State.dmaAnswer (s : State) (u : Nat) (r : DmaReq) (status v : Nat) : State :=
  let d := s.dma u
  let st := if status = 1 then 0 else status
  match r.kind with
  | .readBack =>
    if st = 0 then s.dmaOk u r v
    else if retryable st r.addr && r.tries < s.fld DMA_RETRY_LIMIT_LIMIT u 0 then s.dmaAwait u { r with failed := some st }
    else
      let d1 := { d with stage := 1 }
      if d.code = some 0 then
        s.setDma u (if retryable st r.addr then { d1 with code := some 0x0301, cause := st, faultAddr := r.addr }
          else { d1 with code := some st, cause := 0, faultAddr := r.addr })
      else s.setDma u d1
  | .resid | .status | .own =>
    if st = 0 then s.dmaOk u r v
    else if retryable st r.addr && r.tries < s.fld DMA_RETRY_LIMIT_LIMIT u 0 then s.dmaAwait u { r with failed := some st }
    else s.setDma u { d with descFault := some st, stage := 4 }
  | .wait =>
    (match d.wait with
    | some (.word e a _ lim) =>
      if st = 0 then s.dmaOk u r v
      else if st = 0x0440 then s.setDma u { d with wait := some (.word e a true lim) }
      else if st = 0x0441 then s.setDma u { d with wait := some (.word e a false lim) }
      else s.dmaFailed u r st
    | _ => s)
  | _ => if st = 0 then s.dmaOk u r v else s.dmaFailed u r st

/-- Issue a request. (DESIGN CHOICE: notes/assumptions/89.md.) -/
def State.dmaIssue (s : State) (u : Nat) (r : DmaReq) : State :=
  match s.dmaPerform u r with
  | .later s1 => s1
  | .done st v s1 => s1.dmaAnswer u r st v

/-- Issue a new request of the instruction at the channel's place, its core's cache bypassed first (R367). -/
def State.dmaNew (s : State) (u : Nat) (kind : DmaKind) (a : Word) (len data : Nat) (dst : Word) : State :=
  let write : Bool := match kind with | .write | .digest | .fill | .add | .wait | .resid | .status | .own => true | _ => false
  let x := s.dmaNext u
  let r : DmaReq := { id := x.1, kind := kind, addr := a, len := len, data := data, dst := dst, pc := (s.dma u).pc }
  let n := if kind = .fill || kind = .wait then 8 else len
  let b := if kind = .post || kind = .event then (true, x.2) else x.2.dmaBypass u a n write
  if b.1 then b.2.dmaIssue u r else b.2.dmaAwait u { r with failed := some viaHold }

/-! ### MOVE (R374 to R377, R384 to R387) -/

/-- The memory of R385 that holds a place: a bank of a core or a stack of this module. -/
def memoryOf : Place → Option (Nat × Nat)
  | .bank n off => some (2 * n + (if off < 0x100000 then 0 else 1), off)
  | .hbm p off => some (2 ^ 20 + p, off)
  | _ => none

/-- The runs of a MOVE by source distance, destination distance and elements. -/
def DmaMove.pieces (m : DmaMove) (i : Nat) : Nat → List (Nat × Nat × Nat)
  | 0 => []
  | f + 1 => if m.n0 * m.n1 * m.n2 ≤ i then [] else let x := m.piece i; x :: m.pieces (i + x.2.2) f

/-- The spans of a MOVE's source or of a destination in each memory: memory, lowest and highest byte (R385). -/
def State.spans (s : State) (w : Who) (base : Word) (write : Bool) (runs : List (Nat × Nat)) : Sparse (Nat × Nat) :=
  runs.foldl (fun m x => match s.translate w (addOff base x.1) write with
    | .to p => match memoryOf p with
      | some (k, off) =>
        let o := Sparse.get (off, off) m k
        Sparse.put m k (min o.1 off, max o.2 (off + x.2 - 1))
      | none => m
    | _ => m) []

/-- Two spans lie in one memory and intersect. -/
def spansMeet (a b : Sparse (Nat × Nat)) : Bool :=
  a.any (fun x => Sparse.has b x.1 && (let y := Sparse.get (0, 0) b x.1; x.2.1 ≤ y.2 && y.1 ≤ x.2.2))

/-- The elements of a MOVE's destination share bytes (R376). -/
def DmaMove.overlaps (m : DmaMove) : Bool :=
  (1 < m.n1 && m.ds1 < m.n0 * m.e) || (1 < m.n2 && m.ds2 < (m.n1 - 1) * m.ds1 + m.n0 * m.e)

/-- The fabric address lies in MMR space, of this module or another (R377). -/
def State.inMmr (s : State) (w : Who) (a : Word) (write : Bool) : Bool :=
  match s.translate w a write with
  | .to (.remote _ off) => (s.localPlace off).isMmr
  | .to p => p.isMmr
  | _ => false

/-- The checks of a MOVE at its start: an end of the program (code, detail), or the MOVE as it is to run (R377, R385, R386). -/
def State.moveStart (s : State) (u : Nat) (m : DmaMove) : Except (Nat × Nat) DmaMove :=
  let w := dmaWho u (s.dma u)
  let dsts : List Word := if m.deal = 1 then s.dealAddrs m.dst (m.dst.toNat % 2 ^ 22)
    else if m.deal = 2 then (m.list.getD []).map (BitVec.ofNat 64 ·) else [m.dst]
  let last := (m.n0 - 1) * m.e + (m.n1 - 1) * m.ds1 + (m.n2 - 1) * m.ds2 + m.e - 1
  let toMmr := dsts.any (fun a => s.inMmr w a true)
  let fromMmr := s.inMmr w m.src false
  let remote := fun (a : Word) (write : Bool) => match s.translate w a write with
    | .to (.remote i _) => some i
    | _ => none
  let same := dsts.any (fun a => (remote a true).isSome && remote a true = remote m.src false)
  let m1 := { m with one := toMmr || fromMmr || same, seq := toMmr || same }
  let runs := m1.pieces 0 (m.n0 * m.n1 * m.n2)
  let src := s.spans w m.src false (runs.map (fun x => (x.1, x.2.2 * m.e)))
  let meet := dsts.any (fun a => spansMeet src (s.spans w a true (runs.map (fun x => (x.2.1, x.2.2 * m.e)))))
  if m.deal = 1 && (dealBad m.dst || m.beyond || 0x400000 ≤ m.dst.toNat % 2 ^ 22 + last) then .error (0x0402, 0)
  else if (toMmr || fromMmr) && m.e ≠ 4 && m.e ≠ 8 then .error (0x0306, 3)
  else if meet && (m.n1 ≠ 1 || m.n2 ≠ 1) then .error (0x0302, 0)
  else .ok { m1 with whole := meet, shared := m.deal = 0 && !toMmr && m.overlaps }

/-- An outstanding write of the channel shares a byte with n bytes at a (R384). -/
def dmaClash (d : Dma) (a : Word) (n : Nat) : Bool :=
  d.outs.any (fun r => (r.kind = .write || r.kind = .digest || r.kind = .fill || r.kind = .add)
    && r.addr.toNat < a.toNat + n && a.toNat < r.addr.toNat + (if r.kind = .fill then 8 else r.len))

/-- The requests a channel may have outstanding (R359). -/
def dmaLimit (u : Nat) : Nat := if u < 256 then 64 else 16

/-- Go on with the MOVE in progress as far as it can go (R371, R375, R377, R384). (DESIGN CHOICE: notes/assumptions/52.md.) -/
def State.dmaPump (s : State) (u : Nat) : Nat → State
  | 0 => s
  | f + 1 =>
    let d := s.dma u
    match d.move with
    | none => s
    | some m =>
      if m.deal = 2 && m.list.isNone then s
      else if m.n0 * m.n1 * m.n2 ≤ m.i then
        (if m.deal = 2 && !d.outs.isEmpty then s
         else if m.deal = 2 && !d.undelivered.isEmpty then s.dmaEnd u 0x0304 0 d.pc 0
         else (s.setDma u { d with move := none }).dmaAdvance u m.len)
      else if dmaLimit u ≤ d.outs.length || ((m.seq || d.feeding || m.shared) && !d.outs.isEmpty) then s
      else
        let x := m.piece m.i
        let n := x.2.2 * m.e
        let a := addOff m.src x.1
        if dmaClash d a n || (m.deal = 0 && dmaClash d (addOff m.dst x.2.1) n) then s
        else
          let s1 := s.setDma u { d with move := some { m with i := m.i + x.2.2 } }
          (s1.dmaNew u .read a n 0 (BitVec.ofNat 64 x.2.1)).dmaPump u f

/-- Enough rounds for a MOVE. (DEDUCED: notes/assumptions/51.md.) -/
def State.dmaGo (s : State) (u : Nat) : State :=
  match (s.dma u).move with
  | none => s
  | some m => if s.dmaPaused u then s else s.dmaPump u (m.n0 * m.n1 * m.n2 + 1)

/-- Start a MOVE, its target list read first where it has one (R387). -/
def State.dmaStartMove (s : State) (u : Nat) (m : DmaMove) : State :=
  let d := s.dma u
  if m.deal = 2 then
    (match d.move with
    | none => (s.setDma u { d with move := some m, undelivered := [] }).dmaNew u .list m.dst 8 0 0
    | some m1 => match m1.list, m1.written with
      | none, [c] => if d.outs.isEmpty then s.dmaNew u .list m.dst (8 * (c + 1)) 0 0 else s
      | _, _ => s)
  else s

/-- The MOVE's start checks are made once its target list is known. -/
def State.dmaBegin (s : State) (u : Nat) (m : DmaMove) : State :=
  let d := s.dma u
  match s.moveStart u m with
  | .error (code, det) => s.dmaEnd u code det d.pc (if code = 0x0306 then 0 else m.dst)
  | .ok m1 => (s.setDma u { d with move := some m1 }).dmaGo u

/-! ### The instruction at the channel's place -/

/-- Run the instruction at a running channel's place: one that fails its check ends the program whichever command reaches it
(R372), and `f` says what the command's own instruction does. (DESIGN CHOICE: notes/assumptions/52.md.) -/
def State.dmaStep (s : State) (u : Nat) (f : DmaIns → Dma → State → Option State) : State :=
  let d := s.dma u
  if !d.running || d.fetching || d.code.isSome || d.move.isSome || d.wait.isSome || s.dmaPaused u then s
  else match dmaAt d with
    | .missing => s
    | .bad x => s.dmaEnd u 0x0306 x d.pc 0
    | i => (f i d s).getD s

/-- Every earlier write of the channel in its program is acknowledged (R382). -/
def Dma.quiet (d : Dma) : Bool := d.outs.isEmpty

/-- DMA_MOVE: starts the MOVE at the channel's place, or goes on with the one in progress (R371, R374 to R377, R384 to R387). -/
def execDmaMove (u : DmaUnit) (s : State) : Res :=
  let d := s.dma u
  .next (match d.move with
    | some m =>
      if d.code.isSome || s.dmaPaused u then s
      else if m.deal = 2 && m.list.isNone then
        let s1 := s.dmaStartMove u m
        (match (s1.dma u).move with
        | some m1 => if m1.list.isSome && m.list.isNone then s1.dmaBegin u m1 else s1
        | none => s1)
      else s.dmaGo u
    | none => s.dmaStep u (fun i _ s => match i with
      | .move m => some (if m.deal = 2 then s.dmaStartMove u m else s.dmaBegin u m)
      | _ => none))

/-- DMA_LOOP (R378). -/
def execDmaLoop (u : DmaUnit) (s : State) : Res :=
  .next (s.dmaStep u (fun i d s => match i with
    | .loop n a b => some ((s.setDma u { d with loops := ⟨d.pc + 2, n, 0, a, b⟩ :: d.loops }).dmaAdvance u 2)
    | _ => none))

/-- DMA_ENDL (R378). -/
def execDmaEndl (u : DmaUnit) (s : State) : Res :=
  .next (s.dmaStep u (fun i d s => match i, d.loops with
    | .endl, l :: r =>
      some (if l.left ≤ 1 then (s.setDma u { d with loops := r }).dmaAdvance u 1
        else (s.setDma u { d with loops := { l with left := l.left - 1, iter := l.iter + 1 } :: r, pc := l.start }).setFld
          DMA_STAT_PC u 0 l.start)
    | _, _ => none))

/-- Issue the full/empty operation of a WAIT: `len` 1 sets the word EMPTY (R379). -/
def State.dmaWaitGo (s : State) (u : Nat) (empty : Bool) (a : Word) : State :=
  s.dmaNew u .wait a (if empty then 1 else 0) 0 0

/-- The armed watch of the channel's WAIT is still in its bank's table, or its wake has not come from another module. -/
def State.dmaWatching (s : State) (u : Nat) (a : Word) : Bool :=
  match s.reach (dmaWho u (s.dma u)) a 8 true with
  | .to (.bank n off) => (s.core n).watches.any (fun w => w.word = off / 8 && w.waiter.toNat = 2 ^ 40 + u)
  | .to (.remote _ _) => s.kp.fab.armed.any (fun e => e.2.getD 0 0 = 2 ^ 20 + u && e.2.getD 3 0 = a.toNat)
  | _ => false

/-- DMA_WAIT_WORD: starts the WAIT at the channel's place, or, once its watch has fired or its watch was refused, issues its
operation again (R379). -/
def execDmaWaitWord (u : DmaUnit) (s : State) : Res :=
  let d := s.dma u
  .next (match d.wait with
    | some (.word e a armed _) =>
      if d.code.isSome || !d.quiet || (armed && s.dmaWatching u a) then s else s.dmaWaitGo u e a
    | some _ => s
    | none => s.dmaStep u (fun i d s => match i with
      | .waitWord e a lim =>
        some (((s.setDma u { d with wait := some (.word e a false lim) }).setFld DMA_STAT_STATE u 0 2).dmaWaitGo u e a)
      | _ => none))

/-- DMA_WAIT_EVENTS: ends when every bit of MASK is set, clearing those bits; otherwise the channel waits (R380). -/
def execDmaWaitEvents (u : DmaUnit) (s : State) : Res :=
  let d := s.dma u
  let ev := s.fld DMA_EVENT_EV u 0
  let take := fun (mask : Nat) (s : State) =>
    (((s.setFld DMA_EVENT_EV u 0 (ev - mask)).setDma u { s.dma u with wait := none }).setFld DMA_STAT_STATE u 0 1).dmaAdvance u 2
  .next (match d.wait with
    | some (.events mask _) => if d.code.isSome || ev &&& mask ≠ mask then s else take mask s
    | some _ => s
    | none => s.dmaStep u (fun i d s => match i with
      | .waitEvents mask lim =>
        some (if ev &&& mask = mask then take mask s
          else (s.setDma u { d with wait := some (.events mask lim) }).setFld DMA_STAT_STATE u 0 2)
      | _ => none))

/-- A SIGNAL issues once every earlier write is acknowledged (R382). -/
def State.dmaSignal (s : State) (u : Nat) (d : Dma) (kind : DmaKind) (a : Word) (len : Nat) (v : Word) : Option State :=
  if d.quiet then some ((s.dmaNew u kind a len v.toNat 0).dmaAdvance u 3) else none

/-- DMA_SIGNAL_FILL (R382). The scope is carried in the request's length. -/
def execDmaSignalFill (u : DmaUnit) (s : State) : Res :=
  .next (s.dmaStep u (fun i d s => match i with
    | .fill sc a v => s.dmaSignal u d .fill a sc v
    | _ => none))

/-- DMA_SIGNAL_ADD (R382). -/
def execDmaSignalAdd (u : DmaUnit) (s : State) : Res :=
  .next (s.dmaStep u (fun i d s => match i with
    | .add a v => s.dmaSignal u d .add a 8 v
    | _ => none))

/-- DMA_SIGNAL_POST (R382). -/
def execDmaSignalPost (u : DmaUnit) (s : State) : Res :=
  .next (s.dmaStep u (fun i d s => match i with
    | .post q v => s.dmaSignal u d .post (BitVec.ofNat 64 q) 8 v
    | _ => none))

/-- DMA_SIGNAL_EVENT (R382). -/
def execDmaSignalEvent (u : DmaUnit) (s : State) : Res :=
  .next (s.dmaStep u (fun i d s => match i with
    | .event a v => s.dmaSignal u d .event a 4 (BitVec.ofNat 64 (v.toNat % 2 ^ 16))
    | _ => none))

/-- DMA_HASH_BEGIN (R383). -/
def execDmaHashBegin (u : DmaUnit) (s : State) : Res :=
  .next (s.dmaStep u (fun i d s => match i with
    | .hashBegin => if d.quiet then some ((s.setDma u { d with digest := some [], feeding := true }).dmaAdvance u 1) else none
    | _ => none))

/-- DMA_HASH_PAUSE (R383). -/
def execDmaHashPause (u : DmaUnit) (s : State) : Res :=
  .next (s.dmaStep u (fun i d s => match i with
    | .hashPause => if d.quiet then some ((s.setDma u { d with feeding := false }).dmaAdvance u 1) else none
    | _ => none))

/-- DMA_HASH_RESUME (R383). -/
def execDmaHashResume (u : DmaUnit) (s : State) : Res :=
  .next (s.dmaStep u (fun i d s => match i with
    | .hashResume => if d.quiet then some ((s.setDma u { d with feeding := true }).dmaAdvance u 1) else none
    | _ => none))

/-- DMA_HASH_FINAL: the digest is completed and written, and feeding stops (R383). -/
def execDmaHashFinal (u : DmaUnit) (s : State) : Res :=
  .next (s.dmaStep u (fun i d s => match i with
    | .hashFinal a =>
      if d.quiet then
        some (((s.setDma u { d with digest := none, feeding := false }).dmaNew u .digest a 48
          (ofBytes (sha384 (d.digest.getD []))) 0).dmaAdvance u 2)
      else none
    | _ => none))

/-- DMA_END: the program ends (R371, R392). -/
def execDmaEnd (u : DmaUnit) (s : State) : Res :=
  .next (s.dmaStep u (fun i d s => match i with
    | .fin => if d.quiet then some (s.dmaEnd u 0 0 d.pc 0) else none
    | _ => none))

/-! ### Starting and stopping -/

/-- The module offset of a channel's registers (R397). -/
def dmaOff (u off : Nat) : Nat :=
  if u < 256 then 0x20010000000 + u / 32 * 0x100000 + u % 32 * 0x8000 + off
  else bankAddr ((u - 256) / 2) (0x3F0500 + (u - 256) % 2 * 0x80 + off)

/-- The channel takes the next descriptor of its ring, if there is one (R364). -/
def State.dmaKick (s : State) (u : Nat) : State :=
  if u < 256 && s.fld DMA_BIND_BOUND u 0 = 1 && s.dmaState u = 0 && s.fld DMA_HEAD_INDEX u 0 ≠ s.fld DMA_TAIL_INDEX u 0 then
    let size := 2 ^ s.fld DMA_RING_CFG_LOG2N u 0
    let a := s.fld DMA_RING_BASE_BASE u 0 * 64 + s.fld DMA_HEAD_INDEX u 0 % size * 64
    let d := s.dma u
    if d.fetching || d.running then s
    else s.setDma u { nextId := d.nextId, fetching := true, descAddr := BitVec.ofNat 64 a, world := s.fld DMA_BIND_WORLD u 0,
                      level := s.fld DMA_BIND_LEVEL u 0, plot := s.fld DMA_BIND_PLOT u 0,
                      epoch := Sparse.get 0 s.epochs (s.fld DMA_BIND_PLOT u 0) }
  else s

/-- DMA_DOORBELL: a write of DMA_TAIL (R361, R364). -/
def execDmaDoorbell (ag : Agent) (u : Fin 256) (v : BitVec 16) (s : State) : Res :=
  .next (s.regWrite ag (dmaOff u 0x28) 4 (fun s => (s.setFld DMA_TAIL_INDEX u 0 v.toNat).dmaKick u))

/-- DMA_CTL_GO: a bulk channel leaves HALTED, or retries a stalled ring; a core channel ignores it (R364, R397). -/
def execDmaCtlGo (ag : Agent) (u : DmaUnit) (s : State) : Res :=
  .next (s.regWrite ag (dmaOff u 0) 4 (fun s =>
    if 256 ≤ u.val then s
    else (if s.dmaState u = 4 then s.setFld DMA_STAT_STATE u 0 0 else s).dmaKick u))

/-- DMA_CTL_STOP: the running program ends CANCELLED (R394). -/
def execDmaCtlStop (ag : Agent) (u : DmaUnit) (s : State) : Res :=
  .next (s.regWrite ag (dmaOff u 0) 4 (fun s =>
    let d := s.dma u
    if !d.running then s else s.dmaEnd u 0x0104 0 d.pc 0))

/-- DMA_RING_WRITE: DMA_RING_BASE or DMA_RING_CFG (`cfg`) changes only in IDLE or HALTED with HEAD = TAIL (R365). -/
def execDmaRingWrite (ag : Agent) (u : Fin 256) (cfg : Bool) (v : Word) (s : State) : Res :=
  let r : RegName := if cfg then .DMA_RING_CFG else .DMA_RING_BASE
  .next (s.regWrite ag (dmaOff u (if cfg then 0x18 else 0x10)) (if cfg then 4 else 8) (fun s =>
    if (s.dmaState u = 0 || s.dmaState u = 4) && s.fld DMA_HEAD_INDEX u 0 = s.fld DMA_TAIL_INDEX u 0 then
      s.setReg r u 0 (r.written true (r.desc.width - 1) 0 (s.reg r u 0) v)
    else s))

/-- DMA_EVENT_SET (R380, R397). -/
def execDmaEventSet (ag : Agent) (u : DmaUnit) (v : BitVec 16) (s : State) : Res :=
  .next (s.regWrite ag (dmaOff u 0x40) 4 (fun s => s.setFld DMA_EVENT_EV u 0 (s.fld DMA_EVENT_EV u 0 ||| v.toNat)))

/-- DMAC_GO: a thread's store starts a core channel of its own core, or is refused; the thread is ready again once the channel has
accepted or refused it (R366). -/
def execDmacGo (c : CoreId) (t : ThreadId) (ch : Fin 2) (v : Word) (s : State) : Res :=
  let u := 256 + 2 * c.val + ch.val
  let h := s.thr c t
  let a := match h.wait with | .mmrStore a => a | _ => 0
  let m := bitsOf v 21 20
  let mben : Bool := bitsOf v 22 22 = 1
  let st := s.dmaState u
  .next (if mben && (h.mbox m).st ≠ .empty then
      (if h.st = .waiting then s.failWord c t 1 0x0A 0 0 else s.raise c t 1 0x0A 0 0)
    else
      let s1 := if st = 0 || st = 4 then
          let s2 := if mben then s.setThr c t (h.setMbox m ⟨.pending, 0, 0⟩) else s
          (s2.setDma u { nextId := (s.dma u).nextId, fetching := true, running := true
                         descAddr := ownAddr (bankAddr c (bitsOf v 17 6 * 64)), world := s.world c t, level := s.level c t
                         plot := s.fld CTX_BIND_PLOT c 0, epoch := s.fld CTX_BIND_EPOCH c 0, thread := some t.val
                         mb := if mben then some m else none, irq := bitsOf v 23 23 = 1 }).setFld DMA_STAT_STATE u 0 1
        else s.setFld DMA_STAT_BUSY_ERR u 0 1
      if h.st = .waiting && a ≠ 0 then s1.ready c t else s1)

/-- DMA_DESC_FETCHED: the channel reads its descriptor, with the epoch that is then in force (R360, R364, R369, R392). -/
def execDmaDescFetched (u : DmaUnit) (s : State) : Res :=
  let d := s.dma u
  let epoch := if u.val < 256 then Sparse.get 0 s.epochs d.plot else s.fld CTX_BIND_EPOCH ((u - 256) / 2) 0
  .next (if d.fetching && d.outs.isEmpty && d.code.isNone && !s.dmaPaused u then
      (s.setDma u { d with epoch := epoch }).dmaNew u .desc d.descAddr 64 0 0
    else s)

/-- The first word that the instruction at the channel's place still wants. -/
def dmaWants (d : Dma) : Option Nat :=
  let n := if Sparse.has d.words d.pc then (dmaLen (Sparse.get (0 : Word) d.words d.pc).toNat).1 else 1
  (List.range n).find? (fun i => !Sparse.has d.words (d.pc + i)) |>.map (d.pc + ·)

/-- DMA_PROGRAM_FETCH: an aligned 64-byte block of the program's words is read (R373). -/
def execDmaProgramFetch (u : DmaUnit) (s : State) : Res :=
  let d := s.dma u
  .next (if !d.running || d.fetching || d.code.isSome || s.dmaPaused u || d.outs.any (fun r => r.kind = .prog) then s
    else match dmaWants d with
      | none => s
      | some i =>
        if nbits d.w0.toNat 15 0 ≤ i then s
        else
          let a := addOff d.prog (8 * i)
          let lead := (a.toNat % 64) / 8
          let first := i - min i lead
          s.dmaNew u .prog (addOff d.prog (8 * first)) (8 * (8 - (lead - (i - first)))) first 0)

/-! ### Replies, retries, timeouts -/

/-- A reply reaches a channel, unless the boundary of the core or domain that holds it absorbs it (R395, R640). -/
def State.inwardDma (s : State) (u : Nat) (f : State → State) : State :=
  if 256 ≤ u then s.inward ((u - 256) / 2) f
  else if s.islandShut (dmaRouter u) then s.boundaryCount (dmaRouter u) FENCE_DROP_CNT_ABSORBED
  else f s

/-- DMA_REPLY: the reply to an outstanding request of another module arrives (R388). (DESIGN CHOICE: notes/assumptions/52.md.) -/
def State.dmaReply (s : State) (u : DmaUnit) (id : Nat) (status : Status) (v : BitVec 2056) : State :=
  let d := s.dma u
  (match d.outs.find? (fun r => r.id = id && r.failed.isNone && r.kind ≠ .post) with
    | none => s
    | some r =>
      let s1 := s.setDma u { d with outs := d.outs.filter (fun x => x.id ≠ id) }
      let after := r.kind = .readBack || r.kind = .resid || r.kind = .status || r.kind = .own
      if d.code.isSome && !after then
        (if status.toNat ≤ 1 && r.kind ≠ .read then s1.dmaWrote u r r.len
         else if 1 < status.toNat then (match r.entry with | some e => s1.dmaUndelivered u e | none => s1)
         else s1)
      else (s1.dmaAnswer u r status.toNat v.toNat).dmaGo u)

/-- DMA_REPLY (R374, R383, R388). -/
def execDmaReply (u : DmaUnit) (id : Nat) (status : Status) (v : BitVec 2056) (s : State) : Res :=
  .next (s.inwardDma (s.redirDma u) (fun s => s.dmaReply (s.redirDma u) id status v))

/-- Issue a failed request again (R389). -/
def State.dmaAgain (s : State) (u : Nat) (r : DmaReq) : State :=
  let d := s.dma u
  let s0 := s.setDma u { d with outs := d.outs.filter (fun x => x.id ≠ r.id) }
  if r.failed = some viaHold then
    let write : Bool := match r.kind with | .read | .desc | .prog | .list | .readBack => false | _ => true
    let b := s0.dmaBypass u r.addr (max r.len 8) write
    if b.1 then b.2.dmaIssue u { r with failed := none } else b.2.dmaAwait u r
  else
    let d1 := s0.dma u
    let s1 := (s0.setDma u { d1 with retries := min 0xFFFF (d1.retries + 1) }).bump DMA_COUNT_RETRIES u 0
    s1.dmaIssue u { r with failed := none, tries := r.tries + 1 }

/-- DMA_RETRY: a retry gap has passed, and the request issues again (R389). An access that the translation unit held, or that waited
for a write-back, issues again too. -/
def execDmaRetry (u : DmaUnit) (id : Nat) (s : State) : Res :=
  .next (match (s.dma u).outs.find? (fun r => r.id = id && r.failed.isSome && r.entry.isNone) with
    | none => s
    | some r => if s.dmaPaused u then s else (s.dmaAgain u r).dmaGo u)

/-- DMA_REPLY_TIMEOUT: no reply has come within REPLY_TO (R388, R389). -/
def execDmaReplyTimeout (u : DmaUnit) (id : Nat) (s : State) : Res :=
  let d := s.dma u
  .next (match d.outs.find? (fun r => r.id = id && r.failed.isNone) with
    | none => s
    | some r =>
      let s1 := s.setDma u { d with outs := d.outs.filter (fun x => x.id ≠ id) }
      let after := r.kind = .readBack || r.kind = .resid || r.kind = .status || r.kind = .own
      if d.code.isSome && !after then s1 else (s1.dmaAnswer u r 0x0305 0).dmaGo u)

/-- DMA_WAIT_TIMEOUT: a WAIT has lasted its TIMEOUT (R381). -/
def execDmaWaitTimeout (u : DmaUnit) (s : State) : Res :=
  let d := s.dma u
  .next (match d.wait with
    | some (.word _ a _ lim) => if lim = 0 then s else s.dmaEnd u 0x0303 0 d.pc a
    | some (.events _ lim) => if lim = 0 then s else s.dmaEnd u 0x0303 0 d.pc 0
    | none => s)

/-- A copy of a fabric Deal was answered DEAL_NAK: it is sent again, FAB_DEAL.LIMIT times at most (R447). -/
def State.dmaNak (s : State) (u id : Nat) : State :=
  let d := s.dma u
  match d.outs.find? (fun r => r.id = id && r.failed.isNone && r.entry.isSome) with
  | none => s
  | some r =>
    let s1 := s.setDma u { d with outs := d.outs.filter (fun x => x.id ≠ id) }
    if r.tries < s.fld FAB_DEAL_LIMIT 0 0 && d.code.isNone then s1.dmaAwait u { r with failed := some 0x0385 }
    else (s1.dmaUndelivered u (r.entry.getD 0)).dmaGo u

/-- FAB_DEAL_RESEND: FAB_DEAL.GAP has passed, and a NAKed copy is sent again (R447). -/
def execFabDealResend (u : DmaUnit) (id : Nat) (s : State) : Res :=
  let d := s.dma u
  .next (match d.outs.find? (fun r => r.id = id && r.failed.isSome && r.entry.isSome) with
    | none => s
    | some r =>
      let s1 := s.setDma u { d with outs := d.outs.filter (fun x => x.id ≠ id) }
      if d.code.isSome then s1 else s1.dmaIssue u { r with failed := none, tries := r.tries + 1 })

/-! ### Completion (R392, R393) -/

/-- Words 2 to 4 of the descriptor (R368). -/
def statusWords (d : Dma) : Nat :=
  ofWords [d.code.getD 0 <<< 48 + d.cause <<< 32 + (d.endPc % 2 ^ 12) <<< 20 + d.retries, d.bytes, d.faultAddr.toNat]

/-- The last step: mailbox and line of a core channel, HEAD and DONE of a bulk channel (R364, R392, R393). -/
def State.dmaFinish (s : State) (u : Nat) : State :=
  let d := s.dma u
  let code := d.code.getD 0
  let s1 := ((s.setFld DMA_STAT_LAST_CODE u 0 code).setFld DMA_STAT_LAST_CAUSE u 0 d.cause).setFld DMA_STAT_PC u 0 d.endPc
  let s2 := s1.setDma u { nextId := d.nextId }
  let s3 := if d.descFault.isSome then s2.setFld DMA_STAT_DESC_FAULT u 0 1 else s2
  let halt := d.descFault.isSome || (u < 256 && code ≠ 0)
  let s4 := s3.setFld DMA_STAT_STATE u 0 (if halt then 4 else 0)
  match dmaCore u with
  | some c =>
    let st := d.descFault.getD code
    let s5 := match d.thread, d.mb with
      | some t, some m => s4.mbReply c t m st (BitVec.ofNat 64 d.bytes)
      | _, _ => s4
    if d.irq then s5.setLine c (2 + (u - 256) % 2) else s5
  | none =>
    if d.descFault.isSome then s4
    else (((s4.bumpWrap DMA_COUNT_DONE u 0).setFld DMA_HEAD_INDEX u 0 (s4.fld DMA_HEAD_INDEX u 0 + 1)).dmaKick u)

/-- The steps of a completion, as far as they go without a reply to come. (DEDUCED: notes/assumptions/51.md.) -/
def State.dmaComplete (s : State) (u : Nat) : Nat → State
  | 0 => s
  | f + 1 =>
    let d := s.dma u
    if !d.outs.isEmpty then s
    else match d.stage with
      | 0 => match d.lastWrite with
        | some a => (s.dmaNew u .readBack a 8 0 0).dmaComplete u f
        | none => (s.setDma u { d with stage := 1 }).dmaComplete u f
      | 1 =>
        if d.code = some 0x0304 && d.resid ≠ 0 then
          (s.dmaNew u .resid d.resid 32 (d.undelivered.foldl (fun a i => a + 2 ^ i) 0) 0).dmaComplete u f
        else (s.setDma u { d with stage := 2 }).dmaComplete u f
      | 2 => (s.dmaNew u .status (addOff d.descAddr 16) 24 (statusWords d) 0).dmaComplete u f
      | 3 => (s.dmaNew u .own d.descAddr 8 (d.w0.toNat % 2 ^ 63) 0).dmaComplete u f
      | _ => s.dmaFinish u

/-- DMA_COMPLETION: a run that has ended goes through the steps of R392; a step that waits for another module goes on after its
reply. -/
def execDmaCompletion (u : DmaUnit) (s : State) : Res :=
  .next (if (s.dma u).code.isSome && !s.dmaPaused u then s.dmaComplete u 6 else s)

end Sys2Proof.Machine
end

