-- ==== Sys2Proof/Machine/Tu.lean ====
section
/-!
DEFINITION. Translation lookups, range entries and syncs, and the retirement of HBM pages and pseudo-channels (R403 to R418).
-/
namespace Sys2Proof.Machine

/-! ### Lookups (R409 to R414) -/

/-- A lookup in the store, of a virtual module ID first where the address names another module (R409, R410). -/
def State.storeLook (s : State) (x : Lookup) : Lk :=
  let mid := x.addr.toNat >>> 48
  let off := x.addr.toNat % 2 ^ 48
  let id := s.fld MODULE_ID_ID 0 0
  let level := if x.sup then 1 else 0
  if mid = 0xFFFF || (id ≠ 0xFFFF && mid = id) then s.lookEntry x.plot level off x.write
  else if id = 0xFFFF then .fault 6
  else match s.cachedTx (some x.port) x.plot level mid true false with
    | some m => if m.target = id || m.target = 0xFFFF then s.lookEntry x.plot level off x.write else .ok m
    | none => s.lookMid x.plot mid

/-- The lookup that a command names: of a port, by the thread that waits for it if one does. -/
def State.lookupAt (s : State) (port : Nat) (t : Option Nat) : Option Lookup :=
  s.kp.lookups.find? (fun x => x.port = port && x.thread = t)

/-- Replace the lookup of a port and thread. -/
def State.putLookup (s : State) (port : Nat) (t : Option Nat) (x : Option Lookup) : State :=
  let keep := s.kp.lookups.filter (fun y : Lookup => !(y.port = port && y.thread = t))
  s.setKp { s.kp with lookups := keep ++ x.toList }

/-- TU_LOOKUP: the store answers the lookup of a thread's word, or of bulk channel u's next access, which is given here (R409 to R411,
R413); one that finds HOLD set goes on waiting (R414). -/
def execTuLookup (c : CoreId) (t : ThreadId) (bulk : Option (Fin 256 × Word × Bool)) (s : State) : Res :=
  .next (match bulk with
    | some (u, a, write) =>
      let x : Lookup := { port := 10368 + u.val, thread := none, plot := s.fld DMA_BIND_PLOT u 0,
                          sup := s.fld DMA_BIND_LEVEL u 0 = 1, addr := a, write := write }
      s.putLookup x.port none (some { x with ans := match s.storeLook x with | .hold _ => none | r => some r })
    | none => match s.lookupAt c (some t.val) with
      | none => s
      | some x => match s.storeLook x with
        | .hold _ => s
        | r => s.putLookup c (some t.val) (some { x with ans := some r }))

/-- A translation cache's size (R411). -/
def txSize (port : Nat) : Nat := if port < 10368 then 16 else 8

/-- Fill a translation cache; the spec does not say which entry a full cache gives up (notes/assumptions/1.md).
(DESIGN CHOICE: notes/assumptions/54.md.) -/
def State.fillTx (s : State) (port : Nat) (x : TxEntry) : State :=
  let same := fun (y : TxEntry) => y.plot = x.plot && y.mid = x.mid && y.vbase < x.vbase + x.size && x.vbase < y.vbase + y.size
  let l := (Sparse.get [] s.kp.tx port).filter (fun y => !same y)
  let put := fun (l : List TxEntry) (s : State) => s.setKp { s.kp with tx := Sparse.set [] s.kp.tx port (l ++ [x]) }
  if l.length < txSize port then put l s
  else
    let f := s.free
    put (l.eraseIdx (f.1 % l.length)) f.2

/-- The thread's word waits for a lookup. -/
def State.txWaits (s : State) (c t : Nat) : Bool := (s.thr c t).st = .waiting && (s.thr c t).wait = .txHold

/-- TU_LOOKUP_REPLY: the answer lands: the cache is filled and the thread's word issues again, or it takes the fault (R411, R412). -/
def execTuLookupReply (c : CoreId) (t : ThreadId) (bulk : Option (Fin 256)) (s : State) : Res :=
  let port := match bulk with | some u => 10368 + u.val | none => c.val
  let th := match bulk with | some _ => none | none => some t.val
  .next (match s.lookupAt port th with
    | none => s
    | some x => match x.ans with
      | none => s
      | some r =>
        let s1 := s.putLookup port th none
        let waits := th.isSome && s.txWaits c t
        match r with
        | .ok e => let s2 := s1.fillTx port e; if waits then s2.ready c t else s2
        | .fault d => if waits then s1.failWord c t 12 d x.addr 0x0402 else s1
        | .hold _ => s)

/-- TU_HOLD_TIMEOUT: a lookup has waited on HOLD for 1 ms and is answered with a fault of detail 0x07 (R414). -/
def execTuHoldTimeout (ag : TxAgent) (s : State) : Res :=
  .next (match ag with
    | .thread c t => match s.lookupAt c (some t.val) with
      | none => s
      | some x =>
        if x.ans.isSome then s
        else
          let s1 := s.putLookup c (some t.val) none
          if s.txWaits c t then s1.failWord c t 12 7 x.addr 0x0402 else s1
    | .dma u id => match (s.dma u).outs.find? (fun r => r.id = id && r.failed = some viaHold) with
      | none => s
      | some r => (s.noteFault (s.dma u).plot 7 r.addr).dmaAnswer u r 0x0402 0
    | .window f o n =>
      let x := s.fn f
      if !x.reads.contains (o.toNat, n.val) then s
      else
        let s1 := (s.noteFault (s.fld FUNC_BIND_PLOT f 0) 7 (s.winAddr f o.toNat)).setFn f { x with reads := x.reads.erase (o.toNat, n.val) }
        ((s1.bump FUNC_WINERR_RD f 0).setFld FUNC_WINERR_STATUS f 0 0x0402).winAnswer f 1 0)

/-! ### Range entries (R407, R408) -/

/-- The bytes of the range that words 0 and 1 describe. -/
def rangeSpan (w0 w1 : Word) : Nat × Nat :=
  let b := bitsOf w0 47 21 * 2 ^ 21
  (b, b + bitsOf w1 63 32 * (if bitsOf w0 59 59 = 1 then 2 ^ 30 else 2 ^ 21))

/-- The lowest case of R408 that refuses a commit of words 0 and 1 as entry e of a plot; 0 for none. (DESIGN CHOICE: notes/assumptions/54.md.)
(DEDUCED: notes/assumptions/56.md.) -/
def State.rangeErr (s : State) (keeper : Bool) (plot e : Nat) (w0 w1 : Word) : Nat :=
  let big := bitsOf w0 59 59 = 1
  let kind := bitsOf w0 61 60
  let count := bitsOf w1 63 32
  let pbase := bitsOf w1 31 0
  let span := rangeSpan w0 w1
  let meets := (List.range 256).any (fun i => i ≠ e && s.fld TU_RANGE_W0_EN plot i = 1 &&
    (let o := (s.fld TU_RANGE_W0_VBASE plot i * 2 ^ 21, s.fld TU_RANGE_W0_VBASE plot i * 2 ^ 21 + s.rangeCount plot i * s.rangePage plot i)
     span.1 < o.2 && o.1 < span.2))
  let b : PlotBind := Sparse.get {} s.kp.plots plot
  let pool := pbase < 2 ^ 14 && b.pool ≤ pbase && pbase + count ≤ b.pool + b.pooln
  if span.1 < 0x10000000000 || 0x18000000000 < span.2 || (big && bitsOf w0 47 21 % 512 ≠ 0) then 1
  else if meets then 2
  else if !keeper && (kind = 1 || bitsOf w0 56 56 = 1 || s.fld TU_RANGE_W0_KOWN plot e = 1) then 3
  else if kind = 0 && big && (pbase % 512 ≠ 0 || !(List.range count).all (fun i => (s.gibPage plot (pbase + 512 * i)).isSome)) then 4
  else if kind = 0 && !big && !(List.range count).all (fun i => (s.grantPage plot (pbase + i)).isSome) then 4
  else if kind = 1 && (!pool || big) then 5
  else if count = 0 || 262144 < count then 6
  else 0

/-- Commit word 0 of a range entry (R408): what the Keeper or the plot writes. -/
def State.commitRange (s : State) (keeper : Bool) (plot e : Nat) (v : Word) : State :=
  let w0 := RegName.written .TU_RANGE_W0 true 63 0 (s.reg .TU_RANGE_W0 plot e) v
  let w1 := s.reg .TU_RANGE_W1 plot e
  let put := fun (s : State) => ((s.setReg .TU_RANGE_W0 plot e w0).setFld TU_RANGE_W0_KOWN plot e (if keeper then 1 else 0))
  if bitsOf w0 63 63 = 0 then
    (if !keeper && s.fld TU_RANGE_W0_KOWN plot e = 1 then s.setFld TU_WSTAT_WERR plot 0 3 else put s)
  else
    let err := s.rangeErr keeper plot e w0 w1
    if err ≠ 0 then s.setFld TU_WSTAT_WERR plot 0 err
    else
      let s1 := put s
      { s1 with tuW1 := Sparse.set 0 s1.tuW1 (plot * 256 + e) w1 }

/-- The module offset of a register of a plot's translation unit (R422). -/
def tuOff (plot off : Nat) : Nat := 0x20070000000 + plot * 0x100000 + off

/-- TU_RANGE_COMMIT: a write of word 0 of a range entry (R407, R408). (DEDUCED: notes/assumptions/56.md.) -/
def execTuRangeCommit (ag : Agent) (plot : Fin 64) (e : Fin 256) (v : Word) (s : State) : Res :=
  .next (s.regWrite ag (tuOff plot (0x1000 + 16 * e)) 8 (fun s => s.commitRange ag.keeper plot e v))

/-! ### Syncs (R413) -/

/-- TU_SYNC: a write of TU_SYNC; GO starts a sync unless one is in progress. -/
def execTuSync (ag : Agent) (plot : Fin 64) (v : Word) (s : State) : Res :=
  .next (s.regWrite ag (tuOff plot 8) 8 (fun s =>
    let s1 := s.setReg .TU_SYNC plot 0 (RegName.written .TU_SYNC true 63 0 (s.reg .TU_SYNC plot 0) v)
    if bitsOf v 63 63 = 0 || s.fld TU_SYNC_DONE plot 0 = 0 then s1
    else
      (s1.setFld TU_SYNC_DONE plot 0 0).setKp { s1.kp with syncs := Sparse.put s1.kp.syncs plot.val (bitsOf v 47 21, bitsOf v 18 0) }))

/-- A translation that a sync of pages [v, v + n) drops; n = 0 covers everything. -/
def txDropped (plot v n : Nat) (x : TxEntry) : Bool :=
  x.plot = plot && (n = 0 || (!x.mid && v * 2 ^ 21 < x.vbase + x.size && x.vbase < (v + n) * 2 ^ 21))

/-- Every translation cache drops the plot's translations that overlap a range. -/
def State.dropTx (s : State) (plot v n : Nat) : State :=
  s.setKp { s.kp with tx := Sparse.mapVals [] (fun l : List TxEntry => l.filter (fun x => !txDropped plot v n x)) s.kp.tx }

/-- TU_SYNC_DONE: every cache has dropped what overlaps the range and DONE reads 1 (R413). -/
def execTuSyncDone (plot : Fin 64) (s : State) : Res :=
  .next (if s.fld TU_SYNC_DONE plot 0 = 1 then s
    else
      let r := Sparse.get (0, 0) s.kp.syncs plot.val
      ((s.dropTx plot r.1 r.2).setKp { (s.dropTx plot r.1 r.2).kp with syncs := s.kp.syncs.filter (fun e => e.1 ≠ plot.val) }).setFld
        TU_SYNC_DONE plot 0 1)

/-! ### Retirement (R415 to R418) -/

/-- The pages of a stack. -/
def stackPages : Nat := 17152

/-- A page of the retirement reserve (R415). -/
def State.inReserve (s : State) (p pg : Nat) : Bool := stackPages - s.fld HBM_CFG_RESERVE p 0 ≤ pg && pg < stackPages

/-- A reserve page that may replace a page of pseudo-channel q: free, and in another pseudo-channel in service. -/
def State.canReplace (s : State) (p q pg : Nat) : Bool :=
  s.inReserve p pg && pg % 32 ≠ q && nbit (s.fld HBM_STAT_PC_OFF p 0) (pg % 32) = 0
    && !(s.stack p).used.contains pg && !(s.stack p).retired.contains pg

/-- The reserve pages that may replace a page of pseudo-channel q. (DESIGN CHOICE: notes/assumptions/55.md.) -/
def State.replacements (s : State) (p q : Nat) : List Nat :=
  ((List.range (s.fld HBM_CFG_RESERVE p 0)).map (fun i => stackPages - s.fld HBM_CFG_RESERVE p 0 + i)).filter (s.canReplace p q)

/-- The pattern of a poisoned code word: check symbols written so that every read decodes as an error of two symbols, K0 and K1 (R402).
(DESIGN CHOICE: notes/assumptions/4.md.) -/
def poison : Nat := symPat 34 1 + symPat 35 1

/-- Poison every uncorrectable code word of a page. -/
def State.poisonPage (s : State) (p pg : Nat) : State :=
  let a := hbmAddr p (pg * 2 ^ 21) / 32
  { s with bad := s.bad.map (fun e => if a ≤ e.1 && e.1 < a + 65536 && s.uncorrectable (e.1 * 32) then (e.1, poison) else e) }

/-- Copy a page, corrected; an uncorrectable code word is written poisoned, and every one of a page that cannot be read at all (R415,
R417). (DESIGN CHOICE: notes/assumptions/55.md.) -/
def State.copyPage (s0 : State) (p pg dst : Nat) (dead : Bool) : State :=
  let a := hbmAddr p (pg * 2 ^ 21)
  let s := s0.bad.foldl (fun s e => if a / 32 ≤ e.1 && e.1 < a / 32 + 65536 then s.asRead (e.1 * 32) else s) s0
  let b := hbmAddr p (dst * 2 ^ 21)
  let s1 := s.initBytes b (2 ^ 21)
  let bytes := if dead then [] else s.mem.filter (fun e => a ≤ e.1 && e.1 < a + 2 ^ 21)
  let s2 := bytes.foldl (fun s e => s.setByte (b + (e.1 - a)) e.2) s1
  let worse := if dead then (List.range 65536).map (fun i => a / 32 + i)
    else (s.bad.filter (fun e => a / 32 ≤ e.1 && e.1 < a / 32 + 65536 && s.uncorrectable (e.1 * 32))).map (·.1)
  worse.foldl (fun s w => s.setPat ((b / 32 + (w - a / 32)) * 32) poison) s2

/-- The override extent that a page's new place takes: the one that held the page, else the lowest free one (R415). -/
def State.freeOverride (s : State) (n i : Nat) : Option Nat :=
  if i < 8 then some i else (List.range 8).find? (fun k => s.fld TU_GRANT_g_EN n k = 0)

/-- The range entries of a plot that map grant-relative page g, by the virtual pages they map it at. -/
def State.dropPage (s : State) (n g : Nat) : State :=
  (List.range 256).foldl (fun s e =>
    let base := s.rangeBase n e
    let pages := s.rangeCount n e * (s.rangePage n e / 2 ^ 21)
    if s.fld TU_RANGE_W0_EN n e = 1 && s.fld TU_RANGE_W0_KIND n e = 0 && base ≤ g && g < base + pages then
      s.dropTx n (s.fld TU_RANGE_W0_VBASE n e) pages
    else s) s

/-- A page that stays in service with its uncorrectable code words poisoned, and the record of it (R415, R416).
(DESIGN CHOICE: notes/assumptions/55.md.) -/
def State.keepPage (s : State) (p pg plot : Nat) : State :=
  (s.poisonPage p pg).faultRec 0x12 0 plot 0x0401 (hbmAddr p (pg * 2 ^ 21))

/-- The address of a page in a record. -/
def pageLoc (p pg : Nat) : Nat := hbmAddr p (pg * 2 ^ 21)

/-- Retire one page (R415, R416): moved to a reserve page of another pseudo-channel, under HOLD of the entries that map it, or left in
service where no reserve page or override extent is free. `act` is the record's ACTION. Answers whether it moved.
(DESIGN CHOICE: notes/assumptions/55.md.) -/
def State.retirePage (s : State) (p pg act : Nat) (dead : Bool) : Bool × State :=
  let l := s.replacements p (pg % 32)
  let k := s.stack p
  let plot := match s.grantOf p pg with | some (n, _, _) => n | none => 0xFF
  if l.isEmpty then (false, (s.setFld HBM_STAT_RESERVE_OUT p 0 1).keepPage p pg plot)
  else
    let f := s.free
    let dst := l.getD (f.1 % l.length) 0
    let book := fun (s : State) =>
      ((s.setStack p { s.stack p with retired := (s.stack p).retired ++ [pg], used := (s.stack p).used ++ [dst] }).bump HBM_STAT_RETIRED p 0).faultRec
        0x02 act plot 0 (pageLoc p pg)
    match s.grantOf p pg with
    | some (n, i, g) => match s.freeOverride n i with
      | none => (false, s.keepPage p pg n)
      | some o =>
        let s1 := (f.2.dropPage n g).copyPage p pg dst dead
        let w := 1 <<< 63 + p <<< 56 + g <<< 38 + dst <<< 18 + 1
        (true, book (s1.setReg .TU_GRANT_g n o (BitVec.ofNat 64 w)))
    | none =>
      let s1 := f.2.copyPage p pg dst dead
      (true, book (s1.setStack p { k with moved := Sparse.put k.moved pg dst }))

/-- PAGE_RETIRE: the Keeper retires page `pg` of stack p (R415, R416). -/
def execPageRetire (p : Fin 8) (pg : Fin 17152) (s : State) : Res :=
  .next (if (s.stack p).retired.contains pg.val || s.inReserve p pg && !(s.stack p).used.contains pg.val then s
    else (s.retirePage p pg 0x08 false).2)

/-- PC_RETIRE: every page of pseudo-channel q that is in service moves, its reserve pages leave the reserve, and the controller no longer
accesses it; pages left in service for want of a reserve set DEGRADED (R417). `dead` lists pages that cannot be read at all. -/
def execPcRetire (p : Fin 8) (q : Fin 32) (dead : List (Fin 17152)) (s : State) : Res :=
  .next (if nbit (s.fld HBM_STAT_PC_OFF p 0) q = 1 then s
    else
      let pages := ((List.range 536).map (fun i => 32 * i + q.val)).filter (fun g =>
        !(s.stack p).retired.contains g && !(s.inReserve p g && !(s.stack p).used.contains g))
      let r := pages.foldl (fun (a : Bool × State) g =>
        let x := a.2.retirePage p g 0x09 (dead.any (fun d => d.val = g))
        (a.1 && x.1, x.2)) (true, s)
      if r.1 then r.2.setFld HBM_STAT_PC_OFF p 0 (r.2.fld HBM_STAT_PC_OFF p 0 ||| 2 ^ q.val)
      else r.2.setFld HBM_STAT_DEGRADED p 0 1)

/-- HBM_PAGE_ZEROISE: a page removed from a plot's grants is zeroised (R418). -/
def execHbmPageZeroise (p : Fin 8) (pg : Fin 17152) (s : State) : Res :=
  let k := s.stack p
  .next (if !(k.dirty.any (fun e => e.1 ≤ pg.val && pg.val < e.1 + e.2)) then s
    else
      let cut := k.dirty.flatMap (fun e : Nat × Nat =>
        if e.1 ≤ pg.val && pg.val < e.1 + e.2 then
          [(e.1, pg.val - e.1), (pg.val + 1, e.1 + e.2 - pg.val - 1)].filter (fun x => x.2 ≠ 0)
        else [e])
      (s.initBytes (hbmAddr p (pg * 2 ^ 21)) (2 ^ 21)).setStack p { k with dirty := cut })

/-- HBM_POWER_DOWN: a pseudo-channel with no request queued for 1 µs enters power-down (R403). -/
def execHbmPowerDown (p : Fin 8) (q : Fin 32) (s : State) : Res :=
  let k := s.stack p
  .next (s.setStack p { k with pdown := k.pdown ||| 2 ^ q.val })

end Sys2Proof.Machine
end

