-- ==== Sys2Proof/Machine/FabOps.lean ====
section
/-!
DEFINITION. The operations of the fabric: messages and frames as bytes, ports and credit, spaces and connections, packing what the
module's agents send, and delivering replies to them (R427 to R439, R444 to R449).
-/
namespace Sys2Proof.Machine

/-! ### Bytes (R427 to R429, R435, R439) -/

/-- The operations whose payload LEN counts (R440); a READ's LEN counts the bytes wanted. -/
def FabMsg.payload (m : FabMsg) : Nat := if m.op = 0x01 then 0 else m.len

/-- A message is a reply. -/
def FabMsg.isReply (m : FabMsg) : Bool := 0x80 ≤ m.op && m.op ≤ 0x85

/-- The bytes of a message: its header, and its payload padded to a multiple of 8. -/
def FabMsg.bytes (m : FabMsg) : List Nat :=
  let n := m.payload
  [m.op, (if m.kw then 128 else 0) + (if m.sup then 64 else 0) + m.plot % 64, m.epoch % 256, m.len % 256]
    ++ beBytes m.tag 4 ++ beBytes m.off 6 ++ beBytes m.strm 2 ++ beBytes m.arg 8
    ++ leBytes m.data n ++ List.replicate ((8 - n % 8) % 8) 0

/-- Read n messages; what is left must be long enough. -/
def readMsgs (l : List Nat) : Nat → List FabMsg
  | 0 => []
  | n + 1 =>
    if l.length < 24 then []
    else
      let b1 := l.getD 1 0
      let m : FabMsg :=
        { op := l.getD 0 0, kw := 128 ≤ b1 % 256, sup := b1 / 64 % 2 = 1, plot := b1 % 64, epoch := l.getD 2 0, len := l.getD 3 0,
          tag := ofBe (bytesAt l 4 4), off := ofBe (bytesAt l 8 6), strm := ofBe (bytesAt l 14 2), arg := ofBe (bytesAt l 16 8) }
      let p := m.payload
      { m with data := ofLe (bytesAt l 24 p) } :: readMsgs (l.drop (24 + (p + 7) / 8 * 8)) n

/-- The link header (R429) of a frame: kind, LSEQ, LACK, returned credit (pool, cells) and NAK. (DESIGN CHOICE: notes/assumptions/45.md.) -/
def linkHeader (kind lseq lack : Nat) (cred : Nat × Nat) (nak : Bool) : List Nat :=
  beBytes (1 <<< 60 + kind <<< 56 + (lseq % 65536) <<< 32 + (lack % 65536) <<< 16 + (cred.1 / 2) <<< 14 + (cred.1 % 2) <<< 13
    + (if nak then 1 else 0) <<< 12 + cred.2 % 4096) 8

/-- The transport header (R435). -/
structure TpHeader where
  smod : Nat
  dmod : Nat
  vc : Nat
  resp : Bool
  opening : Bool
  close : Bool
  busy : Bool
  enc : Bool
  key : Nat
  msgs : Nat
  gen : Nat
  tseq : Nat
  tack : Nat
  sack : Nat
  deriving DecidableEq, Repr

/-- A Bool as a bit. -/
def bit (b : Bool) : Nat := if b then 1 else 0

/-- The 24 bytes of a transport header. -/
def TpHeader.bytes (h : TpHeader) : List Nat :=
  beBytes h.smod 2 ++ beBytes h.dmod 2
    ++ [h.vc * 64 + bit h.resp * 32 + bit h.opening * 16 + bit h.close * 8 + bit h.busy * 4 + bit h.enc * 2 + h.key % 2, h.msgs, h.gen, 0]
    ++ beBytes h.tseq 4 ++ beBytes h.tack 4 ++ beBytes h.sack 8

/-- The transport header that 24 bytes spell. (DESIGN CHOICE: notes/assumptions/45.md.) -/
def readTp (l : List Nat) : TpHeader :=
  let b := l.getD 4 0
  { smod := ofBe (bytesAt l 0 2), dmod := ofBe (bytesAt l 2 2), vc := b / 64 % 4, resp := b / 32 % 2 = 1, opening := b / 16 % 2 = 1,
    close := b / 8 % 2 = 1, busy := b / 4 % 2 = 1, enc := b / 2 % 2 = 1, key := b % 2, msgs := l.getD 5 0, gen := l.getD 6 0,
    tseq := ofBe (bytesAt l 8 4), tack := ofBe (bytesAt l 12 4), sack := ofBe (bytesAt l 16 8) }

/-! ### Ports, credit and routes (R432, R445) -/

/-- Replace the fabric's state. -/
def State.setFab (s : State) (f : Fab) : State := s.setKp { s.kp with fab := f }

/-- A port. -/
def State.fport (s : State) (m : Nat) : FabPort := Sparse.get {} s.kp.fab.ports m

/-- Replace a port. -/
def State.setPort (s : State) (m : Nat) (p : FabPort) : State :=
  s.setFab { s.kp.fab with ports := Sparse.set {} s.kp.fab.ports m p }

/-- The keys of routed ports for a peer, which outlast a connection (R450). (DESIGN CHOICE: notes/assumptions/46.md.) -/
def State.peerKeys (s : State) (peer : Nat) : FabKeys := Sparse.get {} s.kp.fab.peerKeys peer

/-- Replace the keys of a peer. -/
def State.setPeerKeys (s : State) (peer : Nat) (k : FabKeys) : State :=
  s.setFab { s.kp.fab with peerKeys := Sparse.set {} s.kp.fab.peerKeys peer k }

/-- The connection with a peer. -/
def State.conn (s : State) (peer : Nat) : Option Conn := (s.kp.fab.conns.find? (fun e => e.1 = peer)).map (·.2)

/-- Replace or add the connection with a peer. -/
def State.setConn (s : State) (peer : Nat) (c : Conn) : State :=
  let s1 := s.setFab { s.kp.fab with conns := Sparse.put s.kp.fab.conns peer c }
  s1.setFld FAB_CONN_IN_USE 0 0 s1.kp.fab.conns.length

/-- Free the connection with a peer. -/
def State.dropConn (s : State) (peer : Nat) : State :=
  let s1 := s.setFab { s.kp.fab with conns := Sparse.erase s.kp.fab.conns peer }
  s1.setFld FAB_CONN_IN_USE 0 0 s1.kp.fab.conns.length

/-- A space of a connection. -/
def Conn.space (c : Conn) (k : Nat) : Space := Sparse.get {} c.spaces k

/-- Replace a space. -/
def Conn.setSpace (c : Conn) (k : Nat) (x : Space) : Conn := { c with spaces := Sparse.set {} c.spaces k x }

/-- The port is UP. -/
def State.portUp (s : State) (m : Nat) : Bool := s.fld PORT_STAT_STATE m 0 = 3

/-- The port is routed. -/
def State.portRouted (s : State) (m : Nat) : Bool := s.fld PORT_CFG_MODE m 0 = 1

/-- The ports of the mask that governs a peer, by the lowest-numbered entry that holds it (R445). -/
def State.portMask (s : State) (peer : Nat) : Nat :=
  match (List.range 1024).find? (fun r => s.fld PT_ENTRY_W0_EN 0 r = 1 && s.fld PT_ENTRY_W0_LO 0 r ≤ peer && peer ≤ s.fld PT_ENTRY_W0_HI 0 r) with
  | some r => s.fld PT_ENTRY_W1_PORTS 0 r
  | none => 0

/-- The ports that may carry a frame to a peer: those of its mask that are UP. -/
def State.portsTo (s : State) (peer : Nat) : List Nat := (List.range 32).filter (fun m => nbit (s.portMask peer) m = 1 && s.portUp m)

/-- The cells of a frame (R432). -/
def cellsOf (enc : Bool) (msgs : List FabMsg) : Nat :=
  (24 + (msgs.flatMap FabMsg.bytes).length + (if enc then 16 else 0) + 63) / 64

/-- The largest frame that a port sends, from the transport header to the tag (R428). -/
def State.frameMax (s : State) (m : Nat) : Nat :=
  if s.portRouted m then s.fld PORT_VLAN_MTU m 0 - (if s.fld FAB_CFG_IPV6 0 0 = 1 then 40 else 20) - 8 else 9216 - 14 - 8 - 4

/-- The whole cells for which a direct port's 256 KiB replay buffer has room (R431). -/
def FabPort.replayRoom (p : FabPort) : Nat := (2 ^ 18 - 8 - p.replay.foldl (fun a e => a + e.2.length) 0) / 64

/-- The cells that a frame by port m may take in pool k: credit and replay room of a direct port (R431, R432). -/
def State.cellsFree (s : State) (m k : Nat) : Nat :=
  if s.portRouted m then 2 ^ 20 else min (Sparse.get 0 (s.fport m).credit k) (s.fport m).replayRoom

/-- A port drains or is fenced (R640). -/
def State.portFenced (s : State) (m : Nat) : Bool := Sparse.get 0 s.kp.fences (20000 + m) ≠ 0

/-- The frame's port: of a direct mask one that holds credit, of a routed mask the space's own while it is UP (R445).
(DESIGN CHOICE: notes/assumptions/46.md.) -/
def State.pickPort (s : State) (peer k cells : Nat) (x : Space) : Option Nat :=
  let l := s.portsTo peer
  match x.port with
  | some m => if l.contains m then some m else l.head?
  | none => l.find? (fun m => cells ≤ s.cellsFree m k)

/-! ### Sending frames (R428 to R436, R449, R452) -/

/-- The first pool whose credit a port owes. -/
def FabPort.firstOwed (p : FabPort) : Nat × Nat := (p.owed.find? (fun e => e.2 ≠ 0)).getD (0, 0)

/-- The routed fields of a frame: peer, DSCP, and where a tag is sent the 802.1Q priority code above the VLAN ID (R452). -/
def State.routedArgs (s : State) (m peer vc : Nat) : List Nat :=
  [peer, s.fld PORT_QOS_DSCP m 0 vc, if s.fld PORT_VLAN_EN m 0 = 1 then 2 ^ 16 + (7 - 2 * vc) * 2 ^ 13 + s.fld PORT_VLAN_VID m 0 else 0]

/-- Send a DATA frame by a direct port: link sequence number, acknowledgement and owed credit in its header, and the frame in the replay
buffer (R429 to R432). -/
def State.sendDirect (s : State) (m k cells : Nat) (body : List Nat) : State :=
  let p := s.fport m
  let o := p.firstOwed
  let bytes := linkHeader 0 p.lnext p.lrx o false ++ body
  let s1 := s.setPort m { p with
    lnext := (p.lnext + 1) % 65536
    replay := p.replay ++ [(p.lnext, bytes)]
    credit := Sparse.set 0 p.credit k (Sparse.get 0 p.credit k - cells)
    owed := Sparse.set 0 p.owed o.1 0 }
  s1.send .frame ([m, 0] ++ bytes)

/-- The header of a frame of a connection's space. -/
def State.tpHeader (s : State) (m peer k : Nat) (c : Conn) (tseq n : Nat) (close busy : Bool) : TpHeader :=
  let x := c.space k
  let key := if s.portRouted m then (s.peerKeys peer).key else (s.fport m).key
  { smod := s.fld MODULE_ID_ID 0 0, dmod := peer, vc := k / 2, resp := k % 2 = 1, opening := c.opening, close := close, busy := busy,
    enc := s.fld PORT_CFG_ENC m 0 = 1 && n ≠ 0, key := key, msgs := n, gen := c.gen, tseq := tseq,
    tack := (x.rx + 2 ^ 32 - 1) % 2 ^ 32, sack := x.got.foldl (fun a g => a + 2 ^ ((g + 2 ^ 32 - x.rx) % 2 ^ 32)) 0 }

/-- Count a frame that is encrypted under its port's or its peer's key (R449). -/
def State.countSealed (s : State) (m peer : Nat) : State :=
  if s.portRouted m then s.setPeerKeys peer { s.peerKeys peer with sealed := (s.peerKeys peer).sealed + 1 }
  else s.setPort m { s.fport m with sealed := (s.fport m).sealed + 1 }

/-- Send a frame of a connection's space by port m. -/
def State.sendFrame (s : State) (m peer k : Nat) (c : Conn) (tseq : Nat) (msgs : List FabMsg) (close busy : Bool) : State :=
  let h := s.tpHeader m peer k c tseq msgs.length close busy
  let body := h.bytes ++ msgs.flatMap FabMsg.bytes
  let s1 := if h.enc then s.countSealed m peer else s
  if s.portRouted m then s1.send .frame ([m, 1] ++ s.routedArgs m peer (k / 2) ++ body)
  else s1.sendDirect m k (if msgs.isEmpty then 0 else cellsOf h.enc msgs) body

/-- The longest prefix of the waiting messages that one frame takes: 32 messages, the size limit, and the cells of credit. -/
def takeMsgs (enc : Bool) (max credit : Nat) (taken : List FabMsg) : List FabMsg → List FabMsg × List FabMsg
  | [] => (taken, [])
  | m :: r =>
    let l := taken ++ [m]
    if 32 < l.length || max < 24 + (l.flatMap FabMsg.bytes).length + 16 || credit < cellsOf enc l then (taken, m :: r)
    else takeMsgs enc max credit l r

/-- Send what waits in a space while its window and its port allow it (R432, R436, R444, R453). -/
def State.pump (s : State) (peer k : Nat) : Nat → State
  | 0 => s
  | n + 1 => match s.conn peer with
    | none => s
    | some c =>
      let x := c.space k
      match x.queue with
      | [] => s
      | q :: _ =>
        match s.pickPort peer k (cellsOf true [q]) x with
        | none => s
        | some m =>
          let routed := s.portRouted m
          let limit := if routed then min 64 x.window else 64
          if limit ≤ x.frames.length then s
          else
            let t := takeMsgs (s.fld PORT_CFG_ENC m 0 = 1) (s.frameMax m) (s.cellsFree m k) [] x.queue
            if t.1.isEmpty then s
            else
              let y := { x with next := (x.next + 1) % 2 ^ 32, queue := t.2, port := if routed then some m else none,
                                frames := x.frames ++ [({ tseq := x.next, msgs := t.1, port := m } : FabFrame)] }
              let c1 := { c with closing := false }.setSpace k y
              ((s.setConn peer c1).sendFrame m peer k c1 x.next t.1 false false).pump peer k n

/-- Send what waits in every space (after credit or acknowledgements come). -/
def State.pumpAll (s : State) : State :=
  s.kp.fab.conns.foldl (fun s e => e.2.spaces.foldl (fun s x => if x.2.queue.isEmpty then s else s.pump e.1 x.1 (x.2.queue.length + 1)) s) s

/-- The connection with a peer, created if there is none (R437); none while all 4,096 are in use. (DESIGN CHOICE: notes/assumptions/46.md.) -/
def State.openConn (s : State) (peer : Nat) : Option (Conn × State) :=
  match s.conn peer with
  | some c => some (c, s)
  | none =>
    if 4096 ≤ s.kp.fab.conns.length then none
    else
      let g := (Sparse.get 0 s.kp.fab.gens peer + 1) % 256
      let c : Conn := { gen := g, opening := true }
      let s1 := s.setFab { s.kp.fab with gens := Sparse.put s.kp.fab.gens peer g }
      some (c, s1.setConn peer c)

/-- Queue a message toward a peer and send what may go. Answers the status that refuses it at once: PEER_UNREACHABLE with no port,
FENCED where every port drains or is fenced, or REFUSED_BUSY with no connection to be had (R445, R640). (DESIGN CHOICE: notes/assumptions/46.md.) -/
def State.fabSend (s : State) (peer k : Nat) (m : FabMsg) : Nat × State :=
  if (s.portsTo peer).isEmpty then (0x0381, s)
  else if (s.portsTo peer).all s.portFenced then (0x0201, s.boundaryCount (portRouter ((s.portsTo peer).headD 0)) FENCE_DROP_CNT_ANSWERED)
  else match s.openConn peer with
    | none => (0x0102, s)
    | some (c, s1) =>
      let x := c.space k
      (0, (s1.setConn peer (c.setSpace k { x with queue := x.queue ++ [m] })).pump peer k (x.queue.length + 2))

/-- An ack-only frame of a space (R436, R437). -/
def State.sendAck (s : State) (peer k : Nat) (close busy : Bool) : State :=
  match s.conn peer, (s.portsTo peer).head? with
  | some c, some m => s.sendFrame m peer k c 0 [] close busy
  | _, _ => s

/-! ### Delivering replies -/

/-- A physical core number, if it is one. -/
def asCore (n : Nat) : Option CoreId := if h : n < 10368 then some ⟨n, h⟩ else none

/-- A thread number. -/
def asThread (n : Nat) : ThreadId := ⟨n % 8, Nat.mod_lt _ (by decide)⟩

/-- A mailbox number. -/
def asMbox (n : Nat) : Fin 4 := ⟨n % 4, Nat.mod_lt _ (by decide)⟩

/-- A scope number. -/
def asScope (n : Nat) : Fin 4 := asMbox n

/-- Land the eight words of a line. -/
def State.landLine (s : State) (c fid status v : Nat) : State :=
  (List.range 8).foldl (fun s k => s.landFetch c fid k status (BitVec.ofNat 64 (v >>> (64 * k)))) s

/-- The reply of a request reaches the agent that made it: `req` is the request as it was sent. -/
def State.deliver (s : State) (req : List Nat) (status v tag : Nat) : State :=
  let a := fun i => req.getD i 0
  let st := BitVec.ofNat 16 status
  if 2 ^ 21 ≤ a 0 then s
  else if 2 ^ 20 ≤ a 0 then
    (if status = 0x0385 then s.dmaNak (a 0 - 2 ^ 20) (a 1)
     else if h : a 0 - 2 ^ 20 < 20992 then s.inwardDma (s.redirDma ⟨a 0 - 2 ^ 20, h⟩) (fun s =>
       s.dmaReply (s.redirDma ⟨a 0 - 2 ^ 20, h⟩) (a 1) st (BitVec.ofNat 2056 v)) else s)
  else match (asCore (a 0)).map s.redir with
    | none => s
    | some c => s.inward c (fun s =>
      let t := asThread (a 1)
      match a 2 with
      | 0 => if a 5 = 0 then s.loadReply c t st (BitVec.ofNat 512 v) else s.mailboxReply c t (asMbox (a 5 - 1)) st (BitVec.ofNat 64 v)
      | 1 => s.writeAck c t (some (a 6)) st
      | 2 => if a 8 = 0 then s.loadReply c t st (BitVec.ofNat 512 v) else s.mailboxReply c t (asMbox (a 8 - 1)) st (BitVec.ofNat 64 v)
      | 3 =>
        if a 5 = 3 || a 5 = 4 then s.writeAck c t (some (a 10)) st
        else s.feReply c t (if a 8 = 0 then none else some (asMbox (a 8 - 1))) st (BitVec.ofNat 64 v) (asScope tag)
      | 4 => s.writeAck c t (some (a 9)) st
      | 5 => s.writeAck c t (some (a 8)) st
      | 8 => s.landLine c (a 5) status v
      | 9 =>
        let r : Fin 64 := ⟨a 6 % 64, Nat.mod_lt _ (by decide)⟩
        if req.length ≤ 7 then s.rowLand c t (asMbox (a 5)) r st (BitVec.ofNat 544 v)
        else (s.rowAck c t (asMbox (a 5)) r st).writeAck c t (some (a 9)) st
      | 10 => s.writeAck c t (some (a 7)) st
      | 12 => s.setThr c t { s.thr c t with sendStatus := some status }
      | 13 => s.writebackAck c (BitVec.ofNat 58 (a 3 / 64)) st
      | _ => s)

/-- A message's reply, or the failure of its connection, counts toward its group; the group's last one reaches the agent. -/
def State.groupReply (s : State) (o : FabOut) (status v tag : Nat) : State :=
  match s.kp.fab.groups.find? (fun g => g.id = o.grp) with
  | none => s
  | some g =>
    let g1 := { g with left := g.left - 1, bad := if g.bad = 0 && 1 < status then status else g.bad,
                       acc := if 1 < status then g.acc else g.acc + v <<< (8 * o.pos) }
    let rest := s.kp.fab.groups.filter (fun x => x.id ≠ g.id)
    if g1.left = 0 then
      (s.setFab { s.kp.fab with groups := rest }).deliver g.req (if g1.bad ≠ 0 then g1.bad else status) g1.acc tag
    else s.setFab { s.kp.fab with groups := rest ++ [g1] }

/-- Answer an outstanding message and forget it. -/
def State.outReply (s : State) (o : FabOut) (status v tag : Nat) : State :=
  (s.setFab { s.kp.fab with outs := s.kp.fab.outs.filter (fun x => x.tag ≠ o.tag) }).groupReply o status v tag

/-! ### Packing what agents send -/

/-- The runs of 1 bits of a mask: first bit and length. -/
def maskRuns (m i : Nat) (open_ : Option Nat) : Nat → List (Nat × Nat)
  | 0 => match open_ with | some a => [(a, i - a)] | none => []
  | n + 1 =>
    if nbit m i = 1 then maskRuns m (i + 1) (some (open_.getD i)) n
    else (match open_ with | some a => [(a, i - a)] | none => []) ++ maskRuns m (i + 1) none n

/-- n bytes cut into pieces of at most 240: position and length (R439). -/
def pieces240 (n : Nat) : List (Nat × Nat) :=
  (List.range ((n + 239) / 240)).map (fun i => (240 * i, min 240 (n - 240 * i)))

/-- The identity of a request's agent: Keeper world, supervisor, plot, epoch, class (R285, R360, R439). (DESIGN CHOICE: notes/assumptions/47.md.) -/
def State.reqWho (s : State) (req : List Nat) : Who × Nat :=
  let a := fun i => req.getD i 0
  if 2 ^ 21 ≤ a 0 then (⟨a 1, a 6, a 7, none, none, a 8, none⟩, 1)
  else if 2 ^ 20 ≤ a 0 then
    let d := s.dma (a 0 - 2 ^ 20)
    let c := bitsOf d.w0 62 61
    (dmaWho (a 0 - 2 ^ 20) d, if d.world = 0 then max 1 c else c)
  else
    let t := if a 1 < 8 then a 1 else (s.core (a 0)).lastIssue
    let w := s.who (a 0) t
    let c := s.fld TCLASS_CLASS (a 0) 0 t
    let w1 := if a 2 = 13 then { w with world := a 7, level := w.level } else w
    (w1, if w.world = 0 then max 1 c else c)

/-- The messages of a request, without tag and identity: operation, offset from the request's address, position of data, LEN, stream,
ARG and payload. -/
def reqMsgs (strm : Nat) (req : List Nat) : List (Nat × Nat × Nat × Nat × Nat × Nat × Nat) :=
  let a := fun i => req.getD i 0
  let dma := decide (2 ^ 20 ≤ a 0 ∧ a 0 < 2 ^ 21)
  let rd := fun (n : Nat) => (pieces240 n).map (fun p => (0x01, p.1, p.1, p.2, 0, 0, 0))
  let wr := fun (op n v st : Nat) => (pieces240 n).map (fun p => (op, p.1, 0, p.2, st, 0, (v >>> (8 * p.1)) % 2 ^ (8 * p.2)))
  if dma then
    match a 2 with
    | 0 => rd (a 4)
    | 1 => wr 0x02 (a 4) (a 5) strm
    | 2 => [(0x10, 0, 0, 0, strm, a 5, 0)]
    | 3 => if a 4 ≤ 1 then [(if a 4 = 1 then 0x20 else 0x21, 0, 0, 0, 0, 0, 0)] else [(0x23, 0, 0, 8, strm, 4 + a 4 % 4, a 5)]
    | 13 => wr 0x08 (a 4) (a 5) strm
    | _ => []
  else match a 2 with
    | 0 | 8 | 11 => rd (a 4)
    | 1 => wr 0x02 (a 4) (a 5) 0
    | 2 => if a 5 = 4 then [(0x14, 0, 0, 8, strm, a 6, a 7)] else [(0x10 + a 5, 0, 0, 0, strm, a 6, 0)]
    | 3 =>
      (match a 5 with
      | 0 => [(0x20, 0, 0, 0, 0, 0, 0)]
      | 1 | 5 => [(0x21, 0, 0, 0, 0, 0, 0)]
      | 2 => [(0x22, 0, 0, 8, a 9, a 7 % 8, a 6)]
      | 3 => [(0x23, 0, 0, 8, a 9, a 7 % 8, a 6)]
      | _ => [(0x24, 0, 0, 0, a 9, a 7 % 8, 0)])
    | 4 => [(0x30 + a 5, 0, 0, 64, 0, if a 5 = 1 then (a 7) <<< 44 + (a 6) <<< 20 else 1, a 8)]
    | 5 => [(0x03, 0, 0, 8, a 6, a 7, a 5)]
    | 6 => [(0x40, 0, 0, 0, 0, a 5 % 256, 0)]
    | 9 => if req.length ≤ 7 then rd (a 4) else wr 0x02 (a 4) (a 7) (a 8)
    | 10 => wr 0x02 (a 4) (a 5) (a 6)
    | 12 =>
      let n := a 4
      let words := ofWords (req.drop 7)
      wr 0x02 (n - 8) (words % 2 ^ (8 * (n - 8))) 0 ++ [(0x23, n - 8, 0, 8, 0, 4 + a 5 % 4, words >>> (8 * (n - 8)))]
    | 14 =>
      (match a 4 with
      | 3 => [(0x23, 0, 0, 8, 0, a 9 % 8, a 5)]
      | 4 => [(0x24, 0, 0, 0, 0, a 9 % 8, 0)]
      | _ => [(0x40, 0, 0, 0, 0, a 5 % 256, 0)])
    | 13 => (maskRuns (a 5) 0 none 64).map (fun r => (0x02, r.1, 0, r.2, 0, 0, (a 6 >>> (8 * r.1)) % 2 ^ (8 * r.2)))
    | _ => []

/-- The remote place that a request's address leads to. -/
def State.reqPlace (s : State) (w : Who) (req : List Nat) : Option (Nat × Nat) :=
  match s.translate w (BitVec.ofNat 64 (req.getD 3 0)) false with
  | .to (.remote m off) => some (m, off)
  | _ => none

/-- The stream of a DMA channel's counted writes is its descriptor's (R350, R368); a core's request carries its own. -/
def State.reqStream (s : State) (req : List Nat) : Nat :=
  let a := req.getD 0 0
  if 2 ^ 20 ≤ a && a < 2 ^ 21 then bitsOf (s.dma (a - 2 ^ 20)).w0 47 32
  else if a < 2 ^ 20 && req.getD 2 0 = 2 then s.streamOf a (req.getD 1 0)
  else 0

/-- Take the next message tag. -/
def State.fabNextTag (s : State) : Nat × State :=
  (s.kp.fab.nextTag, s.setFab { s.kp.fab with nextTag := (s.kp.fab.nextTag + 1) % 2 ^ 24 })

/-- Send a message whose reply nothing here waits for. -/
def State.fabNote (s : State) (peer k : Nat) (m : FabMsg) : State :=
  let x := s.fabNextTag
  (x.2.fabSend peer k { m with tag := x.1 }).2

/-- Send one message of a group. -/
def State.outMsg (s : State) (peer vc : Nat) (w : Who) (off grp : Nat) (x : Nat × Nat × Nat × Nat × Nat × Nat × Nat) : State :=
  let tag := s.kp.fab.nextTag
  let m : FabMsg := { op := x.1, kw := w.world = 1, sup := w.level = 1, plot := w.plot, epoch := w.epoch, len := x.2.2.2.1, tag := tag,
                      off := off + x.2.1, strm := x.2.2.2.2.1, arg := x.2.2.2.2.2.1, data := x.2.2.2.2.2.2 }
  let o : FabOut := { tag := tag, peer := peer, vc := vc, grp := grp, pos := x.2.2.1 }
  let s1 := s.setFab { s.kp.fab with nextTag := (tag + 1) % 2 ^ 24, outs := s.kp.fab.outs ++ [o] }
  let r := s1.fabSend peer (2 * vc + (if x.1 = 0x40 then 1 else 0)) m
  if r.1 = 0 then r.2 else r.2.outReply o r.1 0 0

/-! ### Pot contributions on their way out (R448) -/

/-- The message of a contribution. -/
def FabComb.msg (x : FabComb) : FabMsg :=
  let p := x.part
  { op := 0x30 + p.form.val, kw := x.kw, sup := x.sup, plot := p.plot, epoch := p.epoch, len := 64, tag := p.tags.headD 0,
    off := p.dest.toNat, data := p.payload.toNat,
    arg := p.last <<< 44 + (if p.form = 1 then p.k.val <<< 40 + (p.i % 2 ^ 20) <<< 20 else p.count % 2 ^ 20) }

/-- The contribution that a message carries, answered by `tag`; the leaves of a tagged node are its count. -/
def FabMsg.part (m : FabMsg) (tag : Nat) : PotPart :=
  let form : Fin 3 := if m.op = 0x31 then 1 else if m.op = 0x32 then 2 else 0
  let tagged := m.op = 0x31
  { dest := BitVec.ofNat 64 m.off, form := form, k := if tagged then ⟨m.arg >>> 40 % 16, by omega⟩ else 0,
    i := if tagged then m.arg >>> 20 % 2 ^ 20 else 0, count := if tagged then 1 else m.arg % 2 ^ 20, last := m.arg >>> 44 % 2 ^ 20,
    plot := m.plot, epoch := m.epoch, payload := BitVec.ofNat 512 m.data, tags := [tag] }

/-- A contribution leaves for its peer; the other tags it answers are kept with the one it is sent under. (DESIGN CHOICE: notes/assumptions/49.md.) -/
def State.combOut (s : State) (x : FabComb) : State :=
  let t := x.part.tags.headD 0
  let rest := x.part.tags.drop 1
  let s1 := if rest.isEmpty then s else s.setFab { s.kp.fab with joined := Sparse.put s.kp.fab.joined t rest }
  let r := s1.fabSend x.peer (2 * x.vc) x.msg
  if r.1 = 0 then r.2
  else x.part.tags.foldl (fun s t => match s.kp.fab.outs.find? (fun o => o.tag = t) with
    | some o => s.outReply o r.1 0 0
    | none => s) r.2

/-- Two contributions at a port that travel alike, so that its combiner may join them (R448). -/
def FabComb.mates (a b : FabComb) : Bool :=
  a.out = b.out && a.vc = b.vc && a.kw = b.kw && a.sup = b.sup && (!a.out || a.peer = b.peer)

/-- A contribution enters a port's combiner: it waits, or leaves by `go`, joined with every partner that waits for it there (R317, R318, R448).
(DESIGN CHOICE: notes/assumptions/49.md.) -/
def State.combEnter (s : State) (m : Nat) (x0 : FabComb) (go : State → FabComb → State) : State :=
  let p := s.fport m
  let x := { x0 with part := potPromote x0.part 21 }
  match potGather (p.comb.map (fun y => if y.mates x then some y.part else none)) x.part [] p.comb.length with
  | (j, i :: l) => go (s.setPort m { p with comb := leaveOut p.comb (i :: l) }) { p.comb.getD i x with part := j }
  | (_, []) =>
    if (p.comb.filter (fun y => y.out = x.out)).length < 32 then s.setPort m { p with comb := p.comb ++ [x] } else go s x

/-- Pack a Pot contribution of a thread: it waits for a partner in its egress port's combiner. -/
def State.packPot (s : State) (req : List Nat) (peer vc : Nat) (w : Who) (off grp : Nat) : State :=
  let a := fun i => req.getD i 0
  let t := s.fabNextTag
  let s1 := t.2.setFab { t.2.kp.fab with outs := t.2.kp.fab.outs ++ [{ tag := t.1, peer := peer, vc := vc, grp := grp, pos := 0 }] }
  let form : Fin 3 := if a 5 = 1 then 1 else if a 5 = 2 then 2 else 0
  let x : FabComb :=
    { out := true, peer := peer, vc := vc, kw := w.world = 1, sup := w.level = 1,
      part := { dest := BitVec.ofNat 64 off, form := form, k := 0, i := if form = 1 then a 6 else 0, count := 1,
                last := if form = 1 then a 7 else 0, plot := w.plot, epoch := w.epoch, payload := BitVec.ofNat 512 (a 8), tags := [t.1] } }
  match (s1.portsTo peer).head? with
  | some m => s1.combEnter m x State.combOut
  | none => s1.combOut x

/-- Pack a request of an agent that goes to another module. A Pot contribution waits in its egress port's combiner first (R448). -/
def State.packReq (s : State) (req : List Nat) : State :=
  let r := s.reqWho req
  match s.reqPlace r.1 req with
  | none => s
  | some (peer, off) =>
    let l := reqMsgs (s.reqStream req) req
    if l.isEmpty then s
    else
      let id := s.kp.fab.nextTag
      let s1 := s.setFab { s.kp.fab with groups := s.kp.fab.groups ++ [{ id := id, req := req, left := l.length }] }
      if req.getD 0 0 < 2 ^ 20 && req.getD 2 0 = 4 then s1.packPot req peer r.2 r.1 off id
      else l.foldl (fun s x => s.outMsg peer r.2 r.1 off id x) s1

/-- The tag by which units of this module answer a request that came from the fabric. -/
def fabTag (peer vc tag : Nat) : Nat := 2 ^ 60 + peer <<< 36 + vc <<< 34 + tag % 2 ^ 32

/-- A reply message on the response lane of a request's class (R442). -/
def State.fabReply (s : State) (peer vc : Nat) (m : FabMsg) : State := (s.fabSend peer (2 * vc + 1) m).2

/-- Pack one thing that the module's units have sent, if it goes to another module: a request, the answer of a request that came from
there, or a fired watch whose waiter is there (R338, R454). (DESIGN CHOICE: notes/assumptions/44.md.) -/
def State.packMsg (s : State) (m : Msg) : State :=
  let a := fun i => m.args.getD i 0
  match m.kind with
  | .request => s.packReq m.args
  | .reply =>
    if 2 ^ 60 ≤ a 0 then
      let g := a 0 - 2 ^ 60
      s.fabReply (g >>> 36) (g >>> 34 % 4) { op := 0x80, tag := g % 2 ^ 32, strm := a 1 }
    else s
  | .wake =>
    if 2 ^ 60 ≤ a 2 then
      let g := a 2 - 2 ^ 60
      s.fabNote (g >>> 36) (2 * (g >>> 34 % 4) + 1)
        { op := 0x40, plot := a 3, epoch := a 4, off := bankAddr (a 0) (a 1), arg := 1 <<< 63 + (g % 2 ^ 24) <<< 8 + a 5 }
    else s
  | _ => s

/-- Pack everything sent since the last packing. (DESIGN CHOICE: notes/assumptions/44.md.) -/
def State.egress (s : State) : State :=
  let new := s.sent.drop s.kp.fab.cursor
  let s1 := new.foldl State.packMsg s
  s1.setFab { s1.kp.fab with cursor := s.sent.length }

/-- What a fabric command does, with what was sent before it and by it packed. -/
def State.fabRun (s : State) (f : State → State) : State := (f s.egress).egress

/-! ### Failure (R438) -/

/-- A connection fails: what is outstanding on it is answered with a status, and it is freed; the Keeper reports the peer. -/
def State.failConn (s : State) (peer status : Nat) : State :=
  let mine := s.kp.fab.outs.filter (fun o => o.peer = peer)
  let s1 := (s.dropConn peer).bump FAB_CONN_FAILED 0 0
  (mine.foldl (fun s o => s.outReply o status 0 0) s1).tellManager [1, peer, status]

end Sys2Proof.Machine
end

