-- ==== Sys2Proof/Machine/Image.lean ====
section
/-!
DEFINITION. Layout images: their bytes, the checks of an image and what applying one writes (R495 to R529).
-/
namespace Sys2Proof.Machine

/-! ### Bytes (R497 to R502) -/

/-- n bytes of an image from byte i, little-endian. -/
def imgLe (b : List Nat) (i n : Nat) : Nat := ofLe (bytesAt b i n)

/-- A directory entry: index, type, offset and length. -/
structure ImgSec where
  idx : Nat
  typ : Nat
  off : Nat
  len : Nat
  deriving DecidableEq, Repr

/-- The directory of an image. -/
def imgSecs (b : List Nat) : List ImgSec :=
  (List.range (imgLe b 12 2)).map (fun j => ⟨j, imgLe b (64 + 16 * j) 2, imgLe b (68 + 16 * j) 4, imgLe b (72 + 16 * j) 4⟩)

/-- The record size of a section type; none for a reserved type (R501). -/
def recSize (typ : Nat) : Option Nat :=
  [(1, 32), (2, 8), (3, 16), (4, 16), (5, 8), (6, 8), (7, 16), (8, 16), (9, 8), (10, 8), (11, 24), (12, 16), (13, 16), (14, 16)].lookup typ

/-- The records of a section type, each as its words. -/
def imgRecs (b : List Nat) (typ : Nat) : List (List Nat) :=
  match (imgSecs b).find? (fun x => x.typ = typ), recSize typ with
  | some x, some n => (List.range (x.len / n)).map (fun r => (List.range (n / 8)).map (fun w => imgLe b (x.off + n * r + 8 * w) 8))
  | _, _ => []

/-- Bits [hi:lo] of word w of a record. -/
def rf (r : List Nat) (w hi lo : Nat) : Nat := nbits (r.getD w 0) hi lo

/-- The image is a partial one. -/
def imgPartial (b : List Nat) : Bool := imgLe b 6 1 = 1

/-! ### The checks (R518 to R520) -/

/-- A failure: detail, directory index and record index (R521). -/
abbrev ImgBad := Nat × Nat × Nat

/-- Check 1: header, length and directory (details 0x01 to 0x03); `named` is the length that the command names. -/
def State.imgHeader (s : State) (b : List Nat) (named : Nat) : Option ImgBad :=
  let kind := imgLe b 6 1
  let n := imgLe b 8 4
  let nsec := imgLe b 12 2
  let secs := imgSecs b
  let badSec := secs.find? (fun x =>
    (match recSize x.typ with | none => true | some k => x.len % k ≠ 0)
      || x.off % 8 ≠ 0 || x.off < 64 + 16 * nsec || n < x.off + x.len + 104
      || secs.any (fun y => y.idx < x.idx && (y.typ = x.typ || (x.off < y.off + y.len && y.off < x.off + x.len))))
  if imgLe b 0 4 ≠ 0x494C5A53 || imgLe b 4 2 ≠ 1 || 1 < kind || imgLe b 14 1 ≠ s.fld MOD_IDENT_PART 0 0
      || s.fld MOD_IDENT_STEPPING 0 0 < imgLe b 15 1 then some (1, 0xFFFF, 0)
  else if n % 8 ≠ 0 || n ≠ named || n < 64 + 16 + 104 || (if kind = 1 then 2 ^ 20 else 32 * 2 ^ 20) < n then some (2, 0xFFFF, 0)
  else if nsec = 0 || 16 < nsec then some (3, 0xFFFF, 0)
  else badSec.map (fun x => (3, x.idx, 0))

/-- Every bit of `v` outside the masks is zero. -/
def onlyIn (v : Nat) (masks : List Nat) : Bool := v % 2 ^ 64 &&& (m64 - masks.foldl (· ||| ·) 0) = 0

/-- A value that register r may hold: zero outside its fields, defined encodings within them. -/
def RegName.holds (r : RegName) (v : Nat) : Bool :=
  onlyIn v (r.fields.flatMap (fun f => (List.range f.rep).map (fun k => mb (f.hi + k * f.step) (f.lo + k * f.step))))
    && r.fields.all (fun f => (List.range f.rep).all (fun k => f.allows (nbits v (f.hi + k * f.step) (f.lo + k * f.step))))

/-- The shares of an ADMIT_CFG image are non-zero and sum to 16 (R493). -/
def admitShares (v : Nat) : Bool :=
  nbits v 11 8 + nbits v 7 4 + nbits v 3 0 = 16 && nbits v 11 8 ≠ 0 && nbits v 7 4 ≠ 0 && nbits v 3 0 ≠ 0

/-- A record's Res0 bits are zero and its encodings are defined (detail 0x05). -/
def recOk (typ : Nat) (r : List Nat) : Bool :=
  let w := fun i => r.getD i 0
  match typ with
  | 1 =>
    onlyIn (w 0) [mb 63 63, mb 61 52, mb 47 40, mb 38 0] && onlyIn (w 1) [mb 61 48, mb 45 32, mb 13 0]
      && onlyIn (w 2) [mb 63 48, mb 45 32, mb 13 0] && onlyIn (w 3) [mb 47 21, mb 17 0]
      && (if rf r 0 63 63 = 0 then onlyIn (w 0) [mb 61 56] && w 1 = 0 && w 2 = 0 && w 3 = 0
          else LEAD_RATE_n_BURST.allows (rf r 0 47 40) && LEAD_RATE_n_RATE.allows (rf r 0 38 32))
  | 2 => onlyIn (w 0) [mb 45 32, mb 13 0]
  | 3 =>
    onlyIn (w 0) [mb 63 60, mb 50 48, mb 42 32, mb 3 0] && rf r 0 42 32 < 1296
      && (match rf r 0 63 60 with
          | 0 => RegName.holds .RTR_OVR_k (w 1)
          | 1 => rf r 0 3 0 = 0 && w 1 < 16
          | _ => false)
  | 4 => w 0 < 8 && RegName.holds .SEAM_CTL (w 1 / 2 ^ 32) && RegName.holds .CLASS_ARB (w 1 % 2 ^ 32)
  | 5 =>
    if rf r 0 63 63 = 0 then onlyIn (w 0) [mb 41 32, mb 15 0]
    else onlyIn (w 0) [mb 63 63, mb 35 16, mb 2 0] && (rf r 0 2 0 = 0 || rf r 0 2 0 = 2)
  | 6 => onlyIn (w 0) [mb 45 32, mb 7 0]
  | 7 => onlyIn (w 0) [mb 13 0] && RegName.holds .QP_BIND (w 1)
  | 8 => onlyIn (w 0) [mb 4 0, mb 9 8]
  | 9 => onlyIn (w 0) [mb 63 61, mb 53 48, mb 10 8, mb 4 0]
  | 10 => onlyIn (w 0) [mb 50 48, mb 17 0]
  | 11 =>
    onlyIn (w 0) [mb 63 60, mb 53 48, mb 11 0]
      && (match rf r 0 63 60 with
          | 1 => RegName.holds .TU_GRANT_g (w 1) && rf r 1 32 18 = 0 && w 2 = 0
          | 2 => RegName.holds .TU_RANGE_W0 (w 1) && rf r 1 63 63 = 1 && rf r 1 62 60 = 0 && rf r 1 56 56 = 0
          | 3 => RegName.holds .TU_MODMAP_v (w 1) && w 2 = 0
          | 4 => rf r 0 53 48 = 0 && RegName.holds .HBM_CFG (w 1) && w 2 = 0
          | _ => false)
  | 12 =>
    (match rf r 0 63 60 with
      | 0 => onlyIn (w 0) [mb 5 0] && RegName.holds .FUNC_BIND (w 1)
      | 1 => onlyIn (w 0) [mb 60 60, 1] && w 1 < 2 ^ 16
      | 2 => w 0 = 2 * 2 ^ 60 && RegName.holds .ADMIT_CFG (w 1) && admitShares (w 1)
      | _ => false)
  | 13 => onlyIn (w 0) [mb 47 0]
  | _ => onlyIn (w 0) [mb 11 0, mb 16 16] && onlyIn (w 1) [mb 7 0]

/-- The first index of a list whose element satisfies p. (DESIGN CHOICE: notes/assumptions/29.md.) -/
def firstBad {α : Type} (l : List α) (p : Nat → α → Bool) : Option Nat :=
  ((List.range l.length).zip l).findSome? (fun x => if p x.1 x.2 then some x.1 else none)

/-- The PLOT record of a bound plot in an image. -/
def imgPlot (b : List Nat) (n : Nat) : Option (List Nat) := (imgRecs b 1).find? (fun r => rf r 0 61 56 = n && rf r 0 63 63 = 1)

/-- Logical core l is one of a PLOT record's cores. -/
def recHasCore (r : List Nat) (l : Nat) : Bool := rf r 1 13 0 ≤ l && l < rf r 1 13 0 + rf r 1 45 32

/-- The grant records of a plot: (index, stack, GBASE, COUNT). -/
def imgGrants (b : List Nat) (n : Nat) : List (Nat × Nat × Nat × Nat) :=
  ((imgRecs b 11).filter (fun r => rf r 0 63 60 = 1 && rf r 0 53 48 = n && rf r 1 63 63 = 1)).map
    (fun r => (rf r 0 11 0, rf r 1 58 56, rf r 1 55 38, rf r 1 14 0))

/-- A grant-relative page of a plot that an image's grants hold. -/
def imgHolds (b : List Nat) (n g : Nat) : Bool := (imgGrants b n).any (fun x => x.2.2.1 ≤ g && g < x.2.2.1 + x.2.2.2)

/-- The virtual offsets of a RANGE record. -/
def recSpan (r : List Nat) : Nat × Nat :=
  let v := rf r 1 47 21 * 2 ^ 21
  (v, v + rf r 2 63 32 * (if rf r 1 59 59 = 1 then 2 ^ 30 else 2 ^ 21))

/-- The pool range of a PLOT record, as virtual offsets. -/
def poolSpan (r : List Nat) : Nat × Nat :=
  let v := rf r 3 47 21 * 2 ^ 21
  (v, v + (rf r 2 45 32 + rf r 2 63 48) * 2 ^ 21)

/-- Two spans share an offset. -/
def meet (a b : Nat × Nat) : Bool := a.1 < b.2 && b.1 < a.2

/-- A PLOT record is wrong on its own (detail 0x06). -/
def plotBad (b : List Nat) (r : List Nat) : Bool :=
  let n := rf r 0 61 56
  let first := rf r 1 13 0
  let count := rf r 1 45 32
  let pool := rf r 2 13 0
  let pooln := rf r 2 45 32
  let spill := rf r 2 63 48
  let service := rf r 1 61 48
  let ps := poolSpan r
  let gb := rf r 3 17 0
  if rf r 0 63 63 = 0 then false
  else
    count = 0 || 10240 < first + count
      || (pooln ≠ 0 && !(first ≤ pool && pool + pooln ≤ first + count))
      || (service ≠ 0x3FFF && (!recHasCore r service || (pool ≤ service && service < pool + pooln)))
      || 262144 < pooln + spill
      || (pooln + spill ≠ 0 && (ps.1 < 0x10000000000 || 0x18000000000 < ps.2))
      || (imgRecs b 11).any (fun x => rf x 0 63 60 = 2 && rf x 0 53 48 = n && meet (recSpan x) ps)
      || (spill ≠ 0 && !(List.range spill).all (fun i => imgHolds b n (gb + i)))

/-- A plot is bound by the image or, for a partial image and another plot, as it stands: its first core and count. -/
def State.plotCores (s : State) (b : List Nat) (n : Nat) : Option (Nat × Nat) :=
  match imgPlot b n with
  | some r => some (rf r 1 13 0, rf r 1 45 32)
  | none =>
    if imgPartial b && n ≠ imgLe b 7 1 && s.fld PLOT_STAT_W0_STATE 0 n ≠ 0 then
      some (s.fld PLOT_STAT_W1_FIRST 0 n, s.fld PLOT_STAT_W1_COUNT 0 n)
    else none

/-- Two bound plots share cores or offsets of their pool ranges (detail 0x06). (DEDUCED: notes/assumptions/29.md.) -/
def plotsMeet (x r : List Nat) : Bool :=
  rf x 0 63 63 = 1 && rf r 0 63 63 = 1
    && (meet (rf x 1 13 0, rf x 1 13 0 + rf x 1 45 32) (rf r 1 13 0, rf r 1 13 0 + rf r 1 45 32)
      || (rf x 2 45 32 + rf x 2 63 48 ≠ 0 && rf r 2 45 32 + rf r 2 63 48 ≠ 0 && meet (poolSpan x) (poolSpan r)))

/-- Detail 0x06. -/
def State.imgPlots (s : State) (b : List Nat) : Option Nat :=
  let l := imgRecs b 1
  let part := imgPartial b
  let lead := (List.range 64).foldl (fun a n => a + (match imgPlot b n with
    | some r => rf r 0 55 52
    | none => if part && n ≠ imgLe b 7 1 then s.fld ADMIT_PLOT_n_LEAD_CMDS 0 n else 0)) 0
  let r := firstBad l (fun i r => plotBad b r || (part && rf r 0 61 56 ≠ imgLe b 7 1)
    || (l.take i).any (fun x => rf x 0 61 56 = rf r 0 61 56 || plotsMeet x r))
  match r with
  | some i => some i
  | none =>
    if 14 < lead then
      some ((firstBad l (fun i _ => 14 < ((l.take (i + 1)).map (fun x => rf x 0 55 52)).sum)).getD 0)
    else none

/-- The spare positions of a parcel, ascending (R28). -/
def spareList (p : Nat) : List Nat := ((List.range 1296).map (fun i => p * 1296 + i)).filter (fun n => isSpare n)

/-- The free spare positions of each parcel, as SPARE_AVAIL shows them: those that hold no logical core and are not fenced for repair (R29). -/
def State.countSpares (s : State) : State :=
  (List.range 8).foldl (fun s p =>
    s.setFld SPARE_AVAIL_FREE 0 0 (((spareList p).filter (fun n => (s.logicalOf n).isNone && Sparse.get 0 s.kp.fences n < 4)).length) p) s

/-- What an image permits of a parcel's spares (R504). -/
def imgSpares (b : List Nat) (p : Nat) : Nat :=
  match (imgRecs b 10).find? (fun r => rf r 0 50 48 = p) with
  | some r => rf r 0 17 0
  | none => 2 ^ 18 - 1

/-- The lowest permitted spare of a parcel that no logical core stands on by a map and that is not itself on the repair record `gone` (R505). -/
def freeSpare (permitted : Nat) (gone : List Nat) (map : Sparse Nat) (p : Nat) : Option Nat :=
  (((List.range 16).zip (spareList p)).find? (fun x => nbit permitted x.1 = 1 && !gone.contains x.2 && !map.any (fun e => e.2 = x.2))).map (·.2)

/-- The logical core that a map places on physical core n. -/
def mapHolder (m : Sparse Nat) (n : Nat) : Option Nat :=
  match m.find? (fun e => e.2 = n) with
  | some e => some e.1
  | none => (defaultLogical n).filter (fun l => !Sparse.has m l)

/-- Graft the logical core of each physical core of a repair record onto the lowest free permitted spare of its parcel (R505). -/
def graftAll (b gone : List Nat) : List Nat → Sparse Nat → Option (Sparse Nat)
  | [], m => some m
  | c :: r, m => match mapHolder m c with
    | none => graftAll b gone r m
    | some l => match freeSpare (imgSpares b (coreP c)) gone m (coreP c) with
      | some n => graftAll b gone r (Sparse.put m l n)
      | none => none

/-- The map of an image without the repair record: its records, over the grafts of the fuses (R30, R503). -/
def State.imgMap (s : State) (b : List Nat) : Sparse Nat :=
  (imgRecs b 2).foldl (fun m r => Sparse.put m (rf r 0 45 32) (rf r 0 13 0)) s.kp.rep.factory

/-- An image's map with the repair record, none where no spare is left for a core of it (R505). -/
def State.imgMapAll (s : State) (b : List Nat) : Option (Sparse Nat) :=
  graftAll b s.kp.img.repaired s.kp.img.repaired (s.imgMap b)

/-- Detail 0x07: a CORE_MAP record whose target is no free, permitted spare of the right parcel (one that factory repair has given another core, or that is
on the repair record, is not free), or a core of the repair record that no spare is left for. -/
def State.imgMapBad (s : State) (b : List Nat) : Option Nat :=
  let l := imgRecs b 2
  let r := firstBad l (fun i r =>
    let c := rf r 0 45 32
    let n := rf r 0 13 0
    10240 ≤ c || 10368 ≤ n || !isSpare n || coreP n ≠ c / 1280
      || nbit (imgSpares b (coreP n)) ((spareList (coreP n)).idxOf n) = 0
      || s.kp.rep.factory.any (fun e => e.2 = n && e.1 ≠ c) || s.kp.img.repaired.contains n
      || (l.take i).any (fun x => rf x 0 45 32 = c || rf x 0 13 0 = n))
  match r with
  | some i => some i
  | none => if (s.imgMapAll b).isNone then some 0 else none

/-- The logical cores of a module island, by the map in force. -/
def State.islandCores (s : State) (g : Nat) : List Nat :=
  ((List.range 1296).filter (fun i => coreIsland (g / 90 * 1296 + i) = g % 90)).filterMap (fun i => s.logicalOf (g / 90 * 1296 + i))

/-- Detail 0x09. `above` is the first record with a step above its half's ceiling. -/
def State.imgClock (s : State) (b : List Nat) (above : Option Nat) : Option Nat :=
  let part := imgPartial b
  let inPlot := fun l => match imgPlot b (imgLe b 7 1) with | some r => recHasCore r l | none => false
  firstBad (imgRecs b 5) (fun i r =>
    let g := rf r 0 41 32
    if above = some i then true
    else if rf r 0 63 63 = 1 then part || rf r 0 31 16 < 0xF0 || 0x168 < rf r 0 31 16
    else 720 ≤ g || rf r 0 15 8 < 32 || 160 < rf r 0 15 8 || rf r 0 7 0 < 32 || 160 < rf r 0 7 0
      || (part && (rf r 0 7 0 ≠ s.fld ISLAND_STATUS_ROUTER_STEP (g / 90) (g % 90) || !(s.islandCores g).all inPlot)))

/-- The world mask that an image gives a logical core (R509). -/
def imgMask (b : List Nat) (l : Nat) : Nat :=
  match (imgRecs b 6).find? (fun r => rf r 0 45 32 = l) with
  | some r => rf r 0 7 0
  | none => 0x80

/-- Detail 0x0A. -/
def imgWorld (b : List Nat) : Option Nat :=
  let l := imgRecs b 6
  let r := firstBad l (fun i r =>
    rf r 0 7 7 = 0 || 10240 ≤ rf r 0 45 32 || (l.take i).any (fun x => rf x 0 45 32 = rf r 0 45 32)
      || (imgPartial b && !(match imgPlot b (imgLe b 7 1) with | some p => recHasCore p (rf r 0 45 32) | none => false)))
  match r with
  | some i => some i
  | none => firstBad (imgRecs b 1) (fun _ p => rf p 0 63 63 = 1 && rf p 1 61 48 ≠ 0x3FFF && imgMask b (rf p 1 61 48) ≠ 0xFF)

/-- The FUNC_BIND image of a function under an image: its HOST record, or the register in force for a partial image. -/
def State.imgFunc (s : State) (b : List Nat) (f : Nat) : Nat :=
  match (imgRecs b 12).find? (fun r => rf r 0 63 60 = 0 && rf r 0 5 0 = f) with
  | some r => r.getD 1 0
  | none => if imgPartial b then (s.reg .FUNC_BIND f 0).toNat else 0

/-- TotalVFs of a link's PF under an image. -/
def imgVfs (b : List Nat) (link : Nat) : Nat :=
  match (imgRecs b 12).find? (fun r => rf r 0 63 60 = 1 && rf r 0 0 0 = link) with
  | some r => rf r 1 15 0
  | none => 0

/-- The physical functions of a link arrangement (R459). -/
def pfs (mode : Nat) : Nat := if mode = 1 then 2 else if mode = 2 then 0 else 1

/-- Detail 0x0B. `q0` is the queue that issued the command; a partial image would re-bind it by a record or by unbinding what its plot holds. Without
functions the function-local numbers have no meaning. (DEDUCED: notes/assumptions/29.md.) -/
def State.imgQueues (s : State) (b : List Nat) (q0 : Option Nat) : Option Nat :=
  let l := imgRecs b 7
  let mode := s.fld STRAP_STAT_HOST_MODE 0 0
  let part := imgPartial b
  let n := imgLe b 7 1
  let others := if part then (s.unitsOf .QP_BIND).filter (fun q => s.fld QP_BIND_KEEPER q 0 = 0 && s.fld QP_BIND_PLOT q 0 ≠ n) else []
  let bad := firstBad l (fun i r =>
    let q := rf r 0 13 0
    let keeper := rf r 1 59 59 = 1
    let f := rf r 1 49 44
    let loc := rf r 1 43 30
    let plot := rf r 1 55 50
    let bind := s.imgFunc b f
    16384 ≤ q || (l.take i).any (fun x => rf x 0 13 0 = q)
      || (part && q0 = some q)
      || (!keeper && (mode ≠ 2 && ((l.take i).any (fun x => rf x 1 59 59 = 0 && rf x 1 49 44 = f && rf x 1 43 30 = loc)
        || others.any (fun o => s.fld QP_BIND_FUNC o 0 = f && s.fld QP_BIND_LOCAL o 0 = loc)
        || nbits bind 13 0 ≤ loc || (loc = 0 && rf r 1 63 62 ≠ 0))
        || (if part then plot ≠ n else (imgPlot b plot).isNone)
        || (pfs mode ≤ f && mode ≠ 2 && plot ≠ nbits bind 23 18)))
      || (rf r 1 63 62 = 2 && !(match s.plotCores b plot with | some c => c.1 ≤ rf r 1 13 0 && rf r 1 13 0 < c.1 + c.2 | none => false)))
  match bad with
  | some i => some i
  | none => if part && q0.any (fun q => s.fld QP_BIND_KEEPER q 0 = 0 && s.fld QP_BIND_PLOT q 0 = n) then some 0 else none

/-- The last value that an image's FABRIC records give a register. -/
def imgFab (b : List Nat) (off : Nat) : Option Nat :=
  (((imgRecs b 13).filter (fun r => rf r 0 47 0 = off)).getLast?).map (fun r => r.getD 1 0)

/-- The module offset of port m's block. -/
def portOff (m off : Nat) : Nat := 0x20030000000 + m * 0x100000 + off

/-- Detail 0x0C. -/
def State.imgPorts (s : State) (b : List Nat) : Option Nat :=
  let part := imgPartial b
  let n := imgLe b 7 1
  firstBad (imgRecs b 8) (fun _ r =>
    let m := rf r 0 4 0
    let enc := match imgFab b (portOff m 0) with
      | some v => nbits v 25 25
      | none => if part then s.fld PORT_CFG_ENC m 0 else 0
    (rf r 0 8 8 = 1 && enc = 0)
      || (part && (r.getD 1 0 &&& (m64 - 2 ^ n) ≠ 0 || rf r 0 8 8 ≠ s.fld PORT_BIND_KEEPER_OK m 0 || rf r 0 9 9 ≠ s.fld PORT_BIND_SUP_OK m 0)))

/-- Detail 0x0D. -/
def imgDmas (b : List Nat) : Option Nat :=
  firstBad (imgRecs b 9) (fun _ r => imgPartial b && (rf r 0 62 62 = 1 || rf r 0 53 48 ≠ imgLe b 7 1))

/-! ### Free pages (R415, R418, R514) -/

/-- Physical page pg of stack p may be granted: free, zeroised, and outside the reserve, the retired list and the dump area. The pages
of plots for which `gone` holds count as free where they are kept for the same image (R526). -/
def State.pageFree (s : State) (gone : Nat → Bool) (p pg : Nat) : Bool :=
  let k := s.stack p
  pg + s.fld HBM_CFG_RESERVE p 0 < stackPages && !k.retired.contains pg
    && !(k.dirty.any (fun d => d.1 ≤ pg && pg < d.1 + d.2))
    && !(s.fld DUMP_CFG_STACK 0 0 = p && s.fld DUMP_CFG_PAGE 0 0 ≤ pg && pg < s.fld DUMP_CFG_PAGE 0 0 + s.fld DUMP_CFG_PAGES 0 0)
    && !((List.range 64).any (fun n => !gone n && (List.range 64).any (fun g =>
      s.fld TU_GRANT_g_EN n g = 1 && s.fld TU_GRANT_g_STACK n g = p && s.fld TU_GRANT_g_P n g ≤ pg
        && pg < s.fld TU_GRANT_g_P n g + s.fld TU_GRANT_g_COUNT n g)))

/-- The lowest run of `count` pages of stack p that may be granted and that no run already `taken` meets. -/
def State.freeRun (s : State) (gone : Nat → Bool) (taken : List (Nat × Nat × Nat)) (p count : Nat) : Option Nat :=
  firstFrom (fun pg => (List.range count).all (fun i => s.pageFree gone p (pg + i))
    && !taken.any (fun t => t.1 = p && meet (t.2.1, t.2.1 + t.2.2) (pg, pg + count))) 0 stackPages

/-- The runs that the grants of a list of (stack, count) take, in order; none where one cannot be had. -/
def State.takeRuns (s : State) (gone : Nat → Bool) : List (Nat × Nat × Nat) → List (Nat × Nat) → Option (List Nat)
  | _, [] => some []
  | taken, g :: r => match s.freeRun gone taken g.1 g.2 with
    | none => none
    | some pg => (s.takeRuns gone (taken ++ [(g.1, pg, g.2)]) r).map (fun l => pg :: l)

/-- HBM_CFG of each stack as an image sets it (R513). -/
def State.imgHbm (s : State) (b : List Nat) : State :=
  (imgRecs b 11).foldl (fun s r =>
    if rf r 0 63 60 = 4 && rf r 0 11 0 < 8 then s.setReg .HBM_CFG (rf r 0 11 0) 0 (BitVec.ofNat 64 (r.getD 1 0 % 2 ^ 32)) else s) s

/-- Whether the plots' pages count as free while an image is checked: all plots for a full image; a partial image frees its plot's pages
only after they are zeroised (R514, R525). -/
def imgGone (b : List Nat) (_n : Nat) : Bool := !imgPartial b

/-- Detail 0x0E. -/
def State.imgMemory (s : State) (b : List Nat) : Option Nat :=
  let l := imgRecs b 11
  let grants := l.filter (fun r => rf r 0 63 60 = 1 && rf r 1 63 63 = 1)
  let r := firstBad l (fun i r =>
    let kind := rf r 0 63 60
    let n := rf r 0 53 48
    let idx := rf r 0 11 0
    let span := recSpan r
    if kind = 4 then imgPartial b || 8 ≤ idx
    else (imgPlot b n).isNone || (kind = 1 && (idx < 8 || 64 ≤ idx || rf r 1 14 0 = 0 || stackPages < rf r 1 32 18 + rf r 1 14 0
        || (l.take i).any (fun x => rf x 0 63 60 = 1 && rf x 0 53 48 = n
          && (rf x 0 11 0 = idx || meet (rf x 1 55 38, rf x 1 55 38 + rf x 1 14 0) (rf r 1 55 38, rf r 1 55 38 + rf r 1 14 0)))))
      || (kind = 2 && (192 ≤ idx || span.1 < 0x10000000000 || 0x18000000000 < span.2 || rf r 2 63 32 = 0 || 262144 < rf r 2 63 32
        || (rf r 1 59 59 = 1 && (rf r 1 47 21 % 512 ≠ 0 || rf r 2 31 0 % 512 ≠ 0))
        || (l.take i).any (fun x => rf x 0 63 60 = 2 && rf x 0 53 48 = n && (rf x 0 11 0 = idx || meet (recSpan x) span))
        || !(List.range (rf r 2 63 32 * (if rf r 1 59 59 = 1 then 512 else 1))).all (fun k => imgHolds b n (rf r 2 31 0 + k))))
      || (kind = 3 && rf r 1 15 0 = 0xFFFF))
  match r with
  | some i => some i
  | none => if ((s.imgHbm b).takeRuns (imgGone b) [] (grants.map (fun r => (rf r 1 58 56, rf r 1 14 0)))).isNone then some 0 else none

/-- Detail 0x0B: a HOST record binds a plot to a second VF (R461). -/
def State.imgVfPlots (s : State) (b : List Nat) : Option Nat :=
  let l := imgRecs b 12
  let vf := fun (r : List Nat) => decide (rf r 0 63 60 = 0 && pfs (s.fld STRAP_STAT_HOST_MODE 0 0) ≤ rf r 0 5 0)
  firstBad l (fun i r => vf r && (l.take i).any (fun x => vf x && rf x 0 5 0 ≠ rf r 0 5 0 && rf x 1 23 18 = rf r 1 23 18))

/-- Detail 0x0F. -/
def State.imgHost (s : State) (b : List Nat) : Option Nat :=
  let l := imgRecs b 12
  let mode := s.fld STRAP_STAT_HOST_MODE 0 0
  let vf0 := imgVfs b 0
  let vf1 := imgVfs b 1
  let count := pfs mode + (if mode = 0 then vf0 else if mode = 1 then vf0 + vf1 else 0)
  let upTo := fun (i kind hi : Nat) => (((l.take (i + 1)).filter (fun x => rf x 0 63 60 = kind)).map (fun x => rf x 1 hi 0)).sum
  firstBad l (fun i r =>
    let link := rf r 0 0 0
    (l.take i).any (fun x => rf x 0 63 60 = rf r 0 63 60 && (rf r 0 63 60 = 2 || rf x 0 5 0 = rf r 0 5 0))
      || (rf r 0 63 60 = 0 && (count ≤ rf r 0 5 0 || 16384 < upTo i 0 13))
      || (rf r 0 63 60 = 1 && (if mode = 0 && link = 0 then 63 else if mode = 1 then 62 else 0) < (if mode = 1 then upTo i 1 15 else rf r 1 15 0)))

/-- The registers that FABRIC records may name (R516). -/
def fabAllowed (r : RegName) : Bool :=
  [RegName.PORT_CFG, .PORT_POOL_v, .PORT_LINK, .PORT_GW_MAC, .PORT_QOS, .PORT_VLAN, .PORT_PTP, .FAB_CFG, .FAB_PREFIX_HI, .FAB_PREFIX_LO,
   .FAB_IPV4, .FAB_ADMIT, .FAB_STREAM, .FAB_DEAL, .FAB_POT, .PT_ENTRY_W0, .PT_ENTRY_W1].contains r

/-- The register at a module offset of MMR space, at its first byte. -/
def regOff (off : Nat) : Option RegAt := ((Place.mmr off).regAt).bind (fun r => if r.byte = 0 then some r else none)

/-- Detail 0x10: records of FABRIC, then the POWER record. -/
def imgFabric (b : List Nat) : Option Nat :=
  firstBad (imgRecs b 13) (fun _ r => match regOff (rf r 0 47 0) with
    | none => true
    | some x => !(0x20000000000 ≤ rf r 0 47 0 && fabAllowed x.r) || (x.r.desc.width = 32 && 2 ^ 32 ≤ r.getD 1 0) || !x.r.holds (r.getD 1 0))

/-- Detail 0x10 of the POWER record. -/
def imgPower (b : List Nat) : Option Nat :=
  firstBad (imgRecs b 14) (fun _ r => rf r 0 11 0 < 1000 || 2600 < rf r 0 11 0 || rf r 1 7 0 < 0x20 || 0x80 < rf r 1 7 0)

/-- Detail 0x12: a partial image binds what is bound to another plot. -/
def State.imgTaken (s : State) (b : List Nat) : Option (Nat × Nat) :=
  let n := imgLe b 7 1
  let core := fun l =>
    let c := s.physOf l
    s.fld CTX_BIND_BOUND c 0 = 1 && s.fld CTX_BIND_PLOT c 0 ≠ n
  if !imgPartial b then none
  else match imgPlot b n with
    | some r => if (List.range (rf r 1 45 32)).any (fun i => core (rf r 1 13 0 + i)) then some (1, 0)
      else match firstBad (imgRecs b 7) (fun _ r =>
          let q := rf r 0 13 0
          s.fld QP_BIND_KEEPER q 0 = 0 && s.fld QP_BIND_TARGET q 0 ≠ 3 && s.fld QP_BIND_PLOT q 0 ≠ n) with
        | some i => some (7, i)
        | none => (firstBad (imgRecs b 9) (fun _ r =>
            let u := rf r 0 10 8 * 32 + rf r 0 4 0
            s.fld DMA_BIND_BOUND u 0 = 1 && s.fld DMA_BIND_PLOT u 0 ≠ n)).map (fun i => (9, i))
    | none => none

/-- The sections that an image of its kind must and must not have (R501). -/
def imgSections (b : List Nat) : Option Nat :=
  let have_ := fun t => (imgSecs b).any (fun x => x.typ = t)
  let need := if imgPartial b then [1] else [1, 7, 12, 14]
  let never := if imgPartial b then [2, 3, 4, 10, 12, 13, 14] else []
  if need.any (fun t => !have_ t) then some 0xFFFF
  else if imgPartial b && (imgRecs b 1).length ≠ 1 then (((imgSecs b).find? (fun x => x.typ = 1)).map (·.idx))
  else if !imgPartial b && (imgRecs b 14).length ≠ 1 then (((imgSecs b).find? (fun x => x.typ = 14)).map (·.idx))
  else ((imgSecs b).find? (fun x => never.contains x.typ)).map (·.idx)

/-- The directory index of a section type. -/
def secIdx (b : List Nat) (typ : Nat) : Nat := (((imgSecs b).find? (fun x => x.typ = typ)).map (·.idx)).getD 0xFFFF

/-- Detail 0x05: Res0 bytes of the header and the directory, and every record. -/
def imgRes (b : List Nat) : Option (Nat × Nat) :=
  if imgLe b 20 4 ≠ 0 || imgLe b 32 32 ≠ 0 || imgLe b (imgLe b 8 4 - 100) 4 ≠ 0 || (imgPartial b && 64 ≤ imgLe b 7 1)
      || (!imgPartial b && imgLe b 7 1 ≠ 0) || imgLe b 15 1 < 0xB0 then some (0xFFFF, 0)
  else (imgSecs b).findSome? (fun x =>
    if imgLe b (66 + 16 * x.idx) 2 ≠ 0 || imgLe b (76 + 16 * x.idx) 4 ≠ 0 then some (x.idx, 0)
    else (firstBad (imgRecs b x.typ) (fun _ r => !recOk x.typ r)).map (fun i => (x.idx, i)))

/-- The verdicts on an image that its bytes alone do not give: its signature verifies, and the first CLOCK record with a step above its half's
calibrated ceiling. -/
abbrev ImgVerdict := Bool × Option Nat

/-- Route records: route-table entries, and links marked DOWN; no other entry is enabled, and no other link is down (R506). -/
def State.bindRoutes (s0 : State) (b : List Nat) : State :=
  let s1 := { s0 with regs := Sparse.keep (fun k => k / 2 ^ 40 ≠ RegName.ctorIdx .RTR_OVR_k) s0.regs }
  let s := (s1.unitsOf .RTR_LINKERR).foldl (fun s n => s.setFld RTR_LINKERR_DOWN n 0 0) s1
  (imgRecs b 3).foldl (fun s r =>
    let n := rf r 0 50 48 * 1296 + rf r 0 42 32
    if rf r 0 63 60 = 0 then s.setReg .RTR_OVR_k n (rf r 0 3 0) (BitVec.ofNat 64 (r.getD 1 0)) else s.setFld RTR_LINKERR_DOWN n 0 (r.getD 1 0)) s

/-- The route tables of a full image pass the check of R290 with the halves that it leaves gated (R290, R508). -/
def State.imgRouted (s : State) (b : List Nat) : Bool :=
  let s1 := State.bindRoutes { s with regs := Sparse.keep (fun k => k / 2 ^ 40 ≠ RegName.ctorIdx .HALF_RAIL_STATUS) s.regs } b
  State.routesPass ((imgRecs b 5).foldl (fun s r =>
    if rf r 0 63 63 = 1 then s.setFld HALF_RAIL_STATUS_STATE (rf r 0 35 33) (rf r 0 32 32) (rf r 0 2 0) else s) s1)

/-- Check 4: every section and their agreement (details 0x04 to 0x12), the lowest detail that applies. -/
def State.imgContents (s : State) (b : List Nat) (v : ImgVerdict) (q0 : Option Nat) (badStore : Bool) : Option ImgBad :=
  let at_ := fun (d typ : Nat) (r : Option Nat) => r.map (fun i => (d, secIdx b typ, i))
  (imgSections b).map (fun i => (4, i, 0))
    <|> (imgRes b).map (fun x => (5, x.1, x.2))
    <|> at_ 6 1 (s.imgPlots b)
    <|> at_ 7 2 (s.imgMapBad b)
    <|> (if !imgPartial b && !s.imgRouted b then some (8, secIdx b 3, 0) else none)
    <|> at_ 9 5 (s.imgClock b v.2)
    <|> at_ 0x0A 6 (imgWorld b)
    <|> at_ 0x0B 7 (s.imgQueues b q0)
    <|> at_ 0x0B 12 (s.imgVfPlots b)
    <|> at_ 0x0C 8 (s.imgPorts b)
    <|> at_ 0x0D 9 (imgDmas b)
    <|> at_ 0x0E 11 (s.imgMemory b)
    <|> at_ 0x0F 12 (s.imgHost b)
    <|> at_ 0x10 13 (imgFabric b)
    <|> at_ 0x10 14 (imgPower b)
    <|> (if badStore then some (0x11, 0xFFFF, 0) else none)
    <|> (s.imgTaken b).map (fun x => (0x12, secIdx b x.1, x.2))

/-- Signed images are enforced (R519, R716). (DEDUCED: notes/assumptions/61.md.) -/
def State.imgSecure (s : State) : Bool := s.fld STRAP_STAT_SEC_LOCK 0 0 = 1 || s.fld FUSE_STAT_SECURE_ONLY 0 0 = 1

/-- The image passes its signature and the anti-rollback counter. -/
def State.imgTrusted (s : State) (b : List Nat) (v : ImgVerdict) : Bool := v.1 && s.fld FUSE_STAT_IMG_CTR 0 0 ≤ imgLe b 16 4

/-- R518: the code that refuses an image and the failing place, in the order of the checks. (DESIGN CHOICE: notes/assumptions/29.md.)
(DESIGN CHOICE: notes/assumptions/57.md.) -/
def State.imgCheck (s : State) (b : List Nat) (named : Nat) (v : ImgVerdict) (q0 : Option Nat) (badStore busy : Bool) : Option (Nat × ImgBad) :=
  match s.imgHeader b named with
  | some x => some (0x0602, x)
  | none =>
    if s.imgSecure && !v.1 then some (0x0601, 0, 0xFFFF, 0)
    else if s.imgSecure && imgLe b 16 4 < s.fld FUSE_STAT_IMG_CTR 0 0 then some (0x0604, 0, 0xFFFF, 0)
    else match s.imgContents b v q0 badStore with
      | some x => some (0x0602, x)
      | none => if imgPartial b && busy then some (0x0603, 0, 0xFFFF, 0) else none

/-- Record the outcome of an image command or load in IMG_STAT (R521). (DESIGN CHOICE: notes/assumptions/30.md.) -/
def State.imgStat (s : State) (code : Nat) (x : ImgBad) : State :=
  ((s.setFld IMG_STAT_CODE 0 0 code).setFld IMG_STAT_DETAIL 0 0 ((min 0xFF x.2.1) <<< 8 + x.1)).setFld IMG_STAT_RECORD 0 0 x.2.2

/-! ### Redirection (R306, R618) -/

/-- The router of core a sends on what comes for it to core b (R618), or to itself again. -/
def State.setRedir (s : State) (a : Nat) (b : Option Nat) : State :=
  match b with
  | some n => ((s.setFld RTR_REDIR_EN a 0 1).setFld RTR_REDIR_SX a 0 (coreX n)).setFld RTR_REDIR_SY a 0 (coreY n)
  | none => s.setFld RTR_REDIR_EN a 0 0

/-- The router at the position where logical core l stands by default sends on to core n, which holds it now (R306). -/
def State.redirHome (s : State) (l n : Nat) : State := s.setRedir (defaultPhys l) (if defaultPhys l = n then none else some n)

/-! ### Bounds (R298, R299) -/

/-- The terms of half h of parcel p for the clock period t in picoseconds and the waits w for Trump, Lead, Follow and Pass are written (R298). -/
def State.publishTerms (s : State) (p h t : Nat) (w : List Nat) : State :=
  let hop := fun k => t * (2 + w.getD k 0)
  let brg := fun k => t * (16 + 4 * w.getD k 0)
  let put := fun (r : RegName) (a b : Nat) (s : State) => s.setReg r p h (BitVec.ofNat 64 ((a % 2 ^ 32) <<< 32 + b % 2 ^ 32))
  let s1 := put .LB_FIXED (t * 8) (t * 2) s
  let s2 := put .LB_HOP_FP (hop 2) (hop 3) (put .LB_HOP_TL (hop 0) (hop 1) s1)
  put .LB_BRG_FP (brg 2) (brg 3) (put .LB_BRG_TL (brg 0) (brg 1) s2)

/-- PLAN_NOTICE is raised on every core of a half (R299). -/
def State.noticeHalf (s : State) (p h : Nat) : State :=
  (List.range 1296).foldl (fun s i => if coreHalf (p * 1296 + i) = h then s.setLine (p * 1296 + i) 7 else s) s

/-- A publication advances the parcel's LB_GEN and posts BOUNDS_CHANGED (R298, R477). -/
def State.published (s : State) (p : Nat) : State :=
  let s1 := s.bumpWrap LB_GEN_GEN p 0
  s1.eventToFunctions 4 [s1.fld LB_GEN_GEN p 0]

/-! ### Binding and unbinding (R522, R525, R528) -/

/-- Replace the image state. -/
def State.setImg (s : State) (x : Images) : State := s.setKp { s.kp with img := x }

/-- A plot's binding. -/
def State.bind (s : State) (n : Nat) : PlotBind := Sparse.get {} s.kp.plots n

/-- Replace a plot's binding. -/
def State.setBind (s : State) (n : Nat) (b : PlotBind) : State := s.setKp { s.kp with plots := Sparse.set {} s.kp.plots n b }

/-- The physical cores bound to a plot. -/
def State.boundCores (s : State) (n : Nat) : List Nat :=
  (s.unitsOf .CTX_BIND).filter (fun c => s.fld CTX_BIND_BOUND c 0 = 1 && s.fld CTX_BIND_PLOT c 0 = n)

/-- The queues bound to a plot, the Keeper's own apart. -/
def State.boundQueues (s : State) (n : Nat) : List Nat :=
  ((s.unitsOf .QP_BIND ++ s.unitsOf .QP_STAT).eraseDups).filter (fun q => s.fld QP_BIND_KEEPER q 0 = 0 && s.fld QP_BIND_PLOT q 0 = n)

/-- The bulk channels bound to a plot. -/
def State.boundDmas (s : State) (n : Nat) : List Nat :=
  (s.unitsOf .DMA_BIND).filter (fun u => s.fld DMA_BIND_BOUND u 0 = 1 && s.fld DMA_BIND_PLOT u 0 = n)

/-- Zeroise a core's scratch, cellar and Tenant instruction-memory partition with initialising writes (R522, R528). -/
def State.zeroCore (s : State) (c : Nat) : State :=
  let k := s.core c
  ((s.initBytes (bankAddr c 0) 0x40000).initBytes (bankAddr c 0x100000) 0x200000).setCore c { k with imem := Sparse.keep (fun i => imemKey 1 0 ≤ i) k.imem }

/-- The word of an unbound queue (R510): KEEPER = 1 and TARGET 3. -/
def unboundQueue : Word := BitVec.ofNat 64 (3 <<< 62 + 1 <<< 59)

/-- Remove a plot's grants; their pages are queued for zeroising (R418). -/
def State.dropGrants (s : State) (n : Nat) : State :=
  (List.range 64).foldl (fun s g =>
    if s.fld TU_GRANT_g_EN n g = 0 then s
    else
      let p := s.fld TU_GRANT_g_STACK n g
      let k := s.stack p
      ((s.setStack p { k with dirty := k.dirty ++ [(s.fld TU_GRANT_g_P n g, s.fld TU_GRANT_g_COUNT n g)] }).setReg .TU_GRANT_g n g 0)) s

/-- A queue back as reset leaves it, DISABLED. -/
def State.resetQueue (s : State) (q : Nat) : State := (s.disableQueue q false).resetRegs .queue q

/-- Remove a plot's old bindings of queues, channels, ports, range entries, grants and module map, with the sync (R528 step 4). -/
def State.unbindPlot (s : State) (n : Nat) : State :=
  let s1 := (s.boundQueues n).foldl (fun s q => ((s.resetQueue q).setReg .QP_BIND q 0 unboundQueue)) s
  let s2 := (s1.boundDmas n).foldl (fun s u => (s.setReg .DMA_BIND u 0 0).setFld DMA_STAT_STATE u 0 6) s1
  let s3 := (List.range 32).foldl (fun s m =>
    s.setFld PORT_PLOTS_PLOTS m 0 (s.fld PORT_PLOTS_PLOTS m 0 - nbit (s.fld PORT_PLOTS_PLOTS m 0) n * 2 ^ n)) s2
  let s4 := s3.dropGrants n
  let s5 := ({ s4.resetRegs .tu n with tuW1 := Sparse.keep (fun k => k / 256 ≠ n) s4.tuW1 }).dropTx n 0 0
  (s5.boundCores n).foldl (fun s c => s.setReg .CTX_BIND c 0 0) s5

end Sys2Proof.Machine
end

