-- ==== Sys2Proof/Machine/HangOps.lean ====
section
/-!
DEFINITION. Holding a plot's threads, and what the resets and teardowns of a hang's recovery share with it (R646, R650 to R657).
(DESIGN CHOICE: notes/assumptions/41.md.)
-/
namespace Sys2Proof.Machine

/-- A waiting thread's watch is taken back from the bank that holds it (R341). -/
def State.disarm (s : State) (c t : Nat) : State :=
  match (s.thr c t).wait with
  | .fe _ _ a _ _ =>
    match s.translate (s.who c t) a false with
    | .to (.bank n off) =>
      let k := s.core n
      let mine := fun (w : Watch) => match asCore (w.waiter.toNat / 8) with
        | some x => (s.redir x).val = c && w.waiter.toNat % 8 = t
        | none => false
      s.setCore n { k with watches := k.watches.filter (fun w => !(w.word = off / 8 && mine w)) }
    | _ => s
  | _ => s

/-- Suspend a Tenant thread as TSTOP does (R646); a thread that waits stops when its wait ends. -/
def State.holdThread (s : State) (c t : Nat) : State :=
  let h := s.thr c t
  match h.st with
  | .stopped | .suspended => s
  | .ready | .sleeping => (s.disarm c t).suspend c t
  | _ => s.setThr c t { h with stopReq := true }

/-- Hold every Tenant thread of a plot's cores. -/
def State.holdThreads (s : State) (n : Nat) : State :=
  (s.boundCores n).foldl (fun s c => (List.range 8).foldl (fun s t => if s.world c t = 0 then s.holdThread c t else s) s) s

/-- The channels of a plot: its bulk channels and its cores' own. -/
def State.plotDmas (s : State) (n : Nat) : List Nat := s.boundDmas n ++ (s.boundCores n).flatMap (fun c => [256 + 2 * c, 257 + 2 * c])

/-! ### Hang recovery (R652 to R657) -/

/-- The plot of a core, if it is bound. -/
def State.coreIn (s : State) (c n : Nat) : Bool := s.fld CTX_BIND_BOUND c 0 = 1 && s.fld CTX_BIND_PLOT c 0 = n

/-- Step 4 of a recovery for one suspect: its threads are suspended, its channels pause and its queues fetch nothing. -/
def State.holdPlot (s : State) (n : Nat) : State :=
  let runs := (s.boundCores n).flatMap (fun c => ((List.range 8).filter (fun t =>
    let h := s.thr c t
    s.world c t = 0 && h.st ≠ .stopped && h.st ≠ .suspended && !h.stopReq)).map (fun t => c * 8 + t))
  let s1 := s.holdThreads n
  let h := s1.kp.hang
  s1.setHang { h with held := h.held ++ [n], threads := h.threads ++ runs }

/-- A plot is held no longer: what was suspended resumes as TSTART with RESUME = 1 resumes it (R653). -/
def State.resumePlot (s : State) (n : Nat) : State :=
  let h := s.kp.hang
  let mine := h.threads.filter (fun x => s.coreIn (x / 8) n)
  let s1 := mine.foldl (fun s x =>
    let c := x / 8
    let t := x % 8
    let k := s.thr c t
    if k.st = .suspended && k.susVec = 0 then
      let s1 := s.clearNotice c t
      s1.setThr c t { s1.thr c t with st := .ready }
    else s.setThr c t { k with stopReq := false }) s
  s1.setHang { h with held := h.held.filter (· ≠ n), threads := h.threads.filter (fun x => !s.coreIn (x / 8) n) }

/-- Ask for the resets of the hang that may begin: one at a time in each parcel (R637), forced (R638). -/
def State.hangResets (s : State) : State :=
  s.kp.hang.todo.foldl (fun s x =>
    if s.fld RESET_STAT_STATE x.1 0 ≠ 0 then s
    else
      let s1 := ((s.setFld RESET_STAT_DOMAIN x.1 0 x.2.1).setFld RESET_STAT_INDEX x.1 0 x.2.2).setFld RESET_STAT_STATE x.1 0 2
      let s2 := s1.setKp { s1.kp with resets := Sparse.set false s1.kp.resets x.1 true }
      let h := s2.kp.hang
      (s2.setHang { h with todo := h.todo.filter (· ≠ x), busy := h.busy ++ [x] }).resetDrain x.1) s

/-- Steps 4 and 5: every suspect is held, and the engine's domain is reset. -/
def State.hangHold (s : State) : State :=
  let x := s.kp.hang.cur
  let s1 := x.suspects.foldl (fun s n => s.holdPlot n) (s.setFld HANG_STAT_STATE 0 0 2)
  let h := s1.kp.hang
  (s1.setHang { h with phase := .resetting, todo := x.doms }).hangResets

/-- A hang notice goes to the fabric manager and the event receiver (R656, R708, R710): stage 1 at detection, 2 with the verdicts.
(DESIGN CHOICE: notes/assumptions/86.md.) -/
def State.hangNotice (s : State) (stage : Nat) (x : HangRec) : State :=
  let mask := x.suspects.foldl (fun a n => a ||| 2 ^ n) 0
  let verdicts := if stage = 1 then 0 else x.suspects.foldl (fun a n => a + (s.fld HANG_PLOT_n_VERDICT 0 n) <<< (2 * n)) 0
  s.platformEvent 0xF1 stage (beBytes (s.fld HANG_STAT_HANG_ID 0 0) 4 ++ [stage, x.kind, 0, 0, 0, 0, 0, 0] ++ beBytes x.loc 8 ++ beBytes mask 8
    ++ beBytes verdicts 16)

/-- Steps 1 to 3: the hang is numbered and counted, the fabric manager is told, and its dump begins, or step 4 where there is none.
(DESIGN CHOICE: notes/assumptions/40.md.) -/
def State.hangStart (s : State) (x : HangRec) : State :=
  let s1 := (s.bumpWrap HANG_STAT_HANG_ID 0 0).setFld HANG_STAT_STATE 0 0 1
  let s2 := x.suspects.foldl (fun s n => (s.bump HANG_PLOT_n_HANGS 0 n).setFld PLOT_STAT_W0_STATE 0 n 3) s1
  let id := s2.fld HANG_STAT_HANG_ID 0 0
  let h := s2.kp.hang
  let left := x.suspects.filter (fun n => s2.fld HANG_PLOT_n_REPLAY 0 n = 1)
  let s3 := (s2.setHang { h with cur := x, left := left, replay := none, again := [], guilty := none, cut := [] }).hangNotice 1 x
  if s3.fld HANG_CFG_DUMP 0 0 = 0 then s3.hangHold
  else
    let s4 := s3.askDump { reason := 1, id := id, doms := x.doms, plots := x.suspects }
    s4.setHang { s4.kp.hang with phase := .dumping }

/-- The reset of a hang's domain interrupts a suspect's command: it is to restart at its last boundary, a LAUNCH from its own words, whose kernels
end here (R653). -/
def State.hangCut (s : State) (k : Cmd) : State :=
  let again := k.opc = 0x10 && k.phase = .launched
  let cores := if again then (s.launchCores k).map (·.2) else []
  let mask := nbits (k.word 3) 39 32
  let s1 := cores.foldl (fun s c =>
    let s1 := (s.setFld KSTAT_ACTIVE c 0 0).setFld KSTAT_RUN c 0 0
    s1.setCore c { s1.core c with kcodes := [], wbLost := false, kend := false }) s
  let h := s1.kp.hang
  let s2 := s1.setHang { h with
    cut := h.cut ++ [k.seq]
    threads := h.threads.filter (fun x => !(cores.contains (x / 8) && nbit mask (x % 8) = 1)) }
  (s2.setCmd { k with phase := .between, done := if again then 0 else k.done }).countSlots

/-- The verdict that HANG_REPORT gives a suspect (R656). -/
def State.verdictCode (s : State) (n : Nat) : Nat :=
  match s.fld HANG_PLOT_n_VERDICT 0 n with
  | 2 => 0x0701
  | 3 => 0x0703
  | _ => 0x0702

/-- The commands of an unreplayed plot that the reset interrupted end (R655). -/
def State.hangUnreplayed (s : State) (n : Nat) : State :=
  (s.cp.cmds.filter (fun k => k.plot = n && s.kp.hang.cut.contains k.seq)).foldl (fun s k => (s.progress k 2).complete k 0x0703 0 []) s

/-- Step 8: suspects resume, HANG_REPORT is posted, the fabric manager is told the verdicts, and the next hang is recovered. -/
def State.hangFinish (s : State) : State :=
  let x := s.kp.hang.cur
  let id := s.fld HANG_STAT_HANG_ID 0 0
  let s1 := x.suspects.foldl (fun s n =>
    let s1 := if s.fld HANG_PLOT_n_VERDICT 0 n = 3 then s.hangUnreplayed n else s
    (s1.resumePlot n).setFld PLOT_STAT_W0_STATE 0 n 1) s
  let s2 := x.suspects.foldl (fun s n =>
    s.eventToPlot n 2 [id <<< 32 + s.verdictCode n <<< 16 + Sparse.get 0 s.epochs n <<< 8 + n, x.loc, x.sec <<< 16 + x.kind]) s1
  let s3 := s2.hangNotice 2 x
  let h := s3.kp.hang
  let s4 := (s3.setHang { next := h.next.drop 1, dumps := h.dumps, silent := h.silent, buffer := h.buffer }).setFld HANG_STAT_STATE 0 0 0
  match h.next with
  | [] => s4
  | y :: _ => s4.hangStart y

/-- A Compute or Module reset ends a recovery: every suspect is unreplayed (R657). -/
def State.hangAbort (s : State) : State :=
  let h := s.kp.hang
  if h.phase = .idle then s
  else
    let s1 := h.cur.suspects.foldl (fun s n => ((s.hangUnreplayed n).setFld HANG_PLOT_n_VERDICT 0 n 3).setFld PLOT_STAT_W0_STATE 0 n 1) s
    (s1.setHang { dumps := h.dumps, silent := h.silent, buffer := h.buffer }).setFld HANG_STAT_STATE 0 0 0

/-- A suspect's context is torn down during recovery: it leaves the list without a verdict (R649). -/
def State.hangDrop (s : State) (n : Nat) : State :=
  let h := s.kp.hang
  if h.phase = .idle || h.phase = .resuming || !h.cur.suspects.contains n then s
  else
    let x := { h.cur with suspects := h.cur.suspects.filter (· ≠ n) }
    let phase := if h.replay = some n then .resetting else h.phase
    (s.setHang { h with
      phase := phase
      cur := x
      left := h.left.filter (· ≠ n)
      replay := if h.replay = some n then none else h.replay
      again := h.again.filter (· ≠ n)
      held := h.held.filter (· ≠ n)
      threads := h.threads.filter (fun y => !s.coreIn (y / 8) n) }).setFld PLOT_STAT_W0_STATE 0 n 1

end Sys2Proof.Machine
end

