-- ==== Sys2Proof/Machine/Reset.lean ====
section
/-!
DEFINITION. Core resets, parking, teardowns, and the resets of the domains of R635 (R635 to R649).
-/
namespace Sys2Proof.Machine

/-! ### Serving state of a plot -/

/-- Replace the serving engine. -/
def State.setSrv (s : State) (x : Srv) : State := s.setKp { s.kp with srv := x }

/-- Show a plot's tracked requests in SRV_STAT_n and SRV_MOD (R596). -/
def State.srvCount (s : State) (n : Nat) : State :=
  let mine := s.kp.srv.reqs.filter (fun r => r.plot = n)
  let total := s.kp.srv.reqs.length
  let s1 := (s.setFld SRV_STAT_W0_TRACKED 0 n mine.length).setFld SRV_STAT_W0_WAITING 0 n ((mine.filter (fun r => r.bslot.isNone)).length)
  ((s1.setFld SRV_STAT_W0_RUNNING 0 n ((mine.filter (fun r => r.bslot.isSome)).length)).setFld SRV_MOD_IN_USE 0 0 total).setFld SRV_MOD_FREE 0 0 (16384 - total)

/-- Every tracked request of a plot ends without a LAST entry, and every slot is unloaded (R594). -/
def State.srvUnload (s : State) (n : Nat) : State :=
  let x := s.kp.srv
  (s.setSrv { x with models := x.models.filter (fun m => m.plot ≠ n), reqs := x.reqs.filter (fun r => r.plot ≠ n) }).srvCount n

/-! ### Core reset (R54, R114, R635) -/

/-- Every watch of a core's table fires (R342). -/
def State.fireAll (s : State) (c : Nat) : State :=
  let k := s.core c
  (k.watches).foldl (fun s w =>
    s.send .wake [c, w.word * 8, w.waiter.toNat, w.plot, w.epoch, s.tag (bankAddr c (w.word * 8)) % 4]) (s.setCore c { k with watches := [] })

/-- The world mask of a physical core (R114, R509). -/
def State.maskOf (s : State) (c : Nat) : Nat :=
  match s.logicalOf c with
  | some l => Sparse.get 0x80 s.kp.img.masks l
  | none => 0x80

/-- What one core's reset clears: threads, tiles, accumulators, cache, Pot slots, watches, DMA channels and core registers, CTX_BIND apart;
instruction memory, scratch and cellar are kept, and the core stays in reset (R635). -/
def State.coreReset (s : State) (c : Nat) : State :=
  let s1 := s.fireAll c
  let bind := s1.reg .CTX_BIND c 0
  let mask := s1.maskOf c
  let s2 := (((s1.resetRegs .core c).resetRegs .thr c).resetRegs .cst c).setReg .CTX_BIND c 0 bind
  let s3 := [256 + 2 * c, 257 + 2 * c].foldl (fun s u => (s.resetRegs .dma u).setDma u { nextId := (s.dma u).nextId }) s2
  let s4 := s3.setCore c { imem := (s3.core c).imem, inReset := true }
  let s5 := (List.range 8).foldl (fun s t => s.setTf wstat_WORLD c t (nbit mask t)) s4
  let s6 := s5.setFld WDOG_CTL_EN c 0 mask
  s6.setKp { s6.kp with tx := Sparse.erase s6.kp.tx c, lookups := s6.kp.lookups.filter (fun x => x.port ≠ c) }

/-- TSTOP 0 (R61, R224). -/
def parkingWord : BitVec 32 := 0x3C000005

/-- Release a core from Core reset: thread 0 starts at vector 0 of its world's partition (R107). A core of a half without power stays in it (R38). -/
def State.coreRelease (s : State) (c : Nat) : State :=
  if (s.core c).inReset && !s.gated (coreP c) (coreHalf c) then
    let s1 := s.setCore c { s.core c with inReset := false }
    s1.setThr c 0 { s1.thr c 0 with st := .ready }
  else s

/-- Release a core with the parking word at Tenant address 0, unless its thread 0 is a Keeper thread (R529). -/
def State.parkRelease (s : State) (c : Nat) : State :=
  let k := s.core c
  (if nbit (s.maskOf c) 0 = 0 then s.setCore c { k with imem := Sparse.set 0 k.imem (imemKey 0 0) parkingWord } else s).coreRelease c

/-! ### What a reset does to commands (R488, R655) -/

/-- A reset of a domain ends each command that acts on its resources: at once where it is between steps, waits, or its step touches them,
and a LAUNCH whose kernel it reset too (R488). -/
def State.abortCommands (s : State) (hit : Cmd → Bool) : State :=
  (s.cp.cmds.filter hit).foldl (fun s k =>
    if k.phase = .atFetch || k.phase = .waiting || k.opc = 0x30 then s else (s.progress k 2).complete k 0x0106 0 []) s

/-! ### Teardown (R643 to R649) -/

/-- The plot's quiesce horizon in µs: 2,000 where its module map reaches a routed port, 200 otherwise (R647). -/
def State.horizonOf (s : State) (n : Nat) : Nat :=
  if (List.range 4096).any (fun v => s.fld TU_MODMAP_v_EN n v = 1
      && (List.range 32).any (fun m => nbit (s.portMask (s.fld TU_MODMAP_v_ID n v)) m = 1 && s.portRouted m)) then 2000
  else 200

/-- Write a plot's epoch wherever it is held: PLOT_STAT, CTX_BIND, the channels, HBM controllers and queue engines (R643, R646). -/
def State.setEpoch (s : State) (n e : Nat) : State :=
  let s1 := { s.setFld PLOT_STAT_W0_EPOCH 0 n e with epochs := Sparse.set 0 s.epochs n (e % 256) }
  let s2 := (s1.boundCores n).foldl (fun s c => s.setFld CTX_BIND_EPOCH c 0 e) s1
  (s2.boundDmas n).foldl (fun s u => s.setFld DMA_BIND_EPOCH u 0 e) s2

/-- The Pot slots of a core close (R646). -/
def State.closePots (s : State) (c : Nat) : State :=
  let k := s.core c
  s.setCore c { k with pots := Sparse.mapVals {} (fun p : PotSlot => { p with state := 0, nodes := [] }) k.pots }

/-- Held WRITE_FINALs of a plot are answered STALE_EPOCH, and their counters are freed (R446, R644). -/
def State.dropFinals (s : State) (n : Nat) : State :=
  let f := s.kp.fab
  let mine := f.finals.filter (fun x => x.msg.plot = n)
  let gone := fun (peer : Nat) (x : Stream) => mine.any (fun y => y.peer = peer && y.msg.strm = x.num)
  let cs := f.conns.map (fun e => (e.1, { e.2 with streams := e.2.streams.filter (fun x => !gone e.1 x) }))
  let s1 := s.setFab { f with finals := f.finals.filter (fun x => x.msg.plot ≠ n), conns := cs }
  let s2 := s1.setFld FAB_STREAM_HELD 0 0 (min 255 (f.finals.length - mine.length))
  mine.foldl (fun s x => s.fabReply x.peer x.vc { op := 0x80, tag := x.msg.tag, strm := 0x0202 }) s2

/-- The Keeper sends a teardown order, naming the plot and the new epoch, to every module that the plot's module map names (R648). -/
def State.orderTeardown (s : State) (n e : Nat) : State :=
  let l := (List.range 4096).filter (fun v => s.fld TU_MODMAP_v_EN n v = 1 && s.fld TU_MODMAP_v_ID n v ≠ s.fld MODULE_ID_ID 0 0)
  l.foldl (fun s v =>
    let x := s.free
    x.2.fabNote (s.fld TU_MODMAP_v_ID n v) 0
      { op := 0x48, kw := true, sup := true, plot := n, epoch := e, len := x.1 % 241, data := x.1 / 256 % 2 ^ (8 * (x.1 % 241)) }) s

/-- Steps 1 to 3 of a teardown (R646): the epoch advances, threads are held, channels drain, Pot slots close, held WRITE_FINALs are answered,
serving slots are unloaded, queues drain, and the plot's admitted commands are to end without completions. `keep` are commands that go on, `issuer` is
the queue that asked for it. -/
def State.teardown (s : State) (n epoch : Nat) (keep : List Nat) (issuer : Option Nat) (next : Nat) : State :=
  let h := s.horizonOf n
  let s1 := ((s.hangDrop n).setEpoch n epoch).holdThreads n
  let s2 := (s1.plotDmas n).foldl (fun s u => if s.dmaState u = 0 || s.dmaState u = 4 then s else s.setFld DMA_STAT_STATE u 0 5) s1
  let s3 := ((s2.boundCores n).foldl (fun s c => s.closePots c) s2).dropFinals n
  let s4 := s3.srvUnload n
  let s5 := (s4.boundQueues n).foldl (fun s q => if s.qOn q && issuer ≠ some q then s.setFld QP_STAT_STATE q 0 3 else s) s4
  let mine := s5.cp.cmds.filter (fun k => k.plot = n && s.fld QP_BIND_KEEPER k.q 0 = 0 && !keep.contains k.seq
    && k.phase ≠ .atFetch && k.phase ≠ .waiting && k.post)
  let s6 := mine.foldl (fun s k =>
    let k1 := { k with post := false }
    if k.phase = .between || k.phase = .launched then s.complete k1 0x0104 0 [] else s.setCmd { k1 with cancelled := true }) s5
  s6.setKp { s6.kp with tds := s6.kp.tds ++ [{ plot := n, cmds := keep, horizon := h, next := next }] }

/-- A teardown of a plot to epoch e begins, or joins the one in progress (R646, R649). -/
def State.teardownTo (s : State) (n e : Nat) (keep : List Nat) (issuer : Option Nat) (next : Nat) (order : Bool) : State :=
  match s.kp.tds.find? (fun x => x.plot = n) with
  | some _ =>
    s.setKp { s.kp with tds := s.kp.tds.map (fun y => if y.plot = n then { y with cmds := y.cmds ++ keep, next := max y.next next } else y) }
  | none =>
    let s1 := s.teardown n e keep issuer next
    if order then s1.orderTeardown n e else s1

/-- A teardown of a plot to its next epoch (R643, R646). -/
def State.beginTeardown (s : State) (n : Nat) (keep : List Nat) (issuer : Option Nat) (next : Nat) (order : Bool) : State :=
  s.teardownTo n ((Sparse.get 0 s.epochs n + 1) % 256) keep issuer next order

/-- A channel of the plot is stopped as by a reset and is IDLE (R395, R647). (DESIGN CHOICE: notes/assumptions/59.md.) -/
def State.stopDma (s : State) (u : Nat) : State :=
  let s1 := (s.setDma u { nextId := (s.dma u).nextId }).setFld DMA_STAT_STATE u 0 0
  if u < 256 then (s1.setFld DMA_HEAD_INDEX u 0 0).setFld DMA_TAIL_INDEX u 0 0 else s1

/-- Step 5 of a teardown (R646): cores reset and parked, queues back to ENABLED with their heads at their tails, CONTEXT_TORN_DOWN posted, the
teardown counted and its commands completed with the new epoch. -/
def State.endTeardown (s : State) (x : Teardown) : State :=
  let n := x.plot
  let e := Sparse.get 0 s.epochs n
  let s1 := (s.plotDmas n).foldl (fun s u => s.stopDma u) s
  let s2 := (s1.boundCores n).foldl (fun s c => (s.coreReset c).parkRelease c) s1
  let s3 := (s2.boundQueues n).foldl (fun s q =>
    if s.fld QP_STAT_STATE q 0 = 3 then (s.setFld QP_STAT_SQ_HEAD q 0 (s.fld QP_SQ_TAIL_INDEX q 0)).setFld QP_STAT_STATE q 0 1 else s) s2
  let s4 := (s3.eventToPlot n 3 [e]).bump TD_STAT_TEARDOWNS 0 0
  let s5 := s4.setKp { s4.kp with tds := s4.kp.tds.filter (fun y => y.plot ≠ n) }
  let s6 := (s5.cp.cmds.filter (fun k => x.cmds.contains k.seq && k.opc = 0x30)).foldl (fun s k =>
    (s.progress k 2).complete { k with res0 := e, done := k.done + 1 } 0 0 []) s5
  if s6.kp.hang.guilty ≠ some n then s6
  else ((s6.cp.cmds.filter (fun k => x.cmds.contains k.seq && k.opc ≠ 0x30)).foldl (fun s k => (s.progress k 2).complete k 0x0701 0 []) s6).hangFinish

/-! ### What the reset of each part clears (R635) -/

/-- A packet that a reset's router still holds as the drain ends: a request of an agent outside the domain, or a reply to one, is answered FENCED to its
owner; a reply to a core of the domain is absorbed (R640, R641). The counts are the boundary's. -/
def State.dropPacket (s : State) (inside : Nat → Bool) (n : Nat) (p : Packet) : State :=
  let mine := inside (coreAt p.dx p.dy) && p.port = 4
  let own := inside p.source && p.entry = 4
  if p.resp then (if mine then s.boundaryCount n FENCE_DROP_CNT_ABSORBED else (s.boundaryCount n FENCE_DROP_CNT_OWNER_FENCED).reply p.tag 0x0201 0)
  else if own then s
  else (s.boundaryCount n FENCE_DROP_CNT_OWNER_FENCED).turnBack p

/-- The packets that a router holds: in its buffers and combiner, at its injection points, as a seam proxy, and on its outgoing links. -/
def Router.packets (r : Router) : List Packet :=
  r.buf.map (·.2) ++ r.comb.map (·.2) ++ r.points.flatMap (fun e => e.2.waiting) ++ r.proxied ++ r.wire.map (·.2)

/-- A router's buffers and counters are cleared; the Keeper reloads its other registers before the unfence (R635). The requests it holds for owners outside
the domain, whose cores are `inside`, are answered (R640, R641). -/
def State.routerReset (s0 : State) (inside : Nat → Bool) (n : Nat) : State :=
  let s := (s0.rtr n).packets.foldl (fun s p => s.dropPacket inside n p) s0
  let s1 := { s with routers := Sparse.erase s.routers n }
  ((((s1.setReg .RTR_STAT n 0 0).setReg .RTR_LINKERR n 0 (BitVec.ofNat 64 (s.fld RTR_LINKERR_DOWN n 0))).setReg .FENCE_DROP_CNT n 0 0).setReg
    .RTR_TURN n 0 (RegName.resetVal .RTR_TURN n 0))

/-- A fabric port's block as reset leaves it, PORT_MAC apart (R457). -/
def State.portReset (s : State) (m : Nat) : State :=
  let mac := s.reg .PORT_MAC m 0
  ((s.resetRegs .port m).setReg .PORT_MAC m 0 mac).setPort m {}

/-- The registers of parcel p's control block that a Parcel reset returns to their reset values (R635); the rails, clock plan and RESET_REQ
stay. (DESIGN CHOICE: notes/assumptions/59.md.) -/
def State.parcelReset (s : State) (p : Nat) : State :=
  let keep := [RegName.RESET_REQ, .RESET_STAT, .HALF_RAIL_STATUS, .ISLAND_STATUS]
  let s1 := { s with regs := Sparse.keep (fun k =>
    !(Block.parcel.regs.any (fun r => !keep.contains r && k / 1048576 = r.ctorIdx * 1048576 + p))) s.regs }
  (List.range 32).foldl (fun s c => (s.stopDma (32 * p + c)).setKp { s.kp with tx := Sparse.erase s.kp.tx (10368 + 32 * p + c) }) s1

/-- The reset of a domain is asserted: every part of it is cleared (R635, R639 step 4). -/
def State.clearDomain (s : State) (p dom idx : Nat) : State :=
  let s0 := s.loopStop (domPorts p dom idx ++ (if domStack dom then [34 + p] else []))
  let s1 := (domCores p dom idx).foldl (fun s c => s.coreReset c) s0
  let cores := domCores p dom idx
  let s2 := if dom = 1 || dom = 2 || dom = 3 then cores.foldl (fun s c => s.routerReset (fun n => cores.contains n) c) s1 else s1
  let s3 := (domPorts p dom idx).foldl (fun s m => s.portReset m) s2
  if dom = 3 then s3.parcelReset p else s3

/-- Whether a command acts on a domain, or runs a kernel on a core of it. -/
def State.resetHits (s : State) (p dom idx : Nat) (k : Cmd) : Bool :=
  if k.opc = 0x10 then (s.launchCores k).any (fun x => (domCores p dom idx).contains x.2) else s.touches k p dom idx

/-- Release the cores of a domain that are bound to a plot; the others stay in Core reset (R522). -/
def State.releaseCores (s : State) (l : List Nat) : State :=
  l.foldl (fun s c => if s.fld CTX_BIND_BOUND c 0 = 1 then s.coreRelease c else s) s

/-- Re-binds whose plot a reset touches are aborted (R532). -/
def State.abortRebinds (s : State) (hit : Nat → Bool) : State :=
  s.setImg { s.kp.img with rebinds := s.kp.img.rebinds.map (fun x => if hit x.plot then { x with aborted := true } else x) }

/-! ### RESET_REQ (R637 to R642, R664) -/

/-- RESET_REQ_GO: a write of RESET_REQ; GO is ignored, with ERR set, unless STATE is idle (R664). A reset that is not forced waits for the
steps that act on its domain (R638). (DEDUCED: notes/assumptions/62.md.) -/
def execResetReqGo (ag : Agent) (p : Fin 8) (v : Word) (s : State) : Res :=
  .next (if !ag.keeper then s.reply 0 0x0402 0
    else
      let s1 := s.setReg .RESET_REQ p 0 (RegName.written .RESET_REQ true 63 0 (s.reg .RESET_REQ p 0) v)
      (if bitsOf v 63 63 = 0 then s1
       else if s.fld RESET_STAT_STATE p 0 ≠ 0 then s1.setFld RESET_STAT_ERR p 0 1
       else
         let dom := s1.fld RESET_REQ_DOMAIN p 0
         let idx := s1.fld RESET_REQ_INDEX p 0
         let forced := s1.fld RESET_REQ_FORCED p 0 = 1
         let s2 := ((s1.setFld RESET_STAT_DOMAIN p 0 dom).setFld RESET_STAT_INDEX p 0 idx).setFld RESET_STAT_STATE p 0 1
         let s3 := s2.setKp { s2.kp with resets := Sparse.set false s2.kp.resets p forced }
         if forced then s3.resetDrain p else s3.resetSteps).reply 0 0 0)

/-- A part still fenced for repair stays in reset (R642). -/
def State.repairFenced (s : State) (c : Nat) : Bool := Sparse.get 0 s.kp.fences c = 5

/-- The domain's reset ends the step kernels of a suspect's serving slots that run there; they are to run again (R583, R594). -/
def State.cutSteps (s : State) (p dom idx : Nat) : State :=
  let x := s.kp.srv
  let hit := fun (m : SrvModel) => s.kp.hang.cur.suspects.contains m.plot
    && (List.range (ofLe (bytesAt m.desc 46 2))).any (fun i => (domCores p dom idx).contains (s.physOf (ofLe (bytesAt m.desc 44 2) + i)))
  s.setSrv { x with models := x.models.map (fun m => if hit m then { m with step := m.step.map (fun t => { t with again := t.here }) } else m) }

/-- The drain of parcel p's reset ends after `us` µs: the domain is fenced, its watches fire and its reset is asserted; commands that act on it
end (R488, R639 steps 3 and 4). Where the reset is of a hang, those of the suspects are interrupted (R653). -/
def State.drainParcel (s : State) (p us : Nat) : State :=
  let dom := s.fld RESET_STAT_DOMAIN p 0
  let idx := s.fld RESET_STAT_INDEX p 0
  let s1 := ((s.setFld RESET_STAT_DRAIN_US p 0 us).setFld RESET_STAT_STATE p 0 3).markDomain p dom idx 4
  let hang := s.kp.hang.busy.contains (p, dom, idx)
  let mine := fun (k : Cmd) => hang && s1.kp.hang.cur.suspects.contains k.plot && k.code = 0 && k.opc ≠ 0x40 && k.opc ≠ 0x39
  let hit := s1.cp.cmds.filter (fun k => mine k && (k.inProgress || k.phase = .launched) && s1.resetHits p dom idx k)
  let s1 := if hang then (hit.foldl (fun s k => s.hangCut k) s1).cutSteps p dom idx else s1
  let s2 := s1.abortCommands (fun k => !hit.any (fun x => x.seq = k.seq) && s1.resetHits p dom idx k)
  (s2.clearDomain p dom idx).abortRebinds (fun n => s1.plotIn n p dom idx)

/-- The plots that are bound. -/
def State.boundPlots (s : State) : List Nat := (List.range 64).filter (fun n => s.fld PLOT_STAT_W0_STATE 0 n ≠ 0)

/-- Every parcel drains for a Compute (`m` = 1) or Module (3) reset, and every bound plot's context is torn down (R635, R637). It takes over
the parcels' own resets, and ends a hang's recovery (R657); a Module reset that no command
caused counts as a failure of the module (R684), and what a command chose before is in force no longer (R524). -/
def State.beginModReset (s : State) (m : Nat) : State :=
  let s1 := (List.range 8).foldl (fun s p => (s.setFld RESET_STAT_STATE p 0 0).markDomain p 3 0 3) s.hangAbort
  let s2 := s1.boundPlots.foldl (fun s n => s.beginTeardown n [] none 0 (m = 1)) s1
  let s3 := if m = 3 && !s.kp.img.toReset then (s2.rackFail).setImg { s2.rackFail.kp.img with cause := 0, staged := none } else s2
  s3.setKp { s3.kp with modReset := m }

/-- Every register of a block back at its reset value. -/
def State.resetBlock (s : State) (b : Block) : State :=
  { s with regs := Sparse.keep (fun k => !(b.regs.any (fun r => k / 2 ^ 40 = r.ctorIdx))) s.regs }

/-- What a Module reset clears beside a Compute reset: queues, functions, links, the fabric, the serving engine and the identity; commands in
progress are recorded in log page 2 (R466, R635). (DEDUCED: notes/assumptions/60.md.) (DESIGN CHOICE: notes/assumptions/74.md.) -/
def State.clearModule (s : State) : State :=
  let running := s.cp.cmds.filter (fun k => k.phase ≠ .atFetch && k.phase ≠ .waiting)
  let s1 := running.foldl (fun s k => s.log 2 [k.q, k.cid, k.opc, k.done, k.total]) s
  let s2 := [Block.parcel, .router, .func, .queue, .adm, .port, .fab, .ident, .serve, .dma].foldl (fun s b => s.resetBlock b) s1
  let s3 := { s2 with routers := [], deals := [], cp := { logs := s2.cp.logs, nextSeq := s2.cp.nextSeq } }
  let s4 := s3.setFab { gens := s.kp.fab.gens, cursor := s3.sent.length }
  let s5 := (List.range 32).foldl (fun s m => s.setReg .PORT_MAC m 0 (s2.reg .PORT_MAC m 0)) s4
  let s6 := (((s5.dbgLock).resetBlock .dbg).newNonce).setRep { s5.kp.rep with plan := [], aged := [] }
  let fences := Sparse.keep (fun k => Sparse.get 0 s.kp.fences k = 5) s.kp.fences
  let img := { s6.kp.img with rebinds := [], reads := [] }
  let s7 := s6.setKp { s6.kp with srv := {}, tds := [], fences := fences, resets := [], img := img, reroute := [] }
  s7.countSpares

/-- DRAIN_END: the drain of parcel p's reset, or of the Compute or Module reset, reaches its bound after `us` µs (R641). -/
def execDrainEnd (p : Option (Fin 8)) (us : BitVec 16) (s : State) : Res :=
  .next (match p with
    | some p => if s.fld RESET_STAT_STATE p 0 = 2 then s.drainParcel p us.toNat else s
    | none =>
      let m := s.kp.modReset
      if m ≠ 1 && m ≠ 3 then s
      else
        let s1 := (List.range 8).foldl (fun s p => s.markDomain p 3 0 4) s
        let s2 := if m = 1 then s1.abortCommands (fun k => k.opc ≠ 0x30) else s1
        let s3 := (List.range 8).foldl (fun s p => s.clearDomain p 3 0) s2
        let s4 := if m = 3 then s3.clearModule else s3.abortRebinds (fun _ => true)
        s4.setKp { s4.kp with modReset := m + 1 })

/-- A stack after retraining: ACTIVE, or OFFLINE where its training failed (R419). -/
def State.trainStack (s : State) (p : Nat) (bad : Bool) : State := s.setFld HBM_STAT_STATE p 0 (if bad then 4 else 0)

/-- RESET_RELEASE: clocks restart, router registers are reloaded, stacks retrain (bit p of `bad` where stack p's training fails), fences are
removed and the bound cores start (R639 steps 5 and 6). A Compute reset ends the teardowns it began; a Module reset then has its image applied, and is
held while MOD_RESET_N is low (R524, R635, R759). -/
def execResetRelease (p : Option (Fin 8)) (bad : BitVec 8) (s : State) : Res :=
  let free := fun (s : State) (p dom idx : Nat) =>
    let s1 := s.markDomain p dom idx 0
    let s2 := if domStack dom then s1.trainStack p (nbit bad.toNat p = 1) else s1
    s2.releaseCores ((domCores p dom idx).filter (fun c => !s.repairFenced c))
  .next (match p with
    | some p =>
      if s.fld RESET_STAT_STATE p 0 = 3 then
        let s1 := (free s p (s.fld RESET_STAT_DOMAIN p 0) (s.fld RESET_STAT_INDEX p 0)).setFld RESET_STAT_STATE p 0 0
        let s2 := s1.setKp { s1.kp with resets := Sparse.erase s1.kp.resets p }
        (s2.setHang { s2.kp.hang with busy := s2.kp.hang.busy.filter (fun x => x.1 ≠ p.val) }).hangResets
      else s
    | none =>
      if s.kp.modReset = 2 then
        let s1 := (List.range 8).foldl (fun s p => free s p 3 0) s
        let s2 := s1.kp.tds.foldl (fun s x => s.endTeardown x) s1
        s2.setKp { s2.kp with modReset := 0 }
      else if s.kp.modReset = 4 && !s.kp.pinLow then
        let s1 := (List.range 8).foldl (fun s p => (s.markDomain p 3 0 0).trainStack p (nbit bad.toNat p = 1)) s
        (s1.setFld PROFILE_STAT_STATE 0 0 0).setKp { s1.kp with modReset := 5 }
      else s)

/-- MOD_RESET_GO: a write of MOD_RESET by the Keeper (R637, R667). A Module reset takes over a Compute reset in progress. -/
def execModResetGo (ag : Agent) (v : BitVec 32) (s : State) : Res :=
  .next (if !ag.keeper then s.reply 0 0x0402 0
    else
      let w := BitVec.ofNat 64 v.toNat
      let s1 := s.setReg .MOD_RESET 0 0 (RegName.written .MOD_RESET true 31 0 (s.reg .MOD_RESET 0 0) w)
      let m := if s1.fld MOD_RESET_DOMAIN 0 0 = 1 then 3 else 1
      (if bitsOf w 31 31 = 1 && s.kp.modReset < m then s1.beginModReset m else s1).reply 0 0 0)

/-- MOD_RESET_PIN: MOD_RESET_N has been low for 1 µs and starts and holds a Module reset, or is high again (R759). -/
def execModResetPin (low : Bool) (s : State) : Res :=
  let s1 := s.setKp { s.kp with pinLow := low }
  .next (if low && s.kp.modReset < 3 then (s1.setImg { s1.kp.img with toReset := false }).beginModReset 3 else s1)

end Sys2Proof.Machine
end

