-- ==== Sys2Proof/Machine/Binding.lean ====
section
/-!
DEFINITION. Applying layout images: what a full image and a partial re-bind write, parking and release, profiles and straps (R505, R514,
R522 to R540).
-/
namespace Sys2Proof.Machine

/-! ### Writing bindings (R525 step 5, R528 step 5) -/

/-- A plot's PLOT record takes effect: PLOT_STAT, service core, pool, LEAD_RATE of every parcel and ADMIT_PLOT; its cores are bound under its
epoch. -/
def State.bindPlot (s : State) (r : List Nat) : State :=
  let n := rf r 0 61 56
  let on := rf r 0 63 63 = 1
  let s1 := ((s.setFld PLOT_STAT_W0_OWNER 0 n (rf r 0 31 0)).setFld PLOT_STAT_W1_COUNT 0 n (rf r 1 45 32)).setFld PLOT_STAT_W1_FIRST 0 n (rf r 1 13 0)
  let s2 := (s1.setFld PLOT_STAT_W0_EPOCH 0 n (Sparse.get 0 s.epochs n)).setFld PLOT_STAT_W0_STATE 0 n (if on then 1 else 0)
  let b : PlotBind :=
    if on then { service := rf r 1 61 48, spill := rf r 2 63 48, pool := rf r 2 13 0, pooln := rf r 2 45 32, vbase := rf r 3 47 21, gbase := rf r 3 17 0 }
    else {}
  let s3 := (s2.setBind n b).setFld ADMIT_PLOT_n_LEAD_CMDS 0 n (rf r 0 55 52)
  if !on then s3
  else
    let s4 := (List.range 8).foldl (fun s p => (s.setFld LEAD_RATE_n_BURST p n (rf r 0 47 40)).setFld LEAD_RATE_n_RATE p n (rf r 0 38 32)) s3
    (List.range (rf r 1 45 32)).foldl (fun s i =>
      let c := s.physOf (rf r 1 13 0 + i)
      ((s.setFld CTX_BIND_BOUND c 0 1).setFld CTX_BIND_PLOT c 0 n).setFld CTX_BIND_EPOCH c 0 (Sparse.get 0 s.epochs n)) s4

/-- World masks of an image's WORLD records; a plot's cores without a record take 0x80 (R509). -/
def State.bindWorlds (s : State) (b : List Nat) (cores : Nat → Bool) : State :=
  let m := (imgRecs b 6).foldl (fun m r => Sparse.set 0x80 m (rf r 0 45 32) (rf r 0 7 0)) (Sparse.keep (fun l => !cores l) s.kp.img.masks)
  s.setImg { s.kp.img with masks := m }

/-- The planned core and router steps of an island (R508). -/
def State.planStep (s : State) (p i : Nat) : Nat × Nat :=
  let x := Sparse.get 0x8080 s.kp.rep.plan (p * 90 + i)
  (x / 256, x % 256)

/-- The core and router steps of an island as ageing leaves them (R627, R628). -/
def State.agedStep (s : State) (p i : Nat) : Nat × Nat :=
  let x := Sparse.get 0x8080 s.kp.rep.aged (p * 90 + i)
  (x / 256, x % 256)

/-- Set the steps that ageing leaves an island. -/
def State.setAged (s : State) (p i core router : Nat) : State :=
  s.setRep { s.kp.rep with aged := Sparse.set 0x8080 s.kp.rep.aged (p * 90 + i) (core * 256 + router) }

/-- Every island of a parcel runs at the lowest of its plan step, its half's CEIL_STEP and the governor's cap, and no faster than ageing leaves it
(R627, R763). -/
def State.runSteps (s : State) (p : Nat) : State :=
  let cap := s.fld PWR_STAT_CAP_STEP 0 0
  (List.range 90).foldl (fun s i =>
    let x := s.agedStep p i
    let top := min (s.fld HALF_RAIL_STATUS_CEIL_STEP p (if i % 10 < 5 then 0 else 1)) cap
    (s.setFld ISLAND_STATUS_CORE_STEP p i (min x.1 top)).setFld ISLAND_STATUS_ROUTER_STEP p i (min x.2 top)) s

/-- A half comes to a set point: CEIL_STEP is what the calibration gives for it, within the range of a step, and no lower than `low` (R34).
(DESIGN CHOICE: notes/assumptions/105.md.) -/
def State.setVolt (s : State) (p h v low : Nat) : State :=
  (s.setFld HALF_RAIL_STATUS_VCORE_SET p h v).setFld HALF_RAIL_STATUS_CEIL_STEP p h (max low (min 160 (max 32 (Config.ceilStep (2 * p + h) v))))

/-- The highest planned step of a half: an accepted plan lies below the half's ceiling (R508). -/
def State.planTop (s : State) (p h : Nat) : Nat :=
  (domIslands p 2 h).foldl (fun a i => max a (max (s.planStep p i).1 (s.planStep p i).2)) 32

/-- Clock records (R34, R508): islands' planned steps, halves' set points, ceilings and states. -/
def State.bindClocks (s : State) (b : List Nat) : State :=
  let s1 := (imgRecs b 5).foldl (fun s r =>
    if rf r 0 63 63 = 0 then
      let p := rf r 0 41 32 / 90
      let i := rf r 0 41 32 % 90
      let s1 := s.setRep { s.kp.rep with plan := Sparse.set 0x8080 s.kp.rep.plan (p * 90 + i) (rf r 0 15 0) }
      s1.setAged p i (rf r 0 15 8) (rf r 0 7 0)
    else
      let p := rf r 0 35 33
      let h := rf r 0 32 32
      (s.setFld HALF_RAIL_STATUS_VCORE_SET p h (rf r 0 31 16)).setFld HALF_RAIL_STATUS_STATE p h (rf r 0 2 0)) s
  let halves := ((imgRecs b 5).filter (fun r => rf r 0 63 63 = 1)).map (fun r => (rf r 0 35 33, rf r 0 32 32))
  let s2 := halves.foldl (fun s x => s.setVolt x.1 x.2 (s.fld HALF_RAIL_STATUS_VCORE_SET x.1 x.2) (s.planTop x.1 x.2)) s1
  (((imgRecs b 5).map (fun r => if rf r 0 63 63 = 0 then rf r 0 41 32 / 90 else rf r 0 35 33)).eraseDups).foldl (fun s p => s.runSteps p) s2

/-- Queue records: each queue is DISABLED with its new QP_BIND (R510). -/
def State.bindQueues (s : State) (b : List Nat) : State :=
  (imgRecs b 7).foldl (fun s r => (s.resetQueue (rf r 0 13 0)).setReg .QP_BIND (rf r 0 13 0) (0) (BitVec.ofNat 64 (r.getD 1 0))) s

/-- Channel records (R512). -/
def State.bindDmas (s : State) (b : List Nat) : State :=
  (imgRecs b 9).foldl (fun s r =>
    let u := rf r 0 10 8 * 32 + rf r 0 4 0
    let s1 := (s.setFld DMA_BIND_BOUND u 0 (rf r 0 63 63)).setFld DMA_BIND_WORLD u 0 (rf r 0 62 62)
    let s2 := ((s1.setFld DMA_BIND_LEVEL u 0 (rf r 0 61 61)).setFld DMA_BIND_PLOT u 0 (rf r 0 53 48)).setFld DMA_BIND_EPOCH u 0
      (Sparse.get 0 s.epochs (rf r 0 53 48))
    s2.setFld DMA_STAT_STATE u 0 (if rf r 0 63 63 = 1 then 0 else 6)) s

/-- Port records (R511): a full image writes PORT_PLOTS and PORT_BIND, a partial one its plot's bit. -/
def State.bindPorts (s : State) (b : List Nat) : State :=
  (imgRecs b 8).foldl (fun s r =>
    let m := rf r 0 4 0
    let w := r.getD 1 0
    if imgPartial b then s.setFld PORT_PLOTS_PLOTS m 0 (s.fld PORT_PLOTS_PLOTS m 0 ||| w)
    else ((s.setFld PORT_PLOTS_PLOTS m 0 w).setFld PORT_BIND_KEEPER_OK m 0 (rf r 0 8 8)).setFld PORT_BIND_SUP_OK m 0 (rf r 0 9 9)) s

/-- The enabled grant records of an image whose plots `p` holds of. -/
def imgGrantRecs (b : List Nat) (p : Nat → Bool) : List (List Nat) :=
  (imgRecs b 11).filter (fun r => rf r 0 63 60 = 1 && rf r 1 63 63 = 1 && p (rf r 0 53 48))

/-- Memory records (R513, R514): the first pages of the grants of the plots `p` holds of are `pages`, in order. -/
def State.bindMemory (s : State) (b : List Nat) (p : Nat → Bool) (pages : List Nat) : State :=
  let l := imgRecs b 11
  let grants := imgGrantRecs b p
  let s1 := (grants.zip pages).foldl (fun s x =>
    s.setReg .TU_GRANT_g (rf x.1 0 53 48) (rf x.1 0 11 0) (withBits (BitVec.ofNat 64 (x.1.getD 1 0)) 32 18 x.2)) s
  l.foldl (fun s r =>
    let n := rf r 0 53 48
    let i := rf r 0 11 0
    match rf r 0 63 60 with
    | 2 =>
      let w1 : Word := BitVec.ofNat 64 (r.getD 2 0)
      let s2 := (s.setReg .TU_RANGE_W0 n i (BitVec.ofNat 64 (r.getD 1 0))).setReg .TU_RANGE_W1 n i w1
      { s2 with tuW1 := Sparse.set 0 s2.tuW1 (n * 256 + i) w1 }
    | 3 => s.setReg .TU_MODMAP_v n i (BitVec.ofNat 64 (r.getD 1 0 % 2 ^ 32))
    | 4 => s.setReg .HBM_CFG i 0 (BitVec.ofNat 64 (r.getD 1 0 % 2 ^ 32))
    | _ => s) s1

/-- The first pages that the grants of an image take for the plots `p` holds of. -/
def State.imgPages (s : State) (b : List Nat) (p : Nat → Bool) : List Nat :=
  ((s.imgHbm b).takeRuns (fun _ => false) [] ((imgGrantRecs b p).map (fun r => (rf r 1 58 56, rf r 1 14 0)))).getD []


/-- Ts of a half: the clock period of its slowest router island, rounded up to a whole picosecond (R34, R294). -/
def State.halfPeriod (s : State) (p h : Nat) : Nat :=
  let low := (((domIslands p 2 h).map (fun i => s.fld ISLAND_STATUS_ROUTER_STEP p i)).min?).getD 0x80
  (80000 + low - 1) / low

/-- The waits w(k) that a half's published terms hold (R295, R298). -/
def State.waitsNow (s : State) (p h : Nat) : List Nat :=
  let t := s.fld LB_FIXED_FIXED_PS p h / 8
  [s.fld LB_HOP_TL_TRUMP_PS p h, s.fld LB_HOP_TL_LEAD_PS p h, s.fld LB_HOP_FP_FOLLOW_PS p h, s.fld LB_HOP_FP_PASS_PS p h].map (fun x => x / t - 2)

/-- The terms of a half are written for the steps of its router islands and the waits in force (R295, R298). -/
def State.halfTerms (s : State) (p h : Nat) : State := s.publishTerms p h (s.halfPeriod p h) (s.hopWaits p (s.waitsNow p h))

/-- Publish the bounds of a half (R298). -/
def State.publishHalf (s : State) (p h : Nat) : State := (s.halfTerms p h).published p

/-- LB_PUBLISH: the Keeper publishes the terms of a half; `wt` to `wp` are the waits that it derives where CLASS_ARB is not at its reset values
(R295, R298). (DESIGN CHOICE: notes/assumptions/86.md.) -/
def execLbPublish (p : Fin 8) (east : Bool) (wt wl wf wp : BitVec 16) (s : State) : Res :=
  let h := if east then 1 else 0
  .next ((s.publishTerms p h (s.halfPeriod p h) (s.hopWaits p [wt.toNat, wl.toNat, wf.toNat, wp.toNat])).published p)

/-- A change `f` of the clock plan of some halves, in the order of R299: the terms of the halves that slow are published before it, the others' after it,
and PLAN_NOTICE is raised once the plan is in force. -/
def State.planChange (s : State) (halves : List (Nat × Nat)) (f : State → State) : State :=
  let t := f s
  let slow := halves.filter (fun x => s.halfPeriod x.1 x.2 < t.halfPeriod x.1 x.2)
  let fast := halves.filter (fun x => !slow.contains x)
  let gens := fun (l : List (Nat × Nat)) (s : State) => ((l.map (·.1)).eraseDups).foldl (fun s p => s.published p) s
  let s1 := slow.foldl (fun s x => s.publishTerms x.1 x.2 (t.halfPeriod x.1 x.2) (s.hopWaits x.1 (s.waitsNow x.1 x.2))) s
  let s2 := f (gens slow s1)
  let s3 := gens fast (fast.foldl (fun s x => s.halfTerms x.1 x.2) s2)
  halves.foldl (fun s x => s.noticeHalf x.1 x.2) s3

/-- CLASS_ARB of a parcel takes the value v (R298, R299, R321): where this alters the waits w(k), the Keeper publishes before a slowing, after a speeding
up, and before and after where some waits rise and others fall. The waits under values other than the reset ones are the Keeper's: free values.
(DESIGN CHOICE: notes/assumptions/86.md.) -/
def State.setArb (s0 : State) (p : Nat) (v : Word) : State :=
  let s := { s0 with freeCtr := s0.freeCtr + 4 }
  let old := s.waitsNow p 0
  let set := fun (s : State) => s.setReg .CLASS_ARB p 0 v
  let new := (set s).hopWaits p ((List.range 4).map (fun i => Config.freeNat (s0.freeCtr + i)))
  let pub := fun (w : List Nat) (s : State) => (((s.publishTerms p 0 (s.halfPeriod p 0) w).publishTerms p 1 (s.halfPeriod p 1) w)).published p
  let pairs := old.zip new
  if s.reg .CLASS_ARB p 0 = v then s0
  else
    let s1 := if pairs.all (fun x => x.1 ≤ x.2) then set (pub new s)
      else if pairs.all (fun x => x.2 ≤ x.1) then pub new (set s)
      else pub new (set (pub (pairs.map (fun x => max x.1 x.2)) s))
    (s1.noticeHalf p 0).noticeHalf p 1

/-- CLASS_ARB_WRITE: a TRUMP_RATE that is reserved keeps its value; weights that do not sum to 16, or with a 0, change none of the three (R321). -/
def execClassArbWrite (ag : Agent) (p : Fin 8) (v : Word) (s : State) : Res :=
  .next (if !ag.keeper then s.reply 0 0x0402 0
    else
      let l := bitsOf v 11 8
      let f := bitsOf v 7 4
      let b := bitsOf v 3 0
      let t := bitsOf v 22 16
      let w := s.reg .CLASS_ARB p 0
      let w1 := if 1 ≤ t && t ≤ 64 then withBits w 22 16 t else w
      let w2 := if l + f + b ≠ 16 || l = 0 || f = 0 || b = 0 then w1 else withBits (withBits (withBits w1 11 8 l) 7 4 f) 3 0 b
      (s.setArb p w2).reply 0 0 0)

/-- The halves whose plan an image's clock records change. -/
def State.replanned (s : State) (b : List Nat) : List (Nat × Nat) :=
  ((List.range 16).map (fun i => (i / 2, i % 2))).filter (fun x => (domIslands x.1 2 x.2).any (fun i => s.planStep x.1 i ≠ (s.bindClocks b).planStep x.1 i))

/-! ### Partial re-bind (R528) -/

/-- Steps 3 to 7 of a re-bind, after its plot's teardown: cores zeroised, old bindings removed, new ones written, cores released, the command
completed and PLOT_REBOUND posted. (DEDUCED: notes/assumptions/58.md.) -/
def State.finishRebind (s : State) (x : Rebind) : State :=
  let n := x.plot
  let b := x.image
  let r := (imgRecs b 1).headD []
  let old := s.boundCores n
  let s1 := old.foldl (fun s c => (s.coreReset c).zeroCore c) s
  let s2 := s1.unbindPlot n
  let pages := s2.imgPages b (fun _ => true)
  let s3 := (s2.bindWorlds b (fun l => recHasCore r l)).bindPlot r
  let s4 := (((s3.bindQueues b).bindDmas b).bindPorts b).bindMemory b (fun _ => true) pages
  let s5 := s4.planChange (s4.replanned b) (fun s => s.bindClocks b)
  let s6 := (s5.boundCores n).foldl (fun s c => ((s.coreReset c).zeroCore c).parkRelease c) s5
  let s7 := (s6.bumpWrap PLOT_STAT_W1_PARTIALS 0 n).setFld PROFILE_STAT_UNSIGNED 0 0 (if x.unsigned then 1 else 0)
  let s8 := s7.setImg { s7.kp.img with rebinds := s7.kp.img.rebinds.filter (fun y => y.cmd ≠ x.cmd) }
  let s9 := match s8.cp.cmds.find? (fun k => k.seq = x.cmd) with
    | some k => (s8.progress k 2).complete k 0 0 []
    | none => s8
  let words := [rf r 0 31 0 <<< 32 + (Sparse.get 0 s.epochs n) <<< 8 + n, imgLe b 24 8]
  (s9.unitsOf .QP_STAT).foldl (fun s q =>
    let f := s.fld QP_BIND_FUNC q 0
    if s.fld QP_BIND_KEEPER q 0 = 0 && s.fld QP_BIND_LOCAL q 0 = 0 && (s.fld FUNC_BIND_PLOT f 0 = n || s.fld FUNC_BIND_ADMIN f 0 = 1) then
      s.postEvent q 5 words
    else s) s9

/-- A reset in progress holds resources of a plot (R649). -/
def State.resetHolds (s : State) (n : Nat) : Bool :=
  (List.range 8).any (fun p => 2 ≤ s.fld RESET_STAT_STATE p 0 && s.plotIn n p (s.fld RESET_STAT_DOMAIN p 0) (s.fld RESET_STAT_INDEX p 0))

/-- TEARDOWN_HORIZON: `us` µs have passed since a plot's teardown began (R646, R647). What it was part of goes on: a re-bind (R528). While a reset
holds resources of the plot the teardown does not complete (R649). -/
def execTeardownHorizon (n : Fin 64) (us : BitVec 16) (s : State) : Res :=
  .next (match s.kp.tds.find? (fun x => x.plot = n.val) with
    | none => s
    | some x =>
      if us.toNat < x.horizon || s.resetHolds n then s
      else
        match s.kp.img.rebinds.find? (fun y => y.plot = n.val && !y.aborted) with
        | some y =>
          if x.next = 1 then
            let s1 := (s.setKp { s.kp with tds := s.kp.tds.filter (fun z => z.plot ≠ n.val) }).bump TD_STAT_TEARDOWNS 0 0
            s1.finishRebind y
          else s.endTeardown x
        | none => s.endTeardown x)

/-- REBIND_RESET_RECOVERY: a reset has ended a committed re-bind; the Keeper binds the plot as it stood before, torn down under an advanced epoch,
its SRAM zeroed and its queues DISABLED (R532). -/
def execRebindResetRecovery (n : Fin 64) (s : State) : Res :=
  .next (match s.kp.img.rebinds.find? (fun y => y.plot = n.val && y.aborted) with
    | none => s
    | some x =>
      let e := if s.kp.tds.any (fun t => t.plot = n.val) then Sparse.get 0 s.epochs n else (Sparse.get 0 s.epochs n + 1) % 256
      let now := s.boundCores n
      let s0 := now.foldl (fun s c => (s.coreReset c).zeroCore c) (s.setKp { s.kp with tds := s.kp.tds.filter (fun t => t.plot ≠ n.val) })
      let s1 := s0.unbindPlot n
      let old : State := { s1 with regs := x.regs }
      let copy := fun (s : State) (r : RegName) (u i : Nat) => s.setReg r u i (old.reg r u i)
      let s2 := (old.boundQueues n).foldl (fun s q => copy s .QP_BIND q 0) s1
      let s3 := (old.boundDmas n).foldl (fun s u => copy s .DMA_BIND u 0) s2
      let s4 := (List.range 32).foldl (fun s m =>
        s.setFld PORT_PLOTS_PLOTS m 0 (s.fld PORT_PLOTS_PLOTS m 0 ||| (old.fld PORT_PLOTS_PLOTS m 0 &&& 2 ^ n.val))) s3
      let s5 := (List.range 256).foldl (fun s i => copy (copy s .TU_RANGE_W0 n i) .TU_RANGE_W1 n i) s4
      let s6 := (List.range 4096).foldl (fun s i => copy s .TU_MODMAP_v n i) ((List.range 64).foldl (fun s i => copy s .TU_GRANT_g n i) s5)
      let w1 := (List.range 256).foldl (fun m i => Sparse.set 0 m (n * 256 + i) (old.reg .TU_RANGE_W1 n i)) s6.tuW1
      let s7 := (List.range 8).foldl (fun s p => copy s .LEAD_RATE_n p n) { s6 with tuW1 := w1 }
      let s8 := ((copy (copy (copy s7 .PLOT_STAT_W0 0 n) .PLOT_STAT_W1 0 n) .ADMIT_PLOT_n 0 n).setBind n x.bind).setFld PLOT_STAT_W0_STATE 0 n 1
      let s9 := (old.boundCores n).foldl (fun s c => copy s .CTX_BIND c 0) (s8.setImg { s8.kp.img with masks := x.masks })
      let s10 := s9.setEpoch n e
      let s11 := (s10.boundCores n).foldl (fun s c => ((s.coreReset c).zeroCore c).parkRelease c) s10
      s11.setImg { s11.kp.img with rebinds := s11.kp.img.rebinds.filter (fun y => y.cmd ≠ x.cmd) })

/-! ### Full images (R524 to R526, R533 to R539) -/

/-- The copies that a load tries, in order, as (device, slot) (R535). -/
def State.slotOrder (s : State) (slot : Nat) : List (Nat × Nat) :=
  let d := if s.fld STRAP_STAT_BOOT_SRC 0 0 = 1 then 1 else 0
  [(d, slot), (1 - d, slot), (d, 0), (1 - d, 0)]

/-- The image in a profile slot of a device, if the slot holds one: its first 64 bytes form a valid header (R533). -/
def State.slotImage (s : State) (d slot : Nat) : List Nat := Sparse.get [] s.kp.img.slots (4 * d + slot)

/-- The first copy that passes R518, of those given with the verdict on each. -/
def State.firstCopy (s : State) : List ((Nat × Nat) × ImgVerdict) → Option ((Nat × Nat) × List Nat × ImgVerdict)
  | [] => none
  | x :: r =>
    let b := s.slotImage x.1.1 x.1.2
    if b.isEmpty || imgPartial b || (s.imgCheck b (imgLe b 8 4) x.2 none false false).isSome then s.firstCopy r else some (x.1, b, x.2)

/-- What a failed load records: the check that the first copy fails (R521). (DESIGN CHOICE: notes/assumptions/30.md.) -/
def State.copyFault (s : State) (x : (Nat × Nat) × ImgVerdict) : Nat × ImgBad :=
  let b := s.slotImage x.1.1 x.1.2
  (s.imgCheck b (imgLe b 8 4) x.2 none false false).getD (0x0602, 1, 0xFFFF, 0)

/-- Every queue and function unbound, as an image without records leaves them (R510, R515). -/
def State.unbindAll (s : State) : State :=
  (List.range 16384).foldl (fun s q => s.setReg .QP_BIND q 0 unboundQueue) (s.resetBlock .queue)

/-- The links of functions by the arrangement and TotalVFs (R459). -/
def State.placeFunctions (s : State) (b : List Nat) : State :=
  let mode := s.fld STRAP_STAT_HOST_MODE 0 0
  (List.range 64).foldl (fun s f =>
    let link := if mode = 1 && (f = 1 || 2 + imgVfs b 0 ≤ f) then 1 else 0
    (s.setFld FUNC_BIND_VF f 0 (if pfs mode ≤ f then 1 else 0)).setFld FUNC_BIND_LINK f 0 link) s

/-- FABRIC records in section order (R516): a PORT_POOL_v that would make a port's pools exceed 8,192 cells keeps its value (R457), and the port enables come
last, each starting the port's training. -/
def State.bindFabric (s0 : State) (b : List Nat) : State :=
  let recs := (imgRecs b 13).filterMap (fun r => (regOff (rf r 0 47 0)).map (fun x => (x, BitVec.ofNat 64 (r.getD 1 0))))
  let s1 := recs.foldl (fun s e =>
    let w := if e.1.r = .PORT_CFG then withBits e.2 31 31 0 else e.2
    let t := s.setReg e.1.r e.1.u e.1.i (RegName.written e.1.r true 63 0 (s.reg e.1.r e.1.u e.1.i) w)
    let total := (List.range 4).foldl (fun a v => a + t.fld PORT_POOL_v_RESP e.1.u v + t.fld PORT_POOL_v_REQ e.1.u v) 0
    if e.1.r = .PORT_POOL_v && 8192 < total then s else t) s0
  recs.foldl (fun s e =>
    if e.1.r = .PORT_CFG then (s.setFld PORT_CFG_EN e.1.u 0 (bitsOf e.2 31 31)).setFld PORT_STAT_STATE e.1.u 0 (bitsOf e.2 31 31) else s) s1

/-- Apply a full image (R525 steps 3 to 6): SRAM zeroised, the pages that Tenant plots held zeroised unless the same image keeps them (R526),
every register of the image written, repair grafts applied, bounds published and bound cores released. (DEDUCED: notes/assumptions/60.md.) -/
def State.applyFull (s : State) (b : List Nat) (trusted : Bool) : State :=
  let signed := fun (l : List Nat) => l.take (imgLe l 8 4 - 104)
  let same := signed s.kp.img.inForce = signed b && !b.isEmpty
  let keeps := fun (n : Nat) => same && s.fld PLOT_STAT_W1_PARTIALS 0 n = 0
  let kept := (List.range 64).filter keeps
  let oldGrants := fun (n g : Nat) => s.reg .TU_GRANT_g n g
  let s0 := (List.range 64).foldl (fun s n => if keeps n then s else s.dropGrants n) s
  let tenant := fun (k : Core) => { k with imem := Sparse.keep (fun i => imemKey 1 0 ≤ i) k.imem }
  let s1 := { s0.initBytes 0 0xA20000000 with cores := Sparse.mapVals {} tenant s0.cores }
  let s2 := (List.range 8).foldl (fun s p =>
    let k := s.stack p
    (k.dirty.foldl (fun s d => s.initBytes (hbmAddr p (d.1 * 2 ^ 21)) (d.2 * 2 ^ 21)) s).setStack p { k with dirty := [] }) s1
  let map := ((s2.imgMapAll b).getD []).filter (fun e => e.2 ≠ defaultPhys e.1)
  let s3 := s.kp.img.repaired.foldl (fun s c => s.setFence c 5) (map.foldl (fun s e => s.redirHome e.1 e.2) { s2 with lmap := map })
  let s4 := (s3.resetBlock .tu).unbindAll
  let s5 := State.setKp { s4 with tuW1 := [] } { s4.kp with tx := [], lookups := [], plots := [] }
  let allowed := (imgRecs b 10).foldl (fun m r => Sparse.set (2 ^ 18 - 1) m (rf r 0 50 48) (rf r 0 17 0)) []
  let s6 := s5.setImg { s5.kp.img with masks := [], inForce := b, spares := allowed }
  let s7 := s6.bindRoutes b
  let s8 := (imgRecs b 4).foldl (fun s r =>
    let p := rf r 0 2 0
    (s.setReg .SEAM_CTL p 0 (BitVec.ofNat 64 (rf r 1 63 32))).setArb p (BitVec.ofNat 64 (rf r 1 31 0))) s7
  let s9 := (imgRecs b 12).foldl (fun s r => match rf r 0 63 60 with
    | 0 => s.setReg .FUNC_BIND (rf r 0 5 0) 0 (RegName.written .FUNC_BIND true 63 0 (s.reg .FUNC_BIND (rf r 0 5 0) 0) (BitVec.ofNat 64 (r.getD 1 0)))
    | 2 => s.setReg .ADMIT_CFG 0 0 (BitVec.ofNat 64 (r.getD 1 0))
    | _ => s) (s8.placeFunctions b)
  let pages := s2.imgPages b (fun n => !keeps n)
  let s10 := (s9.bindWorlds b (fun _ => true)).planChange ((List.range 16).map (fun i => (i / 2, i % 2))) (fun s => s.bindClocks b)
  let s11 := (List.range 64).foldl (fun s n => ((s.setReg .PLOT_STAT_W1 0 n 0).setFld PLOT_STAT_W0_STATE 0 n 0).setFld PLOT_STAT_W0_OWNER 0 n 0) s10
  let s12 := (imgRecs b 1).foldl (fun s r => s.bindPlot r) ({ s11 with regs := Sparse.keep (fun k => k / 2 ^ 40 ≠ RegName.ctorIdx .CTX_BIND) s11.regs })
  let unbound := (List.range 256).foldl (fun s u => s.setFld DMA_STAT_STATE u 0 6) s12
  let s13 := (((unbound.bindQueues b).bindDmas b).bindPorts b).bindMemory b (fun n => !keeps n) pages
  let s14 := kept.foldl (fun s n => (List.range 64).foldl (fun s g => s.setReg .TU_GRANT_g n g (oldGrants n g)) s) s13
  let s15 := s14.bindFabric b
  let s16 := (imgRecs b 14).foldl (fun s r =>
    ((s.setFld PWR_CFG_LIMIT_W 0 0 (rf r 0 11 0)).setFld PWR_CFG_FIXED 0 0 (rf r 0 16 16)).setFld PWR_CFG_FIXED_STEP 0 0 (rf r 1 7 0)) s15
  let grafts := (s16.kp.img.repaired.filter (fun c => (mapHolder (s16.imgMap b) c).isSome)).length
  let s17 := (s16.setFld REPAIR_SUM_CORE_GRAFTS 0 0 grafts).countSpares
  let s18 := s17.boundPlots.foldl (fun s n => (s.boundCores n).foldl (fun s c => (s.coreReset c).parkRelease c) s) s17
  let digest := sha384 (b.take (imgLe b 8 4 - 104))
  let s19 := (List.range 6).foldl (fun s i => s.setReg .IMG_DIGEST_i 0 i (BitVec.ofNat 64 (ofLe (bytesAt digest (8 * i) 8)))) s18
  let s20 := if kept.isEmpty && s.kp.img.inForce.isEmpty then s19 else s19.measured 4 digest
  (s20.setFld PROFILE_STAT_UNSIGNED 0 0 (if trusted then 0 else 1)).setFld PROFILE_STAT_STATE 0 0 1

/-- The no-profile state (R536): no plot bound, every core in reset, ports disabled, function 0 alone with one admin queue of TARGET 0. -/
def State.noProfile (s : State) : State :=
  let s1 := (((List.range 64).foldl (fun s n => s.dropGrants n) s).resetBlock .tu).unbindAll
  let s2 := (({ s1 with tuW1 := [], regs := Sparse.keep (fun k => k / 2 ^ 40 ≠ RegName.ctorIdx .CTX_BIND) s1.regs }).resetBlock .port).resetBlock .func
  let s3 := (s2.setReg .QP_BIND 0 0 (BitVec.ofNat 64 (1 <<< 60))).setKp { s2.kp with plots := [] }
  let s4 := (s3.setFld FUNC_BIND_ADMIN 0 0 1).setFld FUNC_BIND_QCOUNT 0 0 1
  let s5 := (List.range 64).foldl (fun s n => s.setFld PLOT_STAT_W0_STATE 0 n 0) s4
  ((s5.setFld ADMIT_PLOT_n_LEAD_CMDS 0 0 1).setFld PROFILE_STAT_STATE 0 0 2).setFld PROFILE_STAT_SOURCE 0 0 3

/-- FULL_IMAGE_APPLY: at the release of a Module reset the Keeper takes the staged image, the slot that a command chose, or the slot that the pins
or the strap name, and applies the first copy that passes (R524, R525, R534 to R536). `pins` are PROFILE_SEL[1:0]; `v` the verdict on each copy in the
order of R535, the staged image's first. (DESIGN CHOICE: notes/assumptions/57.md.) -/
def execFullImageApply (pins : Fin 4) (v : List (Bool × Option Nat)) (s : State) : Res :=
  let m := s.kp.img
  let slot := if m.cause = 1 then m.slot
    else if s.fld STRAP_STAT_PROFILE_PIN_EN 0 0 = 1 then pins.val else s.fld STRAP_STAT_PROFILE_DEF 0 0
  let done := fun (s : State) => s.setKp { s.kp with modReset := 0, img := { s.kp.img with toReset := false } }
  let order := s.slotOrder slot
  let vs := order.zip v
  let s0 := s.setFld PROFILE_STAT_PINS 0 0 pins.val
  .next (if s.kp.modReset ≠ 5 then s
    else if s.fld STRAP_STAT_TEST_MODE 0 0 = 1 then done s0.noProfile
    else match m.staged, m.cause with
      | some b, 2 =>
        done (((s0.applyFull b (s.imgTrusted b (v.headD (true, none)))).setFld PROFILE_STAT_SOURCE 0 0 2).setFld PROFILE_STAT_FALLBACK 0 0 0)
      | _, _ => match s.firstCopy vs with
        | none =>
          let x := s.copyFault (vs.headD ((0, 0), (true, none)))
          done (s0.imgStat x.1 x.2).noProfile
        | some (at_, b, w) =>
          let s1 := (s0.applyFull b (s.imgTrusted b w)).imgStat 0 (0, 0xFFFF, 0)
          let s2 := ((s1.setFld PROFILE_STAT_DEVICE 0 0 at_.1).setFld PROFILE_STAT_SLOT 0 0 at_.2).setFld PROFILE_STAT_SOURCE 0 0 (if m.cause = 1 then 1 else 0)
          done (s2.setFld PROFILE_STAT_FALLBACK 0 0 (if order.headD (0, 0) = at_ then 0 else 1)))

/-- STAGED_MODULE_RESET: within 10 ms of a staging command's completion the Keeper starts a Module reset (R524), once no partial apply is in progress
(R532). -/
def execStagedModuleReset (s : State) : Res :=
  .next (if s.kp.img.toReset && s.kp.img.rebinds.isEmpty && s.kp.modReset < 3 then s.beginModReset 3 else s)

/-- PROFILE_LOAD_EDGE: a recognised edge is counted; where PROFILE_PIN_EN is 1 it acts as a SWITCH_PROFILE to the sampled slot, which the verdicts `v`
on its copy on each device decide (R537, R538). -/
def execProfileLoadEdge (slot : Fin 4) (v : List (Bool × Option Nat)) (s : State) : Res :=
  let s1 := (s.bump PROFILE_STAT_EDGES 0 0).setFld PROFILE_STAT_PINS 0 0 slot.val
  .next (if s.fld STRAP_STAT_PROFILE_PIN_EN 0 0 = 0 then s1
    else match s.firstCopy (((s.slotOrder slot.val).take 2).zip v) with
      | none => s1.imgStat 0x0605 (0, 0xFFFF, 0)
      | some _ => s1.setImg { s1.kp.img with cause := 1, slot := slot.val, staged := none, toReset := true })

/-- STRAP_PIN_CHANGE: a strap pin changes after sampling; only its DIFF bit shows it (R540, R752). -/
def execStrapPinChange (pin : Fin 22) (differs : Bool) (s : State) : Res :=
  let b := if differs then 1 else 0
  let put := fun (f : Field) (i : Nat) =>
    let w := s.fld f 0 0
    s.setFld f 0 0 (w - nbit w i * 2 ^ i + b * 2 ^ i)
  .next (if pin.val < 16 then put STRAP_STAT_DIFF pin.val else put PWR_STAT_STRAP_DIFF_HI (pin.val - 16))

end Sys2Proof.Machine
end

