-- ==== Sys2Proof/Machine/SrvOps.lean ====
section
/-!
DEFINITION. What the serving engine's commands share: models, tracked requests, stream entries, provenance records and the end of a request
(R561 to R563, R572, R577, R589 to R594).
(DESIGN CHOICE: notes/assumptions/39.md.)
-/
namespace Sys2Proof.Machine

/-! ### Models and requests -/

/-- A field of a model's descriptor: n bytes at byte i (R572). -/
def SrvModel.d (x : SrvModel) (i n : Nat) : Nat := ofLe (bytesAt x.desc i n)

/-- Tokens of a KV block (R572). -/
def SrvModel.tpp (x : SrvModel) : Nat := 2 ^ (16 - x.d 18 2)

/-- The model in a slot of a plot. -/
def State.srvModel (s : State) (plot slot : Nat) : Option SrvModel :=
  s.kp.srv.models.find? (fun x => x.plot = plot && x.slot = slot)

/-- Replace or add a model. -/
def State.putModel (s : State) (m : SrvModel) : State :=
  let x := s.kp.srv
  s.setSrv { x with models := x.models.filter (fun y => !(y.plot = m.plot && y.slot = m.slot)) ++ [m] }

/-- Word i of a request's entry. -/
def SrvReq.word (r : SrvReq) (i : Nat) : Nat := r.words.getD i 0

/-- The request's model slot, output form, tokens per entry, tokens to generate, and prompt length (R575). -/
def SrvReq.slot (r : SrvReq) : Nat := nbits (r.word 2) 51 48
/-- The request wants text too. -/
def SrvReq.wantsText (r : SrvReq) : Bool := nbits (r.word 2) 61 60 = 1
/-- Tokens per stream entry. -/
def SrvReq.tpe (r : SrvReq) : Nat := nbits (r.word 2) 59 57
/-- Tokens to generate. -/
def SrvReq.maxNew (r : SrvReq) : Nat := nbits (r.word 2) 47 32
/-- Prompt length in tokens or bytes. -/
def SrvReq.plen (r : SrvReq) : Nat := nbits (r.word 2) 31 0

/-- The prompt followed by the tokens generated (R585). -/
def SrvReq.ctx (r : SrvReq) : List Nat := r.tokens.getD [] ++ r.gen

/-- A request of the engine. -/
def State.srvReq (s : State) (rid : Nat) : Option SrvReq := s.kp.srv.reqs.find? (fun r => r.rid = rid)

/-- Replace a request in its place. -/
def State.putReq (s : State) (r : SrvReq) : State :=
  let x := s.kp.srv
  (s.setSrv { x with reqs := x.reqs.map (fun y => if y.rid = r.rid then r else y) }).srvCount r.plot

/-! ### Stream entries (R590, R591) -/

/-- Word 2 of a stream entry. -/
def streamWord (rid ntok blen fin flags pos : Nat) : Nat :=
  rid <<< 48 + ntok <<< 45 + blen <<< 40 + fin <<< 37 + flags <<< 32 + pos % 2 ^ 32

/-- A stream entry (R590). -/
def streamEntry (cid status wait retry rid fin flags pos : Nat) (toks text : List Nat) : Entry :=
  let t := fun i => toks.getD i 0
  let b := fun (i : Nat) => ofLe (bytesAt text (8 * i) 8)
  ⟨status, cid, 3, [wait % 2 ^ 32 <<< 32 + retry % 2 ^ 32, streamWord rid toks.length text.length fin flags pos, t 0 + t 1 <<< 32,
    t 2 + t 3 <<< 32, b 0, b 1, b 2], none⟩

/-- Post one entry of a request with the next n bytes of its text and every token that waits. `fin` is END; 0 while it runs. -/
def State.streamPost (s : State) (r : SrvReq) (n fin status code : Nat) : SrvReq × State :=
  let toks := r.gen.drop r.posted
  let text := r.text.take n
  let first := r.granted && !r.began
  let told := !toks.isEmpty && r.preWait.isSome
  let wait := if first then r.wait else if told then r.preWait.getD 0 else 0
  let late := s.fld ADMIT_CFG_DELAY_THR 0 0 < r.wait
  let st := if fin ≠ 0 then (if status = 0 && r.delayed then 1 else status) else if first && late then 1 else 0
  let flags := (if first then 1 else 0) + (if fin ≠ 0 then 2 else 0) + (if r.cont && !text.isEmpty then 4 else 0)
  let pos := if code ≠ 0 then code else r.posted
  let r1 := { r with posted := r.gen.length, text := r.text.drop n, cont := n < r.text.length, began := true,
                     preWait := if told then none else r.preWait }
  (r1, s.postEntry r.q (streamEntry r.cid st wait 0 r.rid fin flags pos toks text))

/-- Post what is due of a running request: entries that hold TPE tokens or are full of text. -/
def State.streamDue (s : State) (r : SrvReq) : Nat → SrvReq × State
  | 0 => (r, s)
  | n + 1 =>
    if 24 ≤ r.text.length || r.tpe ≤ r.gen.length - r.posted then
      let x := s.streamPost r 24 0 0 0
      x.2.streamDue x.1 n
    else (r, s)

/-- Post what is left of a request that ends: full text entries, and then its LAST entry. -/
def State.streamLast (s : State) (r : SrvReq) (fin status code : Nat) : Nat → State
  | 0 => s
  | n + 1 =>
    if 24 < r.text.length then
      let x := s.streamPost r 24 0 0 0
      x.2.streamLast x.1 fin status code n
    else (s.streamPost r 24 fin status code).2

/-- A request that is refused gets one entry, with LAST set and no tokens (R578). (DESIGN CHOICE: notes/assumptions/37.md.) -/
def State.streamRefuse (s : State) (q cid plot rid status retry : Nat) : State :=
  (s.bump SRV_STAT_W1_REFUSED 0 plot).postEntry q (streamEntry cid status 0 retry rid 7 2 0 [] [])

/-! ### Provenance (R560 to R563, R592) -/

/-- The 12 bytes of the time counter (R689). -/
def State.timeBytes (s : State) : List Nat :=
  leBytes (s.fld TIME_NOW_0_FRAC 0 0 + s.timeNs <<< 16 + s.timeSec <<< 48) 12

/-- The class that a request has earned: that which its model claims, unless a marked operation was counted, or its tokens may depend on
others of its steps (R560, R592). -/
def srvEarned (m : SrvModel) (r : SrvReq) : Nat :=
  let flags := m.d 5 1
  if (r.marks.take 3).any (· ≠ 0) || (nbit flags 0 = 0 && r.shared) then 0 else nbits flags 2 1

/-- The record of a request (R561, R563, R592). -/
def State.srvRecord (s : State) (m : SrvModel) (r : SrvReq) : List Nat :=
  let dig := fun (i : Nat) => bytesAt m.desc (128 + 48 * i) 48
  let toks := fun (l : List Nat) => l.flatMap (fun t => leBytes t 4)
  let claimed := nbits (m.d 5 1) 2 1
  let seed := leBytes (r.word 3) 8
  let inputs := sha384 (leBytes (r.word 4) 8 ++ leBytes (r.word 5) 8 ++ leBytes (r.word 6) 8 ++ leBytes r.maxNew 4 ++ toks (r.tokens.getD []))
  let image := (List.range 6).flatMap (fun i => leBytes (s.reg .IMG_DIGEST_i 0 i).toNat 8)
  let mods := leBytes (m.d 38 2) 2
  let front := dig 0 ++ dig 1 ++ inputs ++ dig 2
  let body := leBytes 0x31565250 4 ++ leBytes 1 2 ++ [claimed, srvEarned m r] ++ mods ++ [r.plot, s.fld MOD_IDENT_STEPPING 0 0]
    ++ leBytes (2 ^ 2 + 2 ^ 5 + 2 ^ 6) 4 ++ seed ++ leBytes (imgLe s.kp.img.inForce 24 8) 8 ++ front ++ dig 3 ++ image ++ sha384 (toks r.gen)
    ++ leBytes (r.marks.foldl (fun a x => a <<< 16 + min 0xFFFF x) 0) 8 ++ s.timeBytes ++ leBytes 0 4
  let key := sha384 ([claimed] ++ seed ++ front ++ (if claimed = 1 then mods ++ dig 3 else []))
  let all := body ++ key
  all ++ sha384 all

/-- Write the record of a request that wants one (R592). -/
def State.srvProve (s : State) (r : SrvReq) : State :=
  match s.srvModel r.plot r.slot with
  | none => s
  | some m =>
    if r.word 7 = 0 then s
    else
      let v := ofLe (s.srvRecord m r)
      let a : Word := BitVec.ofNat 64 (r.word 7)
      if nbit (r.word 0) 54 = 1 then s.hostWrite (s.fld QP_BIND_FUNC r.q 0) a 488 v
      else (s.writeVia (s.qWho r.q) a 488 v 0).2.2

/-! ### The end of a request (R589, R593) -/

/-- A request ends: its record, what is left of its stream, its slot and blocks, and the completions of the CANCELs that name it. -/
def State.srvEnd (s : State) (r : SrvReq) (fin status code : Nat) : State :=
  let s1 := (s.srvProve r).streamLast r fin status code (r.text.length + 2)
  let x := s1.kp.srv
  let s2 := (s1.setSrv { x with reqs := x.reqs.filter (fun y => y.rid ≠ r.rid) }).srvCount r.plot
  (s2.cp.cmds.filter (fun k => r.cancels.contains k.seq)).foldl (fun s k => s.complete { k with res0 := 1, phase := .atFetch } 0 0 []) s2

/-- A member's connection has failed: every request of the slots that it serves ends, and they accept nothing until they are loaded again
(R594). -/
def State.srvPeerLost (s : State) (peer : Nat) : State :=
  let hit := fun (m : SrvModel) => m.leader.isNone && m.members.any (fun v => s.fld TU_MODMAP_v_ID m.plot v = peer)
  (s.kp.srv.models.filter hit).foldl (fun s m =>
    let s1 := (s.kp.srv.reqs.filter (fun r => r.plot = m.plot && r.slot = m.slot)).foldl (fun s r => s.srvEnd r 7 0x0806 0) s
    s1.putModel { m with lost := true, step := none }) s

end Sys2Proof.Machine
end

