-- ==== Sys2Proof/Machine/Fab.lean ====
section
/-!
DEFINITION. The Aelx memory fabric: ports, the link layer of direct ports, routed frames, the transport's connections, and the messages
served at ingress (R423 to R458). What CRC-32, AES-256-GCM and the addresses of a frame's network headers came to is an operand of
the command that brings the frame; its bytes run from the link header, or the transport header of a routed frame, to the last message.
-/
namespace Sys2Proof.Machine

/-! ### Ports (R425, R426) -/

/-- A port's link state as a link-up leaves it: its keys stay, and the cells of messages that came before owe no credit (R432). -/
def FabPort.fresh (p : FabPort) (credit : Sparse Nat) : FabPort :=
  { keys := p.keys, key := p.key, sealed := p.sealed, comb := p.comb, credit := credit, rx := p.rx.map (fun r => { r with cells := 0 }) }

/-- Requests that have not left, and for whose peer no port is UP any more, are answered PEER_UNREACHABLE (R445). -/
def State.answerUnsent (s : State) : State :=
  let lost := s.kp.fab.conns.filter (fun e => (s.portsTo e.1).isEmpty)
  let waits := fun (o : FabOut) => lost.any (fun e => e.1 = o.peer && e.2.spaces.any (fun x => x.2.queue.any (fun q => q.tag = o.tag && !q.isReply)))
  let out := s.kp.fab.outs.filter waits
  let left := fun (e : Nat × Conn) => if lost.contains e then
      (e.1, { e.2 with spaces := Sparse.mapVals {} (fun x => { x with queue := x.queue.filter (fun q => q.isReply || !out.any (fun o => o.tag = q.tag)) }) e.2.spaces })
    else e
  out.foldl (fun s o => s.outReply o 0x0381 0 0) (s.setFab { s.kp.fab with conns := s.kp.fab.conns.map left })

/-- A port goes DOWN (R431): the transport recovers what its replay buffer holds. -/
def State.portDown (s : State) (m : Nat) : State :=
  ((s.setPort m { s.fport m with replay := [], replays := 0, naked := false }).setFld PORT_STAT_STATE m 0 4).answerUnsent

/-- A port is UP: it joins the port table's choices. -/
def State.portRise (s : State) (m : Nat) (credit : Sparse Nat) : State :=
  ((s.setPort m ((s.fport m).fresh credit)).setFld PORT_STAT_STATE m 0 3).pumpAll

/-- A write of PORT_CFG: MODE, SPEED, PMD and ENC stay while EN is 1; setting EN starts TRAINING, clearing it disables
the port (R426, R457). A port in loopback keeps EN at 0 (R727). -/
def State.portCfg (s : State) (m v : Nat) : State :=
  let old := s.reg .PORT_CFG m 0
  let on := bitsOf old 31 31 = 1
  let w := RegName.written .PORT_CFG true 31 0 old (BitVec.ofNat 64 v)
  let w1 := if on then withBits (withBits w 30 27 (bitsOf old 30 27)) 25 25 (bitsOf old 25 25) else w
  let w2 := if s.fld LB_CTL_i_STATE 0 m = 1 then withBits w1 31 31 0 else w1
  let s1 := s.setReg .PORT_CFG m 0 w2
  if !on && bitsOf w2 31 31 = 1 then s1.setFld PORT_STAT_STATE m 0 1
  else if on && bitsOf w2 31 31 = 0 then ((s1.setPort m ((s1.fport m).fresh [])).setFld PORT_STAT_STATE m 0 0).answerUnsent
  else s1

/-- PORT_ENABLE: a write of PORT_CFG. -/
def execPortEnable (ag : Agent) (m : Fin 32) (v : BitVec 32) (s : State) : Res :=
  .next (s.fabRun (fun s => s.regWrite ag (portOff m 0) 4 (fun s =>
    s.portCfg m v.toNat)))

/-- The pool sizes of a port, by 2 × VC + lane. -/
def State.poolOf (s : State) (m k : Nat) : Nat :=
  if k % 2 = 1 then s.fld PORT_POOL_v_RESP m (k / 2) else s.fld PORT_POOL_v_REQ m (k / 2)

/-- PORT_TRAINING_DONE: the PCS has locked; a direct port sends its INIT frame, a routed port answers for its address and is UP
(R426). -/
def execPortTrainingDone (m : Fin 32) (s : State) : Res :=
  .next (s.fabRun (fun s =>
    if s.fld PORT_STAT_STATE m 0 ≠ 1 then s
    else if s.portRouted m then s.portRise m []
    else (s.setFld PORT_STAT_STATE m 0 2).send .frame ([m.val, 2, s.fld MODULE_ID_ID 0 0, m.val] ++ (List.range 8).map (s.poolOf m))))

/-- PORT_INIT_FRAME: the peer's INIT with its module ID, port and pool sizes by 2 × VC + lane; a port whose peer reports this module's
own ID stays in INIT (R426, R432). -/
def execPortInitFrame (m : Fin 32) (peer : BitVec 16) (port : Fin 32) (pools : List (Fin 4096)) (s : State) : Res :=
  .next (s.fabRun (fun s =>
    if s.fld PORT_STAT_STATE m 0 ≠ 2 then s
    else
      let s1 := (s.setFld PORT_STAT_PEER_ID m 0 peer.toNat).setFld PORT_STAT_PEER_PORT m 0 port
      if peer.toNat = s.fld MODULE_ID_ID 0 0 then s1
      else s1.portRise m ((List.range 8).foldl (fun a k => Sparse.set 0 a k (pools.getD k 0).val) [])))

/-- PORT_UP_TIMEOUT: an enabled port that is not UP within 2 s, or that has gone DOWN, is in TRAINING again (R426, R431). -/
def execPortUpTimeout (m : Fin 32) (s : State) : Res :=
  .next (if s.fld PORT_CFG_EN m 0 = 1 && s.fld PORT_STAT_STATE m 0 ≠ 3 then s.setFld PORT_STAT_STATE m 0 1 else s)

/-- FABRIC_LANE_FAIL: a lane that fails takes a routed port DOWN (R425); a direct port's spare lanes are the Keepers' procedure. -/
def execFabricLaneFail (m : Fin 32) (s : State) : Res :=
  .next (if s.portRouted m && s.portUp m then s.portDown m else s)

/-! ### The link layer (R429 to R432) -/

/-- Send a CTRL frame: acknowledgement, the credit of one pool, and NAK. -/
def State.sendCtrl (s : State) (m : Nat) (o : Nat × Nat) (nak : Bool) : State :=
  let p := s.fport m
  let n := min o.2 4095
  (s.setPort m { p with owed := Sparse.set 0 p.owed o.1 (Sparse.get 0 p.owed o.1 - n) }).send .frame
    ([m, 0] ++ linkHeader 1 0 p.lrx (o.1, n) nak)

/-- Credit falls due; a pool with 1/8 of its cells to return gets a CTRL frame at once (R432). -/
def State.oweCells (s : State) (m k n : Nat) : State :=
  if n = 0 || s.portRouted m then s
  else
    let p := s.fport m
    let o := Sparse.get 0 p.owed k + n
    let s1 := s.setPort m { p with owed := Sparse.set 0 p.owed k o }
    if s.poolOf m k ≤ 8 * o && s.portUp m then s1.sendCtrl m (k, o) false else s1

/-- A frame is discarded: the first since one was accepted is answered NAK (R430). -/
def State.linkNak (s : State) (m : Nat) : State :=
  let p := s.fport m
  if p.naked then s else (s.setPort m { p with naked := true }).sendCtrl m p.firstOwed true

/-- Replay what is unacknowledged, or take the port DOWN after RETRY_MAX replays without progress (R431). -/
def State.linkReplay (s : State) (m : Nat) : State :=
  let p := s.fport m
  if p.replay.isEmpty then s
  else if s.fld PORT_LINK_RETRY_MAX m 0 ≤ p.replays then s.portDown m
  else
    let s1 := (s.setPort m { p with replays := p.replays + 1 }).bump PORT_ERR_REPLAY m 0
    p.replay.foldl (fun s e => s.send .frame ([m, 0] ++ e.2)) s1

/-- What a link header brings beside its frame: acknowledgement, credit and NAK (R429, R431). -/
def State.linkTake (s : State) (m : Nat) (h : Word) : State :=
  let p := s.fport m
  let lack := bitsOf h 31 16
  let left := p.replay.filter (fun e => 32768 ≤ (lack + 65536 - e.1) % 65536)
  let k := bitsOf h 15 13
  let s1 := s.setPort m { p with
    replay := left
    replays := if left.length < p.replay.length then 0 else p.replays
    credit := Sparse.set 0 p.credit k (Sparse.get 0 p.credit k + bitsOf h 11 0) }
  (if bitsOf h 12 12 = 1 then s1.linkReplay m else s1).pumpAll

/-- LINK_CTRL_FRAME: a CTRL frame's acknowledgement, credit and NAK (R429, R432). -/
def execLinkCtrlFrame (m : Fin 32) (fcs : Bool) (h : Word) (s : State) : Res :=
  .next (s.fabRun (fun s =>
    if !s.portUp m || s.portRouted m then s
    else if !fcs || bitsOf h 63 60 ≠ 1 then s.bump PORT_ERR_FCS m 0
    else if bitsOf h 59 56 ≠ 1 then s
    else s.linkTake m h))

/-- LINK_ACK_TIMEOUT: LACK has not advanced for ACK_TO µs (R431). -/
def execLinkAckTimeout (m : Fin 32) (s : State) : Res :=
  .next (s.fabRun (fun s => if s.portUp m && !s.portRouted m then s.linkReplay m else s))

/-- CREDIT_RETURN_TIMER: owed credit is returned in CTRL frames (R432). -/
def execCreditReturnTimer (m : Fin 32) (s : State) : Res :=
  .next (s.fabRun (fun s =>
    if s.portUp m && !s.portRouted m then (s.fport m).owed.foldl (fun s o => s.sendCtrl m o false) s else s))

/-! ### The transport (R434 to R438, R453) -/

/-- A message with a reserved OP, or a LEN beyond its operation's limit (R440). -/
def FabMsg.bad (m : FabMsg) : Bool :=
  match m.op with
  | 0x01 => m.len = 0 || 240 < m.len
  | 0x02 | 0x08 | 0x48 | 0x81 => 240 < m.len
  | 0x03 | 0x14 | 0x22 | 0x23 | 0x82 | 0x83 => 8 < m.len
  | 0x10 | 0x11 | 0x12 | 0x13 | 0x20 | 0x21 | 0x24 | 0x40 | 0x80 | 0x84 | 0x85 => 0 < m.len
  | 0x30 | 0x31 | 0x32 => 64 < m.len
  | _ => true

/-- A message travels on the response lane (R440, R454). -/
def FabMsg.onResponse (m : FabMsg) : Bool := m.isReply || m.op = 0x40

/-- Frames of a space that TACK and SACK acknowledge (R435). -/
def ackedBy (h : TpHeader) (f : FabFrame) : Bool :=
  let d := (f.tseq + 2 ^ 33 - h.tack - 1) % 2 ^ 32
  2 ^ 31 ≤ d || (d < 64 && nbit h.sack d = 1)

/-- The window after n more frames are acknowledged, and the count toward its next growth (R453). -/
def grown (w g : Nat) : Nat → Nat × Nat
  | 0 => (w, g)
  | n + 1 => if w ≤ g + 1 then grown (min 64 (w + 1)) 0 n else grown w (g + 1) n

/-- Take the acknowledgement in a header for the reverse space: ours of the same VC and lane. A routed space's window halves where the
frame was marked CE, and grows otherwise (R436, R453). -/
def State.takeAck (s : State) (peer : Nat) (h : TpHeader) (ce : Bool) : State :=
  match s.conn peer with
  | none => s
  | some c =>
    let k := 2 * h.vc + bit h.resp
    let x := c.space k
    let left := x.frames.filter (fun f => !ackedBy h f)
    let n := x.frames.length - left.length
    let w := if ce then (max 1 (x.window / 2), 0) else grown x.window x.grow n
    let c1 := { c with opening := c.opening && n = 0, busy := c.busy && n = 0 }
    (s.setConn peer (c1.setSpace k { x with frames := left, window := w.1, grow := w.2 })).pumpAll

/-- Outstanding messages of a replaced connection are answered PEER_UNREACHABLE (R437). -/
def State.answerOuts (s : State) (peer status : Nat) : State :=
  (s.kp.fab.outs.filter (fun o => o.peer = peer)).foldl (fun s o => s.outReply o status 0 0) s

/-- The connection that a received frame belongs to, created or replaced by OPEN: none where the frame is discarded (R437). -/
def State.connFor (s : State) (m : Nat) (h : TpHeader) : Option State × State :=
  let create := fun (s : State) => s.setConn h.smod { gen := h.gen }
  match s.conn h.smod with
  | some c =>
    if c.gen = h.gen then (some s, s)
    else if h.opening then (some (create (s.answerOuts h.smod 0x0381)), s)
    else (none, s.bump PORT_DROP_NOCONN m 0)
  | none =>
    if !h.opening then (none, s.bump PORT_DROP_NOCONN m 0)
    else if 4096 ≤ s.kp.fab.conns.length then
      let g : TpHeader := { h with smod := s.fld MODULE_ID_ID 0 0, dmod := h.smod, opening := false, close := false, busy := true, enc := false,
                                   msgs := 0, tseq := 0, tack := 2 ^ 32 - 1, sack := 0 }
      let s1 := s.bump FAB_CONN_BUSY 0 0
      (none, if s.portRouted m then s1.send .frame ([m, 1] ++ s.routedArgs m h.smod h.vc ++ g.bytes) else s1.sendDirect m 0 0 g.bytes)
    else (some (create s), s)

/-- Record TSEQ as received: the next in order, with those after it that are here already (R436). -/
def Space.receive (x : Space) (t : Nat) : Space :=
  let run := fun (r : Nat) (got : List Nat) => ((List.range 64).foldl (fun a _ =>
    if a.2.contains a.1 then ((a.1 + 1) % 2 ^ 32, a.2.filter (· ≠ a.1)) else a) (r, got))
  let y := run x.rx (x.got ++ [t])
  { x with rx := y.1, got := y.2 }

/-- A frame's TSEQ is one that its space accepts (R436). -/
def Space.accepts (x : Space) (t : Nat) : Bool := (t + 2 ^ 32 - x.rx) % 2 ^ 32 < 64 && !x.got.contains t

/-- Nothing of a connection is outstanding on this side: no frame, no message that waits, no request of ours without its reply and none of the
peer's that we still serve (R437). (DESIGN CHOICE: notes/assumptions/46.md.) -/
def State.connIdle (s : State) (peer : Nat) (c : Conn) : Bool :=
  c.spaces.all (fun e => e.2.frames.isEmpty && e.2.queue.isEmpty) && s.kp.fab.outs.all (fun o => o.peer ≠ peer)
    && s.kp.fab.finals.all (fun f => f.peer ≠ peer) && s.kp.fab.ports.all (fun p => p.2.rx.all (fun r => r.peer ≠ peer))

/-- A CLOSE is answered, and the connection freed, once nothing is outstanding here (R437). -/
def State.takeClose (s : State) (peer : Nat) : State :=
  match s.conn peer with
  | none => s
  | some c =>
    if !s.connIdle peer c then s
    else if c.closing then s.dropConn peer
    else (s.sendAck peer 0 true false).dropConn peer

/-- The cells of a pool of a routed port that its waiting messages hold. -/
def FabPort.held (p : FabPort) (k : Nat) : Nat :=
  p.rx.foldl (fun a r => if 2 * r.vc + bit r.resp = k then a + r.cells else a) 0

/-- The messages of an accepted frame: a bad one is answered FAB_DENIED at once, the others wait at the port, the last with the frame's
cells (R436, R440). (DESIGN CHOICE: notes/assumptions/46.md, 47.md.) -/
def State.landMsgs (s : State) (m : Nat) (h : TpHeader) (cells : Nat) (l : List FabMsg) : State :=
  let k := 2 * h.vc + bit h.resp
  let fits := fun (x : FabMsg) => !x.bad && x.onResponse = h.resp
  let bad := l.filter (fun x => !fits x && !x.isReply)
  let good := l.filter fits
  let s1 := bad.foldl (fun s x => (s.fabReply h.smod h.vc { op := 0x80, plot := x.plot, epoch := x.epoch, tag := x.tag, strm := 0x0382 }).bump
    PORT_DROP_DENIED m 0) s
  if good.isEmpty then s1.oweCells m k cells
  else
    let rx := good.mapIdx (fun i x => ({ peer := h.smod, vc := h.vc, resp := h.resp, cells := if i + 1 = good.length then cells else 0, msg := x } : RxMsg))
    s1.setPort m { s1.fport m with rx := (s1.fport m).rx ++ rx }

/-- A frame reaches the transport (R435 to R438, R441 order 1, R449, R451, R453). `auth` says that its tag is good, `ce` that it was
marked CE. -/
def State.transport (s : State) (m : Nat) (auth ce : Bool) (b : List Nat) : State :=
  let h := readTp b
  let l := readMsgs (b.drop 24) (min h.msgs 32)
  let k := 2 * h.vc + bit h.resp
  let cells := if h.msgs = 0 then 0 else cellsOf h.enc l
  let drop := fun (s : State) => s.oweCells m k cells
  let keys := if s.portRouted m then (s.peerKeys h.smod).keys else (s.fport m).keys
  if h.dmod ≠ s.fld MODULE_ID_ID 0 0 || b.length < 24 then drop (s.bump PORT_DROP_MISDEL m 0)
  else if (h.enc && (!auth || nbit keys h.key = 0)) || (!h.enc && h.msgs ≠ 0 && s.fld PORT_CFG_ENC m 0 = 1) then
    drop (s.bump PORT_DROP_AUTH m 0)
  else if h.busy then
    match s.conn h.smod with
    | some c => if c.gen = h.gen && c.opening then s.setConn h.smod { c with busy := true } else s
    | none => s
  else
    match s.connFor m h with
    | (none, s1) => drop s1
    | (some s0, _) =>
      let s1 := s0.takeAck h.smod h ce
      if h.msgs = 0 then (if h.close then s1.takeClose h.smod else s1)
      else match s1.conn h.smod with
        | none => s1
        | some c =>
          let x := c.space k
          if !x.accepts h.tseq || (s.portRouted m && s.poolOf m k < (s1.fport m).held k + cells) then drop s1
          else
            let s2 := s1.setConn h.smod ({ c with closing := false }.setSpace k (x.receive h.tseq))
            (s2.landMsgs m h cells l).sendAck h.smod k false false

/-- LINK_DATA_FRAME: a DATA frame at a direct port is accepted in order, or discarded (R430). (DESIGN CHOICE: notes/assumptions/45.md.) -/
def execLinkDataFrame (m : Fin 32) (fcs auth : Bool) (bytes : List Byte) (s : State) : Res :=
  .next (s.fabRun (fun s =>
    let b := bytes.map BitVec.toNat
    let h := BitVec.ofNat 64 (ofBe (bytesAt b 0 8))
    let p := s.fport m
    if !s.portUp m || s.portRouted m then s
    else if !fcs || bitsOf h 63 60 ≠ 1 then (s.bump PORT_ERR_FCS m 0).linkNak m
    else if bitsOf h 59 56 ≠ 0 then s
    else if bitsOf h 47 32 ≠ (p.lrx + 1) % 65536 then s.linkNak m
    else ((s.setPort m { p with lrx := bitsOf h 47 32, naked := false }).linkTake m h).transport m auth false (b.drop 8)))

/-- ROUTED_FRAME_RECEIVE: a UDP datagram at a routed port; one for another address or UDP port is discarded (R452, R453).
(DESIGN CHOICE: notes/assumptions/45.md.) -/
def execRoutedFrameReceive (m : Fin 32) (addrOk auth ce : Bool) (bytes : List Byte) (s : State) : Res :=
  .next (s.fabRun (fun s =>
    if !s.portUp m || !s.portRouted m then s
    else if !addrOk then s.bump PORT_DROP_MISDEL m 0
    else s.transport m auth ce (bytes.map BitVec.toNat)))

/-- Send a frame of a space again, by its port while that may be used, or another (R436, R445). -/
def State.resend (s : State) (peer k tseq : Nat) : State :=
  match s.conn peer with
  | none => s
  | some c =>
    let x := c.space k
    match x.frames.find? (fun f => f.tseq = tseq) with
    | none => s
    | some f =>
      let cells := cellsOf true f.msgs
      let put := fun (port : Nat) => x.frames.map (fun g => if g.tseq = tseq then { g with tries := g.tries + 1, port := port } else g)
      match s.pickPort peer k cells x with
      | none => s.setConn peer (c.setSpace k { x with frames := put f.port })
      | some m =>
        let y := { x with frames := put m, window := if s.portRouted m then max 1 (x.window / 2) else x.window,
                          port := if s.portRouted m then some m else x.port }
        let c1 := c.setSpace k y
        (s.setConn peer c1).sendFrame m peer k c1 tseq f.msgs false false

/-- TRANSPORT_RETRANSMIT: a frame has gone unacknowledged for the retransmit time; after RETRY_MAX re-sends its connection fails
(R436, R438). -/
def execTransportRetransmit (peer : BitVec 16) (vc : Fin 4) (resp : Bool) (tseq : BitVec 32) (s : State) : Res :=
  let k := 2 * vc.val + bit resp
  .next (s.fabRun (fun s => match s.conn peer.toNat with
    | none => s
    | some c => match (c.space k).frames.find? (fun f => f.tseq = tseq.toNat) with
      | none => s
      | some f => if s.fld FAB_CFG_RETRY_MAX 0 0 ≤ f.tries then (s.failConn peer.toNat 0x0381).srvPeerLost peer.toNat else s.resend peer.toNat k tseq.toNat))

/-- CONNECTION_IDLE_CLOSE: 10 ms with nothing outstanding in any space (R437). -/
def execConnectionIdleClose (peer : BitVec 16) (s : State) : Res :=
  .next (s.fabRun (fun s => match s.conn peer.toNat with
    | none => s
    | some c =>
      if !s.connIdle peer.toNat c then s
      else (s.setConn peer.toNat { c with closing := true }).sendAck peer.toNat 0 true false))

/-- CONNECTION_OPEN_RETRY: 100 µs after BUSY the frames that open the connection are sent again; once BUSY has answered for 10 ms
(`expired`) the connection fails (R437, R438). -/
def execConnectionOpenRetry (peer : BitVec 16) (expired : Bool) (s : State) : Res :=
  .next (s.fabRun (fun s => match s.conn peer.toNat with
    | none => s
    | some c =>
      if !c.busy then s
      else if expired then (s.failConn peer.toNat 0x0102).srvPeerLost peer.toNat
      else
        let s1 := s.setConn peer.toNat { c with busy := false }
        c.spaces.foldl (fun s e => e.2.frames.foldl (fun s f => s.resend peer.toNat e.1 f.tseq) s) s1))

/-! ### Ingress (R440 to R443) -/

/-- The world, level, plot and epoch with which a request enters the Trellis (R441). -/
def State.rxWho (s : State) (m : Nat) (x : FabMsg) : Who :=
  ⟨if x.kw then 1 else 0, if x.sup && s.fld PORT_BIND_SUP_OK m 0 = 1 then 1 else 0, x.plot, none, none, x.epoch, none⟩

/-- The same as the agent of a command. -/
def State.rxAgent (s : State) (m : Nat) (x : FabMsg) : Agent :=
  { keeper := x.kw, sup := x.sup && s.fld PORT_BIND_SUP_OK m 0 = 1, plot := ⟨x.plot % 64, Nat.mod_lt _ (by decide)⟩,
    epoch := BitVec.ofNat 8 x.epoch, core := none, thread := none }

/-- A request that R441 refuses. (DESIGN CHOICE: notes/assumptions/47.md.) -/
def State.rxDenied (s : State) (m : Nat) (x : FabMsg) : Bool :=
  (x.kw && s.fld PORT_BIND_KEEPER_OK m 0 = 0) || (x.op = 0x48 && !x.kw) || nbit (s.fld PORT_PLOTS_PLOTS m 0) x.plot = 0

/-- Answer a request on the response lane of its class (R442). (DESIGN CHOICE: notes/assumptions/47.md.) -/
def State.rxAnswer (s : State) (r : RxMsg) (op status len data arg : Nat) : State :=
  s.fabReply r.peer r.vc { op := op, kw := r.msg.kw, sup := r.msg.sup, plot := r.msg.plot, epoch := r.msg.epoch, len := len, tag := r.msg.tag,
                           strm := status, data := data, arg := arg }

/-- A message leaves its port's buffer, and its cells are to be returned (R432). -/
def State.rxTake (s : State) (m : Nat) (r : RxMsg) : State :=
  let p := s.fport m
  (s.setPort m { p with rx := p.rx.erase r }).oweCells m (2 * r.vc + bit r.resp) r.cells

/-- The oldest message that waits in a lane of a port. -/
def State.rxFront (s : State) (m vc : Nat) (resp : Bool) : Option RxMsg := (s.fport m).rx.find? (fun r => r.vc = vc && r.resp = resp)

/-! Stream counters (R446). -/

/-- The stream counters of a peer. -/
def State.streams (s : State) (peer : Nat) : List Stream := ((s.conn peer).map (·.streams)).getD []

/-- Replace the stream counters of a peer. -/
def State.setStreams (s : State) (peer : Nat) (l : List Stream) : State :=
  match s.conn peer with
  | some c => s.setConn peer { c with streams := l }
  | none => s

/-- Find or give a stream its counter; none where all 64 are in use. -/
def State.streamTake (s : State) (peer num : Nat) : Option State :=
  let l := s.streams peer
  if num = 0 || l.any (fun x => x.num = num) then some s
  else if 64 ≤ l.length then none
  else some (s.setStreams peer (l ++ [{ num := num }]))

/-- Free a counter that reads 0, has FAILED clear and holds no WRITE_FINAL. -/
def State.streamTidy (s : State) (peer num : Nat) : State :=
  let holds := s.kp.fab.finals.any (fun f => f.peer = peer && f.msg.strm = num)
  s.setStreams peer ((s.streams peer).filter (fun x => !(x.num = num && x.count = 0 && !x.failed && !holds)))

/-- Replace the held WRITE_FINALs, shown in HELD. -/
def State.setFinals (s : State) (l : List FabFinal) : State :=
  (s.setFab { s.kp.fab with finals := l }).setFld FAB_STREAM_HELD 0 0 (min 255 l.length)

/-- The first held WRITE_FINAL of a stream whose count has been reached is performed, or answered STREAM_FAILED (R352, R446); one whose
target's translation is held goes on waiting. (DESIGN CHOICE: notes/assumptions/48.md.) -/
def State.finalStep (s : State) (peer num : Nat) : State :=
  let c := ((s.streams peer).find? (fun x => x.num = num)).getD { num := num }
  match s.kp.fab.finals.find? (fun f => f.peer = peer && f.msg.strm = num && f.msg.arg % 2 ^ 32 ≤ c.count) with
  | none => s
  | some f =>
    let r : RxMsg := { peer := peer, vc := f.vc, resp := false, cells := 0, msg := f.msg }
    let done := fun (status : Nat) (s : State) =>
      let l := (s.streams peer).map (fun x => if x.num = num then { x with count := x.count - f.msg.arg % 2 ^ 32, failed := false } else x)
      ((s.setFinals (s.kp.fab.finals.erase f)).setStreams peer l).rxAnswer r 0x80 status 0 0 0
    if c.failed then done 0x0384 s
    else match s.reach (s.rxWho f.port f.msg) (ownAddr f.msg.off) 8 true with
      | .hold _ => s
      | .refused st s1 => done st s1
      | .to p =>
        if f.msg.off % 8 ≠ 0 then done 0x0402 s
        else
          let w : Watch := { word := 0, onFull := true, waiter := 0, plot := f.msg.plot, epoch := f.msg.epoch, waitf := false }
          let x := s.memFe p 3 (BitVec.ofNat 64 f.msg.data) true 3 none w
          done x.1.status x.2

/-- Complete every WRITE_FINAL of a stream that its arrivals allow, and free the counter. (DESIGN CHOICE: notes/assumptions/48.md.) -/
def State.finals (s : State) (peer num : Nat) : State :=
  ((List.range s.kp.fab.finals.length).foldl (fun s _ => s.finalStep peer num) s).streamTidy peer num

/-- A counted write has been performed, with a status (R446). (DESIGN CHOICE: notes/assumptions/48.md.) -/
def State.streamArrive (s : State) (peer num status : Nat) : State :=
  if num = 0 then s
  else (s.setStreams peer ((s.streams peer).map (fun x =>
    if x.num = num then { x with count := (x.count + 1) % 2 ^ 32, failed := x.failed || 1 < status } else x))).finals peer num

/-- Whether a request is a counted write of its stream (R350). -/
def FabMsg.counted (x : FabMsg) : Bool :=
  x.strm ≠ 0 && (x.op = 0x02 || x.op = 0x08 || (0x10 ≤ x.op && x.op ≤ 0x14) || (0x22 ≤ x.op && x.op ≤ 0x24))

/-- A counted write ends with a status before it is served. (DESIGN CHOICE: notes/assumptions/48.md.) -/
def State.streamFail (s : State) (r : RxMsg) (status : Nat) : State :=
  if r.msg.counted then match s.streamTake r.peer r.msg.strm with
    | some s1 => s1.streamArrive r.peer r.msg.strm status
    | none => s
  else s

/-- Serve the oldest request of a lane, if its operation is one of `ops`: refused by R441, answered REFUSED_BUSY where its stream gets no
counter, or served by `f`, which leaves it waiting with `none`. -/
def State.serve (s : State) (m vc : Nat) (resp : Bool) (ops : List Nat) (f : RxMsg → Who → State → Option State) : State :=
  s.fabRun (fun s => match s.rxFront m vc resp with
    | none => s
    | some r =>
      if !ops.contains r.msg.op then s
      else
        let s1 := s.rxTake m r
        if s.rxDenied m r.msg then ((s1.streamFail r 0x0382).rxAnswer r 0x80 0x0382 0 0 0).bump PORT_DROP_DENIED m 0
        else if !(r.msg.counted || (r.msg.op = 0x03 && r.msg.strm ≠ 0)) then (f r (s.rxWho m r.msg) s1).getD s
        else match s1.streamTake r.peer r.msg.strm with
          | none =>
            let h := s1.free
            h.2.rxAnswer r 0x80 0x0102 0 0 (h.1 % 2 ^ 32)
          | some s2 => (f r (s.rxWho m r.msg) s2).getD s)

/-- AELX_READ (R440). -/
def execAelxRead (m : Fin 32) (vc : Fin 4) (s : State) : Res :=
  .next (s.serve m vc false [0x01] (fun r w s =>
    let x := s.readVia w (ownAddr r.msg.off) r.msg.len 0 0
    if x.1 = viaHold then none
    else some (x.2.2.rxAnswer r 0x81 x.1 (if x.1 = 0 then r.msg.len else 0) (if x.1 = 0 then x.2.1 else 0) 0)))

/-- Perform a WRITE: its status, or none while its translation is held. -/
def State.rxWrite (s : State) (r : RxMsg) (w : Who) (mmr : Nat) : Option (Nat × State) :=
  let x := s.writeVia w (ownAddr r.msg.off) r.msg.len r.msg.data mmr
  if x.1 = viaHold then none else some (x.1, x.2.2.streamArrive r.peer r.msg.strm x.1)

/-- AELX_WRITE (R440, R446); `mmr` is the status of a write that goes on to a register. -/
def execAelxWrite (m : Fin 32) (vc : Fin 4) (mmr : Status) (s : State) : Res :=
  .next (s.serve m vc false [0x02] (fun r w s => (s.rxWrite r w mmr.toNat).map (fun x => x.2.rxAnswer r 0x80 x.1 0 0 0)))

/-- AELX_WRITE_FINAL: held until its stream's count is reached, unless no hold entry is free (R352, R446). -/
def execAelxWriteFinal (m : Fin 32) (vc : Fin 4) (s : State) : Res :=
  .next (s.serve m vc false [0x03] (fun r _ s =>
    if 256 ≤ s.kp.fab.finals.length then
      let h := s.free
      some ((h.2.rxAnswer r 0x80 0x0102 0 0 (h.1 % 2 ^ 32)).streamTidy r.peer r.msg.strm)
    else some ((s.setFinals (s.kp.fab.finals ++ [{ port := m, peer := r.peer, vc := r.vc, msg := r.msg }])).finals r.peer r.msg.strm)))

/-- AELX_DEAL_WRITE: a copy that finds room in the staging is performed as a WRITE; another is answered DEAL_NAK (R447).
(DESIGN CHOICE: notes/assumptions/49.md.) -/
def execAelxDealWrite (m : Fin 32) (vc : Fin 4) (room : Bool) (mmr : Status) (s : State) : Res :=
  .next (s.serve m vc false [0x08] (fun r w s =>
    if !room then some ((s.rxAnswer r 0x85 0 0 0 0).streamTidy r.peer r.msg.strm)
    else (s.rxWrite r w mmr.toNat).map (fun x => x.2.rxAnswer r 0x80 x.1 0 0 0)))

/-- Perform an atomic message and answer with the old value (R440). -/
def State.rxAtomic (s : State) (r : RxMsg) (w : Who) (op : Nat) (a b : Nat) : Option State :=
  let fin := fun (x : Nat × Nat × State) =>
    let s1 := x.2.2.streamArrive r.peer r.msg.strm x.1
    some (s1.rxAnswer r 0x82 x.1 (if x.1 = 0 then 8 else 0) (if x.1 = 0 then x.2.1 else 0) 0)
  if r.msg.off % 8 ≠ 0 then fin (0x0402, 0, s)
  else match s.reach w (ownAddr r.msg.off) 8 true with
    | .hold _ => none
    | .refused st s1 => fin (st, 0, s1)
    | .to p => fin (s.memAtomic p op (BitVec.ofNat 64 a) (BitVec.ofNat 64 b))

/-- AELX_ATOMIC: AADD, AMIN, AMAX, ASWAP (R440). -/
def execAelxAtomic (m : Fin 32) (vc : Fin 4) (s : State) : Res :=
  .next (s.serve m vc false [0x10, 0x11, 0x12, 0x13] (fun r w s => s.rxAtomic r w (r.msg.op - 0x10) r.msg.arg 0))

/-- AELX_ACAS (R440). -/
def execAelxAcas (m : Fin 32) (vc : Fin 4) (s : State) : Res :=
  .next (s.serve m vc false [0x14] (fun r w s => s.rxAtomic r w 4 r.msg.arg r.msg.data))

/-- Perform a full/empty message (R217, R335, R337, R440); MMR space has no tags (R218). -/
def State.rxFe (s : State) (r : RxMsg) (w : Who) (op : Nat) : Option State :=
  let done : Nat := if 2 ≤ op then 0x80 else 0x83
  let fin := fun (x : FeReply × State) =>
    let armed := x.1.status = 0x0440 || x.1.status = 0x0441
    let s1 := if armed then x.2 else if r.msg.counted then x.2.streamArrive r.peer r.msg.strm x.1.status else x.2
    some (if armed then (s1.rxAnswer r 0x84 x.1.status 0 0 0).streamTidy r.peer r.msg.strm
      else if done = 0x83 && x.1.status = 0 then s1.rxAnswer r 0x83 0 8 x.1.val x.1.tag
      else s1.rxAnswer r done x.1.status 0 0 0)
  let regs := match s.translate w (ownAddr r.msg.off) (op ≠ 1) with | .to p => p.isMmr | _ => false
  if r.msg.off % 8 ≠ 0 then fin (⟨0x0402, 0, 0⟩, s)
  else if regs then fin (⟨0x0405, 0, 0⟩, s)
  else match s.reach w (ownAddr r.msg.off) 8 (op ≠ 1) with
    | .hold _ => none
    | .refused st s1 => fin (⟨st, 0, 0⟩, s1)
    | .to p =>
      let who : Watch := { word := 0, onFull := true, waiter := BitVec.ofNat 64 (fabTag r.peer r.vc r.msg.tag), plot := r.msg.plot,
                           epoch := r.msg.epoch, waitf := false }
      fin (s.memFe p op (BitVec.ofNat 64 r.msg.data) (nbit r.msg.arg 2 = 1) (r.msg.arg % 4) none who)

/-- AELX_FE_LOAD: LDFE and LDFF (R440). -/
def execAelxFeLoad (m : Fin 32) (vc : Fin 4) (s : State) : Res :=
  .next (s.serve m vc false [0x20, 0x21] (fun r w s => s.rxFe r w (r.msg.op - 0x20)))

/-- AELX_FE_STORE: STFE, STF and SETE (R440). -/
def execAelxFeStore (m : Fin 32) (vc : Fin 4) (s : State) : Res :=
  .next (s.serve m vc false [0x22, 0x23, 0x24] (fun r w s => s.rxFe r w (r.msg.op - 0x20)))

/-- A contribution leaves a port's combiner for its Pot unit, or waits on where its translation is held (R303, R312, R316, R448). -/
def State.combIn (m : Nat) (s : State) (x : FabComb) : State :=
  let msg : FabMsg := { op := 0x30, kw := x.kw, sup := x.sup, plot := x.part.plot, epoch := x.part.epoch }
  let w := s.rxWho m msg
  let a := ownAddr x.part.dest.toNat
  match s.translate w a true with
  | .fault d => (s.noteFault w.plot d a).potAnswer x.part.tags 0x0402
  | .hold _ => s.setPort m { s.fport m with comb := (s.fport m).comb ++ [x] }
  | .to (.bank n off) =>
    if h : n < 10368 then s.potArrive (s.rxAgent m msg) ⟨n, h⟩ (BitVec.ofNat 22 off) x.part else s
  | .to _ => s.potAnswer x.part.tags 0x0405

/-- AELX_POT: a contribution enters its ingress port's combiner (R448); one whose translation is held goes on waiting. -/
def execAelxPot (m : Fin 32) (vc : Fin 4) (s : State) : Res :=
  .next (s.serve m vc false [0x30, 0x31, 0x32] (fun r w s =>
    match s.translate w (ownAddr r.msg.off) true with
    | .hold _ => none
    | _ => some (s.combEnter m { out := false, peer := r.peer, vc := r.vc, kw := r.msg.kw, sup := r.msg.sup,
                                 part := r.msg.part (fabTag r.peer r.vc r.msg.tag) } (State.combIn m))))

/-- FAB_POT_COMBINER_TIMEOUT: the oldest contribution of a port's combiner, in one direction, has waited FAB_POT.WAIT ns and moves on
(R448). -/
def execFabPotCombinerTimeout (m : Fin 32) (out : Bool) (s : State) : Res :=
  .next (s.fabRun (fun s => match (s.fport m).comb.find? (fun y => y.out = out) with
    | none => s
    | some x =>
      let s1 := s.setPort m { s.fport m with comb := (s.fport m).comb.erase x }
      if out then s1.combOut x else s1.combIn m x))

/-- A fired watch reaches its waiter, whose request is `req` (R339, R341, R454). -/
def State.rxWake (s : State) (req : List Nat) (epoch tag : Nat) : State :=
  match (asCore (req.getD 0 0)).map s.redir with
  | none => s
  | some c => s.watchWake c (asThread (req.getD 1 0)) (if req.getD 8 0 = 0 then none else some (asMbox (req.getD 8 0 - 1)))
      (BitVec.ofNat 64 (req.getD 3 0)) (asScope tag) (BitVec.ofNat 8 epoch)

/-- AELX_WAKE: a wake notify, or a watch that fired elsewhere (R454). -/
def execAelxWake (m : Fin 32) (vc : Fin 4) (s : State) : Res :=
  .next (s.serve m vc true [0x40] (fun r w s =>
    if nbit r.msg.arg 63 = 1 then
      let t := r.msg.arg >>> 8 % 2 ^ 24
      let s1 := match s.kp.fab.armed.find? (fun e => e.1 = t) with
        | some e => (s.setFab { s.kp.fab with armed := Sparse.erase s.kp.fab.armed t }).rxWake e.2 r.msg.epoch (r.msg.arg % 4)
        | none => s
      some (s1.rxAnswer r 0x80 0 0 0 0)
    else match s.reach w (ownAddr r.msg.off) 8 true with
      | .hold _ => none
      | .refused st s1 => some (s1.rxAnswer r 0x80 st 0 0 0)
      | .to (.bank n _) | .to (.coreMmr n _) => some ((s.wakeNotify n (r.msg.arg % 256)).rxAnswer r 0x80 0 0 0 0)
      | .to _ => some (s.rxAnswer r 0x80 0x0402 0 0 0)))

/-! ### Replies (R440, R442) -/

/-- The oldest reply of a lane, if it is of `op`, answers the message that its tag names, and those that were combined with it.
(DESIGN CHOICE: notes/assumptions/47.md.) (DESIGN CHOICE: notes/assumptions/49.md.) -/
def State.serveReply (s : State) (m vc op : Nat) (f : RxMsg → State → State) : State :=
  s.fabRun (fun s => match s.rxFront m vc true with
    | none => s
    | some r => if r.msg.op ≠ op then s else f r (s.rxTake m r))

/-- Answer the message of a tag. -/
def State.tagReply (s : State) (r : RxMsg) (tag status v scope : Nat) : State :=
  match s.kp.fab.outs.find? (fun o => o.tag = tag && o.peer = r.peer) with
  | some o => s.outReply o status v scope
  | none => s

/-- AELX_ACK. -/
def execAelxAck (m : Fin 32) (vc : Fin 4) (s : State) : Res :=
  .next (s.serveReply m vc 0x80 (fun r s =>
    let l := r.msg.tag :: Sparse.get [] s.kp.fab.joined r.msg.tag
    let s1 := s.setFab { s.kp.fab with joined := Sparse.erase s.kp.fab.joined r.msg.tag }
    l.foldl (fun s t => s.tagReply r t r.msg.strm 0 0) s1))

/-- AELX_READ_RESP. -/
def execAelxReadResp (m : Fin 32) (vc : Fin 4) (s : State) : Res :=
  .next (s.serveReply m vc 0x81 (fun r s => s.tagReply r r.msg.tag r.msg.strm r.msg.data 0))

/-- AELX_ATOMIC_RESP. -/
def execAelxAtomicResp (m : Fin 32) (vc : Fin 4) (s : State) : Res :=
  .next (s.serveReply m vc 0x82 (fun r s => s.tagReply r r.msg.tag r.msg.strm r.msg.data 0))

/-- AELX_FE_RESP: value and tag of the word (R440). -/
def execAelxFeResp (m : Fin 32) (vc : Fin 4) (s : State) : Res :=
  .next (s.serveReply m vc 0x83 (fun r s => s.tagReply r r.msg.tag r.msg.strm r.msg.data (r.msg.arg % 4)))

/-- AELX_FE_ARMED: the watch is armed, and its wake will name the message's tag, or it was refused (R337, R454). -/
def execAelxFeArmed (m : Fin 32) (vc : Fin 4) (s : State) : Res :=
  .next (s.serveReply m vc 0x84 (fun r s =>
    match s.kp.fab.outs.find? (fun o => o.tag = r.msg.tag && o.peer = r.peer) with
    | none => s
    | some o =>
      let req := ((s.kp.fab.groups.find? (fun g => g.id = o.grp)).map (·.req)).getD []
      let s1 := if r.msg.strm = 0x0440 then s.setFab { s.kp.fab with armed := Sparse.put s.kp.fab.armed o.tag req } else s
      s1.outReply o r.msg.strm 0 0))

/-- AELX_DEAL_NAK: a copy found no staging room (R447). -/
def execAelxDealNak (m : Fin 32) (vc : Fin 4) (s : State) : Res :=
  .next (s.serveReply m vc 0x85 (fun r s => s.tagReply r r.msg.tag 0x0385 0 0))

/-! ### Timeouts and keys -/

/-- FAB_ADMIT_TIMEOUT: the oldest request of a Follow or Pass lane has waited its limit and is answered REFUSED_BUSY (R443). -/
def execFabAdmitTimeout (m : Fin 32) (vc : Fin 4) (s : State) : Res :=
  .next (s.fabRun (fun s => match s.rxFront m vc false with
    | none => s
    | some r =>
      if vc.val < 2 then s
      else
        let h := (s.rxTake m r).free
        (h.2.streamFail r 0x0102).rxAnswer r 0x80 0x0102 0 0 (h.1 % 2 ^ 32)))

/-- WRF_HOLD_TIMEOUT: the i-th held WRITE_FINAL has been held for HOLD_LIMIT µs (R446). -/
def execWrfHoldTimeout (slot : Fin 256) (s : State) : Res :=
  .next (s.fabRun (fun s => match s.kp.fab.finals[slot.val]? with
    | none => s
    | some f =>
      let r : RxMsg := { peer := f.peer, vc := f.vc, resp := false, cells := 0, msg := f.msg }
      ((s.setFinals (s.kp.fab.finals.erase f)).rxAnswer r 0x80 0x0383 0 0 0).streamTidy f.peer f.msg.strm))

/-- PTP_EVENT_MESSAGE: an event message of a domain reaches a port with PTP on: it is timestamped in the time counter, and a direct port
forwards Sync and Follow_Up with residence time and ingress link delay added to correctionField (R455). -/
def execPtpEventMessage (m : Fin 32) (domain : BitVec 8) (msg : PtpMsg) (s : State) : Res :=
  let seen := s.send .event [0x455, m, s.timeSec, s.timeNs]
  .next (if s.fld PORT_CFG_PTP m 0 = 0 || s.fld PORT_PTP_DOMAIN m 0 ≠ domain.toNat || !s.portUp m then s
    else match msg with
      | .other => seen
      | .delay ps => if s.portRouted m then seen else seen.setFld PORT_PTP_DELAY_PS m 0 ps.toNat
      | .timed corr stay =>
        if s.portRouted m then seen
        else stay.foldl (fun s e =>
          if e.1 = m || s.fld PORT_CFG_PTP e.1 0 = 0 || s.portRouted e.1 || !s.portUp e.1 then s
          else s.send .frame [e.1, 3, domain.toNat, (corr + e.2 + BitVec.ofNat 64 (s.fld PORT_PTP_DELAY_PS m 0 * 65536 / 1000)).toNat]) seen)

/-- AELX_KEY_UPDATE: the Keeper installs a key in a slot, which the sender then uses, or retires one: of a direct port, or of the
routed ports' connection with `peer` (R449, R450). -/
def execAelxKeyUpdate (m : Fin 32) (peer : Option (BitVec 16)) (slot : Fin 2) (retire : Bool) (s : State) : Res :=
  let b := 2 ^ slot.val
  let keys := fun (k : Nat) => if retire then k - (if nbit k slot = 1 then b else 0) else k ||| b
  .next (match peer with
    | none =>
      let p := s.fport m
      s.setPort m { p with keys := keys p.keys, key := if retire then p.key else slot, sealed := if retire then p.sealed else 0 }
    | some q =>
      let c := s.peerKeys q.toNat
      s.setPeerKeys q.toNat { c with keys := keys c.keys, key := if retire then c.key else slot, sealed := if retire then c.sealed else 0 })

end Sys2Proof.Machine
end

