-- ==== Sys2Proof/Machine/Commands.lean ====
section
/-!
DEFINITION. The commands of TARGET 0 queues (R478, R479, R487): what one step of each does while it holds its slot. STEP_END then releases the
slot and ends the command. `far` is what host memory or another module gives of the bytes that the step reads, in blocks of 64 from its first byte,
and `status` how its accesses there are answered.
-/
namespace Sys2Proof.Machine

/-! ### One step -/

/-- The bytes of a list of blocks, as a number. -/
def farVal (l : List Vec) : Nat := l.foldr (fun v a => v.toNat + a <<< 512) 0

/-- A command acts as the Keeper: one of a Keeper queue, or an admin command (R478). (DEDUCED: notes/assumptions/28.md.) -/
def State.cmdWho (s : State) (k : Cmd) : Who :=
  if 0x30 ≤ k.opc && k.opc ≠ 0x38 && k.opc ≠ 0x39 then { Who.keeper with plot := k.plot } else s.qWho k.q

/-- Read n bytes at address `a` that word i of a command gives: status, value, state. -/
def State.cmdRead (s : State) (k : Cmd) (i : Nat) (a : Word) (n status far : Nat) : Nat × Nat × State :=
  if k.host i then (if status ≤ 1 then 0 else status, far % 2 ^ (8 * n), s) else s.readVia (s.cmdWho k) a n status far

/-- Write n bytes at address `a` that word i of a command gives: status, bytes written, state. -/
def State.cmdWrite (s : State) (k : Cmd) (i : Nat) (a : Word) (n v status : Nat) : Nat × Nat × State :=
  if k.host i then (0, n, s.hostWrite (s.fld QP_BIND_FUNC k.q 0) a n v) else s.writeVia (s.cmdWho k) a n v status

/-- Address arithmetic on word i: a bus address, or the offset bits of a fabric address. -/
def Cmd.addr (k : Cmd) (i d : Nat) : Word :=
  let a : Word := BitVec.ofNat 64 (k.word i)
  if k.host i then a + BitVec.ofNat 64 d else addOff a d

/-- The step of the command that holds a slot: `f` does its work, or finds that it cannot yet. (DESIGN CHOICE: notes/assumptions/89.md.) -/
def State.cmdStep (s : State) (q : Fin 16384) (cid : BitVec 16) (opc : Nat) (f : Cmd → State → Option (Cmd × State)) : Res :=
  .next (match s.cmdAt q.val cid.toNat (fun k => k.phase = .granted && k.opc = opc) with
    | none => s
    | some k => match f k s with
      | none => s
      | some (k1, s1) => s1.setCmd (if k1.phase = .granted then { k1 with phase := .worked } else k1))

/-- The result of an access: the command goes on with `f`, ends with the status, or waits for a translation that is held. -/
def cmdGo (k : Cmd) (r : Nat × Nat × State) (f : Nat → State → Option (Cmd × State)) : Option (Cmd × State) :=
  if r.1 = viaHold then none else if r.1 = 0 then f r.2.1 r.2.2 else some ({ k with code := r.1 }, r.2.2)

/-- The command's present step is its last. -/
def Cmd.lastStep (k : Cmd) : Cmd := { k with total := k.done + 1 }

/-- n bytes that the spec does not give (R478). (DESIGN CHOICE: notes/assumptions/1.md.) (DESIGN CHOICE: notes/assumptions/35.md.) -/
def State.freeBytes (s : State) (n : Nat) : Nat × State := let f := s.free; (f.1 % 2 ^ (8 * n), f.2)

/-! ### Small commands -/

/-- A command that is carried out at fetch, once its FENCE allows it (R471). -/
def State.atFetch (s : State) (q : Nat) (cid : Nat) (opc : Nat) : Option Cmd :=
  s.cmdAt q cid (fun k => k.phase = .atFetch && k.opc = opc && k.after.isNone
    && (nbit (k.word 0) 55 = 0 || !(s.cp.cmds.any (fun x => x.q = q && x.seq < k.seq))))

/-- NOP. -/
def execNop (q : Fin 16384) (cid : BitVec 16) (s : State) : Res :=
  .next (match s.atFetch q cid.toNat 0x00 with
    | some k => s.complete k 0 0 []
    | none => s)

/-- IDENTIFY: the layout of its 4 KiB buffer is not given. (DESIGN CHOICE: notes/assumptions/35.md.) -/
def execIdentify (q : Fin 16384) (cid : BitVec 16) (status : Status) (s : State) : Res :=
  s.cmdStep q cid 0x01 (fun k s =>
    let v := s.freeBytes 4096
    cmdGo k (v.2.cmdWrite k 2 (k.addr 2 0) 4096 v.1 status.toNat) (fun _ s => some (k, s)))

/-- GET_LOG: the layout of a page is not given; at most `length` bytes are written. (DESIGN CHOICE: notes/assumptions/35.md.) -/
def execGetLog (q : Fin 16384) (cid : BitVec 16) (status : Status) (s : State) : Res :=
  s.cmdStep q cid 0x02 (fun k s =>
    let f := s.free
    let n := f.1 % (nbits (k.word 3) 47 16 + 1)
    let v := f.2.freeBytes n
    cmdGo k (v.2.cmdWrite k 2 (k.addr 2 0) n v.1 status.toNat) (fun _ s => some ({ k with res0 := n }, s)))

/-- CANCEL (R487): its own completion follows that of the command it ends. It waits while hang recovery holds that command's plot (R657).
(DEDUCED: notes/assumptions/33.md.) -/
def execCmdCancel (q : Fin 16384) (cid : BitVec 16) (s : State) : Res :=
  .next (match s.atFetch q cid.toNat 0x03 with
    | none => s
    | some k =>
      let mine := if s.fld QP_BIND_KEEPER q.val 0 = 1 then none else s.localQueue (s.fld QP_BIND_FUNC q.val 0) (nbits (k.word 2) 29 16)
      let target := mine.bind (fun tq =>
        if s.fld QP_BIND_TARGET tq 0 = 0 then s.cmdAt tq (nbits (k.word 2) 15 0) (fun x => x.phase ≠ .atFetch) else none)
      match target with
      | none => s.complete k 0 0 []
      | some x =>
        let s1 := s.setCmd { k with after := some x.seq }
        if s.plotHeld x.plot then s
        else match x.phase with
        | .waiting => s1.complete x 0x0104 0 []
        | .between => if x.opc = 0x30 then s1 else (s1.progress x 2).complete x 0x0104 0 []
        | .launched =>
          if x.opc = 0x10 then (if x.code = 0 then s1.stopLaunch x 0x0104 else s1)
          else if x.opc = 0x39 then (s1.progress x 2).complete x 0x0104 0 []
          else s1
        | _ => if x.opc = 0x30 then s1 else s1.setCmd { x with cancelled := true })

/-! ### LAUNCH (R355, R356, R479) -/

/-- Before a kernel's first word the core writes back and drops its cache, locks and side buffer (R356). -/
def State.freshCache (s : State) (c : Nat) : State :=
  let s1 := s.flushAll c
  let k := s1.core c
  s1.setCore c { k with dropped := k.dropped ++ k.cache.filter (fun e => e.left ≠ 0), cache := [], side := [] }

/-- A thread can be started: of the Tenant world, and STOPPED, or SUSPENDED with no fault notice pending, on a core that can be reached (R479).
(DESIGN CHOICE: notes/assumptions/32.md.) -/
def State.startable (s : State) (c t : Nat) : Bool :=
  let k := s.core c
  !s.answeredAhead c && s.world c t = 0 && ((s.thr c t).st = .stopped || ((s.thr c t).st = .suspended && nbit (k.tfpendT ||| k.tfpendK).toNat t = 0))

/-- A kernel starts on core c: R356, and the threads of `mask` as TSTART with RESUME = 0 starts them, with s1 to s3 set. -/
def State.startKernel (s : State) (c mask sup pc : Nat) (a0 a1 a2 : Word) : State :=
  let s0 := s.freshCache c
  let busy := s0.fld KSTAT_ACTIVE c 0 = 1
  let k := s0.core c
  let s1 := if busy then s0 else s0.setCore c { k with kcodes := [], wbLost := false, kend := false }
  let s2 := (s1.setFld KSTAT_ACTIVE c 0 1).setFld KSTAT_RUN c 0 ((if busy then s1.fld KSTAT_RUN c 0 else 0) ||| mask)
  let s3 := (List.range 8).foldl (fun s t =>
    if nbit mask t = 0 then s
    else
      let s2 := (s.startThread c t).setTf wstat_LEVEL c t sup
      let h := s2.thr c t
      s2.setThr c t { h with x := Sparse.set 0 (Sparse.set 0 (Sparse.set 0 h.x 1 a0) 2 a1) 3 a2, pc := pc }) s2
  if s3.fld KSTAT_RUN c 0 = 0 then s3.kernelEnd c else s3

/-- LAUNCH: it waits while a core it names is under test (R612); the checks at its first step cover every core; each start step covers at
most 1,024. (DEDUCED: notes/assumptions/33.md.) -/
def execLaunch (q : Fin 16384) (cid : BitVec 16) (s : State) : Res :=
  s.cmdStep q cid 0x10 (fun k s =>
    let mask := nbits (k.word 3) 39 32
    let cores := s.launchCores k
    let busy := cores.any (fun p => (List.range 8).any (fun t => nbit mask t = 1 && !s.startable p.2 t))
    if cores.any (fun p => s.underTest p.2) then none
    else if k.done = 0 && busy then some ({ k with code := 0x0109 }, s)
    else
      let l0 := nbits (k.word 2) 13 0
      some (k, ((cores.drop (1024 * k.done)).take 1024).foldl (fun s p =>
        s.startKernel p.2 mask (nbit (k.word 3) 24) (nbits (k.word 3) 15 0) (BitVec.ofNat 64 (k.word 4)) (BitVec.ofNat 64 (k.word 5))
          (BitVec.ofNat 64 (p.1 - l0))) s))

/-- LAUNCH_TIMEOUT: TIMEOUT ms have passed and kernels of the launch still run (R479). -/
def execLaunchTimeout (q : Fin 16384) (cid : BitVec 16) (ms : BitVec 32) (s : State) : Res :=
  .next (match s.cmdAt q.val cid.toNat (fun k => k.phase = .launched && k.opc = 0x10 && k.code = 0) with
    | none => s
    | some k =>
      let limit := nbits (k.word 6) 31 0
      if limit = 0 || ms.toNat < limit then s else s.stopLaunch k 0x0107)

/-! ### SIGNAL, COPY, LOAD_CODE, ZEROISE -/

/-- SIGNAL: STF or SETE of a flag, or WAKEN of threads; `status` answers one that leaves the module. (DESIGN CHOICE: notes/assumptions/32.md.) -/
def execCmdSignal (q : Fin 16384) (cid : BitVec 16) (status : Status) (s : State) : Res :=
  s.cmdStep q cid 0x11 (fun k s =>
    let w := s.cmdWho k
    let act := nbits (k.word 4) 1 0
    let rel := nbit (k.word 4) 2
    let scope := nbits (k.word 4) 5 4
    let a : Word := BitVec.ofNat 64 (k.word 2)
    let who : Watch := { word := 0, onFull := false, waiter := 0, plot := w.plot, epoch := w.epoch, waitf := false }
    let end_ := fun (st : Nat) (s : State) => some ({ k with code := if st ≤ 1 then 0 else st }, s)
    match s.reach w a 8 true with
    | .hold _ => none
    | .refused st s1 => end_ st s1
    | .to (.remote _ _) =>
      let op := if act = 0 then 3 else if act = 1 then 4 else 6
      end_ status.toNat (s.send .request [2 ^ 21, w.world, 14, a.toNat, op, k.word 3, w.level, w.plot, w.epoch, rel * 4 + scope])
    | .to p =>
      if act = 2 then (match p with
        | .bank n _ | .coreMmr n _ => end_ 0 (s.wakeNotify n (k.word 3 % 256))
        | _ => end_ 0x0402 s)
      else
        let r := s.memFe p (if act = 0 then 3 else 4) (BitVec.ofNat 64 (k.word 3)) (rel = 1) scope none who
        end_ r.1.status r.2)

/-- COPY: 4 MiB of a 1-D MOVE (R385). (DESIGN CHOICE: notes/assumptions/32.md.) -/
def execCopy (q : Fin 16384) (cid : BitVec 16) (far : List Vec) (status : Status) (s : State) : Res :=
  s.cmdStep q cid 0x12 (fun k s =>
    let d := k.done * 2 ^ 22
    let n := min (2 ^ 22) (k.word 4 - d)
    cmdGo k (s.cmdRead k 2 (k.addr 2 d) n status.toNat (farVal far)) (fun v s =>
      let r := s.cmdWrite k 3 (k.addr 3 d) n v status.toNat
      if r.1 = viaHold then none
      else some ({ k with code := r.1, res0 := k.res0 + r.2.1 }, r.2.2)))

/-- The cores of a LOAD_CODE that take its words: those before the first that refuses a write of IMEM_DATA, with its status.
(DESIGN CHOICE: notes/assumptions/32.md.) -/
def State.loadable (s : State) (w : Who) : List Nat → List Nat × Nat × State
  | [] => ([], 0, s)
  | c :: r => match s.coreRefuses c 0x3F0008 8 w with
    | some (st, s1) => ([], st, s1)
    | none => let x := s.loadable w r; (c :: x.1, x.2)

/-- LOAD_CODE: 16 KiB into the Tenant instruction memory of each core (R58). (DESIGN CHOICE: notes/assumptions/32.md.) -/
def execLoadCode (q : Fin 16384) (cid : BitVec 16) (far : List Vec) (status : Status) (s : State) : Res :=
  s.cmdStep q cid 0x13 (fun k s =>
    let all := nbits (k.word 4) 47 32 * 2
    let done := k.done * 4096
    let n := min 4096 (all - done)
    let at_ := nbits (k.word 4) 15 0 * 2 + done
    cmdGo k (s.cmdRead k 3 (k.addr 3 (done * 4)) (n * 4) status.toNat (farVal far)) (fun v s =>
      let l := s.loadable { Who.keeper with plot := k.plot } ((s.launchCores k).map (·.2))
      if l.2.1 = viaHold then none else
      some ({ k with code := l.2.1, res0 := if l.2.1 = 0 then k.res0 + n else k.res0 }, l.1.foldl (fun s p =>
        let c := s.core p
        s.setCore p { c with imem := (List.range n).foldl (fun m i =>
          Sparse.set 0 m (imemKey 0 (at_ + i)) (BitVec.ofNat 32 (v >>> (32 * i)))) c.imem }) l.2.2)))

/-- ZEROISE: one MiB of each of up to 32 consecutive pages (R247). (DESIGN CHOICE: notes/assumptions/32.md.) -/
def execZeroise (q : Fin 16384) (cid : BitVec 16) (s : State) : Res :=
  s.cmdStep q cid 0x28 (fun k s =>
    let pages := k.word 3 / 2 ^ 21
    let first := k.done / 2 * 32
    let l := (List.range (min 32 (pages - first))).map (fun i => (first + i) * 2 ^ 21 + k.done % 2 * 2 ^ 20)
    let r := l.foldl (fun (r : Nat × Nat × State) d =>
      if r.1 ≠ 0 then r
      else match r.2.2.reach (r.2.2.cmdWho k) (k.addr 2 d) 8 true with
        | .hold _ => (viaHold, r.2)
        | .refused st s1 => (st, r.2.1, s1)
        | .to (.bank n off) => (0, r.2.1 + 2 ^ 20, r.2.2.initBytes (bankAddr n off) (2 ^ 20))
        | .to (.hbm p off) => (0, r.2.1 + 2 ^ 20, r.2.2.initBytes (hbmAddr p off) (2 ^ 20))
        | .to _ => (0x0402, r.2)) (0, 0, s)
    if r.1 = viaHold then none else some ({ k with code := r.1, res0 := k.res0 + r.2.1 }, r.2.2))

/-! ### The pool (R267 to R269) -/

/-- What backs a page of a pool: a cellar bank by logical core, or a grant-relative page. -/
structure PoolPage where
  page : Nat
  bank : Bool
  base : Nat
  deriving DecidableEq, Repr

/-- The pages of a plot's pool that are allocated, by the Keeper's range entries 192 to 255. -/
def State.poolPages (s : State) (n : Nat) : List PoolPage :=
  let v := (s.bind n).vbase
  ((List.range 64).map (· + 192)).flatMap (fun e =>
    if s.fld TU_RANGE_W0_EN n e = 1 then
      (List.range (s.rangeCount n e)).map (fun i =>
        ⟨s.fld TU_RANGE_W0_VBASE n e - v + i, s.fld TU_RANGE_W0_KIND n e = 1, s.rangeBase n e + i⟩)
    else [])

/-- Put a page in order of page number. -/
def insertPage (x : PoolPage) : List PoolPage → List PoolPage
  | [] => [x]
  | y :: r => if x.page < y.page then x :: y :: r else if x.page = y.page then x :: r else y :: insertPage x r

/-- Runs of consecutive pages with consecutive backing: first page, bank, base, count. -/
def poolRuns : List PoolPage → List (PoolPage × Nat)
  | [] => []
  | x :: r => match poolRuns r with
    | (y, n) :: t =>
      if y.page = x.page + 1 && y.bank = x.bank && y.base = x.base + 1 then (x, n + 1) :: t else (x, 1) :: (y, n) :: t
    | [] => [(x, 1)]

/-- Write the Keeper's entries of a plot for a pool's pages, with the sync (R407, R413). None where they are more than the 64 entries
hold. (DESIGN CHOICE: notes/assumptions/31.md.) -/
def State.setPool (s : State) (n : Nat) (l : List PoolPage) : Option State :=
  let runs := poolRuns l
  if 64 < runs.length then none
  else
    let v := (s.bind n).vbase
    let s1 := (List.range 64).foldl (fun s i =>
      let e := 192 + i
      match runs[i]? with
      | none => { (s.setReg .TU_RANGE_W0 n e 0).setReg .TU_RANGE_W1 n e 0 with tuW1 := Sparse.set 0 s.tuW1 (n * 256 + e) 0 }
      | some (x, cnt) =>
        let w0 : Word := BitVec.ofNat 64 (2 ^ 63 + 2 ^ 62 + (if x.bank then 2 ^ 60 else 0) + 2 ^ 58 + (v + x.page) <<< 21)
        let w1 : Word := BitVec.ofNat 64 (cnt <<< 32 + x.base)
        { (s.setReg .TU_RANGE_W0 n e w0).setReg .TU_RANGE_W1 n e w1 with tuW1 := Sparse.set 0 s.tuW1 (n * 256 + e) w1 }) s
    some (s1.dropTx n (s.bind n).vbase ((s.bind n).pooln + (s.bind n).spill))

/-- The free pool bank of lowest logical core number. -/
def State.freeBank (s : State) (n : Nat) (l : List PoolPage) : Option Nat :=
  let b := s.bind n
  firstFrom (fun i => !l.any (fun x => x.bank && x.base = i)) b.pool b.pooln

/-- A free spill page. -/
def State.freeSpill (s : State) (n : Nat) (l : List PoolPage) : Option Nat :=
  let b := s.bind n
  firstFrom (fun g => !l.any (fun x => !x.bank && x.base = g)) b.gbase b.spill

/-- Allocate the pages named, in ascending order: the pool's pages, and how many were allocated and how many spilled.
(DESIGN CHOICE: notes/assumptions/31.md.) -/
def State.poolTake (s : State) (n : Nat) : List Nat → List PoolPage → Nat → Nat → Option (List PoolPage × Nat × Nat)
  | [], l, a, sp => some (l, a, sp)
  | p :: r, l, a, sp =>
    if l.any (fun x => x.page = p) then s.poolTake n r l a sp
    else match s.freeBank n l with
      | some b => s.poolTake n r (insertPage ⟨p, true, b⟩ l) (a + 1) sp
      | none => match s.freeSpill n l with
        | some g => s.poolTake n r (insertPage ⟨p, false, g⟩ l) (a + 1) (sp + 1)
        | none => none

/-- The pages of the pool range that a pool command names. -/
def State.poolNamed (s : State) (k : Cmd) : List Nat :=
  let first := k.word 2 % 2 ^ 48 / 2 ^ 21 - (s.bind k.plot).vbase
  (List.range (k.word 3 / 2 ^ 21)).map (fun i => first + i)

/-- A pool command's step: nothing changes before the last one (R488). -/
def State.poolStep (s : State) (q : Fin 16384) (cid : BitVec 16) (opc : Nat) (f : Cmd → State → Cmd × State) : Res :=
  s.cmdStep q cid opc (fun k s => if k.done + 1 = k.total && !k.aborted then some (f k s) else some (k, s))

/-- POOL_ALLOC (R268). A page that is allocated already keeps its backing and is not counted. -/
def execPoolAlloc (q : Fin 16384) (cid : BitVec 16) (s : State) : Res :=
  s.poolStep q cid 0x20 (fun k s =>
    match s.poolTake k.plot (s.poolNamed k) ((s.poolPages k.plot).foldl (fun l x => insertPage x l) []) 0 0 with
    | none => ({ k with code := 0x0406 }, s)
    | some (l, a, sp) => match s.setPool k.plot l with
      | some s1 => ({ k with res0 := sp, res1 := a }, s1)
      | none => ({ k with code := 0x0406 }, s))

/-- POOL_FREE (R269). -/
def execPoolFree (q : Fin 16384) (cid : BitVec 16) (s : State) : Res :=
  s.poolStep q cid 0x21 (fun k s =>
    let all := (s.poolPages k.plot).foldl (fun l x => insertPage x l) []
    let l := all.filter (fun x => !(s.poolNamed k).contains x.page)
    match s.setPool k.plot l with
    | some s1 => ({ k with res0 := all.length - l.length }, s1)
    | none => ({ k with code := 0x0406 }, s))

/-- Where a backing of a plot lies: a module offset. -/
def State.backingAt (s : State) (n : Nat) (bank : Bool) (base : Nat) : Nat :=
  if bank then bankAddr (s.physOf base) 0x100000
  else match s.grantPage n base with
    | some (p, pg) => hbmAddr p (pg * 2 ^ 21)
    | none => 0

/-- Copy 2 MiB from one place of the module to another, as reads deliver it; an uncorrectable code word stays so. -/
def State.copyBlock (s0 : State) (a b : Nat) : State :=
  let there := fun (e : Nat × Nat) => a / 32 ≤ e.1 && e.1 < a / 32 + 65536
  let s := s0.bad.foldl (fun s e => if there e then s.asRead (e.1 * 32) else s) s0
  let s1 := s.initBytes b (2 ^ 21)
  let put := s.mem.filter (fun c => a ≤ c.1 && c.1 < a + 2 ^ 21)
  let s2 := put.foldl (fun s c => s.setByte (b + (c.1 - a)) c.2) s1
  (s.bad.filter (fun e => there e && s.uncorrectable (e.1 * 32))).foldl (fun s e => s.setPat (b + (e.1 * 32 - a)) e.2) s2

/-- Move pages that are allocated to the other kind of backing: a page without room there stays. (DESIGN CHOICE: notes/assumptions/31.md.) -/
def State.poolMove (s : State) (n : Nat) (toHbm : Bool) : List Nat → List PoolPage → Nat → Nat → List PoolPage × Nat × Nat × State
  | [], l, m, st => (l, m, st, s)
  | p :: r, l, m, st => match l.find? (fun x => x.page = p) with
    | none => s.poolMove n toHbm r l m st
    | some x =>
      if x.bank ≠ toHbm then s.poolMove n toHbm r l m st
      else match (if toHbm then s.freeSpill n l else s.freeBank n l) with
        | none => s.poolMove n toHbm r l m (st + 1)
        | some b =>
          (s.copyBlock (s.backingAt n x.bank x.base) (s.backingAt n (!toHbm) b)).poolMove n toHbm r (insertPage ⟨p, !toHbm, b⟩ l) (m + 1) st

/-- POOL_MOVE (R269): the pages' bytes go with them. -/
def execPoolMove (q : Fin 16384) (cid : BitVec 16) (s : State) : Res :=
  s.poolStep q cid 0x22 (fun k s =>
    let r := s.poolMove k.plot (nbit (k.word 4) 0 = 1) (s.poolNamed k) ((s.poolPages k.plot).foldl (fun l x => insertPage x l) []) 0 0
    match r.2.2.2.setPool k.plot r.1 with
    | some s1 => ({ k with res0 := r.2.1, res1 := r.2.2.1 }, s1)
    | none => ({ k with code := 0x0406 }, s))

/-! ### CONTEXT_TEARDOWN, LOAD_IMAGE, SWITCH_PROFILE -/

/-- CONTEXT_TEARDOWN (R646): held while its plot is REBINDING (R532); it completes with the end of the teardown. -/
def execContextTeardown (q : Fin 16384) (cid : BitVec 16) (s : State) : Res :=
  s.cmdStep q cid 0x30 (fun k s =>
    let n := nbits (k.word 2) 5 0
    if s.fld PLOT_STAT_W0_STATE 0 n = 2 then none
    else
      let k1 := { k with phase := .launched, total := k.done + 1 }
      some (k1, ((s.setCmd k1).countSlots).beginTeardown n [k.seq] (some k.q) 0 true))

/-- A plot takes no partial image: it is REBINDING, in hang recovery, or in a RACK or RESTORE (R532). -/
def State.plotBusy (s : State) (n : Nat) : Bool :=
  2 ≤ s.fld PLOT_STAT_W0_STATE 0 n || s.kp.img.rebinds.any (fun x => x.plot = n) || s.kp.tds.any (fun x => x.plot = n)
    || s.cp.cmds.any (fun k => (k.opc = 0x38 || k.opc = 0x39) && k.plot = n && (k.inProgress || k.phase = .launched))

/-- The commit of a partial image (R527, R528 steps 1 and 2): PLOT_REBIND follows with the teardown's end; a debug level for the plot ends (R735). -/
def State.commitRebind (s0 : State) (k : Cmd) (b : List Nat) (trusted : Bool) : State :=
  let s := if s0.fld DBG_LOCK_LEVEL 0 0 = 1 && s0.fld DBG_LOCK_PLOT 0 0 = imgLe b 7 1 then s0.dbgLock else s0
  let n := imgLe b 7 1
  let s1 := s.eventToPlot n 3 [(Sparse.get 0 s.epochs n + 1) % 256]
  let x : Rebind := { plot := n, cmd := k.seq, image := b, regs := s.regs, bind := s.bind n, masks := s.kp.img.masks, unsigned := !trusted }
  let s2 := (s1.setImg { s1.kp.img with rebinds := s1.kp.img.rebinds ++ [x] }).setFld PLOT_STAT_W0_STATE 0 n 2
  s2.beginTeardown n [k.seq] none 1 true

/-- An image command fails: the failure goes to its completion and to IMG_STAT (R521). -/
def imgFail (k : Cmd) (code : Nat) (x : ImgBad) (s : State) : Cmd × State :=
  ({ k with code := code, notes := [x.1 + (x.2.1 % 2 ^ 16) <<< 16 + x.2.2 <<< 32] }, s.imgStat code x)

/-- Write a profile slot of a device; `ok` says that the read-back matches (R539). -/
def State.storeSlot (s : State) (d slot : Nat) (b : List Nat) (ok : Bool) : State :=
  s.setImg { s.kp.img with slots := Sparse.set [] s.kp.img.slots (4 * d + slot) (if ok then b else []) }

/-- LOAD_IMAGE (R518, R524, R527, R539): reads of 1 MiB; then the check, with the verdict `v` on what the bytes do not show; then a store on each
device, `ok` telling its read-back, or the staging of a full image, or the commit of a partial one, which waits for earlier applies.
(DESIGN CHOICE: notes/assumptions/57.md.) -/
def execLoadImage (q : Fin 16384) (cid : BitVec 16) (far : List Vec) (status : Status) (v : Bool × Option Nat) (ok : Bool) (s : State) : Res :=
  s.cmdStep q cid 0x40 (fun k s =>
    let len := k.word 3
    let partial_ := nbit (k.word 4) 0 = 1
    let store := nbit (k.word 4) 3 = 1
    let reads := (len + 2 ^ 20 - 1) / 2 ^ 20
    let got := Sparse.get [] s.kp.img.reads k.seq
    let keep := fun (s : State) (l : List Nat) => s.setImg { s.kp.img with
      reads := Sparse.set [] (Sparse.keep (fun q => s.cp.cmds.any (fun x => x.seq = q)) s.kp.img.reads) k.seq l }
    let devs := (s.slotOrder (nbits (k.word 4) 2 1)).take 2
    if k.done < reads && k.done * 2 ^ 20 ≤ 33 * 2 ^ 20 then
      let n := min (2 ^ 20) (len - k.done * 2 ^ 20)
      cmdGo k (s.cmdRead k 2 (k.addr 2 (k.done * 2 ^ 20)) n status.toNat (farVal far)) (fun x s =>
        some (k, keep s (got ++ leBytes x n)))
    else if k.notes.isEmpty then
      match s.imgCheck got len v (some k.q) (store && partial_) (!store && s.plotBusy (imgLe got 7 1)) with
      | some x => some (imgFail k.lastStep x.1 x.2 s)
      | none =>
        if partial_ ≠ imgPartial got then some (imgFail k.lastStep 0x0602 (1, 0xFFFF, 0) s)
        else if store then some ({ k with notes := [1] }, s)
        else if partial_ then some ({ k with notes := [1], cls := 0 }, s)
        else
          let s1 := s.imgStat 0 (0, 0xFFFF, 0)
          some (k.lastStep, (keep s1 []).setImg { (keep s1 []).kp.img with cause := 2, staged := some got, toReset := true })
    else if store then
      let first := k.notes = [1]
      let dev := if first then devs.getD 1 (0, 0) else devs.headD (0, 0)
      let s1 := s.storeSlot dev.1 dev.2 got ok
      if !ok then some ({ k.lastStep with code := 0x0606, notes := [] }, s1.setFld IMG_STAT_CODE 0 0 0x0606)
      else if first then some ({ k with notes := [2] }, s1)
      else some ({ k.lastStep with notes := [] }, s1.imgStat 0 (0, 0xFFFF, 0))
    else if !s.kp.img.rebinds.isEmpty then none
    else
      let k1 := { k with phase := .launched, notes := [], total := k.done + 1, done := k.done + 1, res1 := k.done + 1 }
      some (k1, ((keep (s.imgStat 0 (0, 0xFFFF, 0)) []).setCmd k1).countSlots.commitRebind k1 got (s.imgTrusted got v)))

/-- SWITCH_PROFILE (R538), with the verdicts `v` on the slot's copies in the order of R535; its commit waits for a partial apply (R532). -/
def execSwitchProfile (q : Fin 16384) (cid : BitVec 16) (v : List (Bool × Option Nat)) (s : State) : Res :=
  s.cmdStep q cid 0x41 (fun k s =>
    let slot := nbits (k.word 2) 1 0
    if !s.kp.img.rebinds.isEmpty then none
    else match s.firstCopy (((s.slotOrder slot).take 2).zip v) with
      | none => some (imgFail k.lastStep 0x0605 (0, 0xFFFF, 0) s)
      | some _ => some (k.lastStep, (s.imgStat 0 (0, 0xFFFF, 0)).setImg { s.kp.img with cause := 1, slot := slot, staged := none, toReset := true }))

end Sys2Proof.Machine
end

