-- ==== Sys2Proof/Machine/Serve.lean ====
section
/-!
DEFINITION. The serving engine (R569 to R596): its commands, the step loop, sampling and streaming.
(DESIGN CHOICE: notes/assumptions/39.md.)
-/
namespace Sys2Proof.Machine

/-! ### Commands of serving queues -/

/-- The engine's accesses to a plot's memory: addresses that the plot translates (R572, R584). -/
def State.srvWho (s : State) (n : Nat) : Who := ⟨0, 1, n, none, none, Sparse.get 0 s.epochs n, none⟩

/-- The command of a serving queue that is next in SQ order (R571, R577): a CANCEL that waits for its target lets later ones pass, and a
FENCE waits for every earlier request. -/
def State.serveNext (s : State) (q cid opc : Nat) : Option Cmd :=
  s.cmdAt q cid (fun k => k.phase = .atFetch && k.opc = opc && !(s.cp.cmds.any (fun x => x.q = q && x.seq < k.seq && x.phase = .atFetch))
    && (nbit (k.word 0) 55 = 0 || !(s.kp.srv.reqs.any (fun r => r.q = q) || s.cp.cmds.any (fun x => x.q = q && x.seq < k.seq))))

/-- No step of a plot is in progress. -/
def State.srvBetween (s : State) (n : Nat) : Bool := s.kp.srv.models.all (fun m => m.plot ≠ n || m.step.isNone)

/-- The mean admission wait of a plot's class over the last second (R578); with none the spec gives no value. -/
def State.srvMeanWait (s : State) (plot cls now : Nat) : Nat × State :=
  let l := s.kp.srv.waits.filter (fun x => x.2.1 = plot && x.2.2.1 = cls && now < x.1 + 1000000)
  if l.isEmpty then s.free else (l.foldl (fun a x => a + x.2.2.2) 0 / l.length, s)

/-- RETRY_US of REFUSED_QUOTA (R578): the mean step time, which the spec gives no measure of, times the tokens that the plot's Lead request
nearest completion has to generate. -/
def State.srvQuotaHint (s : State) (plot : Nat) : Nat × State :=
  let l := (s.kp.srv.reqs.filter (fun r => r.plot = plot && r.cls ≤ 1)).map (fun r => r.maxNew - r.gen.length)
  let f := s.free
  match l.min? with
  | some n => (f.1 * n, f.2)
  | none => f

/-- The checks 0x10 and 0x11 of R576; MAXNEW and PLEN of zero fail the first. (DESIGN CHOICE: notes/assumptions/37.md.) -/
def srvBadFields (w2 w4 w5 : Nat) : Option Nat :=
  let invt := nbits w4 63 32
  let topp := nbits w4 31 0
  let tpe := nbits w2 59 57
  if 1 < nbits w2 63 62 || 1 < nbits w2 61 60 || tpe = 0 || 4 < tpe || 256 < nbits w5 40 32 || nbits w2 47 32 = 0 || nbits w2 31 0 = 0 then
    some 0x10
  else if nbit invt 31 = 1 || nbits invt 30 23 = 255 || topp = 0 || 0x3F800000 < topp then some 0x11
  else none

/-- The tokens of a prompt's bytes, before any merge (R587). -/
def SrvTable.start (t : SrvTable) (b : List Nat) : List Nat := b.map (fun x => t.bytemap.getD x 0)

/-- A tracker entry is there for a request of a class, or the code that refuses it (R577, R578). -/
def State.srvRoom (s : State) (n cls : Nat) : Option Nat :=
  let mine := s.kp.srv.reqs.filter (fun r => r.plot = n)
  let lead := (mine.filter (fun r => r.cls ≤ 1)).length
  let most := s.fld SRV_PLOT_A_n_TRACK_MAX 0 n
  let kept := s.fld SRV_PLOT_A_n_TRACK_LEAD 0 n
  if cls ≤ 1 then (if lead < kept then none else some 0x0103)
  else if most - kept ≤ mine.length - lead || (cls = 3 && s.fld SRV_PLOT_A_n_PASS_HW 0 n ≤ mine.length) then some 0x0102
  else none

/-- SRV_SUBMIT (R575 to R578) at time `now` in µs; `far` and `status` are what host memory or another module gives of the prompt. -/
def execSrvSubmit (q : Fin 16384) (cid : BitVec 16) (now : Nat) (far : List Vec) (status : Status) (s : State) : Res :=
  .next (match s.serveNext q.val cid.toNat 0x80 with
    | none => s
    | some k =>
      let n := k.plot
      let bytes := nbits (k.word 2) 63 62 = 1
      let len := nbits (k.word 2) 31 0
      let drop := s.dropCmd k
      match srvBadFields (k.word 2) (k.word 4) (k.word 5), s.srvModel n (nbits (k.word 2) 51 48) with
      | some d, _ => s.complete { k with res0 := d } 0x0105 0 []
      | none, none => s.complete k 0x0800 0 []
      | none, some m =>
        if m.lost || m.leader.isSome then s.complete k 0x0800 0 []
        else if (bytes || nbits (k.word 2) 61 60 = 1) && m.table.isNone then s.complete { k with res0 := 0x13 } 0x0105 0 []
        else if (if bytes then 262144 < len else m.d 32 4 - 1 < len) then s.complete k 0x0801 0 []
        else match s.srvRoom n k.cls with
          | some st =>
            let h := if st = 0x0103 then drop.srvQuotaHint n else drop.srvMeanWait n k.cls now
            h.2.streamRefuse q k.cid n 0 st h.1
          | none =>
            let size := if bytes then len else 4 * len
            let r := drop.cmdRead k 1 (k.addr 1 0) size status.toNat (farVal far)
            if r.1 = viaHold then s
            else
              let f := r.2.2.free
              let used := fun (i : Nat) => s.kp.srv.reqs.any (fun x => x.rid = i)
              let rid := ((firstFrom (fun i => !used ((i + f.1) % 16384)) 0 16384).getD 0 + f.1) % 16384
              let body := leBytes r.2.1 size
              let toks := (List.range len).map (fun i => ofLe (bytesAt body (4 * i) 4))
              let x := f.2.kp.srv
              let req : SrvReq := { rid := rid, plot := n, q := q.val, cid := k.cid, cls := k.cls, words := k.words, fetched := k.fetched,
                                    order := x.nextAge, tokens := if bytes then none else some toks,
                                    enc := if bytes then m.table.map (fun t => t.start body) else none }
              let s1 := (f.2.setSrv { x with reqs := x.reqs ++ [req], nextAge := x.nextAge + 1 }).srvCount n
              if r.1 ≠ 0 then s1.srvEnd req 7 r.1 0
              else if !bytes && toks.any (fun t => m.d 8 4 ≤ t) then s1.srvEnd req 7 0x0802 0
              else s1)

/-- SRV_CANCEL (R593): a target that waits, or whose plot's step has ended, ends at once; another at the end of the step. -/
def execSrvCancel (q : Fin 16384) (cid : BitVec 16) (s : State) : Res :=
  .next (match s.serveNext q.val cid.toNat 0x81 with
    | none => s
    | some k => match s.kp.srv.reqs.find? (fun r => r.q = q.val && r.cid = nbits (k.word 2) 15 0) with
      | none => s.complete k 0 0 []
      | some r =>
        let r1 := { r with cancels := r.cancels ++ [k.seq] }
        let s1 := (s.setCmd { k with phase := .launched }).putReq r1
        let running := ((s.srvModel r.plot r.slot).bind (·.step)).isSome
        if r.bslot.isNone || !running then s1.srvEnd r1 5 0x0104 0 else s1)

/-- An area of a model in the plot's HBM window: its offset and length (R572, R573). (DESIGN CHOICE: notes/assumptions/37.md.) -/
def SrvModel.areas (m : SrvModel) : List (Nat × Nat) :=
  let b := m.d 6 2
  let at_ := fun (i : Nat) => m.d i 8 % 2 ^ 48
  [(at_ 24, m.d 20 4 * m.d 16 2 * 65536), (at_ 48, 64 + 32 * b), (at_ 56, 2048 * b), (at_ 64, 4 * b * ((m.d 32 4 + m.tpp - 1) / m.tpp)),
   (at_ 72, 4 * m.d 36 2 * b)]

/-- A field of a descriptor is out of its range (R573 detail 0x02); the addresses are aligned to the words of their areas. -/
def State.srvFieldBad (s : State) (m : SrvModel) : Bool :=
  let d := m.d
  let out := fun (v lo hi : Nat) => v < lo || hi < v
  8 ≤ d 5 1 || nbits (d 5 1) 2 1 = 3 || out (d 6 2) 1 512 || out (d 8 4) 2 262144 || out (d 16 2) 1 1024 || 16 < d 18 2 || d 20 4 = 0
    || d 24 8 % 65536 ≠ 0 || !inHbmWindow (d 24 8 % 2 ^ 48) || out (d 32 4) 2 1048576 || out (d 36 2) 1 8192 || out (d 38 2) 1 64
    || d 40 2 % 4 ≠ 0 || 0xC000 ≤ d 40 2 || d 43 1 = 0 || out (d 46 2) 1 10240 || 10240 < d 44 2 + d 46 2
    || d 48 8 % 8 ≠ 0 || d 56 8 % 8 ≠ 0 || d 64 8 % 4 ≠ 0 || d 72 8 % 4 ≠ 0 || d 80 8 % 8 ≠ 0 || (d 38 2 = 1 && d 80 8 ≠ 0) || d 88 40 ≠ 0

/-- Every page of an area is mapped writable (R573 detail 0x04). -/
def State.srvMapped (s : State) (n : Nat) (x : Nat × Nat) : Bool :=
  (List.range ((x.1 + x.2 + 2 ^ 21 - 1) / 2 ^ 21 - x.1 / 2 ^ 21)).all (fun i =>
    match s.lookEntry n 1 ((x.1 / 2 ^ 21 + i) * 2 ^ 21) true with
    | .ok _ => true
    | _ => false)

/-- The checks 0x01 to 0x05 of R573 on a descriptor. A slot number above 7 fails the first. (DESIGN CHOICE: notes/assumptions/37.md.) -/
def State.srvCheck (s : State) (m : SrvModel) : Option Nat :=
  let n := m.plot
  let c0 := m.d 44 2
  let svc := s.serviceCore n
  let others := s.kp.srv.models.filter (fun x => x.plot = n && x.slot ≠ m.slot)
  let own := fun (i : Nat) => m.d i 8 >>> 48 = 0xFFFF || m.d i 8 >>> 48 = s.fld MODULE_ID_ID 0 0
  if m.d 0 4 ≠ 0x4C444D53 || 7 < m.slot then some 1
  else if s.srvFieldBad m then some 2
  else if !s.coresBound c0 (m.d 46 2) n || (c0 ≤ svc && svc < c0 + m.d 46 2) then some 3
  else if !([24, 48, 56, 64, 72].all own) || !(m.areas.all (fun x => s.srvMapped n x))
      || others.any (fun o => o.areas.any (fun a => m.areas.any (fun b => meet (a.1, a.1 + a.2) (b.1, b.1 + b.2)))) then some 4
  else if s.kp.srv.reqs.any (fun r => r.plot = n && r.slot = m.slot) then some 5
  else none

/-- A model from the bytes of its descriptor. -/
def srvModelOf (n : Nat) (desc : List Nat) : SrvModel := { plot := n, slot := ofLe (bytesAt desc 4 1), desc := desc }

/-- Send a Keeper control message of class Trump, whose payload the spec does not give, to a virtual module of a plot (R440, R574). -/
def State.srvTell (s : State) (n peer len : Nat) : State :=
  let f := s.free
  f.2.fabNote peer 0 { op := 0x48, kw := true, sup := true, plot := n, len := len, data := f.1 % 2 ^ (8 * len) }

/-- The module that a virtual module ID of a plot names. -/
def State.srvPeer (s : State) (n v : Nat) : Nat := s.fld TU_MODMAP_v_ID n v

/-- SRV_MODEL (R572 to R574): `far` and `status` answer for the descriptor, `mtab` for MEMBER_TAB, where they lie elsewhere; `accept` says that
every member is reached and takes the descriptor. -/
def execSrvModel (q : Fin 16384) (cid : BitVec 16) (far mtab : List Vec) (status : Status) (accept : Bool) (s : State) : Res :=
  .next (match s.serveNext q.val cid.toNat 0x88 with
    | none => s
    | some k =>
      let n := k.plot
      let fail := fun (d : Nat) (s : State) => s.complete { k with res0 := d } 0x0804 0 []
      if !s.srvBetween n then s
      else
        let r := s.cmdRead k 2 (k.addr 2 0) 320 status.toNat (farVal far)
        if r.1 = viaHold then s
        else if r.1 ≠ 0 then r.2.2.complete k r.1 0 []
        else
          let m := srvModelOf n (leBytes r.2.1 320)
          match r.2.2.srvCheck m with
          | some d => fail d r.2.2
          | none =>
            let cnt := m.d 38 2 - 1
            let t := r.2.2.readVia (s.srvWho n) (BitVec.ofNat 64 (m.d 80 8)) (8 * cnt) status.toNat (farVal mtab)
            let ids := (List.range cnt).map (fun i => wordAt t.2.1 i % 65536)
            if cnt = 0 then (r.2.2.putModel m).complete k 0 0 []
            else if t.1 = viaHold then s
            else if t.1 ≠ 0 || ids.any (fun v => 4096 ≤ v || s.fld TU_MODMAP_v_EN n v = 0) then fail 6 t.2.2
            else
              let s1 := ids.foldl (fun s v => (s.srvTell n (s.srvPeer n v) 240).srvTell n (s.srvPeer n v) 80) t.2.2
              if accept then (s1.putModel { m with members := ids }).complete k 0 0 [] else fail 6 s1)

/-- A table's part: read on at byte `off`, unless a read has failed. -/
def State.tabRead (k : Cmd) (status far : Nat) (r : Nat × State) (off n : Nat) : Nat × Nat × State :=
  if r.1 ≠ 0 then (r.1, 0, r.2) else r.2.cmdRead k 2 (k.addr 2 off) n status (far >>> (8 * off))

/-- Parts of n bytes of a table at the offsets given. -/
def State.tabParts (k : Cmd) (status far : Nat) : Nat × State → List (Nat × Nat) → List (List Nat) × Nat × State
  | r, [] => ([], r.1, r.2)
  | r, (off, n) :: t =>
    let x := State.tabRead k status far r off n
    let y := State.tabParts k status far (x.1, x.2.2) t
    (leBytes x.2.1 n :: y.1, y.2)

/-- SRV_TOKTAB (R586): the table is taken in when it is attached; software may not change it while the slot is loaded. `far` holds the table from
its start where it lies elsewhere. -/
def execSrvToktab (q : Fin 16384) (cid : BitVec 16) (far : List Vec) (status : Status) (s : State) : Res :=
  .next (match s.serveNext q.val cid.toNat 0x89 with
    | none => s
    | some k =>
      let fv := farVal far
      let st := status.toNat
      let part := fun (r : Nat × State) (l : List (Nat × Nat)) => State.tabParts k st fv r l
      match s.srvModel k.plot (k.word 3) with
      | none => s.complete k 0x0800 0 []
      | some m =>
        let h := part (0, s) [(0, 64)]
        let b := h.1.headD []
        let g := fun (i n : Nat) => ofLe (bytesAt b i n)
        let ntok := g 4 4
        let nm := g 8 4
        let bad := g 0 4 ≠ 0x4B4F5453 || ntok ≠ m.d 8 4 || 262143 < nm || g 12 4 ≠ 0 || g 40 24 ≠ 0
        if !s.srvBetween k.plot || h.2.1 = viaHold then s
        else if h.2.1 ≠ 0 then h.2.2.complete k h.2.1 0 []
        else if bad then h.2.2.complete { k with res0 := 7 } 0x0804 0 []
        else
          let p := part h.2 [(g 16 8, 1024), (g 24 8, 8 * ntok), (g 32 8, 16 * nm)]
          let ints := fun (l : List Nat) (n : Nat) => (List.range n).map (fun i => ofLe (bytesAt l (4 * i) 4))
          let strs := ints (p.1.getD 1 []) (2 * ntok)
          let lens := (List.range ntok).map (fun i => (strs.getD (2 * i + 1) 0, strs.getD (2 * i) 0 % 128))
          let mg := ints (p.1.getD 2 []) (4 * nm)
          let t := part p.2 lens
          if t.2.1 = viaHold then s
          else if t.2.1 ≠ 0 then t.2.2.complete k t.2.1 0 []
          else if lens.any (fun x => x.2 = 0 || 64 < x.2) || (List.range nm).any (fun i => mg.getD (4 * i + 3) 0 ≠ 0) then
            t.2.2.complete { k with res0 := 7 } 0x0804 0 []
          else
            let tab : SrvTable := { bytemap := ints (p.1.headD []) 256, strings := t.1,
                                    merges := (List.range nm).map (fun i => (mg.getD (4 * i) 0, mg.getD (4 * i + 1) 0, mg.getD (4 * i + 2) 0)) }
            (t.2.2.putModel { m with table := some tab }).complete k 0 0 [])

/-- SRV_UNLOAD. -/
def execSrvUnload (q : Fin 16384) (cid : BitVec 16) (s : State) : Res :=
  .next (match s.serveNext q.val cid.toNat 0x8A with
    | none => s
    | some k =>
      let hit := fun (plot slot : Nat) => plot = k.plot && slot = k.word 2
      let x := s.kp.srv
      if !s.srvBetween k.plot then s
      else if x.reqs.any (fun r => hit r.plot r.slot) then s.complete k 0x0805 0 []
      else (s.setSrv { x with models := x.models.filter (fun m => !hit m.plot m.slot) }).complete k 0 0 [])

/-- SRV_POLICY (R571, R596). -/
def execSrvPolicy (q : Fin 16384) (cid : BitVec 16) (s : State) : Res :=
  .next (match s.serveNext q.val cid.toNat 0x8B with
    | none => s
    | some k =>
      let n := k.word 4
      let put := fun (r : RegName) (w : Nat) => RegName.written r true 63 0 (s.reg r 0 n) (BitVec.ofNat 64 w)
      let s1 := (s.setReg .SRV_PLOT_A_n 0 n (put .SRV_PLOT_A_n (k.word 2))).setReg .SRV_PLOT_B_n 0 n (put .SRV_PLOT_B_n (k.word 3))
      let total := (List.range 64).foldl (fun a i => a + s1.fld SRV_PLOT_A_n_TRACK_MAX 0 i) 0
      if !s.srvBetween k.plot then s
      else if 16384 < total || s1.fld SRV_PLOT_A_n_TRACK_MAX 0 n < s1.fld SRV_PLOT_A_n_TRACK_LEAD 0 n then
        s.complete { k with res0 := 5 } 0x0105 0 []
      else s1.complete k 0 0 [])

/-! ### Encoding (R587) -/

/-- The adjacent pair of lowest rank, and of equal rank the leftmost: its rank and place. -/
def SrvTable.bestPair (t : SrvTable) (i : Nat) : List Nat → Option (Nat × Nat)
  | a :: b :: r =>
    let here := (t.merges.findIdx? (fun m => m.1 = a && m.2.1 = b)).map (fun k => (k, i))
    match here, t.bestPair (i + 1) (b :: r) with
    | some x, some y => some (if y.1 < x.1 then y else x)
    | some x, none => some x
    | none, y => y
  | _ => none

/-- One round of the merge loop; none where no pair is named. -/
def SrvTable.mergeOnce (t : SrvTable) (l : List Nat) : Option (List Nat) :=
  (t.bestPair 0 l).map (fun x => l.take x.2 ++ [(t.merges.getD x.1 (0, 0, 0)).2.2] ++ l.drop (x.2 + 2))

/-- Up to n rounds: the tokens, and whether the loop has stopped. -/
def SrvTable.mergeRounds (t : SrvTable) : Nat → List Nat → List Nat × Bool
  | 0, l => (l, false)
  | n + 1, l => match t.mergeOnce l with
    | some r => t.mergeRounds n r
    | none => (l, true)

/-- PROMPT_ENCODE: n merges of a byte prompt, between two steps of its slot (R587). -/
def execPromptEncode (rid : Fin 16384) (n : Nat) (s : State) : Res :=
  .next (match s.srvReq rid.val with
    | none => s
    | some r => match s.srvModel r.plot r.slot, r.enc with
      | some m, some l =>
        (match m.step, m.table with
        | none, some t =>
          let x := t.mergeRounds n l
          if !x.2 then s.putReq { r with enc := some x.1 }
          else
            let r1 := { r with enc := none, tokens := some x.1 }
            let s1 := s.putReq r1
            if x.1.any (fun y => m.d 8 4 ≤ y) then s1.srvEnd r1 7 0x0802 0
            else if m.d 32 4 - 1 < x.1.length then s1.srvEnd r1 7 0x0801 0
            else s1
        | _, _ => s)
      | _, _ => s)

/-- SRV_ADMIT_TIMEOUT: a request without a batch slot has waited past its class's limit or its MAXWAIT at time `now` in µs (R578). -/
def execSrvAdmitTimeout (rid : Fin 16384) (now : Nat) (s : State) : Res :=
  .next (match s.srvReq rid.val with
    | none => s
    | some r =>
      let w := now - r.fetched
      let mine := nbits (r.word 0) 47 32
      let late := (r.cls = 2 && s.fld SRV_PLOT_B_n_FOLLOW_WAIT 0 r.plot * 1000 ≤ w)
        || (r.cls = 3 && s.fld SRV_PLOT_B_n_PASS_WAIT 0 r.plot * 1000 ≤ w) || (mine ≠ 0 && mine ≤ w)
      if r.granted || !late then s
      else
        let h := s.srvMeanWait r.plot r.cls now
        let s1 := h.2.streamRefuse r.q r.cid r.plot r.rid 0x0102 h.1
        (s1.setSrv { s1.kp.srv with reqs := s1.kp.srv.reqs.filter (fun y => y.rid ≠ r.rid) }).srvCount r.plot)

/-! ### Blocks (R584, R585) -/

/-- The requests of a model's slot that hold batch slots. -/
def State.srvRunning (s : State) (m : SrvModel) : List SrvReq :=
  s.kp.srv.reqs.filter (fun r => r.plot = m.plot && r.slot = m.slot && r.bslot.isSome)

/-- The free blocks of a model's pool. -/
def State.srvFree (s : State) (m : SrvModel) : List Nat :=
  let held := (s.srvRunning m).flatMap (·.blocks)
  (List.range (m.d 20 4)).filter (fun b => !held.contains b)

/-- The free blocks that a class may take: KV_LEAD blocks are kept for Lead (R578). -/
def State.srvBlocksFor (s : State) (m : SrvModel) (cls : Nat) : Nat :=
  let free := (s.srvFree m).length
  let lead := ((s.srvRunning m).filter (fun r => r.cls ≤ 1)).foldl (fun a r => a + r.blocks.length) 0
  if cls ≤ 1 then free else free - (s.fld SRV_PLOT_B_n_KV_LEAD 0 m.plot - lead)

/-- An element of a list that the spec does not name. (DESIGN CHOICE: notes/assumptions/1.md.) (DESIGN CHOICE: notes/assumptions/38.md.) -/
def State.pick (s : State) (l : List Nat) : Nat × State := let f := s.free; (l.getD (f.1 % l.length) 0, f.2)

/-- Take n free blocks for a request. (DESIGN CHOICE: notes/assumptions/38.md.) -/
def State.srvTake (s : State) (m : SrvModel) (rid : Nat) : Nat → State
  | 0 => s
  | n + 1 =>
    match s.srvReq rid with
    | none => s
    | some r =>
      let x := s.pick (s.srvFree m)
      (x.2.putReq { r with blocks := r.blocks ++ [x.1] }).srvTake m rid n

/-- The youngest of a list of requests. -/
def youngest (l : List SrvReq) : Option SrvReq :=
  l.foldl (fun a r => match a with | some x => if x.order < r.order then some r else a | none => some r) none

/-- The sequence that is preempted for a block of `r` (R579, R585). -/
def State.srvVictim (s : State) (m : SrvModel) (r : SrvReq) : Option SrvReq :=
  let run := s.srvRunning m
  let lead := run.filter (fun x => x.cls ≤ 1)
  match youngest (run.filter (fun x => x.cls = 3)) with
  | some x => some x
  | none => match youngest (run.filter (fun x => x.cls = 2)) with
    | some x => some x
    | none => if r.cls ≤ 1 && s.fld SRV_PLOT_A_n_LEAD_SEQ 0 m.plot < lead.length then youngest lead else none

/-- Preempt a sequence at `now` (R585, R591): it frees its blocks and returns to the head of its class. -/
def State.srvPreempt (s : State) (r : SrvReq) (now : Nat) : State :=
  let r1 := { r with bslot := none, blocks := [], pos := 0, preAt := some now, delayed := true }
  let s1 := (s.bump SRV_STAT_W1_PREEMPT 0 r.plot).postEntry r.q (streamEntry r.cid 1 0 0 r.rid 0 8 r.gen.length [] [])
  let x := s1.kp.srv
  (s1.setSrv { x with reqs := r1 :: x.reqs.filter (fun y => y.rid ≠ r.rid) }).srvCount r.plot

/-- Give a sequence `need` blocks in all, preempting where none can be taken; a sequence that gets none ends (R585).
(DESIGN CHOICE: notes/assumptions/38.md.) -/
def State.srvGrow (s : State) (m : SrvModel) (rid need now : Nat) : Nat → State
  | 0 => s
  | fuel + 1 =>
    match s.srvReq rid with
    | none => s
    | some r =>
      if r.bslot.isNone || need ≤ r.blocks.length then s
      else if 0 < s.srvBlocksFor m r.cls then (s.srvTake m rid 1).srvGrow m rid need now fuel
      else match s.srvVictim m r with
        | some v => (s.srvPreempt v now).srvGrow m rid need now fuel
        | none => s.srvEnd r 6 0x0807 0

/-! ### A step begins (R578 to R581) -/

/-- Grant a batch slot to a request that waits, at `now`: it prefills its prompt and what it has generated. (DESIGN CHOICE: notes/assumptions/38.md.) -/
def State.srvGrant (s : State) (m : SrvModel) (r : SrvReq) (need now : Nat) : State :=
  let used := (s.srvRunning m).filterMap (·.bslot)
  let x := s.pick ((List.range (m.d 6 2)).filter (fun j => !used.contains j))
  let w := now - r.fetched
  let first := !r.granted
  let r1 := { r with bslot := some x.1, pos := 0, granted := true, wait := if first then w else r.wait,
                     delayed := r.delayed || (first && s.fld ADMIT_CFG_DELAY_THR 0 0 < w),
                     preWait := match r.preAt with | some t => some (now - t) | none => r.preWait
                     preAt := none }
  let y := x.2.kp.srv
  let waits := (y.waits.filter fun (e : Nat × Nat × Nat × Nat) => now < e.1 + 1000000) ++ (if first then [(now, r.plot, r.cls, w)] else [])
  ((x.2.setSrv { y with waits := waits }).putReq r1).srvTake m r.rid need

/-- Grant slots to requests that are ready, in order, until one cannot have its slot (R578, R579). (DESIGN CHOICE: notes/assumptions/38.md.) -/
def State.srvGrants (s : State) (m : SrvModel) (now : Nat) : List SrvReq → State
  | [] => s
  | r :: t =>
    let run := s.srvRunning m
    let others := (run.filter (fun x => 1 < x.cls)).length
    let room := run.length < m.d 6 2 && (r.cls ≤ 1 || others < m.d 6 2 - s.fld SRV_PLOT_A_n_LEAD_SEQ 0 m.plot)
    let need := (r.ctx.length + m.tpp) / m.tpp
    if room && need ≤ s.srvBlocksFor m r.cls then (s.srvGrant m r need now).srvGrants m now t else s

/-- Every grant of a step boundary: Lead, then Follow, then Pass, each oldest first. -/
def State.srvGrantAll (s : State) (m : SrvModel) (now : Nat) : State :=
  s.srvGrants m now ([1, 2, 3].flatMap (fun c =>
    s.kp.srv.reqs.filter (fun r => r.plot = m.plot && r.slot = m.slot && r.bslot.isNone && r.tokens.isSome && max 1 r.cls = c)))

/-- Tokens of a request in entries that wait for its CQ, and those in none (R591). -/
def State.srvUnposted (s : State) (r : SrvReq) : Nat :=
  ((s.qp r.q).wait.filter (fun e => e.kind = 3 && nbits (e.words.getD 1 0) 61 48 = r.rid)).foldl (fun a e => a + nbits (e.words.getD 1 0) 47 45)
    (r.gen.length - r.posted)

/-- A sequence pauses while its CQ is full and it holds STREAM_HOLD tokens (R591). -/
def State.srvPaused (s : State) (r : SrvReq) : Bool :=
  !(s.qp r.q).wait.isEmpty && s.fld SRV_PLOT_B_n_STREAM_HOLD 0 r.plot ≤ s.srvUnposted r

/-- Put requests in batch-slot order. -/
def bySlot : List SrvReq → List SrvReq
  | [] => []
  | r :: t =>
    let rec put : List SrvReq → List SrvReq
      | [] => [r]
      | y :: u => if r.bslot.getD 0 < y.bslot.getD 0 then r :: y :: u else y :: put u
    put (bySlot t)

/-- The entries of a step, with the blocks that their positions need (R580, R585). -/
def State.srvEntries (s : State) (m : SrvModel) (now : Nat) : List SrvEntry × State :=
  let run := bySlot ((s.srvRunning m).filter (fun r => !s.srvPaused r))
  let x := run.foldl (fun (a : List SrvEntry × State) r =>
    let rem := r.ctx.length - r.pos
    let nt := min (m.d 36 2) rem
    let need := (r.pos + nt + m.tpp - 1) / m.tpp
    (a.1 ++ [⟨r.rid, r.bslot.getD 0, r.pos, nt, decide (nt = rem)⟩],
      a.2.srvGrow m r.rid need now (need + a.2.kp.srv.reqs.length + 1))) ([], s)
  (x.1.filter (fun e => ((x.2.srvReq e.rid).bind (·.bslot)).isSome), x.2)

/-- The words of the batch table (R581). -/
def State.srvBatch (s : State) (m : SrvModel) (l : List SrvEntry) : List Nat :=
  let total := l.foldl (fun a e => a + e.nt) 0
  let rows := l.foldl (fun (a : List Nat × Nat) e =>
    let blocks := ((s.srvReq e.rid).map (fun r => r.blocks.length)).getD 0
    (a.1 ++ [e.rid <<< 48 + e.bslot <<< 32 + e.pos, a.2 <<< 32 + (if e.final then 2 ^ 15 else 0) + e.nt, blocks, 0], a.2 + e.nt)) ([], 0)
  [m.steps, total <<< 32 + l.length, 0, 0, 0, 0, 0, 0] ++ rows.1

/-- The tokens of a step's entries in order. -/
def State.srvTokens (s : State) (l : List SrvEntry) : List Nat :=
  l.flatMap (fun e => ((s.srvReq e.rid).map (fun r => (r.ctx.drop e.pos).take e.nt)).getD [])

/-- Write bytes of a step here and to each member at the same address (R574). The first failing status is kept. -/
def State.srvWrite (m : SrvModel) (r : Nat × State) (off : Nat) (b : List Nat) (status : Nat) : Nat × State :=
  (0xFFFF :: m.members).foldl (fun (r : Nat × State) v =>
    if r.1 ≠ 0 then r
    else
      let x := r.2.writeVia (r.2.srvWho m.plot) (BitVec.ofNat 64 (v <<< 48 + off % 2 ^ 48)) b.length (ofLe b) status
      (x.1, x.2.2)) r

/-- The physical cores of a model's step kernel (R572). -/
def State.srvCores (s : State) (m : SrvModel) : List Nat := (List.range (m.d 46 2)).map (fun i => s.physOf (m.d 44 2 + i))

/-- The sums of DET_CNT over the kernel cores. -/
def State.srvMarks (s : State) (m : SrvModel) : List Nat :=
  [DET_CNT_ATOMIC, DET_CNT_FASTPOT, DET_CNT_TIMEOUT, DET_CNT_PROBE].map (fun f => (s.srvCores m).foldl (fun a c => a + s.fld f c 0) 0)

/-- Launch the kernel of step n on this module's cores as LAUNCH does (R580): the code that stops it, or 0. The level is not given; it is the user
level. -/
def State.srvLaunch (s : State) (m : SrvModel) (n : Nat) : Nat × State :=
  let cores := s.srvCores m
  let mask := m.d 42 1
  if cores.any (fun c => (List.range 8).any (fun t => nbit mask t = 1 && !s.startable c t)) then (0x0109, s)
  else (0, (cores.zip (List.range cores.length)).foldl (fun s x =>
    s.startKernel x.1 mask 0 (m.d 40 2) (BitVec.ofNat 64 (m.d 48 8)) (BitVec.ofNat 64 n) (BitVec.ofNat 64 x.2)) s)

/-- Requests that were cancelled end at a boundary (R593). -/
def State.srvCancelled (s : State) (m : SrvModel) : State :=
  (s.kp.srv.reqs.filter (fun r => r.plot = m.plot && r.slot = m.slot && (r.stop || !r.cancels.isEmpty))).foldl (fun s r => s.srvEnd r 5 0x0104 0) s

/-- SERVING_STEP_START: the next step of a slot begins at `now` in µs: grants, entries and blocks, the tables written, members ordered and the
kernel launched (R580); `status` answers the writes to members. With nothing to run, or while a core of the
kernel is under test (R612), no step begins; nor while hang recovery holds the plot, after which an interrupted kernel runs again (R583). -/
def execServingStepStart (plot : Fin 64) (slot : Fin 8) (now : Nat) (status : Status) (s : State) : Res :=
  .next (match s.srvModel plot.val slot.val with
    | none => s
    | some m =>
      if s.plotHeld plot.val || (s.srvCores m).any (fun c => s.underTest c) then s
      else match m.step with
      | some st =>
        if !st.again then s
        else
          let l := s.srvLaunch m (if m.leader.isSome then m.steps else m.steps - 1)
          l.2.putModel { m with step := some { st with again := false, code := if st.code = 0 then l.1 else st.code } }
      | none =>
      if m.lost || m.leader.isSome then s
      else
        let s1 := (s.srvCancelled m).srvGrantAll m now
        let before := s.kp.srv.reqs
        let x := s1.srvEntries m now
        if x.1.isEmpty then x.2
        else
          let b := x.2.srvBatch m x.1
          let blk := (m.d 32 4 + m.tpp - 1) / m.tpp
          let w1 := State.srvWrite m (0, x.2) (m.d 48 8) (b.flatMap (fun w => leBytes w 8)) status.toNat
          let w2 := State.srvWrite m w1 (m.d 72 8) ((x.2.srvTokens x.1).flatMap (fun t => leBytes t 4)) status.toNat
          let w3 := x.1.foldl (fun r e => match x.2.srvReq e.rid with
            | some q =>
              if before.any (fun y => y.rid = q.rid && y.bslot = q.bslot && y.blocks = q.blocks) then r
              else State.srvWrite m r (m.d 64 8 + 4 * e.bslot * blk) (q.blocks.flatMap (fun v => leBytes v 4)) status.toNat
            | none => r) w2
          let det := w3.2.srvMarks m
          let l := if w3.1 = 0 then (m.members.foldl (fun s v => s.srvTell m.plot (s.srvPeer m.plot v) 240) w3.2).srvLaunch m m.steps else (w3.1, w3.2)
          let st : SrvStep := { entries := x.1, here := true, members := if w3.1 = 0 then m.members else [], code := l.1, det := det }
          (l.2.putModel { m with step := some st, steps := m.steps + 1 }).bumpWrap SRV_STAT_W1_STEPS 0 m.plot)

/-! ### Sampling (R555, R556, R588) -/

/-- The mixing function of R555. -/
def genMix (z : Word) : Word :=
  let a := (z ^^^ (z >>> 31)) * 0xD6E8FEB86659FD93
  let b := (a ^^^ (a >>> 29)) * 0xA3B195AE7D553C2B
  b ^^^ (b >>> 32)

/-- GEN (R555). -/
def gen (key c1 c0 : Word) : Word := genMix (genMix (genMix (key ^^^ c0) ^^^ c1) ^^^ key)

/-- A value of single precision. -/
def f32 (c : Nat) : FV := fmtF.decode c

/-- Sum and product of single precision, rounded once. -/
def f32Add (a b : Nat) : Nat := (fmtF.addR (f32 a) (f32 b)).code
/-- Product of single precision. -/
def f32Mul (a b : Nat) : Nat := (fmtF.mulR (f32 a) (f32 b)).code
/-- a < b. -/
def f32Lt (a b : Nat) : Bool := !(f32 a).isNan && !(f32 b).isNan && (f32 a).lt false (f32 b)
/-- a ≥ b. -/
def f32Ge (a b : Nat) : Bool := !(f32 a).isNan && !(f32 b).isNan && !(f32 a).lt false (f32 b)

/-- The running sums c_0, c_1, … of R588. -/
def runSums (a : Nat) : List Nat → List Nat
  | [] => []
  | w :: r => let c := f32Add a w; c :: runSums c r

/-- The index that R588 chooses among the candidates (logits and tokens), for a request's word 4, TOPK, seed and position. Where no sum reaches TOPP's part
of the whole, as with infinite logits, the spec names no q: it is the free value `any`. (DESIGN CHOICE: notes/assumptions/38.md.) -/
def sampleIndex (logits : List Nat) (w4 topk : Nat) (seed : Word) (pos any : Nat) : Nat :=
  let invt := nbits w4 63 32
  if invt = 0 then 0
  else
    let m := min (if topk = 0 then 256 else topk) logits.length
    let l0 := fmtF.decode (logits.headD 0)
    let w := (logits.take m).map (fun l => (fmtF.special 4 (f32 (f32Mul (fmtF.addR (f32 l) l0.negate).code invt))).code)
    let c := match w with | [] => [] | x :: r => x :: runSums x r
    let q := (c.findIdx? (fun x => f32Ge x (f32Mul (nbits w4 31 0) (c.getLastD 0)))).getD (any % m)
    let r := gen seed (BitVec.ofNat 64 (2 ^ 48 + pos % 2 ^ 48)) 0
    let u := (fmtF.round false false false (r.toNat >>> 40) (-24)).code
    let t := f32Mul u (c.getD q 0)
    (((c.take (q + 1)).findIdx? (fun x => f32Lt t x)).getD q)

/-- The candidates of an entry pass R582. -/
def candOk (vocab : Nat) : List (Nat × Nat) → Bool
  | [] => true
  | x :: r => x.1 < vocab && !(f32 x.2).isNan && !(r.any (fun y => y.1 = x.1)) && candOk vocab r
      && (match r with | [] => true | y :: _ => f32Lt y.2 x.2 || ((f32 y.2).eq (f32 x.2) && x.1 < y.1))

/-- The END code of a token just sampled (R589); 0 where the sequence goes on. -/
def SrvReq.endCode (r : SrvReq) (m : SrvModel) (tok : Nat) : Nat :=
  let n := r.gen.length
  if tok = nbits (r.word 6) 31 0 || tok = nbits (r.word 6) 63 32 then 2
  else if tok = m.d 12 4 then 3
  else if n = r.maxNew then 1
  else if (r.tokens.getD []).length + n = m.d 32 4 then 4
  else 0

/-- A sequence's entry after the kernel: its candidates are checked, a token is sampled, and it ends or streams (R580, R582, R588 to R591). -/
def State.srvAfter (s : State) (m : SrvModel) (i : Nat) (e : SrvEntry) : State :=
  match s.srvReq e.rid with
  | none => s
  | some r =>
    let gone := r.stop || !r.cancels.isEmpty
    let r0 := { r with pos := e.pos + e.nt }
    if !e.final then (if gone then s.srvEnd r0 5 0x0104 0 else s.putReq r0)
    else
      let vocab := m.d 8 4
      let n := min vocab 256
      let x := s.readVia (s.srvWho m.plot) (BitVec.ofNat 64 (m.d 56 8 + 2048 * i)) (8 * n) 0x0402 0
      let cand := (List.range n).map (fun j => (wordAt x.2.1 j / 2 ^ 32, wordAt x.2.1 j % 2 ^ 32))
      if x.1 ≠ 0 || !candOk vocab cand then x.2.2.srvEnd r0 7 0x0803 0
      else
        let f := x.2.2.free
        let idx := sampleIndex (cand.map (·.2)) (r.word 4) (nbits (r.word 5) 40 32) (BitVec.ofNat 64 (r.word 3)) r.gen.length f.1
        let tok := (cand.getD idx (0, 0)).1
        let text := if r.wantsText then (m.table.map (fun t => t.strings.getD tok [])).getD [] else []
        let r1 := { r0 with gen := r.gen ++ [tok], text := r.text ++ text }
        let fin := r1.endCode m tok
        if fin ≠ 0 then f.2.srvEnd r1 fin 0 0
        else if gone then f.2.srvEnd r0 5 0x0104 0
        else
          let d := f.2.streamDue r1 (r1.text.length + 2)
          d.2.putReq d.1

/-- The last report of a step has come: its requests go on or end, and the step is over (R580, R582, R592). -/
def State.srvFinish (s : State) (m : SrvModel) (st : SrvStep) : State :=
  let now := s.srvMarks m
  let add := ((now.zip st.det).map (fun x => x.1 - x.2)).zipWith (· + ·) st.far
  let many := 1 < st.entries.length
  let s1 := st.entries.foldl (fun s e => match s.srvReq e.rid with
    | some r => s.putReq { r with marks := (r.marks.zip add).map (fun x => min 0xFFFF (x.1 + x.2)), shared := r.shared || many }
    | none => s) s
  let s2 := if st.code ≠ 0 then
      st.entries.foldl (fun s e => match s.srvReq e.rid with | some r => s.srvEnd r 7 0x0803 st.code | none => s) s1
    else (st.entries.zip (List.range st.entries.length)).foldl (fun s x => s.srvAfter m x.2 x.1) s1
  s2.putModel { m with step := none }

/-- The step goes on once the kernel has ended here and every member has reported. -/
def State.srvSettle (s : State) (m : SrvModel) (st : SrvStep) : State :=
  if st.here || !st.members.isEmpty then s.putModel { m with step := some st } else s.srvFinish m st

/-- SERVING_KERNEL_END: every core of the step kernel has reported its end here (R580); a member reports it to its leader (R574). -/
def execServingKernelEnd (plot : Fin 64) (slot : Fin 8) (s : State) : Res :=
  .next (match s.srvModel plot.val slot.val with
    | none => s
    | some m => match m.step with
      | none => s
      | some st =>
        let cores := s.srvCores m
        let lost := cores.any (fun c => (s.core c).wbLost)
        let code := if st.code ≠ 0 then st.code else if lost then 0x0108 else 0
        if !st.here || st.again || (st.code = 0 && cores.any (fun c => s.fld KSTAT_ACTIVE c 0 = 1)) then s
        else match m.leader with
          | some p => (s.srvTell m.plot p 240).putModel { m with step := none }
          | none => s.srvSettle m { st with here := false, code := code })

/-! ### Members (R574) -/

/-- MEMBER_STEP_ORDER: at a member, its leader's order to run step `n` of a slot. -/
def execMemberStepOrder (plot : Fin 64) (slot : Fin 8) (n : Word) (s : State) : Res :=
  .next (match s.srvModel plot.val slot.val with
    | none => s
    | some m =>
      if m.leader.isNone || m.step.isSome then s
      else
        let m1 := { m with steps := n.toNat }
        let l := s.srvLaunch m1 m1.steps
        l.2.putModel { m1 with step := some { entries := [], code := l.1, det := s.srvMarks m } })

/-- MEMBER_STEP_REPORT: at the leader, a member, by its virtual module ID, reports its kernel's end with its code, and what DET_CNT of its kernel's cores
counted, by kind (R560, R592). -/
def execMemberStepReport (plot : Fin 64) (slot : Fin 8) (v : Fin 4096) (code : Status) (atomic fast timeout probe : BitVec 16) (s : State) : Res :=
  .next (match s.srvModel plot.val slot.val with
    | none => s
    | some m => match m.step with
      | none => s
      | some st =>
        if m.leader.isSome || !st.members.contains v.val then s
        else s.srvSettle m { st with members := st.members.filter (· ≠ v.val),
                                      far := st.far.zipWith (· + ·) [atomic.toNat, fast.toNat, timeout.toNat, probe.toNat],
                                      code := if st.code = 0 && 1 < code.toNat then code.toNat else st.code })

end Sys2Proof.Machine
end

