-- ==== Sys2Proof/Machine/Repair.lean ====
section
/-!
DEFINITION. Faults, scrub, latent-fault tests, grafts, ageing and stewards (R598 to R634). When a threshold of R614 is reached, and what a
monitor or a supervisor finds, is what the commands tell.
-/
namespace Sys2Proof.Machine

/-! ### Watchdogs, records, scrub -/

/-- WATCHDOG_EXPIRY: a count that has reached LIMIT × 1,024 takes vector 15 and returns to zero (R603); the Keeper's hang procedure starts
(R600). (DESIGN CHOICE: notes/assumptions/85.md.) -/
def execWatchdogExpiry (c : CoreId) (t : ThreadId) (s : State) : Res :=
  let h := s.thr c t
  .next (if nbit (s.fld WDOG_CTL_EN c 0) t = 0 || h.wdog < s.fld WDOG_CTL_LIMIT c 0 * 1024 || (h.st ≠ .ready && h.st ≠ .waiting) then s
    else
      let s1 := s.setThr c t { h with wdog := 0 }
      let s2 := if h.st = .waiting then s1.abandon c t false else s1
      let plot := if s.fld CTX_BIND_BOUND c 0 = 1 then s.fld CTX_BIND_PLOT c 0 else 0xFF
      ((s2.setThr c t { s2.thr c t with st := .ready }).raise c t 15 0 0 0).faultRec 0x06 0x10 plot 15 (coreLoc c))

/-- FAULT_RECORD_FLASH_COPY: the oldest record not yet copied goes to both SPI NOR devices (R604). -/
def execFaultRecordFlashCopy (s : State) : Res :=
  .next (match s.kp.flash with
    | [] => s
    | i :: r =>
      let w := [RegName.FLT_REC_W0, .FLT_REC_W1, .FLT_REC_W2, .FLT_REC_W3].map (fun x => (s.reg x 0 i).toNat)
      (s.setKp { s.kp with flash := r }).setRep { s.kp.rep with saved := s.kp.rep.saved ++ [w] })

/-- Grant-relative page g of a plot, or the cellar bank of logical core l, lies in a range entry with HOLD (R414, R610). -/
def State.heldEntry (s : State) (n : Nat) (pool : Bool) (x : Nat) : Bool :=
  (List.range 256).any (fun e => s.fld TU_RANGE_W0_EN n e = 1 && s.fld TU_RANGE_W0_HOLD n e = 1
    && (s.fld TU_RANGE_W0_KIND n e = 1) == pool && s.rangeBase n e ≤ x
    && x < s.rangeBase n e + s.rangeCount n e * (if s.fld TU_RANGE_W0_PS n e = 1 then 512 else 1))

/-- A code word that scrub leaves for now: its page is under HOLD (R610), or its half is gated (R608). -/
def State.scrubSkips (s : State) (a : Nat) : Bool :=
  if a < 0xA20000000 then
    let n := a / 0x400000
    s.gated (coreP n) (coreHalf n) || (match s.logicalOf n with
      | some l => 0x100000 ≤ a % 0x400000 && s.heldEntry (s.fld CTX_BIND_PLOT n 0) true l
      | none => false)
  else
    let p := (a - 0x10000000000) / 0x1000000000
    match s.grantOf p (a % 0x1000000000 / 2 ^ 21) with
    | some (n, _, g) => s.heldEntry n false g
    | none => false

/-- Scrub one code word (R608): what it corrects it writes back; an uncorrectable one stays and is recorded. Answers whether it corrected.
`first` says that the correction is the first at its row, column or page in 24 h (R605). (DESIGN CHOICE: notes/assumptions/87.md.) -/
def State.scrubWord (s : State) (a : Nat) (first : Bool) : Bool × State :=
  if s.pat a = 0 then (false, s)
  else
    let bank := a < 0xA20000000
    let n := a / 0x400000
    let p := (a - 0x10000000000) / 0x1000000000
    let plot := if bank && s.fld CTX_BIND_BOUND n 0 = 1 then s.fld CTX_BIND_PLOT n 0
      else if bank then 0xFF else ((s.grantOf p (a % 0x1000000000 / 2 ^ 21)).map (·.1)).getD 0xFF
    let counted := if bank then s.countErr n (a % 0x400000) else s.hbmCount p (a % 0x1000000000) (s.finding a = .bad)
    match s.finding a with
    | .clean => (false, s.asRead a)
    | .bad => (false, counted.faultRec 0x12 0x00 plot 0x0401 a)
    | .one i _ =>
      let s1 := if bank then (counted.asRead a).wroteWord n (a % 0x400000) else (counted.asRead a).setPat a 0
      (true, if first then s1.faultRec (if bank then 0x01 else 0x02) 0x01 plot i a else s1)

/-- SCRUB_ACCESS: background scrub reads the code word at a module offset in class Pass; `last` ends a full pass (R608 to R610). -/
def execScrubAccess (a : BitVec 41) (first last : Bool) (s : State) : Res :=
  let o := a.toNat / 32 * 32
  let ok := match windowPlace (o / 0x400000) (o % 0x400000) with
    | .bank _ _ => o < 0xA20000000
    | _ => 0x10000000000 ≤ o && o < 0x18000000000 && o % 0x1000000000 < 0x860000000
  .next (if s.fld SCRUB_CFG_EN 0 0 = 0 || s.fld STRAP_STAT_TEST_MODE 0 0 = 1 || !ok || s.scrubSkips o then s
    else
      let s1 := (s.scrubWord o first).2
      if last then (s1.bumpWrap SCRUB_STAT_PASSES 0 0).setFld FLT_STAT_LAPSE_SCRUB 0 0 0 else s1)

/-- SCRUB_LAPSE: the ages of the oldest unscrubbed code words in minutes; past 24 h the condition lapses (R598, R609). -/
def execScrubLapse (sram hbm : BitVec 16) (s : State) : Res :=
  let s1 := (s.setFld SCRUB_STAT_SRAM_AGE_M 0 0 sram.toNat).setFld SCRUB_STAT_HBM_AGE_M 0 0 hbm.toNat
  .next (if 1440 < max sram.toNat hbm.toNat && s.fld FLT_STAT_LAPSE_SCRUB 0 0 = 0 then
      (s1.setFld FLT_STAT_LAPSE_SCRUB 0 0 1).faultRec 0x11 0x0E 0xFF 0 0
    else s1)

/-- The place of a code word in a parcel's SRAM, counted in 32 MiB steps over its cores' banks in order. -/
def sramStep (a : Nat) : Nat :=
  let n := a / 0x400000
  let o := a % 0x400000
  (n % 1296 * 0x240000 + (if o < 0x40000 then o else o - 0x100000 + 0x40000)) / 2 ^ 25

/-- The code words of step j of parcel p's SRAM that lie in halves with power. -/
def State.sramWords (s : State) (p j : Nat) : Nat :=
  (List.range 1296).foldl (fun a i =>
    let n := p * 1296 + i
    let lo := max (i * 0x240000) (j * 2 ^ 25)
    let hi := min ((i + 1) * 0x240000) ((j + 1) * 2 ^ 25)
    if s.gated p (coreHalf n) then a else a + (hi - lo) / 32) 0

/-- SCRUB: an extra pass over the parcels named, 32 MiB a step (R478, R488, R609). -/
def execScrub (q : Fin 16384) (cid : BitVec 16) (s : State) : Res :=
  s.cmdStep q cid 0x43 (fun k s =>
    let per := nbit (k.word 2) 8 * 92 + nbit (k.word 2) 9 * 1072
    let parcels := (List.range 8).filter (fun p => nbit (k.word 2) p = 1)
    if k.total = 0 then some (k.lastStep, s)
    else
      let p := parcels.getD (k.done / per) 0
      let j := k.done % per
      let sram := nbit (k.word 2) 8 = 1 && j < 92
      let h := if nbit (k.word 2) 8 = 1 then j - 92 else j
      let mine := fun (a : Nat) =>
        if sram then a < 0xA20000000 && a / 0x400000 / 1296 = p && sramStep a = j
        else hbmAddr p (h * 2 ^ 25) ≤ a && a < hbmAddr p ((h + 1) * 2 ^ 25)
      let l := (s.bad.map (fun e => e.1 * 32)).filter (fun a => mine a && !s.scrubSkips a)
      let r := l.foldl (fun (r : Nat × State) a => let x := r.2.scrubWord a false; (if x.1 then r.1 + 1 else r.1, x.2)) (0, s)
      some ({ k with res0 := k.res0 + (if sram then s.sramWords p j else 2 ^ 20), res1 := k.res1 + r.1 }, r.2))

/-! ### Grafts (R614 to R622) -/

/-- Move a unit's registers of a block to another unit. -/
def State.moveRegs (s : State) (b : Block) (u v : Nat) : State :=
  let mine := s.regs.filterMap (fun e =>
    (b.regs.find? (fun r => e.1 / 1048576 = r.ctorIdx * 1048576 + u)).map (fun r => ((r.ctorIdx * 1048576 + v) * 1048576 + e.1 % 1048576, e.2)))
  let s1 := (s.resetRegs b u).resetRegs b v
  { s1 with regs := mine.foldl (fun m e => Sparse.put m e.1 e.2) s1.regs }

/-- Copy a core's banks with their tags; a symbol in error is corrected on the way, and an uncorrectable code word stays so. -/
def State.moveBanks (s0 : State) (a b : Nat) : State :=
  let s := s0.bad.foldl (fun s e => if e.1 / 0x20000 = a then s.asRead (e.1 * 32) else s) s0
  let x := bankAddr a 0
  let y := bankAddr b 0
  let s1 := (s.initBytes (bankAddr b 0) 0x40000).initBytes (bankAddr b 0x100000) 0x200000
  let inBank := fun (o : Nat) => x ≤ o && o < x + 0x300000
  let s2 := (s.mem.filter (fun e => inBank e.1)).foldl (fun s e => s.setByte (y + (e.1 - x)) e.2) s1
  let s3 := (s.tags.filter (fun e => inBank (e.1 * 8))).foldl (fun s e => s.setTag (y + (e.1 * 8 - x)) e.2) s2
  (s.bad.filter (fun e => inBank (e.1 * 32) && s.uncorrectable (e.1 * 32))).foldl (fun s e => s.setPat (y + (e.1 * 32 - x)) e.2) s3

/-- A core without work, held in Core reset. -/
def State.emptyCore (s : State) (c : Nat) : State :=
  let s1 := ((s.resetRegs .core c).resetRegs .thr c).resetRegs .cst c
  let s2 := [256 + 2 * c, 257 + 2 * c].foldl (fun s u => (s.resetRegs .dma u).setDma u {}) s1
  s2.setCore c { inReset := true }

/-- Move the state of core a to core b (R616), whose cycle count goes on `cycles` later: dirty bytes are written back, and lines of locked entries are
fetched again. -/
def State.moveState (s : State) (a b cycles : Nat) : State :=
  let s1 := s.flushAll a
  let k := s1.core a
  let locked := k.cache.filter (·.lock)
  let k1 : Core := { k with cyc := k.cyc + cycles, dropped := k.dropped ++ k.cache.filter (fun e => e.left ≠ 0), cache := [], side := [] }
  let s2 := ((s1.moveBanks a b).moveRegs .core a b).moveRegs .thr a b
  let s3 := s2.moveRegs .cst a b
  let s4 := [0, 1].foldl (fun s i =>
    let u := 256 + 2 * a + i
    let v := 256 + 2 * b + i
    ((s.moveRegs .dma u v).setDma v (s.dma u)).setDma u {}) s3
  let s5 := (s4.setCore b k1).setCore a { inReset := true }
  let s6 := locked.foldl (fun s e => (s.startFill b 0 { line := e.line, world := e.world, lock := true } (BitVec.ofNat 64 (e.line * 64))).2) s5
  s6.setKp { s6.kp with
    tx := Sparse.erase (Sparse.erase s6.kp.tx a) b
    lookups := s6.kp.lookups.map (fun x : Lookup => if x.port = a then { x with port := b } else x) }

/-- The distance of two positions of a parcel in hops. -/
def hopsBetween (a b : Nat) : Nat :=
  (max (coreX a) (coreX b) - min (coreX a) (coreX b)) + (max (coreY a) (coreY b) - min (coreY a) (coreY b))

/-- The free permitted spare of a core's parcel that lies nearest, of equal distance the lowest number (R615). -/
def State.nearSpare (s : State) (c : Nat) (ok : Nat → Bool) : Option Nat :=
  let p := coreP c
  let free := ((List.range 16).zip (spareList p)).filter (fun x => nbit (Sparse.get (2 ^ 18 - 1) s.kp.img.spares p) x.1 = 1
    && (s.logicalOf x.2).isNone && Sparse.get 0 s.kp.fences x.2 = 0 && x.2 ≠ c && ok x.2)
  (free.map (·.2)).foldl (fun b n => match b with
    | some m => if hopsBetween c n < hopsBetween c m then some n else b
    | none => some n) none

/-- The physical core number that stands for no core: an unplaced logical core has it (R620). (DESIGN CHOICE: notes/assumptions/83.md.) -/
def noCore : Nat := 10368

/-- Logical core l stands on physical core n. -/
def State.place_ (s : State) (l n : Nat) : State := { s with lmap := Sparse.set (defaultPhys l) s.lmap l n }

/-- A core is fenced for repair (R620, R642). -/
def State.repairFence (s : State) (c : Nat) : State := s.setFence c 5

/-- What follows every graft that stays: the repair record, SPARE_AVAIL, REPAIR_SUM and the bounds (R505, R615). A graft of a core that an earlier graft
had moved takes that one's place, and a temporary graft that c served is taken over by its new spare (R621). (DEDUCED: notes/assumptions/83.md.) -/
def State.graftDone (s0 : State) (c l : Nat) : State :=
  let handed := fun (x : BlockTest) => { x with moved := x.moved.map (fun m => if m.2 = c then (m.1, s0.physOf l) else m) }
  let s := s0.setRep { s0.kp.rep with tests := s0.kp.rep.tests.map handed }
  let first := Sparse.get (defaultPhys l) (s.imgMap s.kp.img.inForce) l = c
  let s1 := s.setImg { s.kp.img with repaired := if s.kp.img.repaired.contains c then s.kp.img.repaired else s.kp.img.repaired ++ [c] }
  ((if first then s1.bump REPAIR_SUM_CORE_GRAFTS 0 0 else s1).countSpares).publishHalf (coreP c) (coreHalf c)

/-- No spare is left: the core is fenced and its logical core unplaced (R620). -/
def State.unplace (s : State) (c l cls det plot : Nat) : State :=
  let s1 := ((s.emptyCore c).place_ l noCore).repairFence c
  let s2 := (s1.setFence noCore 5).bump FLT_STAT_NOSPARE 0 0
  (s2.faultRec cls 0x0D plot det (coreLoc c)).tellManager [2, l]

/-- Requests, replies and Deal copies find logical core l, which has left core c, on core n (R306, R618). -/
def State.redirect (s : State) (c l n : Nat) : State := ((s.setRedir c (some n)).redirHome l n).setRedir n none

/-- A live graft of core c, which holds logical core l, onto a spare (R617), `cycles` long. (DESIGN CHOICE: notes/assumptions/83.md.) -/
def State.graftTo (s : State) (c l n cycles : Nat) : State := ((s.moveState c n cycles).place_ l n).redirect c l n

/-- LIVE_GRAFT: the freeze of R617 as one step of `cycles` core cycles, for a finding of class `cls` with DETAIL `det`. `chk` is a core check that the
finding raised first: its thread and unit (R602); that thread is resumed on the spare. A graft on a core of a REBINDING plot is deferred (R621).
(DESIGN CHOICE: notes/assumptions/83.md.) (DESIGN CHOICE: notes/assumptions/84.md.) -/
def execLiveGraft (c : CoreId) (cycles : Nat) (cls : BitVec 8) (det : BitVec 32) (chk : Option (ThreadId × BitVec 8)) (s : State) : Res :=
  let plot := s.plotOf c
  .next (match s.logicalOf c with
    | none => if isSpare c then (s.repairFence c).countSpares.faultRec cls.toNat 0x00 0xFF det.toNat (coreLoc c) else s
    | some l =>
      if (plot < 64 && s.fld PLOT_STAT_W0_STATE 0 plot = 2) || 4 ≤ Sparse.get 0 s.kp.fences c then s
      else
        let s1 := match chk with
          | some (t, u) =>
            let s1 := (s.suspend c t).bump CORE_CHK_ALU_ERR c 0
            (s1.setFld CORE_CHK_LAST_UNIT c 0 u.toNat).setFld CORE_CHK_STOPPED c 0 (s.fld CORE_CHK_STOPPED c 0 ||| 2 ^ t.val)
          | none => s
        match s1.nearSpare c (fun _ => true) with
        | none => s1.unplace c l cls.toNat det.toNat plot
        | some n =>
          let s2 := (s1.graftTo c l n cycles).repairFence c
          let s3 := match chk with
            | some (t, _) =>
              let s3 := s2.clearNotice n t
              (s3.setThr n t { s3.thr n t with st := .ready }).setFld CORE_CHK_STOPPED n 0 (s3.fld CORE_CHK_STOPPED n 0 - nbit (s3.fld CORE_CHK_STOPPED n 0) t * 2 ^ t.val)
            | none => s2
          (s3.graftDone c l).faultRec cls.toNat 0x04 plot det.toNat (coreLoc c))

/-- COLD_GRAFT: the core's state cannot be read: a zeroised spare, with the core Keeper code loaded anew, takes its place and its plot's context is torn down
(R619); on a core of a REBINDING plot it is deferred (R621). (DEDUCED: notes/assumptions/83.md.) -/
def execColdGraft (c : CoreId) (cls : BitVec 8) (det : BitVec 32) (s : State) : Res :=
  let plot := s.plotOf c
  .next (match s.logicalOf c with
    | none => s
    | some l => if plot < 64 && s.fld PLOT_STAT_W0_STATE 0 plot = 2 then s else match s.nearSpare c (fun _ => true) with
      | none => s.unplace c l cls.toNat det.toNat plot
      | some n =>
        let bind := s.reg .CTX_BIND c 0
        let s1 := ((((s.emptyCore c).emptyCore n).zeroCore n).setCore n { inReset := true }).loadKeeper [n]
        let s2 := (((s1.setReg .CTX_BIND n 0 bind).place_ l n).redirect c l n).repairFence c
        let s3 := s2.coreReset n
        let s4 := (s3.graftDone c l).faultRec cls.toNat 0x05 plot det.toNat (coreLoc c)
        if plot < 64 then s4.beginTeardown plot [] none 0 true else s4)

/-- ROW_COL_GRAFT: a cellar row, or a column of scratch sub-array `sub`, is copied to a spare: `words` are the code words it touches, by place in the
bank, and symbol `sym` of each is right afterwards (R622). Nothing is done where no spare is left. (DESIGN CHOICE: notes/assumptions/84.md.) -/
def execRowColGraft (c : CoreId) (sub : Option (Fin 63)) (sym : Fin 37) (words : List (Fin 65536)) (s : State) : Res :=
  let key := c.val * 64 + (match sub with | none => 63 | some i => i.val)
  let used := Sparse.get 0 s.kp.rep.rows key
  .next (if (if sub.isNone then 32 else 4) ≤ used then s
    else
      let at_ := fun (w : Fin 65536) => bankAddr c ((if sub.isNone then 0x100000 else 0) + w.val * 32)
      let s1 := words.foldl (fun s w => s.setPat (at_ w) (s.pat (at_ w) - symPat sym (patSym (s.pat (at_ w)) sym))) s
      let s2 := (s1.setRep { s1.kp.rep with rows := Sparse.set 0 s1.kp.rep.rows key (used + 1) }).bump REPAIR_SUM_ROW_COL 0 0
      s2.faultRec 0x01 (if sub.isNone then 0x02 else 0x03) (s.plotOf c) sym ((words.head?).map at_ |>.getD (coreLoc c)))

/-- ROUTER_FENCE: a failing router, or a failing output link of it, goes out of service (R630): its routes are rewritten by ROUTE_CHANGE, and its core is
grafted cold. -/
def execRouterFence (n : CoreId) (link : Option (Fin 4)) (s : State) : Res :=
  .next (match link with
    | some o =>
      (s.setFld RTR_LINKERR_DOWN n 0 (s.fld RTR_LINKERR_DOWN n 0 ||| 2 ^ o.val)).faultRec 0x07 0x06 0xFF 0 (coreLoc n)
    | none =>
      if Sparse.get 0 s.kp.fences (40000 + n) = 5 then s
      else
        let s1 := ((s.setFence (40000 + n) 5).setFence n 5).bump REPAIR_SUM_ROUTERS 0 0
        (s1.faultRec 0x07 0x06 0xFF 0 (coreLoc n)).tellManager [3, n.val])

/-! ### Block tests (R611 to R613) -/

/-- The cores of a block. -/
def blockCores (p b : Nat) : List Nat := domCores p 1 b

/-- Show the core state of a block's islands. -/
def State.markBlock (s : State) (p b v : Nat) : State :=
  (domIslands p 1 b).foldl (fun s i => s.setFld ISLAND_STATUS_CORE_STATE p i v) s

/-- Replace a test; none ends it. -/
def State.setTest (s : State) (x : BlockTest) (keep : Bool) : State :=
  let l := s.kp.rep.tests.filter (fun y => !(y.parcel = x.parcel))
  s.setRep { s.kp.rep with tests := if keep then l ++ [x] else l }

/-- A core holds threads that run (R612). -/
def State.coreBusy (s : State) (c : Nat) : Bool := (List.range 8).any (fun t => let st := (s.thr c t).st; st = .ready || st = .waiting || st = .sleeping)

/-- A test starts: cores with running threads move to free spares outside the block, where MIGRATE allows it (R612).
(DESIGN CHOICE: notes/assumptions/83.md.) -/
def State.testStart (s : State) (p b : Nat) (cmd : Option Nat) : State :=
  let run := (blockCores p b).filter (fun c => (s.logicalOf c).isSome && !(s.core c).inReset && s.coreBusy c && Sparse.get 0 s.kp.fences c = 0)
  let x : BlockTest := { parcel := p, block := b, cmd := cmd }
  let r := if s.fld TEST_CFG_MIGRATE 0 0 = 0 then (s, x) else run.foldl (fun (r : State × BlockTest) c =>
    match r.1.logicalOf c, r.1.nearSpare c (fun n => coreBlock n ≠ b) with
    | some l, some n =>
      let f := r.1.free
      (((f.2.graftTo c l n f.1).countSpares).publishHalf p (coreHalf c), { r.2 with moved := r.2.moved ++ [(c, n)] })
    | _, _ => r) (s, x)
  (r.1.markBlock p b 3).setTest r.2 true

/-- The remaining cores of a block have reached the end of their kernels: its core islands are fenced and held in Core reset,
where they receive new core Keeper code that is due (R719). -/
def State.testFence (s : State) (x : BlockTest) : Option State :=
  let rest := (blockCores x.parcel x.block).filter (fun c => (s.logicalOf c).isSome)
  if x.fenced || rest.any (fun c => s.fld KSTAT_ACTIVE c 0 = 1) then none
  else
    let s1 := (rest.foldl (fun s c => s.coreReset c) s).updateBlock (x.parcel * 81 + x.block) (blockCores x.parcel x.block)
    some ((s1.markBlock x.parcel x.block 4).setTest { x with fenced := true } true)

/-- A test ends: the islands are released and reverse grafts made; what failed is repaired (R613). (DESIGN CHOICE: notes/assumptions/85.md.) -/
def State.testEnd (s : State) (x : BlockTest) (bad routers : List Nat) : State :=
  let p := x.parcel
  let b := x.block
  let s0 := (s.setTest x false).markBlock p b 0
  let s1 := x.moved.foldl (fun s m =>
    match s.logicalOf m.2 with
    | some l =>
      if bad.contains m.1 then ((s.repairFence m.1).graftDone m.1 l)
      else
        let f := s.free
        ((f.2.graftTo m.2 l m.1 f.1).countSpares).publishHalf p (coreHalf m.1)
    | none => s) s0
  let s2 := (blockCores p b).foldl (fun s c =>
    if x.moved.any (fun m => m.1 = c) then s
    else if bad.contains c then (match s.logicalOf c, s.nearSpare c (fun _ => true) with
      | some l, some n =>
        let f := s.free
        let s1 := ((f.2.graftTo c l n f.1).repairFence c).graftDone c l
        if s1.fld CTX_BIND_BOUND n 0 = 1 then s1.coreRelease n else s1
      | some l, none => s.unplace c l 0x0F 0 (s.plotOf c)
      | none, _ => s.repairFence c)
    else if s.fld CTX_BIND_BOUND c 0 = 1 && x.fenced then s.coreRelease c else s) s1
  let s3 := routers.foldl (fun s n => (((s.setFence (40000 + n) 5).setFence n 5).bump REPAIR_SUM_ROUTERS 0 0)) s2
  let m := p * 81 + b
  let o := s3.kp.rep.overdue.filter (· ≠ m)
  let s4 := (s3.setRep { s3.kp.rep with overdue := o }).setFld TEST_STAT_OVERDUE 0 0 o.length
  let s5 := (s4.setFld TEST_STAT_LAST 0 0 m).setFld FLT_STAT_LAPSE_TEST 0 0 (if o.isEmpty then 0 else 1)
  if bad.isEmpty && routers.isEmpty then s5
  else (s5.bump TEST_STAT_FAILED 0 0).faultRec 0x0F (if routers.isEmpty then 0x04 else 0x06) 0xFF 0 (coreLoc ((bad ++ routers).headD 0))

/-- The slices measured in the drained window of a block's test are kept for that block's islands (R611, R624, R625). -/
def State.takeSlices (s : State) (x : BlockTest) (l : List (Fin 90 × Slice)) : State :=
  if !x.fenced then s
  else (l.filter (fun e => (domIslands x.parcel 1 x.block).contains e.1.val)).foldl (fun s e =>
    s.setRep { s.kp.rep with slices := Sparse.set [] s.kp.rep.slices (x.parcel * 90 + e.1.val) e.2 }) s

/-- BLOCK_TEST: what the Keeper's periodic test of a block does next (R612, R613); a test whose SELF_TEST command has ended is returned to service
here as well (R488). -/
def execBlockTest (p : Fin 8) (b : Fin 81) (step : TestStep) (s : State) : Res :=
  let mine := s.kp.rep.tests.find? (fun x => x.parcel = p.val && x.block = b.val
    && (match x.cmd with | none => true | some k => !s.cp.cmds.any (fun y => y.seq = k)))
  .next (match step, mine with
    | .start, none =>
      if s.fld TEST_CFG_EN 0 0 = 0 || s.fld STRAP_STAT_TEST_MODE 0 0 = 1 || s.kp.rep.tests.any (fun x => x.parcel = p.val) then s else s.testStart p b none
    | .fence, some x => (s.testFence x).getD s
    | .finish bad routers slices, some x => (s.takeSlices x slices).testEnd x (bad.map (·.val)) (routers.map (·.val))
    | _, _ => s)

/-- SELF_TEST: the same test on the blocks it names, one part a step; a test that runs in the parcel goes first (R478, R488, R613). -/
def execSelfTest (q : Fin 16384) (cid : BitVec 16) (step : TestStep) (s : State) : Res :=
  s.cmdStep q cid 0x42 (fun k s =>
    let p := nbits (k.word 2) 10 8
    let all := nbit (k.word 2) 16 = 1
    let ended := k.notes.length
    let b := if all then ended else nbits (k.word 2) 6 0
    let mine := s.kp.rep.tests.find? (fun x => x.parcel = p && x.cmd = some k.seq)
    match step, mine with
    | .start, none => if s.kp.rep.tests.any (fun x => x.parcel = p) then none else some (k, s.testStart p b (some k.seq))
    | .fence, some x => (s.testFence x).map (fun s => (k, s))
    | .finish bad routers slices, some x =>
      let s1 := (s.takeSlices x slices).testEnd x (bad.map (·.val)) (routers.map (·.val))
      let notes := k.notes ++ [if bad.isEmpty && routers.isEmpty then 1 else 0]
      let k1 := { k with notes := notes }
      if all && notes.length < 81 then some (k1, s1)
      else
        let pass := (notes.filter (· = 1)).length
        some ({ k1.lastStep with res0 := pass, res1 := notes.length - pass }, s1)
    | _, _ => none)

/-- BLOCK_TEST_OVERDUE: a block's last test is 60 minutes old (R612). -/
def execBlockTestOverdue (p : Fin 8) (b : Fin 81) (s : State) : Res :=
  let m := p.val * 81 + b.val
  let o := if s.kp.rep.overdue.contains m then s.kp.rep.overdue else s.kp.rep.overdue ++ [m]
  let s1 := ((s.setRep { s.kp.rep with overdue := o }).setFld TEST_STAT_OVERDUE 0 0 o.length).setFld FLT_STAT_LAPSE_TEST 0 0 1
  .next (if s.fld FLT_STAT_LAPSE_TEST 0 0 = 0 then s1.faultRec 0x11 0x0E 0xFF 0 0 else s1)

/-! ### Lanes (R623, R629) -/

/-- A lane of a direct port can move to a spare of its parcel: the image permits it and it is free (R425, R504). -/
def State.spareLane (s : State) (m spare : Nat) : Bool :=
  let p := m / 4
  s.fld PORT_CFG_MODE m 0 = 0 && s.portUp m && nbit (Sparse.get (2 ^ 18 - 1) s.kp.img.spares p) (16 + spare) = 1
    && Sparse.get 0 s.kp.rep.lanes (p * 18 + 16 + spare) = 0

/-- The Keepers of a port's two modules agree on a lane and a spare in KCTL messages (R623). -/
def State.agreeLane (s : State) (m : Nat) : State :=
  let f := s.free
  f.2.fabRun (fun s => s.fabNote (s.fld PORT_STAT_PEER_ID m 0) 0 { op := 0x48, kw := true, sup := true, len := 16, data := f.1 % 2 ^ 128 })

/-- LANE_GRAFT: lane `lane` of a port moves to a spare lane of its parcel (R623); on a routed port a failing lane takes the port DOWN. -/
def execLaneGraft (m : Fin 32) (lane : Fin 4) (spare : Fin 2) (s : State) : Res :=
  let p := m.val / 4
  let l := p * 18 + (m.val % 4) * 4 + lane.val
  .next (if s.portRouted m then (if s.portUp m then (s.portDown m).faultRec 0x08 0x00 0xFF 0 l else s)
    else if !s.spareLane m spare || s.fld LB_CTL_i_STATE 0 m = 1 then s
    else
      let s1 := (s.agreeLane m).setFld PORT_STAT_SPARE m 0 (s.fld PORT_STAT_SPARE m 0 ||| 2 ^ spare.val)
      let s2 := s1.setRep { s1.kp.rep with lanes := Sparse.set 0 s1.kp.rep.lanes (p * 18 + 16 + spare.val) (l + 1) }
      (s2.bump REPAIR_SUM_LANES 0 0).faultRec 0x08 0x07 0xFF 0 l)

/-- LANE_READAPT: a lane's eye monitor reads `height` mV and `width`; the aggregator keeps the reading, and a lane whose eye is too low is adapted again
(R624, R629): on a direct port with its traffic on a spare lane meanwhile, moved there and back by R623; on a routed port, which goes DOWN for it, only while
every port-table mask that holds the port has another port UP, and otherwise the adaptation is deferred and recorded. -/
def execLaneReadapt (m : Fin 32) (lane : Fin 4) (height width : BitVec 8) (s0 : State) : Res :=
  let l := m.val / 4 * 18 + m.val % 4 * 4 + lane.val
  let s := s0.setRep { s0.kp.rep with eyes := Sparse.set 0 s0.kp.rep.eyes l (width.toNat * 256 + height.toNat) }
  let peers := (List.range 4096).filter (fun i => nbit (s.portMask i) m = 1)
  let other := peers.all (fun i => (List.range 32).any (fun j => j ≠ m.val && nbit (s.portMask i) j = 1 && s.portUp j))
  .next (if !s.portUp m || s.fld AGE_CFG_EYE_MIN_MV 0 0 ≤ height.toNat then s
    else if !s.portRouted m then
      (if s.spareLane m 0 || s.spareLane m 1 then (s.agreeLane m).agreeLane m else s.faultRec 0x08 0x00 0xFF 0 l)
    else if other then s.portDown m
    else s.faultRec 0x08 0x00 0xFF 0 l)

/-! ### Ageing (R624 to R628) -/

/-- The islands of a half. -/
def halfIslands (p h : Nat) : List Nat := domIslands p 2 h

/-- Count the islands below their planned step. -/
def State.countSlowed (s : State) : State :=
  s.setFld AGE_STAT_SLOWED 0 0 (((List.range 720).filter (fun g =>
    let x := s.planStep (g / 90) (g % 90)
    let y := s.agedStep (g / 90) (g % 90)
    y.1 < x.1 || y.2 < x.2)).length)

/-- The highest set point, in units of 2.5 mV (R634). -/
def State.vmax (s : State) : Nat := 256 + s.fld AGE_CFG_VMAX 0 0

/-- c(i, v): the highest step at which the latest slice of an island shows at least MARGIN_PS of slack at set point v, or 0 (R626). -/
def State.safeStep (s : State) (p i v : Nat) : Nat :=
  let l := (Sparse.get [] s.kp.rep.slices (p * 90 + i)).getD (v - 240) []
  (List.range l.length).foldl (fun a k => if s.fld AGE_CFG_MARGIN_PS 0 0 ≤ (l.getD k 0).toNat then 32 + k else a) 0

/-- AGE_REPLAN: one half is planned again from the latest slice of every island in it (R626, R627); until each has one, there is nothing to plan from. -/
def execAgeReplan (p : Fin 8) (east : Bool) (s : State) : Res :=
  let h := if east then 1 else 0
  let islands := halfIslands p h
  let c := fun (v i : Nat) => s.safeStep p (islands.getD i 0) v
  let num := (List.range islands.length).zip islands
  let vmax := s.vmax
  let fits := fun (v : Nat) => num.all (fun x => let st := s.planStep p x.2; st.1 ≤ c v x.1 && st.2 ≤ c v x.1)
  let found := firstFrom fits 240 (vmax + 1 - 240)
  let v0 := found.getD vmax
  let present := s.fld HALF_RAIL_STATUS_VCORE_SET p h
  let v := max v0 (present - 4)
  let s1 := num.foldl (fun s x =>
    let st := s.planStep p x.2
    let step := fun (n : Nat) => if found.isSome then n else min n (c vmax x.1)
    s.setAged p x.2 (step st.1) (step st.2)) s
  let low := ((num.map (fun x => c v x.1)).min?).getD 0
  let s2 := (((s1.setFld HALF_RAIL_STATUS_VCORE_SET p h v).setFld HALF_RAIL_STATUS_CEIL_STEP p h low).bumpWrap AGE_STAT_REPLANS 0 0).countSlowed
  .next (if s.fld STRAP_STAT_TEST_MODE 0 0 = 1 || islands.any (fun i => !Sparse.has s.kp.rep.slices (p * 90 + i)) then s
    else (s2.planChange [(p, h)] (fun s => s.runSteps p)).faultRec 0x10 0x0F 0xFF 0 (p.val * 2 + h))

/-- AGE_ALARM: an island's monitor reports slack `ps` below half the margin (R628): the half's set point rises by 2.5 mV where VMAX and the feed limit
(`feed`) allow it, or the island slows by one step. -/
def execAgeAlarm (p : Fin 8) (isl : Fin 90) (ps : BitVec 8) (feed : Bool) (s : State) : Res :=
  let h := if isl.val % 10 < 5 then 0 else 1
  let v := s.fld HALF_RAIL_STATUS_VCORE_SET p h
  let x := s.agedStep p isl
  .next (if s.fld AGE_CFG_MARGIN_PS 0 0 / 2 ≤ ps.toNat then s
    else
      let s1 := if feed && v < s.vmax then s.setVolt p h (v + 1) (s.fld HALF_RAIL_STATUS_CEIL_STEP p h)
        else ((s.setAged p isl (max 32 (x.1 - 1)) (max 32 (x.2 - 1))).countSlowed).planChange [(p, h)] (fun s => s.runSteps p)
      (s1.bump AGE_STAT_ALARMS 0 0).faultRec 0x10 0x0A 0xFF ps.toNat (p.val * 90 + isl.val))

/-! ### Clocks, rails, stewards (R600, R631, R632) -/

/-- CLOCK_ISLAND_FAIL: a neighbour's monitor finds a core island's clock, or a router island's, failed: it is fenced (R600); a cold graft of its cores and
a fence of its routers follow. -/
def execClockIslandFail (p : Fin 8) (isl : Fin 90) (router : Bool) (s : State) : Res :=
  let s1 := s.setFld ISLAND_STATUS_CORE_STATE p isl 4
  let s2 := if router then s1.setFld ISLAND_STATUS_ROUTER_STATE p isl 4 else s1
  .next ((s2.faultRec 0x0A (if router then 0x06 else 0x05) 0xFF 0 (p.val * 90 + isl.val)).tellManager [4, p.val * 90 + isl.val])

/-- RAIL_FAULT: a rail of a half is out of its window: the half is gated, losing its SRAM, and the plots in it are torn down (R38, R600).
(DESIGN CHOICE: notes/assumptions/85.md.) -/
def execRailFault (p : Fin 8) (east : Bool) (s : State) : Res :=
  let h := if east then 1 else 0
  let plots := (List.range 64).filter (fun n => (s.boundCores n).any (fun c => coreP c = p.val && coreHalf c = h))
  let s1 := (s.setFld HALF_RAIL_STATUS_STATE p h 2).zeroHalf p h
  let s2 := plots.foldl (fun s n => s.beginTeardown n [] none 0 true) s1
  .next (if s.gated p h then s else (s2.faultRec 0x0B 0x0B (plots.headD 0xFF) 0 (p.val * 2 + h)).tellManager [5, p.val * 2 + h])

/-- PHASE_FAILURE: a failed phase of a rail is switched out; a rail that has lost two has no spare (R632). -/
def execPhaseFailure (rail : Fin 16) (s : State) : Res :=
  let n := Sparse.get 0 s.kp.rep.phases rail + 1
  let s1 := (s.setRep { s.kp.rep with phases := Sparse.set 0 s.kp.rep.phases rail n }).bump REPAIR_SUM_PHASES 0 0
  let s2 := s1.faultRec 0x0C (if 2 ≤ n then 0x11 else 0x00) 0xFF 0 rail
  .next (if 2 ≤ n then s2.tellManager [6] else s2)

/-- STEWARD_MISMATCH: the active pair stops and the standby pair resumes from the last checkpoint; the only pair has none (R631). During
an activation the pair that takes over runs the old code (R721). -/
def execStewardMismatch (s0 : State) : Res :=
  let s := if s0.fld FW_STAT_UPD_STATE 0 0 = 4 then s0.fwRevert else s0
  .next (if 2 ≤ s.kp.rep.stewards then
      ((s.setRep { s.kp.rep with stewards := s.kp.rep.stewards - 1 }).bump REPAIR_SUM_STEWARD 0 0).faultRec 0x0D 0x0C 0xFF 0 0
    else
      ((s.setFld FLT_STAT_LAPSE_KEEPER 0 0 1).faultRec 0x0D 0x11 0xFF 0 0).tellManager [6])

/-- RING_STOP_FAIL: a failed stop of the management ring is bypassed, and the ring closes as a chain (R23). (DESIGN CHOICE: notes/assumptions/84.md.) -/
def execRingStopFail (p : Fin 8) (s : State) : Res :=
  .next (if s.kp.rep.ring.contains p.val then s else s.setRep { s.kp.rep with ring := s.kp.rep.ring ++ [p.val] })

end Sys2Proof.Machine
end

