-- ==== Sys2Proof/Machine/Hang.lean ====
section
/-!
DEFINITION. Hang detection, replays and verdicts, and crash dumps (R583, R650 to R662).
(DESIGN CHOICE: notes/assumptions/41.md.)
-/
namespace Sys2Proof.Machine

/-! ### Detection -/

/-- The plot is never taken for hung: it is REBINDING, or its teardown has not completed (R651). -/
def State.hangExempt (s : State) (n : Nat) : Bool := s.fld PLOT_STAT_W0_STATE 0 n = 2 || s.kp.tds.any (fun t => t.plot = n)

/-- The domain that core c is reset with. -/
def coreDom (c : Nat) : Nat × Nat × Nat := (coreP c, 0, c % 1296)

/-- One domain lies in another, or is it (R635). -/
def domIn (a b : Nat × Nat × Nat) : Bool :=
  a = b || (a.1 = b.1 && (b.2.1 = 3
    || (a.2.1 ≤ 2 && b.2.1 ≤ 2 && a.2.1 < b.2.1 && (domCores a.1 a.2.1 a.2.2).all (fun c => (domCores b.1 b.2.1 b.2.2).contains c))))

/-- The replay that runs has hung again (R653): its plot is held, and the domain is reset without a further dump. -/
def State.hangAgain (s : State) (n : Nat) (x : HangRec) : State :=
  let s1 := s.holdPlot n
  let h := s1.kp.hang
  ((s1.setHang { h with phase := .resetting, replay := none, again := h.again ++ [n], todo := x.doms }).setFld HANG_STAT_STATE 0 0 2).hangResets

/-- A condition of R650 is met: a recovery begins, a replay has hung again, or the hang waits for the recovery in progress (R652, R657). A plot of R651
is no suspect, and no hang is one of its own.
(DESIGN CHOICE: notes/assumptions/40.md.) -/
def State.hangFound (s : State) (x : HangRec) : State :=
  let h := s.kp.hang
  let plot : Bool := x.kind ≤ 3 && !x.suspects.isEmpty
  let x := { x with suspects := x.suspects.filter (fun n => !s.hangExempt n) }
  if s.fld HANG_CFG_EN 0 0 = 0 || s.kp.modReset ≠ 0 || x.doms.isEmpty || (plot && x.suspects.isEmpty)
      || x.doms.any (fun d => (domCores d.1 d.2.1 d.2.2).any (fun c => s.gated d.1 (coreHalf c))) then s
  else if h.phase = .idle then s.hangStart x
  else match h.replay with
    | some n =>
      if (x.kind = h.cur.kind && x.loc = h.cur.loc) || x.suspects = [n] then s.hangAgain n x
      else s.setHang { h with next := h.next ++ [x] }
    | none =>
      if x.doms.all (fun d => h.cur.doms.any (fun e => domIn d e)) then s else s.setHang { h with next := h.next ++ [x] }

/-- The plots of a list in ascending order, those bound only. -/
def State.asSuspects (s : State) (l : List Nat) : List Nat := (List.range 64).filter (fun n => l.contains n && s.fld PLOT_STAT_W0_STATE 0 n ≠ 0)

/-- The plots of a list of cores. -/
def State.plotsOf (s : State) (l : List Nat) : List Nat := l.filterMap (fun c => if s.fld CTX_BIND_BOUND c 0 = 1 then some (s.fld CTX_BIND_PLOT c 0) else none)

/-- A plot is in stalemate (R650): a thread of a running kernel of it is SLEEPING, every other thread of its cores is SLEEPING, STOPPED or
SUSPENDED, no channel of it runs or waits, and no command of it is admitted but LAUNCHes past their start steps. -/
def State.plotStalled (s : State) (n : Nat) : Bool :=
  let cores := s.boundCores n
  cores.any (fun c => (List.range 8).any (fun t => nbit (s.fld KSTAT_RUN c 0) t = 1 && (s.thr c t).st = .sleeping))
    && cores.all (fun c => (List.range 8).all (fun t => let st := (s.thr c t).st; st = .sleeping || st = .stopped || st = .suspended))
    && (s.plotDmas n).all (fun u => s.dmaState u ≠ 1 && s.dmaState u ≠ 2)
    && s.cp.cmds.all (fun k => k.plot ≠ n || k.phase = .atFetch || k.phase = .waiting || (k.phase = .launched && k.opc = 0x10))

/-- HANG_DETECT: a condition of R650 has held for `us` µs. (DESIGN CHOICE: notes/assumptions/40.md.) -/
def execHangDetect (e : HangEngine) (us : Nat) (s : State) : Res :=
  let nats := fun (l : List (Fin 64)) => l.map (fun n => n.val)
  let found := fun (kind loc : Nat) (doms : List (Nat × Nat × Nat)) (sus : List Nat) => s.hangFound ⟨kind, loc, doms, s.asSuspects sus, s.timeSec⟩
  .next (match e with
    | .core c => found 1 (coreLoc c) [coreDom c] (s.plotsOf [c.val])
    | .plot n outside =>
      let asleep := (s.boundCores n).filter (fun c => (List.range 8).any (fun t => (s.thr c t).st = .sleeping))
      if outside || us < s.fld HANG_CFG_STALL_MS 0 0 * 1000 || !s.plotStalled n then s
      else found 2 (coreLoc (asleep.headD 0)) (asleep.map coreDom) [n.val]
    | .router n l =>
      let b := coreBlock n
      if us < s.fld HANG_CFG_ROUTER_WAIT 0 0 * 10 then s
      else found 4 (coreLoc n) [(coreP n, 1, b)] (s.plotsOf (domCores (coreP n) 1 b) ++ nats l)
    | .stack p l => if us < s.fld HANG_CFG_HBM_WAIT 0 0 * 10 then s else found 5 (hbmAddr p 0) [(p.val, 5, 0)] (nats l)
    | .port m l =>
      if us < s.fld HANG_CFG_PORT_MS 0 0 * 1000 || s.fld PORT_STAT_STATE m 0 ≠ 3 then s
      else found 6 m.val [(m.val / 4, 4, m.val % 4)] ((nats l).filter (fun n => nbit (s.fld PORT_PLOTS_PLOTS m 0) n = 1)))

/-- SERVING_STEP_TIMEOUT: a step kernel has run for `ms` ms, past STEP_TO: a hang of the plot, with the step as the command boundary (R583). -/
def execServingStepTimeout (plot : Fin 64) (slot : Fin 8) (ms : Nat) (s : State) : Res :=
  .next (match s.srvModel plot.val slot.val with
    | none => s
    | some m => match m.step with
      | none => s
      | some st =>
        let cores := s.srvCores m
        if st.again || (!st.here && st.members.isEmpty) || ms < m.d 43 1 then s
        else s.hangFound ⟨3, coreLoc (cores.headD 0), cores.map coreDom, s.asSuspects [plot.val], s.timeSec⟩)

/-! ### Replays and verdicts -/

/-- More than one replay hung: the engine is faulty and is fenced for repair (R642, R654). -/
def State.fenceEngine (s : State) (x : HangRec) : State :=
  match x.kind with
  | 4 =>
    let n := x.loc / 0x400000
    (((s.setFence (40000 + n) 5).setFence n 5).bump REPAIR_SUM_ROUTERS 0 0).tellManager [3, n]
  | 5 => x.doms.foldl (fun s d => s.setFld HBM_STAT_STATE d.1 0 4) s
  | 6 => s.setFence (20000 + x.loc) 5
  | _ => x.doms.foldl (fun s d => (domCores d.1 d.2.1 d.2.2).foldl (fun s c => s.repairFence c) s) s

/-- Step 7 (R654, R655): the verdicts; a guilty context is torn down, and step 8 follows. -/
def State.hangVerdict (s : State) : State :=
  let h := s.kp.hang
  let x := h.cur
  let guilty := match h.again with | [g] => some g | _ => none
  let s1 := x.suspects.foldl (fun s n =>
    s.setFld HANG_PLOT_n_VERDICT 0 n (if s.fld HANG_PLOT_n_REPLAY 0 n = 0 then 3 else if guilty = some n then 2 else 1)) (s.setFld HANG_STAT_STATE 0 0 4)
  let s2 := s1.setHang { s1.kp.hang with phase := .resuming, guilty := guilty }
  match guilty with
  | some g =>
    let mine := (s2.cp.cmds.filter (fun k => k.plot = g && s2.fld QP_BIND_KEEPER k.q 0 = 0 && k.phase ≠ .atFetch && k.phase ≠ .waiting)).map (·.seq)
    (s2.bumpWrap HANG_STAT_GUILTY 0 0).beginTeardown g mine none 2 true
  | none => (if 2 ≤ h.again.length then s2.fenceEngine x else s2).hangFinish

/-- HANG_REPLAY: once the domain is released, the next suspect in ascending order is replayed alone (R653); with none to replay, the verdicts
follow. -/
def execHangReplay (s : State) : Res :=
  let h := s.kp.hang
  .next (if h.phase ≠ .resetting || !h.todo.isEmpty || !h.busy.isEmpty then s
    else match h.left with
      | [] => s.hangVerdict
      | n :: r =>
        let s1 := s.resumePlot n
        let h1 := s1.kp.hang
        let cut := h1.cut.filter (fun q => !(s.cp.cmds.any (fun k => k.seq = q && k.plot = n)))
        ((s1.setHang { h1 with phase := .replaying, replay := some n, left := r, cut := cut }).setFld HANG_STAT_STATE 0 0 3).setFld HANG_STAT_REPLAY_PLOT 0 0 n)

/-- HANG_REPLAY_END: the suspect has no command in progress, or the replay has lasted `ms` ms, REPLAY_MS at least (R653). -/
def execHangReplayEnd (ms : Nat) (s : State) : Res :=
  let h := s.kp.hang
  .next (match h.replay with
    | none => s
    | some n =>
      let busy := s.cp.cmds.any (fun k => k.plot = n && (k.inProgress || k.phase = .launched)) || !s.srvBetween n
      if busy && ms < s.fld HANG_CFG_REPLAY_MS 0 0 then s
      else
        let s1 := s.holdPlot n
        let s2 := s1.setHang { s1.kp.hang with phase := .resetting, replay := none }
        if h.left.isEmpty then s2.hangVerdict else s2)

/-! ### Crash dump (R658 to R662) -/

/-- The registers of a block's unit, each in its own width, in the order of the block. -/
def State.blockBytes (s : State) (b : Block) (u : Nat) (idx : RegName → List Nat) : List Nat :=
  b.regs.flatMap (fun r => (idx r).flatMap (fun i => leBytes (r.readable (s.reg r u i)).toNat (r.desc.width / 8)))

/-- Every index of a register. -/
def allIdx (r : RegName) : List Nat := List.range r.desc.cnt

/-- A core's state registers, thread by thread where each thread has its own (R137). -/
def State.sregBytes (s : State) (c : Nat) : List Nat :=
  s.blockBytes .cst c allIdx ++ (List.range 8).flatMap (fun t => s.blockBytes .thr c (fun r => (allIdx r).map (fun i => t * 32 + i)))

/-- A thread's scalars, vectors, predicates as one byte, loop counters and mailboxes. -/
def Thread.dump (h : Thread) : List Nat :=
  (List.range 32).flatMap (fun i => leBytes (Sparse.get (0 : Word) h.x i).toNat 8)
    ++ (List.range 16).flatMap (fun i => leBytes (Sparse.get (0 : Vec) h.v i).toNat 64) ++ [h.p.toNat]
    ++ (List.range 4).flatMap (fun i => leBytes (Sparse.get 0 h.lc i) 4)
    ++ (List.range 4).flatMap (fun i => leBytes (h.mbox i).val.toNat 8)

/-- An accumulator tile's image (R195). -/
def Accum.dump (a : Accum) : List Nat :=
  match a.typ with
  | 1 => (List.range 256).flatMap (fun i => leBytes (Sparse.get 0 a.el i) 16) ++ leBytes a.inv.toNat 32
  | 2 => (List.range 256).flatMap (fun i => leBytes (Sparse.get 0 a.el i) 4)
  | _ => []

/-- The tile file and the accumulator images (R660). -/
def Core.dumpTiles (k : Core) : List Nat :=
  (List.range 8).flatMap (fun n => let t := k.tile n; t.rows.flatMap (fun e => leBytes e.2.data.toNat 64 ++ leBytes e.2.scale.toNat 4))
    ++ (List.range 4).flatMap (fun n => (k.acc n).dump)

/-- The body of a unit's record (R662). A core's is cut at the 12 KiB that R660 gives it, its tiles at 36 KiB. (DESIGN CHOICE: notes/assumptions/42.md.) -/
def State.dumpBody (s : State) (u : DumpUnit) : List Nat :=
  let n := u.num
  match u.kind.val with
  | 1 =>
    let k := s.core n
    let base := s.sregBytes n ++ s.blockBytes .core n allIdx ++ (List.range 8).flatMap (fun t => (s.thr n t).dump)
    base.take 12272 ++ (if s.fld DUMP_CFG_TILES 0 0 = 1 then k.dumpTiles.take 36864 else [])
  | 2 => s.blockBytes .router n allIdx
  | 3 => s.blockBytes .dma n (fun r => if r = .DMAC_GO then [] else allIdx r)
  | 4 => s.blockBytes .hbm n (fun r => if r = .HBM_ERR_q then [] else allIdx r)
  | 5 => leBytes (s.reg .HBM_ERR_q (n / 32) (n % 32)).toNat 8
  | 6 => s.blockBytes .port n allIdx
  | 7 => s.blockBytes .parcel n allIdx
  | 8 => s.blockBytes .queue n allIdx
  | _ => []

/-- LOC of a unit (R606, R662): the window of a core, the registers of a router, channel, stack, parcel or queue, the number of a port. -/
def dumpLoc (u : DumpUnit) : Nat :=
  let n := u.num
  match u.kind.val with
  | 1 => coreLoc n
  | 2 => 0x20000100000 + n / 1296 * 0x1000000 + n % 1296 * 0x100
  | 3 => 0x20010000000 + n / 32 * 0x100000 + n % 32 * 0x8000
  | 4 => 0x20040000000 + n * 0x100000
  | 5 => 0x20040000000 + n / 32 * 0x100000
  | 6 => n
  | 7 => 0x20000000000 + n * 0x1000000
  | 8 => 0x20020000000 + n * 0x1000
  | _ => 0

/-- The units of a domain (R635, R660). (DESIGN CHOICE: notes/assumptions/42.md.) -/
def domUnits (d : Nat × Nat × Nat) : List DumpUnit :=
  let p := d.1
  let cores := domCores p d.2.1 d.2.2
  let routers := if d.2.1 = 0 then [] else cores
  let stack : List DumpUnit := if domStack d.2.1 then ⟨4, p⟩ :: (List.range 32).map (fun q => ⟨5, p * 32 + q⟩) else []
  let rest : List DumpUnit := if d.2.1 = 3 then (List.range 32).map (fun c => ⟨3, p * 32 + c⟩) else []
  let ctl : List DumpUnit := if d.2.1 = 3 then [⟨7, p⟩] else []
  cores.map (fun c => ⟨1, c⟩) ++ routers.map (fun c => ⟨2, c⟩) ++ rest ++ stack ++ (domPorts p d.2.1 d.2.2).map (fun m => ⟨6, m⟩) ++ ctl

/-- The units that a dump covers (R660): those of a hang's domains, with every core of the suspects where SCOPE is 1. The units of another dump are
given by its command. -/
def State.dumpUnits (s : State) (d : DumpReq) (given : List DumpUnit) : List DumpUnit :=
  let base := d.doms.flatMap domUnits
  let more : List DumpUnit := if s.fld DUMP_CFG_SCOPE 0 0 = 1 then d.plots.flatMap (fun n => (s.boundCores n).map (fun c => (⟨1, c⟩ : DumpUnit))) else []
  if d.reason = 1 then base ++ more.filter (fun u => !base.contains u) else given.filter (fun u => u.kind ≠ 0)

/-- A record: its 16-byte header, with STATE, and its body. (DESIGN CHOICE: notes/assumptions/42.md.) -/
def dumpRecord (u : DumpUnit) (state : Nat) (body : List Nat) : List Nat :=
  leBytes (u.kind.val <<< 56 + state <<< 48 + dumpLoc u) 8 ++ leBytes body.length 8 ++ body

/-- The records of a dump within `room` bytes, the count of silent units, and whether one was truncated. (DESIGN CHOICE: notes/assumptions/42.md.) -/
def State.dumpRecords (s : State) (room : Nat) : List DumpUnit → List Nat × Nat × Bool
  | [] => ([], 0, false)
  | u :: r =>
    let hush := s.kp.hang.silent.find? (fun x => x.1 = u)
    let all := s.dumpBody u
    let x := match hush with
      | some (_, 0) => (1, [])
      | some (_, n) => (2, all.take n)
      | none => (0, all)
    let fits := 16 + x.2.length ≤ room
    let b := if fits then dumpRecord u x.1 x.2 else dumpRecord u 3 []
    let t := s.dumpRecords (room - b.length) r
    (b ++ t.1, (if x.1 = 1 then 1 else 0) + t.2.1, !fits || t.2.2)

/-- The dump area's stack, or that stack's parcel, is involved in the trigger (R661). -/
def State.dumpAreaHit (s : State) (d : DumpReq) (units : List DumpUnit) : Bool :=
  let p := s.fld DUMP_CFG_STACK 0 0
  d.doms.any (fun x => x.1 = p && (x.2.1 = 3 || x.2.1 = 5)) || (d.reason ≠ 1 && units.any (fun u => (u.kind = 4 || u.kind = 7) && u.num = p))

/-- CRASH_DUMP: the running dump reads its units over the side path and is written (R658 to R662); `units` are those of a dump that no hang began,
`fails` says that the chosen path fails, so that Rootstock's buffer holds the dump. A hang's recovery goes on with step 4. -/
def execCrashDump (units : List DumpUnit) (fails : Bool) (s : State) : Res :=
  .next (match s.kp.hang.dumps with
    | [] => s
    | d :: rest =>
      let l := s.dumpUnits d units
      let p := s.fld DUMP_CFG_STACK 0 0
      let nvme := s.fld DUMP_CFG_DEST 0 0 = 1 || s.dumpAreaHit d l || s.fld HBM_STAT_STATE p 0 ≠ 0
      let area := if fails then 8 * 2 ^ 20 else s.fld DUMP_CFG_PAGES 0 0 * 2 ^ 21
      let r := s.dumpRecords (area - 64) l
      let len := 64 + r.1.length
      let head := leBytes 0x504D5544 4 ++ leBytes 1 2 ++ [d.reason, 0] ++ leBytes d.id 4 ++ s.timeBytes ++ leBytes l.length 4
        ++ leBytes r.2.1 4 ++ leBytes len 8 ++ List.replicate 24 0
      let all := head ++ r.1
      let lba := s.fld DUMP_NVME_LBA 0 0
      let h := s.kp.hang
      let s1 := if fails then s.setHang { h with buffer := all }
        else if nvme then (s.nvmeCmd 1 lba all.length (ofLe all)).2
        else (List.range (all.length / 2 ^ 21 + 1)).foldl (fun s i =>
          s.writeBytes (hbmAddr p (s.hbmOff p ((s.fld DUMP_CFG_PAGE 0 0 + i) * 2 ^ 21))) ((all.drop (i * 2 ^ 21)).take (2 ^ 21))) s
      let s2 := (((s1.setFld DUMP_STAT_WHERE 0 0 (if nvme then 1 else 0)).setFld DUMP_STAT_HELD 0 0 (if fails then 1 else 0)).setFld DUMP_STAT_NORESP 0 0
        r.2.1).setFld DUMP_STAT_BYTES 0 0 len
      let s3 := s2.setFld DUMP_STAT_STATE 0 0 (if !rest.isEmpty then 1 else if r.2.2 then 3 else 2)
      let s4 := (s3.setHang { s3.kp.hang with dumps := rest, silent := [] }).dumpBegun
      if d.reason = 1 && h.phase = .dumping then s4.hangHold else s4)

/-- SIDE_PATH_TIMEOUT: a read of a unit has had no answer for 10 µs, after `n` bytes: NO_RESPONSE, or PARTIAL after some reads (R659). -/
def execSidePathTimeout (u : DumpUnit) (n : Nat) (s : State) : Res :=
  let h := s.kp.hang
  .next (if h.dumps.isEmpty || h.silent.any (fun x => x.1 = u) then s else s.setHang { h with silent := h.silent ++ [(u, n)] })

/-- DUMP_CTL_GO: a write of DUMP_CTL by the Keeper (R658, R667). -/
def execDumpCtlGo (ag : Agent) (v : BitVec 32) (s : State) : Res :=
  .next (if !ag.keeper then s.reply 0 0x0402 0
    else (if v.toNat % 2 = 1 then s.askDump { reason := 4, id := s.fld HANG_STAT_HANG_ID 0 0 } else s).reply 0 0 0)

end Sys2Proof.Machine
end

