-- ==== Sys2Proof/Machine/Rack.lean ====
section
/-!
DEFINITION. Racking: RACK and RESTORE, the NVMe device, and what Keepers of other modules ask (R668 to R687). AELX_KCTL stands here, since the
messages of partners and holders come by it.
(DESIGN CHOICE: notes/assumptions/43.md.)
-/
namespace Sys2Proof.Machine

/-! ### Jobs -/

/-- The job of a command. -/
def State.rackJob (s : State) (k : Cmd) : Option RackJob := s.kp.rack.jobs.find? (fun j => j.cmd = k.seq)

/-- Replace a job. -/
def State.putJob (s : State) (j : RackJob) : State :=
  s.setRack { s.kp.rack with jobs := s.kp.rack.jobs.map (fun x => if x.cmd = j.cmd then j else x) }

/-- One step of a RACK or RESTORE: `f` does its work; the step waits while NVMe commands of it are not completed. -/
def State.rackStep (s : State) (q : Fin 16384) (cid : BitVec 16) (opc : Nat) (f : Cmd → RackJob → State → Option (Cmd × State)) : Res :=
  .next (match s.cmdAt q.val cid.toNat (fun k => k.phase = .granted && k.opc = opc) with
    | none => s
    | some k => match s.rackJob k with
      | none => s
      | some j =>
        if !j.nvme.isEmpty then s
        else match f k j s with
          | none => s
          | some (k1, s1) =>
            let waits := (s1.rackJob k).any (fun x => !x.nvme.isEmpty)
            s1.setCmd (if k1.phase = .granted && !waits then { k1 with phase := .worked } else k1))

/-- Issue a command to the NVMe device for a job's step. -/
def State.jobNvme (s : State) (j : RackJob) (op lba n v : Nat) : RackJob × State :=
  let r := s.nvmeCmd op lba n v
  ({ j with nvme := j.nvme ++ [r.1] }, r.2)

/-- Round up to 4 KiB. -/
def up4k (n : Nat) : Nat := (n + 4095) / 4096 * 4096

/-- Pieces of at most 16 MiB of n bytes at an address, at an offset of the record (R677). -/
def rackPieces (a off n : Nat) : List (Nat × Nat × Nat) :=
  (List.range ((n + 2 ^ 24 - 1) / 2 ^ 24)).map (fun (i : Nat) => ((addOff (BitVec.ofNat 64 a) ((i * 2 ^ 24 : Nat) : Int)).toNat, off + i * 2 ^ 24, min (2 ^ 24) (n - i * 2 ^ 24)))

/-- Regions as (address, REGION_ID, LEN64) laid out in a record: the pieces, the directory and the record's length (R668). -/
def rackLayout (off : Nat) : List (Nat × Nat × Nat) → List (Nat × Nat × Nat) × List Nat × Nat
  | [] => ([], [], off)
  | (a, id, len) :: r =>
    let at_ := up4k off
    let x := rackLayout (at_ + 64 * len) r
    (rackPieces a at_ (64 * len) ++ x.1, leBytes (id <<< 32 + len) 8 ++ leBytes at_ 8 ++ x.2.1, x.2.2)

/-- An address in the staging area. -/
def Cmd.stage (k : Cmd) (off : Nat) : Word := addOff (BitVec.ofNat 64 (k.word 6)) off

/-- Who a RACK or RESTORE accesses the plot's memory as. -/
def State.rackWho (s : State) (k : Cmd) : Who := s.qWho k.q

/-! ### RACK (R676 to R679) -/

/-- Begin the capture: the table of regions is read, FLAG is made EMPTY, and the staging record is unsealed. An entry that R676 does not allow is an
invalid command with detail 5. -/
def State.rackBegin (s : State) (k : Cmd) (j : RackJob) (status far : Nat) : Option (Cmd × State) :=
  let n := nbits (k.word 3) 15 0
  if s.fld PLOT_STAT_W0_STATE 0 k.plot = 2 then some ({ k with code := 0x0603 }, s)
  else
    let f := s.flagOp (s.rackWho k) (BitVec.ofNat 64 (k.word 5)) 4 0 false 0 0x0402
    if f.1 = viaHold then none
    else if f.1 ≠ 0 then some ({ k with code := f.1 }, f.2)
    else cmdGo k (f.2.cmdRead k 2 (k.addr 2 0) (16 * n) status far) (fun v s =>
      let l := (List.range n).map (fun i => (wordAt v (2 * i), nbits (wordAt v (2 * i + 1)) 63 32, nbits (wordAt v (2 * i + 1)) 31 0))
      let ids := l.map (·.2.1)
      let off := fun (a : Nat) => a % 2 ^ 48
      if l.any (fun e => e.1 % 64 ≠ 0 || !(inLogicalWindow (off e.1) || inHbmWindow (off e.1)) || e.2.2 = 0) || ids.eraseDups.length ≠ n then some ({ k with code := 0x0105, res0 := 5 }, s)
      else cmdGo k (s.writeVia (s.rackWho k) (k.stage 6) 1 0 0x0402) (fun _ s =>
        let x := rackLayout (512 + 16 * n) l
        some (k, s.putJob { j with phase := 1, pieces := x.1, head := x.2.1, bytes := x.2.2 })))

/-- The header of a record (R668). -/
def State.rackHeader (s : State) (k : Cmd) (j : RackJob) (flags : Nat) (time body : List Nat) : List Nat :=
  let image := (List.range 6).flatMap (fun i => leBytes (s.reg .IMG_DIGEST_i 0 i).toNat 8)
  let front := leBytes 0x4B434152 4 ++ leBytes 1 2 ++ [flags, k.plot] ++ leBytes (s.fld MODULE_ID_ID 0 0) 2 ++ leBytes 0 2
    ++ leBytes (s.fld PLOT_STAT_W0_OWNER 0 k.plot) 4 ++ leBytes j.gen 4 ++ leBytes (nbits (k.word 3) 63 32) 4 ++ leBytes (k.word 4) 8
    ++ leBytes (nbits (k.word 3) 15 0) 4 ++ leBytes 0 4 ++ leBytes j.bytes 8 ++ time ++ leBytes 0 4
  front ++ image ++ body ++ List.replicate 352 0

/-- The registered partner takes this plot's records (R670, R677). -/
def State.tier1Ok (s : State) (j : RackJob) : Bool :=
  s.fld RACK_PARTNER_STATE 0 0 = 2 && bitsOf j.cfg 5 0 = j.plot && j.bytes ≤ 12 * 2 ^ 30

/-- 4 KiB blocks of a tier-2 slot. -/
def RackJob.slotBlocks (j : RackJob) : Nat := bitsOf j.area 63 40 / bitsOf j.cfg 8 6

/-- The NVMe device takes this record (R670, R677). -/
def State.tier2Ok (s : State) (j : RackJob) : Bool :=
  s.fld RACK_STAT_NVME_OK 0 0 = 1 && bitsOf j.area 63 40 ≠ 0 && j.bytes ≤ bitsOf j.area 63 40 * 4096 / bitsOf j.cfg 8 6

/-- The last capture piece is written: the directory and header follow with SEALED 0, FLAG is filled with 1 at `now` µs, and the tiers named that can
take the record are to be drained to. -/
def State.rackCaptured (s : State) (k : Cmd) (j : RackJob) (now : Nat) : Option (Cmd × State) :=
  let w := s.rackWho k
  cmdGo k (s.writeVia w (k.stage 512) j.head.length (ofLe j.head) 0x0402) (fun _ s =>
    cmdGo k (s.readVia w (k.stage 512) (j.bytes - 512) 0x0402 0) (fun v s =>
      let gen := (Sparse.get 0 s.kp.rack.gens k.plot + 1) % 2 ^ 32
      let body := sha384 (leBytes v (j.bytes - 512))
      let j1 := { j with gen := gen, phase := 2 }
      let head := s.rackHeader k j1 0 s.timeBytes body
      cmdGo k (s.writeVia w (k.stage 0) 512 (ofLe head) 0x0402) (fun _ s =>
        let f := s.flagOp w (BitVec.ofNat 64 (k.word 5)) 3 1 true 2 0x0402
        if f.1 = viaHold then none
        else if f.1 ≠ 0 then some ({ k with code := f.1 }, f.2)
        else
          let x := f.2.kp.rack
          let us := now - k.fetched
          let caps := (Sparse.get [] x.caps k.plot ++ [us])
          let s1 := f.2.setRack { x with gens := Sparse.set 0 x.gens k.plot gen, caps := Sparse.set [] x.caps k.plot (caps.drop (caps.length - 8)) }
          let slot1 := Sparse.get 0 x.next1 k.plot
          let slot2 := x.next2 % bitsOf j.cfg 8 6
          let j2 := { j1 with
            head := head ++ j.head
            t1 := if nbit (k.word 7) 0 = 1 && s1.tier1Ok j1 then some 0 else none
            t2 := if nbit (k.word 7) 1 = 1 && s1.tier2Ok j1 then some 0 else none
            slot1 := slot1
            slot2 := slot2 }
          let s2 := s1.setRack { s1.kp.rack with
            next1 := if j2.t1.isSome then Sparse.set 0 x.next1 k.plot (1 - slot1) else x.next1
            next2 := if j2.t2.isSome then slot2 + 1 else x.next2 }
          some ({ k with notes := [us] }, (s2.setFld RACK_PLOT_W0_C_US 0 k.plot (s2.rackMean k.plot)).putJob j2))))

/-- Where byte `off` of the record lies in a slot of the partner's reserve (R671). -/
def reserveAddr (slot off : Nat) : Nat := hbmAddr (4 * slot + off / (3 * 2 ^ 30)) (14952 * 2 ^ 21 + off % (3 * 2 ^ 30))

/-- Where it lies in this module's reserve (R671, R415). -/
def State.reserveAt (s : State) (slot off : Nat) : Nat :=
  let p := 4 * slot + off / (3 * 2 ^ 30)
  hbmAddr p (s.hbmOff p (14952 * 2 ^ 21 + off % (3 * 2 ^ 30)))

/-- A write of the Keeper to the partner. -/
def State.partnerWrite (s : State) (k : Cmd) (j : RackJob) (off n v status : Nat) : Nat × State :=
  let a : Word := BitVec.ofNat 64 ((s.fld RACK_PARTNER_PARTNER 0 0) <<< 48 + reserveAddr j.slot1 off)
  let s1 := s.send .request [2 ^ 21, 1, 1, a.toNat, n, v, 1, k.plot, 0]
  (if status ≤ 1 then 0 else status, s1)

/-- The part of the staging record at `off`, as a tier's copy holds it: byte 6 has FLAGS with SEALED 0. -/
def tierBytes (v off flags : Nat) : Nat := if off = 0 then v - (v / 2 ^ 48 % 256) <<< 48 + flags <<< 48 else v

/-- FLAGS of the records that go to tier 1 (R675). -/
def State.riskFlag (s : State) : Nat := s.fld RACK_PARTNER_AT_RISK 0 0 * 2

/-- One drain or seal step of tier 1, the step of number `i`: first the slot's old record is unsealed; then 1 MiB a step, byte 0's piece last; then the
seal (R669, R677). -/
def State.drain1 (s : State) (k : Cmd) (j : RackJob) (i status : Nat) : Option (Cmd × State) :=
  let m := 2 ^ 20
  let pieces := (j.bytes + m - 1) / m
  let fail := fun (s : State) => some (k, s.putJob { j with t1 := none })
  if !s.tier1Ok j then fail s
  else if i = 0 then
    let r := s.partnerWrite k j 6 1 0 status
    if r.1 ≠ 0 then fail r.2 else some (k, r.2.putJob { j with t1 := some 1 })
  else if pieces < i then
    let r := s.partnerWrite k j 6 1 (s.riskFlag + 1) status
    if r.1 ≠ 0 then fail r.2 else some (k, r.2.putJob { j with t1 := none, sealed := j.sealed ||| 1 })
  else
    let at_ := i % pieces * m
    let n := min m (j.bytes - at_)
    cmdGo k (s.readVia (s.rackWho k) (k.stage at_) n 0x0402 0) (fun v s =>
      let r := s.partnerWrite k j at_ n (tierBytes v at_ s.riskFlag) status
      if r.1 ≠ 0 then fail r.2 else some (k, r.2.putJob { j with t1 := some (i + 1) }))

/-- One drain or seal step of tier 2, the step of number `i`: the slot's old record is unsealed, then 256 KiB a step; Flush comes before the SEALED write
and after it (R669, R672). -/
def State.drain2 (s : State) (k : Cmd) (j : RackJob) (i : Nat) : Option (Cmd × State) :=
  let m := 2 ^ 18
  let pieces := (j.bytes + m - 1) / m
  let lba := bitsOf j.area 39 0 + j.slot2 * j.slotBlocks
  let first := (j.head.take 4096) ++ List.replicate (4096 - j.head.length) 0
  if !s.tier2Ok j then some (k, s.putJob { j with t2 := none })
  else if i = 0 then
    let a := s.jobNvme j 1 lba 4096 (tierBytes (ofLe first) 0 0)
    some (k, a.2.putJob { a.1 with t2 := some 1 })
  else if pieces < i then
    cmdGo k (s.readVia (s.rackWho k) (k.stage 0) (min 4096 j.bytes) 0x0402 0) (fun v s =>
      let a := s.jobNvme j 3 0 0 0
      let b := a.2.jobNvme a.1 1 lba 4096 (tierBytes v 0 1)
      let c := b.2.jobNvme b.1 3 0 0 0
      some (k, c.2.putJob { c.1 with t2 := none, sealed := j.sealed ||| 2 }))
  else
    let at_ := i % pieces * m
    let n := min m (j.bytes - at_)
    cmdGo k (s.readVia (s.rackWho k) (k.stage at_) n 0x0402 0) (fun v s =>
      let b := s.jobNvme j 1 (lba + at_ / 4096) (up4k n) (tierBytes v at_ 0)
      some (k, b.2.putJob { b.1 with t2 := some (i + 1) }))

/-- A generation sealed in a tier shows in RACK_PLOT_n. -/
def State.rackSealed (s : State) (k : Cmd) (j : RackJob) (tiers : Nat) : State :=
  let old := if s.fld RACK_PLOT_W1_GEN 0 k.plot = j.gen then s.fld RACK_PLOT_W1_TIERS 0 k.plot else 0
  if tiers = 0 then s else (s.setFld RACK_PLOT_W1_GEN 0 k.plot j.gen).setFld RACK_PLOT_W1_TIERS 0 k.plot (old ||| tiers)

/-- Drain and seal: the two tiers advance side by side, and then the staging copy is sealed where tier 3 is named; with nothing left, the RACK
completes. -/
def State.rackDrain (s : State) (k : Cmd) (j : RackJob) (status : Nat) : Option (Cmd × State) :=
  let named := nbits (k.word 7) 2 0
  let last := fun (s : State) (j : RackJob) =>
    some ({ k.lastStep with code := if j.sealed = named then 0 else 0x0504, res0 := j.bytes, res1 := j.gen <<< 32 + j.sealed },
      ((s.rackSealed k j j.sealed).putJob j).rackIntervals)
  match j.t1, j.t2 with
  | some a, some b => if 4 * a ≤ b then s.drain1 k j a status else s.drain2 k j b
  | some a, none => s.drain1 k j a status
  | none, some b => s.drain2 k j b
  | none, none =>
    if nbit named 2 = 1 && nbit j.sealed 2 = 0 then
      let r := s.writeVia (s.rackWho k) (k.stage 6) 1 1 0x0402
      if r.1 = viaHold then none else last r.2.2 { j with sealed := if r.1 = 0 then j.sealed ||| 4 else j.sealed }
    else last s j

/-- RACK (R676, R677), in a step at `now` in µs. `far` and `status` answer for what lies elsewhere: the table of regions, regions, and the
partner. -/
def execRack (q : Fin 16384) (cid : BitVec 16) (now : Nat) (far : List Vec) (status : Status) (s : State) : Res :=
  s.rackStep q cid 0x38 (fun k j s =>
    match j.phase with
    | 0 => s.rackBegin k j status.toNat (farVal far)
    | 1 => match j.pieces with
      | [] => s.rackCaptured k j now
      | p :: r =>
        let w := s.rackWho k
        cmdGo k (s.readVia w (BitVec.ofNat 64 p.1) p.2.2 status.toNat (farVal far)) (fun v s =>
          cmdGo k (s.writeVia w (k.stage p.2.1) p.2.2 v status.toNat) (fun _ s => some (k, s.putJob { j with pieces := r })))
    | _ => s.rackDrain k j status.toNat)

/-! ### RESTORE (R680 to R683) -/

/-- The module whose record is asked for, and that which holds it, where it is this one. -/
def State.rackOwner (s : State) (k : Cmd) : Nat := let o := nbits (k.word 3) 47 32; if o = 0xFFFF then s.fld MODULE_ID_ID 0 0 else o

/-- The holder is this module. -/
def State.holdsHere (s : State) (k : Cmd) : Bool :=
  let v := nbits (k.word 3) 63 48
  v = 0xFFFF || (v < 4096 && s.fld TU_MODMAP_v_EN k.plot v = 1 && s.fld TU_MODMAP_v_ID k.plot v = s.fld MODULE_ID_ID 0 0)

/-- A holder serves a record to its module and to the successors named (R681). -/
def State.mayHave (s : State) (owner who : Nat) : Bool := owner = who || s.kp.rack.successors.contains (owner, who)

/-- A header names a valid record of the plot, owner and generation asked for, as far as the header shows (R669, R682). -/
def State.headOk (s : State) (k : Cmd) (h : List Nat) : Bool :=
  let gen := nbits (k.word 4) 31 0
  imgLe h 0 4 = 0x4B434152 && imgLe h 4 2 = 1 && imgLe h 6 1 % 2 = 1 && imgLe h 7 1 = k.plot && imgLe h 8 2 = s.rackOwner k
    && (gen = 0 || imgLe h 16 4 = gen) && 512 ≤ imgLe h 40 8

/-- The header in a slot of this module's reserve. -/
def State.slotHead (s : State) (slot : Nat) : List Nat := (s.readBytes (s.reserveAt slot 0) 512)

/-- The newest of the reserve's records that serve. -/
def State.bestSlot (s : State) (k : Cmd) : Option Nat :=
  let ok := [0, 1].filter (fun i => s.headOk k (s.slotHead i))
  match ok with
  | [a, b] => if imgLe (s.slotHead a) 16 4 < imgLe (s.slotHead b) 16 4 then some b else some a
  | [a] => some a
  | _ => none

/-- Step 1 of R682: VERIFY is made EMPTY and the record found; `far` holds its header where it lies elsewhere, nothing where there is none. -/
def State.restoreFind (s : State) (k : Cmd) (j : RackJob) (far : List Vec) (status : Nat) : Option (Cmd × State) :=
  let tier := nbits (k.word 3) 2 0
  let here := tier = 1 && s.holdsHere k
  let v := k.word 5
  let f := if v = 0 then (0, s) else s.flagOp (s.rackWho k) (BitVec.ofNat 64 v) 4 0 false 0 0x0402
  let found := fun (h : List Nat) (slot : Nat) (s : State) =>
    if !s.headOk k h then some ({ k with code := 0x0505 }, s)
    else
      let own := s.rackOwner k = s.fld MODULE_ID_ID 0 0 && s.kp.rack.hurt
      let s1 := if own then let s1 := s.rackFail; s1.setRack { s1.kp.rack with hurt := false } else s
      some (k, s1.putJob { j with phase := if tier = 3 then 2 else 1, head := h, bytes := imgLe h 40 8, gen := imgLe h 16 4, slot := slot, t1 := some 0 })
  if s.fld PLOT_STAT_W0_STATE 0 k.plot = 2 then some ({ k with code := 0x0603 }, s)
  else if f.1 = viaHold then none
  else if f.1 ≠ 0 then some ({ k with code := f.1 }, f.2)
  else if tier = 3 then cmdGo k (f.2.readVia (s.rackWho k) (k.stage 0) 512 status (farVal far)) (fun v s => found (leBytes v 512) 0 s)
  else if here then
    (if !s.mayHave (s.rackOwner k) (s.fld MODULE_ID_ID 0 0) then some ({ k with code := 0x0382 }, f.2)
     else match s.bestSlot k with
      | some i => found (s.slotHead i) i f.2
      | none => some ({ k with code := 0x0505 }, f.2))
  else if 1 < status then some ({ k with code := status }, f.2)
  else if far.isEmpty then some ({ k with code := 0x0505 }, f.2)
  else found (leBytes (farVal far) 512) 0 f.2

/-- Step 2: the record is copied to STAGE, in the steps of its tier. -/
def State.restoreCopy (s : State) (k : Cmd) (j : RackJob) (far : List Vec) (status : Nat) : Option (Cmd × State) :=
  let tier := nbits (k.word 3) 2 0
  let m := if tier = 1 then 2 ^ 20 else 2 ^ 18
  let at_ := j.t1.getD 0 * m
  let n := min m (j.bytes - at_)
  let here := tier = 1 && s.holdsHere k
  let v := if here then s.readLE (s.reserveAt j.slot at_) n else farVal far % 2 ^ (8 * n)
  if !here && 1 < status then some ({ k with code := status }, s)
  else cmdGo k (s.writeVia (s.rackWho k) (k.stage at_) n v 0x0402) (fun _ s =>
    some (k, s.putJob { j with t1 := some (j.t1.getD 0 + 1), phase := if at_ + n = j.bytes then 2 else 1 }))

/-- The pieces that MAP asks for, in order, up to the first region that the record lacks, and that entry's index. -/
def restorePieces (dir : List (Nat × Nat × Nat)) (i : Nat) : List (Nat × Nat) → List (Nat × Nat × Nat) × Option Nat
  | [] => ([], none)
  | (a, id) :: r => match dir.find? (fun e => e.1 = id) with
    | none => ([], some i)
    | some (_, len, off) =>
      let x := restorePieces dir (i + 1) r
      (rackPieces a off (64 * len) ++ x.1, x.2)

/-- Step 2's check of BODY, and the map's entries. -/
def State.restoreCheck (s : State) (k : Cmd) (j : RackJob) (far : List Vec) (status : Nat) : Option (Cmd × State) :=
  let n := nbits (k.word 3) 31 16
  cmdGo k (s.readVia (s.rackWho k) (k.stage 512) (j.bytes - 512) 0x0402 0) (fun v s =>
    if sha384 (leBytes v (j.bytes - 512)) ≠ bytesAt j.head 112 48 then some ({ k with code := 0x0506 }, s)
    else
      let dir := (List.range (imgLe j.head 32 4)).map (fun i => (nbits (wordAt v (2 * i)) 63 32, nbits (wordAt v (2 * i)) 31 0, wordAt v (2 * i + 1)))
      cmdGo k (s.cmdRead k 2 (k.addr 2 0) (16 * n) status (farVal far)) (fun m s =>
        let l := (List.range n).map (fun i => (wordAt m (2 * i), nbits (wordAt m (2 * i + 1)) 63 32))
        let x := restorePieces dir 0 l
        some (k, s.putJob { j with phase := 3, pieces := x.1, lost := x.2 })))

/-- Steps 3 and 4: the regions are written; then the command completes, or signals that they are loaded and watches VERIFY. -/
def State.restoreWrite (s : State) (k : Cmd) (j : RackJob) (status : Nat) : Option (Cmd × State) :=
  let w := s.rackWho k
  let k1 := { k with res1 := j.gen <<< 32 + imgLe j.head 20 4, notes := [imgLe j.head 24 8, 0] }
  match j.pieces, j.lost with
  | p :: r, _ =>
    cmdGo k (s.readVia w (k.stage p.2.1) p.2.2 0x0402 0) (fun v s =>
      cmdGo k (s.writeVia w (BitVec.ofNat 64 p.1) p.2.2 v status) (fun _ s => some ({ k with res0 := k.res0 + p.2.2 }, s.putJob { j with pieces := r })))
  | [], some i => some ({ k with code := 0x0505, res1 := i }, s)
  | [], none =>
    if k.word 5 = 0 then some (k1.lastStep, s)
    else
      let f := s.flagOp w (addOff (BitVec.ofNat 64 (k.word 5)) 8) 3 1 true 2 0x0402
      if f.1 = viaHold then none
      else if f.1 ≠ 0 then some ({ k with code := f.1 }, f.2)
      else
        let k2 := { k1 with phase := .launched, done := k.done + 1 }
        some (k2, (f.2.setCmd k2).countSlots)

/-- RESTORE (R680, R682). `far` and `status` answer for a record or a map that lies elsewhere. -/
def execRestore (q : Fin 16384) (cid : BitVec 16) (far : List Vec) (status : Status) (s : State) : Res :=
  s.rackStep q cid 0x39 (fun k j s =>
    match j.phase with
    | 0 => s.restoreFind k j far status.toNat
    | 1 => s.restoreCopy k j far status.toNat
    | 2 => s.restoreCheck k j far status.toNat
    | _ => s.restoreWrite k j status.toNat)

/-- The RESTORE of a queue that watches VERIFY. -/
def State.verifying (s : State) (q : Fin 16384) (cid : BitVec 16) : Option Cmd :=
  s.cmdAt q.val cid.toNat (fun k => k.phase = .launched && k.opc = 0x39)

/-- RESTORE_VERIFY_ARRIVE: the word at VERIFY is FULL; its 64 bits are compared with the recorded loss (R683). -/
def execRestoreVerifyArrive (q : Fin 16384) (cid : BitVec 16) (s : State) : Res :=
  .next (match s.verifying q cid with
    | none => s
    | some k => match s.reach (s.rackWho k) (BitVec.ofNat 64 (k.word 5)) 8 false with
      | .to (.bank n off) =>
        if s.tag (bankAddr n off) / 4 = 0 then s
        else
          let r := s.memRead (.bank n off) 8
          let loss := k.notes.headD 0
          let got := r.2.1
          (r.2.2.progress k 2).complete { k with code := 0 } (if r.1 ≠ 0 then r.1 else if got = loss then 0 else 0x0502) 0 [loss, got]
      | _ => s)

/-- RESTORE_VERIFY_TIMEOUT: no loss has been written within `ms` ms, VERIFY_MS as admission found it (R683). -/
def execRestoreVerifyTimeout (q : Fin 16384) (cid : BitVec 16) (ms : BitVec 32) (s : State) : Res :=
  .next (match s.verifying q cid with
    | none => s
    | some k => match s.rackJob k with
      | none => s
      | some j => if ms.toNat < bitsOf j.cfg 31 16 then s else (s.progress k 2).complete k 0x0507 0 k.notes)

/-! ### The NVMe device (R672, R755) -/

/-- NVME_COMPLETION: a command completes; `ok` says that it succeeded, an Identify that the device has namespace 1 with a 4 KiB format. A tier whose
write fails is skipped (R677). -/
def execNvmeCompletion (id : Nat) (ok : Bool) (s : State) : Res :=
  let x := s.kp.rack
  .next (match x.nvme.find? (fun e => e.1 = id) with
    | none => s
    | some e =>
      let s1 := s.setRack { x with nvme := x.nvme.filter (fun y => y.1 ≠ id) }
      if e.2 = 4 then s1.setFld RACK_STAT_NVME_OK 0 0 (if ok && x.nvmeOn then 1 else 0)
      else match x.jobs.find? (fun j => j.nvme.contains id) with
        | none => s1
        | some j =>
          let sealed := if ok then j.sealed else j.sealed - nbit j.sealed 1 * 2
          let j1 := { j with nvme := j.nvme.filter (· ≠ id), t2 := if ok then j.t2 else none, sealed := sealed }
          let s2 := s1.putJob j1
          if !j1.nvme.isEmpty then s2
          else match s2.cp.cmds.find? (fun k => k.seq = j.cmd && k.phase = .granted) with
            | some k => s2.setCmd { k with phase := .worked }
            | none => s2)

/-- NVME_OVERCURRENT: a device drawing over 2.1 A is switched off (R755); the commands that it held fail. -/
def execNvmeOvercurrent (s : State) : Res :=
  let x := s.kp.rack
  let s1 := (s.setRack { x with nvmeOn := false, nvme := [], jobs := x.jobs.map (fun j =>
    if j.nvme.isEmpty then j else { j with nvme := [], t2 := none, sealed := j.sealed - nbit j.sealed 1 * 2 }) }).setFld RACK_STAT_NVME_OK 0 0 0
  let held := (x.jobs.filter (fun j => !j.nvme.isEmpty)).map (·.cmd)
  .next (if !x.nvmeOn then s
    else (s1.cp.cmds.filter (fun k => held.contains k.seq && k.phase = .granted)).foldl (fun s k => s.setCmd { k with phase := .worked }) s1)

/-! ### What other Keepers ask (R440, R574, R648, R673, R674, R681) -/

/-- A Keeper control message whose payload the spec does not give. -/
def State.tellKeeper (s : State) (peer : Nat) : State := s.srvTell 0 peer 16

/-- The outcome at a proposed partner (R673). -/
def State.partnerCheck (s : State) (peer : Nat) (x : Peer) : Nat :=
  let mine := s.fld RACK_LOC_RACK_ID 0 0
  if mine = 0xFFFF || x.rack = 0xFFFF then 0x0508
  else if s.oneFeed x then 0x0501
  else if s.kp.rack.hosted.any (fun h => h.module ≠ peer) then 0x0503
  else 0

/-- The outcome of a registration is recorded here, and the message that asked for it is answered (R673, R710). -/
def State.partnerDone (s : State) (peer code rack feed : Nat) : State :=
  match s.kp.rack.asked.find? (fun a => a.1 = peer) with
  | none => s
  | some (id, ovr, back) =>
    let s1 := (s.setFld RACK_PARTNER_LAST_CODE 0 0 code).setRack { s.kp.rack with asked := s.kp.rack.asked.erase (id, ovr, back) }
    let s2 := if code = 0 then
        let x : Peer := ⟨id, rack, feed, ovr⟩
        let risk := ovr && rack = s1.fld RACK_LOC_RACK_ID 0 0 && feed = s1.fld STRAP_STAT_FEED_ID 0 0
        (((s1.setRack { s1.kp.rack with partner := some x }).setFld RACK_PARTNER_STATE 0 0 2).setFld RACK_PARTNER_PARTNER 0 0 id).setFld
          RACK_PARTNER_AT_RISK 0 0 (if risk then 1 else 0)
      else s1.setFld RACK_PARTNER_STATE 0 0 (if s1.kp.rack.partner.isSome then 2 else 0)
    s2.mgmtAnswer back ([4, 1] ++ beBytes code 2)

/-- AELX_KCTL: Keeper control. Its payload's format is the Keepers' own: a teardown order names a plot and its new epoch (R648); a model's
descriptor is checked against this module's plot of the same number and answered (R574); partners register and re-check (R673, R674); a
record is served to those that may have it (R681). -/
def execAelxKctl (m : Fin 32) (vc : Fin 4) (msg : KctlMsg) (s : State) : Res :=
  .next (s.serve m vc false [0x48] (fun r _ s =>
    let answer := fun (code : Nat) (s : State) => some (s.rxAnswer r 0x80 code 0 0 0)
    match msg with
      | .teardown n e => answer 0 (s.teardownTo n e.toNat [] none 0 false)
      | .model n d =>
        let x := { srvModelOf n.val (leBytes d.toNat 320) with leader := some r.peer }
        let s1 := if (s.srvCheck x).isNone && s.srvBetween n then s.putModel x else s
        answer 0 (s1.srvTell n r.peer 240)
      | .partnerAsk rack feed ovr =>
        let x : Peer := ⟨r.peer, rack.toNat, feed.toNat, ovr⟩
        let code := s.partnerCheck r.peer x
        let s0 := s.setFld RACK_PARTNER_LAST_CODE 0 0 code
        let s1 := if code = 0 then
            let s1 := (s0.emptyReserve).setFld RACK_PARTNER_HOSTED 0 0 r.peer
            s1.setRack { s1.kp.rack with hosted := some x }
          else s0
        answer 0 (s1.tellKeeper r.peer)
      | .partnerAnswer rack feed code =>
        answer 0 (s.partnerDone r.peer code.toNat rack.toNat feed.toNat)
      | .rackMoved rack =>
        let x := s.kp.rack
        let new := fun (y : Peer) => if y.module = r.peer then { y with rack := rack.toNat } else y
        answer 0 ((s.setRack { x with partner := x.partner.map new, hosted := x.hosted.map new }).rackRecheck)
      | .record owner => if s.mayHave owner.toNat r.peer then answer 0 (s.tellKeeper r.peer) else answer 0x0382 s
      | .other => answer 0 s))

end Sys2Proof.Machine
end

