-- ==== Sys2Proof/Machine/Time.lean ====
section
/-!
DEFINITION. The time counter, its servo and its inputs (R689 to R700). A command whose effect needs the present time carries it: `now` is the 96-bit
counter as the time clock has moved it on.
-/
namespace Sys2Proof.Machine

/-- Replace the servo. -/
def State.setServo (s : State) (x : Servo) : State := s.setKp { s.kp with servo := x }

/-- Write the time counter: seconds, nanoseconds and 2^-16 ns (R689). -/
def State.setTime (s : State) (sec ns frac : Nat) : State :=
  (((s.setFld TIME_NOW_0_SEC_LO 0 0 (sec % 65536)).setFld TIME_NOW_1_SEC_HI 0 0 (sec / 65536)).setFld TIME_NOW_0_NS 0 0 ns).setFld TIME_NOW_0_FRAC 0 0 frac

/-- The 96 bits of a counter, Res0 left out, as a time in 2^-16 ns; and back. -/
def timeOf (t : BitVec 96) : Nat := (nbits t.toNat 95 48 * 1000000000 + nbits t.toNat 45 16) * 65536 + nbits t.toNat 15 0

/-- The counter's time in 2^-16 ns. -/
def State.timeNow (s : State) : Nat := (s.timeSec * 1000000000 + s.timeNs) * 65536 + s.fld TIME_NOW_0_FRAC 0 0

/-- Set the counter to a time in 2^-16 ns. -/
def State.putTime (s : State) (t : Nat) : State := s.setTime (t / 65536 / 1000000000 % 2 ^ 48) (t / 65536 % 1000000000) (t % 65536)

/-- The counter has reached `now`; it never moves backward but at a step (R690). (DESIGN CHOICE: notes/assumptions/63.md.) -/
def State.timeTo (s : State) (now : BitVec 96) : State := if s.timeNow < timeOf now then s.putTime (timeOf now) else s

/-- PPS_OUT rises (R697). (DESIGN CHOICE: notes/assumptions/63.md.) -/
def State.ppsOut (s : State) : State := if s.fld TIME_CFG_PPS_OUT 0 0 = 1 then s.send .pin [1, 1] else s

/-- A step (R695, R697, R708): counted and told; one that crosses a second boundary, or ends on one, gives one edge of PPS_OUT.
(DESIGN CHOICE: notes/assumptions/63.md.) -/
def State.timeStep (s : State) (t : Nat) : State :=
  let before := s.timeBytes
  let old := s.timeSec
  let s1 := (s.putTime t).bump TIME_STAT_STEPS 0 0
  let s2 := if s1.timeSec ≠ old || (s1.timeNs = 0 && s1.fld TIME_NOW_0_FRAC 0 0 = 0) then s1.ppsOut else s1
  s2.platformEvent 0xF2 1 (before ++ s2.timeBytes)

/-- The servo's state: 0 FREERUN, 1 ACQUIRING, 2 LOCKED, 3 HOLDOVER. (DESIGN CHOICE: notes/assumptions/63.md.) -/
def State.servoTo (s : State) (st : Nat) : State :=
  (s.setServo { s.kp.servo with good := 0, stepped := false }).setFld TIME_SRC_STATE 0 0 st

/-- A signed number of ns as 32 bits, saturated. -/
def satNs (n : Int) : Nat := (BitVec.ofInt 32 (max (-2147483648) (min 2147483647 n))).toNat

/-- A measurement: the counter is `off` × 2^-16 ns ahead of the source (R695). -/
def State.measure (s : State) (off : Int) : State :=
  let s1 := s.setFld TIME_STAT_OFFSET 0 0 (satNs (off / 65536))
  let st := s1.fld TIME_SRC_STATE 0 0
  let s2 := if st = 0 || st = 3 then s1.servoTo 1 else s1
  let x := s2.kp.servo
  let good := if off.natAbs < 100 * 65536 then x.good + 1 else 0
  if s2.fld TIME_SRC_STATE 0 0 = 2 then s2.setServo { x with good := good }
  else if !x.stepped && s2.fld TIME_CFG_STEP_US 0 0 * 1000 * 65536 < off.natAbs then
    (s2.setServo { x with good := 0, stepped := true }).timeStep ((s2.timeNow : Int) - off).toNat
  else if 16 ≤ good then (s2.setServo { x with good := good }).setFld TIME_SRC_STATE 0 0 2
  else s2.setServo { x with good := good }

/-- The first of two data sets is better, or as good (R693). (PRESUMED: notes/assumptions/64.md.) -/
def masterLe : List Nat → List Nat → Bool
  | [], _ => true
  | _ :: _, [] => false
  | a :: r, b :: t => a < b || (a = b && masterLe r t)

/-- The port whose Announce messages the comparison ranks best, ties to the lowest; of the fabric ports those with PTP on, or the management
port alone, as strap PTP_SRC selects (R692, R694). (PRESUMED: notes/assumptions/64.md.) -/
def State.bestMaster (s : State) : Option Nat :=
  let l := s.kp.servo.masters.filter (fun e =>
    if s.fld STRAP_STAT_PTP_SRC 0 0 = 1 then e.1 = 32 else e.1 < 32 && s.fld PORT_CFG_PTP e.1 0 = 1)
  (l.foldl (fun (a : Option (Nat × List Nat)) e => match a with
    | none => some (e.1, e.2.1)
    | some b => if masterLe b.2 e.2.1 then some b else some (e.1, e.2.1)) none).map (·.1)

/-- The servo's input, where there is one: its port and UTC offset show. -/
def State.pickMaster (s : State) : State :=
  match s.bestMaster with
  | none => s
  | some m => (s.setFld TIME_SRC_PORT 0 0 (m % 32)).setFld TIME_STAT_UTC_OFF 0 0 (Sparse.get ([], 0) s.kp.servo.masters m).2

/-- PTP_ANNOUNCE: an Announce message at a fabric port, or at the management port (none), with the data set of its master in the order of its
comparison and currentUtcOffset (R693, R694). -/
def execPtpAnnounce (m : Option (Fin 32)) (domain : BitVec 8) (data : List Nat) (utc : BitVec 16) (s : State) : Res :=
  let k := (m.map (fun x => x.val)).getD 32
  let x := s.kp.servo
  .next (if domain.toNat ≠ s.fld TIME_CFG_DOMAIN 0 0 then s
    else (s.setServo { x with masters := Sparse.put x.masters k (data, utc.toNat) }).pickMaster)

/-- PTP_SYNC: a Sync measurement at a fabric port or the management port: the offset in 2^-16 ns, at `now` (R694, R695). -/
def execPtpSync (m : Option (Fin 32)) (off : BitVec 64) (now : BitVec 96) (s : State) : Res :=
  let k := (m.map (fun x => x.val)).getD 32
  let s1 := s.timeTo now
  .next (if s.fld TIME_CFG_SRC 0 0 ≠ 0 || s.bestMaster ≠ some k then s1 else s1.measure off.toInt)

/-- PPS_IN_EDGE: a rising edge at `now`: one at least 0.5 s after the last accepted edge is timestamped; under SRC 0b01 it marks a second boundary,
and takes the seconds of TIME_SET that wait (R695, R698, R700). -/
def execPpsInEdge (now : BitVec 96) (s : State) : Res :=
  let s1 := s.timeTo now
  let t := s1.timeNow
  let x := s1.kp.servo
  .next (if x.edge.any (fun e => t < e + 500000000 * 65536) then s1
    else
      let s2 := (s1.setServo { x with edge := some t }).setReg .PPS_TS 0 0 (s1.reg .TIME_NOW_0 0 0)
      if s.fld TIME_CFG_SRC 0 0 ≠ 1 then s2
      else match x.set with
        | some sec => (s2.setServo { s2.kp.servo with set := none }).timeStep (sec * 1000000000 * 65536)
        | none =>
          let r : Int := (t % (1000000000 * 65536) : Nat)
          s2.measure (if r < 500000000 * 65536 then r else r - 1000000000 * 65536))

/-- SERVO_HOLDOVER: no Sync or edge for three intervals, or an Announce timeout, after which the masters heard are forgotten (R693, R695). -/
def execServoHoldover (announce : Bool) (s : State) : Res :=
  let st := s.fld TIME_SRC_STATE 0 0
  let s1 := if announce then (s.setServo { s.kp.servo with masters := Sparse.erase s.kp.servo.masters ((s.bestMaster).getD 33) }).pickMaster else s
  .next (if st = 1 || st = 2 then s1.servoTo 3 else s1)

/-- REF10_LOSS: the 10 MHz input is lost (R699). -/
def execRef10Loss (s : State) : Res := .next (s.setFld TIME_SRC_REF10_OK 0 0 0)

/-- REF10_LOCK: the 10 MHz input lies within ±50 ppm while REF10 is 1 (R699). -/
def execRef10Lock (s : State) : Res := .next (if s.fld TIME_CFG_REF10 0 0 = 1 then s.setFld TIME_SRC_REF10_OK 0 0 1 else s)

/-- A second of power has passed: 3,600 of them are an hour of RACK_STAT.HOURS (R684, R688). (DESIGN CHOICE: notes/assumptions/43.md.) -/
def State.powered (s : State) : State :=
  let n := s.kp.rack.secs + 1
  if n < 3600 then s.setRack { s.kp.rack with secs := n } else (s.setRack { s.kp.rack with secs := 0 }).bump RACK_STAT_HOURS 0 0

/-- PPS_SECOND_BOUNDARY: the counter reaches the next second (R697), and an hour of power may be over (R688). -/
def execPpsSecondBoundary (s : State) : Res := .next (((s.setTime ((s.timeSec + 1) % 2 ^ 48) 0 0).ppsOut).powered)

/-- TIME_CFG_WRITE: a change of SRC puts the servo in ACQUIRING, or FREERUN where nothing disciplines it; the Keeper keeps the ports' PTP domain
(R692, R693, R695, R700). (DESIGN CHOICE: notes/assumptions/63.md.) -/
def execTimeCfgWrite (ag : Agent) (v : BitVec 32) (s : State) : Res :=
  .next (if !ag.keeper then s.reply 0 0x0402 0
    else
      let old := s.fld TIME_CFG_SRC 0 0
      let s1 := s.setReg .TIME_CFG 0 0 (RegName.written .TIME_CFG true 31 0 (s.reg .TIME_CFG 0 0) (BitVec.ofNat 64 v.toNat))
      let new := s1.fld TIME_CFG_SRC 0 0
      let s2 := if new = old then s1 else s1.servoTo (if new = 2 then 0 else 1)
      let s3 := if s2.fld TIME_CFG_REF10 0 0 = 0 then s2.setFld TIME_SRC_REF10_OK 0 0 0 else s2
      ((List.range 32).foldl (fun s m => s.setFld PORT_PTP_DOMAIN m 0 (s.fld TIME_CFG_DOMAIN 0 0)) s3).reply 0 0 0)

/-- A write of TIME_SET (R695, R700): ignored under SRC 0b00, at the next edge under 0b01, at once under 0b10. -/
def State.timeSet (s : State) (sec : Nat) : State :=
  match s.fld TIME_CFG_SRC 0 0 with
  | 1 => s.setServo { s.kp.servo with set := some sec }
  | 2 => s.timeStep (sec * 1000000000 * 65536)
  | _ => s

/-- TIME_SET. -/
def execTimeSet (ag : Agent) (v : Word) (s : State) : Res :=
  .next (if !ag.keeper then s.reply 0 0x0402 0 else (s.timeSet (bitsOf v 47 0)).reply 0 0 0)

end Sys2Proof.Machine
end

