-- ==== Sys2Proof/Machine/MgmtOps.lean ====
section
/-!
DEFINITION. What the management requests share: their paths, stored responses, vendor messages and PLDM (R701 to R710). A response is sent as its
sender's address and SEQ followed by its bytes: for PLDM, type, command and completion code; for a vendor message, the fields of R710. The
PLDM, MCTP and SPDM codes are those of the DMTF specifications that R702, R706 and R711 name (notes/assumptions/97.md).
-/
namespace Sys2Proof.Machine

/-- Replace the management state. -/
def State.setMgmt (s : State) (x : Mgmt) : State := s.setKp { s.kp with mgmt := x }

/-- The path carries messages of a type (R701): 0x00 MCTP control, 0x01 PLDM, 0x05 SPDM, 0x06 secured messages, 0x7F Holtoft vendor messages. -/
def pathCarries (p : MgmtPath) (typ : Nat) : Bool :=
  match p with
  | .smbus | .i3c | .vdm => true
  | .doe => typ = 5 || typ = 6
  | .mgmtPort | .fabric => typ ≠ 0

/-- The management paths answer once firmware runs (R756 step 4). (DESIGN CHOICE: notes/assumptions/66.md.) -/
def State.fwRuns (s : State) : Bool := !s.kp.firm.run.isEmpty

/-- The stored response to a KMP datagram with this SEQ from this address (R704). -/
def State.stored (s : State) (src : MgmtSrc) : Option (List Nat) :=
  src.seq.bind (fun q => (s.kp.mgmt.seen.find? (fun e => e.1 = src.addr && e.2.1 = q.toNat)).map (fun e => e.2.2))

/-- A management request of a type is taken: it comes by a path that carries it; a repeat gets its stored response and is not acted on again. -/
def State.manage (s : State) (src : MgmtSrc) (typ : Nat) (f : State → State) : State :=
  if !s.fwRuns || !pathCarries src.path typ then s
  else match s.stored src with
    | some b => s.send .mgmt ([3, src.addr, (src.seq.map (fun q => q.toNat)).getD 0] ++ b)
    | none => f s

/-- The request comes in a secured session whose requester authenticated to the owner root (R705). -/
def State.authentic (s : State) (src : MgmtSrc) : Bool := src.session.any (fun k => s.kp.mgmt.sessions.any (fun e => e.1 = k && e.2))

/-- Answer a vendor message (R710): ARGS only when the status is OK. -/
def State.vendorAnswer (s : State) (src : MgmtSrc) (code status : Nat) (args : List Nat) : State :=
  s.mgmtAnswer src ([code, 1] ++ beBytes status 2 ++ (if status = 0 then args else []))

/-- What acting on a vendor message comes to: its status and the ARGS of its response, none where it is answered later. -/
abbrev Acted := Option (Nat × List Nat) × State

/-- A vendor message (R705, R710), with its bytes from FLAGS on: `ok` says that its ARGS are as its code needs them, `free` that it needs no session. A
response is not answered. (DESIGN CHOICE: notes/assumptions/66.md.) -/
def State.vendor (s : State) (src : MgmtSrc) (code : Nat) (b : List (BitVec 8)) (ok : List Nat → Bool) (free : Bool)
    (f : List Nat → State → Acted) : State :=
  let l := b.map (fun x => x.toNat)
  let args := l.drop 3
  s.manage src 0x7F (fun s =>
    if l.headD 0 = 1 then s
    else if l.length < 3 || l.headD 0 ≠ 0 || !ok args then s.vendorAnswer src code 0x0906 []
    else if !free && !s.authentic src then s.vendorAnswer src code 0x0904 []
    else
      let r := f args s
      match r.1 with
      | some a => r.2.vendorAnswer src code a.1 a.2
      | none => r.2)

/-- A PLDM request (R706): `f` gives its completion code and response data. -/
def State.pldm (s : State) (src : MgmtSrc) (typ cmd : Nat) (f : State → Nat × List Nat × State) : State :=
  s.manage src 1 (fun s =>
    let r := f s
    r.2.2.mgmtAnswer src ([1, typ, cmd, r.1] ++ (if r.1 = 0 then r.2.1 else [])))

/-- n bytes that the spec does not give. (DESIGN CHOICE: notes/assumptions/1.md.) (DESIGN CHOICE: notes/assumptions/69.md.) -/
def State.freeList (s : State) (n : Nat) : List Nat × State := let f := s.free; (leBytes (f.1 % 2 ^ (8 * n)) n, f.2)

end Sys2Proof.Machine
end

