-- ==== Sys2Proof/Machine/Firmware.lean ====
section
/-!
DEFINITION. Firmware: bundles, the ROM's choice, updates, trials and the security counters (R713 to R721, R724).
(DESIGN CHOICE: notes/assumptions/68.md.)
(DESIGN CHOICE: notes/assumptions/71.md.)
(PRESUMED: notes/assumptions/97.md.)
-/
namespace Sys2Proof.Machine

/-! ### Bundles (R713, R715 to R717) -/

/-- The sections of a bundle: type, offset and length. -/
def fwSecs (b : List Nat) : List (Nat × Nat × Nat) :=
  let le := fun (i n : Nat) => ofLe (bytesAt b i n)
  (List.range (le 12 2)).map (fun j => (le (64 + 16 * j) 2, le (68 + 16 * j) 4, le (72 + 16 * j) 4))

/-- The key slot that signs a bundle. -/
def fwKey (b : List Nat) : Nat := ofLe (bytesAt b (ofLe (bytesAt b 8 4) - 104) 4)

/-- The words of a bundle's REVOKE records. -/
def fwRevokes (b : List Nat) : List Nat :=
  match bundleSec b 0x0103 with
  | some (o, n) => (List.range (n / 8)).map (fun i => ofLe (bytesAt b (o + 8 * i) 8))
  | none => []

/-- The key slots revoked once a bundle's records are added. -/
def State.revokedBy (s : State) (b : List Nat) : Nat := (fwRevokes b).foldl (fun a r => a ||| 2 ^ (r % 4)) (s.fld FUSE_STAT_REVOKED 0 0)

/-- The bundle is malformed (R498, R499, R713). (DEDUCED: notes/assumptions/61.md.) -/
def State.fwBad (s : State) (b : List Nat) : Bool :=
  let le := fun (i n : Nat) => ofLe (bytesAt b i n)
  let n := le 8 4
  let nsec := le 12 2
  let secs := fwSecs b
  let idx := List.range secs.length
  let at_ := fun (i : Nat) => secs.getD i (0, 0, 0)
  let shape := secs.any (fun x => !(0x0101 ≤ x.1 && x.1 ≤ 0x0103) || x.2.1 % 8 ≠ 0 || x.2.2 % 8 ≠ 0 || x.2.1 < 64 + 16 * nsec || n < x.2.1 + x.2.2 + 104)
  let clash := idx.any (fun i => (List.range i).any (fun j =>
    (at_ i).1 = (at_ j).1 || ((at_ i).2.1 < (at_ j).2.1 + (at_ j).2.2 && (at_ j).2.1 < (at_ i).2.1 + (at_ i).2.2)))
  let stock := match bundleSec b 0x0101 with
    | some (o, k) => k < 8 || k < 8 + le (o + 4) 4 || le (o + 4) 4 % 8 ≠ 0 || le (o + 4) 4 ≤ le o 4
    | none => true
  let core := match bundleSec b 0x0102 with
    | some (o, k) => k < 8 || k < 8 + le o 2 || le o 2 % 8 ≠ 0 || 16384 < le o 2 || le (o + 2) 6 ≠ 0
    | none => true
  let rev := fwRevokes b
  le 0 4 ≠ 0x57465A53 || le 4 2 ≠ 1 || le 6 1 ≠ 2 || le 7 1 ≠ 0 || n % 8 ≠ 0 || b.length < n || 31 * 2 ^ 20 < n || n < 184
    || nsec = 0 || 16 < nsec || le 14 1 ≠ s.fld MOD_IDENT_PART 0 0 || s.fld MOD_IDENT_STEPPING 0 0 < le 15 1 || shape || clash || stock || core
    || 3 < rev.length || rev.any (fun r => 4 ≤ r || r = fwKey b) || (!rev.isEmpty && s.revokedBy b = 15)

/-- The bundle verifies under an unrevoked key slot; `sig` says that its signature is that key's (R715). -/
def State.fwSigned (s : State) (b : List Nat) (sig : Bool) : Bool := sig && fwKey b < 4 && nbit (s.fld FUSE_STAT_REVOKED 0 0) (fwKey b) = 0

/-- The SVN of a bundle. -/
def fwSvn (b : List Nat) : Nat := ofLe (bytesAt b 16 4)

/-- The code that refuses a bundle, 0 where it passes (R713, R716, R717, R722). -/
def State.fwCheck (s : State) (b : List Nat) (sig : Bool) : Nat :=
  if s.fwBad b then 0x0905
  else if s.imgSecure && !s.fwSigned b sig then 0x0900
  else if s.imgSecure && fwSvn b < s.fld FUSE_STAT_FW_CTR 0 0 then 0x0901
  else 0

/-- A bundle becomes the one that runs: its SVN and whether it passed both checks show, and the slots that it names are revoked (R715, R716). -/
def State.fwStart (s : State) (b : List Nat) (sig : Bool) : State :=
  let trusted := s.fwSigned b sig && s.fld FUSE_STAT_FW_CTR 0 0 ≤ fwSvn b
  let s1 := ((s.setFld FW_STAT_RUN_SVN 0 0 (fwSvn b)).setFld FW_STAT_UNSIGNED 0 0 (if trusted then 0 else 1)).setFld FUSE_STAT_REVOKED 0 0 (s.revokedBy b)
  s1.setFirm { s1.kp.firm with run := b }

/-! ### The ROM (R714, R718) -/

/-- The first SPI NOR device: 0 A, 1 B (R535). -/
def State.spiFirst (s : State) : Nat := if s.fld STRAP_STAT_BOOT_SRC 0 0 = 1 then 1 else 0

/-- The bundle in bank k of device d. -/
def State.fwBank (s : State) (d k : Nat) : List Nat := Sparse.get [] s.kp.firm.banks (2 * d + k)

/-- The boot record of device d. -/
def State.bootRec (s : State) (d : Nat) : BootRec := Sparse.get {} s.kp.firm.boots d

/-- Write the boot records of both devices, the second device first (R719). -/
def State.writeBoots (s : State) (f : BootRec → BootRec) : State :=
  let put := fun (d : Nat) (m : Sparse BootRec) => let r := Sparse.get {} m d; Sparse.set {} m d { f r with seq := r.seq + 1 }
  s.setFirm { s.kp.firm with boots := put s.spiFirst (put (1 - s.spiFirst) s.kp.firm.boots) }

/-- The copies that the ROM tries, as (device, bank): the active banks, then the others (R714). -/
def State.fwCopies (s : State) : List (Nat × Nat) :=
  let d := s.spiFirst
  let e := 1 - d
  [(d, (s.bootRec d).active), (e, (s.bootRec e).active), (d, 1 - (s.bootRec d).active), (e, 1 - (s.bootRec e).active)]

/-- The ROM starts the first copy in SPI NOR that passes; `sigs` are the verdicts on the signatures of bank k of device d, at 2 × d + k. A trial
that a restart has met ends with the previous bundle (R714, R720). -/
def State.romSpi (s : State) (sigs : List Bool) : State :=
  let trial := (s.bootRec 0).trial || (s.bootRec 1).trial
  let s1 := if trial then s.fwRevert else s
  let sig := fun (x : Nat × Nat) => sigs.getD (2 * x.1 + x.2) false
  let s2 := s1.setFirm { s1.kp.firm with recovery := 0 }
  match s2.fwCopies.find? (fun x => s2.fwCheck (s2.fwBank x.1 x.2) (sig x) = 0) with
  | some x => ((s2.fwStart (s2.fwBank x.1 x.2) (sig x)).setFld FW_STAT_DEVICE 0 0 x.1).setFld FW_STAT_BANK 0 0 x.2
  | none => s2

/-- A bundle fetched for recovery starts if it passes; the ROM falls back to SPI NOR if it does not (R714). -/
def State.romRecover (s : State) (b : List Nat) (sig : Bool) (sigs : List Bool) : State :=
  if s.fwCheck b sig = 0 then (s.setFirm { s.kp.firm with recovery := 0, buffer := [] }).fwStart b sig else s.romSpi sigs

/-- FW_RECOVERY_WRITE: the host writes the LENGTH of the bundle in the recovery buffer (R714). -/
def execFwRecoveryWrite (len : BitVec 32) (sig : Bool) (sigs : Vector Bool 4) (s : State) : Res :=
  let b := (List.range (min len.toNat (32 * 2 ^ 20))).map (fun i => Sparse.get 0 s.kp.firm.buffer i)
  .next (if s.kp.firm.recovery = 2 then s.romRecover b sig sigs.toList else s)

/-- RECOVERY_BOOT_TIMEOUT: no recovery bundle within 60 s (R714). -/
def execRecoveryBootTimeout (sigs : Vector Bool 4) (s : State) : Res :=
  .next (if s.kp.firm.recovery = 0 then s else (s.setFirm { s.kp.firm with buffer := [] }).romSpi sigs.toList)

/-! ### Updates (R719, R721) -/

/-- Where an update stands shows in UPD_STATE. -/
def State.updTo (s : State) (u st : Nat) : State := (s.setFirm { s.kp.firm with upd := u }).setFld FW_STAT_UPD_STATE 0 0 st

/-- Ask for the bundle's bytes from `off` on (R719 step 2). -/
def State.fwAsk (s : State) : State :=
  s.send .mgmt ([4, 5, 0x15] ++ leBytes s.kp.firm.got.length 4 ++ leBytes (s.kp.firm.size - s.kp.firm.got.length) 4)

/-- REQUEST_UPDATE (R719, R721). -/
def execRequestUpdate (src : MgmtSrc) (s : State) : Res :=
  .next (s.pldm src 5 0x10 (fun s =>
    if s.kp.firm.upd ≠ 0 || s.fld FW_STAT_TRIAL 0 0 = 1 then (0x81, [], s)
    else (0, [0, 0, 0], s.setFirm { s.kp.firm with upd := 1, got := [], size := 0 })))

/-- PASS_COMPONENT_TABLE: component 0x0001 is the bundle; another may not be updated. -/
def execPassComponentTable (src : MgmtSrc) (comp : BitVec 16) (s : State) : Res :=
  .next (s.pldm src 5 0x13 (fun s =>
    if s.kp.firm.upd = 0 then (0x80, [], s)
    else if s.kp.firm.upd ≠ 1 then (0x84, [], s)
    else if comp ≠ 1 then (0, [1, 6], s)
    else (0, [0, 0], s.setFirm { s.kp.firm with upd := 2 })))

/-- UPDATE_COMPONENT: the bundle, of `size` bytes, is to be pulled. -/
def execUpdateComponent (src : MgmtSrc) (comp : BitVec 16) (size : BitVec 32) (s : State) : Res :=
  .next (if s.kp.firm.upd = 2 && comp = 1 && s.fwRuns && pathCarries src.path 1 && (s.stored src).isNone then
      ((s.pldm src 5 0x14 (fun s => (0, [0, 0, 0, 0, 0, 0, 0, 0], (s.setFirm { s.kp.firm with got := [], size := size.toNat }).updTo 3 1))).fwAsk)
    else s.pldm src 5 0x14 (fun s =>
      if s.kp.firm.upd = 0 then (0x80, [], s) else if s.kp.firm.upd ≠ 2 then (0x84, [], s) else (0, [1, 6, 0, 0, 0, 0, 0, 0], s)))

/-- Bytes of the bundle in both devices' inactive banks. -/
def State.putBanks (s : State) (b : List Nat) (both : Bool) : State :=
  let d := s.spiFirst
  let m1 := Sparse.set [] s.kp.firm.banks (2 * (1 - d) + (1 - (s.bootRec (1 - d)).active)) b
  s.setFirm { s.kp.firm with banks := if both then Sparse.set [] m1 (2 * d + (1 - (s.bootRec d).active)) b else m1 }

/-- FIRMWARE_DATA_RECEIVED: bytes of the bundle come and are written to the inactive bank of the second device; once all have, to that of the first.
`v` is the verdict on the signature, none while the check has not been made: the update is then verifying. One that fails ends, and the bundle is not
applied (R719 steps 2 to 4). -/
def execFirmwareDataReceived (data : List (BitVec 8)) (v : Option Bool) (s : State) : Res :=
  let x := s.kp.firm
  .next (if x.upd ≠ 3 then s
    else
      let got := (x.got ++ data.map (fun y => y.toNat)).take x.size
      let s1 := (s.setFirm { x with got := got }).putBanks got (got.length = x.size)
      if got.length < x.size then s1.fwAsk
      else match v with
        | none => s1.setFld FW_STAT_UPD_STATE 0 0 2
        | some sig =>
          let code := s1.fwCheck got sig
          let s2 := ((s1.send .mgmt [4, 5, 0x16, 0]).send .mgmt ([4, 5, 0x17] ++ leBytes code 2)).setFld FW_STAT_LAST_CODE 0 0 code
          if code ≠ 0 then s2.updTo 0 0 else (s2.send .mgmt [4, 5, 0x18, 0]).updTo 4 3)

/-- ACTIVATE_FIRMWARE: boot records name the new bank, on trial, and the standby pair loads and checks the bundle; `ok` says that it passes. If not, the
previous bank is active again (R719 step 5, R720). -/
def execActivateFirmware (src : MgmtSrc) (ok : Bool) (s : State) : Res :=
  .next (s.pldm src 5 0x1A (fun s =>
    if s.kp.firm.upd = 0 then (0x80, [], s)
    else if s.kp.firm.upd ≠ 4 || s.fld FW_STAT_UPD_STATE 0 0 ≠ 3 then (0x84, [], s)
    else
      let s1 := (s.writeBoots (fun r => { active := 1 - r.active, trial := true })).setFld FW_STAT_UPD_STATE 0 0 4
      (0, [0, 0], if ok then s1 else s1.fwRevert)))

/-- GET_STATUS: where the update stands (R706, R719). -/
def execGetStatus (src : MgmtSrc) (s : State) : Res :=
  .next (s.pldm src 5 0x1B (fun s => (0, [s.kp.firm.upd, s.fld FW_STAT_UPD_STATE 0 0], s)))

/-- CANCEL_UPDATE_COMPONENT: the transfer ends; both active banks are as they were (R719). -/
def execCancelUpdateComponent (src : MgmtSrc) (s : State) : Res :=
  .next (s.pldm src 5 0x1C (fun s =>
    if s.kp.firm.upd = 0 then (0x80, [], s)
    else if s.kp.firm.upd < 3 || 4 ≤ s.fld FW_STAT_UPD_STATE 0 0 then (0x84, [], s)
    else (0, [], s.updTo 2 0)))

/-- CANCEL_UPDATE before activation (R719). -/
def execCancelUpdate (src : MgmtSrc) (s : State) : Res :=
  .next (s.pldm src 5 0x1D (fun s =>
    if s.kp.firm.upd = 0 then (0x80, [], s)
    else if 4 ≤ s.fld FW_STAT_UPD_STATE 0 0 then (0x84, [], s)
    else (0, [0], (s.setFirm { s.kp.firm with got := [], size := 0 }).updTo 0 0)))

/-- No Keeper step is in progress, and neither a partial re-bind nor a hang's recovery: a step boundary (R719, R721).
(DESIGN CHOICE: notes/assumptions/73.md.) -/
def State.keeperBoundary (s : State) : Bool :=
  !s.cp.cmds.any (fun k => k.phase = .granted) && s.kp.img.rebinds.isEmpty && s.kp.hang.phase = .idle

/-- FW_TAKEOVER: at the next step boundary the standby pair takes over with the new bundle; `ok` says that its check passes, `sig` that its signature
does (R719 step 6, R720). -/
def execFwTakeover (ok sig : Bool) (s : State) : Res :=
  .next (if s.fld FW_STAT_UPD_STATE 0 0 ≠ 4 || !s.keeperBoundary then s
    else if !ok then s.fwRevert
    else
      let d := s.spiFirst
      let prev := s.kp.firm.run
      let k := (s.bootRec d).active
      let s1 := (s.writeBoots (fun r => { r with count := r.count + 1 })).fwStart (s.fwBank d k) sig
      let s2 := (s1.setFirm { s1.kp.firm with prev := prev, old := allBlocks, upd := 0, got := [], size := 0 }).setFld FW_STAT_TRIAL 0 0 1
      let s3 := ((s2.setFld FW_STAT_UPD_STATE 0 0 5).setFld FW_STAT_CORE_OLD 0 0 648).setFld FW_STAT_BANK 0 0 k
      (s3.setFld FW_STAT_LAST_CODE 0 0 0).measuredFree 3)

/-- A trial ends with a confirm (R720). -/
def State.fwConfirm (s : State) : State :=
  if s.fld FW_STAT_TRIAL 0 0 = 0 then s
  else
    let s1 := s.writeBoots (fun r => { r with trial := false, count := 0 })
    ((s1.setFirm { s1.kp.firm with prev := [] }).setFld FW_STAT_TRIAL 0 0 0).setFld FW_STAT_UPD_STATE 0 0 0

/-- TRIAL_AUTO_CONFIRM: `minutes` have passed since the trial began with no steward mismatch and no Keeper hang (R720). -/
def execTrialAutoConfirm (minutes : BitVec 16) (s : State) : Res :=
  let m := s.fld FW_CFG_TRIAL_MIN 0 0
  .next (if m ≠ 0 && m ≤ minutes.toNat && s.fld FLT_STAT_LAPSE_KEEPER 0 0 = 0 then s.fwConfirm else s)

/-- FW_CONFIRM acts. -/
def State.vmFwConfirm (s : State) (src : MgmtSrc) (b : List (BitVec 8)) : State :=
  s.vendor src 0x0A b (fun a => a.isEmpty) false (fun _ s => (some (0, []), s.fwConfirm))

/-- FW_CONFIRM. -/
def execFwConfirm (src : MgmtSrc) (b : List (BitVec 8)) (s : State) : Res := .next (s.vmFwConfirm src b)

/-! ### The anti-rollback counters (R717) -/

/-- Some stored profile has an SVN below n. -/
def State.olderProfile (s : State) (n : Nat) : Bool :=
  (List.range 8).any (fun i =>
    let b := Sparse.get [] s.kp.img.slots i
    !b.isEmpty && imgLe b 0 4 = 0x494C5A53 && imgLe b 16 4 < n)

/-- COMMIT_SVN acts: a counter is raised to the SVN of what runs or is in force. For FW_CTR every bank first holds the active bank's bundle. -/
def State.commitSvn (s : State) (img : Bool) : Acted :=
  let old := s.fld (if img then FUSE_STAT_IMG_CTR else FUSE_STAT_FW_CTR) 0 0
  let have_ := if img then !s.kp.img.inForce.isEmpty else s.fwRuns
  let svn := if img then imgLe s.kp.img.inForce 16 4 else fwSvn s.kp.firm.run
  if s.fld FW_STAT_TRIAL 0 0 = 1 || !have_ || 64 < svn || (img && s.olderProfile svn) then
    (some (0x0903, []), s.setFld FW_STAT_LAST_CODE 0 0 0x0903)
  else
    let copy := fun (m : Sparse (List Nat)) (d : Nat) => Sparse.set [] m (2 * d + (1 - (s.bootRec d).active)) (s.fwBank d (s.bootRec d).active)
    let s1 := if img then s else s.setFirm { s.kp.firm with banks := copy (copy s.kp.firm.banks 1) 0 }
    let new := max old svn
    (some (0, [new]), (s1.setFld (if img then FUSE_STAT_IMG_CTR else FUSE_STAT_FW_CTR) 0 0 new).setFld FW_STAT_LAST_CODE 0 0 0)

/-- COMMIT_SVN as a message. -/
def State.vmCommitSvn (s : State) (src : MgmtSrc) (b : List (BitVec 8)) : State :=
  s.vendor src 0x09 b (fun a => a.length = 1) false (fun a s => s.commitSvn (a.headD 0 % 2 = 1))

/-- COMMIT_SVN. -/
def execCommitSvn (src : MgmtSrc) (b : List (BitVec 8)) (s : State) : Res := .next (s.vmCommitSvn src b)

end Sys2Proof.Machine
end

