-- ==== Sys2Proof/Machine/Mgmt.lean ====
section
/-!
DEFINITION. Management: MCTP, KMP, SPDM, the vendor messages and PLDM (R701 to R712).
(DESIGN CHOICE: notes/assumptions/68.md.)
(PRESUMED: notes/assumptions/97.md.)
-/
namespace Sys2Proof.Machine

/-! ### Vendor messages (R709, R710) -/

/-- The n bytes of a vendor message's ARGS from byte i of the message on, as a number. -/
def argBe (a : List Nat) (i n : Nat) : Nat := ofBe (bytesAt a (i - 4) n)

/-- GET_INFO acts. -/
def State.vmGetInfo (s : State) (src : MgmtSrc) (b : List (BitVec 8)) : State :=
  s.vendor src 0x01 b (fun a => a.isEmpty) true (fun _ s =>
    (some (0, [0x0A, s.fld MOD_IDENT_STEPPING 0 0, s.fld STRAP_STAT_SLOT_ID 0 0, s.fld STRAP_STAT_FEED_ID 0 0]
      ++ beBytes (s.fld MODULE_ID_ID 0 0) 2 ++ beBytes (s.fld RACK_LOC_RACK_ID 0 0) 2), s))

/-- GET_INFO. -/
def execGetInfo (src : MgmtSrc) (b : List (BitVec 8)) (s : State) : Res := .next (s.vmGetInfo src b)

/-- SET_MODULE_ID acts: ID stays where it is locked (R50). (DESIGN CHOICE: notes/assumptions/67.md.) -/
def State.vmSetModuleId (s : State) (src : MgmtSrc) (b : List (BitVec 8)) : State :=
  s.vendor src 0x02 b (fun a => a.length = 2 && argBe a 4 2 ≠ 0xFFFF) false (fun a s =>
    (some (0, []), if s.fld MODULE_ID_ID_LOCK 0 0 = 1 then s else (s.setFld MODULE_ID_ID 0 0 (argBe a 4 2)).setFld MODULE_ID_ID_LOCK 0 0 1))

/-- SET_MODULE_ID. -/
def execSetModuleId (src : MgmtSrc) (b : List (BitVec 8)) (s : State) : Res := .next (s.vmSetModuleId src b)

/-- SET_RACK_LOC acts: the partners' feeds are checked again (R674). -/
def State.vmSetRackLoc (s : State) (src : MgmtSrc) (b : List (BitVec 8)) : State :=
  s.vendor src 0x03 b (fun a => a.length = 2) false (fun a s => (some (0, []), (s.setFld RACK_LOC_RACK_ID 0 0 (argBe a 4 2)).rackMoved))

/-- SET_RACK_LOC. -/
def execSetRackLoc (src : MgmtSrc) (b : List (BitVec 8)) (s : State) : Res := .next (s.vmSetRackLoc src b)

/-- PARTNER_REGISTER acts: the proposed partner is asked, and its answer answers the message (R673). A repeat that finds its request waiting asks no
second time. -/
def State.vmPartnerRegister (s : State) (src : MgmtSrc) (b : List (BitVec 8)) : State :=
  s.vendor src 0x04 b (fun a => a.length = 3) false (fun a s =>
    if s.kp.rack.asked.any (fun x => src.seq.isSome && x.2.2.addr = src.addr && x.2.2.seq = src.seq) then (none, s)
    else
      let id := argBe a 4 2
      let ovr : Bool := argBe a 6 1 % 2 = 1
      let s1 := s.setRack { s.kp.rack with asked := s.kp.rack.asked ++ [(id, ovr, src)] }
      (none, (s1.setFld RACK_PARTNER_STATE 0 0 1).tellKeeper id))

/-- PARTNER_REGISTER. -/
def execPartnerRegister (src : MgmtSrc) (b : List (BitVec 8)) (s : State) : Res := .next (s.vmPartnerRegister src b)

/-- NAME_SUCCESSOR acts: a holder keeps up to 16 names (R681). The spec gives no status to a seventeenth, which is not kept: a free one of those that
report so (R13, R15). (DESIGN CHOICE: notes/assumptions/1.md.) -/
def State.vmNameSuccessor (s : State) (src : MgmtSrc) (b : List (BitVec 8)) : State :=
  s.vendor src 0x05 b (fun a => a.length = 5) false (fun a s =>
    let x := s.kp.rack
    let e := (argBe a 4 2, argBe a 6 2)
    if argBe a 8 1 % 2 = 0 then (some (0, []), s.setRack { x with successors := x.successors.filter (· ≠ e) })
    else if x.successors.contains e then (some (0, []), s)
    else if 16 ≤ x.successors.length then let f := s.free; (some (refusalCode f.1, []), f.2)
    else (some (0, []), s.setRack { x with successors := x.successors ++ [e] }))

/-- NAME_SUCCESSOR. -/
def execNameSuccessor (src : MgmtSrc) (b : List (BitVec 8)) (s : State) : Res := .next (s.vmNameSuccessor src b)

/-- The entries of a SET_MODMAP: virtual module and physical module ID. -/
def mapEntries (a : List Nat) : List (Nat × Nat) := (List.range (argBe a 6 2)).map (fun i => (argBe a (8 + 4 * i) 2, argBe a (10 + 4 * i) 2))

/-- SET_MODMAP acts: it writes the entries, then TU_SYNC over the whole window and map (R413). (DESIGN CHOICE: notes/assumptions/67.md.) -/
def State.vmSetModmap (s : State) (src : MgmtSrc) (b : List (BitVec 8)) : State :=
  s.vendor src 0x06 b (fun a =>
      4 ≤ a.length && a.length = 4 + 4 * argBe a 6 2 && 0 < argBe a 6 2 && argBe a 6 2 ≤ 256 && argBe a 4 1 < 64 && (mapEntries a).all (fun e => e.1 < 4096))
    false (fun a s =>
      let n := argBe a 4 1
      let s1 := (mapEntries a).foldl (fun s e =>
        if e.2 = 0xFFFF then s.setFld TU_MODMAP_v_EN n e.1 0 else (s.setFld TU_MODMAP_v_EN n e.1 1).setFld TU_MODMAP_v_ID n e.1 e.2) s
      (some (0, []), if s1.fld TU_SYNC_DONE n 0 = 0 then s1
        else (s1.setFld TU_SYNC_DONE n 0 0).setKp { s1.kp with syncs := Sparse.put s1.kp.syncs n (0, 0) }))

/-- SET_MODMAP. -/
def execSetModmap (src : MgmtSrc) (b : List (BitVec 8)) (s : State) : Res := .next (s.vmSetModmap src b)

/-- The entries of a SET_FABRIC: the register that each names, where a FABRIC record may name it, and the value (R516). -/
def fabEntries (a : List Nat) : List (Option RegAt × Nat) :=
  (List.range (argBe a 4 2)).map (fun i =>
    ((regOff (argBe a (10 + 16 * i) 6)).filter (fun x => fabAllowed x.r), argBe a (16 + 16 * i) 8))

/-- A fabric register is written by the Keeper. -/
def State.putFabric (s : State) (x : RegAt) (v : Nat) : State :=
  if x.r = .PORT_CFG then s.portCfg x.u v
  else (s.setReg x.r x.u x.i (x.r.written true (x.r.desc.width - 1) 0 (s.reg x.r x.u x.i) (BitVec.ofNat 64 v))).afterWrite s x (whoOf ⟨true, true, 0, 0, none, none⟩)

/-- SET_FABRIC acts. (DESIGN CHOICE: notes/assumptions/67.md.) -/
def State.vmSetFabric (s : State) (src : MgmtSrc) (b : List (BitVec 8)) : State :=
  s.vendor src 0x07 b (fun a =>
      4 ≤ a.length && a.length = 4 + 16 * argBe a 4 2 && 0 < argBe a 4 2 && argBe a 4 2 ≤ 64 && (fabEntries a).all (fun e => e.1.isSome))
    false (fun a s => (some (0, []), (fabEntries a).foldl (fun s e => match e.1 with | some x => s.putFabric x e.2 | none => s) s))

/-- SET_FABRIC. -/
def execSetFabric (src : MgmtSrc) (b : List (BitVec 8)) (s : State) : Res := .next (s.vmSetFabric src b)

/-- DUMP acts: a dump of REASON 4, answered once it starts. -/
def State.vmDump (s : State) (src : MgmtSrc) (b : List (BitVec 8)) : State :=
  s.vendor src 0x08 b (fun a => a.isEmpty) false (fun _ s =>
    if s.kp.hang.dumps.any (fun d => d.asker.any (fun y => src.seq.isSome && y.addr = src.addr && y.seq = src.seq)) then (none, s)
    else (none, s.askDump { reason := 4, id := s.fld HANG_STAT_HANG_ID 0 0, asker := some src }))

/-- DUMP_MESSAGE. -/
def execDumpMessage (src : MgmtSrc) (b : List (BitVec 8)) (s : State) : Res := .next (s.vmDump src b)

/-- SET_OWNER_ROOT acts: it needs a session only where a root is installed already (R705). -/
def State.vmSetOwnerRoot (s : State) (src : MgmtSrc) (b : List (BitVec 8)) : State :=
  s.vendor src 0x0B b (fun a => a.length = 48) s.kp.mgmt.root.isNone (fun a s =>
    (some (0, []), (s.setMgmt { s.kp.mgmt with root := some a }).setFld FUSE_STAT_OWNED 0 0 1))

/-- SET_OWNER_ROOT. -/
def execSetOwnerRoot (src : MgmtSrc) (b : List (BitVec 8)) (s : State) : Res := .next (s.vmSetOwnerRoot src b)

/-- SET_MGMT_ADDR acts: a static address of the management port, or none. (DESIGN CHOICE: notes/assumptions/67.md.) -/
def State.vmSetMgmtAddr (s : State) (src : MgmtSrc) (b : List (BitVec 8)) : State :=
  s.vendor src 0x0C b (fun a => a.length = 20 && argBe a 4 1 ≤ 2) false (fun a s =>
    (some (0, []), s.setMgmt { s.kp.mgmt with static := if argBe a 4 1 = 2 then none else some (argBe a 4 1, argBe a 5 1, bytesAt a 4 16) }))

/-- SET_MGMT_ADDR. -/
def execSetMgmtAddr (src : MgmtSrc) (b : List (BitVec 8)) (s : State) : Res := .next (s.vmSetMgmtAddr src b)

/-- The TIME_SET message acts (R695). -/
def State.vmTimeSet (s : State) (src : MgmtSrc) (b : List (BitVec 8)) : State :=
  s.vendor src 0x0D b (fun a => a.length = 6) false (fun a s => (some (0, []), s.timeSet (argBe a 4 6)))

/-- TIME_SET_MESSAGE. -/
def execTimeSetMessage (src : MgmtSrc) (b : List (BitVec 8)) (s : State) : Res := .next (s.vmTimeSet src b)

/-! ### KMP, MCTP and SPDM (R702, R704, R711, R712) -/

/-- A Holtoft vendor message with its CODE: the messages to the fabric manager have no effect here; any other code is refused.
(DESIGN CHOICE: notes/assumptions/66.md.) -/
def State.vendorMessage (s : State) (src : MgmtSrc) (code : Nat) (b : List (BitVec 8)) : State :=
  match code with
  | 0x01 => s.vmGetInfo src b
  | 0x02 => s.vmSetModuleId src b
  | 0x03 => s.vmSetRackLoc src b
  | 0x04 => s.vmPartnerRegister src b
  | 0x05 => s.vmNameSuccessor src b
  | 0x06 => s.vmSetModmap src b
  | 0x07 => s.vmSetFabric src b
  | 0x08 => s.vmDump src b
  | 0x09 => s.vmCommitSvn src b
  | 0x0A => s.vmFwConfirm src b
  | 0x0B => s.vmSetOwnerRoot src b
  | 0x0C => s.vmSetMgmtAddr src b
  | 0x0D => s.vmTimeSet src b
  | 0x80 => s
  | 0x81 => s
  | n => s.vendor src n b (fun _ => false) true (fun _ s => (none, s))

/-- KMP_DATAGRAM: the datagram `d` from an address, by the management port or the fabric, in a session or none (R704). A repeated SEQ gets its stored
response. What a vendor message carries acts; a PLDM, SPDM or secured message that it carries is a command of its own. -/
def execKmpDatagram (fabric : Bool) (addr : Nat) (session : Option Nat) (d : List (BitVec 8)) (s : State) : Res :=
  let l := d.map (fun x => x.toNat)
  let seq := ofBe (bytesAt l 4 4)
  let src : MgmtSrc := ⟨if fabric then .fabric else .mgmtPort, addr, some (BitVec.ofNat 32 seq), session⟩
  let typ := l.getD 1 0
  .next (if l.length < 8 || l.getD 0 0 ≠ 1 || ofBe (bytesAt l 2 2) ≠ l.length - 8 || 1400 < l.length - 8 then s
    else if typ = 0x7F && 9 ≤ l.length then s.vendorMessage src (l.getD 8 0) (d.drop 9)
    else if typ = 1 || typ = 5 || typ = 6 then s.manage src typ id
    else s)

/-- MCTP_CONTROL (R702): its command code and completion code, then its data. -/
def execMctpControl (src : MgmtSrc) (r : MctpReq) (s : State) : Res :=
  let ans := fun (cmd cc : Nat) (data : List Nat) (s : State) => s.mgmtAnswer src ([0, cmd, cc] ++ data)
  .next (s.manage src 0 (fun s => match r with
    | .setEid e =>
      if e.toNat = 0 || e.toNat = 255 then ans 1 2 [] s else ans 1 0 [0, e.toNat, 0] (s.setMgmt { s.kp.mgmt with eid := e.toNat })
    | .getEid => ans 2 0 [s.kp.mgmt.eid, 0, 0] s
    | .uuid => let f := s.freeList 16; ans 3 0 f.1 f.2
    | .versions => ans 4 0 [1, 0xF1, 0xF3, 0xFF, 0] s
    | .types => ans 5 0 [5, 0x00, 0x01, 0x05, 0x06, 0x7F] s
    | .setUnit n =>
      if src.path = .vdm && 64 ≤ n && n ≤ 1024 then s.setMgmt { s.kp.mgmt with unit := n } else s
    | .other => ans 0 5 [] s))

/-- The digest that a measurement index holds (R712): the image in force and the owner root are the model's, the others are free. -/
def State.measurement (s : State) (i : Nat) : List Nat × State :=
  if i = 4 then ((List.range 6).flatMap (fun k => leBytes (s.reg .IMG_DIGEST_i 0 k).toNat 8), s)
  else match i, s.kp.mgmt.root with
    | 8, some r => (r, s)
    | _, _ => s.freeList 48

/-- The measurements of a list of indices, each with its index. -/
def State.measurements (s : State) (l : List Nat) : List Nat × State :=
  l.foldl (fun r i => let m := r.2.measurement i; (r.1 ++ [i] ++ m.1, m.2)) ([], s)

/-- SPDM_MESSAGE (R711): the response's code, then what of it the spec gives; the rest of its layout is DSP0274's.
(DESIGN CHOICE: notes/assumptions/69.md.) -/
def execSpdmMessage (src : MgmtSrc) (r : SpdmReq) (s : State) : Res :=
  let ans := fun (code : Nat) (data : List Nat) (s : State) => s.mgmtAnswer src ([5, code] ++ data)
  let free := fun (code n : Nat) (s : State) => let f := s.freeList n; ans code f.1 f.2
  let err := fun (code : Nat) (s : State) => ans 0x7F [code] s
  let has := fun (k : Nat) (s : State) => s.kp.mgmt.sessions.any (fun e => e.1 = k)
  let chain := fun (code n : Nat) (s : State) => match n with
    | 0 => free code 48 s
    | 1 => if s.kp.mgmt.chain.isEmpty then err 1 s else ans code s.kp.mgmt.chain s
    | _ => err 1 s
  .next (s.manage src 5 (fun s =>
    let x := s.kp.mgmt
    match r with
    | .version => ans 4 [0x13] s
    | .capabilities => free 0x61 4 s
    | .algorithms => free 0x63 4 s
    | .digests => free 1 96 s
    | .certificate n => chain 2 n.val s
    | .challenge n => if n.val = 0 || (n.val = 1 && !x.chain.isEmpty) then free 3 144 s else err 1 s
    | .measurements i =>
      if 9 ≤ i.toNat && i.toNat ≠ 255 then err 1 s
      else
        let m := s.measurements (if i.toNat = 255 then [1, 2, 3, 4, 5, 6, 7, 8] else if i.toNat = 0 then [] else [i.toNat])
        ans 0x60 (8 :: m.1) m.2
    | .keyExchange k => free 0x64 192 (s.setMgmt { x with sessions := x.sessions.filter (fun e => e.1 ≠ k) ++ [(k, false)] })
    | .finish k root =>
      if !has k s then err 1 s
      else
        let good := match root, x.root with | some a, some b => a.map (fun y => y.toNat) = b | _, _ => false
        free 0x65 48 (s.setMgmt { x with sessions := x.sessions.map (fun e => if e.1 = k then (k, good) else e) })
    | .setCertificate n c => if n.val = 1 then ans 0x6E [1] (s.setMgmt { x with chain := c.map (fun y => y.toNat) }) else err 1 s
    | .heartbeat k => if has k s then ans 0x68 [] s else err 1 s
    | .keyUpdate k => if has k s then ans 0x69 [] s else err 1 s
    | .endSession k => if has k s then ans 0x6C [] (s.setMgmt { x with sessions := x.sessions.filter (fun e => e.1 ≠ k) }) else err 1 s
    | .psk => err 7 s))

/-- ARP_NEIGHBOUR_SOLICITATION (R426, R452, R703): what asks for the address of a routed fabric port, or of the management port, is answered; the
management port also answers an echo. `own` says that an address which DHCPv4 or SLAAC gave is the one asked for.
(DESIGN CHOICE: notes/assumptions/65.md.) -/
def execArpNeighbourSolicitation (m : Option (Fin 32)) (q : AddrReq) (own : Bool) (s : State) : Res :=
  let id := s.fld MODULE_ID_ID 0 0
  let static : Nat → Nat → Bool := fun k n => match s.kp.mgmt.static with
    | some x => if x.1 = k then ofBe (x.2.2.take (if k = 0 then 4 else 16)) = n else own
    | none => own
  .next (match m with
    | some m =>
      let up := s.portRouted m && s.fld PORT_STAT_STATE m 0 = 3
      let mac := (s.reg .PORT_MAC m 0).toNat
      (match q with
        | .arp ip => if up && s.fld FAB_CFG_IPV6 0 0 = 0 && ip.toNat = s.fld FAB_IPV4_PREFIX 0 0 * 65536 + id then s.send .frame [m.val, 7, 0, ip.toNat, mac] else s
        | .neighbour ip =>
          let mine := (s.fld FAB_PREFIX_HI_HI 0 0 * 2 ^ 48 + s.fld FAB_PREFIX_LO_LO 0 0) * 65536 + id
          if up && s.fld FAB_CFG_IPV6 0 0 = 1 && ip.toNat = mine then s.send .frame [m.val, 7, 1, ip.toNat, mac] else s
        | .echo _ => s)
    | none => match q with
      | .arp ip => if static 0 ip.toNat then s.send .mgmt [7, 0, ip.toNat] else s
      | .neighbour ip => if static 1 ip.toNat then s.send .mgmt [7, 1, ip.toNat] else s
      | .echo d => s.send .mgmt ([7, 2] ++ d.map (fun y => y.toNat)))

/-! ### PLDM (R706 to R708) -/

/-- GET_TID. -/
def execGetTid (src : MgmtSrc) (s : State) : Res := .next (s.pldm src 0 2 (fun s => (0, [s.kp.mgmt.tid], s)))

/-- SET_TID: 0 and 0xFF are no terminus IDs. -/
def execSetTid (src : MgmtSrc) (tid : BitVec 8) (s : State) : Res :=
  .next (s.pldm src 0 1 (fun s =>
    if tid.toNat = 0 || tid.toNat = 255 then (2, [], s) else (0, [], s.setMgmt { s.kp.mgmt with tid := tid.toNat })))

/-- The PLDM types (R706). -/
def pldmTypes : List Nat := [0, 2, 5]

/-- GET_PLDM_VERSION: the spec names no versions. -/
def execGetPldmVersion (src : MgmtSrc) (typ : BitVec 8) (s : State) : Res :=
  .next (s.pldm src 0 3 (fun s => if pldmTypes.contains typ.toNat then let f := s.freeList 4; (0, f.1, f.2) else (0x83, [], s)))

/-- The bytes of a set of numbers below 8 × n, as bits. -/
def bitBytes (l : List Nat) (n : Nat) : List Nat := leBytes (l.foldl (fun a k => a ||| 2 ^ k) 0) n

/-- GET_PLDM_TYPES. -/
def execGetPldmTypes (src : MgmtSrc) (s : State) : Res := .next (s.pldm src 0 4 (fun s => (0, bitBytes pldmTypes 8, s)))

/-- The command codes of a PLDM type (R706). -/
def pldmCommands (typ : Nat) : List Nat :=
  match typ with
  | 0 => [1, 2, 3, 4, 5]
  | 2 => [0x04, 0x0A, 0x0B, 0x10, 0x11, 0x21, 0x50, 0x51]
  | 5 => [0x01, 0x02, 0x10, 0x13, 0x14, 0x15, 0x16, 0x17, 0x18, 0x1A, 0x1B, 0x1C, 0x1D]
  | _ => []

/-- GET_PLDM_COMMANDS. -/
def execGetPldmCommands (src : MgmtSrc) (typ : BitVec 8) (s : State) : Res :=
  .next (s.pldm src 0 5 (fun s => if pldmTypes.contains typ.toNat then (0, bitBytes (pldmCommands typ.toNat) 32, s) else (0x83, [], s)))

/-- GET_PDR_REPOSITORY_INFO: the repository is not in the spec. -/
def execGetPdrRepositoryInfo (src : MgmtSrc) (s : State) : Res :=
  .next (s.pldm src 2 0x50 (fun s => let f := s.freeList 40; (0, f.1, f.2)))

/-- GET_PDR: nor are its records. (DESIGN CHOICE: notes/assumptions/69.md.) -/
def execGetPdr (src : MgmtSrc) (record : BitVec 32) (n : BitVec 16) (s : State) : Res :=
  .next (s.pldm src 2 0x51 (fun s => let f := s.freeList n.toNat; (0, leBytes record.toNat 4 ++ f.1, f.2)))

/-- The numeric sensors (R707). -/
def numericSensors : List Nat := [1, 2, 3, 4, 5, 6] ++ (List.range 8).map (· + 0x10) ++ (List.range 8).map (· + 0x18) ++ [0x20, 0x21, 0x22, 0x30]

/-- What a numeric sensor reads: the time offset is a register; `value` is what another converts (R707, R723). (DESIGN CHOICE: notes/assumptions/70.md.) -/
def State.sensor (s : State) (id value : Nat) : Nat := if id = 0x30 then s.fld TIME_STAT_OFFSET 0 0 else value

/-- GET_SENSOR_READING: operational state (0 enabled, 1 disabled) and reading. (DESIGN CHOICE: notes/assumptions/70.md.) -/
def execGetSensorReading (src : MgmtSrc) (id : BitVec 16) (value : BitVec 32) (s : State) : Res :=
  .next (s.pldm src 2 0x11 (fun s =>
    if !numericSensors.contains id.toNat then (0x80, [], s)
    else if s.kp.mgmt.disabled.contains id.toNat then (0, [1], s)
    else (0, 0 :: leBytes (s.sensor id.toNat value.toNat) 4, s)))

/-- GET_STATE_SENSOR_READINGS: 0x0100 the servo's state, 0x0101 the four LAPSE bits (R707). -/
def execGetStateSensorReadings (src : MgmtSrc) (id : BitVec 16) (s : State) : Res :=
  .next (s.pldm src 2 0x21 (fun s => match id.toNat with
    | 0x0100 => (0, [1, s.fld TIME_SRC_STATE 0 0], s)
    | 0x0101 => (0, [4, s.fld FLT_STAT_LAPSE_ENV 0 0, s.fld FLT_STAT_LAPSE_SCRUB 0 0, s.fld FLT_STAT_LAPSE_TEST 0 0, s.fld FLT_STAT_LAPSE_KEEPER 0 0], s)
    | _ => (0x80, [], s)))

/-- SET_EVENT_RECEIVER: events are off (0), sent to the receiver (1) or polled by it (2); another receiver's events do not wait for it (R708). -/
def execSetEventReceiver (src : MgmtSrc) (mode : Fin 3) (addr : Nat) (s : State) : Res :=
  .next (s.pldm src 2 4 (fun s =>
    let r := s.kp.events
    let r1 : Receiver := if r.addr = addr && mode.val ≠ 0 then { r with mode := mode } else { mode := mode, addr := addr }
    (0, [], s.setKp { s.kp with events := r1 })))

/-- POLL_FOR_PLATFORM_EVENT_MESSAGE: the oldest event that waits, with the events dropped since the one before it (R708). -/
def execPollForPlatformEventMessage (src : MgmtSrc) (s : State) : Res :=
  .next (s.pldm src 2 0x0B (fun s =>
    let r := s.kp.events
    match r.waiting with
    | [] => (0, [], s)
    | e :: l => (0, [e.cls] ++ leBytes r.dropped 2 ++ [e.kind, 0] ++ e.data, s.setKp { s.kp with events := { r with waiting := l, dropped := 0 } })))

/-- SET_NUMERIC_SENSOR_ENABLE. -/
def execSetNumericSensorEnable (src : MgmtSrc) (id : BitVec 16) (on : Bool) (s : State) : Res :=
  .next (s.pldm src 2 0x10 (fun s =>
    if !numericSensors.contains id.toNat then (0x80, [], s)
    else
      let l := s.kp.mgmt.disabled.filter (· ≠ id.toNat)
      (0, [], s.setMgmt { s.kp.mgmt with disabled := if on then l else l ++ [id.toNat] })))

/-- QUERY_DEVICE_IDENTIFIERS: part HT-SZ10-A and its stepping (R3, R706). -/
def execQueryDeviceIdentifiers (src : MgmtSrc) (s : State) : Res :=
  .next (s.pldm src 5 1 (fun s => (0, [0x0A, s.fld MOD_IDENT_STEPPING 0 0], s)))

/-- GET_FIRMWARE_PARAMETERS: the SVN of both banks of the device booted, and their versions, which the spec does not place (R706). -/
def execGetFirmwareParameters (src : MgmtSrc) (s : State) : Res :=
  .next (s.pldm src 5 2 (fun s =>
    let d := s.fld FW_STAT_DEVICE 0 0
    let f := s.freeList 16
    (0, leBytes (fwSvn (s.fwBank d 0)) 4 ++ leBytes (fwSvn (s.fwBank d 1)) 4 ++ f.1, f.2)))

end Sys2Proof.Machine
end

