-- ==== Sys2Proof/Machine/Debug.lean ====
section
/-!
DEFINITION. Loopbacks, router turn-back, the debug port and halted threads (R725 to R748). A command that either the Keeper or the JTAG debugger may
give names the agent, `none` for the debugger.
(DESIGN CHOICE: notes/assumptions/77.md.)
-/
namespace Sys2Proof.Machine

/-- What DBG_ACCESS answers: a status and data. -/
def State.dbgAnswer (s : State) (st v : Nat) : State := s.send .jtag [st, v]

/-- The debug level is FULL. -/
def State.dbgFull (s : State) : Bool := s.fld DBG_LOCK_LEVEL 0 0 = 2

/-- A write of a register at a module offset by the Keeper, or by the debugger at level FULL (R747, R748). -/
def State.keeperOrFull (s : State) (ag : Option Agent) (off len : Nat) (f : State → State) : State :=
  match ag with
  | some a => if a.keeper then s.regWrite a off len f else s.reply 0 0x0402 0
  | none => if s.dbgFull then (f s).dbgAnswer 0 0 else s.dbgAnswer 0x0A02 0

/-! ### Loopbacks (R725 to R729, R748) -/

/-- The offset of a register of the debug block. -/
def dbgOff (o : Nat) : Nat := 0x21000080000 + o

/-- The interface is out of service (R727, R743). -/
def State.outOfService (s : State) (i : Nat) : Bool :=
  s.fld STRAP_STAT_TEST_MODE 0 0 = 1 || (i < 32 && s.fld PORT_CFG_EN i 0 = 0) || (34 ≤ i && i < 42 && s.fld HBM_STAT_STATE (i - 34) 0 = 4)

/-- The lanes that an interface has (R16, R459, R725). (DESIGN CHOICE: notes/assumptions/74.md.) -/
def State.loopLanes (s : State) (i : Nat) : Nat :=
  if i < 32 then 4
  else if i = 32 then (if s.fld STRAP_STAT_HOST_MODE 0 0 = 1 then 8 else 16)
  else if i = 33 then 8
  else if i < 42 then 16
  else if i = 42 then 1
  else 4

/-- A GO write is refused (R725 to R727): the interface is in service, its depth or pattern is reserved, not permitted or not supported, or it
has no such lane. (DESIGN CHOICE: notes/assumptions/74.md.) -/
def State.loopRefused (s : State) (i : Nat) (v : Word) : Bool :=
  let depth := bitsOf v 2 0
  let pat := bitsOf v 25 24
  let far := i < 32 && bitsOf v 26 26 = 1
  !s.outOfService i || 4 < depth || (i = 43 && depth = 4) || (!far && (depth = 0 || (depth < 3 && pat ≠ 3))) || 2 ^ s.loopLanes i ≤ bitsOf v 23 8

/-- Record the outcome of a GO write in LAST_LB. -/
def State.lastLb (s : State) (i code st : Nat) : State := ((s.setFld LAST_LB_CODE 0 0 code).setFld LAST_LB_INDEX 0 0 i).setFld LAST_LB_STATE 0 0 st

/-- The read-write fields of LB_CTL_i take a written value. -/
def State.putLb (s : State) (i : Nat) (v : Word) : State :=
  s.setReg .LB_CTL_i 0 i (RegName.written .LB_CTL_i true 63 0 (s.reg .LB_CTL_i 0 i) v)

/-- LOOPBACK_START: a write of LB_CTL_i with GO = 1. -/
def execLoopbackStart (ag : Option Agent) (lb : Fin 44) (v : Word) (s : State) : Res :=
  .next (s.keeperOrFull ag (dbgOff (0x100 + 16 * lb.val)) 8 (fun s =>
    if s.loopRefused lb v then ((s.setFld LB_CTL_i_STATE 0 lb 2).setFld LB_CTL_i_CODE 0 lb 0x0A01).lastLb lb 0x0A01 2
    else ((((s.putLb lb v).setFld LB_CTL_i_GO 0 lb 1).setFld LB_CTL_i_STATE 0 lb 1).setFld LB_CTL_i_CODE 0 lb 0).lastLb lb 0 1))

/-- LOOPBACK_STOP: a write of LB_CTL_i with GO = 0 stops the loopback at the end of its step. -/
def execLoopbackStop (ag : Option Agent) (lb : Fin 44) (v : Word) (s : State) : Res :=
  .next (s.keeperOrFull ag (dbgOff (0x100 + 16 * lb.val)) 8 (fun s =>
    let s1 := (s.putLb lb v).setFld LB_CTL_i_GO 0 lb 0
    s1.lastLb lb 0 (s1.fld LB_CTL_i_STATE 0 lb)))

/-- LOOPBACK_STEP: a step of 50 µs ends with the errors found and the lanes aligned; a far-end responder checks nothing. The rows that an HBM stack's
own test mode wrote, as module offset and bytes, are zeroised before the stack returns to service (R726 to R729). -/
def execLoopbackStep (lb : Fin 44) (errors : BitVec 32) (lock : BitVec 16) (rows : List (BitVec 41 × Nat)) (s : State) : Res :=
  .next (if s.fld LB_CTL_i_STATE 0 lb ≠ 1 then s
    else
      let far := lb.val < 32 && s.fld LB_CTL_i_ROLE 0 lb = 1
      let depth := s.fld LB_CTL_i_DEPTH 0 lb
      let lanes := if 3 ≤ depth then s.fld LB_CTL_i_LANES 0 lb else 65535
      let s1 := s.bump LB_STAT_i_STEPS 0 lb
      let s2 := if far then s1
        else (s1.setFld LB_STAT_i_ERRORS 0 lb (min 0xFFFFFFFF (s1.fld LB_STAT_i_ERRORS 0 lb + errors.toNat))).setFld LB_STAT_i_LOCK 0 lb (lock.toNat &&& lanes)
      let mine := fun (a : Nat) (n : Nat) => hbmAddr (lb.val - 34) 0 ≤ a && a + n ≤ hbmAddr (lb.val - 34) 0 + 0x860000000
      let s3 := if 34 ≤ lb.val && lb.val < 42 && depth = 4 then
          (rows.filter (fun r => mine r.1.toNat r.2)).foldl (fun s r => s.initBytes r.1.toNat r.2) s2 else s2
      if s3.fld LB_CTL_i_GO 0 lb = 0 then s3.setFld LB_CTL_i_STATE 0 lb 0 else s3)

/-! ### Router turn-back (R730, R747) -/

/-- Replace the state of test and debug. -/
def State.setDebug (s : State) (x : Test) : State := s.setKp { s.kp with test := x }

/-- The module offset of a router's RTR_TURN. -/
def turnOff (n : Nat) : Nat := 0x20000000000 + n / 1296 * 0x1000000 + 0x100000 + n % 1296 * 0x100 + 0xA0

/-- A write of RTR_TURN: one that names a port not DOWN at its own router leaves the register; a TX_GO while a test runs is ignored. TX_GO sends the test
flits. -/
def State.putTurn (s : State) (n : Nat) (v : Word) : State :=
  let down := s.fld RTR_LINKERR_DOWN n 0
  let go := bitsOf v 6 6 = 1
  let port := bitsOf v 5 4
  if bitsOf v 3 0 &&& (15 - down) ≠ 0 || (go && nbit down port = 0) then s
  else if go && s.fld RTR_TURN_DONE n 0 = 0 then s
  else
    let s1 := s.setReg .RTR_TURN n 0 (RegName.written .RTR_TURN true 63 0 (s.reg .RTR_TURN n 0) v)
    let count := bitsOf v 31 16
    if !go || count = 0 then s1
    else ((s1.setDebug { s1.kp.test with turns := Sparse.set 0 s1.kp.test.turns n 0 }).setFld RTR_TURN_DONE n 0 0).send .packet [n, port, 0, count]

/-- RTR_TURN_TB_WRITE: a write of RTR_TURN that sets which ports turn back. -/
def execRtrTurnTbWrite (ag : Option Agent) (n : CoreId) (v : Word) (s : State) : Res :=
  .next (s.keeperOrFull ag (turnOff n.val) 8 (fun s => s.putTurn n (v &&& ~~~(64 : Word))))

/-- TURN_BACK_START: a write of RTR_TURN with TX_GO. -/
def execTurnBackStart (ag : Option Agent) (n : CoreId) (v : Word) (s : State) : Res :=
  .next (s.keeperOrFull ag (turnOff n.val) 8 (fun s => s.putTurn n (v ||| 64)))

/-- TURN_BACK_FLIT_RETURN: a test flit is back; `ok` says that it matches and passes its CRC. -/
def execTurnBackFlitReturn (n : CoreId) (ok : Bool) (s : State) : Res :=
  .next (if s.fld RTR_TURN_DONE n 0 = 1 then s
    else
      let k := Sparse.get 0 s.kp.test.turns n + 1
      let s1 := s.setDebug { s.kp.test with turns := Sparse.set 0 s.kp.test.turns n k }
      let s2 := if ok then s1 else s1.bump RTR_TURN_ERR n 0
      if s2.fld RTR_TURN_COUNT n 0 ≤ k then s2.setFld RTR_TURN_DONE n 0 1 else s2)

/-- TURN_BACK_TIMEOUT: 100 µs have passed since the last flit. -/
def execTurnBackTimeout (n : CoreId) (s : State) : Res := .next (s.setFld RTR_TURN_DONE n 0 1)

/-! ### The test access port (R732, R743) -/

/-- A JTAG instruction is in force. -/
def State.jtag (s : State) (i : JtagIr) : State := s.setDebug { s.kp.test with ir := i }

/-- IDCODE: stepping, part, the manufacturer's identity from fuses, and 1. -/
def execIdcode (s : State) : Res :=
  .next ((s.jtag .idcode).send .jtag [0xB0000000 + 0x000A <<< 12 + Config.manufacturer.toNat <<< 1 + 1])

/-- BYPASS. -/
def execBypass (s : State) : Res := .next (s.jtag .bypass)

/-- SAMPLE_PRELOAD: the cells capture the connector's `pins`, which are shifted out, or take what is shifted in.
(DESIGN CHOICE: notes/assumptions/78.md.) -/
def execSamplePreload (pins : List Bool) (load : Option (List Bool)) (s : State) : Res :=
  let s1 := (s.jtag .sample).send .jtag (pins.map (fun b => if b then 1 else 0))
  .next (s1.setDebug { s1.kp.test with cells := load.getD pins })

/-- EXTEST: the cells drive the connector and capture its inputs. (DESIGN CHOICE: notes/assumptions/78.md.) -/
def execExtest (pins : List Bool) (s : State) : Res :=
  let s1 := (s.jtag .extest).send .pin (3 :: s.kp.test.cells.map (fun b => if b then 1 else 0))
  .next (s1.setDebug { s1.kp.test with cells := pins })

/-- The destructive tests are available: TEST_MODE = 1 and level FULL (R732, R743). Where they are not, the port stands in BYPASS.
(DESIGN CHOICE: notes/assumptions/75.md.) -/
def State.factory (s : State) : Bool := s.fld STRAP_STAT_TEST_MODE 0 0 = 1 && s.dbgFull

/-- n bytes from module offset a hold contents that the spec does not give, each byte a free value of its own. -/
def State.spoil (s : State) (a n : Nat) : State :=
  let f := s.free
  f.2.initBytes a n |>.writeBytes a ((List.range n).map (fun i => f.1 / 256 ^ i % 256))

/-- The scratch and cellar of a parcel's cores hold contents that the spec does not give. (DESIGN CHOICE: notes/assumptions/75.md.) -/
def State.spoilSram (s : State) (p : Nat) : State :=
  (List.range 1296).foldl (fun s i => (s.spoil (bankAddr (p * 1296 + i) 0) 0x40000).spoil (bankAddr (p * 1296 + i) 0x100000) 0x200000) s

/-- SCAN: the parcel's scan chains shift: its logic and SRAM hold what the scan data left, which the spec does not give; nothing of it runs until a
Cold reset. (DESIGN CHOICE: notes/assumptions/75.md.) -/
def execScan (p : Fin 8) (s : State) : Res :=
  .next (if !s.factory then s.jtag .bypass
    else
      let cores := (List.range 1296).map (fun i => p.val * 1296 + i)
      let s1 := cores.foldl (fun s c => (s.setCore c { inReset := true }).routerReset (fun n => coreP n = p) c) ((s.jtag .scan).parcelReset p)
      let f := (s1.spoilSram p).free
      f.2.send .jtag [f.1])

/-- MBIST: self-test of the parcel's scratch and cellar, whose contents it destroys; what it answers is not given.
(DESIGN CHOICE: notes/assumptions/75.md.) -/
def execMbist (p : Fin 8) (s : State) : Res :=
  .next (if !s.factory then s.jtag .bypass
    else
      let f := ((s.jtag .mbist).spoilSram p).free
      f.2.send .jtag [f.1])

/-- HBM_1500: data shifted through a stack's IEEE 1500 test port; what the stack's own port answers is not given.
(DESIGN CHOICE: notes/assumptions/75.md.) -/
def execHbm1500 (p : Fin 8) (data : List Bool) (s : State) : Res :=
  .next (if !s.factory then s.jtag .bypass
    else
      let f := (s.jtag .hbm1500).free
      f.2.send .jtag [p.val, f.1 % 2 ^ data.length])

/-! ### The debug port (R733 to R735) -/

/-- The debug level reaches a thread: FULL, or TENANT for a Tenant thread of a core bound to its plot. -/
def State.dbgThread (s : State) (c t : Nat) : Bool :=
  s.dbgFull || (s.fld DBG_LOCK_LEVEL 0 0 = 1 && s.world c t = 0 && s.fld CTX_BIND_BOUND c 0 = 1 && s.fld CTX_BIND_PLOT c 0 = s.fld DBG_LOCK_PLOT 0 0)

/-- Who the debugger's accesses of memory are made as. -/
def State.dbgWho (s : State) : Who :=
  if s.dbgFull then ⟨1, 1, 0, none, none, 0, none⟩
  else ⟨0, 1, s.fld DBG_LOCK_PLOT 0 0, none, none, Sparse.get 0 s.epochs (s.fld DBG_LOCK_PLOT 0 0), none⟩

/-- DBG_LOCK and the nonce are reached at every level (R748). -/
def dbgOpen (r : RegName) : Bool := r = .DBG_LOCK || r = .DBG_NONCE_i

/-- The debug level reaches a block of memory or registers (R733): a TENANT level reaches Tenant locations of its plot's cores and its plot's HBM,
DBG_RUN and DBG_STAT of its cores. -/
def State.dbgReaches (s : State) (p : Place) : Bool :=
  s.dbgFull || (match p with
    | .bank _ _ | .hbm _ _ => s.fld DBG_LOCK_LEVEL 0 0 = 1
    | .coreMmr c _ => s.fld DBG_LOCK_LEVEL 0 0 = 1 && s.coreIn c (s.fld DBG_LOCK_PLOT 0 0) && (p.regAt.map (fun r => coreMmrDebug r.r)).getD false
    | .root _ => (p.regAt.map (fun r => dbgOpen r.r)).getD false
    | _ => false)

/-- A register of a thread as the debugger reads it. -/
def State.dbgRead (s : State) (c t : Nat) (r : DbgReg) : Nat :=
  let h := s.thr c t
  match r with
  | .scalar n => (Sparse.get 0 h.x n).toNat
  | .vector n => (Sparse.get 0 h.v n).toNat
  | .predicate n => nbit h.p.toNat n
  | .loop n => Sparse.get 0 h.lc n
  | .mailbox n => (h.mbox n).val.toNat
  | .state num => match sregAt num with
    | some (q, i) => (s.gets c t q i).toNat
    | none => 0

/-- The debugger writes a register of a thread, at any level of it; wstat.WORLD and wstat.LEVEL only at level FULL (R739, R745). A mailbox is then FULL. -/
def State.dbgWrite (s : State) (c t : Nat) (r : DbgReg) (v : Nat) : State :=
  let h := s.thr c t
  match r with
  | .scalar n => s.setThr c t { h with x := Sparse.set 0 h.x n (BitVec.ofNat 64 v) }
  | .vector n => s.setThr c t { h with v := Sparse.set 0 h.v n (BitVec.ofNat 512 v) }
  | .predicate n => s.landOne c t ⟨.p n, v, 0⟩
  | .loop n => s.setThr c t { h with lc := Sparse.set 0 h.lc n (v % 2 ^ 32) }
  | .mailbox n => s.setThr c t (h.setMbox n { h.mbox n with st := .full, val := BitVec.ofNat 64 v })
  | .state num => match sregAt num with
    | some (q, i) =>
      let s1 := s.sets c t (s.world c t) q i (BitVec.ofNat 64 v)
      if q = .wstat && s.dbgFull then
        (s1.setTf wstat_WORLD c t (nbits v wstat_WORLD.hi wstat_WORLD.lo)).setTf wstat_LEVEL c t (nbits v wstat_LEVEL.hi wstat_LEVEL.lo)
      else s1
    | none => s

/-- DBG_ACCESS: a read, or a write of a value; an access above the level answers DBG_LOCKED in place of the data (R732, R733). Registers whose
write is a command of its own are written by that command. `far` is what another module answers. -/
def execDbgAccess (x : DbgTarget) (write : Option (BitVec 512)) (far : Status × BitVec 512) (s : State) : Res :=
  let s0 := s.jtag .dbgAccess
  .next (match x with
    | .register c t r =>
      if !s.dbgThread c t then s0.dbgAnswer 0x0A02 0
      else match write with
        | none => s0.dbgAnswer 0 (s.dbgRead c t r)
        | some v => (s0.dbgWrite c t r v.toNat).dbgAnswer 0 0
    | .memory a n =>
      let w := s.dbgWho
      let at_ : Option Place := if s.fld DBG_LOCK_LEVEL 0 0 = 0 then some (s.place a)
        else match s.translate w a write.isSome with | .to p => some p | _ => none
      match at_ with
      | none => s0.dbgAnswer 0x0402 0
      | some p =>
        if !s.dbgReaches p then s0.dbgAnswer 0x0A02 0
        else if p.isMmr && s.mmrShape p a n.val then s0.dbgAnswer 0x0402 0
        else if p.isMmr then
          match p.regAt with
          | none => s0.dbgAnswer 0x0402 0
          | some r => match write with
            | none => let q := s0.mmrRead p ⟨1, 1, 0, none, none, 0, none⟩ n.val; q.2.dbgAnswer 0 (q.1.toNat % 2 ^ (8 * min n.val 8))
            | some v =>
              if r.r.ownCommand then s0.dbgAnswer 0 0
              else (s0.putPlace p r ⟨1, 1, 0, none, none, 0, none⟩ (if n.val = 4 then 4 else 8) (BitVec.ofNat 64 v.toNat)).dbgAnswer 0 0
        else match write with
          | none => let q := s0.readVia w a n far.1.toNat far.2.toNat; q.2.2.dbgAnswer q.1 (if q.1 = 0 then q.2.1 else 0)
          | some v => let q := s0.writeVia w a n v.toNat far.1.toNat; q.2.2.dbgAnswer q.1 0)

/-- DEBUG_UNLOCK: the bytes of a request; `sig` says that its signature verifies under the key that it needs (R734). Granted or not, it replaces the
nonce. (DESIGN CHOICE: notes/assumptions/76.md.) -/
def execDebugUnlock (q : List (BitVec 8)) (sig : Bool) (s : State) : Res :=
  let b := q.map (fun x => x.toNat)
  let lvl := b.getD 0 0
  let plot := b.getD 1 0
  let key := ofLe (bytesAt b 4 4)
  let nonce := (List.range 2).flatMap (fun i => leBytes (s.reg .DBG_NONCE_i 0 i).toNat 8)
  let formed := b.length = 120 && (lvl = 1 || lvl = 2) && ofLe (bytesAt b 2 2) = 0 && (if lvl = 1 then key = 0 && plot < 64 else plot = 0)
  let verified := sig && bytesAt b 8 16 = nonce
    && (if lvl = 1 then s.kp.mgmt.root.isSome else key < 4 && nbit (s.fld FUSE_STAT_REVOKED 0 0) key = 0)
  let s1 := s.newNonce
  .next (if formed && (verified || !s.imgSecure) then
      let s2 := (s1.setFld DBG_LOCK_LEVEL 0 0 lvl).setFld DBG_LOCK_PLOT 0 0 (if lvl = 1 then plot else 0)
      if s.fld DBG_LOCK_LEVEL 0 0 = lvl && s.fld DBG_LOCK_PLOT 0 0 = s2.fld DBG_LOCK_PLOT 0 0 then s2 else s2.measuredFree 7
    else s1)

/-- DBG_LOCK_WRITE: LOCK returns the level to LOCKED, at every level (R735, R748). -/
def execDbgLockWrite (ag : Option Agent) (v : Word) (s : State) : Res :=
  let put := fun (s : State) => if nbit v.toNat 0 = 1 then s.dbgLock else s
  .next (match ag with
    | some a => if a.keeper then s.regWrite a (dbgOff 0) 8 put else s.reply 0 0x0402 0
    | none => (put s).dbgAnswer 0 0)

/-! ### Halted threads (R738 to R742) -/

/-- The threads that a byte of DBG_RUN names. -/
def named (mask : BitVec 8) : List Nat := (List.range 8).filter (fun k => nbit mask.toNat k = 1)

/-- A write of a byte of DBG_RUN, carried out where the debug level reaches every thread that it names (R733, R746). -/
def State.dbgRun (s : State) (c : Nat) (mask : BitVec 8) (f : State → Nat → State) : State :=
  if (named mask).all (s.dbgThread c) then ((named mask).foldl f s).dbgAnswer 0 0 else s.dbgAnswer 0x0A02 0

/-- DBG_HALT: the named threads are to halt; a SLEEPING thread halts at once and keeps its wait. -/
def execDbgHalt (c : CoreId) (mask : BitVec 8) (s : State) : Res :=
  .next (s.dbgRun c mask (fun s k => match (s.thr c k).st with
    | .stopped | .suspended | .halted => s
    | .sleeping => if (s.thr c k).stopReq then s else s.halt c k 8
    | _ => s.setThr c k { s.thr c k with haltReq := true }))

/-- THREAD_HALT: a thread that HALT names, or that a single step has left waiting for its reply, is at a word boundary. A stop due at the same boundary
comes first (R738, R740). -/
def execThreadHalt (c : CoreId) (k : ThreadId) (s : State) : Res :=
  let h := s.thr c k
  .next (if !h.haltReq || h.stopReq then s else match h.st with
    | .ready | .sleeping => s.halt c k (if h.stepReq then 7 else 8)
    | _ => s)

/-- A HALTED thread returns to the state it held before: a wake that came meanwhile ends its wait, or it waits on (R738). -/
def State.unhalt (s : State) (c k : Nat) (step : Bool) : State :=
  let h := s.thr c k
  if h.st ≠ .halted then s
  else
    let was := h.preHalt.getD .ready
    let s1 := s.setThr c k { h with
      st := was, preHalt := none, heldWake := none, sendTimer := false, stepReq := step, waitStart := (s.core c).cyc - h.waitStart }
    if was ≠ .sleeping then s1
    else match h.heldWake, h.wait with
      | some _, .sleep => s1.ready c k
      | some tag, .fe op dest a opt data => if h.poll then s1.feAgain c k op dest a data opt none else s1.wakeThread c k tag
      | _, _ => s1.mbWake c k

/-- DBG_RESUME. -/
def execDbgResume (c : CoreId) (mask : BitVec 8) (s : State) : Res := .next (s.dbgRun c mask (fun s k => s.unhalt c k false))

/-- DBG_STEP: the named threads issue one word and halt again. -/
def execDbgStep (c : CoreId) (mask : BitVec 8) (s : State) : Res := .next (s.dbgRun c mask (fun s k => s.unhalt c k true))

/-- DBG_DISCARD: the send buffer of a thread whose hold limit has passed while it is HALTED is cleared (R742). -/
def execDbgDiscard (c : CoreId) (mask : BitVec 8) (s : State) : Res :=
  .next (s.dbgRun c mask (fun s k =>
    let h := s.thr c k
    if h.st = .halted && h.sendTimer then
      ((s.setThr c k { h with send := [] }).setTf SEND_STAT_STAGED c k 0).setTf SEND_STAT_DISCARDED c k 1
    else s))

/-- CHAN_HOLD_EXPIRY: a thread has been HALTED with staged words for `us` µs (R742). -/
def execChanHoldExpiry (c : CoreId) (k : ThreadId) (us : BitVec 32) (s : State) : Res :=
  let h := s.thr c k
  .next (if h.st ≠ .halted || h.sendTimer || s.tf SEND_STAT_STAGED c k = 0 || us.toNat < s.fld DBG_HOLD_CHAN_HOLD_LIMIT 0 0 then s
    else
      let e := s.fld DBG_STAT_EXPIRED c 0
      ((s.setThr c k { h with sendTimer := true }).setFld DBG_STAT_EXPIRED c 0 (e ||| 2 ^ k.val)).send .dbg [c, k])

end Sys2Proof.Machine
end

