-- ==== Sys2Proof/Machine/Power.lean ====
section
/-!
DEFINITION. Power-up, power-down, the environment and the power governor (R749 to R766). Temperatures are in 1/1000 °C, power in mW.
-/
namespace Sys2Proof.Machine

/-- Replace the power state. -/
def State.setPower (s : State) (x : Power) : State := s.setKp { s.kp with power := x }

/-- FAULT_N is driven low (R751). (DESIGN CHOICE: notes/assumptions/82.md.) -/
def State.faultLow (s : State) : Bool :=
  s.kp.power.fault || s.fld FLT_STAT_LAPSE_ENV 0 0 = 1 || s.fld FLT_STAT_LAPSE_SCRUB 0 0 = 1 || s.fld FLT_STAT_LAPSE_TEST 0 0 = 1
    || s.fld FLT_STAT_LAPSE_KEEPER 0 0 = 1

/-- A sensor's threshold event (R707, R754, R760): the sensor, whether the threshold is crossed, and whether it is a lower one.
(DESIGN CHOICE: notes/assumptions/70.md.) -/
def State.sensorEvent (s : State) (id : Nat) (on low : Bool) : State :=
  s.platformEvent 0 0 (leBytes id 2 ++ [if on then 1 else 0, if low then 1 else 0])

/-- The envelope is left (R598, R760). (DESIGN CHOICE: notes/assumptions/82.md.) -/
def State.envLapse (s : State) : State :=
  if s.fld FLT_STAT_LAPSE_ENV 0 0 = 1 then s else (s.setFld FLT_STAT_LAPSE_ENV 0 0 1).faultRec 0x11 0x0E 0xFF 0 0

/-- The rails but VAON go off (R759, R760): commands end as at a Module reset, and every domain except always-on loses its state.
(DESIGN CHOICE: notes/assumptions/80.md.) -/
def State.railsOff (s : State) : State :=
  let s1 := s.boundPlots.foldl (fun s n => s.beginTeardown n [] none 0 false) s.hangAbort
  let s2 := (List.range 8).foldl (fun s p => (s.setFld RESET_STAT_STATE p 0 0).clearDomain p 3 0) s1
  let s3 := s2.clearModule
  let s4 : State := { s3 with mem := [], tags := [], bad := [], cores := [], dmas := [] }
  ((s4.setFld PWR_STAT_PWR_GOOD 0 0 0).setKp { s4.kp with modReset := 0 }).send .pin [0, 0]

/-! ### Power-up (R540, R752, R756) -/

/-- The straps, sampled at the end of AUX power-up, pin i at bit i (R540, R752). (DESIGN CHOICE: notes/assumptions/3.md.) -/
def State.latchStraps (s : State) (v : Nat) : State :=
  let put := fun (f : Field) (hi lo : Nat) (s : State) => s.setFld f 0 0 (nbits v hi lo)
  let s1 := put STRAP_STAT_FEED_ID 15 12 (put STRAP_STAT_SLOT_ID 11 4 (put STRAP_STAT_HOST_MODE 3 2 (put STRAP_STAT_BOOT_SRC 1 0 s)))
  let s2 := put STRAP_STAT_SEC_LOCK 19 19 (put STRAP_STAT_PROFILE_DEF 18 17 (put STRAP_STAT_PROFILE_PIN_EN 16 16 s1))
  put STRAP_STAT_TEST_MODE 21 21 (put STRAP_STAT_PTP_SRC 20 20 s2)

/-- AUX_POWER_UP: AUX enters its range: straps are latched and the ROM starts a bundle, from SPI NOR with the verdicts `sigs` on its banks, or waits for
the host's, or takes the one fetched by TFTP with the verdict on it (R714, R743, R756 steps 1 to 4). -/
def execAuxPowerUp (straps : BitVec 22) (sigs : Vector Bool 4) (tftp : Option (List (BitVec 8) × Bool)) (s : State) : Res :=
  .next (if s.kp.power.aux then s
    else
      let s1 := ((s.setPower { s.kp.power with aux := true }).latchStraps straps.toNat).newNonce
      let s2 := if s1.fld STRAP_STAT_TEST_MODE 0 0 = 1 then (s1.setFld FLT_STAT_LAPSE_SCRUB 0 0 1).setFld FLT_STAT_LAPSE_TEST 0 0 1 else s1
      match s2.fld STRAP_STAT_BOOT_SRC 0 0, tftp with
      | 2, _ => s2.setFirm { s2.kp.firm with recovery := 2 }
      | 3, some b => s2.romRecover (b.1.map (fun x => x.toNat)) b.2 sigs.toList
      | 3, none => s2.setFirm { s2.kp.firm with recovery := 3 }
      | _, _ => s2.romSpi sigs.toList)

/-- RAIL_POWER_UP: with POWER_EN high and a feed in range, once the ROM is done, the rails ramp, the stacks train (bit p of `bad` where stack p's training
fails), PWR_GOOD rises, the NVMe device is powered where one is `present`, and the Module reset is released, unless MOD_RESET_N holds it (R755, R756 steps
5 to 8, R759). (DESIGN CHOICE: notes/assumptions/80.md.) -/
def execRailPowerUp (feedA feedB present : Bool) (bad : BitVec 8) (s : State) : Res :=
  .next (if !s.kp.power.aux || !s.fwRuns || s.kp.firm.recovery ≠ 0 || s.fld PWR_STAT_PWR_GOOD 0 0 = 1 || s.kp.power.trip || !(feedA || feedB) then s
    else
      let s1 := (s.setFld PWR_STAT_FEED_A_OK 0 0 (if feedA then 1 else 0)).setFld PWR_STAT_FEED_B_OK 0 0 (if feedB then 1 else 0)
      let s2 := ((s1.setFld PWR_STAT_POWER_EN 0 0 1).setFld PWR_STAT_PWR_GOOD 0 0 1).send .pin [0, 1]
      let s3 := (List.range 8).foldl (fun s p => s.trainStack p (nbit bad.toNat p = 1)) s2
      let s4 := s3.loadKeeper (List.range 10368)
      let s5 := s4.setRack { s4.kp.rack with nvmeOn := present }
      let s6 := if present then (s5.nvmeCmd 4 0 0 0).2 else s5
      (s6.setFld PROFILE_STAT_STATE 0 0 0).setKp { s6.kp with modReset := if s6.kp.pinLow then 4 else 5 })

/-! ### Power-down and loss (R754, R759) -/

/-- POWER_EN_FALL. -/
def execPowerEnFall (s : State) : Res :=
  let s1 := s.setFld PWR_STAT_POWER_EN 0 0 0
  .next (if s1.fld PWR_STAT_PWR_GOOD 0 0 = 1 then s1.railsOff else s1)

/-- FEED_DISCONNECT: a feed (A, or B) has been out of range for 10 µs. The loss of both ends power, and counts as a failure of the module. -/
def execFeedDisconnect (b : Bool) (s : State) : Res :=
  let mine := if b then PWR_STAT_FEED_B_OK else PWR_STAT_FEED_A_OK
  let other := if b then PWR_STAT_FEED_A_OK else PWR_STAT_FEED_B_OK
  .next (if s.fld mine 0 0 = 0 then s
    else
      let s1 := ((s.setFld mine 0 0 0).bump PWR_EVT_FEED_LOSS 0 0).sensorEvent (if b then 3 else 1) true true
      if s1.fld other 0 0 = 1 || s1.fld PWR_STAT_PWR_GOOD 0 0 = 0 then s1
      else (((s1.railsOff).setFld FLT_STAT_LAPSE_ENV 0 0 1).faultRec 0x11 0x0E 0xFF 0 0).rackFail)

/-- FEED_RECONNECT: a feed has been in range for 100 ms. -/
def execFeedReconnect (b : Bool) (s : State) : Res := .next (s.setFld (if b then PWR_STAT_FEED_B_OK else PWR_STAT_FEED_A_OK) 0 0 1)

/-- AUX_LOSS: a Cold reset: everything is as after reset but what fuses and SPI NOR hold: the repair summary, the fault records copied there, the lists of
retired pages, the partner and the counts of racking (R420, R533, R634, R635, R688, R718, R724, R759). (DEDUCED: notes/assumptions/72.md.)
(DEDUCED: notes/assumptions/81.md.) -/
def execAuxLoss (s : State) : Res :=
  let stays : List RegName := [.FUSE_STAT, .PORT_MAC, .SPARE_AVAIL, .REPAIR_SUM, .RACK_PARTNER]
  let log : List RegName := [.FLT_REC_W0, .FLT_REC_W1, .FLT_REC_W2, .FLT_REC_W3]
  let of := fun (l : List RegName) (k : Nat) => l.any (fun r => k / 2 ^ 40 = r.ctorIdx)
  let kp : Keeper := {
    hbm := Sparse.mapVals {} (fun x : Stack => { x with dirty := [], pdown := 0 }) s.kp.hbm
    img := { slots := s.kp.img.slots, repaired := s.kp.img.repaired }
    rep := { saved := s.kp.rep.saved, rows := s.kp.rep.rows, stewards := s.kp.rep.stewards, factory := s.kp.rep.factory }
    rack := { partner := s.kp.rack.partner, hosted := s.kp.rack.hosted, secs := s.kp.rack.secs }
    firm := { banks := s.kp.firm.banks, boots := s.kp.firm.boots }
    fab := { cursor := s.sent.length } }
  let s1 : State := { State.reset with
    pending := s.pending, sent := s.sent, freeCtr := s.freeCtr, kp := kp
    regs := Sparse.keep (fun k => of stays k || (of log k && !s.kp.flash.contains (k % 2 ^ 20))) s.regs }
  let still := fun (f : Field) (u : Nat) (t : State) => t.setFld f u 0 (s.fld f u 0)
  let s2 := still RACK_STAT_FAILS 0 (still RACK_STAT_HOURS 0 s1)
  let s3 := (List.range 8).foldl (fun t p => still HBM_STAT_PC_OFF p (still HBM_STAT_RETIRED p t)) s2
  .next (((s3.setFld FUSE_STAT_OWNED 0 0 0).send .pin [0, 0]).send .pin [2, 1])

/-! ### The environment (R751, R760) -/

/-- THERMAL_TRIP: a junction or HBM sensor is at its critical value. -/
def execThermalTrip (s : State) : Res :=
  let s1 := ((s.railsOff).setPower { s.railsOff.kp.power with trip := true }).send .pin [2, 0]
  .next (if s.kp.power.trip then s else (((s1.bump PWR_EVT_TRIPS 0 0).setFld FLT_STAT_LAPSE_ENV 0 0 1).faultRec 0x11 0x0E 0xFF 0 0))

/-- THERM_TRIP_RELEASE: POWER_EN has been low for 1 s after a trip. -/
def execThermTripRelease (s : State) : Res :=
  .next (if s.kp.power.trip && s.fld PWR_STAT_POWER_EN 0 0 = 0 then (s.setPower { s.kp.power with trip := false }).send .pin [2, 1] else s)

/-- COOLANT_ALARM: the inlet and outlet temperatures and the flow in ml/min; `long` says that the flow has been low for 5 s. Caps come and go with their
conditions; a critical value powers the module down as POWER_EN falling does. (DESIGN CHOICE: notes/assumptions/79.md.) -/
def execCoolantAlarm (inlet outlet flow : Nat) (long : Bool) (s : State) : Res :=
  let s1 := s.setPower { s.kp.power with inlet := 45000 < inlet, flow := flow < 2000 }
  let out := inlet < 15000 || 45000 < inlet || 65000 < outlet || flow < 2000 || 4000 < flow
  let s2 := if out then s1.envLapse else s1
  let down := 50000 ≤ inlet || 70000 ≤ outlet || (flow < 1000 && long)
  .next (if down && s2.fld PWR_STAT_PWR_GOOD 0 0 = 1 then s2.railsOff else s2)

/-- SENSOR_WARNING: a sensor crosses a warning threshold (`on`) or comes back; the refresh rate of an HBM stack at 85 °C is doubled. -/
def execSensorWarning (id : BitVec 16) (on low : Bool) (s : State) : Res :=
  let s1 := s.sensorEvent id.toNat on low
  let n := id.toNat
  let x := s1.kp.power
  .next (if !numericSensors.contains n then s
    else if 0x18 ≤ n && n < 0x20 then
      s1.setPower { x with hot := if on then (if x.hot.contains (n - 0x18) then x.hot else x.hot ++ [n - 0x18]) else x.hot.filter (· ≠ n - 0x18) }
    else s1)

/-! ### The governor (R762 to R764, R766) -/

/-- The highest step at which an island runs. -/
def State.highStep (s : State) : Nat :=
  (List.range 720).foldl (fun m g =>
    let p := g / 90
    let i := g % 90
    let c := if s.fld ISLAND_STATUS_CORE_STATE p i = 0 then s.fld ISLAND_STATUS_CORE_STEP p i else 0
    let r := if s.fld ISLAND_STATUS_ROUTER_STATE p i = 0 then s.fld ISLAND_STATUS_ROUTER_STEP p i else 0
    max m (max c r)) 0

/-- A coolant cap applies (R760). -/
def State.coolCap (s : State) : Bool := s.kp.power.inlet || s.kp.power.flow

/-- The limit L of a period in W (R763). -/
def State.govLimit (s : State) : Nat :=
  let l := s.fld PWR_CFG_LIMIT_W 0 0
  if s.coolCap then min l 1800 else l

/-- The cap of the next period (R763), from the power p in mW and the hottest junction t. (DESIGN CHOICE: notes/assumptions/79.md.) -/
def State.govCap (s : State) (p : Nat) (t : Int) : Nat :=
  let l := s.govLimit
  let top := if s.fld PWR_CFG_FIXED 0 0 = 1 then s.fld PWR_CFG_FIXED_STEP 0 0 else 0xA0
  let cap := s.fld PWR_STAT_CAP_STEP 0 0
  let tooHigh := l * 1000 < p || 95000 < t
  let n := min 16 (max 1 ((p - l * 1000 + 10999) / 11000))
  let next := if tooHigh then max 0x20 (min cap s.highStep - n) else if p < (l - 60) * 1000 && t < 92000 then cap + 1 else cap
  min next top

/-- Why the cap stands (R766): 0 none, 1 power, 2 junction, 3 coolant, 4 fixed mode only. -/
def State.govCause (s : State) (p : Nat) (t : Int) (cap : Nat) : Nat :=
  if cap = 0xA0 then 0
  else if s.fld PWR_CFG_FIXED 0 0 = 1 && cap = s.fld PWR_CFG_FIXED_STEP 0 0 then 4
  else if s.fld PWR_CFG_LIMIT_W 0 0 * 1000 < p then 1
  else if s.govLimit * 1000 < p then 3
  else if 95000 < t then 2
  else s.fld PWR_STAT_GOV_STATE 0 0

/-- GOVERNOR_PERIOD: 1 ms ends with the average power p and the hottest junction t (R763). `sets` gives the set point and ceiling step that calibration
has for the cap, by half 2 × p + h: the voltage rises before any step does, and falls once the cap has held for 100 ms.
(DESIGN CHOICE: notes/assumptions/79.md.) -/
def execGovernorPeriod (p : Nat) (t : Int) (sets : List (BitVec 16 × BitVec 8)) (s : State) : Res :=
  let old := s.fld PWR_STAT_CAP_STEP 0 0
  let cap := s.govCap p t
  let held := if cap = old then s.kp.power.held + 1 else 0
  let s1 := ((s.setFld PWR_STAT_POWER_W 0 0 (min 4095 (p / 1000))).setFld PWR_STAT_GOV_STATE 0 0 (s.govCause p t cap)).setFld PWR_STAT_CAP_STEP 0 0 cap
  let s2 := s1.setPower { s1.kp.power with held := held }
  let volt := (List.range sets.length).foldl (fun s k =>
    let x := sets.getD k (0, 0)
    let now := s.fld HALF_RAIL_STATUS_VCORE_SET (k / 2) (k % 2)
    if (old < cap && now < x.1.toNat) || (held = 100 && x.1.toNat < now) then
      (s.setFld HALF_RAIL_STATUS_VCORE_SET (k / 2) (k % 2) x.1.toNat).setFld HALF_RAIL_STATUS_CEIL_STEP (k / 2) (k % 2) x.2.toNat
    else s) s2
  let s3 := if cap = old then volt
    else
      volt.planChange ((List.range 8).flatMap (fun p => [(p, 0), (p, 1)])) (fun s => (List.range 8).foldl (fun s p => s.runSteps p) s)
  let slowed := (List.range 720).any (fun g => let x := s.planStep (g / 90) (g % 90); cap < x.1 || cap < x.2)
  let s4 := if slowed then s3.bump PWR_EVT_CAP_MS 0 0 else s3
  .next (if 105000 < t then s4.envLapse else s4)

/-- PWR_CFG_WRITE: FIXED_STEP and LIMIT_W keep their values where the written ones are out of range (R766). -/
def execPwrCfgWrite (ag : Agent) (v : BitVec 32) (s : State) : Res :=
  .next (if !ag.keeper then s.reply 0 0x0402 0
    else s.regWrite ag 0x21000090000 4 (fun s =>
      let w := BitVec.ofNat 64 v.toNat
      let step := bitsOf w 23 16
      let limit := bitsOf w 11 0
      let s1 := s.setFld PWR_CFG_FIXED 0 0 (bitsOf w 31 31)
      let s2 := if 0x20 ≤ step && step ≤ 0x80 then s1.setFld PWR_CFG_FIXED_STEP 0 0 step else s1
      if 1000 ≤ limit && limit ≤ 2600 then s2.setFld PWR_CFG_LIMIT_W 0 0 limit else s2))

end Sys2Proof.Machine
end

