-- ==== Sys2Proof/Machine/Trellis.lean ====
section
/-!
DEFINITION. The Trellis at work: a packet's class and destination, meters, buffers and credits, grants, replays, combiners, Deals, seam proxies and route
changes (R278 to R310, R318, R618). (DESIGN CHOICE: notes/assumptions/50.md.)
-/
namespace Sys2Proof.Machine

/-! ### The header that injection writes (R285, R288) -/

/-- The class of a packet: its agent's choice, Trump for Tenant work being carried as Lead; a reply or acknowledgement has its request's (R285). -/
def State.packetClass (s : State) (p : Packet) : Fin 4 :=
  let c := match p.by_ with
    | .thread c t => s.fld TCLASS_CLASS c 0 t
    | .host q => s.qClass q
    | .given k => k.val
  Fin.ofNat 4 (if p.keeper || p.op = .reply || p.op = .ack then c else max 1 c)

/-- The router, and the port there, that a request for an address leaves the Trellis by (R288): for another module, the attachment of a port that the port
table selects. -/
def State.exitOf (s : State) (a : Word) : Option (Nat × Nat) :=
  match s.place a with
  | .remote mid _ => (s.portsTo mid).head?.map (fun m => (portRouter m, 5))
  | p => p.exit

/-- A packet with the source, class and destination that it leaves its injection point with; a reply or acknowledgement goes where its request came
from, which its own fields give. -/
def State.stamp (s : State) (n : CoreId) (p : Packet) : Packet :=
  let q := { p with source := n, cls := s.packetClass p }
  if p.op = .reply || p.op = .ack then q
  else match s.exitOf p.addr with
    | some (r, o) => { q with dx := Fin.ofNat 144 (meshX r), dy := Fin.ofNat 72 (meshY r), port := Fin.ofNat 7 o }
    | none => q

/-! ### Lanes, credits and grants (R280, R281, R287, R291, R307) -/

/-- An entry of a router's buffers or wires is of the lane of port i that a packet travels on. -/
def sameLane (i : Nat) (p : Packet) (e : Nat × Packet) : Bool := e.1 = i && e.2.cls = p.cls && e.2.resp = p.resp

/-- The flits of a list of packets. -/
def flitsOf (l : List (Nat × Packet)) : Nat := l.foldl (fun a e => a + e.2.flits) 0

/-- Two packets that R291 keeps in order: one class, lane, injection point and destination router. -/
def sameFlow (p q : Packet) : Bool :=
  p.source = q.source && p.entry = q.entry && p.cls = q.cls && p.resp = q.resp && p.dx = q.dx && p.dy = q.dy

/-- The outputs that a packet at input i of router n leaves by: its route, or the branches of its Deal's tree (R289, R307). -/
def State.outsOf (s : State) (n i : Nat) (p : Packet) : List Out :=
  match p.deal with
  | some ⟨w, _, none⟩ => dealBranches n w (i ≠ 0 && i ≠ 2) (if i < 4 then some (outOf i) else none)
  | _ => [s.routeOut n p.dx p.dy p.cls]

/-- An output holds credit for all flits of a packet: the next lane buffer has room for them within its 4 flits, and the link's replay buffer within its 8;
the router's own ports take every packet (R280, R281, R287). -/
def State.credit (s : State) (n : Nat) (o : Out) (p : Packet) : Bool :=
  o = .here || (match s.openLink n o with
    | none => false
    | some m =>
      let wire := (s.rtr n).wire.filter (fun e => e.1 = o.num)
      let buf := (s.rtr m).buf.filter (sameLane (backPort o.num) p)
      p.flits + flitsOf buf + flitsOf (wire.filter (sameLane o.num p)) ≤ 4 && p.flits + flitsOf wire ≤ 8)

/-- The packets at the heads of a router's lanes. Inputs 0 to 3 are the links, 4 to 6 the local, attachment and service ports; 7 and 8 stand for what its
proxy and its combiner have let go. -/
def Router.heads (r : Router) : List (Nat × Packet) :=
  r.buf.foldl (fun l e => if l.any (sameLane e.1 e.2) then l else l ++ [e]) []

/-- The choice of an output among packets that may leave by it (R287): Trump first; otherwise the class that the frame's place names, or the first that
waits of Lead, Follow and Pass; the response lane first; inputs in turn. -/
def Router.choose (r : Router) (o lead follow : Nat) (c : List (Nat × Packet)) : Option (Nat × Packet) :=
  let at_ := fun (k : Nat) => c.filter (fun e => e.2.cls.val = k)
  let f := Sparse.get 0 r.frame o
  let named := if f < lead then 1 else if f < lead + follow then 2 else 3
  (([0, named, 1, 2, 3] : List Nat).find? (fun k => !(at_ k).isEmpty)).bind (fun k =>
    let resp := (at_ k).any (fun e => e.2.resp)
    let l := (at_ k).filter (fun e => e.2.resp = resp)
    let last := Sparse.get 8 r.turn (o * 8 + k * 2 + resp.toNat)
    (List.range 9).findSome? (fun j => l.find? (fun e => e.1 = (last + 1 + j) % 9)))

/-- A contribution that the combiner holds, or has let go, goes before a later packet of its flow (R291). -/
def Router.behind (r : Router) (e : Nat × Packet) : Bool :=
  r.comb.any (fun x => sameFlow x.2 e.2) || (e.1 ≠ 8 && r.buf.any (fun x => x.1 = 8 && sameFlow x.2 e.2))

/-- The packets that may leave router n by an output now: heads of lanes, every branch of which holds credit (R287, R307). -/
def State.grantable (s : State) (n : Nat) (o : Out) : List (Nat × Packet) :=
  let r := s.rtr n
  r.heads.filter (fun e =>
    let outs := s.outsOf n e.1 e.2
    outs.contains o && outs.all (fun x => s.credit n x e.2) && !r.behind e)

/-- What the copy of a Deal does at the window offset `a` of its target, as its issuing agent would (R304, R309). -/
def State.dealAt (s : State) (w : Who) (a : Word) : DealBody → Nat × State
  | .write n v => let x := s.writeVia w a n v 0; (x.1, x.2.2)
  | .setFull rel scope v => match s.reach w a 8 true with
    | .to p =>
      let who : Watch := { word := 0, onFull := true, waiter := 0, plot := w.plot, epoch := w.epoch, waitf := false }
      let r := s.memFe p 3 v rel scope none who
      (r.1.status, r.2)
    | .refused st s1 => (st, s1)
    | .hold _ => (0x0203, s)
  | .notify mask => match s.reach w a 8 true with
    | .to (.bank n _) | .to (.coreMmr n _) => (0, s.wakeNotify n mask.toNat)
    | .to _ => (0x0402, s)
    | .refused st s1 => (st, s1)
    | .hold _ => (0x0203, s)

/-- The agent that a packet's header names (R279). -/
def packetWho (p : Packet) : Who := ⟨if p.keeper then 1 else 0, if p.sup then 1 else 0, p.plot, none, none, p.epoch.toNat, none⟩

/-- A packet leaves by the router's own port. RTR_REDIR sends the copy of a Deal, a reply, an acknowledgement or a wake on to the spare (R306, R618); a
Deal's copy is carried out; a fence answers a request and absorbs a response (R640). -/
def State.leave (s : State) (n : Nat) (p : Packet) : State :=
  let on := s.dealCore n
  let again := fun (d : Option Deal) =>
    let q := { p with dx := Fin.ofNat 144 (meshX on), dy := Fin.ofNat 72 (meshY on), deal := d }
    (s.setRtr n { s.rtr n with buf := (s.rtr n).buf ++ [(4, q)] }).send .packet [n, 4, p.id]
  if p.port ≠ 4 then s.send .packet [n, p.port, p.id]
  else match p.deal with
    | some d =>
      let pos := (d.only.map (·.val)).getD n
      if on ≠ n && pos = n then again (some { d with only := some (Fin.ofNat 10368 n) })
      else
        let x := (s.send .packet [n, 4, p.id]).dealAt (packetWho p) (ownAddr (bankAddr n (bitsOf d.target 21 0))) d.body
        x.2.dealAck p pos x.1
    | none =>
      if p.resp && on ≠ n then again none
      else if !s.answersFenced n then s.send .packet [n, 4, p.id]
      else if p.resp then s.boundaryCount n FENCE_DROP_CNT_ABSORBED
      else (s.boundaryCount n FENCE_DROP_CNT_ANSWERED).reply p.tag 0x0201 0

/-- Output o of router n grants its link to one packet, which leaves by all its branches at once (R287, R307). -/
def State.grant (s : State) (n : Nat) (o : Out) : State :=
  let r := s.rtr n
  let p := coreP n
  match r.choose o.num (s.fld CLASS_ARB_LEAD_W p 0) (s.fld CLASS_ARB_FOLLOW_W p 0) (s.grantable n o) with
  | none => s
  | some e =>
    let outs := s.outsOf n e.1 e.2
    let k := e.2.cls.val
    let r1 := { r with
      buf := r.buf.erase e
      wire := r.wire ++ (outs.filter (fun x => x ≠ .here)).map (fun x => (x.num, e.2))
      frame := if k = 0 then r.frame else Sparse.set 0 r.frame o.num ((Sparse.get 0 r.frame o.num + 1) % 16)
      turn := Sparse.set 8 r.turn (o.num * 8 + k * 2 + e.2.resp.toNat) e.1 }
    let s1 := if 1 < outs.length then (s.setRtr n r1).bump RTR_STAT_DEAL_REP n 0 e.2.flits else s.setRtr n r1
    outs.foldl (fun s x => if x = .here then s.leave n e.2 else s.send .packet [n, x.num, e.2.id]) s1

/-- A packet stands in a buffer of router n and takes its links where they are free. -/
def State.bufferIn (s : State) (n i : Nat) (p : Packet) : State :=
  let s1 := s.setRtr n { s.rtr n with buf := (s.rtr n).buf ++ [(i, p)] }
  (s1.outsOf n i p).foldl (fun s o => s.grant n o) s1

/-! ### Combining, proxies and arrival (R289, R301, R303, R318) -/

/-- A Pot contribution at a router on its way: it joins its partners there, waits for one, or moves on (R317, R318). One behind a packet of its flow does
not wait (R291). -/
def State.combine (s : State) (n i : Nat) (p : Packet) (x0 : PotPart) : State :=
  let r := s.rtr n
  let x := potPromote x0 21
  match potGather (r.comb.map (fun e => e.2.pot)) x [] r.comb.length with
  | (j, k :: l) =>
    ((s.setRtr n { r with comb := leaveOut r.comb (k :: l) }).bump RTR_STAT_POT_COMB n 0 (l.length + 1)).bufferIn n i { p with pot := some j }
  | (_, []) =>
    let q := { p with pot := some x }
    if r.comb.length < 8 && !r.buf.any (fun e => sameFlow e.2 p) then s.setRtr n { r with comb := r.comb ++ [(i, q)] } else s.bufferIn n i q

/-- Router n is a seam proxy of half h of parcel p: at the seam in the other half, or across a bridge link that leads into the half (R301). -/
def proxies (n p h : Nat) : Bool :=
  if coreP n = p then coreHalf n ≠ h && (coreX n = 17 || coreX n = 18)
  else [Out.north, .east, .south, .west].any (fun o => match linkTo n o with | some m => coreP m = p && coreHalf m = h | none => false)

/-- A seam proxy answers a request ASLEEP_RETRY (R301, R302). -/
def State.asleep (s : State) (g : Nat) (p : Packet) : State :=
  let s1 := s.bump SEAM_STAT_RETRY_ANS g 0
  match p.deal with
  | some d => s1.dealAck p ((d.only.map (·.val)).getD (coreAt p.dx p.dy)) 0x0203
  | none => s1.reply p.tag 0x0203 0

/-- A packet for a core of a gated half at its proxy: a response or a contribution is absorbed; a request is held, where the half wakes, and the Keeper is
asked for the half's power; otherwise it is answered (R301, R303). (DESIGN CHOICE: notes/assumptions/107.md.) -/
def State.proxy (s : State) (n : Nat) (p : Packet) : State :=
  let dest := coreAt p.dx p.dy
  let g := coreP dest
  let h := coreHalf dest
  let r := s.rtr n
  match p.resp, p.pot with
  | true, _ => s.bump SEAM_STAT_ABSORBED g 0
  | _, some x => (s.bump SEAM_STAT_ABSORBED g 0).potAnswer x.tags 0x0203
  | _, none =>
    if s.wakeMode g h && r.proxied.length < s.fld SEAM_CTL_HOLD g 0 then
      ((s.setRtr n { r with proxied := r.proxied ++ [p] }).bump SEAM_STAT_WAKES g 0).setFld HALF_RAIL_STATUS_STATE g h 1
    else s.asleep g p

/-- Router n is the boundary of a domain that is fenced with its routers, and of the destination in it: the packet's next link leads into it (R640). -/
def State.atBoundary (s : State) (n : Nat) (p : Packet) : Bool :=
  s.islandShut (coreAt p.dx p.dy) && !s.islandShut n
    && (match linkTo n (s.routeOut n p.dx p.dy p.cls) with | some m => s.islandShut m | none => false)

/-- The boundary absorbs a response to a fenced part, and answers a request FENCED (R640). -/
def State.bound (s : State) (n : Nat) (p : Packet) : State :=
  if p.resp then s.bump FENCE_DROP_CNT_ABSORBED n 0
  else (s.bump FENCE_DROP_CNT_ANSWERED n 0).turnBack p

/-- A packet enters router n by input i. -/
def State.enterRouter (s : State) (n i : Nat) (p : Packet) : State :=
  let dest := coreAt p.dx p.dy
  let whole : Bool := match p.deal with | some d => d.only.isNone | none => false
  if s.closedRouter n then s
  else if !whole && s.atBoundary n p then s.bound n p
  else if !whole && p.port = 4 && s.gated (coreP dest) (coreHalf dest) && proxies n (coreP dest) (coreHalf dest) then s.proxy n p
  else match p.pot with
    | some x => if s.routeOut n p.dx p.dy p.cls = .here then s.bufferIn n i p else s.combine n i p x
    | none => s.bufferIn n i p

/-- ROUTER_PACKET_ARRIVE: a packet reaches router n by a link (0 north to 3 west) and takes its next link, a branch of its Deal, the combiner, or the answer
of a seam proxy or a fence (R289, R301, R303, R307, R318, R640). Packets of one lane arrive in the order in which they were sent. -/
def execRouterPacketArrive (n : CoreId) (from_ : Fin 4) (p : Packet) (s : State) : Res :=
  .next (match linkTo n (outOf from_) with
    | none => s
    | some m =>
      let r := s.rtr m
      match r.wire.find? (sameLane (backPort from_) p) with
      | some e => if e.2.id = p.id then (s.setRtr m { r with wire := r.wire.erase e }).enterRouter n from_ e.2 else s
      | none => s.enterRouter n from_ p)

/-- FLIT_CRC_ERROR: a flit received on a link port (0 north to 3 west) is discarded; it and every later flit on the link is resent in order from the
sender's replay buffer (R280, R322). -/
def execFlitCrcError (n : CoreId) (port : Fin 4) (s : State) : Res :=
  .next (match linkTo n (outOf port) with
    | none => s
    | some m =>
      let s1 := match port with
        | 0 => s.bump RTR_LINKERR_REPLAY_N n 0
        | 1 => s.bump RTR_LINKERR_REPLAY_E n 0
        | 2 => s.bump RTR_LINKERR_REPLAY_S n 0
        | 3 => s.bump RTR_LINKERR_REPLAY_W n 0
      ((s.rtr m).wire.filter (fun e => e.1 = backPort port)).foldl (fun s e => s.send .packet [m, e.1, e.2.id]) s1)

/-- POT_COMBINER_TIMEOUT: a contribution that met no partner moves on, after the earlier ones of its flow (R291, R318). -/
def execPotCombinerTimeout (n : CoreId) (id : Nat) (s : State) : Res :=
  let r := s.rtr n
  .next (match r.comb.find? (fun e => e.2.id = id) with
    | none => s
    | some e =>
      if (r.comb.takeWhile (fun x => x.2.id ≠ id)).any (fun x => sameFlow x.2 e.2) then s
      else (s.setRtr n { r with comb := r.comb.erase e }).bufferIn n 8 e.2)

/-! ### Injection (R286, R292, R308) -/

/-- The meters of an injection point. -/
def State.meter (s : State) (n i : Nat) : Meter := Sparse.get {} (s.rtr n).points i

/-- Replace the meters of an injection point. -/
def State.setMeter (s : State) (n i : Nat) (m : Meter) : State := s.setRtr n { s.rtr n with points := Sparse.set {} (s.rtr n).points i m }

/-- The Trump flits that an injection point has injected in the 64 cycles up to `now`. -/
def Meter.trumpCount (m : Meter) (now : Nat) : Nat :=
  (m.trump.filter (fun e => now < e.1 + 64)).foldl (fun a e => a + e.2) 0

/-- A plot's Lead credit at a point in 64ths of a flit at `now`: it grows by RATE each cycle up to BURST (R286). -/
def State.leadCredit (s : State) (n i plot now : Nat) : Nat :=
  let p := coreP n
  let top := 64 * s.fld LEAD_RATE_n_BURST p plot
  let e := Sparse.get (top, 0) (s.meter n i).lead plot
  min top (e.1 + s.fld LEAD_RATE_n_RATE p plot * (now - e.2))

/-- The meter of its class allows a packet at cycle `now` (R286): responses and the service port have none. -/
def State.meterAllows (s : State) (n : Nat) (p : Packet) (now : Nat) : Bool :=
  let f := p.flits
  if p.resp || p.entry = 6 then true
  else match p.cls with
    | 0 =>
      let c := (s.meter n p.entry).trumpCount now
      let rate := s.fld CLASS_ARB_TRUMP_RATE (coreP n) 0
      c + f ≤ rate || (rate < f && c = 0)
    | 1 => s.fld LEAD_RATE_n_RATE (coreP n) p.plot = 64 || 64 * f ≤ s.leadCredit n p.entry p.plot now
    | _ => true

/-- The meter of an injection point once a packet has been injected at cycle `now`. -/
def State.meterTook (s : State) (n : Nat) (p : Packet) (now : Nat) : Meter :=
  let m := s.meter n p.entry
  if p.resp || p.entry = 6 then m
  else match p.cls with
    | 0 => { m with trump := m.trump.filter (fun e => now < e.1 + 64) ++ [(now, p.flits)] }
    | 1 => { m with lead := Sparse.put m.lead p.plot (s.leadCredit n p.entry p.plot now - 64 * p.flits, now) }
    | _ => m

/-- A value of RTR_OVR that names a packet's destination and class. -/
def ovrNames (v : Word) (p : Packet) : Bool :=
  bitsOf v 63 63 = 1 && nbit (bitsOf v 62 59) p.cls.val = 1 && bitsOf v 55 48 ≤ p.dx && p.dx ≤ bitsOf v 47 40 && bitsOf v 38 32 ≤ p.dy
    && p.dy ≤ bitsOf v 30 24

/-- A route change concerns a packet's flow: an entry names it, as it is or as it will be (R292). -/
def State.rerouted (s : State) (entries : List (CoreId × Fin 16 × Word)) (p : Packet) : Bool :=
  entries.any (fun e => ovrNames (s.reg .RTR_OVR_k e.1 e.2.1) p || ovrNames e.2.2 p)

/-- The injection point lets the waiting packets of a class and lane go, in order, while the meter allows the first, its lane buffer has room, and no route
change holds it (R281, R286, R292). -/
def State.release (s : State) (n i : Nat) (cls : Fin 4) (resp : Bool) (now : Nat) : Nat → State
  | 0 => s
  | f + 1 =>
    match (s.meter n i).waiting.find? (fun q => q.cls = cls && q.resp = resp) with
    | none => s
    | some q =>
      if s.meterAllows n q now && q.flits + flitsOf ((s.rtr n).buf.filter (sameLane i q)) ≤ 4 && !s.rerouted s.kp.reroute q then
        let m := s.meterTook n q now
        ((s.setMeter n i { m with waiting := m.waiting.erase q }).enterRouter n i q).release n i cls resp now f
      else s

/-- The packets that a request becomes at its injection point, and the state with its Deal begun: a Deal whose tree would enter a fenced router or a gated
half goes as one copy for each target that R308 sends one to. A target word that R306 refuses yields none. -/
def State.units (s : State) (n : CoreId) (p : Packet) : List Packet × State :=
  match p.deal with
  | some d =>
    let t := dealTargets d.target
    if dealBad d.target then ([], s.reply p.tag 0x0402 0)
    else
      let split := s.dealSplits n d.target
      let lost := if split then t.filterMap (fun q => (s.dealUnsent q).map (fun st => (q, st))) else []
      let run := lost.foldl (fun (r : DealRun) x => r.note x.1 x.2) { id := p.id, targets := t.length, out := t }
      let copies := run.out.map (fun q =>
        { p with dx := Fin.ofNat 144 (meshX q), dy := Fin.ofNat 72 (meshY q), port := 4, deal := some { d with only := some (Fin.ofNat 10368 q) } })
      if run.out.isEmpty then ([], s.reply p.tag run.status (run.targets <<< 32))
      else (if split then copies else [{ p with port := 4 }], { s with deals := s.deals ++ [run] })
  | none => ([p], s)

/-- INJECTION_RELEASE: a packet at the injection point of router n that its `entry` names (4 local, 5 attachment, 6 service) is injected at cycle `now` once
its meter allows it and no earlier packet of its class and lane waits there; otherwise it waits, in order (R285, R286, R292, R308). -/
def execInjectionRelease (n : CoreId) (p : Packet) (now : Nat) (s : State) : Res :=
  let q := s.stamp n p
  let i := p.entry.val
  .next (if i < 4 || s.closedRouter n then s
    else
      let x : List Packet × State := if (s.meter n i).waiting.any (fun y => y.id = p.id) then ([], s) else s.units n q
      let m := x.2.meter n i
      let s1 := x.2.setMeter n i { m with waiting := m.waiting ++ x.1 }
      let s2 := s1.release n i q.cls q.resp now (m.waiting.length + x.1.length)
      let left := ((s2.meter n i).waiting.filter (fun y => y.id = p.id)).length
      if x.1.isEmpty || left = 0 || s2.meterAllows n q now then s2
      else if q.cls = 0 then s2.bump RTR_STAT_TRUMP_HELD n 0 left else s2.bump RTR_STAT_LEAD_HELD n 0 left)

/-! ### Halves and routes (R290, R292, R302) -/

/-- Every router that holds requests for a half as its proxy lets them go, in the order it received them: onward, or answered ASLEEP_RETRY (R302). -/
def State.freeProxied (s : State) (p h : Nat) (ok : Bool) : State :=
  let toHalf := fun (q : Packet) => coreP (coreAt q.dx q.dy) = p && coreHalf (coreAt q.dx q.dy) = h
  s.routers.foldl (fun s e =>
    let go := e.2.proxied.filter toHalf
    let s1 := if go.isEmpty then s else s.setRtr e.1 { s.rtr e.1 with proxied := e.2.proxied.filter (fun q => !toHalf q) }
    go.foldl (fun s q => if ok then s.bufferIn e.1 7 q else s.asleep p q) s1) s

/-- HALF_WAKE_DONE: the half is powered, its banks initialised, its clock plan loaded and held requests released; or the wake has failed, the half stays
gated and each is answered (R302). -/
def execHalfWakeDone (p : Fin 8) (east ok : Bool) (s : State) : Res :=
  let h := if east then 1 else 0
  .next (if !s.gated p h then s
    else if ok then (((s.zeroHalf p h).setFld HALF_RAIL_STATUS_STATE p h 0).runSteps p).freeProxied p h true
    else (s.setFld HALF_RAIL_STATUS_STATE p h 2).freeProxied p h false)

/-- The route tables with some entries written (R322). -/
def State.withRoutes (s : State) (entries : List (CoreId × Fin 16 × Word)) : State :=
  entries.foldl (fun s e => s.setReg .RTR_OVR_k e.1 e.2.1 (RegName.written .RTR_OVR_k true 63 0 (s.reg .RTR_OVR_k e.1 e.2.1) e.2.2)) s

/-- A packet whose route a change concerns is between its entry router and its destination (R292). -/
def State.inTransit (s : State) (entries : List (CoreId × Fin 16 × Word)) : Bool :=
  s.routers.any (fun e => (e.2.buf ++ e.2.wire ++ e.2.comb).any (fun x => s.rerouted entries x.2))

/-- The route change that the Keeper holds flows for takes place once the old routes have drained (R292). -/
def State.reroute (s : State) : State :=
  if s.kp.reroute.isEmpty || s.inTransit s.kp.reroute then s
  else (s.withRoutes s.kp.reroute).setKp { s.kp with reroute := [] }

/-- ROUTE_CHANGE: the Keeper checks the set of tables as it will stand, holds new packets of the flows concerned at their entry routers, and writes the
entries (router, entry, value) once the old routes have drained; a set that fails the check of R290 is not committed (R290, R292). -/
def execRouteChange (entries : List (CoreId × Fin 16 × Word)) (s : State) : Res :=
  .next (if (s.withRoutes entries).routesPass then (s.setKp { s.kp with reroute := entries }).reroute else s)

/-- What the Trellis does as time passes: a route change whose flows have drained is made, and every router grants its outputs to what waits. -/
def State.tickRouters (s : State) : State :=
  s.routers.foldl (fun s e => [Out.north, .east, .south, .west, .here].foldl (fun s o => s.grant e.1 o) s) s.reroute

end Sys2Proof.Machine
end

