-- ==== Sys2Proof/Machine/Dispatch.lean ====
section
/-!
DEFINITION. The dispatch: one arm for each command of the opcode table, each a direct call of the command's meaning.
-/
namespace Sys2Proof.Machine

open Sys2Proof

/-- What a command does to the state, the queue of waiting commands apart. (DESIGN CHOICE: notes/assumptions/2.md.) -/
def exec (i : Instr) (s : State) : Host.Outcome State Fault Refusal :=
  match i with
  | .intAddSub c t sub w => Sys2Proof.Machine.execIntAddSub c t sub w s
  | .intLogic c t op w => Sys2Proof.Machine.execIntLogic c t op w s
  | .intShift c t op w => Sys2Proof.Machine.execIntShift c t op w s
  | .mul c t w => Sys2Proof.Machine.execMul c t w s
  | .mulh c t unsigned w => Sys2Proof.Machine.execMulh c t unsigned w s
  | .div c t unsigned w => Sys2Proof.Machine.execDiv c t unsigned w s
  | .rem c t unsigned w => Sys2Proof.Machine.execRem c t unsigned w s
  | .cmp c t rel w => Sys2Proof.Machine.execCmp c t rel w s
  | .predLogic c t op w => Sys2Proof.Machine.execPredLogic c t op w s
  | .pnot c t w => Sys2Proof.Machine.execPnot c t w s
  | .pset c t w => Sys2Proof.Machine.execPset c t w s
  | .addi c t w => Sys2Proof.Machine.execAddi c t w s
  | .logicImm c t op w => Sys2Proof.Machine.execLogicImm c t op w s
  | .shiftImm c t w => Sys2Proof.Machine.execShiftImm c t w s
  | .cmpImm c t w => Sys2Proof.Machine.execCmpImm c t w s
  | .lui c t w => Sys2Proof.Machine.execLui c t w s
  | .luh c t w => Sys2Proof.Machine.execLuh c t w s
  | .ld c t w => Sys2Proof.Machine.execLd c t w s
  | .ldw c t w => Sys2Proof.Machine.execLdw c t w s
  | .ldb c t w => Sys2Proof.Machine.execLdb c t w s
  | .st c t w => Sys2Proof.Machine.execSt c t w s
  | .stw c t w => Sys2Proof.Machine.execStw c t w s
  | .stb c t w => Sys2Proof.Machine.execStb c t w s
  | .aadd c t m w => Sys2Proof.Machine.execAadd c t m w s
  | .amin c t m w => Sys2Proof.Machine.execAmin c t m w s
  | .amax c t m w => Sys2Proof.Machine.execAmax c t m w s
  | .aswap c t m w => Sys2Proof.Machine.execAswap c t m w s
  | .acas c t m w => Sys2Proof.Machine.execAcas c t m w s
  | .ldfe c t m w => Sys2Proof.Machine.execLdfe c t m w s
  | .ldff c t m w => Sys2Proof.Machine.execLdff c t m w s
  | .stfe c t w => Sys2Proof.Machine.execStfe c t w s
  | .stf c t w => Sys2Proof.Machine.execStf c t w s
  | .sete c t w => Sys2Proof.Machine.execSete c t w s
  | .mbLoad c t sz w => Sys2Proof.Machine.execMbLoad c t sz w s
  | .paddX c t w => Sys2Proof.Machine.execPaddX c t w s
  | .paddT c t w => Sys2Proof.Machine.execPaddT c t w s
  | .paddF c t w => Sys2Proof.Machine.execPaddF c t w s
  | .wrf c t w => Sys2Proof.Machine.execWrf c t w s
  | .mbrd c t w => Sys2Proof.Machine.execMbrd c t w s
  | .mbtst c t w => Sys2Proof.Machine.execMbtst c t w s
  | .mbwait c t w => Sys2Proof.Machine.execMbwait c t w s
  | .mbset c t w => Sys2Proof.Machine.execMbset c t w s
  | .cflush c t w => Sys2Proof.Machine.execCflush c t w s
  | .cinv c t w => Sys2Proof.Machine.execCinv c t w s
  | .cflinv c t w => Sys2Proof.Machine.execCflinv c t w s
  | .cinvAll c t w => Sys2Proof.Machine.execCinvAll c t w s
  | .preload c t w => Sys2Proof.Machine.execPreload c t w s
  | .clock c t w => Sys2Proof.Machine.execClock c t w s
  | .cunlock c t w => Sys2Proof.Machine.execCunlock c t w s
  | .pref c t w => Sys2Proof.Machine.execPref c t w s
  | .b c t w => Sys2Proof.Machine.execB c t w s
  | .call c t w => Sys2Proof.Machine.execCall c t w s
  | .jr c t w => Sys2Proof.Machine.execJr c t w s
  | .callr c t w => Sys2Proof.Machine.execCallr c t w s
  | .ret c t w => Sys2Proof.Machine.execRet c t w s
  | .loop c t w => Sys2Proof.Machine.execLoop c t w s
  | .gets c t w => Sys2Proof.Machine.execGets c t w s
  | .sets c t w => Sys2Proof.Machine.execSets c t w s
  | .trap c t w => Sys2Proof.Machine.execTrap c t w s
  | .rfe c t w => Sys2Proof.Machine.execRfe c t w s
  | .isync c t w => Sys2Proof.Machine.execIsync c t w s
  | .setm c t w => Sys2Proof.Machine.execSetm c t w s
  | .tstart c t w => Sys2Proof.Machine.execTstart c t w s
  | .tstop c t w => Sys2Proof.Machine.execTstop c t w s
  | .tset c t cls w => Sys2Proof.Machine.execTset c t cls w s
  | .lcrd c t w => Sys2Proof.Machine.execLcrd c t w s
  | .lcwr c t w => Sys2Proof.Machine.execLcwr c t w s
  | .rspill c t w => Sys2Proof.Machine.execRspill c t w s
  | .rsfill c t w => Sys2Proof.Machine.execRsfill c t w s
  | .sleep c t w => Sys2Proof.Machine.execSleep c t w s
  | .waitf c t w => Sys2Proof.Machine.execWaitf c t w s
  | .waken c t w => Sys2Proof.Machine.execWaken c t w s
  | .fence c t w => Sys2Proof.Machine.execFence c t w s
  | .pairIssue c t word => Sys2Proof.Machine.execPairIssue c t word s
  | .vintArith c t op ty w => Sys2Proof.Machine.execVintArith c t op ty w s
  | .vlogic c t op ty w => Sys2Proof.Machine.execVlogic c t op ty w s
  | .vfloat c t op ty w => Sys2Proof.Machine.execVfloat c t op ty w s
  | .vcmp c t op ty w => Sys2Proof.Machine.execVcmp c t op ty w s
  | .vanyVall c t all ty w => Sys2Proof.Machine.execVanyVall c t all ty w s
  | .vspecial c t second op ty w => Sys2Proof.Machine.execVspecial c t second op ty w s
  | .vcvt c t fn w => Sys2Proof.Machine.execVcvt c t fn w s
  | .vmove c t op ty w => Sys2Proof.Machine.execVmove c t op ty w s
  | .vpermRot c t rot ty w => Sys2Proof.Machine.execVpermRot c t rot ty w s
  | .vext c t ty w => Sys2Proof.Machine.execVext c t ty w s
  | .vreduce c t op ty w => Sys2Proof.Machine.execVreduce c t op ty w s
  | .vld c t w => Sys2Proof.Machine.execVld c t w s
  | .vst c t w => Sys2Proof.Machine.execVst c t w s
  | .tcfg c t w => Sys2Proof.Machine.execTcfg c t w s
  | .tld c t w => Sys2Proof.Machine.execTld c t w s
  | .tldR c t w => Sys2Proof.Machine.execTldR c t w s
  | .tst c t w => Sys2Proof.Machine.execTst c t w s
  | .tldq c t w => Sys2Proof.Machine.execTldq c t w s
  | .tmovv c t w => Sys2Proof.Machine.execTmovv c t w s
  | .tmovt c t w => Sys2Proof.Machine.execTmovt c t w s
  | .tscl c t w => Sys2Proof.Machine.execTscl c t w s
  | .tsclw c t w => Sys2Proof.Machine.execTsclw c t w s
  | .trel c t w => Sys2Proof.Machine.execTrel c t w s
  | .mma c t fn w => Sys2Proof.Machine.execMma c t fn w s
  | .acvt c t w => Sys2Proof.Machine.execAcvt c t w s
  | .azero c t w => Sys2Proof.Machine.execAzero c t w s
  | .astx c t w => Sys2Proof.Machine.execAstx c t w s
  | .aldx c t w => Sys2Proof.Machine.execAldx c t w s
  | .aldxAdd c t w => Sys2Proof.Machine.execAldxAdd c t w s
  | .msync c t w => Sys2Proof.Machine.execMsync c t w s
  | .loadReply c t status value => Sys2Proof.Machine.execLoadReply c t status value s
  | .mailboxReply c t m status value => Sys2Proof.Machine.execMailboxReply c t m status value s
  | .feReply c t m status value tag => Sys2Proof.Machine.execFeReply c t m status value tag s
  | .writeAck c t id status => Sys2Proof.Machine.execWriteAck c t id status s
  | .releaseDepart c t id => Sys2Proof.Machine.execReleaseDepart c t id s
  | .cacheFillLand c fid k status v => Sys2Proof.Machine.execCacheFillLand c fid k status v s
  | .prefLand c fid k status v => Sys2Proof.Machine.execPrefLand c fid k status v s
  | .writebackAck c line status => Sys2Proof.Machine.execWritebackAck c line status s
  | .tileRowRequest c t m => Sys2Proof.Machine.execTileRowRequest c t m s
  | .tileRowLand c t m r status v => Sys2Proof.Machine.execTileRowLand c t m r status v s
  | .tileRowAck c t m r status => Sys2Proof.Machine.execTileRowAck c t m r status s
  | .matrixEntryStart c residue => Sys2Proof.Machine.execMatrixEntryStart c residue s
  | .matrixEntryComplete c status data => Sys2Proof.Machine.execMatrixEntryComplete c status data s
  | .imageAccessComplete c t m status => Sys2Proof.Machine.execImageAccessComplete c t m status s
  | .shadowCheckArm c => Sys2Proof.Machine.execShadowCheckArm c s
  | .shadowCheckDone c differs => Sys2Proof.Machine.execShadowCheckDone c differs s
  | .threadSuspend c k => Sys2Proof.Machine.execThreadSuspend c k s
  | .threadFaultTaken c keeper => Sys2Proof.Machine.execThreadFaultTaken c keeper s
  | .interruptTaken c line => Sys2Proof.Machine.execInterruptTaken c line s
  | .timerFire c t now => Sys2Proof.Machine.execTimerFire c t now s
  | .stalemate c keeper => Sys2Proof.Machine.execStalemate c keeper s
  | .waitTimeout c t now => Sys2Proof.Machine.execWaitTimeout c t now s
  | .scopeMismatchTaken c t => Sys2Proof.Machine.execScopeMismatchTaken c t s
  | .wakeNotifyArrive ag c mask => Sys2Proof.Machine.execWakeNotifyArrive ag c mask s
  | .watchWakeArrive c t m a tag epoch => Sys2Proof.Machine.execWatchWakeArrive c t m a tag epoch s
  | .watchPollExpiry c t m => Sys2Proof.Machine.execWatchPollExpiry c t m s
  | .kmsgArrive c => Sys2Proof.Machine.execKmsgArrive c s
  | .bankReadRequest ag c off len tag => Sys2Proof.Machine.execBankReadRequest ag c off len tag s
  | .bankWriteRequest ag c off len mask data tag => Sys2Proof.Machine.execBankWriteRequest ag c off len mask data tag s
  | .bankAtomicRequest ag c off op a b tag => Sys2Proof.Machine.execBankAtomicRequest ag c off op a b tag s
  | .bankFeRequest ag c off op data rel scope waiter tag => Sys2Proof.Machine.execBankFeRequest ag c off op data rel scope waiter tag s
  | .watchDisarm c off waiter => Sys2Proof.Machine.execWatchDisarm c off waiter s
  | .bankNetReserve c cellar => Sys2Proof.Machine.execBankNetReserve c cellar s
  | .correctionWriteback c cw => Sys2Proof.Machine.execCorrectionWriteback c cw s
  | .imemPtrWrite ag c v => Sys2Proof.Machine.execImemPtrWrite ag c v s
  | .imemDataWrite ag c v => Sys2Proof.Machine.execImemDataWrite ag c v s
  | .threadCtlStop ag c v => Sys2Proof.Machine.execThreadCtlStop ag c v s
  | .threadCtlStart ag c v => Sys2Proof.Machine.execThreadCtlStart ag c v s
  | .swiRaise ag c v => Sys2Proof.Machine.execSwiRaise ag c v s
  | .poisonClr ag c v => Sys2Proof.Machine.execPoisonClr ag c v s
  | .tagDataRead ag c => Sys2Proof.Machine.execTagDataRead ag c s
  | .tagDataWrite ag c v => Sys2Proof.Machine.execTagDataWrite ag c v s
  | .tclassWrite ag c v => Sys2Proof.Machine.execTclassWrite ag c v s
  | .potHoldWrite ag c v => Sys2Proof.Machine.execPotHoldWrite ag c v s
  | .potOpen ag c v => Sys2Proof.Machine.execPotOpen ag c v s
  | .potCancel ag c v => Sys2Proof.Machine.execPotCancel ag c v s
  | .kexit c t v => Sys2Proof.Machine.execKexit c t v s
  | .wdogKick c t v => Sys2Proof.Machine.execWdogKick c t v s
  | .wdogCtlWrite ag c v => Sys2Proof.Machine.execWdogCtlWrite ag c v s
  | .sendData c t w v => Sys2Proof.Machine.execSendData c t w v s
  | .sendCommit c t v => Sys2Proof.Machine.execSendCommit c t v s
  | .sendAck c t status => Sys2Proof.Machine.execSendAck c t status s
  | .dmacGo c t ch v => Sys2Proof.Machine.execDmacGo c t ch v s
  | .moduleIdWrite ag v => Sys2Proof.Machine.execModuleIdWrite ag v s
  | .registerWrite ag a half v => Sys2Proof.Machine.execRegisterWrite ag a half v s
  | .routerPacketArrive n from_ p => Sys2Proof.Machine.execRouterPacketArrive n from_ p s
  | .flitCrcError n port => Sys2Proof.Machine.execFlitCrcError n port s
  | .injectionRelease n p now => Sys2Proof.Machine.execInjectionRelease n p now s
  | .potCombinerTimeout n id => Sys2Proof.Machine.execPotCombinerTimeout n id s
  | .potContributionArrive ag c off x => Sys2Proof.Machine.execPotContributionArrive ag c off x s
  | .halfWakeDone p east ok => Sys2Proof.Machine.execHalfWakeDone p east ok s
  | .classArbWrite ag p v => Sys2Proof.Machine.execClassArbWrite ag p v s
  | .lbPublish p east wt wl wf wp => Sys2Proof.Machine.execLbPublish p east wt wl wf wp s
  | .routeChange entries => Sys2Proof.Machine.execRouteChange entries s
  | .dmaDoorbell ag u v => Sys2Proof.Machine.execDmaDoorbell ag u v s
  | .dmaCtlGo ag u => Sys2Proof.Machine.execDmaCtlGo ag u s
  | .dmaCtlStop ag u => Sys2Proof.Machine.execDmaCtlStop ag u s
  | .dmaRingWrite ag u cfg v => Sys2Proof.Machine.execDmaRingWrite ag u cfg v s
  | .dmaEventSet ag u v => Sys2Proof.Machine.execDmaEventSet ag u v s
  | .dmaDescFetched u => Sys2Proof.Machine.execDmaDescFetched u s
  | .dmaProgramFetch u => Sys2Proof.Machine.execDmaProgramFetch u s
  | .dmaMove u => Sys2Proof.Machine.execDmaMove u s
  | .dmaLoop u => Sys2Proof.Machine.execDmaLoop u s
  | .dmaEndl u => Sys2Proof.Machine.execDmaEndl u s
  | .dmaWaitWord u => Sys2Proof.Machine.execDmaWaitWord u s
  | .dmaWaitEvents u => Sys2Proof.Machine.execDmaWaitEvents u s
  | .dmaSignalFill u => Sys2Proof.Machine.execDmaSignalFill u s
  | .dmaSignalAdd u => Sys2Proof.Machine.execDmaSignalAdd u s
  | .dmaSignalPost u => Sys2Proof.Machine.execDmaSignalPost u s
  | .dmaSignalEvent u => Sys2Proof.Machine.execDmaSignalEvent u s
  | .dmaHashBegin u => Sys2Proof.Machine.execDmaHashBegin u s
  | .dmaHashPause u => Sys2Proof.Machine.execDmaHashPause u s
  | .dmaHashResume u => Sys2Proof.Machine.execDmaHashResume u s
  | .dmaHashFinal u => Sys2Proof.Machine.execDmaHashFinal u s
  | .dmaEnd u => Sys2Proof.Machine.execDmaEnd u s
  | .dmaReply u id status v => Sys2Proof.Machine.execDmaReply u id status v s
  | .dmaRetry u id => Sys2Proof.Machine.execDmaRetry u id s
  | .dmaReplyTimeout u id => Sys2Proof.Machine.execDmaReplyTimeout u id s
  | .dmaWaitTimeout u => Sys2Proof.Machine.execDmaWaitTimeout u s
  | .dmaCompletion u => Sys2Proof.Machine.execDmaCompletion u s
  | .fabDealResend u id => Sys2Proof.Machine.execFabDealResend u id s
  | .hbmAccess ag p off kind aop len mask data tag => Sys2Proof.Machine.execHbmAccess ag p off kind aop len mask data tag s
  | .hbmPowerDown p q => Sys2Proof.Machine.execHbmPowerDown p q s
  | .tuLookup c t bulk => Sys2Proof.Machine.execTuLookup c t bulk s
  | .tuLookupReply c t bulk => Sys2Proof.Machine.execTuLookupReply c t bulk s
  | .tuHoldTimeout ag => Sys2Proof.Machine.execTuHoldTimeout ag s
  | .tuRangeCommit ag plot e v => Sys2Proof.Machine.execTuRangeCommit ag plot e v s
  | .tuSync ag plot v => Sys2Proof.Machine.execTuSync ag plot v s
  | .tuSyncDone plot => Sys2Proof.Machine.execTuSyncDone plot s
  | .pageRetire p pg => Sys2Proof.Machine.execPageRetire p pg s
  | .pcRetire p q dead => Sys2Proof.Machine.execPcRetire p q dead s
  | .hbmPageZeroise p pg => Sys2Proof.Machine.execHbmPageZeroise p pg s
  | .portEnable ag m v => Sys2Proof.Machine.execPortEnable ag m v s
  | .portTrainingDone m => Sys2Proof.Machine.execPortTrainingDone m s
  | .portInitFrame m peer port pools => Sys2Proof.Machine.execPortInitFrame m peer port pools s
  | .portUpTimeout m => Sys2Proof.Machine.execPortUpTimeout m s
  | .linkDataFrame m fcs auth bytes => Sys2Proof.Machine.execLinkDataFrame m fcs auth bytes s
  | .linkCtrlFrame m fcs h => Sys2Proof.Machine.execLinkCtrlFrame m fcs h s
  | .linkAckTimeout m => Sys2Proof.Machine.execLinkAckTimeout m s
  | .creditReturnTimer m => Sys2Proof.Machine.execCreditReturnTimer m s
  | .routedFrameReceive m addrOk auth ce bytes => Sys2Proof.Machine.execRoutedFrameReceive m addrOk auth ce bytes s
  | .transportRetransmit peer vc resp tseq => Sys2Proof.Machine.execTransportRetransmit peer vc resp tseq s
  | .connectionIdleClose peer => Sys2Proof.Machine.execConnectionIdleClose peer s
  | .connectionOpenRetry peer expired => Sys2Proof.Machine.execConnectionOpenRetry peer expired s
  | .aelxRead m vc => Sys2Proof.Machine.execAelxRead m vc s
  | .aelxWrite m vc mmr => Sys2Proof.Machine.execAelxWrite m vc mmr s
  | .aelxWriteFinal m vc => Sys2Proof.Machine.execAelxWriteFinal m vc s
  | .aelxDealWrite m vc room mmr => Sys2Proof.Machine.execAelxDealWrite m vc room mmr s
  | .aelxAtomic m vc => Sys2Proof.Machine.execAelxAtomic m vc s
  | .aelxAcas m vc => Sys2Proof.Machine.execAelxAcas m vc s
  | .aelxFeLoad m vc => Sys2Proof.Machine.execAelxFeLoad m vc s
  | .aelxFeStore m vc => Sys2Proof.Machine.execAelxFeStore m vc s
  | .aelxPot m vc => Sys2Proof.Machine.execAelxPot m vc s
  | .aelxWake m vc => Sys2Proof.Machine.execAelxWake m vc s
  | .aelxKctl m vc msg => Sys2Proof.Machine.execAelxKctl m vc msg s
  | .aelxAck m vc => Sys2Proof.Machine.execAelxAck m vc s
  | .aelxReadResp m vc => Sys2Proof.Machine.execAelxReadResp m vc s
  | .aelxAtomicResp m vc => Sys2Proof.Machine.execAelxAtomicResp m vc s
  | .aelxFeResp m vc => Sys2Proof.Machine.execAelxFeResp m vc s
  | .aelxFeArmed m vc => Sys2Proof.Machine.execAelxFeArmed m vc s
  | .aelxDealNak m vc => Sys2Proof.Machine.execAelxDealNak m vc s
  | .fabAdmitTimeout m vc => Sys2Proof.Machine.execFabAdmitTimeout m vc s
  | .wrfHoldTimeout slot => Sys2Proof.Machine.execWrfHoldTimeout slot s
  | .fabPotCombinerTimeout m out => Sys2Proof.Machine.execFabPotCombinerTimeout m out s
  | .ptpEventMessage m domain msg => Sys2Proof.Machine.execPtpEventMessage m domain msg s
  | .aelxKeyUpdate m peer slot retire => Sys2Proof.Machine.execAelxKeyUpdate m peer slot retire s
  | .bar4Read f o n far => Sys2Proof.Machine.execBar4Read f o n far s
  | .bar4Write f o n data status => Sys2Proof.Machine.execBar4Write f o n data status s
  | .sqTailDoorbell ag q v => Sys2Proof.Machine.execSqTailDoorbell ag q v s
  | .cqHeadDoorbell ag q v => Sys2Proof.Machine.execCqHeadDoorbell ag q v s
  | .qpEnable ag q v => Sys2Proof.Machine.execQpEnable ag q v s
  | .qpReset ag q => Sys2Proof.Machine.execQpReset ag q s
  | .cqPost ag q v => Sys2Proof.Machine.execCqPost ag q v s
  | .funcWinWrite ag f v => Sys2Proof.Machine.execFuncWinWrite ag f v s
  | .flr f => Sys2Proof.Machine.execFlr f s
  | .linkDown l => Sys2Proof.Machine.execLinkDown l s
  | .perstAssert l => Sys2Proof.Machine.execPerstAssert l s
  | .perstDeassert l => Sys2Proof.Machine.execPerstDeassert l s
  | .configRequest f bar4 ats => Sys2Proof.Machine.execConfigRequest f bar4 ats s
  | .atsInvalidation l page => Sys2Proof.Machine.execAtsInvalidation l page s
  | .sqFetch q now n status far => Sys2Proof.Machine.execSqFetch q now n status far s
  | .ringAccessRetry q now n status far => Sys2Proof.Machine.execRingAccessRetry q now n status far s
  | .stepGrant now => Sys2Proof.Machine.execStepGrant now s
  | .stepEnd q cid => Sys2Proof.Machine.execStepEnd q cid s
  | .admitTimeout q cid now => Sys2Proof.Machine.execAdmitTimeout q cid now s
  | .msixCoalTimer q => Sys2Proof.Machine.execMsixCoalTimer q s
  | .nop q cid => Sys2Proof.Machine.execNop q cid s
  | .identify q cid status => Sys2Proof.Machine.execIdentify q cid status s
  | .getLog q cid status => Sys2Proof.Machine.execGetLog q cid status s
  | .cmdCancel q cid => Sys2Proof.Machine.execCmdCancel q cid s
  | .launch q cid => Sys2Proof.Machine.execLaunch q cid s
  | .launchTimeout q cid ms => Sys2Proof.Machine.execLaunchTimeout q cid ms s
  | .cmdSignal q cid status => Sys2Proof.Machine.execCmdSignal q cid status s
  | .copy q cid far status => Sys2Proof.Machine.execCopy q cid far status s
  | .loadCode q cid far status => Sys2Proof.Machine.execLoadCode q cid far status s
  | .poolAlloc q cid => Sys2Proof.Machine.execPoolAlloc q cid s
  | .poolFree q cid => Sys2Proof.Machine.execPoolFree q cid s
  | .poolMove q cid => Sys2Proof.Machine.execPoolMove q cid s
  | .zeroise q cid => Sys2Proof.Machine.execZeroise q cid s
  | .contextTeardown q cid => Sys2Proof.Machine.execContextTeardown q cid s
  | .rack q cid now far status => Sys2Proof.Machine.execRack q cid now far status s
  | .restore q cid far status => Sys2Proof.Machine.execRestore q cid far status s
  | .loadImage q cid far status v ok => Sys2Proof.Machine.execLoadImage q cid far status v ok s
  | .switchProfile q cid v => Sys2Proof.Machine.execSwitchProfile q cid v s
  | .selfTest q cid step => Sys2Proof.Machine.execSelfTest q cid step s
  | .scrub q cid => Sys2Proof.Machine.execScrub q cid s
  | .admitCfgWrite ag v => Sys2Proof.Machine.execAdmitCfgWrite ag v s
  | .admitPlotWrite ag n v => Sys2Proof.Machine.execAdmitPlotWrite ag n v s
  | .fullImageApply pins v => Sys2Proof.Machine.execFullImageApply pins v s
  | .stagedModuleReset => Sys2Proof.Machine.execStagedModuleReset s
  | .rebindResetRecovery n => Sys2Proof.Machine.execRebindResetRecovery n s
  | .profileLoadEdge slot v => Sys2Proof.Machine.execProfileLoadEdge slot v s
  | .strapPinChange pin differs => Sys2Proof.Machine.execStrapPinChange pin differs s
  | .srvSubmit q cid now far status => Sys2Proof.Machine.execSrvSubmit q cid now far status s
  | .srvCancel q cid => Sys2Proof.Machine.execSrvCancel q cid s
  | .srvModel q cid far mtab status accept => Sys2Proof.Machine.execSrvModel q cid far mtab status accept s
  | .srvToktab q cid far status => Sys2Proof.Machine.execSrvToktab q cid far status s
  | .srvUnload q cid => Sys2Proof.Machine.execSrvUnload q cid s
  | .srvPolicy q cid => Sys2Proof.Machine.execSrvPolicy q cid s
  | .servingStepStart plot slot now status => Sys2Proof.Machine.execServingStepStart plot slot now status s
  | .memberStepOrder plot slot n => Sys2Proof.Machine.execMemberStepOrder plot slot n s
  | .memberStepReport plot slot v code atomic fast timeout probe => Sys2Proof.Machine.execMemberStepReport plot slot v code atomic fast timeout probe s
  | .servingKernelEnd plot slot => Sys2Proof.Machine.execServingKernelEnd plot slot s
  | .servingStepTimeout plot slot ms => Sys2Proof.Machine.execServingStepTimeout plot slot ms s
  | .srvAdmitTimeout rid now => Sys2Proof.Machine.execSrvAdmitTimeout rid now s
  | .promptEncode rid n => Sys2Proof.Machine.execPromptEncode rid n s
  | .watchdogExpiry c t => Sys2Proof.Machine.execWatchdogExpiry c t s
  | .faultRecordFlashCopy => Sys2Proof.Machine.execFaultRecordFlashCopy s
  | .scrubAccess a first last => Sys2Proof.Machine.execScrubAccess a first last s
  | .scrubLapse sram hbm => Sys2Proof.Machine.execScrubLapse sram hbm s
  | .blockTest p b step => Sys2Proof.Machine.execBlockTest p b step s
  | .blockTestOverdue p b => Sys2Proof.Machine.execBlockTestOverdue p b s
  | .liveGraft c cycles cls det chk => Sys2Proof.Machine.execLiveGraft c cycles cls det chk s
  | .coldGraft c cls det => Sys2Proof.Machine.execColdGraft c cls det s
  | .rowColGraft c sub sym words => Sys2Proof.Machine.execRowColGraft c sub sym words s
  | .laneGraft m lane spare => Sys2Proof.Machine.execLaneGraft m lane spare s
  | .routerFence n link => Sys2Proof.Machine.execRouterFence n link s
  | .ageReplan p east => Sys2Proof.Machine.execAgeReplan p east s
  | .ageAlarm p isl ps feed => Sys2Proof.Machine.execAgeAlarm p isl ps feed s
  | .laneReadapt m lane height width => Sys2Proof.Machine.execLaneReadapt m lane height width s
  | .clockIslandFail p isl router => Sys2Proof.Machine.execClockIslandFail p isl router s
  | .railFault p east => Sys2Proof.Machine.execRailFault p east s
  | .phaseFailure rail => Sys2Proof.Machine.execPhaseFailure rail s
  | .stewardMismatch => Sys2Proof.Machine.execStewardMismatch s
  | .ringStopFail p => Sys2Proof.Machine.execRingStopFail p s
  | .resetReqGo ag p v => Sys2Proof.Machine.execResetReqGo ag p v s
  | .drainEnd p us => Sys2Proof.Machine.execDrainEnd p us s
  | .resetRelease p bad => Sys2Proof.Machine.execResetRelease p bad s
  | .modResetGo ag v => Sys2Proof.Machine.execModResetGo ag v s
  | .modResetPin low => Sys2Proof.Machine.execModResetPin low s
  | .teardownHorizon n us => Sys2Proof.Machine.execTeardownHorizon n us s
  | .hangDetect e us => Sys2Proof.Machine.execHangDetect e us s
  | .hangReplay => Sys2Proof.Machine.execHangReplay s
  | .hangReplayEnd ms => Sys2Proof.Machine.execHangReplayEnd ms s
  | .crashDump units fails => Sys2Proof.Machine.execCrashDump units fails s
  | .sidePathTimeout u n => Sys2Proof.Machine.execSidePathTimeout u n s
  | .dumpCtlGo ag v => Sys2Proof.Machine.execDumpCtlGo ag v s
  | .restoreVerifyArrive q cid => Sys2Proof.Machine.execRestoreVerifyArrive q cid s
  | .restoreVerifyTimeout q cid ms => Sys2Proof.Machine.execRestoreVerifyTimeout q cid ms s
  | .nvmeCompletion id ok => Sys2Proof.Machine.execNvmeCompletion id ok s
  | .nvmeOvercurrent => Sys2Proof.Machine.execNvmeOvercurrent s
  | .ptpSync m off now => Sys2Proof.Machine.execPtpSync m off now s
  | .ppsInEdge now => Sys2Proof.Machine.execPpsInEdge now s
  | .servoHoldover announce => Sys2Proof.Machine.execServoHoldover announce s
  | .ref10Loss => Sys2Proof.Machine.execRef10Loss s
  | .ppsSecondBoundary => Sys2Proof.Machine.execPpsSecondBoundary s
  | .timeCfgWrite ag v => Sys2Proof.Machine.execTimeCfgWrite ag v s
  | .timeSet ag v => Sys2Proof.Machine.execTimeSet ag v s
  | .mctpControl src r => Sys2Proof.Machine.execMctpControl src r s
  | .kmpDatagram fabric addr session d => Sys2Proof.Machine.execKmpDatagram fabric addr session d s
  | .spdmMessage src r => Sys2Proof.Machine.execSpdmMessage src r s
  | .getInfo src b => Sys2Proof.Machine.execGetInfo src b s
  | .setModuleId src b => Sys2Proof.Machine.execSetModuleId src b s
  | .setRackLoc src b => Sys2Proof.Machine.execSetRackLoc src b s
  | .partnerRegister src b => Sys2Proof.Machine.execPartnerRegister src b s
  | .nameSuccessor src b => Sys2Proof.Machine.execNameSuccessor src b s
  | .setModmap src b => Sys2Proof.Machine.execSetModmap src b s
  | .setFabric src b => Sys2Proof.Machine.execSetFabric src b s
  | .dumpMessage src b => Sys2Proof.Machine.execDumpMessage src b s
  | .commitSvn src b => Sys2Proof.Machine.execCommitSvn src b s
  | .fwConfirm src b => Sys2Proof.Machine.execFwConfirm src b s
  | .setOwnerRoot src b => Sys2Proof.Machine.execSetOwnerRoot src b s
  | .setMgmtAddr src b => Sys2Proof.Machine.execSetMgmtAddr src b s
  | .timeSetMessage src b => Sys2Proof.Machine.execTimeSetMessage src b s
  | .getTid src => Sys2Proof.Machine.execGetTid src s
  | .setTid src tid => Sys2Proof.Machine.execSetTid src tid s
  | .getPldmVersion src typ => Sys2Proof.Machine.execGetPldmVersion src typ s
  | .getPldmTypes src => Sys2Proof.Machine.execGetPldmTypes src s
  | .getPldmCommands src typ => Sys2Proof.Machine.execGetPldmCommands src typ s
  | .getPdrRepositoryInfo src => Sys2Proof.Machine.execGetPdrRepositoryInfo src s
  | .getPdr src record n => Sys2Proof.Machine.execGetPdr src record n s
  | .getSensorReading src id value => Sys2Proof.Machine.execGetSensorReading src id value s
  | .getStateSensorReadings src id => Sys2Proof.Machine.execGetStateSensorReadings src id s
  | .setEventReceiver src mode addr => Sys2Proof.Machine.execSetEventReceiver src mode addr s
  | .pollForPlatformEventMessage src => Sys2Proof.Machine.execPollForPlatformEventMessage src s
  | .setNumericSensorEnable src id on => Sys2Proof.Machine.execSetNumericSensorEnable src id on s
  | .queryDeviceIdentifiers src => Sys2Proof.Machine.execQueryDeviceIdentifiers src s
  | .getFirmwareParameters src => Sys2Proof.Machine.execGetFirmwareParameters src s
  | .requestUpdate src => Sys2Proof.Machine.execRequestUpdate src s
  | .passComponentTable src comp => Sys2Proof.Machine.execPassComponentTable src comp s
  | .updateComponent src comp size => Sys2Proof.Machine.execUpdateComponent src comp size s
  | .firmwareDataReceived data v => Sys2Proof.Machine.execFirmwareDataReceived data v s
  | .activateFirmware src ok => Sys2Proof.Machine.execActivateFirmware src ok s
  | .getStatus src => Sys2Proof.Machine.execGetStatus src s
  | .cancelUpdateComponent src => Sys2Proof.Machine.execCancelUpdateComponent src s
  | .cancelUpdate src => Sys2Proof.Machine.execCancelUpdate src s
  | .fwTakeover ok sig => Sys2Proof.Machine.execFwTakeover ok sig s
  | .trialAutoConfirm minutes => Sys2Proof.Machine.execTrialAutoConfirm minutes s
  | .fwRecoveryWrite len sig sigs => Sys2Proof.Machine.execFwRecoveryWrite len sig sigs s
  | .recoveryBootTimeout sigs => Sys2Proof.Machine.execRecoveryBootTimeout sigs s
  | .loopbackStart ag lb v => Sys2Proof.Machine.execLoopbackStart ag lb v s
  | .loopbackStop ag lb v => Sys2Proof.Machine.execLoopbackStop ag lb v s
  | .loopbackStep lb errors lock rows => Sys2Proof.Machine.execLoopbackStep lb errors lock rows s
  | .rtrTurnTbWrite ag n v => Sys2Proof.Machine.execRtrTurnTbWrite ag n v s
  | .turnBackStart ag n v => Sys2Proof.Machine.execTurnBackStart ag n v s
  | .turnBackFlitReturn n ok => Sys2Proof.Machine.execTurnBackFlitReturn n ok s
  | .turnBackTimeout n => Sys2Proof.Machine.execTurnBackTimeout n s
  | .idcode => Sys2Proof.Machine.execIdcode s
  | .bypass => Sys2Proof.Machine.execBypass s
  | .samplePreload pins load => Sys2Proof.Machine.execSamplePreload pins load s
  | .extest pins => Sys2Proof.Machine.execExtest pins s
  | .dbgAccess x write far => Sys2Proof.Machine.execDbgAccess x write far s
  | .scan p => Sys2Proof.Machine.execScan p s
  | .mbist p => Sys2Proof.Machine.execMbist p s
  | .hbm1500 p data => Sys2Proof.Machine.execHbm1500 p data s
  | .debugUnlock q sig => Sys2Proof.Machine.execDebugUnlock q sig s
  | .dbgLockWrite ag v => Sys2Proof.Machine.execDbgLockWrite ag v s
  | .dbgHalt c mask => Sys2Proof.Machine.execDbgHalt c mask s
  | .threadHalt c k => Sys2Proof.Machine.execThreadHalt c k s
  | .dbgResume c mask => Sys2Proof.Machine.execDbgResume c mask s
  | .dbgStep c mask => Sys2Proof.Machine.execDbgStep c mask s
  | .dbgDiscard c mask => Sys2Proof.Machine.execDbgDiscard c mask s
  | .chanHoldExpiry c k us => Sys2Proof.Machine.execChanHoldExpiry c k us s
  | .auxPowerUp straps sigs tftp => Sys2Proof.Machine.execAuxPowerUp straps sigs tftp s
  | .railPowerUp feedA feedB present bad => Sys2Proof.Machine.execRailPowerUp feedA feedB present bad s
  | .powerEnFall => Sys2Proof.Machine.execPowerEnFall s
  | .feedDisconnect b => Sys2Proof.Machine.execFeedDisconnect b s
  | .feedReconnect b => Sys2Proof.Machine.execFeedReconnect b s
  | .auxLoss => Sys2Proof.Machine.execAuxLoss s
  | .thermalTrip => Sys2Proof.Machine.execThermalTrip s
  | .coolantAlarm inlet outlet flow long => Sys2Proof.Machine.execCoolantAlarm inlet outlet flow long s
  | .governorPeriod p t sets => Sys2Proof.Machine.execGovernorPeriod p t sets s
  | .pwrCfgWrite ag v => Sys2Proof.Machine.execPwrCfgWrite ag v s
  | .fabricLaneFail m => Sys2Proof.Machine.execFabricLaneFail m s
  | .pcieLinkTrained l => Sys2Proof.Machine.execPcieLinkTrained l s
  | .windowReadTimeout f o n => Sys2Proof.Machine.execWindowReadTimeout f o n s
  | .pcieLoopback l => Sys2Proof.Machine.execPcieLoopback l s
  | .thermTripRelease => Sys2Proof.Machine.execThermTripRelease s
  | .ref10Lock => Sys2Proof.Machine.execRef10Lock s
  | .ptpAnnounce m domain data utc => Sys2Proof.Machine.execPtpAnnounce m domain data utc s
  | .arpNeighbourSolicitation m q own => Sys2Proof.Machine.execArpNeighbourSolicitation m q own s
  | .sensorWarning id on low => Sys2Proof.Machine.execSensorWarning id on low s

end Sys2Proof.Machine
end

