-- ==== Sys2Proof/Machine/Tick.lean ====
section
/-!
DEFINITION. What goes on between the commands: in each cycle the routers pass on what waits, and the issue slot of every core fetches a word of the thread it
chooses and issues it (R57, R60, R105, R287).
-/
namespace Sys2Proof.Machine

/-- The word at a program counter of a partition (R56, R57). -/
def State.fetchWord (s : State) (c world pc : Nat) : BitVec 32 := Sparse.get 0 (s.core c).imem (imemKey world (pc / 4))

/-- A word whose MAJ or FN is reserved comes to issue: illegal, with that detail (R103). A reserved word of format LR has a guard field, which only
tells whether a breakpoint stops it. -/
def State.reservedWord (s : State) (c t : Nat) (w : BitVec 32) (detail : Nat) : Res :=
  s.word c t (if [0x00, 0x01, 0x16, 0x17, 0x1A, 0x1E].contains (majOf w) || (0x20 ≤ majOf w && majOf w < 0x3C) then (lrOf w).g else 0) [detail] .done

/-- The word at thread t's program counter issues (R57, R60, R61). (DESIGN CHOICE: notes/assumptions/2.md.) -/
def State.issueNext (s : State) (c : CoreId) (t : ThreadId) : Res :=
  let s1 := s.tickIssue c t
  let w := s.fetchWord c (s1.world c t) (s1.thr c t).pc
  match decodeCoreWord c t w with
  | .ok i => exec i s
  | .error d => s.reservedWord c t w d

/-- One cycle of a core: the thread the issue slot chooses issues its next word; with none ready the cycle passes (R71, R105). A core in reset, or of a half
without power, does nothing. -/
def State.cycleCore (s : State) (c : CoreId) : Res :=
  if (s.core c).inReset || s.gated (coreP c) (coreHalf c) then .next s
  else
    match s.nextIssue c with
    | some t => if h : t < 8 then s.issueNext c ⟨t, h⟩ else .next s
    | none => .next (s.passTo c ((s.core c).cyc + 1))

/-- One cycle of each core of a list, in its order. -/
def State.cycleAll (s : State) : List Nat → Res
  | [] => .next s
  | c :: rest =>
    if h : c < 10368 then
      match s.cycleCore ⟨c, h⟩ with
      | .next u => u.cycleAll rest
      | r => r
    else s.cycleAll rest

/-- One cycle of the module: the routers grant their outputs to what waits, and every core that is out of reset issues one word or lets the cycle pass, in
ascending order of core numbers. (DESIGN CHOICE: notes/assumptions/2.md.) -/
def State.tick (s : State) : Res := s.tickRouters.cycleAll (s.cores.map (·.1))

end Sys2Proof.Machine
end

