-- ==== Sys2Proof/Machine/Step.lean ====
section
/-!
DEFINITION. One step: the command at the front of the queue takes effect; on an empty queue the cores run for a cycle (notes/assumptions/2.md).
-/
namespace Sys2Proof.Machine

/-- One step. (DESIGN CHOICE: notes/assumptions/2.md.) -/
def step (s : State) : Host.Outcome State Fault Refusal :=
  match s.pending with
  | [] => s.tick
  | c :: rest => exec c { s with pending := rest }

/-- The state with the command that a word spells at the front of its queue; unchanged where the word spells none.
(DESIGN CHOICE: notes/assumptions/2.md.) -/
def State.withFetchWord (s : State) (nbits w : Nat) : State :=
  match decodeTableWord nbits w with
  | some c => { s with pending := c :: s.pending }
  | none => s

end Sys2Proof.Machine
end

