-- ==== Sys2Proof/Safety.lean ====
section
/-!
DEFINITION. What counts as a sound state, and the terms that the statements use: when a word of a thread is carried out, at which state it reads its
operands and what follows it; and what a step leaves alone.
-/
namespace Sys2Proof.Machine

/-- The command completes with a next state of which P holds. -/
def Completes (c : Instr) (s : State) (P : State → Prop) : Prop := ∃ t, exec c s = .next t ∧ P t

/-- The canonical form of memory, of its tags and of its symbols in error: keys strictly rising, no value listed that equals the default. -/
def State.Canonical (s : State) : Prop := Memory.wf s.mem = true ∧ Sparse.wf 0 s.tags = true ∧ Sparse.wf 0 s.bad = true

/-- Every register but those of the given names holds what it held. -/
def State.RegsExcept (u s : State) (l : List RegName) : Prop :=
  ∀ r, r ∉ l → ∀ q i, q < 2 ^ 20 → i < 2 ^ 20 → u.reg r q i = s.reg r q i

/-! ### Words of a thread -/

/-- The state before the operation of a word of thread t: one cycle later, with the writes that are due landed (R71) and the thread's place kept for a
word that fails (R127). -/
def State.begins (s : State) (c t : Nat) : State :=
  let s1 := s.tickIssue c t
  s1.setThr c t { s1.thr c t with snap := s1.ctxOf c t }

/-- The state at which the operation reads its operands: breakpoints that a resume skipped are armed again (R737).
(DESIGN CHOICE: notes/assumptions/59.md.) -/
def State.reads (s : State) (c t : Nat) : State := (s.begins c t).setTf dstat_SKIP c t 0

/-- What follows an operation: the next word's place (R78, R84, R88) and the end of a single step (R738). -/
def State.after (s e : State) (c t : Nat) : State := (s.advance c t (e.thr c t).pc true).stepHalt c t

/-- A word of thread t with guard field g is carried out: the issue slot of its core chooses the thread (R105), the word lies in its world's partition
(R56, R57), its guard holds (R62), no breakpoint matches it (R736), and it is no delay slot's word at the end of a loop (R89). -/
structure State.Runs (s : State) (c t : Nat) (g : BitVec 4) : Prop where
  turn : s.nextIssue c = some t
  fetched : ((s.begins c t).thr c t).pc < fetchLimit ((s.begins c t).world c t)
  guard : guardHolds ((s.begins c t).thr c t).p g = true
  noBreak : (s.begins c t).breakAt c t ((s.begins c t).thr c t).pc = none
  slotEnd : ((s.reads c t).thr c t).slot.isSome = true → (s.reads c t).atLoopEnd c t ((s.reads c t).thr c t).pc = false

/-- A word that must not stand in a delay slot is carried out (R86). -/
structure State.RunsFree (s : State) (c t : Nat) (g : BitVec 4) : Prop extends s.Runs c t g where
  noSlot : ((s.reads c t).thr c t).slot = none

/-- A branch is carried out: it stands in no delay slot and at no loop's end (R86, R89). -/
structure State.RunsBranch (s : State) (c t : Nat) (g : BitVec 4) : Prop extends s.RunsFree c t g where
  noEnd : (s.reads c t).atLoopEnd c t ((s.reads c t).thr c t).pc = false

/-- A word of thread t comes to issue, in its world's partition (R57, R105). -/
structure State.Issues (s : State) (c t : Nat) : Prop where
  turn : s.nextIssue c = some t
  fetched : ((s.begins c t).thr c t).pc < fetchLimit ((s.begins c t).world c t)

/-- A word of thread t with guard field g comes to issue, and its guard is off (R62, R206). -/
structure State.Skips (s : State) (c t : Nat) (g : BitVec 4) : Prop extends s.Issues c t where
  guard : guardHolds ((s.begins c t).thr c t).p g = false

/-- No single step is due, and nothing is in flight to a register: what a word leaves is what its operation wrote. -/
structure State.Settled (s : State) (c t : Nat) : Prop where
  noStep : ((s.reads c t).thr c t).stepReq = false
  noSS : (s.reads c t).tf dstat_SS c t = 0
  landed : ((s.reads c t).thr c t).flight = []

/-- The thread's own exceptions are taken by the thread: EXL is 0 (R123). -/
def State.Taken (s : State) (c t : Nat) : Prop := (s.reads c t).tf wstat_EXL c t = 0

/-- The thread takes its own exceptions of vectors 1 to 5 and 12 (R118, R123), outside a SETM shadow and a delay slot. -/
structure State.TakesOwn (s : State) (c t : Nat) : Prop where
  taken : s.Taken c t
  self : (s.reads c t).tf wstat_SELF c t = 1
  noShadow : ((s.reads c t).thr c t).shadow = 0
  noSlot : ((s.reads c t).thr c t).slot = none

/-- Thread t of core c stands at the entry of vector `vec` (R117, R121): supervisor, EXL 1, IE 0, READY at 16 × vec, with the saved registers telling
where it was, why, and what it accessed. -/
structure State.Entered (u : State) (c t vec det status from_ mode : Nat) (addr : Word) : Prop where
  ready : (u.thr c t).st = .ready
  pc : (u.thr c t).pc = 16 * vec
  level : u.level c t = 1
  exl : u.tf wstat_EXL c t = 1
  ie : u.tf wstat_IE c t = 0
  epc : u.treg .epc c t = BitVec.ofNat 64 (from_ % 65536)
  ecause : u.treg .ecause c t = BitVec.ofNat 64 (vec + det * 2 ^ 24 + status * 2 ^ 48)
  eaddr : u.treg .eaddr c t = addr
  emode : u.treg .emode c t = BitVec.ofNat 64 mode

/-- The place of a thread of core c stands as in `e`, but that its branch at address `pc` is taken to `target` after its delay slot (R84). -/
structure State.Branched (u e : State) (c t target : Nat) (stack : List Nat) : Prop where
  pc : (u.thr c t).pc = (e.thr c t).pc + 4
  slot : (u.thr c t).slot = some ⟨(e.thr c t).pc, some target, (e.thr c t).rstack, e.tf lstat_ACTIVE c t, (e.thr c t).shadow⟩
  rstack : (u.thr c t).rstack = stack
  ready : (u.thr c t).st = .ready

/-- An aligned access of n bytes at window offset `off` of core c's own banks that nothing refuses, stops or delays: the world check (R116), no watchpoint
(R736), the spill region (R98), the pool (R270), the network port (R237), no image still to be moved (R196), and a code word without error (R242). -/
structure State.OwnBank (e : State) (c t off n : Nat) (write : Bool) : Prop where
  inside : off + n ≤ 0x40000 ∨ 0x100000 ≤ off ∧ off + n ≤ 0x300000 ∧ e.poolBacked c = false
  size : n = 1 ∨ n = 4 ∨ n = 8 ∨ n = 64
  aligned : off % n = 0
  allowed : e.worldCheck c off (e.who c t) = none
  noWatch : e.watchHit c t (BitVec.ofNat 64 (0xFFFF <<< 48 + bankAddr c off)) n (!write) write = none
  noSpill : write = true → e.spillRefuses c off n (e.who c t) = false
  portFree : e.portHeld c off = false
  noImage : e.imageOrder c t (.bank c off) n write = false
  clean : ∀ i < n, e.pat (bankAddr c off + i) = 0

/-! ### Agents' requests -/

/-- A write of the agent to offset `off` of core c's registers is not refused (R48, R113, R116, R126, R644). -/
def State.MayWrite (s : State) (ag : Agent) (c off : Nat) : Prop := ∃ p, s.reach (whoOf ag) (pageAddr c off) 8 true = .to p

/-- A write of n bytes by the agent to offset `off` of this module's register space is not refused (R48, R116, R126). -/
def State.MayPut (s : State) (ag : Agent) (off n : Nat) : Prop := ∃ p, s.reach (whoOf ag) (ownAddr off) n true = .to p

/-- What an agent is answered: the last thing sent is a reply with this tag, status and value. -/
def State.Answers (u s : State) (tag status val : Nat) : Prop := u.sent = s.sent ++ [⟨.reply, [tag, status, val]⟩]

/-! ### Channels -/

/-- Channel u stands at instruction i of its program with nothing outstanding (R371). -/
structure State.DmaAt (s : State) (u : Nat) (i : DmaIns) : Prop where
  running : (s.dma u).running = true
  fetched : (s.dma u).fetching = false
  goes : (s.dma u).code = none
  noMove : (s.dma u).move = none
  noWait : (s.dma u).wait = none
  quiet : (s.dma u).outs = []
  notPaused : s.dmaPaused u = false
  ins : dmaAt (s.dma u) = i

/-- An access of n bytes at address a, in one 64-byte block, takes channel u to offset `off` of core c's banks, in code words without error and without
watches, whatever the channels' own books hold. -/
structure State.DmaBank (s : State) (u : Nat) (a : Word) (n : Nat) (write : Bool) (c off : Nat) : Prop where
  block : 0 < n ∧ a.toNat % 64 + n ≤ 64
  reached : ∀ l, ({ s with dmas := l } : State).reach (dmaWho u (s.dma u)) a n write = .to (.bank c off)
  clean : ∀ k < n, s.pat (bankAddr c off + k) = 0
  noWatch : (s.core c).watches = []

/-! ### The fabric -/

/-- Everything that the module's units have sent is packed. -/
def State.Packed (s : State) : Prop := s.kp.fab.cursor = s.sent.length

/-- The message r of operation `op`, in no stream, is the oldest of its lane at port m, and a request that R441 lets in. -/
structure State.Ingress (s : State) (m vc : Nat) (resp : Bool) (r : RxMsg) (op : Nat) : Prop where
  packed : s.Packed
  front : s.rxFront m vc resp = some r
  ins : r.msg.op = op
  allowed : s.rxDenied m r.msg = false
  plain : r.msg.strm = 0

/-- The state u comes of e by answering the request r with operation `op`, a status, `len` bytes of data and ARG, and packing what was sent. -/
def State.AnswersTo (u e : State) (r : RxMsg) (op status len data arg : Nat) : Prop := u = (e.rxAnswer r op status len data arg).egress

/-- A request of r's message reaches offset `off` of core c's banks, in code words without error and without watches, once the message has left its
port's buffer. -/
structure State.IngressBank (s : State) (m : Nat) (r : RxMsg) (n : Nat) (write : Bool) (c off : Nat) : Prop where
  block : 0 < n ∧ r.msg.off < 2 ^ 48 ∧ r.msg.off % 64 + n ≤ 64
  reached : (s.rxTake m r).reach (s.rxWho m r.msg) (ownAddr r.msg.off) n write = .to (.bank c off)
  clean : ∀ k < n, s.pat (bankAddr c off + k) = 0
  noWatch : (s.core c).watches = []

/-! ### Fault records and messages -/

/-- The fault ring's newest record names a class, an action, a plot, DETAIL and LOC (R604, R606). -/
def State.Recorded (u s : State) (cls act plot det loc : Nat) : Prop :=
  let i := s.fld FLT_HEAD_NEXT 0 0
  let w := s.recWords cls act plot (s.fld FLT_STAT_SEQ 0 0) det loc
  u.fld FLT_STAT_SEQ 0 0 = (s.fld FLT_STAT_SEQ 0 0 + 1) % 2 ^ 32 ∧ u.fld FLT_HEAD_NEXT 0 0 = (i + 1) % 2 ^ 10 ∧
  u.reg .FLT_REC_W0 0 i = BitVec.ofNat 64 (w.getD 0 0) ∧ u.reg .FLT_REC_W1 0 i = BitVec.ofNat 64 (w.getD 1 0) ∧
  u.reg .FLT_REC_W2 0 i = BitVec.ofNat 64 (w.getD 2 0) ∧ u.reg .FLT_REC_W3 0 i = BitVec.ofNat 64 (w.getD 3 0)

/-- The last thing that u has sent beyond s is this. -/
def State.SentLast (u s : State) (x : Msg) : Prop := ∃ l, u.sent = s.sent ++ l ++ [x]

/-! ### Memory and words -/

/-- Memory, its tags and its symbols in error are as they were. -/
def State.SameMemory (u s : State) : Prop := u.mem = s.mem ∧ u.tags = s.tags ∧ u.bad = s.bad

/-- The word i of thread t completes with the effect f on the state at which it reads its operands. -/
def Does (i : Instr) (s : State) (c t : Nat) (f : State → State) : Prop :=
  exec i s = .next ((f (s.reads c t)).after (s.reads c t) c t)

end Sys2Proof.Machine
end

