-- ==== Sys2Proof/Certificates/Slice0/Obligations.lean ====
section
/-!
DEFINITION. The statements for the provers: what each family of commands does, where its commands complete, what a step keeps, and what reset leaves.
-/
open Sys2Proof Sys2Proof.Machine

/-- A step takes the command at the front of the queue: it is what exec does with the queue's rest. On an empty queue a cycle passes, the model's choice
(notes/assumptions/2.md): the routers pass on what waits, and a core that is out of reset issues the word at the place of the thread its issue slot chooses
(R57, R60, R105). -/
def Obligations.StepTakesTheFrontCommand : Prop :=
  ∀ (i : Instr) (r : List Instr) (s : State),
    step { s with pending := i :: r } = exec i { s with pending := r } ∧
    step { s with pending := [] } = ({ s with pending := [] } : State).tickRouters.cycleAll (s.cores.map (·.1)) ∧
    (∀ (c : CoreId) (t : ThreadId) (j : Instr), s.nextIssue c = some t →
      decodeCoreWord c t (s.fetchWord c ((s.tickIssue c t).world c t) ((s.tickIssue c t).thr c t).pc) = .ok j → s.cycleCore c = exec j s)

/-- Right after reset nothing waits, nothing has been sent, memory lists nothing, no plot is bound, every core is held in reset (R107, R522, R636), and
every register holds its reset value (R12). -/
def Obligations.ResetStateIsAsTheSpecSays : Prop :=
  let s := State.reset
  s.Canonical ∧ s.pending = [] ∧ s.sent = [] ∧ s.kp.fab.cursor ≤ s.sent.length ∧ (∀ a, s.byte a = 0 ∧ s.tag a = 0 ∧ s.pat a = 0) ∧
  s.boundPlots = [] ∧ s.cp.cmds = [] ∧ (∀ r u i, s.reg r u i = RegName.resetVal r u i) ∧
  ∀ c, (s.core c).inReset = true ∧ (s.core c).cache = [] ∧ (s.core c).mq = [] ∧
    ∀ t, (s.thr c t).pc = 0 ∧ (s.thr c t).st = .stopped ∧ ∀ n, s.x c t n = 0 ∧ s.vr c t n = 0

/-- A reset of a domain leaves every core of it as R54 says, and so do a Compute and a Module reset for every core of the module. -/
def Obligations.CoreResetClearsThreadRegisters : Prop :=
  ∀ (p : Fin 8) (us : BitVec 16) (s : State),
    let cleared := fun (k : Nat) (u : State) => ∀ t : ThreadId,
      (∀ n, u.x k t n = 0 ∧ u.vr k t n = 0) ∧ (∀ n, u.pr k t n = false) ∧ (∀ n, u.lcr k t n = 0) ∧ (∀ n, ((u.thr k t).mbox n).st = .empty) ∧
      (u.thr k t).rstack = [] ∧ u.tf lstat_ACTIVE k t = 0 ∧ u.tf dslim_EN k t = 0 ∧ u.tf rsreg_EN k t = 0
    (s.fld RESET_STAT_STATE p 0 = 2 → Completes (.drainEnd (some p) us) s (fun u =>
      ∀ k ∈ domCores p (s.fld RESET_STAT_DOMAIN p 0) (s.fld RESET_STAT_INDEX p 0), cleared k u)) ∧
    (s.kp.modReset = 1 ∨ s.kp.modReset = 3 → Completes (.drainEnd none us) s (fun u => ∀ k < 10368, cleared k u))

/-- ADD, SUB, the bitwise operations, the shifts, MUL, MULH, DIV and REM write the scalar register that A names, at their distances, and do nothing else
(R210, R211). -/
def Obligations.ScalarArithmeticCompletes : Prop :=
  ∀ (c : CoreId) (t : ThreadId) (w : LR) (s : State), s.Runs c t w.g →
    let b := (s.reads c t).x c t w.b
    let d := (s.reads c t).x c t w.c
    let writes := fun (dist : Nat) (v : Word) (e : State) => e.outX c t w.a v dist
    Does (.intAddSub c t false w) s c t (writes 1 (BitVec.ofInt 64 (b.toInt + d.toInt))) ∧
    Does (.intAddSub c t true w) s c t (writes 1 (BitVec.ofInt 64 (b.toInt - d.toInt))) ∧
    Does (.intLogic c t .and w) s c t (writes 1 (b &&& d)) ∧
    Does (.intLogic c t .or w) s c t (writes 1 (b ||| d)) ∧
    Does (.intLogic c t .xor w) s c t (writes 1 (b ^^^ d)) ∧
    Does (.intLogic c t .andn w) s c t (writes 1 (b &&& ~~~d)) ∧
    Does (.intShift c t .shl w) s c t (writes 1 (BitVec.ofNat 64 (b.toNat * 2 ^ (d.toNat % 64)))) ∧
    Does (.intShift c t .shr w) s c t (writes 1 (BitVec.ofNat 64 (b.toNat / 2 ^ (d.toNat % 64)))) ∧
    Does (.intShift c t .sar w) s c t (writes 1 (BitVec.ofInt 64 (b.toInt / 2 ^ (d.toNat % 64)))) ∧
    Does (.mul c t w) s c t (writes 3 (BitVec.ofInt 64 (b.toInt * d.toInt))) ∧
    Does (.mulh c t false w) s c t (writes 3 (BitVec.ofInt 64 (b.toInt * d.toInt / 2 ^ 64))) ∧
    Does (.mulh c t true w) s c t (writes 3 (BitVec.ofNat 64 (b.toNat * d.toNat / 2 ^ 64))) ∧
    (d ≠ 0 → Does (.div c t false w) s c t (writes 20 (BitVec.ofInt 64 (b.toInt.tdiv d.toInt)))) ∧
    (d ≠ 0 → Does (.div c t true w) s c t (writes 20 (BitVec.ofNat 64 (b.toNat / d.toNat)))) ∧
    (d ≠ 0 → Does (.rem c t false w) s c t (writes 20 (BitVec.ofInt 64 (b.toInt.tmod d.toInt)))) ∧
    (d ≠ 0 → Does (.rem c t true w) s c t (writes 20 (BitVec.ofNat 64 (b.toNat % d.toNat))))

/-- Division by zero and the division that overflows give the values of R211, and complete as every division does. -/
def Obligations.DivisionEdgeCases : Prop :=
  ∀ (c : CoreId) (t : ThreadId) (w : LR) (s : State), s.Runs c t w.g →
    let b := (s.reads c t).x c t w.b
    let d := (s.reads c t).x c t w.c
    let gives := fun (v : Word) (e : State) => e.outX c t w.a v 20
    (d = 0 →
      Does (.div c t false w) s c t (gives (BitVec.ofInt 64 (-1))) ∧ Does (.div c t true w) s c t (gives (BitVec.ofNat 64 (2 ^ 64 - 1))) ∧
      Does (.rem c t false w) s c t (gives b) ∧ Does (.rem c t true w) s c t (gives b)) ∧
    (b.toInt = -2 ^ 63 → d.toInt = -1 →
      Does (.div c t false w) s c t (gives (BitVec.ofInt 64 (-2 ^ 63))) ∧ Does (.rem c t false w) s c t (gives 0))

/-- Every scalar register, s0 too, reads at the thread's next word the value that a word has written to it, and the others read as before. -/
def Obligations.ScalarRegistersHoldWhatIsWritten : Prop :=
  ∀ (c : CoreId) (t : ThreadId) (l : LI) (s : State), s.Runs c t 0 → s.Settled c t →
    Completes (.addi c t l) s (fun u => ∀ n : BitVec 5,
      (u.reads c t).x c t n = if n = l.a then (s.reads c t).x c t l.b + l.imm.signExtend 64 else (s.reads c t).x c t n)

/-- The compares and the predicate words write the predicate that A names, at distance 2, and do nothing else (R212). -/
def Obligations.PredicateWordsComplete : Prop :=
  ∀ (c : CoreId) (t : ThreadId) (w : LR) (s : State), s.Runs c t w.g →
    let e := s.reads c t
    let x := e.x c t w.b
    let y := e.x c t w.c
    let p := e.pr c t w.b
    let q := e.pr c t w.c
    let writes := fun (v : Bool) (e : State) => e.outP c t w.a v 2
    w.a.toNat < 8 →
      Does (.cmp c t .eq w) s c t (writes (decide (x = y))) ∧
      Does (.cmp c t .ne w) s c t (writes (decide (x ≠ y))) ∧
      Does (.cmp c t .lt w) s c t (writes (decide (x.toInt < y.toInt))) ∧
      Does (.cmp c t .ge w) s c t (writes (decide (y.toInt ≤ x.toInt))) ∧
      Does (.cmp c t .ltu w) s c t (writes (decide (x.toNat < y.toNat))) ∧
      Does (.cmp c t .geu w) s c t (writes (decide (y.toNat ≤ x.toNat))) ∧
      (w.b.toNat < 8 → w.c.toNat < 8 →
        Does (.predLogic c t .and w) s c t (writes (p && q)) ∧ Does (.predLogic c t .or w) s c t (writes (p || q)) ∧
        Does (.predLogic c t .xor w) s c t (writes (p != q)) ∧ Does (.predLogic c t .andn w) s c t (writes (p && !q))) ∧
      (w.b.toNat < 8 → w.c = 0 → Does (.pnot c t w) s c t (writes (!p))) ∧
      (w.b.toNat < 2 → w.c = 0 → Does (.pset c t w) s c t (writes (decide (w.b = 1))))

/-- The immediate words ADDI, ANDI, ORI, XORI, the shifts and the rotate by an immediate, LUI and LUH write the scalar register that A names, at distance
1; CMPcc writes the predicate that A names, at distance 2. They do nothing else (R213). -/
def Obligations.ImmediateWordsComplete : Prop :=
  ∀ (c : CoreId) (t : ThreadId) (l : LI) (u : LU) (s : State), s.Runs c t 0 →
    let x := (s.reads c t).x c t l.b
    let old := (s.reads c t).x c t u.a
    let n := l.imm.toNat % 64
    let k : Word := (l.imm.truncate 12 : BitVec 12).signExtend 64
    let writesI := fun (v : Bool) (e : State) => e.outP c t l.a v 2
    let writes := fun (v : Word) (e : State) => e.outX c t l.a v 1
    let writesU := fun (v : Word) (e : State) => e.outX c t u.a v 1
    Does (.addi c t l) s c t (writes (BitVec.ofInt 64 (x.toInt + l.imm.toInt))) ∧
    Does (.logicImm c t .andi l) s c t (writes (x &&& BitVec.ofNat 64 l.imm.toNat)) ∧
    Does (.logicImm c t .ori l) s c t (writes (x ||| BitVec.ofNat 64 l.imm.toNat)) ∧
    Does (.logicImm c t .xori l) s c t (writes (x ^^^ BitVec.ofNat 64 l.imm.toNat)) ∧
    (l.imm.toNat / 64 % 128 = 0 →
      (l.imm.toNat / 8192 = 0 → Does (.shiftImm c t l) s c t (writes (BitVec.ofNat 64 (x.toNat * 2 ^ n)))) ∧
      (l.imm.toNat / 8192 = 1 → Does (.shiftImm c t l) s c t (writes (BitVec.ofNat 64 (x.toNat / 2 ^ n)))) ∧
      (l.imm.toNat / 8192 = 2 → Does (.shiftImm c t l) s c t (writes (BitVec.ofInt 64 (x.toInt / 2 ^ n)))) ∧
      (l.imm.toNat / 8192 = 3 → Does (.shiftImm c t l) s c t (writes (BitVec.ofNat 64 (x.toNat / 2 ^ n + x.toNat * 2 ^ (64 - n)))))) ∧
    Does (.lui c t u) s c t (writesU (BitVec.ofInt 64 (u.imm.toInt * 4096))) ∧
    Does (.luh c t u) s c t (writesU (BitVec.ofNat 64 (u.imm.toNat * 2 ^ 44 + old.toNat % 2 ^ 44))) ∧
    (l.a.toNat < 8 →
      (l.imm.toNat / 4096 = 0 → Does (.cmpImm c t l) s c t (writesI (decide (x = k)))) ∧
      (l.imm.toNat / 4096 = 1 → Does (.cmpImm c t l) s c t (writesI (decide (x ≠ k)))) ∧
      (l.imm.toNat / 4096 = 2 → Does (.cmpImm c t l) s c t (writesI (decide (x.toInt < k.toInt)))) ∧
      (l.imm.toNat / 4096 = 3 → Does (.cmpImm c t l) s c t (writesI (decide (k.toInt ≤ x.toInt)))) ∧
      (l.imm.toNat / 4096 = 4 → Does (.cmpImm c t l) s c t (writesI (decide (x.toNat < k.toNat)))) ∧
      (l.imm.toNat / 4096 = 5 → Does (.cmpImm c t l) s c t (writesI (decide (k.toNat ≤ x.toNat)))) ∧
      (l.imm.toNat / 4096 = 6 → Does (.cmpImm c t l) s c t (writesI (decide (k.toInt < x.toInt)))) ∧
      (l.imm.toNat / 4096 = 7 → Does (.cmpImm c t l) s c t (writesI (decide (x.toInt ≤ k.toInt)))))

/-- A word with a field above its register file, or a non-zero bit in a field that must be zero, is illegal, the lowest detail of those it meets, whether
its guard holds or not (R63, R64, R103, R206). -/
def Obligations.IllegalFieldsAreTaken : Prop :=
  ∀ (c : CoreId) (t : ThreadId) (w : LR) (l : LI) (rel : Rel) (lo : LogicOp) (s : State),
    s.Issues c t → (s.begins c t).breakAt c t ((s.begins c t).thr c t).pc = none → s.Settled c t → s.TakesOwn c t →
    let e := s.reads c t
    let illegal := fun (det : Nat) (i : Instr) => Completes i s (fun u => u.Entered c t 1 det 0 (e.thr c t).pc (e.treg .mode c t).toNat 0)
    let wide := 16 ≤ w.a.toNat ∨ 16 ≤ w.b.toNat ∨ 16 ≤ w.c.toNat
    (8 ≤ w.a.toNat → illegal 0x11 (.cmp c t rel w)) ∧
    (8 ≤ w.b.toNat ∨ 8 ≤ w.c.toNat → illegal 0x10 (.predLogic c t lo w)) ∧
    (w.b.toNat < 8 → w.c.toNat < 8 → 8 ≤ w.a.toNat → illegal 0x11 (.predLogic c t lo w)) ∧
    (w.b.toNat < 8 → w.c ≠ 0 → illegal 0x11 (.pnot c t w)) ∧
    (2 ≤ w.b.toNat ∨ w.c ≠ 0 → illegal 0x11 (.pset c t w)) ∧
    (l.imm.toNat / 64 % 128 ≠ 0 → illegal 0x11 (.shiftImm c t l)) ∧
    (8 ≤ l.a.toNat → illegal 0x11 (.cmpImm c t l)) ∧
    (w.a ≠ 0 ∨ w.b ≠ 0 ∨ w.c ≠ 0 → illegal 0x11 (.sleep c t w)) ∧
    (wide → illegal 0x10 (.vintArith c t 0 2 w))

/-- A word whose guard is off still occupies its place, a branch its delay slot, and does nothing else (R62, R84, R206). A command whose thread the
issue slot does not choose (one not READY, one whose turn has not come, or one whose core is held in Core reset or has no power: R38, R104, R105) changes
nothing. That such a command is no error is the model's choice (notes/assumptions/6.md). -/
def Obligations.WordsWithoutEffect : Prop :=
  (∀ (c : CoreId) (t : ThreadId) (w : LR) (b : LB) (f : Bool) (lo : LogicOp) (sh : ShiftOp) (s : State), s.Settled c t →
    let e := s.reads c t
    let advances := fun (i : Instr) => Completes i s (fun u => u = e.after e c t ∧ u.SameMemory e ∧ u.sent = e.sent ∧ u.kp = e.kp ∧
      ∀ n, u.x c t n = e.x c t n ∧ u.vr c t n = e.vr c t n ∧ u.pr c t n = e.pr c t n ∧ (u.thr c t).mb = (e.thr c t).mb)
    let passes := fun (i : Instr) => (e.thr c t).slot = none → Completes i s (fun u => u.SameMemory e ∧ u.sent = e.sent ∧ (u.thr c t).rstack = (e.thr c t).rstack ∧
      (u.thr c t).pc = (e.thr c t).pc + 4 ∧ u.tf lstat_ACTIVE c t = e.tf lstat_ACTIVE c t ∧
      (u.thr c t).slot = some ⟨(e.thr c t).pc, none, (e.thr c t).rstack, e.tf lstat_ACTIVE c t, (e.thr c t).shadow⟩)
    (s.Skips c t w.g →
      advances (.intAddSub c t f w) ∧ advances (.intLogic c t lo w) ∧ advances (.intShift c t sh w) ∧ advances (.mul c t w) ∧
      advances (.mulh c t f w) ∧ advances (.div c t f w) ∧ advances (.rem c t f w) ∧ advances (.aadd c t false w) ∧ advances (.aswap c t false w) ∧
      (w.a = 0 → w.b = 0 → w.c = 0 → advances (.sleep c t w)) ∧
      passes (.jr c t w) ∧ passes (.callr c t w) ∧ (w.b = 0 → passes (.ret c t w))) ∧
    (s.Skips c t b.g → passes (.b c t b) ∧ passes (.call c t b))) ∧
  (∀ (c : CoreId) (t : ThreadId) (f : Bool) (w : LR) (l : LI) (u : LU) (b : LB) (o : LL) (lo : LogicOp) (sh : ShiftOp) (rel : Rel) (im : ImmOp) (z : MbSize) (q : TsetClass) (v : BitVec 6) (mv : VMoveOp) (pr : BitVec 32) (k m : BitVec 3) (s : State),
    s.nextIssue c ≠ some t →
    let idle := fun (i : Instr) => exec i s = .next s
    idle (.intAddSub c t f w) ∧ idle (.intLogic c t lo w) ∧ idle (.intShift c t sh w) ∧ idle (.mul c t w) ∧ idle (.mulh c t f w) ∧ idle (.div c t f w) ∧
    idle (.rem c t f w) ∧ idle (.cmp c t rel w) ∧ idle (.predLogic c t lo w) ∧ idle (.pnot c t w) ∧ idle (.pset c t w) ∧ idle (.addi c t l) ∧
    idle (.logicImm c t im l) ∧ idle (.shiftImm c t l) ∧ idle (.cmpImm c t l) ∧ idle (.lui c t u) ∧ idle (.luh c t u) ∧ idle (.ld c t l) ∧
    idle (.ldw c t l) ∧ idle (.ldb c t l) ∧ idle (.st c t l) ∧ idle (.stw c t l) ∧ idle (.stb c t l) ∧ idle (.aadd c t f w) ∧ idle (.amin c t f w) ∧
    idle (.amax c t f w) ∧ idle (.aswap c t f w) ∧ idle (.acas c t f w) ∧ idle (.ldfe c t f w) ∧ idle (.ldff c t f w) ∧ idle (.stfe c t w) ∧
    idle (.stf c t w) ∧ idle (.sete c t w) ∧ idle (.mbLoad c t z w) ∧ idle (.paddX c t w) ∧ idle (.paddT c t w) ∧ idle (.paddF c t w) ∧ idle (.wrf c t w) ∧
    idle (.mbrd c t w) ∧ idle (.mbtst c t w) ∧ idle (.mbwait c t w) ∧ idle (.mbset c t w) ∧ idle (.cflush c t w) ∧ idle (.cinv c t w) ∧
    idle (.cflinv c t w) ∧ idle (.cinvAll c t w) ∧ idle (.preload c t w) ∧ idle (.clock c t w) ∧ idle (.cunlock c t w) ∧ idle (.pref c t w) ∧
    idle (.b c t b) ∧ idle (.call c t b) ∧ idle (.jr c t w) ∧ idle (.callr c t w) ∧ idle (.ret c t w) ∧ idle (.loop c t o) ∧ idle (.gets c t l) ∧
    idle (.sets c t l) ∧ idle (.trap c t w) ∧ idle (.rfe c t w) ∧ idle (.isync c t w) ∧ idle (.setm c t w) ∧ idle (.tstart c t w) ∧ idle (.tstop c t w) ∧
    idle (.tset c t q w) ∧ idle (.lcrd c t w) ∧ idle (.lcwr c t w) ∧ idle (.rspill c t w) ∧ idle (.rsfill c t w) ∧ idle (.sleep c t w) ∧
    idle (.waitf c t w) ∧ idle (.waken c t w) ∧ idle (.fence c t w) ∧ idle (.pairIssue c t pr) ∧ idle (.vintArith c t k m w) ∧ idle (.vlogic c t k m w) ∧
    idle (.vfloat c t k m w) ∧ idle (.vcmp c t k m w) ∧ idle (.vanyVall c t f k w) ∧ idle (.vspecial c t f k m w) ∧ idle (.vcvt c t v w) ∧
    idle (.vmove c t mv k w) ∧ idle (.vpermRot c t f k w) ∧ idle (.vext c t k w) ∧ idle (.vreduce c t k m w) ∧ idle (.vld c t w) ∧ idle (.vst c t w) ∧
    idle (.tcfg c t w) ∧ idle (.tld c t w) ∧ idle (.tldR c t w) ∧ idle (.tst c t w) ∧ idle (.tldq c t w) ∧ idle (.tmovv c t w) ∧ idle (.tmovt c t w) ∧
    idle (.tscl c t w) ∧ idle (.tsclw c t w) ∧ idle (.trel c t w) ∧ idle (.mma c t v w) ∧ idle (.acvt c t w) ∧ idle (.azero c t w) ∧ idle (.astx c t w) ∧
    idle (.aldx c t w) ∧ idle (.aldxAdd c t w) ∧ idle (.msync c t w))

/-- The words of scalar, predicate and vector registers change nothing but their own core, whatever they end in: memory, tags and symbols in error, every
other core, every channel, router, command and management unit, and every register of another unit stand. A cycle of the core also
lands what earlier words wrote: no thread sleeps at a pair word, and no SETS of ccfg is on its way, whose effects reach memory. -/
def Obligations.RegisterWordsChangeOnlyTheirCore : Prop :=
  ∀ (c : CoreId) (t : ThreadId) (w : LR) (l : LI) (u : LU) (f : Bool) (lo : LogicOp) (sh : ShiftOp) (rel : Rel) (im : ImmOp) (k m : BitVec 3)
    (cv : BitVec 6) (mv : VMoveOp) (s : State),
    let inside := fun (i : Instr) => Completes i s (fun e => e.SameMemory s ∧ e.kp = s.kp ∧ e.cp = s.cp ∧ e.dmas = s.dmas ∧ e.routers = s.routers ∧
      e.lmap = s.lmap ∧ e.tuW1 = s.tuW1 ∧ e.epochs = s.epochs ∧ (∀ d : Nat, d ≠ c → e.core d = s.core d) ∧
      ∀ r, ∀ q < 2 ^ 20, ∀ i < 2 ^ 20, q ≠ c.val → e.reg r q i = s.reg r q i)
    (∀ j < 8, (∀ p x, (s.thr c j).wait ≠ .pair p x) ∧
      ∀ g ∈ (s.thr c j).flight, ∀ n b, g.dest = .sreg n b → (sregAt n).map (·.1) ≠ some .ccfg) →
    inside (.intAddSub c t f w) ∧ inside (.intLogic c t lo w) ∧ inside (.intShift c t sh w) ∧ inside (.mul c t w) ∧ inside (.mulh c t f w) ∧
    inside (.div c t f w) ∧ inside (.rem c t f w) ∧ inside (.cmp c t rel w) ∧ inside (.predLogic c t lo w) ∧ inside (.pnot c t w) ∧
    inside (.pset c t w) ∧ inside (.addi c t l) ∧ inside (.logicImm c t im l) ∧ inside (.shiftImm c t l) ∧ inside (.cmpImm c t l) ∧
    inside (.lui c t u) ∧ inside (.luh c t u) ∧ inside (.lcrd c t w) ∧ inside (.lcwr c t w) ∧ inside (.b c t ⟨w.g, 0⟩) ∧ inside (.jr c t w) ∧
    inside (.vintArith c t k m w) ∧ inside (.vlogic c t k m w) ∧ inside (.vfloat c t k m w) ∧ inside (.vcmp c t k m w) ∧
    inside (.vanyVall c t f m w) ∧ inside (.vspecial c t f k m w) ∧ inside (.vcvt c t cv w) ∧ inside (.vmove c t mv m w) ∧
    inside (.vpermRot c t f m w) ∧ inside (.vext c t m w) ∧ inside (.vreduce c t k m w)

/-- A load from an own bank reads the bytes at the address B + IMM15, little-endian and zero-extended, into A, at distance 4 from scratch and 7 from the
cellar (R75, R214). A store to an own bank writes A's low bytes at the address B + IMM15, and every other byte of memory reads as before; tags and every
register of the thread stand (R214, R245). -/
def Obligations.OwnBankLoadsAndStoresComplete : Prop :=
  (∀ (c : CoreId) (t : ThreadId) (l : LI) (s : State) (off : Nat), s.Runs c t 0 →
    let e := s.reads c t
    let dist := if off < 0x40000 then 4 else 7
    e.x c t l.b + l.imm.signExtend 64 = BitVec.ofNat 64 (0xFFFF <<< 48 + bankAddr c off) →
    (e.OwnBank c t off 8 false → Does (.ld c t l) s c t (fun e => e.fly c t (.s l.a.toNat) (e.readLE (bankAddr c off) 8) dist)) ∧
    (e.OwnBank c t off 4 false → Does (.ldw c t l) s c t (fun e => e.fly c t (.s l.a.toNat) (e.readLE (bankAddr c off) 4) dist)) ∧
    (e.OwnBank c t off 1 false → Does (.ldb c t l) s c t (fun e => e.fly c t (.s l.a.toNat) (e.readLE (bankAddr c off) 1) dist))) ∧
  (∀ (c : CoreId) (t : ThreadId) (l : LI) (s : State) (off : Nat), s.Runs c t 0 → s.Settled c t →
    let e := s.reads c t
    let stored := fun (n : Nat) (u : State) =>
      u.readLE (bankAddr c off) n = (e.x c t l.a).toNat % 2 ^ (8 * n) ∧
      (∀ a, a < bankAddr c off ∨ bankAddr c off + n ≤ a → u.byte a = e.byte a) ∧
      u.tags = e.tags ∧ (∀ r, u.x c t r = e.x c t r ∧ u.vr c t r = e.vr c t r) ∧ (u.thr c t).p = (e.thr c t).p ∧
      (∀ d : Nat, d ≠ c → u.core d = e.core d) ∧ u.kp = e.kp ∧ u.cp = e.cp ∧ u.dmas = e.dmas
    e.x c t l.b + l.imm.signExtend 64 = BitVec.ofNat 64 (0xFFFF <<< 48 + bankAddr c off) →
    (e.OwnBank c t off 8 true → Completes (.st c t l) s (stored 8)) ∧
    (e.OwnBank c t off 4 true → Completes (.stw c t l) s (stored 4)) ∧
    (e.OwnBank c t off 1 true → Completes (.stb c t l) s (stored 1)))

/-- A mailbox-directed load from an own bank makes the mailbox that A names PENDING and puts the value on its way to it; MBRD of a FULL mailbox reads and
empties it, MBTST tests it, MBWAIT goes on, and MBSET fills it (R80, R81, R216, R220). -/
def Obligations.MailboxWordsComplete : Prop :=
  ∀ (c : CoreId) (t : ThreadId) (w : LR) (s : State) (off : Nat), s.Runs c t w.g →
    let e := s.reads c t
    let box := fun (n : Nat) => (e.thr c t).mbox n
    let set := fun (n : Nat) (m : Mbox) (q : State) => q.setThr c t ((q.thr c t).setMbox n m)
    let dist := if off < 0x40000 then 4 else 7
    (w.a.toNat < 4 → (box w.a.toNat).st = .empty → e.x c t w.b = BitVec.ofNat 64 (0xFFFF <<< 48 + bankAddr c off) →
      (e.OwnBank c t off 8 false → Does (.mbLoad c t .d w) s c t (fun e =>
        (set w.a.toNat { st := .pending } e).fly c t (.mbox w.a.toNat) (e.readLE (bankAddr c off) 8) dist)) ∧
      (e.OwnBank c t off 4 false → Does (.mbLoad c t .w w) s c t (fun e =>
        (set w.a.toNat { st := .pending } e).fly c t (.mbox w.a.toNat) (e.readLE (bankAddr c off) 4) dist)) ∧
      (e.OwnBank c t off 1 false → Does (.mbLoad c t .b w) s c t (fun e =>
        (set w.a.toNat { st := .pending } e).fly c t (.mbox w.a.toNat) (e.readLE (bankAddr c off) 1) dist))) ∧
    (w.b.toNat < 4 → w.c = 0 → (box w.b.toNat).st = .full →
      Does (.mbrd c t w) s c t (fun e => (set w.b.toNat {} e).fly c t (.s w.a.toNat) (box w.b.toNat).val.toNat 2)) ∧
    (w.a.toNat < 8 →
      Does (.mbtst c t w) s c t (fun e => (if e.world c t = 0 then e.bump DET_CNT_PROBE c 0 else e).outP c t w.a
        (decide ((box (w.b.toNat % 4)).st = .full ∨ (box (w.b.toNat % 4)).st = .error)) 2)) ∧
    (w.a = 0 → w.b.toNat < 16 → w.c = 0 →
      (∃ n < 4, w.b.toNat / 2 ^ n % 2 = 1 ∧ ((box n).st = .full ∨ (box n).st = .error)) → Does (.mbwait c t w) s c t id) ∧
    (w.a = 0 → (box (w.b.toNat % 4)).st ≠ .pending → e.level c t = 1 →
      Does (.mbset c t w) s c t (fun e => set (w.b.toNat % 4) { box (w.b.toNat % 4) with st := .full, val := e.x c t w.c } e))

/-- B, CALL, JR, CALLR and RET are taken after their delay slot: B and CALL to the branch's address plus 4 × OFF21, JR and CALLR to B's bits 15 to 0, RET
to the top of the return stack; a register target that is no multiple of 4 is misaligned; calls push the address after the delay slot, and RET pops it
(R84, R85, R95, R222). -/
def Obligations.BranchesComplete : Prop :=
  ∀ (c : CoreId) (t : ThreadId) (b : LB) (w : LR) (s : State), s.Settled c t →
    let e := s.reads c t
    let pc := (e.thr c t).pc
    let stack := (e.thr c t).rstack
    let reg := (e.x c t w.b).toNat % 65536
    (s.RunsBranch c t b.g → ∀ a : Nat, (a : Int) = pc + 4 * b.off.toInt →
      Completes (.b c t b) s (fun u => u.Branched e c t a stack) ∧
      (stack.length < 16 → Completes (.call c t b) s (fun u => u.Branched e c t a ((pc + 8) % 65536 :: stack)))) ∧
    (s.RunsBranch c t w.g → reg % 4 = 0 →
      Completes (.jr c t w) s (fun u => u.Branched e c t reg stack) ∧
      (stack.length < 16 → Completes (.callr c t w) s (fun u => u.Branched e c t reg ((pc + 8) % 65536 :: stack)))) ∧
    (s.RunsBranch c t w.g → s.TakesOwn c t → reg % 4 ≠ 0 →
      Completes (.jr c t w) s (fun u => u.Entered c t 2 0 0 pc (e.treg .mode c t).toNat 0) ∧
      Completes (.callr c t w) s (fun u => u.Entered c t 2 0 0 pc (e.treg .mode c t).toNat 0)) ∧
    (s.RunsBranch c t w.g → w.b = 0 → ∀ a rest, stack = a :: rest → Completes (.ret c t w) s (fun u => u.Branched e c t a rest))

/-- LOOP with a count from the word or a register, above zero, makes its level active over the words that follow, with the count on its way to the level's
counter at distance 3; with a count of zero it goes to the word after the body (no active level's body ends at it). LCRD reads and LCWR writes a counter
(R87, R91, R222, R224). -/
def Obligations.LoopWordsComplete : Prop :=
  ∀ (c : CoreId) (t : ThreadId) (l : LL) (w : LR) (s : State),
    let e := s.reads c t
    let pc := (e.thr c t).pc
    let k := l.lvl.toNat
    let stop := l.stop.toNat
    let n := if l.i then l.cnt.toNat else (e.x c t (l.cnt.truncate 5)).toNat % 2 ^ 32
    (s.RunsFree c t 0 → s.Settled c t → (l.i = true ∨ l.cnt.toNat < 32) → e.tf lstat_ACTIVE c t / 2 ^ k % 2 = 0 → stop ≠ 0 → pc % 4 = 0 →
      (n = 0 → e.atLoopEnd c t pc = false → Completes (.loop c t l) s (fun u => (u.thr c t).pc = pc + 4 * (stop + 1) ∧ u.regs = e.regs ∧ (u.thr c t).lc = (e.thr c t).lc)) ∧
      (n ≠ 0 → e.tf lstat_ACTIVE c t = 0 → stop ≠ 0 → Completes (.loop c t l) s (fun u =>
        u.tf lstat_ACTIVE c t = 2 ^ k ∧ u.tf lpa_START c t k = (pc / 4 + 1) % 2 ^ 14 ∧ u.tf lpa_END c t k = (pc / 4 + stop) % 2 ^ 14 ∧
        (u.thr c t).flight = [⟨.lc k, n, (e.core c).cyc + 3⟩] ∧ (u.thr c t).pc = pc + 4))) ∧
    (s.Runs c t w.g → w.b.toNat < 4 →
      Does (.lcrd c t w) s c t (fun e => e.outX c t w.a (BitVec.ofNat 64 (Sparse.get 0 (e.thr c t).lc w.b.toNat)) 1)) ∧
    (s.Runs c t w.g → w.a.toNat < 4 → Does (.lcwr c t w) s c t (fun e => e.fly c t (.lc w.a.toNat) (e.x c t w.b).toNat 3))

/-- TRAP enters vector 64 + n with epc at the word after; RFE restores level, IE and place from the saved registers; ISYNC only goes on; SETM sets the
mode, which the second word after sees (R78, R121, R130, R131, R224). GETS reads a state register into A at distance 2 and SETS puts B on its way to one
at distance 3, where the thread's level permits the register (R99, R100, R102, R222); one that turns the cache off waits until it is empty (R266). -/
def Obligations.SystemAndStateRegisterWordsComplete : Prop :=
  (∀ (c : CoreId) (t : ThreadId) (w : LR) (s : State), s.Settled c t →
    let e := s.reads c t
    let h := e.thr c t
    let n := w.b.toNat * 32 + w.c.toNat
    let saved := e.tf estat_SAVED c t
    (s.RunsFree c t w.g → s.Taken c t → w.a = 0 → n < 256 → h.shadow = 0 →
      Completes (.trap c t w) s (fun u => u.Entered c t (64 + n) 0 0 (h.pc + 4) (e.treg .mode c t).toNat 0)) ∧
    (s.RunsFree c t w.g → w.a = 0 → w.b = 0 → w.c = 0 → e.level c t = 1 → saved / 2 % 2 = e.world c t →
      e.tf estat_RSVD c t = 0 → e.tf estat_SHADOW c t ≠ 3 →
      Completes (.rfe c t w) s (fun u => (u.thr c t).pc = e.tf epc_ADDR c t * 4 ∧ (u.thr c t).slot = none ∧
        u.level c t = saved % 2 ∧ u.world c t = e.world c t ∧ u.tf wstat_IE c t = saved / 32 % 2 ∧ u.tf wstat_EXL c t = 0 ∧
        u.tf rstat_INH c t = 0 ∧ (u.thr c t).shadow = e.tf estat_SHADOW c t)) ∧
    (s.Runs c t w.g → w.a = 0 → w.b = 0 → w.c = 0 → Does (.isync c t w) s c t id) ∧
    (s.RunsFree c t w.g → (n = 0 ∨ n = 1 ∨ n = 4 ∨ n = 5) → h.shadow = 0 →
      Completes (.setm c t w) s (fun u => u.treg .mode c t = BitVec.ofNat 64 n ∧ (u.thr c t).shadow = 2 ∧
        (u.thr c t).oldMode = (e.treg .mode c t).toNat))) ∧
  (∀ (c : CoreId) (t : ThreadId) (l : LI) (s : State) (r : RegName) (i : Nat), s.Runs c t 0 →
    let e := s.reads c t
    l.imm.toNat < 1024 → sregAt l.imm.toNat = some (r, i) →
    (l.b = 0 → (r.getsSup = true → e.level c t = 1) → r.varies = false →
      Does (.gets c t l) s c t (fun e => e.outX c t l.a (e.gets c t r i) 2)) ∧
    (l.a = 0 → (r.setsSup = true → e.level c t = 1) →
      let lands := fun (e : State) => e.fly c t (.sreg l.imm.toNat (decide (e.level c t = 1))) (e.x c t l.b).toNat 3
      let turnsOff := r = .ccfg ∧ e.world c t = 1 ∧ e.fld ccfg_EN c 0 = 1 ∧ (e.x c t l.b).toNat % 2 = 0
      (¬ turnsOff → Does (.sets c t l) s c t lands) ∧
      (turnsOff → Does (.sets c t l) s c t (fun e => (lands e).waitOn c t .cacheOff))))

/-- Supervisor code starts a STOPPED thread of its world at an address or resumes a SUSPENDED one, writes its registers, and stops it: a thread that is
not running stays as it is, a sleeping one is SUSPENDED at once, and for a running one the issuer waits until its word boundary (R108 to R112, R225).
RSPILL moves the oldest entries of the return stack to own scratch from the spill pointer upward, and RSFILL brings them back (R97, R224). -/
def Obligations.ThreadControlAndSpillWordsComplete : Prop :=
  (∀ (c : CoreId) (t : ThreadId) (w : LR) (s : State) (k : Nat), s.Runs c t w.g → s.Settled c t → w.c.toNat = k → k < 8 → k ≠ t →
    let e := s.reads c t
    e.level c t = 1 → e.world c k = e.world c t →
    (w.b = 0 → (e.x c t w.a).toNat % 4 = 0 → (e.thr c k).st = .stopped →
      Completes (.tstart c t w) s (fun u => (u.thr c k).st = .ready ∧ (u.thr c k).pc = (e.x c t w.a).toNat % 65536 ∧
        u.level c k = 0 ∧ u.tf wstat_EXL c k = 0 ∧ u.tf wstat_IE c k = 0 ∧ u.world c k = e.world c k)) ∧
    (w.b = 1 → (e.thr c k).st = .suspended →
      Completes (.tstart c t w) s (fun u => (u.thr c k).st = .ready ∧ (u.thr c k).pc = (e.thr c k).pc ∧ u.treg .wstat c k = e.treg .wstat c k)) ∧
    (w.a = 0 → w.b = 0 → ((e.thr c k).st = .stopped ∨ (e.thr c k).st = .suspended) → Does (.tstop c t w) s c t id) ∧
    (w.a = 0 → w.b = 0 → (e.thr c k).st = .ready → Completes (.tstop c t w) s (fun u =>
      (u.thr c k).stopReq = true ∧ (u.thr c t).st = .waiting ∧ (u.thr c t).wait = .tstop k)) ∧
    (((e.thr c k).st = .stopped ∨ (e.thr c k).st = .suspended) →
      Completes (.tset c t .scalar w) s (fun u => u.x c k w.a = e.x c t w.b ∧ ∀ r, r ≠ w.a → u.x c k r = e.x c k r) ∧
      (w.a.toNat < 4 → Completes (.tset c t .loop w) s (fun u => u.lcr c k w.a.toNat = (e.x c t w.b).toNat % 2 ^ 32)) ∧
      (w.a.toNat < 8 → Completes (.tset c t .pred w) s (fun u => u.pr c k w.a = decide ((e.x c t w.b).toNat % 2 = 1))) ∧
      (w.a.toNat = 3 → Completes (.tset c t .sreg0 w) s (fun u => u.tf wtimeout_EN c k = (e.x c t w.b).toNat / 2 ^ 31 % 2)) ∧
      (w.a.toNat = 0x0A → Completes (.tset c t .sreg2 w) s (fun u => u.tf rspill_PTR c k = (e.x c t w.b).toNat / 8 % 2 ^ 15)))) ∧
  (∀ (c : CoreId) (t : ThreadId) (w : LR) (s : State) (a : Nat) (rest : List Nat), s.Runs c t w.g → s.Settled c t → w.b = 0 → w.c = 0 →
    let e := s.reads c t
    let lo := e.tf rspill_PTR c t
    let held := e.tf rstat_SPILLED c t
    e.level c t = 1 → e.tf rsreg_EN c t = 0 →
    (lo + 1 ≤ 0x8000 → lo + 1 < 2 ^ 15 → held + 1 < 2 ^ 32 → e.pat (bankAddr c (8 * lo)) = 0 → e.worldCheck c (lo * 8) (e.who c t) = none →
      e.spillForeign c t (lo * 8) 8 = false → (e.thr c t).rstack = rest ++ [a] → a < 65536 →
      Completes (.rspill c t w) s (fun u => (u.thr c t).rstack = rest ∧ u.readLE (bankAddr c (8 * lo)) 8 = a ∧
        u.tf rspill_PTR c t = lo + 1 ∧ u.tf rstat_SPILLED c t = held + 1 ∧
        ∀ x, x < bankAddr c (8 * lo) ∨ bankAddr c (8 * lo) + 8 ≤ x → u.byte x = e.byte x)) ∧
    (0 < lo → lo ≤ 0x8000 → 0 < held → (e.thr c t).rstack.length < 16 → e.pat (bankAddr c (8 * (lo - 1))) = 0 →
      e.worldCheck c ((lo - 1) * 8) (e.who c t) = none →
      Completes (.rsfill c t w) s (fun u => (u.thr c t).rstack = (e.thr c t).rstack ++ [e.readLE (bankAddr c (8 * (lo - 1))) 8 % 65536 / 4 * 4] ∧
        u.tf rspill_PTR c t = lo - 1 ∧ u.tf rstat_SPILLED c t = held - 1 ∧ u.mem = e.mem)))

/-- An atomic on a word of an own bank writes the sum, the signed minimum or maximum, the new value, or the new value where the word equals the compared
one, and gives the old value to A (R216, R219). -/
def Obligations.OwnBankAtomicsComplete : Prop :=
  ∀ (c : CoreId) (t : ThreadId) (w : LR) (s : State) (off : Nat), s.Runs c t w.g → s.Settled c t →
    let e := s.reads c t
    let old := e.readLE (bankAddr c off) 8
    let o : Word := BitVec.ofNat 64 old
    let v := e.x c t w.c
    let leaves := fun (new : Word) (u : State) => u.readLE (bankAddr c off) 8 = new.toNat ∧
      (∀ a, a < bankAddr c off ∨ bankAddr c off + 8 ≤ a → u.byte a = e.byte a) ∧
      (u.thr c t).flight = [⟨.s w.a.toNat, old, (e.core c).cyc + 1⟩] ∧ u.tags = e.tags ∧ (∀ r, u.x c t r = e.x c t r)
    e.x c t w.b = BitVec.ofNat 64 (0xFFFF <<< 48 + bankAddr c off) → (∀ write, e.OwnBank c t off 8 write) →
    Completes (.aadd c t false w) s (leaves (o + v)) ∧
    Completes (.amin c t false w) s (leaves (if o.toInt ≤ v.toInt then o else v)) ∧
    Completes (.amax c t false w) s (leaves (if o.toInt ≤ v.toInt then v else o)) ∧
    Completes (.aswap c t false w) s (leaves v) ∧
    (w.c.toNat % 2 = 0 → Completes (.acas c t false w) s (leaves (if o = v then e.x c t (w.c + 1) else o)))

/-- A full/empty operation on a word of an own bank whose state lets it complete: LDFE reads a full word and empties it, LDFF reads it, STFE fills an
empty word, STF fills any, SETE empties any, and WAITF goes on at a full word; a write without release stamps the word CORE (R216, R217, R335, R345). A
Pot contribution, a WRF and a WAKEN leave the core as requests: the Pot contribution with its form and the bytes of vector A, the WRF with the data, the
stream and the count, the WAKEN with its mask of threads; the request of a Pot contribution or a WRF that shares a byte with an access of the core in
flight waits in the core (R216, R224, R311, R317, R326, R351). -/
def Obligations.FullEmptyAndRequestWordsComplete : Prop :=
  (∀ (c : CoreId) (t : ThreadId) (w : LR) (s : State) (off : Nat), s.Runs c t w.g → s.Settled c t → w.c = 0 →
    let e := s.reads c t
    let a := bankAddr c off
    let old := e.readLE a 8
    let v := (e.x c t w.a).toNat
    let full := decide (4 ≤ e.tag a)
    let kept := fun (u : State) => ∀ x, x < a ∨ a + 8 ≤ x → u.byte x = e.byte x ∧ (x / 8 ≠ a / 8 → u.tag x = e.tag x)
    let reads := fun (u : State) => u.readLE a 8 = old ∧ (u.thr c t).flight = [⟨.s w.a.toNat, old, (e.core c).cyc + 1⟩]
    e.x c t w.b = BitVec.ofNat 64 (0xFFFF <<< 48 + a) → (∀ write, e.OwnBank c t off 8 write) →
    (full = true → Completes (.ldfe c t false w) s (fun u => reads u ∧ u.tag a = 0 ∧ kept u)) ∧
    (full = true → Completes (.ldff c t false w) s (fun u => reads u ∧ u.tag a = e.tag a ∧ kept u)) ∧
    (full = false → Completes (.stfe c t w) s (fun u => u.readLE a 8 = v ∧ u.tag a = 4 ∧ kept u)) ∧
    Completes (.stf c t w) s (fun u => u.readLE a 8 = v ∧ u.tag a = 4 ∧ kept u) ∧
    (w.a = 0 → Completes (.sete c t w) s (fun u => u.readLE a 8 = old ∧ u.tag a = 0 ∧ kept u)) ∧
    (full = true → Completes (.waitf c t w) s (fun u => u.readLE a 8 = old ∧ u.tag a = e.tag a ∧ (u.thr c t).st = .ready ∧ kept u))) ∧
  (∀ (c : CoreId) (t : ThreadId) (w : LR) (s : State) (n off mid : Nat), s.Runs c t w.g → s.Settled c t →
    let e := s.reads c t
    let a := e.x c t w.b
    let v := e.x c t w.c
    let sent := fun (n : Nat) (l : List Nat) (u : State) => u.sent = (if e.inFlight c a n then e.sent else e.sent ++ [⟨.request, l⟩]) ∧ u.mem = e.mem
    (∀ y ∈ (e.core c).flying, y.held = true → y.key ≠ .write t (e.thr c t).nextW) →
    (a.toNat % 64 = 0 → e.translateWord (e.who c t) a true = .to (.bank n off) → (e.core c).cache = [] → (e.core c).wbs = [] → w.a.toNat < 16 → e.watchHit c t a 64 false true = none →
      let body := fun (form : Nat) => [(c : Nat), t, 4, a.toNat, 64, form, v.toNat % 2 ^ 20, v.toNat / 2 ^ 20 % 2 ^ 20, (e.vr c t w.a).toNat, (e.thr c t).nextW]
      (w.c = 0 → Completes (.paddX c t w) s (sent 64 (body 0))) ∧
      Completes (.paddT c t w) s (sent 64 (body 1)) ∧
      Completes (.paddF c t w) s (fun u => sent 64 (body 2) u ∧ (e.world c t = 0 → e.fld DET_CNT_FASTPOT c 0 < 65535 →
        u.fld DET_CNT_FASTPOT c 0 = e.fld DET_CNT_FASTPOT c 0 + 1))) ∧
    (a.toNat % 8 = 0 → e.translateWord (e.who c t) a true = .to (.remote mid off) → (∃ q k, e.localPlace off = .bank q k) → (e.core c).cache = [] → (e.core c).wbs = [] →
      (e.thr c t).wrfOut = none → e.watchHit c t a 8 false true = none →
      Completes (.wrf c t w) s (sent 8 [(c : Nat), t, 5, a.toNat, 8, (e.x c t w.a).toNat, v.toNat % 2 ^ 16, v.toNat / 2 ^ 16 % 2 ^ 32, (e.thr c t).nextW])) ∧
    (inCoreWindow (a.toNat % 2 ^ 48) = true → e.translateWord (e.who c t) a false = .to (.bank n off) →
      Completes (.waken c t w) s (fun u =>
        u.sent = e.sent ++ [⟨.request, [(c : Nat), t, 6, a.toNat, 0, v.toNat % 256]⟩] ∧ u.mem = e.mem)))

/-- FENCE with nothing outstanding in its scope goes on, and otherwise waits; SLEEP sleeps (R224, R329). A pair word carries out both of its slots in one
cycle, each reading the registers as they were before the word (R65, R66, R69). -/
def Obligations.WaitAndPairWordsComplete : Prop :=
  (∀ (c : CoreId) (t : ThreadId) (w : LR) (s : State), s.Runs c t w.g → s.Settled c t → w.a = 0 → w.b = 0 →
    let e := s.reads c t
    (w.c.toNat < 4 → (w.c = 0 ∨ ∀ x ∈ (e.thr c t).outw, ¬(x.id < (e.thr c t).nextW ∧ x.scope ≤ w.c.toNat)) → Does (.fence c t w) s c t id) ∧
    (0 < w.c.toNat → w.c.toNat < 4 → (∃ x ∈ (e.thr c t).outw, x.id < (e.thr c t).nextW ∧ x.scope ≤ w.c.toNat) →
      Completes (.fence c t w) s (fun u => (u.thr c t).st = .waiting ∧ (u.thr c t).wait = .fence w.c.toNat)) ∧
    (w.c = 0 → Completes (.sleep c t w) s (fun u => (u.thr c t).st = .sleeping ∧ (u.thr c t).wait = .sleep ∧ u.mem = e.mem ∧ u.sent = e.sent))) ∧
  (∀ (c : CoreId) (t : ThreadId) (s : State) (da sa db sb : Fin 16), s.Runs c t 0 → da ≠ db →
    let e := s.reads c t
    let r := fun (n : Fin 16) => e.x c t (BitVec.ofNat 5 n)
    let slot := fun (sop d s x : Nat) => sop * 1024 + d * 64 + s * 4 + x
    let word := fun (a b : Nat) => BitVec.ofNat 32 (2 ^ 31 + a * 65536 + b)
    let both := fun (va vb : Word) (e : State) => (e.fly c t (.s da) va.toNat 1).fly c t (.s db) vb.toNat 1
    Does (.pairIssue c t (word (slot 2 da sa 0) (slot 2 db sb 1))) s c t (both (r da + r sa) (r db - r sb)) ∧
    Does (.pairIssue c t (word (slot 3 da sa 0) (slot 1 db sb 1))) s c t (both (r da ^^^ r sa) (~~~(r sb))) ∧
    Does (.pairIssue c t (word (slot 2 da sa 2) 0)) s c t (fun e => e.fly c t (.s da) (r da &&& r sa).toNat 1))

/-- The cache's range words: with a length of zero they only go on; CINV drops the clean bytes of the lines of its range, CFLUSH and CFLINV send the dirty
bytes and wait for their acknowledgements, CINV.ALL drops the clean bytes of every unlocked line, PRELOAD fetches a line the cache does not hold and waits
for it, PREF fetches one into the side buffer, both fetch nothing of a line that is there, and CLOCK and CUNLOCK set and clear its lock (R220, R221, R260
to R262). -/
def Obligations.CacheWordsComplete : Prop :=
  ∀ (c : CoreId) (t : ThreadId) (w : LR) (s : State) (x : CEntry) (p : Place) (q off : Nat), s.Runs c t w.g → s.Settled c t →
    let e := s.reads c t
    let line := e.lineOf (e.x c t w.b)
    let k := e.core c
    let now := fun (l : List CEntry) (u : State) => (u.core c).cache = l ∧ u.mem = e.mem ∧ u.RegsExcept e [.lstat]
    ((e.x c t w.c).toNat = 0 →
      Does (.cflush c t w) s c t id ∧ Does (.cinv c t w) s c t id ∧ Does (.cflinv c t w) s c t id ∧
      Does (.preload c t w) s c t id ∧ Does (.clock c t w) s c t id ∧ Does (.cunlock c t w) s c t id) ∧
    ((e.x c t w.c).toNat = 1 → k.cache = [x] → x.line = line → k.side = [] → k.wbs = [] → k.dropped = [] →
      (x.dirty = 0 → x.left = 0 → x.lock = false → Completes (.cinv c t w) s (now [])) ∧
      (x.dirty ≠ 0 → Completes (.cflush c t w) s (fun u => now [{ x with dirty := 0 }] u ∧ (u.thr c t).st = .waiting ∧
        (u.core c).wbs = [⟨x.line, x.world, x.dirty, x.data, some t⟩])) ∧
      (x.dirty ≠ 0 → Completes (.cflinv c t w) s (fun u => (u.thr c t).st = .waiting ∧
        (u.core c).wbs = [⟨x.line, x.world, x.dirty, x.data, some t⟩])) ∧
      (e.fld ccfg_EN c 0 = 1 → x.lock = false → 0 < e.fld ccfg_LOCKMAX c 0 → Completes (.clock c t w) s (now [{ x with lock := true }])) ∧
      (x.valid ≠ 0 → Completes (.cunlock c t w) s (now [{ x with lock := false }])) ∧
      (e.fld ccfg_EN c 0 = 0 → Completes (.preload c t w) s (now [x])) ∧
      (e.fld ccfg_EN c 0 = 1 → x.valid = BitVec.allOnes 64 → x.left = 0 → x.world = 0 → e.check c t (lineAddr line) 64 true false false = .ok p →
        Completes (.preload c t w) s (now [x]))) ∧
    ((e.x c t w.c).toNat = 1 → k.cache = [] → k.side = [] → k.dropped = [] → e.fld ccfg_EN c 0 = 1 → e.inFlight c (lineAddr line) 64 = false →
      e.check c t (lineAddr line) 64 true false false = .ok p → p.isOwnBank c (lineAddr line) = false →
      Completes (.preload c t w) s (fun u => now [{ line := line, world := e.world c t, left := BitVec.allOnes 64, fid := k.nextFill }] u ∧
        u.sent = e.sent ++ [⟨.request, [c, t, 8, (lineAddr line).toNat / 8 * 8, 64, k.nextFill]⟩] ∧
        (u.thr c t).st = .waiting ∧ (u.thr c t).wait = .preload line (line + 1) line)) ∧
    (w.c = 0 → k.cache = [] → k.side = [] → e.fld ccfg_PFEN c 0 = 1 → e.fld ccfg_EN c 0 = 1 → e.inFlight c (lineAddr line) 64 = false →
      e.translate (e.who c t) (e.x c t w.b) false = .to (.hbm q off) →
      Completes (.pref c t w) s (fun u => now [] u ∧ (u.core c).side = [{ line := line, world := e.world c t, left := BitVec.allOnes 64, fid := k.nextFill }] ∧
        u.sent = e.sent ++ [⟨.request, [c, t, 8, (e.x c t w.b).toNat / 8 * 8, 64, k.nextFill]⟩] ∧ (u.thr c t).st = .ready)) ∧
    (w.a = 0 → w.b = 0 → w.c = 0 → k.cache = [x] → x.dirty = 0 → x.left = 0 → x.lock = false → k.side = [] → k.dropped = [] →
      Completes (.cinvAll c t w) s (now [])) ∧
    (w.c = 0 → k.cache = [x] → x.line = line → Does (.pref c t w) s c t id)

/-- Integer words of the vector unit compute lane by lane in the type's width: sums, differences and products wrap, the saturating ones clamp to the
signed range, and shifts count by the low bits of C's lane (R142, R143, R228). -/
def Obligations.VectorIntegerWordsComplete : Prop :=
  ∀ (c : CoreId) (t : ThreadId) (ty : BitVec 3) (w : LR) (s : State), s.Runs c t w.g →
    ty.toNat < 4 → w.a.toNat < 16 → w.b.toNat < 16 → w.c.toNat < 16 →
    let e := s.reads c t
    let b := typW ty.toNat
    let x := lane b (e.vr c t w.b)
    let y := lane b (e.vr c t w.c)
    let sx := fun i => sLane b (x i)
    let sy := fun i => sLane b (y i)
    let top : Int := 2 ^ (b - 1)
    let gives := fun (i : Instr) (dist : Nat) (f : Nat → Int) =>
      ∃ v : Vec, Does i s c t (fun e => e.outV c t w.a v dist) ∧ ∀ k < typN ty.toNat, (lane b v k : Int) = f k % 2 ^ b
    gives (.vintArith c t 0 ty w) 2 (fun k => sx k + sy k) ∧
    gives (.vintArith c t 1 ty w) 2 (fun k => sx k - sy k) ∧
    gives (.vintArith c t 2 ty w) 4 (fun k => sx k * sy k) ∧
    gives (.vintArith c t 3 ty w) 4 (fun k => sx k * sy k / 2 ^ b) ∧
    gives (.vintArith c t 4 ty w) 2 (fun k => min (sx k) (sy k)) ∧
    gives (.vintArith c t 5 ty w) 2 (fun k => max (sx k) (sy k)) ∧
    gives (.vintArith c t 6 ty w) 2 (fun k => max (-top) (min (top - 1) (sx k + sy k))) ∧
    gives (.vintArith c t 7 ty w) 2 (fun k => max (-top) (min (top - 1) (sx k - sy k))) ∧
    gives (.vlogic c t 0 ty w) 2 (fun k => (x k &&& y k : Nat)) ∧
    gives (.vlogic c t 1 ty w) 2 (fun k => (x k ||| y k : Nat)) ∧
    gives (.vlogic c t 2 ty w) 2 (fun k => (x k ^^^ y k : Nat)) ∧
    gives (.vlogic c t 3 ty w) 2 (fun k => (x k &&& (2 ^ b - 1 - y k) : Nat)) ∧
    gives (.vlogic c t 4 ty w) 2 (fun k => x k * 2 ^ (y k % b)) ∧
    gives (.vlogic c t 5 ty w) 2 (fun k => x k / 2 ^ (y k % b)) ∧
    gives (.vlogic c t 6 ty w) 2 (fun k => sx k / 2 ^ (y k % b)) ∧
    (w.c = 0 → gives (.vlogic c t 7 ty w) 2 (fun k => (sx k).natAbs))

/-- Float words of the vector unit compute each lane exactly and round it once to nearest even, raising in vflags what the lanes raise; compares set every
bit of a lane that holds; conversions, special functions and reductions write their results at their distances (R144 to R149, R228, R229). -/
def Obligations.VectorFloatWordsComplete : Prop :=
  ∀ (c : CoreId) (t : ThreadId) (op ty : BitVec 3) (fn : BitVec 6) (w : LR) (s : State), s.Runs c t w.g →
    w.a.toNat < 16 → w.b.toNat < 16 → w.c.toNat < 16 →
    let e := s.reads c t
    let b := typW ty.toNat
    let f := typFmt ty.toNat
    let val := fun (r : BitVec 5) (k : Nat) => f.decode (lane b (e.vr c t r) k)
    let gives := fun (i : Instr) (dist : Nat) (g : Nat → Rnd) =>
      ∃ v : Vec, ∃ flags : Nat, Does i s c t (fun e => (e.outV c t w.a v dist).outFlags c t flags dist) ∧
        (∀ k < typN ty.toNat, lane b v k = (g k).code % 2 ^ b) ∧ flags = (List.range (typN ty.toNat)).foldl (fun a k => a ||| (g k).flags) 0
    (4 ≤ ty.toNat → ty.toNat < 7 →
      gives (.vfloat c t 0 ty w) 4 (fun k => f.addR (val w.b k) (val w.c k)) ∧
      gives (.vfloat c t 1 ty w) 4 (fun k => f.addR (val w.b k) (val w.c k).negate) ∧
      gives (.vfloat c t 2 ty w) 4 (fun k => f.mulR (val w.b k) (val w.c k)) ∧
      gives (.vfloat c t 5 ty w) 4 (fun k => f.minMaxR false (lane b (e.vr c t w.b) k) (lane b (e.vr c t w.c) k)) ∧
      gives (.vfloat c t 6 ty w) 4 (fun k => f.minMaxR true (lane b (e.vr c t w.b) k) (lane b (e.vr c t w.c) k)) ∧
      gives (.vspecial c t false op ty w) (if ty.toNat = 6 then 12 else 8) (fun k => f.special op.toNat (val w.b k)) ∧
      (op.toNat < 4 → gives (.vspecial c t true op ty w) (if ty.toNat = 6 then 12 else 8) (fun k => f.special (8 + op.toNat) (val w.b k)))) ∧
    (ty.toNat < 4 → ∃ v : Vec, Does (.vcmp c t 2 ty w) s c t (fun e => e.outV c t w.a v 2) ∧ ∀ k < typN ty.toNat,
      lane b v k = if sLane b (lane b (e.vr c t w.b) k) < sLane b (lane b (e.vr c t w.c) k) then 2 ^ b - 1 else 0) ∧
    (ty.toNat < 4 → Does (.vreduce c t 0 ty w) s c t (fun e => e.outX c t w.a
      (BitVec.ofInt 64 (((List.range (typN ty.toNat)).map (fun k => sLane b (lane b (e.vr c t w.b) k))).sum)) 6)) ∧
    (fn = 0x04 → w.c = 6 → ∃ v : Vec, ∃ flags : Nat,
      Does (.vcvt c t fn w) s c t (fun e => ({ e with freeCtr := e.freeCtr + 64 } : State).outV c t w.a v 3 |>.outFlags c t flags 3) ∧
      ∀ k < 16, lane 32 v k = (fmtF.encode false false (fmtBF.decode (lane 16 (e.vr c t w.b) k))).code % 2 ^ 32)

/-- Moves of the vector unit: VMOV copies, VSEL selects lanes of B or C by the sign of A's lane, VBCAST fills every lane, VINS replaces one lane, VPERM
picks lanes by C's, VROT rotates them, VEXT reads one lane (its bits above the lane are free values), and VANY and VALL test the lanes' signs (R142, R146,
R228, R229). VLD and VST of an aligned line of an own bank move its 64 bytes (R150, R228). -/
def Obligations.VectorMoveAndMemoryWordsComplete : Prop :=
  (∀ (c : CoreId) (t : ThreadId) (ty : BitVec 3) (w : LR) (s : State), s.Runs c t w.g → ty.toNat < 7 →
    let e := s.reads c t
    let b := typW ty.toNat
    let n := typN ty.toNat
    let va := lane b (e.vr c t w.a)
    let vb := lane b (e.vr c t w.b)
    let vc := lane b (e.vr c t w.c)
    let xb := (e.x c t w.b).toNat
    let xc := (e.x c t w.c).toNat
    let sign := fun (z : Nat) => z / 2 ^ (b - 1) % 2 = 1
    let gives := fun (i : Instr) (dist : Nat) (f : Nat → Nat) =>
      ∃ v : Vec, Does i s c t (fun e => e.outV c t w.a v dist) ∧ ∀ k < n, lane b v k = f k % 2 ^ b
    (w.a.toNat < 16 →
      (w.b.toNat < 16 → gives (.vmove c t .mov ty w) 2 vb) ∧
      (w.b.toNat < 16 → w.c.toNat < 16 → gives (.vmove c t .sel ty w) 2 (fun k => if sign (va k) then vb k else vc k)) ∧
      gives (.vmove c t .bcast ty w) 2 (fun _ => xb) ∧
      gives (.vmove c t .ins ty w) 2 (fun k => if k = xc % n then xb else va k) ∧
      (w.b.toNat < 16 → w.c.toNat < 16 → gives (.vpermRot c t false ty w) 3 (fun k => vb (vc k % n))) ∧
      (w.b.toNat < 16 → gives (.vpermRot c t true ty w) 3 (fun k => vb ((k + xc) % n)))) ∧
    (w.b.toNat < 16 → ty = 3 → Does (.vext c t ty w) s c t (fun e => e.outX c t w.a (BitVec.ofNat 64 (vb (xc % 8))) 2)) ∧
    (w.b.toNat < 16 → ty ≠ 3 → ∃ v : Word, v.toNat % 2 ^ b = vb (xc % n) ∧ Does (.vext c t ty w) s c t (fun e => e.free.2.outX c t w.a v 2)) ∧
    (w.b.toNat < 16 → w.a.toNat < 8 → w.c = 0 →
      Does (.vanyVall c t false ty w) s c t (fun e => e.outP c t w.a (decide (∃ k < n, sign (vb k))) 3) ∧
      Does (.vanyVall c t true ty w) s c t (fun e => e.outP c t w.a (decide (∀ k < n, sign (vb k))) 3))) ∧
  (∀ (c : CoreId) (t : ThreadId) (w : LR) (s : State) (off : Nat), s.Runs c t w.g → s.Settled c t → w.a.toNat < 16 →
    let e := s.reads c t
    let a := bankAddr c off
    e.x c t w.b + e.x c t w.c = BitVec.ofNat 64 (0xFFFF <<< 48 + a) →
    (e.OwnBank c t off 64 false → Does (.vld c t w) s c t (fun e => e.fly c t (.v w.a.toNat) (e.readLE a 64) (if off < 0x40000 then 5 else 8))) ∧
    (e.OwnBank c t off 64 true → Completes (.vst c t w) s (fun u =>
      u.readLE a 64 = (e.vr c t w.a).toNat ∧ (∀ x, x < a ∨ a + 64 ≤ x → u.byte x = e.byte x) ∧ u.tags = e.tags ∧
      ∀ r, u.x c t r = e.x c t r ∧ u.vr c t r = e.vr c t r)))

/-- TCFG configures an idle tile or releases it, and TREL releases or empties tiles: the tile then holds no row (R155 to R157, R164, R165, R230). A TLD's
or TST's next row whose place lies outside the core's banks leaves as a request, at most 16 at once; its reply puts the row into the tile with its valid
bit, or counts it as acknowledged (R160, R161). -/
def Obligations.TileConfigurationAndRowEventsComplete : Prop :=
  (∀ (c : CoreId) (t : ThreadId) (w : LR) (s : State), s.Runs c t w.g → s.Settled c t →
    let e := s.reads c t
    let n := w.a.toNat
    let v := e.x c t w.b
    (n < 8 → w.c = 0 → (e.core c).busyBy n = none → e.tcfgDetail c t n v = none →
      Completes (.tcfg c t w) s (fun u => (u.core c).tile n = {} ∧
        (bitsOf v 6 0 ≠ 0 → e.world c t < 2 → u.tRows c n = bitsOf v 6 0 ∧ u.tBpr c n = bitsOf v 14 8 ∧ u.tFmt c n = bitsOf v 20 16 ∧
          u.fld tcfg_WORLD c n = e.world c t) ∧
        (bitsOf v 6 0 = 0 → u.tRows c n = 0) ∧ (∀ m, m ≠ n → (u.core c).tile m = (e.core c).tile m))) ∧
    (w.a = 0 → w.b = 0 → w.c = 1 → (e.core c).busyBy 0 = none → e.tRows c 0 ≠ 0 → e.tileMine c t 0 = true →
      Completes (.trel c t w) s (fun u => ((u.core c).tile 0).valid = 0 ∧ u.RegsExcept e [.lstat])) ∧
    (w.a = 0 → w.b = 8 → w.c = 1 → (e.core c).busyBy 0 = none → e.tRows c 0 ≠ 0 → e.tileMine c t 0 = true →
      Completes (.trel c t w) s (fun u => u.tRows c 0 = 0 ∧ (u.core c).tile 0 = {}))) ∧
  (∀ (c : CoreId) (t : ThreadId) (m : Fin 4) (r : Fin 64) (s : State) (x : TileXfer) (q : Fin 64) (v : BitVec 544) (p : Nat),
    s.fld RTR_REDIR_EN c 0 = 0 → s.answeredAhead c = false → (s.core c).xfers = [x] → x.thread = t → x.mb = m → x.fail = none →
    (x.store = false → x.todo = r.val :: [] → x.out = [] → (s.core c).cache = [] → (s.core c).wbs = [] →
      s.rowPlace c (s.xferWho c x) (x.base + x.stride * BitVec.ofNat 64 r) (s.rowLen c x.tile) false = .to (.hbm p 0) →
      Completes (.tileRowRequest c t m) s (fun u => (u.core c).xfers = [{ x with todo := [], out := [r.val] }] ∧ u.mem = s.mem)) ∧
    (x.store = false → x.todo = [] → x.out = [r.val, q.val] → r ≠ q →
      Completes (.tileRowLand c t m r 0 v) s (fun u => (u.core c).xfers = [{ x with out := [q.val], done := x.done + 1 }] ∧
        (u.tileRow c x.tile r).data.toNat = v.toNat % 2 ^ (8 * s.tBpr c x.tile) % 2 ^ 512 ∧
        ((u.core c).tile x.tile).valid.toNat / 2 ^ r.val % 2 = 1)) ∧
    (x.store = true → x.todo = [] → x.out = [r.val, q.val] → r ≠ q →
      Completes (.tileRowAck c t m r 0) s (fun u => (u.core c).xfers = [{ x with out := [q.val], done := x.done + 1 }] ∧ u.mem = s.mem)))

/-- TLD, TLD.r and TST begin a transfer of the issuer's rows between its tile and memory, that ends in the mailbox they name; TLDQ makes the issuer's
TLD on a tile request no further row, which then ends with 0x0104 once its rows have landed, and does nothing where there is none; and TMOVV, TMOVT,
TSCL and TSCLW move a row's data and scale bytes (R158 to R162, R230). -/
def Obligations.TileMoveWordsComplete : Prop :=
  ∀ (c : CoreId) (t : ThreadId) (w : LR) (s : State) (z : TileXfer), s.Runs c t w.g → s.Settled c t →
    let e := s.reads c t
    let n := w.a.toNat % 8
    let mb := w.a.toNat / 8
    let valid := fun (r : Nat) => ((e.core c).tile n).valid.toNat / 2 ^ r % 2 = 1
    let begun := fun (store : Bool) (rows : List Nat) (u : State) => (∃ x ∈ (u.core c).xfers,
        x.tile = n ∧ x.thread = t ∧ x.store = store ∧ x.mb = mb ∧ x.base = e.x c t w.b ∧ x.stride = e.x c t w.c ∧ x.todo = rows ∧ x.out = []) ∧
      ((u.thr c t).mbox mb).st = .pending
    ((e.core c).xfers = [] → ((e.thr c t).mbox mb).st = .empty → e.tRows c n ≠ 0 → e.tileMine c t n = true →
      (e.x c t w.b).toNat % 4 = 0 → (e.x c t w.c).toNat % 4 = 0 →
      (e.myRows c t n ≠ [] → Completes (.tld c t w) s (begun false (e.myRows c t n))) ∧
      (∀ l, l = (e.myRows c t n).filter (fun r => !decide (valid r)) → l ≠ [] → Completes (.tldR c t w) s (begun false l)) ∧
      (∀ l, l = (e.myRows c t n).filter (fun r => decide (valid r)) → l ≠ [] → Completes (.tst c t w) s (begun true l))) ∧
    (w.a.toNat < 8 → w.b = 0 → w.c = 0 → (∀ x ∈ (e.core c).xfers, x.tile ≠ w.a.toNat ∨ x.thread ≠ t) → Does (.tldq c t w) s c t id) ∧
    (w.a.toNat < 8 → w.b = 0 → w.c = 0 → (e.core c).xfers = [z] → z.tile = w.a.toNat → z.thread = t → z.store = false → z.fail = none → z.todo ≠ [] →
      (z.out ≠ [] → Completes (.tldq c t w) s (fun u => (u.core c).xfers = [{ z with todo := [], quit := true }] ∧ u.mem = e.mem)) ∧
      (z.out = [] → ((e.thr c t).mbox z.mb).st = .pending → (e.thr c t).st = .ready → Completes (.tldq c t w) s (fun u => (u.core c).xfers = [] ∧
        (u.thr c t).mbox z.mb = { st := .error, err := 0x0104 } ∧ u.mem = e.mem))) ∧
    (w.b.toNat < 8 → let m := w.b.toNat; let r := (e.x c t w.c).toNat % 64
      e.tRows c m ≠ 0 → e.tileMine c t m = true → r < e.tRows c m → e.fld tcfg_BASE c m + r % e.fld tcfg_GANG c m = t →
      (w.a.toNat < 16 → ((e.core c).tile m).valid.toNat / 2 ^ r % 2 = 1 →
        Completes (.tmovv c t w) s (fun u => (u.thr c t).flight = [⟨.v w.a.toNat, (e.tileRow c m r).data.toNat % 2 ^ (8 * e.tBpr c m), (e.core c).cyc + 3⟩])) ∧
      (w.a.toNat < 16 →
        Completes (.tmovt c t w) s (fun u => (u.thr c t).flight = [⟨.row m r, (e.vr c t w.a).toNat % 2 ^ (8 * e.tBpr c m), (e.core c).cyc + 3⟩])) ∧
      (scaleBytes (e.tFmt c m) (e.tBpr c m) ≠ 0 → ((e.core c).tile m).valid.toNat / 2 ^ r % 2 = 1 →
        Completes (.tscl c t w) s (fun u => (u.thr c t).flight = [⟨.s w.a.toNat, (e.tileRow c m r).scale.toNat, (e.core c).cyc + 3⟩])) ∧
      (scaleBytes (e.tFmt c m) (e.tBpr c m) ≠ 0 →
        Completes (.tsclw c t w) s (fun u => (u.thr c t).flight =
          [⟨.scale m r, (e.x c t w.a).toNat % 2 ^ (8 * scaleBytes (e.tFmt c m) (e.tBpr c m)), (e.core c).cyc + 3⟩])))

/-- The matrix words find a place in the queue of four and are carried out in its order: MMA, ACVT and the image words when their checks pass, AZERO with
the accumulator's type and world at once; MSYNC of a thread with no entry goes on (R175 to R179, R191, R194, R197, R230). The entry at the front of the
matrix queue runs and frees its place: AZERO clears its accumulator; an image access ends in its mailbox; the shadow checker arms after 64 float
operations, and a check without a difference counts (R179, R191, R196, R200). -/
def Obligations.MatrixWordsAndEventsComplete : Prop :=
  (∀ (c : CoreId) (t : ThreadId) (fn : BitVec 6) (w : LR) (s : State), s.Runs c t w.g → s.Settled c t →
    let e := s.reads c t
    let world := e.world c t
    let acc := (e.core c).acc
    let mode := e.modeNow c t
    let queued := fun (op : MOp) (n : Nat) (u : State) => ∃ y, (u.core c).mq = (e.core c).mq ++ [y] ∧ y.op = op ∧ y.acc = n ∧ y.thread = t.val ∧
      y.pc = (e.thr c t).pc ∧ y.mode = mode ∧ y.issWorld = world ∧ y.running = false ∧ y.void = false
    let image := (e.x c t w.b).toNat % 64 = 0 ∧ ((e.thr c t).mbox w.c.toNat).st = .empty ∧ w.a.toNat < 4 ∧ w.c.toNat < 4
    let pends := fun (u : State) => ((u.thr c t).mbox w.c.toNat).st = .pending
    (e.core c).mq.length < 4 →
    (w.a.toNat < 4 → w.b.toNat < 8 → w.c.toNat < 8 →
      e.mmaDetail c t w.a.toNat w.b.toNat w.c.toNat (fn.toNat % 4) (fn.toNat / 4 % 4) (decide (fn.toNat / 16 % 2 = 1)) (decide (fn.toNat / 32 = 1)) = none →
      Completes (.mma c t fn w) s (queued (.mma w.b.toNat w.c.toNat (fn.toNat % 4) (fn.toNat / 4 % 4) (decide (fn.toNat / 16 % 2 = 1)) (decide (fn.toNat / 32 = 1))) w.a.toNat)) ∧
    (w.b.toNat < 16 → e.acvtDetail c t (w.a.toNat % 8) (w.b.toNat % 4) (w.a.toNat / 8) (w.b.toNat / 4) = none →
      Completes (.acvt c t w) s (queued (.acvt (w.a.toNat % 8) (w.a.toNat / 8) (w.b.toNat / 4) (e.x c t w.c)) (w.b.toNat % 4))) ∧
    (w.a.toNat < 4 → w.b = 0 → w.c = 0 → ((acc w.a.toNat).world ≠ 1 ∨ world ≠ 0) →
      Completes (.azero c t w) s (fun u => queued .azero w.a.toNat u ∧ ((u.core c).acc w.a.toNat).typ = (if mode % 2 = 0 then 1 else 2) ∧
        ((u.core c).acc w.a.toNat).world = world)) ∧
    (image → (acc w.a.toNat).typ ≠ 0 → ((acc w.a.toNat).world ≠ 1 ∨ world ≠ 0) → (e.thr c t).wrfOut = none →
      Completes (.astx c t w) s (fun u => queued (.astx w.c.toNat (e.x c t w.b)) w.a.toNat u ∧ pends u)) ∧
    (image → ((acc w.a.toNat).world ≠ 1 ∨ world ≠ 0) →
      Completes (.aldx c t w) s (fun u => queued (.aldx w.c.toNat (e.x c t w.b)) w.a.toNat u ∧ pends u ∧
        ((u.core c).acc w.a.toNat).typ = (if mode % 2 = 0 then 1 else 2))) ∧
    (image → (acc w.a.toNat).typ = (if mode % 2 = 0 then 1 else 2) → ((acc w.a.toNat).world ≠ 1 ∨ world ≠ 0) →
      Completes (.aldxAdd c t w) s (fun u => queued (.aldxAdd w.c.toNat (e.x c t w.b)) w.a.toNat u ∧ pends u)) ∧
    (w.a = 0 → w.b = 0 → w.c = 0 → (∀ y ∈ (e.core c).mq, y.thread ≠ t.val) → Does (.msync c t w) s c t id)) ∧
  (∀ (c : CoreId) (t : ThreadId) (m : Fin 4) (s : State) (x : MEntry) (rest : List MEntry) (data : BitVec 33024) (op : ShadowOp),
    let k := s.core c
    (k.mq = x :: rest → x.running = false → x.op = .azero → Completes (.matrixEntryStart c false) s (fun u =>
      (∀ e, Sparse.get 0 ((u.core c).acc x.acc).el e = 0) ∧ ((u.core c).acc x.acc).inv = 0 ∧
      ((u.core c).acc x.acc).typ = (k.acc x.acc).typ ∧ (u.core c).mq = { x with running := true, start := k.cyc } :: rest)) ∧
    (k.mq = x :: rest → x.running = true → x.op = .azero → Completes (.matrixEntryComplete c 0 data) s (fun u =>
      (u.core c).mq = rest ∧ (u.core c).accs = k.accs)) ∧
    (k.images = [{ thread := t, mb := m, status := some 0 }] → ((s.thr c t).mbox m).st = .pending → (s.thr c t).st = .ready →
      Completes (.imageAccessComplete c t m 0) s (fun u => (u.core c).images = [] ∧ ((u.thr c t).mbox m).st = .full)) ∧
    (k.shadowArm = false → k.shadowOp = none → 64 ≤ k.shadowCnt →
      Completes (.shadowCheckArm c) s (fun u => (u.core c).shadowArm = true ∧ (u.core c).shadowCnt = 0 ∧ u.fld mchk_SHCNT c 0 = 0)) ∧
    (k.shadowOp = some op → k.mq = [] → Completes (.shadowCheckDone c false) s (fun u => (u.core c).shadowOp = none ∧
      u.fld mchk_SHDONE c 0 = (s.fld mchk_SHDONE c 0 + 1) % 2 ^ (mchk_SHDONE.hi + 1 - mchk_SHDONE.lo))))

/-- A load's reply gives its value to the register and lets the thread go on; a mailbox's reply fills it; a full/empty reply ends the wait; an
acknowledgement takes the write off the thread's list; a held release leaves; a watch's wake or the end of a poll lets the thread try again (R79 to R83,
R324, R328, R336, R339). Words of a fetched line land in the cache entry, or the side-buffer entry, that asked for them, and an acknowledged write-back is
done with (R257 to R262). The proxy of a gated half or a fence before the core absorbs and counts each of them (R303, R640), and a redirected core's go
to the spare (R618). -/
def Obligations.RepliesAndCacheEventsComplete : Prop :=
  (∀ (c : CoreId) (t : ThreadId) (m : Fin 4) (s : State) (n : Nat) (a v data : Word) (x : Vec) (opt : Nat),
    s.fld RTR_REDIR_EN c 0 = 0 → s.answeredAhead c = false →
    let h := s.thr c t
    let others := fun (u : State) => u.mem = s.mem ∧ u.tags = s.tags ∧ ∀ d : Nat, d ≠ c → u.core d = s.core d
    (n < 32 → h.st = .waiting → h.wait = .load (.s n) 8 a none → Completes (.loadReply c t 0 x) s (fun u =>
      u.x c t (BitVec.ofNat 5 n) = BitVec.ofNat 64 x.toNat ∧ (u.thr c t).st = .ready ∧ (u.thr c t).wait = .none ∧ others u ∧
      ∀ k < 32, k ≠ n → u.x c t (BitVec.ofNat 5 k) = s.x c t (BitVec.ofNat 5 k))) ∧
    ((h.mbox m).st = .pending → h.st = .ready → s.mbElsewhere c t m = false → s.tornDown c t = false → h.flight = [] → h.mbWait = [] →
      Completes (.mailboxReply c t m 0 v) s (fun u => (u.thr c t).mbox m = { st := .full, val := v } ∧ others u) ∧
      Completes (.mailboxReply c t m 0x0402 v) s (fun u => (u.thr c t).mbox m = { st := .error, err := 0x0402 } ∧ others u)) ∧
    (n < 32 → h.st = .waiting → h.armed = false → h.poll = false → h.wait = .fe 1 n a 0 data → Completes (.feReply c t none 0 v 0) s (fun u =>
      u.x c t (BitVec.ofNat 5 n) = v ∧ (u.thr c t).st = .ready ∧ others u)) ∧
    (h.outw = [⟨n, 1⟩] → h.wait = .none → (s.core c).kend = false → Completes (.writeAck c t (some n) 0) s (fun u => (u.thr c t).outw = [] ∧ others u)) ∧
    (h.st = .waiting → h.wait = .mmrStore a → Completes (.writeAck c t none 0) s (fun u => (u.thr c t).st = .ready ∧ others u)) ∧
    (h.held = [⟨n, 2, n, a, data, 3⟩] → h.outw = [] → (s.core c).cache = [] → (s.core c).wbs = [] → (∀ w, s.translate (s.who c t) a w = .to (.remote opt 0)) →
      ((s.core c).flying = [] ∨ ∃ y, s.accessRange (.write t n) a 8 [0] = some y ∧ (s.core c).flying = [{ y with held := true }]) →
      Completes (.releaseDepart c t n) s (fun u => (u.thr c t).held = [] ∧
        u.sent = s.sent ++ [⟨.request, s.feArgs c t 3 a data 6 none n⟩] ∧ others u)) ∧
    (h.st = .sleeping → h.armed = true → h.wait = .fe 5 n a 0 data → Completes (.watchWakeArrive c t none a 0 (BitVec.ofNat 8 (s.fld CTX_BIND_EPOCH c 0))) s
      (fun u => (u.thr c t).st = .ready ∧ (u.thr c t).wait = .none ∧ others u)) ∧
    (h.st = .sleeping → h.poll = true → h.wait = .fe 1 n a 0 data → (s.core c).cache = [] → (∀ w, s.translate (s.who c t) a w = .to (.remote opt 0)) →
      s.inFlight c a 8 = false → Completes (.watchPollExpiry c t none) s (fun u => (u.thr c t).poll = false ∧
        u.sent = s.sent ++ [⟨.request, s.feArgs c t 1 a data 0 none n⟩] ∧ others u))) ∧
  (∀ (c : CoreId) (s : State) (x : CEntry) (y : SideEntry) (k : Fin 8) (v : Word) (b : WriteBack),
    s.fld RTR_REDIR_EN c 0 = 0 → s.answeredAhead c = false → (∀ t : Nat, t < 8 → (s.thr c t).st ≠ .waiting) →
    let q := s.core c
    let m := wordMask k
    (q.cache = [x] → q.dropped = [] → q.side = [] → x.left = BitVec.allOnes 64 → x.valid = 0 →
      Completes (.cacheFillLand c x.fid k 0 v) s (fun u => ∃ z, (u.core c).cache = [z] ∧ z.valid = m ∧ z.left = ~~~m ∧
        lineBytes z.data (8 * k.val) 8 = v.toNat ∧ z.dirty = x.dirty ∧ u.mem = s.mem)) ∧
    (q.cache = [] → q.dropped = [] → q.side = [y] → y.left = BitVec.allOnes 64 → y.valid = 0 →
      Completes (.prefLand c y.fid k 0 v) s (fun u => ∃ z, (u.core c).side = [z] ∧ z.valid = m ∧ z.left = ~~~m ∧
        lineBytes z.data (8 * k.val) 8 = v.toNat ∧ u.mem = s.mem)) ∧
    (q.wbs = [b] → b.line < 2 ^ 58 → q.kend = false → Completes (.writebackAck c (BitVec.ofNat 58 b.line) 0) s (fun u => (u.core c).wbs = [] ∧ u.mem = s.mem))) ∧
  (∀ (c d : CoreId) (t : ThreadId) (m : Fin 4) (id : Nat) (k : Fin 8) (r : Fin 64) (st : Status) (v : Word) (x : Vec) (y : BitVec 544) (tag : Fin 4) (line : BitVec 58)
    (s : State),
    let replies := fun (c : CoreId) => ([.loadReply c t st x, .mailboxReply c t m st v, .feReply c t none st v tag, .writeAck c t (some id) st,
      .cacheFillLand c id k st v, .prefLand c id k st v, .writebackAck c line st, .tileRowLand c t m r st y, .tileRowAck c t m r st] : List Instr)
    let absorbed := fun (f : Field) (g : Nat) (u : State) => u.fld f g 0 = min (s.fld f g 0 + 1) (2 ^ (f.hi + 1 - f.lo) - 1)
    ((∀ y ∈ (s.thr c t).flight, y.dest ≠ .mbox m) → s.fld RTR_REDIR_EN c 0 = 0 → s.answeredAhead c = true → ∀ i ∈ replies c,
      Completes i s (fun u => u.cores = s.cores ∧ u.mem = s.mem ∧ u.tags = s.tags ∧ u.sent = s.sent ∧
        (s.gated (coreP c) (coreHalf c) = true → absorbed SEAM_STAT_ABSORBED (coreP c) u) ∧
        (s.gated (coreP c) (coreHalf c) = false → s.islandShut c = false → absorbed FENCE_DROP_CNT_ABSORBED c u))) ∧
    (s.fld RTR_REDIR_EN c 0 = 1 → d.val = coreP c * 1296 + s.fld RTR_REDIR_SY c 0 * 36 + s.fld RTR_REDIR_SX c 0 → s.fld RTR_REDIR_EN d 0 = 0 →
      ∀ n < 9, (replies c)[n]?.map (fun i => exec i s) = (replies d)[n]?.map (fun i => exec i s)))

/-- What happens to threads: a stop due is taken at a boundary; a notice, a pending interrupt line, a timer, a stalemate, a wait that has lasted and a
held scope mismatch reach their vectors; wakes end a SLEEP unless a fence or a seam proxy absorbs them; a Keeper message sets its line (R110, R119, R120,
R124, R133 to R137, R226, R303, R345, R640). -/
def Obligations.ThreadEventsComplete : Prop :=
  ∀ (c : CoreId) (t : ThreadId) (s : State) (line : Fin 32) (now : Word) (ag : Agent) (mask : BitVec 8),
    let h := s.thr c t
    let mode := (s.treg .mode c t).toNat
    let plain := h.slot = none ∧ h.shadow = 0 ∧ h.flight = []
    (h.stopReq = true → h.st = .ready → h.wait = .none → plain → (∀ j : Nat, (s.thr c j).wait ≠ .tstop t) → Completes (.threadSuspend c t) s (fun u =>
      (u.thr c t).st = .suspended ∧ (u.thr c t).stopReq = false ∧ u.treg .tfpc c t = BitVec.ofNat 64 (h.pc % 65536) ∧ u.treg .tfcause c t = 0)) ∧
    ((s.core c).tfnewT = 1 → (s.core c).tfpendT = 1 → s.supOf c 0 = t → s.tf wstat_EXL c t = 0 → h.st = .ready → plain →
      Completes (.threadFaultTaken c false) s (fun u => u.Entered c t 32 0 0 h.pc mode 0 ∧ (u.core c).tfnewT = 0)) ∧
    (1 < line.val → (s.reg .ipend c 0).toNat / 2 ^ line.val % 2 = 1 → s.canTake c t line = true → (∀ j : Nat, j < t → s.canTake c j line = false) →
      h.st = .ready → plain → Completes (.interruptTaken c line) s (fun u => u.Entered c t (32 + line.val) 0 0 h.pc mode 0 ∧
        (u.reg .ipend c 0).toNat = (s.reg .ipend c 0).toNat - 2 ^ line.val)) ∧
    (s.tf tmcmp_EN c t = 1 → s.tf tmcmp_CMP c t ≤ (s.core c).cyc → now.toNat ≤ (s.core c).cyc →
      Completes (.timerFire c t now) s (fun u => (u.thr c t).timerHeld = true ∧ u.tf tmcmp_EN c t = 0)) ∧
    (s.stalemated c 0 = true → (s.core c).stale = [] → s.supOf c 0 = t → h.st = .sleeping → h.wait = .sleep → h.snap.slot = none → h.snap.shadow = 0 →
      h.flight = [] → s.tf wstat_EXL c t = 0 → Completes (.stalemate c false) s (fun u => (u.thr c t).st = .ready ∧ (u.thr c t).pc = 144 ∧
        (u.core c).stale = [0] ∧ u.tf epc_ADDR c t = h.snap.pc / 4 % 2 ^ 14)) ∧
    (h.st = .sleeping → h.wait = .sleep → s.tf wtimeout_EN c t = 1 → s.tf wtimeout_LIMIT c t * 256 ≤ (s.core c).cyc - h.waitStart →
      now.toNat ≤ (s.core c).cyc → h.snap.slot = none → h.snap.shadow = 0 → h.flight = [] → s.tf wstat_EXL c t = 0 →
      Completes (.waitTimeout c t now) s (fun u => (u.thr c t).st = .ready ∧ (u.thr c t).pc = 160 ∧ u.tf epc_ADDR c t = h.snap.pc / 4 % 2 ^ 14)) ∧
    (h.smx ≠ none → h.st = .ready → s.tf wstat_EXL c t = 0 → plain → Completes (.scopeMismatchTaken c t) s (fun u =>
      u.Entered c t 14 0 0 h.pc mode 0 ∧ (u.thr c t).smx = none)) ∧
    (s.answeredAhead c = false → s.stale c (whoOf ag) = false → h.st = .sleeping → h.wait = .sleep → mask.toNat / 2 ^ t.val % 2 = 1 →
      Completes (.wakeNotifyArrive ag c mask) s (fun u => (u.thr c t).st = .ready ∧ (u.reg .ipend c 0).toNat / 16 % 2 = 1)) ∧
    (s.answeredAhead c = true → Completes (.wakeNotifyArrive ag c mask) s (fun u => u.cores = s.cores ∧ u.reg .ipend c 0 = s.reg .ipend c 0 ∧ u.mem = s.mem)) ∧
    Completes (.kmsgArrive c) s (fun u => (u.reg .ipend c 0).toNat / 64 % 2 = 1 ∧ u.cores = s.cores ∧ u.mem = s.mem)

/-- A request that reaches a bank without error in its code words reads, writes under its mask, changes or synchronises its word and is answered; a watch
is disarmed, a cycle is kept for the network port, and a due correction is written back (R237, R238, R243, R248, R335, R341). -/
def Obligations.BankRequestsComplete : Prop :=
  ∀ (ag : Agent) (c : CoreId) (off : BitVec 22) (mask : BitVec 240) (data : BitVec 1920) (v b : Word) (tag : Nat) (s : State) (waiter : Word) (cellar : Bool)
    (cw : BitVec 37),
    let o := off.toNat
    let a := bankAddr c o
    let w := whoOf ag
    let open_ := o % 8 = 0 ∧ o + 8 ≤ 0x40000 ∧ s.coreRefuses c o 8 w = none ∧ s.pat a = 0 ∧ s.spillRefuses c o 8 w = false
    let old := s.readLE a 8
    let answered := fun (val : Nat) (u : State) => u.sent = s.sent ++ [⟨.reply, [tag, 0, val]⟩]
    let kept := fun (u : State) => ∀ x, x < a ∨ a + 8 ≤ x → u.byte x = s.byte x
    let wrote := fun (x : Word) (val : Nat) (u : State) => u.readLE a 8 = x.toNat ∧ kept u ∧ u.tags = s.tags ∧ answered val u
    let fe := fun (op : Fin 6) => Instr.bankFeRequest ag c off op v false 0 waiter tag
    (open_ →
      Completes (.bankReadRequest ag c off 8 tag) s (fun u => u.mem = s.mem ∧ answered old u) ∧
      Completes (.bankWriteRequest ag c off 8 mask data tag) s (fun u =>
        (∀ i < 8, u.byte (a + i) = if mask.toNat / 2 ^ i % 2 = 1 then BitVec.ofNat 8 (data.toNat / 2 ^ (8 * i)) else s.byte (a + i)) ∧ kept u ∧ answered 0 u) ∧
      Completes (.bankAtomicRequest ag c off 0 v b tag) s (wrote (BitVec.ofNat 64 old + v) old) ∧
      Completes (.bankAtomicRequest ag c off 3 v b tag) s (wrote v old) ∧
      Completes (.bankAtomicRequest ag c off 4 v b tag) s (wrote (if BitVec.ofNat 64 old = v then b else BitVec.ofNat 64 old) old) ∧
      ((s.core c).watches = [] →
        (4 ≤ s.tag a → Completes (fe 0) s (fun u => u.mem = s.mem ∧ u.tag a = 0 ∧ u.sent = s.sent ++ [⟨.reply, [tag, 0, old, s.tag a % 4]⟩])) ∧
        Completes (fe 3) s (fun u => u.readLE a 8 = v.toNat ∧ kept u ∧ u.tag a = 4 ∧ u.sent = s.sent ++ [⟨.reply, [tag, 0, 0, 0]⟩]) ∧
        (s.tag a < 4 → Completes (fe 0) s (fun u => u.SameMemory s ∧ u.sent = s.sent ++ [⟨.reply, [tag, 0x0440, 0, 0]⟩] ∧
          ∃ x, (u.core c).watches = [x] ∧ x.word = o / 8 ∧ x.waiter = waiter ∧ x.onFull = true)))) ∧
    Completes (.watchDisarm c off waiter) s (fun u => u.SameMemory s ∧ ∀ x, x ∈ (u.core c).watches ↔ x ∈ (s.core c).watches ∧ ¬(x.word = o / 8 ∧ x.waiter = waiter)) ∧
    Completes (.bankNetReserve c cellar) s (fun u => (u.core c).reserved = some (cellar, (s.core c).cyc + 1) ∧ u.SameMemory s) ∧
    ((s.core c).corrDue = [cw.toNat] → Completes (.correctionWriteback c cw) s (fun u => u.pat (cw.toNat * 32) = 0 ∧ (u.core c).corrDue = [] ∧ u.mem = s.mem))

/-- Writes of a core's registers that its checks allow: instruction memory takes two words at the pointer, thread control starts and stops threads,
software interrupts are raised, code words are initialised and their tags read and written (R57 to R59, R113, R139, R247, R274, R323, R633). -/
def Obligations.CoreRegisterWritesComplete : Prop :=
  ∀ (ag : Agent) (c : CoreId) (t : ThreadId) (v : Word) (s : State) (i : Nat), ag.keeper = true → ag.sup = true →
    let ok := fun (u : State) => u.Answers s 0 0 0
    let mem := fun (u : State) => u.SameMemory s
    let only := 2 ^ t.val
    let ptr := s.fld IMEM_PTR_ADDR c 0
    let off := s.fld TAG_ADDR_CW_OFF c 0 * 32
    let a := bankAddr c off
    let bits := v.toNat
    (s.MayWrite ag c 0 → Completes (.imemPtrWrite ag c v) s (fun u => ok u ∧ mem u ∧
      u.fld IMEM_PTR_ADDR c 0 = bits / 8 % 2 ^ 13 ∧ u.fld IMEM_PTR_PART c 0 = bits / 2 ^ 16 % 2)) ∧
    (s.MayWrite ag c 8 → s.fld IMEM_PTR_PART c 0 = 0 → ptr * 8 + 8 ≤ 0xC000 → Completes (.imemDataWrite ag c v) s (fun u => ok u ∧ mem u ∧
      Sparse.get 0 (u.core c).imem (2 * ptr) = v.truncate 32 ∧ Sparse.get 0 (u.core c).imem (2 * ptr + 1) = (v >>> 32).truncate 32 ∧
      u.fld IMEM_PTR_ADDR c 0 = (ptr + 1) % 2 ^ 13)) ∧
    (s.MayWrite ag c 0x100 → bits = only * 2 ^ 16 → (s.thr c t).st = .ready → Completes (.threadCtlStop ag c v) s (fun u => ok u ∧ mem u ∧ (u.thr c t).stopReq = true)) ∧
    (s.MayWrite ag c 0x100 → bits = only * 2 ^ 8 → (s.thr c t).st = .stopped → Completes (.threadCtlStart ag c v) s (fun u => ok u ∧ mem u ∧
      (u.thr c t).st = .ready ∧ (u.thr c t).pc = 0 ∧ u.level c t = 1 ∧ u.tf wstat_EXL c t = 0 ∧ u.tf wstat_IE c t = 0)) ∧
    (s.MayWrite ag c 0x108 → i < 16 → bits = 2 ^ i → Completes (.swiRaise ag c v) s (fun u => ok u ∧ mem u ∧ (u.reg .ipend c 0).toNat / 2 ^ (8 + i) % 2 = 1)) ∧
    (s.MayWrite ag c 0x220 → bits / 32 % 2 ^ 17 * 32 + 32 ≤ 0x40000 → s.codeWordRefuses c (bits / 32 % 2 ^ 17 * 32) 32 (whoOf ag) = false →
      Completes (.poisonClr ag c v) s (fun u => ok u ∧ ∀ x, bankAddr c (bits / 32 % 2 ^ 17 * 32) ≤ x → x < bankAddr c (bits / 32 % 2 ^ 17 * 32) + 32 →
        u.byte x = 0 ∧ u.tag x = 0 ∧ u.pat x = 0)) ∧
    (s.MayWrite ag c 0x300 → Completes (.tclassWrite ag c v) s (fun u => ok u ∧ mem u ∧ ∀ k < 8, u.fld TCLASS_CLASS c 0 k = bits / 4 ^ k % 4)) ∧
    (s.MayWrite ag c 0x808 → Completes (.wdogCtlWrite ag c v) s (fun u => ok u ∧ mem u ∧ u.fld WDOG_CTL_EN c 0 = bits / 2 ^ 24 % 256 ∧
      (bits % 512 ≠ 0 → u.fld WDOG_CTL_LIMIT c 0 = bits % 512))) ∧
    ((∃ p, s.reach (whoOf ag) (pageAddr c 0x230) 4 true = .to p) → off + 32 ≤ 0x40000 → s.pat a = 0 → s.codeWordRefuses c off 32 (whoOf ag) = false →
      Completes (.tagDataWrite ag c v) s (fun u => ok u ∧ u.mem = s.mem ∧ ∀ k < 4, u.tag (a + 8 * k) = 4 * (bits / 2 ^ k % 2) + bits / 2 ^ (2 * k + 4) % 4)) ∧
    ((∃ p, s.reach (whoOf ag) (pageAddr c 0x230) 4 false = .to p) → off + 32 ≤ 0x40000 → s.pat a = 0 → s.codeWordRefuses c off 32 (whoOf ag) = false →
      Completes (.tagDataRead ag c) s (fun u => mem u ∧ ∃ x : Word, u.Answers s 0 0 x.toNat ∧ u.reg .TAG_DATA c 0 = x ∧
        ∀ k < 4, x.toNat / 2 ^ k % 2 = s.tag (a + 8 * k) / 4 % 2)) ∧
    (s.fld MODULE_ID_ID_LOCK 0 0 = 0 → bits % 65536 ≠ 0xFFFF → Completes (.moduleIdWrite ag v) s (fun u => ok u ∧ mem u ∧
      u.fld MODULE_ID_ID 0 0 = bits % 65536 ∧ u.fld MODULE_ID_ID_LOCK 0 0 = bits / 65536 % 2)) ∧
    ((∃ p, s.reach (whoOf ag) (pageAddr c 0x140) 8 true = .to p ∧ p.regAt = some ⟨.WRANGE_n, c, 0, 0⟩) →
      s.fld WRANGE_CTL_LOCK c 0 = 0 → Completes (.registerWrite ag (pageAddr c 0x140) false v) s (fun u => ok u ∧ mem u ∧
        u.fld WRANGE_n_EN c 0 = bitsOf v WRANGE_n_EN.hi WRANGE_n_EN.lo ∧ u.fld WRANGE_n_BASE c 0 = bitsOf v WRANGE_n_BASE.hi WRANGE_n_BASE.lo))

/-- What a thread does to the units of its own core completes: a kernel is left with an exit code, the watchdog is kicked, the send buffer takes a word, a
commit waits behind the writes it releases and its acknowledgement, where neither a fence nor a seam proxy absorbs it, frees the buffer, and a core
channel is started; the Pot unit's slots open, are
cancelled, and sum a fast contribution (R313 to R320, R366, R479, R494, R603, R741). -/
def Obligations.CoreUnitsComplete : Prop :=
  ∀ (ag : Agent) (c : CoreId) (t : ThreadId) (v : Word) (w : Fin 24) (off : Nat) (st : Status) (ch : Fin 2) (x : PotPart) (s : State), ag.sup = true →
    let h := s.thr c t
    let mem := fun (u : State) => u.SameMemory s
    let bits := v.toNat
    let run := s.fld KSTAT_RUN c 0
    let n := bits / 2 ^ 60
    let dest := bits % 2 ^ 16 * 64
    let unit := 256 + 2 * c.val + ch.val
    let open_ := 2 ^ 58 * (4 * n + 2) + 2 ^ 20 * (bits / 2 ^ 20 % 2 ^ 20) + bits % 2 ^ 16
    let p := s.pot c n
    (s.fld KSTAT_ACTIVE c 0 = 1 → run / 2 ^ t.val % 2 = 1 → run ≠ 2 ^ t.val → h.wait = .none → h.slot = none → h.flight = [] → bits % 2 ^ 32 ≠ 0 →
      Completes (.kexit c t v) s (fun u => mem u ∧ (u.thr c t).st = .stopped ∧ u.fld KSTAT_RUN c 0 = run - 2 ^ t.val ∧
        (u.core c).kcodes = (s.core c).kcodes ++ [bits % 2 ^ 32] ∧ ∀ k, u.x c t k = s.x c t k)) ∧
    (bits % 2 = 1 → Completes (.wdogKick c t v) s (fun u => mem u ∧ (u.thr c t).wdog = 0 ∧ u.regs = s.regs ∧ u.sent = s.sent)) ∧
    (s.tf SEND_STAT_BUSY c t = 0 → Completes (.sendData c t w v) s (fun u => mem u ∧ Sparse.get 0 (u.thr c t).send w = v ∧
      u.tf SEND_STAT_STAGED c t / 2 ^ w.val % 2 = 1 ∧ ∀ k, k ≠ w.val → Sparse.get 0 (u.thr c t).send k = Sparse.get 0 h.send k)) ∧
    (s.tf SEND_STAT_BUSY c t = 0 → s.tf SEND_STAT_DISCARDED c t = 0 → bits % 32 = 1 → s.clearBelow c t (bits / 256 % 4) h.nextW = false →
      s.translate (s.who c t) (BitVec.ofNat 64 (s.tf SEND_DEST_ADDR c t * 8)) true = .to (.bank c off) → off + 8 ≤ 0x40000 →
      Completes (.sendCommit c t v) s (fun u => mem u ∧ u.tf SEND_STAT_BUSY c t = 1 ∧ u.tf SEND_STAT_STAGED c t = 0 ∧
        (u.thr c t).held = h.held ++ [⟨h.nextW, bits / 256 % 4, h.nextW, BitVec.ofNat 64 (s.tf SEND_DEST_ADDR c t * 8), 1, 9⟩])) ∧
    (s.fld RTR_REDIR_EN c 0 = 0 → s.answeredAhead c = false → s.tf SEND_STAT_BUSY c t = 1 → h.held = [] → h.sendStatus = none →
      Completes (.sendAck c t st) s (fun u => mem u ∧ u.tf SEND_STAT_BUSY c t = 0 ∧ u.tf SEND_STAT_CODE c t = st.toNat)) ∧
    (s.fld RTR_REDIR_EN c 0 = 0 → s.answeredAhead c = true → (∀ o, s.place (BitVec.ofNat 64 (s.tf SEND_DEST_ADDR c t * 8)) ≠ .bank c o) →
      Completes (.sendAck c t st) s (fun u => mem u ∧ u.cores = s.cores ∧ u.sent = s.sent)) ∧
    (s.dmaState unit = 0 ∨ s.dmaState unit = 4 → h.st = .ready → bits / 2 ^ 22 % 2 = 0 → Completes (.dmacGo c t ch v) s (fun u => mem u ∧
      u.dmaState unit = 1 ∧ (u.dma unit).fetching = true ∧ (u.dma unit).descAddr = ownAddr (bankAddr c (bits / 64 % 2 ^ 12 * 64)) ∧
      (u.dma unit).world = s.world c t ∧ (u.dma unit).plot = s.fld CTX_BIND_PLOT c 0)) ∧
    (s.MayWrite ag c 0x308 → (∀ k < 16, (s.pot c k).state = 0) → bits / 64 % 2 ^ 12 * 64 + bits / 2 ^ 32 % 2 ^ 10 * 64 ≤ 0x40000 → bits / 2 ^ 32 % 2 ^ 10 ≤ 512 →
      Completes (.potHoldWrite ag c v) s (fun u => u.Answers s 0 0 0 ∧ mem u ∧ u.fld POT_HOLD_ENTRIES c 0 = bits / 2 ^ 32 % 2 ^ 10 ∧
        u.fld POT_HOLD_BASE c 0 = bits / 64 % 2 ^ 12)) ∧
    (s.MayWrite ag c 0x310 → bits = open_ → (∀ k < 16, (s.pot c k).state = 0) → dest + 64 ≤ 0x40000 → (s.core c).watches = [] → (∀ i < 8, s.pat (bankAddr c dest + 8 * i) = 0) →
      s.codeWordRefuses c dest 64 (whoOf ag) = false → s.spillRefuses c dest 64 (whoOf ag) = false →
      Completes (.potOpen ag c v) s (fun u => u.mem = s.mem ∧ (∀ i < 8, u.tag (bankAddr c dest + 8 * i) = 0) ∧ (u.pot c n).state = 1 ∧ (u.pot c n).form = 2 ∧
        (u.pot c n).dest = dest ∧ (u.pot c n).n = bits / 2 ^ 20 % 2 ^ 20 + 1 ∧ (u.pot c n).done = 0 ∧ u.fld POT_SLOT_n_STATE c n = 1)) ∧
    (s.MayWrite ag c 0x318 → ∀ j < 16, bits = 2 ^ j → (s.pot c j).state ≠ 0 → Completes (.potCancel ag c v) s (fun u => u.Answers s 0 0 0 ∧ mem u ∧
      (u.pot c j).state = 0 ∧ ∀ k < 16, k ≠ j → u.pot c k = s.pot c k)) ∧
    (p.state = 1 → p.form = 2 → p.dest = dest → (∀ k < n, (s.pot c k).dest ≠ dest) → s.holdUsed c = 0 → x.form = 2 → x.plot = p.plot → p.done + x.count < p.n →
      p.sums = [] → s.gated (coreP c) (coreHalf c) = false → s.answersFenced c = false → s.stale c { whoOf ag with plot := x.plot, epoch := x.epoch } = false →
      s.potRefused c dest { whoOf ag with plot := x.plot, epoch := x.epoch } = false → x.tags = [7] →
      Completes (.potContributionArrive ag c (BitVec.ofNat 22 dest) x) s (fun u => u.Answers s 7 0 0 ∧ mem u ∧ (u.pot c n).done = p.done + x.count ∧
        (u.pot c n).state = 1 ∧ ∀ i < 16, (u.pot c n).sums.getD i 0 = x.payload.toNat / 2 ^ (32 * i) % 2 ^ 32))

/-- Routers and half-parcels: a packet that finds its lane and its next link free leaves by the link that the tables give, by each branch of its Deal's
tree, or by the port of its destination router that it names; a flit in error is counted, and what its link holds is sent again; a packet whose meter allows
it is injected, with the source, class and destination that R279, R285 and R288 give its header; a contribution without a partner moves on; a half that wakes
is initialised; the class weights and the latency terms are written; and a set of route tables is committed if it passes R290's check, once the flows
concerned have drained (R279, R280, R285 to R290, R292, R298, R302, R307, R318, R321). -/
def Obligations.MeshCommandsComplete : Prop :=
  ∀ (ag : Agent) (n : CoreId) (port from_ : Fin 4) (m nx : Nat) (q : Packet) (w v : Word) (body : DealBody) (now : Nat) (e : Fin 16) (p : Fin 8) (h : Fin 2)
    (a : Nat) (s : State) (wt wl wf wp : BitVec 16),
    let r := s.rtr n
    let mem := fun (u : State) => u.SameMemory s
    let out := fun (x : Packet) => s.routeOut n x.dx x.dy x.cls
    let awake := fun (x : Packet) => s.gated (coreP (coreAt x.dx x.dy)) (coreHalf (coreAt x.dx x.dy)) = false ∧ s.islandShut (coreAt x.dx x.dy) = false
    let free := fun (o : Out) => ∃ k, s.openLink n o = some k ∧ (s.rtr k).buf = []
    let passed := fun (x : Packet) (u : State) => u.sent = s.sent ++ [⟨.packet, [n, (out x).num, x.id]⟩] ∧ mem u ∧ (u.rtr n).buf = [] ∧
      (u.rtr n).wire = [((out x).num, x)] ∧ u.regs = s.regs
    let branches := dealBranches n w (from_ = 1 ∨ from_ = 3) (some (outOf from_))
    let x := s.stamp n q
    let east : Bool := h = 1
    let lead := v.toNat / 256 % 16
    let follow := v.toNat / 16 % 16
    let pass := v.toNat % 16
    let ts := s.halfPeriod p h
    let replay : Field := match port with | 0 => RTR_LINKERR_REPLAY_N | 1 => RTR_LINKERR_REPLAY_E | 2 => RTR_LINKERR_REPLAY_S | 3 => RTR_LINKERR_REPLAY_W
    let set := s.withRoutes [(n, e, v)]
    (s.closedRouter n = false → r.buf = [] → r.wire = [] → r.comb = [] → q.flits ≤ 4 →
      (linkTo n (outOf from_) = some m → (s.rtr m).wire = [] → q.pot = none →
        (q.deal = none → awake q → free (out q) → Completes (.routerPacketArrive n from_ q) s (passed q)) ∧
        (q.deal = none → awake q → out q = .here → (q.port = 4 → s.answersFenced n = false ∧ s.fld RTR_REDIR_EN n 0 = 0) →
          Completes (.routerPacketArrive n from_ q) s (fun u => mem u ∧ u.sent = s.sent ++ [⟨.packet, [n, q.port, q.id]⟩] ∧ (u.rtr n).buf = [])) ∧
        (q.deal = some ⟨w, body, none⟩ → (∀ o ∈ branches, free o) → Completes (.routerPacketArrive n from_ q) s (fun u => mem u ∧
          u.sent = s.sent ++ branches.map (fun o => ⟨.packet, [n, o.num, q.id]⟩)))) ∧
      (3 < q.entry.val → (s.meter n q.entry).waiting = [] → s.kp.reroute = [] → q.deal = none → q.pot = none → s.meterAllows n x now = true →
        awake x → free (out x) → Completes (.injectionRelease n q now) s (fun u => passed x u ∧ (u.meter n q.entry).waiting = []))) ∧
    (∀ o : Fin 7, s.exitOf q.addr = some (nx, o.val) → q.op ≠ .reply → q.op ≠ .ack → nx < 10368 →
      x.source = n ∧ x.cls = s.packetClass q ∧ coreAt x.dx x.dy = nx ∧ x.port = o) ∧
    (linkTo n (outOf port) = some m → Completes (.flitCrcError n port) s (fun u => mem u ∧
      u.sent = s.sent ++ ((s.rtr m).wire.filter (fun y => y.1 = backPort port)).map (fun y => ⟨.packet, [m, y.1, y.2.id]⟩) ∧
      u.fld replay n 0 = min (s.fld replay n 0 + 1) (2 ^ (replay.hi + 1 - replay.lo) - 1))) ∧
    (r.comb = [(from_.val, q)] → r.buf = [] → r.wire = [] → q.flits ≤ 4 → q.deal = none → free (out q) →
      Completes (.potCombinerTimeout n q.id) s (fun u => passed q u ∧ (u.rtr n).comb = [])) ∧
    (s.gated p h = true → s.routers = [] → Completes (.halfWakeDone p east true) s (fun u => u.fld HALF_RAIL_STATUS_STATE p h = 0 ∧
      ∀ c : CoreId, coreP c = p → coreHalf c = h → a < 0x40000 → u.byte (bankAddr c a) = 0)) ∧
    (ag.keeper = true → lead + follow + pass = 16 → 0 < lead → 0 < follow → 0 < pass → Completes (.classArbWrite ag p v) s (fun u =>
      u.SentLast s ⟨.reply, [0, 0, 0]⟩ ∧ u.fld CLASS_ARB_LEAD_W p 0 = lead ∧ u.fld CLASS_ARB_FOLLOW_W p 0 = follow ∧ u.fld CLASS_ARB_PASS_W p 0 = pass)) ∧
    Completes (.lbPublish p east wt wl wf wp) s (fun u =>
      u.reg .LB_FIXED p h = BitVec.ofNat 64 ((ts * 8 % 2 ^ 32) * 2 ^ 32 + ts * 2 % 2 ^ 32) ∧
      u.fld LB_GEN_GEN p 0 = (s.fld LB_GEN_GEN p 0 + 1) % 2 ^ (LB_GEN_GEN.hi + 1 - LB_GEN_GEN.lo)) ∧
    (set.routesPass = true → s.routers = [] → Completes (.routeChange [(n, e, v)]) s (fun u => mem u ∧ u.sent = s.sent ∧ u.regs = set.regs ∧
      u.fld RTR_OVR_k_EN n e = bitsOf v RTR_OVR_k_EN.hi RTR_OVR_k_EN.lo ∧ (bitsOf v 58 56 ≤ 3 → u.fld RTR_OVR_k_PORT n e = bitsOf v 58 56))) ∧
    (set.routesPass = true → s.inTransit [(n, e, v)] = true → Completes (.routeChange [(n, e, v)]) s (fun u => u.regs = s.regs ∧
      u.kp.reroute = [(n, e, v)])) ∧
    (set.routesPass = false → Completes (.routeChange [(n, e, v)]) s (fun u => u = s))

/-- A stack's controller carries out reads, writes under a mask and atomic operations on bytes without error, and a pseudo-channel goes to power-down
(R399 to R404). -/
def Obligations.StackRequestsComplete : Prop :=
  ∀ (ag : Agent) (p : Fin 8) (q : Fin 32) (off : BitVec 36) (mask : BitVec 240) (data : BitVec 1920) (v : Word) (tag : Nat) (s : State), ag.keeper = true →
    let o := off.toNat
    let a := hbmAddr p o
    let old := s.readLE a 8
    let kept := fun (u : State) => ∀ x, x < a ∨ a + 8 ≤ x → u.byte x = s.byte x
    (o + 8 ≤ 0x860000000 → s.hbmRefuses p o = none → s.anyBad a 8 = false → (s.stack p).pdown = 0 →
      Completes (.hbmAccess ag p off 0 0 8 mask data tag) s (fun u => u.mem = s.mem ∧ u.tags = s.tags ∧ u.Answers s tag 0 old) ∧
      Completes (.hbmAccess ag p off 1 0 8 mask data tag) s (fun u => kept u ∧ u.Answers s tag 0 0 ∧
        ∀ i < 8, u.byte (a + i) = if mask.toNat / 2 ^ i % 2 = 1 then BitVec.ofNat 8 (data.toNat / 2 ^ (8 * i)) else s.byte (a + i)) ∧
      (o % 8 = 0 → Completes (.hbmAccess ag p off 2 0 8 mask (v.zeroExtend 1920) tag) s (fun u => kept u ∧ u.Answers s tag 0 old ∧
        BitVec.ofNat 64 (u.readLE a 8) = BitVec.ofNat 64 old + v))) ∧
    Completes (.hbmPowerDown p q) s (fun u => u.SameMemory s ∧ (u.stack p).pdown / 2 ^ q.val % 2 = 1 ∧ u.regs = s.regs)

/-- Writes of a channel's registers that are not refused: the doorbell starts the next descriptor, GO takes a channel out of HALTED, STOP ends its program
CANCELLED, the ring's registers change while it rests, and events are set (R361, R364, R365, R380, R394, R397). -/
def Obligations.DmaRegisterWritesComplete : Prop :=
  ∀ (ag : Agent) (b : Fin 256) (u : DmaUnit) (tail : BitVec 16) (v : Word) (s : State),
    let d := s.dma b
    let e := s.dma u
    let rests := (s.dmaState b = 0 ∨ s.dmaState b = 4) ∧ s.fld DMA_HEAD_INDEX b 0 = s.fld DMA_TAIL_INDEX b 0
    let ok := fun (t : State) => t.Answers s 0 0 0 ∧ t.SameMemory s
    (s.MayPut ag (dmaOff b 0x28) 4 → s.fld DMA_BIND_BOUND b 0 = 1 → s.dmaState b = 0 → d.fetching = false → d.running = false →
      s.fld DMA_HEAD_INDEX b 0 ≠ tail.toNat → Completes (.dmaDoorbell ag b tail) s (fun t => ok t ∧ t.fld DMA_TAIL_INDEX b 0 = tail.toNat ∧
        (t.dma b).fetching = true ∧ (t.dma b).plot = s.fld DMA_BIND_PLOT b 0 ∧ (t.dma b).world = s.fld DMA_BIND_WORLD b 0 ∧
        (t.dma b).descAddr = BitVec.ofNat 64 (s.fld DMA_RING_BASE_BASE b 0 * 64 + s.fld DMA_HEAD_INDEX b 0 % 2 ^ s.fld DMA_RING_CFG_LOG2N b 0 * 64))) ∧
    (s.MayPut ag (dmaOff u 0) 4 → u.val < 256 → s.dmaState u = 4 → s.fld DMA_HEAD_INDEX u 0 = s.fld DMA_TAIL_INDEX u 0 →
      Completes (.dmaCtlGo ag u) s (fun t => ok t ∧ t.dmaState u = 0 ∧ t.dmas = s.dmas)) ∧
    (s.MayPut ag (dmaOff u 0) 4 → e.running = true → e.code = none → e.wait = none →
      Completes (.dmaCtlStop ag u) s (fun t => ok t ∧ (t.dma u).code = some 0x0104 ∧ t.dmaState u = 3 ∧ (t.dma u).endPc = e.pc)) ∧
    (s.MayPut ag (dmaOff b 0x10) 8 → rests → Completes (.dmaRingWrite ag b false v) s (fun t => ok t ∧
      t.fld DMA_RING_BASE_BASE b 0 = v.toNat / 64)) ∧
    (s.MayPut ag (dmaOff b 0x18) 4 → rests → 4 ≤ v.toNat % 16 → v.toNat % 16 ≤ 12 → Completes (.dmaRingWrite ag b true v) s (fun t => ok t ∧
      t.fld DMA_RING_CFG_LOG2N b 0 = v.toNat % 16)) ∧
    (s.MayPut ag (dmaOff u 0x40) 4 → Completes (.dmaEventSet ag u tail) s (fun t => ok t ∧ t.fld DMA_EVENT_EV u 0 = s.fld DMA_EVENT_EV u 0 ||| tail.toNat))

/-- The instructions of a channel program that stand at a running bulk channel's place, on bytes of this module's banks: loops open and close, waits end
or begin, signals store, add, post and set events, digests begin, pause, resume and are written, a MOVE copies its bytes, and END ends the program (R371
to R384, R390 to R392). -/
def Obligations.DmaProgramWordsComplete : Prop :=
  ∀ (b : Fin 256) (s : State) (u : DmaUnit) (n sc mask lim c off c2 off2 q : Nat) (i j : Int) (a v : Word) (m : DmaMove), u = ⟨b.val, by omega⟩ →
    let d := s.dma u
    let dest := bankAddr c off
    let waits := (s.setDma u { d with wait := some (.word false a false lim) }).setFld DMA_STAT_STATE u 0 2
    let went := fun (t : State) (k : Nat) => (t.dma u).pc = d.pc + k ∧ (t.dma u).running = true
    let kept := fun (t : State) (lo k : Nat) => ∀ x, x < lo ∨ lo + k ≤ x → t.byte x = s.byte x
    let same := fun (t : State) => t.SameMemory s ∧ t.sent = s.sent
    (s.DmaAt u (.loop n i j) → Completes (.dmaLoop u) s (fun t => went t 2 ∧ same t ∧ (t.dma u).loops = ⟨d.pc + 2, n, 0, i, j⟩ :: d.loops)) ∧
    (s.DmaAt u .endl → (∀ l r, d.loops = l :: r → Completes (.dmaEndl u) s (fun t => same t ∧
      if 1 < l.left then (t.dma u).pc = l.start ∧ (t.dma u).loops = { l with left := l.left - 1, iter := l.iter + 1 } :: r
      else went t 1 ∧ (t.dma u).loops = r))) ∧
    (s.DmaAt u (.waitWord false a lim) → waits.DmaBank u a 8 false c off → 4 ≤ s.tag dest → Completes (.dmaWaitWord u) s (fun t => went t 2 ∧
      (t.dma u).wait = none ∧ t.dmaState u = 1 ∧ t.SameMemory s)) ∧
    (s.DmaAt u (.waitEvents mask lim) → (s.fld DMA_EVENT_EV u 0 &&& mask = mask → Completes (.dmaWaitEvents u) s (fun t => went t 2 ∧ same t ∧
        t.fld DMA_EVENT_EV u 0 = s.fld DMA_EVENT_EV u 0 - mask)) ∧
      (s.fld DMA_EVENT_EV u 0 &&& mask ≠ mask → Completes (.dmaWaitEvents u) s (fun t => same t ∧ t.dmaState u = 2 ∧
        (t.dma u).wait = some (.events mask lim) ∧ (t.dma u).pc = d.pc))) ∧
    (s.DmaAt u (.fill sc a v) → s.DmaBank u a 8 true c off → Completes (.dmaSignalFill u) s (fun t => went t 3 ∧ t.readLE dest 8 = v.toNat ∧
      t.tag dest = 4 + sc ∧ kept t dest 8)) ∧
    (s.DmaAt u (.add a v) → s.DmaBank u a 8 true c off → Completes (.dmaSignalAdd u) s (fun t => went t 3 ∧ kept t dest 8 ∧
      BitVec.ofNat 64 (t.readLE dest 8) = BitVec.ofNat 64 (s.readLE dest 8) + v)) ∧
    (s.DmaAt u (.post q v) → s.fld QP_BIND_PLOT q 0 = d.plot → s.qOn q = true → (s.qp q).cqRetry = true → Completes (.dmaSignalPost u) s (fun t =>
      went t 3 ∧ t.SameMemory s ∧ ∃ e, (t.qp q).wait = (s.qp q).wait ++ [e] ∧ e.words = [0, nbits d.w0.toNat 31 16, v.toNat])) ∧
    (s.DmaAt u (.event a v) → (∀ l, ∃ p, ({ s with dmas := l } : State).reach (dmaWho u d) a 4 true = .to p) → Completes (.dmaSignalEvent u) s (fun t =>
      went t 3 ∧ t.SameMemory s ∧ t.sent = s.sent ++ [⟨.request, [2 ^ 20 + u.val, d.nextId, 1, a.toNat, 4, v.toNat % 2 ^ 16]⟩])) ∧
    (s.DmaAt u .hashBegin → Completes (.dmaHashBegin u) s (fun t => went t 1 ∧ same t ∧ (t.dma u).digest = some [] ∧ (t.dma u).feeding = true)) ∧
    (s.DmaAt u .hashPause → Completes (.dmaHashPause u) s (fun t => went t 1 ∧ same t ∧ (t.dma u).digest = d.digest ∧ (t.dma u).feeding = false)) ∧
    (s.DmaAt u .hashResume → Completes (.dmaHashResume u) s (fun t => went t 1 ∧ same t ∧ (t.dma u).digest = d.digest ∧ (t.dma u).feeding = true)) ∧
    (s.DmaAt u (.hashFinal a) → s.DmaBank u a 48 true c off → Completes (.dmaHashFinal u) s (fun t => went t 2 ∧ kept t dest 48 ∧
      t.readLE dest 48 = ofBytes (sha384 (d.digest.getD [])) % 2 ^ 384 ∧ (t.dma u).digest = none)) ∧
    (s.DmaAt u .fin → Completes (.dmaEnd u) s (fun t => same t ∧ (t.dma u).code = some 0 ∧ t.dmaState u = 3 ∧ (t.dma u).endPc = d.pc)) ∧
    (s.DmaAt u (.move m) → s.moveStart u m = .ok m → m.deal = 0 ∧ m.n1 = 1 ∧ m.n2 = 1 ∧ m.seq = false ∧ m.shared = false ∧ m.i = 0 →
      m.piece 0 = (0, 0, m.n0) → d.feeding = false → s.DmaBank u m.src (m.n0 * m.e) false c off → s.DmaBank u m.dst (m.n0 * m.e) true c2 off2 →
      Completes (.dmaMove u) s (fun t => went t m.len ∧ (t.dma u).move = none ∧ (t.dma u).bytes = d.bytes + m.n0 * m.e ∧
        kept t (bankAddr c2 off2) (m.n0 * m.e) ∧ ∀ k < m.n0 * m.e, t.byte (bankAddr c2 off2 + k) = s.byte (bankAddr c off + k)))

/-- What else happens to a bulk channel: its descriptor and its program's words are read, replies, retries and timeouts of a write to another module are
taken, a WAIT runs out of time, and a completion hands the descriptor back; a reply that the boundary of a reset's domain absorbs changes nothing (R364,
R369, R373, R381, R388, R389, R392, R447, R640). -/
def Obligations.DmaEventsComplete : Prop :=
  ∀ (b : Fin 256) (s : State) (u : DmaUnit) (c off lim mask : Nat) (r : DmaReq) (data : BitVec 2056), u = ⟨b.val, by omega⟩ →
    let d := s.dma u
    let dest := bankAddr c off
    let goes := d.running = true ∧ d.fetching = false ∧ d.code = none ∧ d.move = none ∧ s.dmaPaused u = false
    let desc := s.readLE dest 64
    let plen := desc % 2 ^ 16
    let len := d.w0.toNat % 2 ^ 16
    let far := fun (e : State) => ∀ l, ({ e with dmas := l } : State).isRemote (dmaWho u d) r.addr true = true
    let wr := r.kind = .write ∧ d.outs = [r]
    let sent := fun (t : State) (code : Nat) => t.sent = s.sent ++ [⟨.request, [2 ^ 20 + u.val, r.id, code, r.addr.toNat, r.len, r.data]⟩]
    (d.fetching = true → d.outs = [] → d.code = none → s.dmaPaused u = false → d.epoch = Sparse.get 0 s.epochs d.plot →
      s.DmaBank u d.descAddr 64 false c off → desc / 2 ^ 63 % 2 = 1 →
      0 < plen → plen ≤ 4096 → desc / 2 ^ 64 % 8 = 0 → Completes (.dmaDescFetched u) s (fun t => (t.dma u).running = true ∧ (t.dma u).fetching = false ∧
        (t.dma u).w0.toNat = desc % 2 ^ 64 ∧ (t.dma u).prog.toNat = desc / 2 ^ 64 % 2 ^ 64 ∧ t.dmaState u = 1 ∧ t.SameMemory s)) ∧
    (goes → d.outs = [] → d.pc = 0 → d.words = [] → 8 ≤ len → d.prog.toNat % 64 = 0 → s.DmaBank u d.prog 64 false c off →
      Completes (.dmaProgramFetch u) s (fun t => t.SameMemory s ∧ ∀ i < 8, Sparse.has (t.dma u).words i = true ∧
        (Sparse.get 0 (t.dma u).words i).toNat = s.readLE (dest + 8 * i) 8)) ∧
    (goes → wr → r.failed = none → r.entry = none →
      (s.islandShut (dmaRouter u) = false → Completes (.dmaReply u r.id 0 data) s (fun t =>
        (t.dma u).outs = [] ∧ (t.dma u).bytes = d.bytes + r.len ∧ t.SameMemory s)) ∧
      (s.islandShut (dmaRouter u) = true → Completes (.dmaReply u r.id 0 data) s (fun t => t.dmas = s.dmas ∧ t.SameMemory s)) ∧
      (r.tries < s.fld DMA_RETRY_LIMIT_LIMIT u 0 → Completes (.dmaReplyTimeout u r.id) s (fun t =>
        (t.dma u).outs = [{ r with failed := some 0x0305 }] ∧ t.SameMemory s))) ∧
    (goes → wr → r.failed = some 0x0305 → r.entry = none → far (s.bump DMA_COUNT_RETRIES u 0) → Completes (.dmaRetry u r.id) s (fun t => sent t 1 ∧
      (t.dma u).outs = [{ r with failed := none, tries := r.tries + 1 }] ∧ (t.dma u).retries = min 0xFFFF (d.retries + 1))) ∧
    (goes → wr → r.failed = some 0x0385 → r.entry = some 0 → far s → Completes (.fabDealResend u r.id) s (fun t => sent t 13 ∧
      (t.dma u).outs = [{ r with failed := none, tries := r.tries + 1 }])) ∧
    (d.code = none → d.wait = some (.events mask lim) → lim ≠ 0 → Completes (.dmaWaitTimeout u) s (fun t => (t.dma u).code = some 0x0303 ∧
      t.dmaState u = 3 ∧ (t.dma u).wait = none ∧ t.SameMemory s)) ∧
    (d.code = some 0 → s.dmaPaused u = false → d.outs = [] → d.stage = 3 → d.descFault = none → s.DmaBank u d.descAddr 8 true c off →
      Completes (.dmaCompletion u) s (fun t => t.readLE dest 8 = d.w0.toNat % 2 ^ 63 ∧ t.dmaState u = 0 ∧ t.fld DMA_STAT_LAST_CODE u 0 = 0 ∧
        t.fld DMA_HEAD_INDEX u 0 = (s.fld DMA_HEAD_INDEX u 0 + 1) % 2 ^ 16))

/-- Translation: a lookup is answered from the store and fills the cache that missed, a held one times out with detail 7 of vector 12; a range entry that
no case of R408 refuses is committed and a sync drops what overlaps it (R407 to R414). A page that nothing grants moves to the reserve with its bytes; a
pseudo-channel ends retired or its stack DEGRADED; a page that left a grant is zeroised (R415 to R418). -/
def Obligations.TranslationAndRetirementCommandsComplete : Prop :=
  (∀ (ag : Agent) (c : CoreId) (t : ThreadId) (plot : Fin 64) (e : Fin 256) (v : Word) (x : Lookup) (y : TxEntry) (r : Lk) (s : State) (first count : Nat),
    let h := s.thr c t
    let mine := s.kp.lookups = [x] ∧ x.port = c.val ∧ x.thread = some t.val
    let mem := fun (u : State) => u.SameMemory s
    let w0 := RegName.written .TU_RANGE_W0 true 63 0 (s.reg .TU_RANGE_W0 plot e) v
    let w1 := s.reg .TU_RANGE_W1 plot e
    (mine → s.storeLook x = r → (∀ i, r ≠ .hold i) → Completes (.tuLookup c t none) s (fun u => mem u ∧ u.kp.lookups = [{ x with ans := some r }])) ∧
    (mine → x.ans = some (.ok y) → h.st = .waiting → h.wait = .txHold → Sparse.get [] s.kp.tx c = [] → Completes (.tuLookupReply c t none) s (fun u =>
      mem u ∧ u.kp.lookups = [] ∧ Sparse.get [] u.kp.tx c = [y] ∧ (u.thr c t).st = .ready)) ∧
    (mine → x.ans = none → h.st = .waiting → h.wait = .txHold → h.snap.slot = none → h.snap.shadow = 0 → h.flight = [] → s.tf wstat_EXL c t = 0 →
      s.tf wstat_SELF c t = 1 → Completes (.tuHoldTimeout (.thread c t)) s (fun u => mem u ∧ u.kp.lookups = [] ∧ (u.thr c t).pc = 192 ∧
        u.treg .ecause c t = BitVec.ofNat 64 (12 + 7 * 2 ^ 24 + 0x0402 * 2 ^ 48) ∧ u.treg .eaddr c t = x.addr)) ∧
    (s.MayPut ag (tuOff plot (0x1000 + 16 * e)) 8 → v.toNat / 2 ^ 63 = 1 → s.rangeErr ag.keeper plot e w0 w1 = 0 →
      Completes (.tuRangeCommit ag plot e v) s (fun u => mem u ∧ u.Answers s 0 0 0 ∧ u.fld TU_RANGE_W0_EN plot e = 1 ∧
        u.fld TU_RANGE_W0_VBASE plot e = v.toNat / 2 ^ 21 % 2 ^ 27 ∧ u.fld TU_RANGE_W0_KOWN plot e = (if ag.keeper then 1 else 0) ∧ u.rangeW1 plot e = w1)) ∧
    (s.MayPut ag (tuOff plot 8) 8 → v.toNat / 2 ^ 63 = 1 → s.fld TU_SYNC_DONE plot 0 = 1 → Completes (.tuSync ag plot v) s (fun u => mem u ∧
      u.Answers s 0 0 0 ∧ u.fld TU_SYNC_DONE plot 0 = 0 ∧ Sparse.get (0, 0) u.kp.syncs plot = (v.toNat / 2 ^ 21 % 2 ^ 27, v.toNat % 2 ^ 19))) ∧
    (s.fld TU_SYNC_DONE plot 0 = 0 → Sparse.get (0, 0) s.kp.syncs plot = (first, count) → Completes (.tuSyncDone plot) s (fun u => mem u ∧
      u.fld TU_SYNC_DONE plot 0 = 1 ∧ ∀ port z, z ∈ Sparse.get [] u.kp.tx port → txDropped plot first count z = false))) ∧
  (∀ (p : Fin 8) (q : Fin 32) (pg : Fin 17152) (dead : List (Fin 17152)) (dst k : Nat) (s : State),
    let a := hbmAddr p (pg.val * 2 ^ 21)
    let x := s.stack p
    (s.Canonical → x.retired.contains pg.val = false → s.inReserve p pg = false → s.replacements p (pg.val % 32) = [dst] → s.grantOf p pg = none →
      (∀ j < 2 ^ 21, s.pat (a + j) = 0) → Completes (.pageRetire p pg) s (fun u => (u.stack p).retired = x.retired ++ [pg.val] ∧ (u.stack p).used = x.used ++ [dst] ∧
        Sparse.get 0 (u.stack p).moved pg = dst ∧ (k < 2 ^ 21 → u.byte (hbmAddr p (dst * 2 ^ 21) + k) = s.byte (a + k)))) ∧
    (s.fld HBM_STAT_PC_OFF p 0 / 2 ^ q.val % 2 = 0 → Completes (.pcRetire p q dead) s (fun u =>
      u.fld HBM_STAT_PC_OFF p 0 / 2 ^ q.val % 2 = 1 ∨ u.fld HBM_STAT_DEGRADED p 0 = 1)) ∧
    (x.dirty = [(pg.val, 1)] → Completes (.hbmPageZeroise p pg) s (fun u => (u.stack p).dirty = [] ∧ u.sent = s.sent ∧
      ∀ i < 2 ^ 21, u.byte (a + i) = 0 ∧ u.tag (a + i) = 0 ∧ u.pat (a + i) = 0)))

/-- Ports and the link layer: a port is enabled, trains, is brought UP by its peer's INIT, goes back to TRAINING or DOWN; acknowledgement and credit are
taken, and replays and owed credit are sent (R425, R426, R429 to R432). -/
def Obligations.PortCommandsComplete : Prop :=
  ∀ (ag : Agent) (m port : Fin 32) (v : BitVec 32) (peer : BitVec 16) (pools : List (Fin 4096)) (w : Word) (k q n : Nat) (b : List Nat) (s : State),
    s.Packed → s.kp.fab.conns = [] →
    let p := s.fport m
    let st := s.fld PORT_STAT_STATE m 0
    let direct := s.portUp m = true ∧ s.portRouted m = false
    let mem := fun (u : State) => u.SameMemory s
    let framed := fun (u : State) (l : List Nat) => u.sent = s.sent ++ [⟨.frame, l⟩]
    let pool := 2 * (w.toNat / 2 ^ 14 % 4) + w.toNat / 2 ^ 13 % 2
    (s.MayPut ag (portOff m 0) 4 → s.fld PORT_CFG_EN m 0 = 0 → s.fld LB_CTL_i_STATE 0 m ≠ 1 → v.toNat / 2 ^ 31 = 1 → Completes (.portEnable ag m v) s (fun u =>
      mem u ∧ u.Answers s 0 0 0 ∧ u.fld PORT_CFG_EN m 0 = 1 ∧ u.fld PORT_CFG_MODE m 0 = v.toNat / 2 ^ 30 % 2 ∧ u.fld PORT_STAT_STATE m 0 = 1)) ∧
    (st = 1 → (s.portRouted m = true → Completes (.portTrainingDone m) s (fun u => mem u ∧ u.fld PORT_STAT_STATE m 0 = 3)) ∧
      (s.portRouted m = false → Completes (.portTrainingDone m) s (fun u => mem u ∧ u.fld PORT_STAT_STATE m 0 = 2 ∧
        framed u ([m.val, 2, s.fld MODULE_ID_ID 0 0, m.val] ++ (List.range 8).map (s.poolOf m))))) ∧
    (st = 2 → peer.toNat ≠ s.fld MODULE_ID_ID 0 0 → Completes (.portInitFrame m peer port pools) s (fun u => mem u ∧ u.fld PORT_STAT_STATE m 0 = 3 ∧
      u.fld PORT_STAT_PEER_ID m 0 = peer.toNat ∧ u.fld PORT_STAT_PEER_PORT m 0 = port.val ∧
      ∀ i < 8, Sparse.get 0 (u.fport m).credit i = (pools.getD i 0).val)) ∧
    (s.fld PORT_CFG_EN m 0 = 1 → st ≠ 3 → Completes (.portUpTimeout m) s (fun u => mem u ∧ u.fld PORT_STAT_STATE m 0 = 1 ∧ u.sent = s.sent)) ∧
    (s.portRouted m = true → s.portUp m = true → Completes (.fabricLaneFail m) s (fun u => mem u ∧ u.fld PORT_STAT_STATE m 0 = 4)) ∧
    (direct → w.toNat / 2 ^ 56 = 0x11 → w.toNat / 2 ^ 12 % 2 = 0 → p.replay = [(q, b)] → q = w.toNat / 2 ^ 16 % 2 ^ 16 →
      Completes (.linkCtrlFrame m true w) s (fun u => mem u ∧ (u.fport m).replay = [] ∧ u.sent = s.sent ∧
        Sparse.get 0 (u.fport m).credit pool = Sparse.get 0 p.credit pool + w.toNat % 2 ^ 12)) ∧
    (direct → p.replay = [(q, b)] → p.replays < s.fld PORT_LINK_RETRY_MAX m 0 → Completes (.linkAckTimeout m) s (fun u => mem u ∧
      framed u ([m.val, 0] ++ b) ∧ (u.fport m).replays = p.replays + 1)) ∧
    (direct → p.owed = [(k, n)] → 0 < n → n ≤ 4095 → Completes (.creditReturnTimer m) s (fun u => mem u ∧
      framed u ([m.val, 0] ++ linkHeader 1 0 p.lrx (k, n) false) ∧ (u.fport m).owed = []))

/-- Frames and connections: a frame in order delivers its message to its port, at a direct and at a routed port; an unacknowledged frame is sent again; an
idle connection closes, and one refused with BUSY opens again; PTP messages and keys are taken (R430, R435 to R437, R449, R450, R455). -/
def Obligations.TransportCommandsComplete : Prop :=
  ∀ (m : Fin 32) (peer : BitVec 16) (c : Conn) (bytes : List Byte) (x : FabMsg) (vc : Fin 4) (resp : Bool) (f : FabFrame) (domain : BitVec 8) (ps : BitVec 32)
    (slot : Fin 2) (s : State), s.Packed → s.kp.fab.conns = [(peer.toNat, c)] →
    let p := s.fport m
    let k := 2 * vc.val + bit resp
    let tp := fun (b : List Nat) => readTp b
    let lands := fun (b : List Nat) => 24 ≤ b.length ∧ (tp b).smod = peer.toNat ∧ (tp b).dmod = s.fld MODULE_ID_ID 0 0 ∧ (tp b).enc = false ∧ (tp b).busy = false ∧
      (tp b).gen = c.gen ∧ (tp b).msgs = 1 ∧ (tp b).tseq = 0 ∧ c.spaces = [] ∧ s.fld PORT_CFG_ENC m 0 = 0 ∧ readMsgs (b.drop 24) 1 = [x] ∧ x.bad = false ∧
      x.onResponse = (tp b).resp
    let cells := cellsOf false [x]
    let landed := fun (b : List Nat) (u : State) => u.SameMemory s ∧ (u.fport m).rx = p.rx ++ [⟨peer.toNat, (tp b).vc, (tp b).resp, cells, x⟩]
    let all := bytes.map BitVec.toNat
    let h := ofBe (bytesAt all 0 8)
    (s.portUp m = true → s.portRouted m = true → lands all → p.held (2 * (tp all).vc + bit (tp all).resp) + cells ≤ s.poolOf m (2 * (tp all).vc + bit (tp all).resp) →
      Completes (.routedFrameReceive m true true false bytes) s (landed all)) ∧
    (s.portUp m = true → s.portRouted m = false → h / 2 ^ 56 = 0x10 → h / 2 ^ 32 % 2 ^ 16 = (p.lrx + 1) % 65536 → h / 2 ^ 12 % 2 = 0 → lands (all.drop 8) →
      Completes (.linkDataFrame m true true bytes) s (fun u => landed (all.drop 8) u ∧ (u.fport m).lrx = (p.lrx + 1) % 65536)) ∧
    ((c.space k).frames = [f] → f.tries < s.fld FAB_CFG_RETRY_MAX 0 0 → f.tseq < 2 ^ 32 → Completes (.transportRetransmit peer vc resp (BitVec.ofNat 32 f.tseq)) s (fun u =>
      u.SameMemory s ∧ ∃ d, u.conn peer.toNat = some d ∧ (d.space k).frames.map (fun g => (g.tseq, g.msgs, g.tries)) = [(f.tseq, f.msgs, f.tries + 1)])) ∧
    (c.spaces = [] → s.connIdle peer.toNat c = true → Completes (.connectionIdleClose peer) s (fun u => u.SameMemory s ∧ ∃ d, u.conn peer.toNat = some d ∧ d.closing = true)) ∧
    (c.spaces = [] → c.busy = true → Completes (.connectionOpenRetry peer false) s (fun u => u.SameMemory s ∧ u.conn peer.toNat = some { c with busy := false })) ∧
    (s.fld PORT_CFG_PTP m 0 = 1 → s.fld PORT_PTP_DOMAIN m 0 = domain.toNat → s.portUp m = true → s.portRouted m = false →
      Completes (.ptpEventMessage m domain (.delay ps)) s (fun u => u.SameMemory s ∧ u.fld PORT_PTP_DELAY_PS m 0 = ps.toNat ∧
        u.sent = s.sent ++ [⟨.event, [0x455, m, s.timeSec, s.timeNs]⟩])) ∧
    Completes (.aelxKeyUpdate m none slot false) s (fun u => u.SameMemory s ∧ (u.fport m).keys = p.keys ||| 2 ^ slot.val ∧ (u.fport m).key = slot.val ∧
      (u.fport m).sealed = 0 ∧ u.sent = s.sent)

/-- A request that a port lets in is carried out on a bank of this module and answered on its response lane; a counted completion waits for its count; a
contribution waits in the port's combiner; a wake and a Keeper message are taken (R335, R352, R440 to R443, R446 to R448, R454). -/
def Obligations.FabricRequestsComplete : Prop :=
  ∀ (m : Fin 32) (vc : Fin 4) (r : RxMsg) (c off : Nat) (st : Status) (f : FabFinal) (x : FabComb) (s : State),
    let q := r.msg
    let a := bankAddr c off
    let e0 := s.rxTake m r
    let old := s.readLE a 8
    let req := fun (op : Nat) => s.Ingress m vc false r op
    let on := fun (k : Nat) (write : Bool) => s.IngressBank m r k write c off
    let kept := fun (e : State) (k : Nat) => ∀ y, y < a ∨ a + k ≤ y → e.byte y = s.byte y
    let answered := fun (op status len data arg : Nat) (P : State → Prop) (u : State) => ∃ e, u.AnswersTo e r op status len data arg ∧ P e
    let same := fun (e : State) => e.SameMemory s
    let fe := fun (tag : Nat) (e : State) => e.readLE a 8 = q.data % 2 ^ 64 ∧ e.tag a = 4 + tag ∧ kept e 8
    let stamp := if q.arg / 4 % 2 = 1 then q.arg % 4 else 0
    (req 1 → on q.len false → Completes (.aelxRead m vc) s (answered 0x81 0 q.len (s.readLE a q.len) 0 same)) ∧
    (req 2 → on q.len true → Completes (.aelxWrite m vc st) s (answered 0x80 0 0 0 0 (fun e => kept e q.len ∧ e.readLE a q.len = q.data % 2 ^ (8 * q.len)))) ∧
    (req 8 → on q.len true → Completes (.aelxDealWrite m vc true st) s (answered 0x80 0 0 0 0 (fun e => kept e q.len ∧
      e.readLE a q.len = q.data % 2 ^ (8 * q.len)))) ∧
    (req 0x10 → on 8 true → q.off % 8 = 0 → Completes (.aelxAtomic m vc) s (answered 0x82 0 8 old 0 (fun e => kept e 8 ∧
      e.readLE a 8 = (old + q.arg) % 2 ^ 64))) ∧
    (req 0x14 → on 8 true → q.off % 8 = 0 → Completes (.aelxAcas m vc) s (answered 0x82 0 8 old 0 (fun e => kept e 8 ∧
      e.readLE a 8 = if old = q.arg % 2 ^ 64 then q.data % 2 ^ 64 else old))) ∧
    (req 0x20 → on 8 true → q.off % 8 = 0 → 4 ≤ s.tag a → Completes (.aelxFeLoad m vc) s (answered 0x83 0 8 old (s.tag a % 4) (fun e =>
      e.mem = s.mem ∧ e.tag a = 0))) ∧
    (req 0x23 → on 8 true → q.off % 8 = 0 → Completes (.aelxFeStore m vc) s (answered 0x80 0 0 0 0 (fe stamp))) ∧
    (s.Packed → s.rxFront m vc false = some r → q.op = 3 → s.rxDenied m q = false → q.strm ≠ 0 → s.kp.fab.finals = [] → 0 < q.arg % 2 ^ 32 →
      (e0.streams r.peer).find? (fun y => y.num = q.strm) = some { num := q.strm } → Completes (.aelxWriteFinal m vc) s (fun u => same u ∧
        u.kp.fab.finals = [⟨m, r.peer, r.vc, q⟩] ∧ u.fld FAB_STREAM_HELD 0 0 = 1)) ∧
    (req 0x32 → e0.translate (s.rxWho m q) (ownAddr q.off) true = .to (.bank c off) → (s.fport m).comb = [] → Completes (.aelxPot m vc) s (fun u => same u ∧
      ∃ y, (u.fport m).comb = [y] ∧ y.out = false ∧ y.peer = r.peer ∧ y.part = potPromote (q.part (fabTag r.peer r.vc q.tag)) 21)) ∧
    (s.Ingress m vc true r 0x40 → e0.reach (s.rxWho m q) (ownAddr q.off) 8 true = .to (.bank c off) → q.arg / 2 ^ 63 % 2 = 0 →
      Completes (.aelxWake m vc) s (answered 0x80 0 0 0 0 (fun e => same e ∧ (e.reg .ipend c 0).toNat / 16 % 2 = 1 ∧
        ∀ t < 8, (s.thr c t).st = .sleeping → (s.thr c t).wait = .sleep → q.arg / 2 ^ t % 2 = 1 → (e.thr c t).st = .ready))) ∧
    (req 0x48 → Completes (.aelxKctl m vc .other) s (answered 0x80 0 0 0 0 same)) ∧
    (2 ≤ vc.val → s.Packed → s.rxFront m vc false = some r → q.strm = 0 → Completes (.fabAdmitTimeout m vc) s (fun u => ∃ hint,
      answered 0x80 0x0102 0 0 hint same u)) ∧
    (s.Packed → s.kp.fab.finals = [f] → Completes (.wrfHoldTimeout 0) s (fun u => ∃ e : State, same e ∧ e.kp.fab.finals = [] ∧
      e.fld FAB_STREAM_HELD 0 0 = 0 ∧ u = ((e.rxAnswer ⟨f.peer, f.vc, false, 0, f.msg⟩ 0x80 0x0383 0 0 0).streamTidy f.peer f.msg.strm).egress)) ∧
    (s.Packed → x.out = true → (s.fport m).comb = [x] → Completes (.fabPotCombinerTimeout m true) s (fun u => ∃ e : State, u = (e.combOut x).egress ∧ same e ∧
      (e.fport m).comb = [] ∧ e.sent = s.sent))

/-- A reply from the fabric answers the message that its tag names: its status and data are those of the agent's request, which is over (R439, R440, R442,
R447, R454). -/
def Obligations.FabricRepliesComplete : Prop :=
  ∀ (m : Fin 32) (vc : Fin 4) (r : RxMsg) (o : FabOut) (g : FabGroup) (s : State), s.Packed → s.rxFront m vc true = some r → s.kp.fab.outs = [o] → o.tag = r.msg.tag →
    o.peer = r.peer → s.kp.fab.groups = [g] → g.id = o.grp → g.left = 1 → g.bad = 0 → g.acc = 0 → o.pos = 0 →
    let q := r.msg
    let told := fun (status v tag : Nat) (u : State) => ∃ e : State, u = (e.deliver g.req status v tag).egress ∧ e.SameMemory s ∧ e.cores = s.cores ∧ e.dmas = s.dmas ∧
      e.kp.fab.outs = [] ∧ e.kp.fab.groups = [] ∧ (q.op = 0x84 → q.strm = 0x0440 → Sparse.get [] e.kp.fab.armed o.tag = g.req)
    (q.op = 0x80 → Sparse.get [] s.kp.fab.joined q.tag = [] → Completes (.aelxAck m vc) s (told q.strm 0 0)) ∧
    (q.op = 0x81 → q.strm ≤ 1 → Completes (.aelxReadResp m vc) s (told q.strm q.data 0)) ∧
    (q.op = 0x82 → q.strm ≤ 1 → Completes (.aelxAtomicResp m vc) s (told q.strm q.data 0)) ∧
    (q.op = 0x83 → q.strm ≤ 1 → Completes (.aelxFeResp m vc) s (told q.strm q.data (q.arg % 4))) ∧
    (q.op = 0x84 → Completes (.aelxFeArmed m vc) s (told q.strm 0 0)) ∧
    (q.op = 0x85 → Completes (.aelxDealNak m vc) s (told 0x0385 0 0))

/-- The host's side: window reads and writes reach the module's memory through the function's window, window registers are written, functions and links
are reset, trained, looped back and configured (R459 to R466, R491, R728, R758). -/
def Obligations.HostLinkCommandsComplete : Prop :=
  ∀ (ag : Option Agent) (f : Fin 64) (l : Fin 2) (o : BitVec 36) (n : Fin 4097) (k : Fin 513) (data : BitVec 4096) (st : Status) (v : Word) (bar : Fin 7) (ats : Bool)
    (page : BitVec 52) (c off : Nat) (s : State), s.cp.cmds = [] → s.kp.firm.recovery ≠ 2 →
    let a := s.winAddr f o.toNat
    let place := bankAddr c off
    let x := s.fn f
    let y := s.link l
    let same := fun (u : State) => u.SameMemory s
    let mine := fun (g : Nat) => g < 64 ∧ s.fld FUNC_BIND_LINK g 0 = l.val
    let mode := s.fld STRAP_STAT_HOST_MODE 0 0
    let pcie := fun (u : State) (m : List Nat) => u.sent = s.sent ++ [⟨.pcie, m⟩]
    let window := fun (m : Nat) (write : Bool) => s.fnUp f = true ∧ o.toNat + m ≤ 2 ^ x.bar4 ∧ 0 < m ∧ a.toNat % 64 + m ≤ 64 ∧
      s.reach (s.fnWho f) a m write = .to (.bank c off) ∧ ∀ i < m, s.pat (place + i) = 0
    (window n false → x.reads = [] → Completes (.bar4Read f o n none) s (fun u => same u ∧ pcie u [f.val, 2, 0, s.readLE place n])) ∧
    (window k true → Completes (.bar4Write f o k data st) s (fun u => u.sent = s.sent ∧ u.readLE place k = data.toNat % 2 ^ (8 * k.val) ∧
      ∀ b, b < place ∨ place + k ≤ b → u.byte b = s.byte b)) ∧
    (x.reads = [(o.toNat, n.val)] → Completes (.windowReadTimeout f o n) s (fun u => same u ∧ (u.fn f).reads = [] ∧ u.fld FUNC_WINERR_STATUS f 0 = 0x0305 ∧
      pcie u [f.val, 2, 1, 0])) ∧
    ((∀ b, ag = some b → s.MayPut b (0x20050000000 + f.val * 0x200000 + 0x10) 8) → s.fnUp f = true → Completes (.funcWinWrite ag f v) s (fun u => same u ∧
      u.fld FUNC_WIN_BASE f 0 = v.toNat / 2 ^ 30)) ∧
    Completes (.flr f) s (fun u => same u ∧ u.fld FUNC_WIN_BASE f 0 = 0 ∧ (u.fn f).reads = [] ∧ u.fld FUNC_STAT_FLR f 0 = 0 ∧
      ∀ q < 16384, s.fld QP_BIND_KEEPER q 0 = 0 → s.fld QP_BIND_FUNC q 0 = f.val → u.fld QP_STAT_STATE q 0 = 0) ∧
    Completes (.linkDown l) s (fun u => same u ∧ (u.link l).up = false ∧ (u.link l).ats = [] ∧ u.sent = s.sent ∧ ∀ g, mine g → u.fld FUNC_STAT_LINK_UP g 0 = 0) ∧
    Completes (.perstAssert l) s (fun u => same u ∧ (u.link l).perst = true ∧ (u.link l).up = false ∧ pcie u [l.val, 4] ∧
      ∀ g, mine g → u.fld FUNC_STAT_LINK_UP g 0 = 0) ∧
    (mode ≠ 2 → l = 0 ∨ mode = 1 → Completes (.perstDeassert l) s (fun u => same u ∧ u.link l = { y with perst := false, training := true } ∧ pcie u [l.val, 5])) ∧
    (y.perst = false → y.training = true → Completes (.pcieLinkTrained l) s (fun u => same u ∧ u.link l = { y with training := false, up := true, loop := false } ∧
      u.sent = s.sent ∧ ∀ g, mine g → u.fld FUNC_STAT_LINK_UP g 0 = 1)) ∧
    (y.up = true → y.loop = false → Completes (.pcieLoopback l) s (fun u => same u ∧ u.link l = { y with loop := true, training := true } ∧ u.regs = s.regs)) ∧
    (s.fnUp f = true → s.fld PROFILE_STAT_STATE 0 0 ≠ 0 → Completes (.configRequest f (some bar) (some ats)) s (fun u => same u ∧ pcie u [f.val, 3, 0, 0xB0] ∧
      u.fn f = { x with bar4 := 30 + bar.val, ats := ats })) ∧
    Completes (.atsInvalidation l page) s (fun u => same u ∧ pcie u [l.val, 6, page.toNat] ∧ ∀ p, p ∈ (u.link l).ats ↔ p ∈ y.ats ∧ p ≠ page.toNat)

/-- Queues: doorbells move the indices, a queue is enabled and reset, entries are fetched in order, completions are published and signalled, and the
admission registers are written (R468 to R475, R492, R493). -/
def Obligations.QueueCommandsComplete : Prop :=
  ∀ (ag : Option Agent) (keeper : Agent) (q : Fin 16384) (d : BitVec 16) (v : Word) (p : Fin 64) (now c off : Nat) (st : Status) (far : List Vec) (s : State),
    keeper.keeper = true →
    let allowed := fun (reg len : Nat) => (∀ b, ag = some b → s.MayPut b (qpOff q reg) len) ∧ (ag = none → s.fld QP_BIND_KEEPER q 0 = 0 ∧ s.qLinked q = true ∧
      s.fld QP_BIND_LOCAL q 0 < s.fld FUNC_BIND_QCOUNT (s.fld QP_BIND_FUNC q 0) 0)
    let same := fun (u : State) => u.SameMemory s
    let x := s.qp q
    let head := s.fld QP_STAT_SQ_HEAD q 0
    let n := s.cqSize q
    let ahead := (s.fld QP_STAT_CQ_TAIL q 0 + n - s.fld QP_CQ_HEAD_INDEX q 0) % n
    let a := s.fld QP_SQ_BASE_BASE q 0 * 4096 + 64 * head
    let s1 := s.setFld QP_STAT_SQ_HEAD q 0 ((head + 1) % s.sqSize q)
    let words := (List.range 8).map (fun i => wordAt (s.readLE (bankAddr c off) 64) i)
    let k : Cmd := { seq := s.cp.nextSeq, q := q, cid := words.getD 0 0 / 2 ^ 16 % 2 ^ 16, words := words, cls := s.qClass q, plot := s.fld QP_BIND_PLOT q 0,
                     phase := .atFetch, fetched := now, total := 0 }
    let w := fun (i : Nat) => v.toNat / 16 ^ i % 16
    let others := (List.range 64).foldl (fun t i => if i = p.val then t else t + s.fld ADMIT_PLOT_n_LEAD_CMDS 0 i) 0
    (allowed 0x40 4 → s.qOn q = true → d.toNat < s.sqSize q → s.fld QP_BIND_TARGET q 0 < 2 → Completes (.sqTailDoorbell ag q d) s (fun u => same u ∧
      u.fld QP_SQ_TAIL_INDEX q 0 = d.toNat ∧ u.qOn q = true)) ∧
    (allowed 0x48 4 → s.qOn q = true → d.toNat < n → (d.toNat + n - s.fld QP_CQ_HEAD_INDEX q 0) % n ≤ ahead → x.wait = [] →
      Completes (.cqHeadDoorbell ag q d) s (fun u => same u ∧ u.fld QP_CQ_HEAD_INDEX q 0 = d.toNat ∧ u.qOn q = true)) ∧
    (allowed 0x08 4 → s.fld QP_CFG_EN q 0 = 0 → s.cfgOk q v = true → v.toNat / 2 ^ 31 % 2 = 1 → Completes (.qpEnable ag q v) s (fun u => same u ∧
      u.qOn q = true ∧ u.fld QP_CFG_EN q 0 = 1 ∧ u.fld QP_STAT_SQ_HEAD q 0 = 0 ∧ u.fld QP_STAT_CQ_TAIL q 0 = 0 ∧ u.fld QP_SQ_TAIL_INDEX q 0 = 0 ∧
      u.fld QP_CQ_HEAD_INDEX q 0 = 0 ∧ u.fld QP_CFG_SQ_LOG2 q 0 = v.toNat / 2 ^ 23 % 32 ∧ u.qp q = {})) ∧
    (allowed 0x58 4 → s.cp.cmds = [] → Completes (.qpReset ag q) s (fun u => same u ∧ u.fld QP_STAT_STATE q 0 = 0 ∧ u.fld QP_CFG_EN q 0 = 0 ∧ u.qp q = {})) ∧
    (s.qOn q = true → d.toNat < n → s.fld QP_CFG_IEN q 0 = 0 → Completes (.cqPost keeper q d) s (fun u => same u ∧ u.Answers s 0 0 0 ∧
      u.fld QP_STAT_CQ_TAIL q 0 = d.toNat ∧ (u.qp q).fresh = x.fresh + (d.toNat + n - s.fld QP_STAT_CQ_TAIL q 0) % n)) ∧
    (s.qOn q = true → x.sqRetry = false → s.fld QP_BIND_KEEPER q 0 = 1 → s.fld QP_BIND_TARGET q 0 = 0 → s.fld QP_CFG_SQ_HOST q 0 = 0 →
      head ≠ s.fld QP_SQ_TAIL_INDEX q 0 → s.reach (s.qWho q) (BitVec.ofNat 64 a) 64 false = .to (.bank c off) → (∀ i < 64, s.pat (bankAddr c off + i) = 0) →
      words.getD 0 0 / 2 ^ 56 = 0 → s1.cmdDetail { k with phase := .waiting } = none → Completes (.sqFetch q now 1 st far) s (fun u => same u ∧ u.sent = s.sent ∧
        u.fld QP_STAT_SQ_HEAD q 0 = (head + 1) % s.sqSize q ∧ u.cp.cmds = s.cp.cmds ++ [k])) ∧
    (x.sqRetry = true → x.cqRetry = false → head = s.fld QP_SQ_TAIL_INDEX q 0 → Completes (.ringAccessRetry q now 1 st far) s (fun u => same u ∧
      u.qp q = { x with sqRetry := false } ∧ u.sent = s.sent)) ∧
    (s.fld QP_CFG_IEN q 0 = 1 → s.fld QP_COAL_COAL_T q 0 ≠ 0 → x.fresh ≠ 0 → Completes (.msixCoalTimer q) s (fun u => same u ∧ (u.qp q).fresh = 0 ∧
      u.sent = s.sent ++ [⟨.msix, [s.fld QP_BIND_FUNC q 0, s.fld QP_CFG_VEC q 0]⟩])) ∧
    (w 0 + w 1 + w 2 = 16 → 0 < w 0 → 0 < w 1 → 0 < w 2 → Completes (.admitCfgWrite keeper v) s (fun u => same u ∧ u.Answers s 0 0 0 ∧
      u.fld ADMIT_CFG_PASS_W 0 0 = w 0 ∧ u.fld ADMIT_CFG_FOLLOW_W 0 0 = w 1 ∧ u.fld ADMIT_CFG_LEAD_W 0 0 = w 2)) ∧
    (others + w 0 ≤ 14 → Completes (.admitPlotWrite keeper p v) s (fun u => same u ∧ u.Answers s 0 0 0 ∧ u.fld ADMIT_PLOT_n_LEAD_CMDS 0 p = w 0))

/-- Steps: the command that R481 names is admitted or takes its next step, a step that ends counts toward its command, and a command that has waited past
its limit is refused with REFUSED_BUSY (R481 to R486). -/
def Obligations.StepCommandsComplete : Prop :=
  ∀ (k : Cmd) (now : Nat) (s : State), s.cp.cmds = [k] → k.word 1 = 0 → k.cid < 2 ^ 16 → k.q < 16384 →
    let q : Fin 16384 := ⟨k.q % 16384, by omega⟩
    let cid : BitVec 16 := BitVec.ofNat 16 k.cid
    let w := now - k.fetched
    let same := fun (u : State) => u.SameMemory s
    let slots := fun (u : State) (n : Nat) => u.fld ADMIT_STAT_SLOTS 0 0 = n
    (s.nextStep = some (k, false) → k.phase = .between → Completes (.stepGrant now) s (fun u => same u ∧ u.cp.cmds = [{ k with phase := .granted }] ∧ slots u 1)) ∧
    (s.nextStep = some (k, false) → k.phase = .waiting → k.racks = false → s.fld QP_STAT_ACTIVE k.q 0 < 0xFFFF → Completes (.stepGrant now) s (fun u => same u ∧
      u.cp.cmds = [{ k with phase := .granted, wait := w }] ∧ slots u 1 ∧ u.fld QP_STAT_ACTIVE k.q 0 = s.fld QP_STAT_ACTIVE k.q 0 + 1)) ∧
    (k.phase = .worked → k.opc = 0x11 → k.done + 1 < k.total → k.aborted = false → k.code = 0 → k.cancelled = false → (∀ p < 8, s.fld RESET_STAT_STATE p 0 ≠ 1) →
      Completes (.stepEnd q cid) s (fun u => same u ∧ u.sent = s.sent ∧ u.cp.cmds = [{ k with done := k.done + 1, phase := .between }] ∧ slots u 0)) ∧
    (k.phase = .waiting → (k.cls = 2 ∧ s.fld ADMIT_CFG_FOLLOW_WAIT 0 0 ≤ w) ∨ (k.cls = 3 ∧ s.fld ADMIT_CFG_PASS_WAIT 0 0 ≤ w) →
      Completes (.admitTimeout q cid now) s (fun u => ∃ (e : State) (hint : Nat), u = e.complete k 0x0102 hint [] ∧ same e ∧ e.cp.cmds = [k] ∧ e.sent = s.sent))

/-- Small commands: at its fetch a NOP completes, and a CANCEL ends a command that waits; a step of IDENTIFY, GET_LOG, SIGNAL, COPY, LOAD_CODE or ZEROISE
does its work and the command's slot may be released (R478, R479, R487, R488). -/
def Obligations.PlainCommandsComplete : Prop :=
  ∀ (k x : Cmd) (far : List Vec) (c off n i : Nat) (p : Fin 8) (s : State), k.cid < 2 ^ 16 → k.q < 16384 → k.code = 0 →
    let q : Fin 16384 := ⟨k.q % 16384, by omega⟩
    let cid : BitVec 16 := BitVec.ofNat 16 k.cid
    let only := s.cp.cmds = [k]
    let step := fun (opc : Nat) => only ∧ k.phase = .granted ∧ k.opc = opc
    let worked := fun (u : State) (y : Cmd) => u.cp.cmds = [{ y with phase := .worked }]
    let a := bankAddr c off
    let place := fun (addr : Word) (m : Nat) => 0 < m ∧ addr.toNat % 64 + m ≤ 64 ∧ s.reach (s.qWho k.q) addr m true = .to (.bank c off) ∧
      (∀ j < m, s.pat (a + j) = 0) ∧ (s.core c).watches = []
    let kept := fun (u : State) (m : Nat) => ∀ y, y < a ∨ a + m ≤ y → u.byte y = s.byte y
    let f := s.fld QP_BIND_FUNC k.q 0
    let target := s.fld QP_BIND_KEEPER k.q 0 = 0 ∧ s.localQueue f (k.word 2 / 2 ^ 16 % 2 ^ 14) = some x.q ∧ x.cid = k.word 2 % 2 ^ 16 ∧ s.fld QP_BIND_TARGET x.q 0 = 0
    let words := k.word 4 / 2 ^ 32 % 2 ^ 16 * 2
    let first := k.word 4 % 2 ^ 16 * 2
    let stamp := if k.word 4 / 4 % 2 = 1 then k.word 4 / 16 % 4 else 0
    (only → k.phase = .atFetch → k.opc = 0 → k.after = none → k.word 0 / 2 ^ 55 % 2 = 0 → Completes (.nop q cid) s (fun u => u = s.complete k 0 0 [])) ∧
    (s.cp.cmds = [x, k] → k.phase = .atFetch → k.opc = 3 → k.after = none → k.word 0 / 2 ^ 55 % 2 = 0 → target → x.phase = .waiting → x.seq ≠ k.seq →
      s.plotHeld x.plot = false → Completes (.cmdCancel q cid) s (fun u => u = (s.setCmd { k with after := some x.seq }).complete x 0x0104 0 [])) ∧
    (step 1 → k.host 2 = true → Completes (.identify q cid 0) s (fun u => u.SameMemory s ∧ worked u k ∧ ∃ v,
      u.sent = s.sent ++ [⟨.pcie, [f, 1, (k.addr 2 0).toNat, 4096, v]⟩])) ∧
    (step 2 → k.host 2 = true → Completes (.getLog q cid 0) s (fun u => u.SameMemory s ∧ ∃ m v, m ≤ k.word 3 / 2 ^ 16 % 2 ^ 32 ∧ worked u { k with res0 := m } ∧
      u.sent = s.sent ++ [⟨.pcie, [f, 1, (k.addr 2 0).toNat, m, v]⟩])) ∧
    (step 0x11 → k.word 4 % 4 = 0 → place (BitVec.ofNat 64 (k.word 2)) 8 → Completes (.cmdSignal q cid 0) s (fun u => worked u k ∧ kept u 8 ∧
      u.readLE a 8 = k.word 3 % 2 ^ 64 ∧ u.tag a = 4 + stamp)) ∧
    (step 0x12 → k.done = 0 → k.word 4 = n → k.host 2 = true → k.host 3 = false → place (k.addr 3 0) n → Completes (.copy q cid far 0) s (fun u =>
      worked u { k with res0 := k.res0 + n } ∧ kept u n ∧ u.readLE a n = farVal far % 2 ^ (8 * n))) ∧
    (step 0x13 → k.done = 0 → k.host 3 = true → s.launchCores k = [(n, c)] → words ≤ 4096 →
      s.coreRefuses c 0x3F0008 8 { Who.keeper with plot := k.plot } = none → Completes (.loadCode q cid far 0) s (fun u => u.SameMemory s ∧
      worked u { k with res0 := k.res0 + words } ∧ (i < words → Sparse.get 0 (u.core c).imem (first + i) = BitVec.ofNat 32 (farVal far / 2 ^ (32 * i))))) ∧
    (step 0x28 → k.done = 0 → k.word 3 = 2 ^ 21 → s.reach (s.qWho k.q) (k.addr 2 0) 8 true = .to (.hbm p off) → Completes (.zeroise q cid) s (fun u =>
      worked u { k with res0 := k.res0 + 2 ^ 20 } ∧ u.sent = s.sent ∧ (i < 2 ^ 20 → u.byte (hbmAddr p off + i) = 0) ∧
      (∀ y, y < hbmAddr p off ∨ hbmAddr p off + 2 ^ 20 ≤ y → u.byte y = s.byte y)))

/-- Commands over cores and plots: a LAUNCH starts its threads and is stopped after its time limit; a pool is given, freed and moved in the last step; a
teardown advances the epoch; a self-test, a scrub pass, an image and a profile take their steps (R267 to R269, R355, R479, R527, R538, R612, R646). -/
def Obligations.PlotCommandsComplete : Prop :=
  ∀ (k : Cmd) (far : List Vec) (l c t : Nat) (ms : BitVec 32) (all : List PoolPage) (a sp m st : Nat) (v : Bool × Option Nat) (ok : Bool)
    (vs : List (Bool × Option Nat)) (y : (Nat × Nat) × List Nat × Bool × Option Nat) (s e g : State), k.cid < 2 ^ 16 → k.q < 16384 → k.code = 0 →
    let q : Fin 16384 := ⟨k.q % 16384, by omega⟩
    let cid : BitVec 16 := BitVec.ofNat 16 k.cid
    let only := s.cp.cmds = [k]
    let step := fun (opc : Nat) => only ∧ k.phase = .granted ∧ k.opc = opc
    let last := k.done + 1 = k.total ∧ k.aborted = false
    let worked := fun (u : State) (y : Cmd) => u.cp.cmds = [{ y with phase := .worked }]
    let pages := (s.poolPages k.plot).foldl (fun l x => insertPage x l) []
    let named := s.poolNamed k
    let plot := k.word 2 % 64
    let parcel := k.word 2 / 256 % 8
    let took := fun (y : Cmd) (u : State) => u = e.setCmd { y with phase := .worked }
    let len := k.word 3
    (step 0x10 → k.done = 0 → s.launchCores k = [(l, c)] → t < 8 → k.word 3 / 2 ^ 32 % 256 = 2 ^ t → s.startable c t = true → s.underTest c = false →
      s.fld KSTAT_ACTIVE c 0 = 0 → (s.core c).cache = [] → Completes (.launch q cid) s (fun u => u.SameMemory s ∧ worked u k ∧ u.fld KSTAT_ACTIVE c 0 = 1 ∧
        u.fld KSTAT_RUN c 0 = 2 ^ t ∧ (u.thr c t).st = .ready ∧ (u.thr c t).pc = k.word 3 % 2 ^ 16 ∧ u.level c t = k.word 3 / 2 ^ 24 % 2 ∧
        u.x c t 1 = BitVec.ofNat 64 (k.word 4) ∧ u.x c t 2 = BitVec.ofNat 64 (k.word 5))) ∧
    (only → k.phase = .launched → k.opc = 0x10 → k.word 6 % 2 ^ 32 ≠ 0 → k.word 6 % 2 ^ 32 ≤ ms.toNat → s.launchCores k = [(l, c)] → t < 8 →
      s.fld KSTAT_ACTIVE c 0 = 1 → s.fld KSTAT_RUN c 0 = 2 ^ t → (s.thr c t).st = .waiting → Completes (.launchTimeout q cid ms) s (fun u => u.SameMemory s ∧
        (u.thr c t).stopReq = true ∧ u.cp.cmds = [{ k with code := 0x0107 }])) ∧
    (step 0x20 → last → s.poolTake k.plot named pages 0 0 = some (all, a, sp) → s.setPool k.plot all = some e →
      Completes (.poolAlloc q cid) s (took { k with res0 := sp, res1 := a })) ∧
    (step 0x21 → last → s.setPool k.plot (pages.filter (fun x => !named.contains x.page)) = some e →
      Completes (.poolFree q cid) s (took { k with res0 := pages.length - (pages.filter (fun x => !named.contains x.page)).length })) ∧
    (step 0x22 → last → s.poolMove k.plot (k.word 4 % 2 = 1) named pages 0 0 = (all, m, st, g) → g.setPool k.plot all = some e →
      Completes (.poolMove q cid) s (took { k with res0 := m, res1 := st })) ∧
    (step 0x30 → s.fld PLOT_STAT_W0_STATE 0 plot ≠ 2 → s.kp.tds = [] → Completes (.contextTeardown q cid) s (fun u =>
      Sparse.get 0 u.epochs plot = (Sparse.get 0 s.epochs plot + 1) % 256 ∧ u.fld PLOT_STAT_W0_EPOCH 0 plot = (Sparse.get 0 s.epochs plot + 1) % 256 ∧
      (∃ h, u.kp.tds = [{ plot := plot, cmds := [k.seq], horizon := h, next := 0 }]) ∧ u.cp.cmds = [{ k with phase := .launched, total := k.done + 1 }])) ∧
    (step 0x42 → s.kp.rep.tests = [] → s.fld TEST_CFG_MIGRATE 0 0 = 0 → k.word 2 / 2 ^ 16 % 2 = 0 → Completes (.selfTest q cid .start) s (fun u =>
      u.SameMemory s ∧ worked u k ∧ u.kp.rep.tests = [{ parcel := parcel, block := k.word 2 % 128, cmd := some k.seq }])) ∧
    (step 0x43 → k.total ≠ 0 → k.word 2 = 2 ^ 9 + 1 → s.bad = [] → Completes (.scrub q cid) s (fun u => u.SameMemory s ∧ worked u { k with res0 := k.res0 + 2 ^ 20 })) ∧
    (step 0x40 → k.host 2 = true → k.done = 0 → 0 < len → len ≤ 2 ^ 20 → Completes (.loadImage q cid far 0 v ok) s (fun u => u.SameMemory s ∧ worked u k ∧
      Sparse.get [] u.kp.img.reads k.seq = Sparse.get [] s.kp.img.reads k.seq ++ leBytes (farVal far % 2 ^ (8 * len)) len)) ∧
    (step 0x41 → s.kp.img.rebinds = [] → s.firstCopy (((s.slotOrder (k.word 2 % 4)).take 2).zip vs) = some y → Completes (.switchProfile q cid vs) s (fun u =>
      u.SameMemory s ∧ worked u { k with total := k.done + 1 } ∧ u.kp.img.cause = 1 ∧ u.kp.img.slot = k.word 2 % 4 ∧ u.kp.img.toReset = true ∧
      u.fld IMG_STAT_CODE 0 0 = 0))

/-- RACK and RESTORE move their pieces a step at a time; a restored run's loss word ends its RESTORE; the NVMe device answers and is switched off (R672,
R677, R682, R683, R755). -/
def Obligations.RackCommandsComplete : Prop :=
  ∀ (k : Cmd) (j : RackJob) (now : Nat) (far : List Vec) (b : Nat) (n c off c2 off2 id : Nat) (r : List (Nat × Nat × Nat)) (ms : BitVec 32) (ok : Bool) (s : State),
    k.cid < 2 ^ 16 → k.q < 16384 → k.code = 0 →
    let q : Fin 16384 := ⟨k.q % 16384, by omega⟩
    let cid : BitVec 16 := BitVec.ofNat 16 k.cid
    let step := fun (opc : Nat) => s.cp.cmds = [k] ∧ k.phase = .granted ∧ k.opc = opc ∧ s.kp.rack.jobs = [j] ∧ j.cmd = k.seq ∧ j.nvme = []
    let worked := fun (u : State) (y : Cmd) => u.cp.cmds = [{ y with phase := .worked }] ∧ u.kp.rack.jobs = [{ j with pieces := r }]
    let w := s.rackWho k
    let place := fun (addr : Word) (write : Bool) (d o : Nat) => addr.toNat % 64 + n ≤ 64 ∧ s.reach w addr n write = .to (.bank d o) ∧
      ∀ i < n, s.pat (bankAddr d o + i) = 0
    let moved := fun (u : State) => (∀ i < n, u.byte (bankAddr c2 off2 + i) = s.byte (bankAddr c off + i)) ∧
      ∀ y, y < bankAddr c2 off2 ∨ bankAddr c2 off2 + n ≤ y → u.byte y = s.byte y
    let piece := BitVec.ofNat 64 b
    let watching := s.cp.cmds = [k] ∧ k.phase = .launched ∧ k.opc = 0x39
    let loss := s.readLE (bankAddr c off) 8
    let rk := s.kp.rack
    (step 0x38 → j.phase = 1 → j.pieces = (b, id, n) :: r → 0 < n → place piece false c off → place (k.stage id) true c2 off2 →
      Completes (.rack q cid now far 0) s (fun u => moved u ∧ worked u k)) ∧
    (step 0x39 → j.phase = 3 → j.pieces = (b, id, n) :: r → 0 < n → place (k.stage id) false c off → place piece true c2 off2 →
      Completes (.restore q cid far 0) s (fun u => moved u ∧ worked u { k with res0 := k.res0 + n })) ∧
    (watching → k.word 1 = 0 → s.reach w (BitVec.ofNat 64 (k.word 5)) 8 false = .to (.bank c off) → 4 ≤ s.tag (bankAddr c off) → s.tag (bankAddr c off) < 8 →
      off % 8 = 0 → s.pat (bankAddr c off) = 0 → Completes (.restoreVerifyArrive q cid) s (fun u =>
        u = s.complete k (if loss = k.notes.headD 0 then 0 else 0x0502) 0 [k.notes.headD 0, loss])) ∧
    (watching → k.word 1 = 0 → rk.jobs = [j] → j.cmd = k.seq → bitsOf j.cfg 31 16 ≤ ms.toNat → Completes (.restoreVerifyTimeout q cid ms) s (fun u =>
      u = s.complete k 0x0507 0 k.notes)) ∧
    (rk.nvme = [(id, 4)] → Completes (.nvmeCompletion id ok) s (fun u => u.SameMemory s ∧ u.kp.rack.nvme = [] ∧ u.sent = s.sent ∧
      u.fld RACK_STAT_NVME_OK 0 0 = if ok && rk.nvmeOn then 1 else 0)) ∧
    (rk.nvmeOn = true → rk.jobs = [] → Completes .nvmeOvercurrent s (fun u => u.SameMemory s ∧ u.kp.rack.nvmeOn = false ∧ u.kp.rack.nvme = [] ∧
      u.fld RACK_STAT_NVME_OK 0 0 = 0 ∧ u.cp = s.cp))

/-- Images: at a Module reset's release the staged image is applied with SRAM zeroised, or the no-profile state stands where TEST_MODE is strapped; a
staging command resets the module; a profile edge is counted and, where pins may choose, chooses the slot; a broken re-bind is undone; a changed strap pin
shows only its difference (R524, R525, R532, R536 to R540). -/
def Obligations.ImageCommandsComplete : Prop :=
  ∀ (pins slot : Fin 4) (v : List (Bool × Option Nat)) (b : List Nat) (n : Fin 64) (y : (Nat × Nat) × List Nat × Bool × Option Nat) (x : Rebind) (pin : Fin 22)
    (differs : Bool) (s : State),
    let m := s.kp.img
    let strap := fun (f : Field) => s.fld f 0 0
    let shown := fun (u : State) => if pin.val < 16 then u.fld STRAP_STAT_DIFF 0 0 / 2 ^ pin.val % 2 else u.fld PWR_STAT_STRAP_DIFF_HI 0 0 / 2 ^ (pin.val - 16) % 2
    (s.kp.modReset = 5 → strap STRAP_STAT_TEST_MODE = 0 → m.staged = some b → m.cause = 2 → Completes (.fullImageApply pins v) s (fun u =>
      u.kp.img.inForce = b ∧ u.kp.modReset = 0 ∧ u.kp.img.toReset = false ∧ u.fld PROFILE_STAT_STATE 0 0 = 1 ∧ u.fld PROFILE_STAT_SOURCE 0 0 = 2 ∧
      u.fld PROFILE_STAT_PINS 0 0 = pins ∧ ∀ a < 0xA20000000, u.byte a = 0)) ∧
    (s.kp.modReset = 5 → strap STRAP_STAT_TEST_MODE = 1 → Completes (.fullImageApply pins v) s (fun u => u.SameMemory s ∧ u.kp.modReset = 0 ∧
      u.fld PROFILE_STAT_STATE 0 0 = 2 ∧ u.fld PROFILE_STAT_SOURCE 0 0 = 3 ∧ u.fld PLOT_STAT_W0_STATE 0 n = 0 ∧ u.kp.plots = [])) ∧
    (m.toReset = true → m.rebinds = [] → s.kp.modReset < 3 → s.kp.hang.phase = .idle → s.boundPlots = [] → Completes .stagedModuleReset s (fun u => u.SameMemory s ∧
      u.kp.modReset = 3 ∧ u.kp.img = m ∧ ∀ p < 8, u.fld RESET_STAT_STATE p 0 = 0)) ∧
    (m.rebinds = [x] → x.plot = n → x.aborted = true → s.kp.tds = [] → Completes (.rebindResetRecovery n) s (fun u => u.kp.img.rebinds = [] ∧
      u.kp.img.masks = x.masks ∧ u.fld PLOT_STAT_W0_STATE 0 n = 1 ∧ Sparse.get 0 u.epochs n = (Sparse.get 0 s.epochs n + 1) % 256)) ∧
    Completes (.profileLoadEdge slot v) s (fun u => u.SameMemory s ∧ u.fld PROFILE_STAT_PINS 0 0 = slot ∧
      u.fld PROFILE_STAT_EDGES 0 0 = min (s.fld PROFILE_STAT_EDGES 0 0 + 1) (2 ^ (PROFILE_STAT_EDGES.hi + 1 - PROFILE_STAT_EDGES.lo) - 1) ∧
      (strap STRAP_STAT_PROFILE_PIN_EN = 0 → u.kp = s.kp) ∧
      (strap STRAP_STAT_PROFILE_PIN_EN = 1 → s.firstCopy (((s.slotOrder slot).take 2).zip v) = some y →
        u.kp.img = { m with cause := 1, slot := slot, staged := none, toReset := true })) ∧
    Completes (.strapPinChange pin differs) s (fun u => u.SameMemory s ∧ u.kp = s.kp ∧ u.RegsExcept s [.STRAP_STAT, .PWR_STAT] ∧
      shown u = if differs then 1 else 0)

/-- Serving: a submit is tracked, a cancel ends what it names, models and token tables are loaded and unloaded and policy is set, prompts are merged,
steps start and end here and at members, and limits refuse or report (R571 to R580, R583, R586, R587, R593). -/
def Obligations.ServingCommandsComplete : Prop :=
  ∀ (k : Cmd) (m : SrvModel) (r : SrvReq) (t : SrvTable) (st : SrvStep) (now ms n : Nat) (far : List Vec) (steps : Word) (v : Fin 4096) (code : Status)
    (ma mf mt mp : BitVec 16) (plot : Fin 64) (slot : Fin 8) (rid : Fin 16384) (l : List Nat) (s : State), k.cid < 2 ^ 16 → k.q < 16384 → k.word 0 / 2 ^ 55 % 2 = 0 → k.racks = false →
    let q : Fin 16384 := ⟨k.q % 16384, by omega⟩
    let cid : BitVec 16 := BitVec.ofNat 16 k.cid
    let next := fun (opc : Nat) => s.cp.cmds = [k] ∧ k.phase = .atFetch ∧ k.after = none ∧ k.opc = opc
    let x := s.kp.srv
    let f := farVal far
    let g := fun (o b : Nat) => f / 2 ^ (8 * o) % 2 ^ (8 * b)
    let len := k.word 2 % 2 ^ 32
    let loaded := srvModelOf k.plot (leBytes (g 0 320) 320)
    let strs := g 24 8
    let only := x.models = [m] ∧ m.plot = plot ∧ m.slot = slot
    let free := only ∧ s.plotHeld plot = false ∧ (∀ c ∈ s.srvCores m, s.underTest c = false)
    let word := k.word 4
    (next 0x80 → srvBadFields (k.word 2) (k.word 4) (k.word 5) = none → s.srvModel k.plot (nbits (k.word 2) 51 48) = some m → m.lost = false → m.leader = none →
      k.word 2 / 2 ^ 62 % 4 = 0 → k.word 2 / 2 ^ 60 % 4 = 0 → len ≤ m.d 32 4 - 1 → s.srvRoom k.plot k.cls = none → x.reqs = [] → k.host 1 = true →
      (∀ i < len, f / 2 ^ (32 * i) % 2 ^ 32 < m.d 8 4) → Completes (.srvSubmit q cid now far 0) s (fun u => u.SameMemory s ∧ u.sent = s.sent ∧ u.cp.cmds = [] ∧
        ∃ i < 16384, u.kp.srv.reqs = [{ rid := i, plot := k.plot, q := k.q, cid := k.cid, cls := k.cls, words := k.words, fetched := k.fetched, order := x.nextAge,
                                        tokens := some ((List.range len).map (fun j => f / 2 ^ (32 * j) % 2 ^ 32)) }])) ∧
    (next 0x81 → x.reqs = [r] → r.q = k.q → r.cid = k.word 2 % 2 ^ 16 → r.bslot = none → Completes (.srvCancel q cid) s (fun u =>
      u.kp.srv.reqs = [] ∧ u.cp.cmds = [])) ∧
    (next 0x88 → x.models = [] → k.host 2 = true → s.srvCheck loaded = none → loaded.d 38 2 = 1 →
      Completes (.srvModel q cid far [] 0 true) s (fun u => u = (s.putModel loaded).complete k 0 0 [])) ∧
    (next 0x89 → s.srvModel k.plot (k.word 3) = some m → s.srvBetween k.plot = true → k.host 2 = true → g 0 4 = 0x4B4F5453 → g 4 4 = m.d 8 4 → g 8 4 = 0 →
      g 12 4 = 0 → g 40 24 = 0 → (∀ i < g 4 4, 0 < g (strs + 8 * i) 4 ∧ g (strs + 8 * i) 4 ≤ 64) → Completes (.srvToktab q cid far 0) s (fun u =>
        ∃ tab : SrvTable, tab.merges = [] ∧ (∀ b < 256, tab.bytemap.getD b 0 = g (g 16 8 + 4 * b) 4) ∧ (∀ i < g 4 4, tab.strings.getD i [] =
          leBytes (g (g (strs + 8 * i + 4) 4) (g (strs + 8 * i) 4)) (g (strs + 8 * i) 4)) ∧
          u = (s.putModel { m with table := some tab }).complete k 0 0 [])) ∧
    (next 0x8A → x.models = [m] → m.plot = k.plot → m.slot = k.word 2 → m.step = none → x.reqs = [] → Completes (.srvUnload q cid) s (fun u =>
      u = (s.setSrv { x with models := [] }).complete k 0 0 [])) ∧
    (next 0x8B → s.srvBetween k.plot = true → word < 64 → (∀ i < 64, s.fld SRV_PLOT_A_n_TRACK_MAX 0 i ≤ 256) → k.word 2 / 2 ^ 48 ≤ 256 →
      k.word 2 / 2 ^ 32 % 2 ^ 15 ≤ k.word 2 / 2 ^ 48 → s.qOn k.q = false → s.fld QP_STAT_STATE k.q 0 = 0 → k.post = true →
      Completes (.srvPolicy q cid) s (fun u => u.SameMemory s ∧ u.cp.cmds = [] ∧ u.fld SRV_PLOT_A_n_TRACK_MAX 0 word = k.word 2 / 2 ^ 48 ∧
        u.fld SRV_PLOT_A_n_TRACK_LEAD 0 word = k.word 2 / 2 ^ 32 % 2 ^ 15 ∧ u.fld SRV_PLOT_B_n_KV_LEAD 0 word = k.word 3 / 2 ^ 8 % 2 ^ 24)) ∧
    (free → m.step = none → m.lost = false → m.leader = none → m.members = [] → 1 ≤ m.d 36 2 → x.reqs = [r] → r.plot = plot → r.slot = slot →
      r.bslot = some n → r.stop = false → r.cancels = [] → r.ctx.length = r.pos + 1 → (r.pos + m.tpp) / m.tpp ≤ r.blocks.length → (s.qp r.q).wait = [] →
      Completes (.servingStepStart plot slot now 0) s (fun u => ∃ c det, u.kp.srv.models =
        [{ m with steps := m.steps + 1, step := some { entries := [⟨r.rid, n, r.pos, 1, true⟩], here := true, members := [], code := c, det := det } }] ∧ u.kp.srv.reqs = [r] ∧
        u.fld SRV_STAT_W1_STEPS 0 plot = (s.fld SRV_STAT_W1_STEPS 0 plot + 1) % 2 ^ 32)) ∧
    (only → m.leader = some n → m.step = none → (∀ c ∈ s.srvCores m, (s.core c).cache = []) → Completes (.memberStepOrder plot slot steps) s (fun u => u.SameMemory s ∧ ∃ c, u.kp.srv.models =
      [{ m with steps := steps.toNat, step := some { entries := [], code := c, det := s.srvMarks m } }])) ∧
    (only → m.step = some st → m.leader = none → st.here = true → v.val ∈ st.members → Completes (.memberStepReport plot slot v code ma mf mt mp) s (fun u => u.SameMemory s ∧
      u.kp.srv.models = [{ m with step := some { st with members := st.members.filter (· ≠ v.val),
                                                         far := st.far.zipWith (· + ·) [ma.toNat, mf.toNat, mt.toNat, mp.toNat],
                                                         code := if st.code = 0 ∧ 1 < code.toNat then code.toNat else st.code } }])) ∧
    (only → m.step = some st → m.leader = none → st.here = true → st.again = false → st.members ≠ [] → (∀ c ∈ s.srvCores m, s.fld KSTAT_ACTIVE c 0 = 0 ∧
      (s.core c).wbLost = false) → Completes (.servingKernelEnd plot slot) s (fun u => u.SameMemory s ∧ u.sent = s.sent ∧
        u.kp.srv.models = [{ m with step := some { st with here := false } }])) ∧
    (only → m.step = some st → st.again = false → st.here = true → m.d 43 1 ≤ ms → Completes (.servingStepTimeout plot slot ms) s (fun u =>
      u = s.hangFound ⟨3, coreLoc ((s.srvCores m).headD 0), (s.srvCores m).map coreDom, s.asSuspects [plot.val], s.timeSec⟩)) ∧
    (x.reqs = [r] → r.rid = rid → r.granted = false → r.cls = 2 → s.fld SRV_PLOT_B_n_FOLLOW_WAIT 0 r.plot * 1000 ≤ now - r.fetched →
      s.qOn r.q = false → Completes (.srvAdmitTimeout rid now) s (fun u => u.SameMemory s ∧ u.kp.srv.reqs = [] ∧ u.kp.srv.models = x.models ∧ u.cp = s.cp)) ∧
    (x.reqs = [r] → r.rid = rid → x.models = [m] → m.plot = r.plot → m.slot = r.slot → m.step = none → m.table = some t → r.enc = some l →
      t.mergeOnce l = none → (∀ y ∈ l, y < m.d 8 4) → l.length ≤ m.d 32 4 - 1 → Completes (.promptEncode rid (n + 1)) s (fun u => u.SameMemory s ∧
        u.sent = s.sent ∧ u.kp.srv.reqs = [{ r with enc := none, tokens := some l }]))

/-- Findings: a watchdog stops its thread and is recorded, records are saved, scrub corrects what it reads and reports a lapse, a block's test starts,
ends and is overdue (R600, R603 to R613). Repairs: grafts of cores, rows and lanes put a spare in place of what failed, fences take routers, clock islands
and halves out, ageing raises set points, and phases, stewards and ring stops are written off (R23, R600, R616 to R632). -/
def Obligations.FindingAndRepairCommandsComplete : Prop :=
  (∀ (c : CoreId) (t : ThreadId) (off i b' : Nat) (e : Byte) (r : List Nat) (first last : Bool) (sram hbm : BitVec 16) (p : Fin 8) (b : Fin 81) (tests : BlockTest) (s : State),
    let a := bankAddr c off
    let plot := s.plotOf c
    let rep := s.kp.rep
    let m := p.val * 81 + b.val
    let shown := fun (u : State) (v : Nat) => ∀ j ∈ domIslands p 1 b, u.fld ISLAND_STATUS_CORE_STATE p j = v
    let running := s.fld STRAP_STAT_TEST_MODE 0 0 = 0
    let bank := off % 32 = 0 ∧ (off < 0x40000 ∨ 0x100000 ≤ off ∧ off < 0x300000) ∧ s.fld SCRUB_CFG_EN 0 0 = 1 ∧ running ∧ s.scrubSkips a = false
    let passed := fun (u : State) => u.fld SCRUB_STAT_PASSES 0 0 = (s.fld SCRUB_STAT_PASSES 0 0 + if last then 1 else 0) % 2 ^ 32 ∧
      (last = true → u.fld FLT_STAT_LAPSE_SCRUB 0 0 = 0)
    let old := 1440 < max sram.toNat hbm.toNat
    (s.fld WDOG_CTL_EN c 0 / 2 ^ t.val % 2 = 1 → s.fld WDOG_CTL_LIMIT c 0 * 1024 ≤ (s.thr c t).wdog → (s.thr c t).st = .ready →
      Completes (.watchdogExpiry c t) s (fun u => u.SameMemory s ∧ (u.thr c t).st = .suspended ∧ (u.thr c t).wdog = 0 ∧ u.treg .tfcause c t = 15 ∧
        u.Recorded s 6 0x10 plot 15 (coreLoc c))) ∧
    (s.kp.flash = b' :: r → Completes .faultRecordFlashCopy s (fun u => u.SameMemory s ∧ u.regs = s.regs ∧ u.sent = s.sent ∧ u.kp.flash = r ∧
      u.kp.rep.saved = rep.saved ++ [[(s.reg .FLT_REC_W0 0 b').toNat, (s.reg .FLT_REC_W1 0 b').toNat, (s.reg .FLT_REC_W2 0 b').toNat, (s.reg .FLT_REC_W3 0 b').toNat]])) ∧
    (bank → s.pat a = 0 → Completes (.scrubAccess (BitVec.ofNat 41 a) first last) s (fun u => u.SameMemory s ∧ u.sent = s.sent ∧ passed u)) ∧
    (bank → i < 37 → e ≠ 0 → (i = 33 → e.toNat < 16) → s.pat a = symPat i e → Completes (.scrubAccess (BitVec.ofNat 41 a) true last) s (fun u => u.mem = s.mem ∧ u.tags = s.tags ∧ u.pat a = 0 ∧
      u.Recorded s 1 1 plot i a ∧ passed u)) ∧
    Completes (.scrubLapse sram hbm) s (fun u => u.SameMemory s ∧ u.fld SCRUB_STAT_SRAM_AGE_M 0 0 = sram.toNat ∧ u.fld SCRUB_STAT_HBM_AGE_M 0 0 = hbm.toNat ∧
      (old → u.fld FLT_STAT_LAPSE_SCRUB 0 0 = 1) ∧ (old → s.fld FLT_STAT_LAPSE_SCRUB 0 0 = 0 → u.Recorded s 0x11 0x0E 0xFF 0 0) ∧ (¬ old → u.sent = s.sent)) ∧
    (rep.tests = [] → s.fld TEST_CFG_EN 0 0 = 1 → s.fld TEST_CFG_MIGRATE 0 0 = 0 → running → Completes (.blockTest p b .start) s (fun u => u.SameMemory s ∧
      u.sent = s.sent ∧ u.kp.rep.tests = [{ parcel := p, block := b }] ∧ shown u 3)) ∧
    (rep.tests = [tests] → tests.parcel = p → tests.block = b → tests.cmd = none → tests.moved = [] → tests.fenced = false → rep.overdue = [m] →
      Completes (.blockTest p b (.finish [] [] [])) s (fun u => u.SameMemory s ∧ u.sent = s.sent ∧ u.kp.rep.tests = [] ∧ u.kp.rep.overdue = [] ∧ shown u 0 ∧
        u.fld TEST_STAT_LAST 0 0 = m ∧ u.fld TEST_STAT_OVERDUE 0 0 = 0 ∧ u.fld FLT_STAT_LAPSE_TEST 0 0 = 0)) ∧
    (rep.overdue = [] → s.fld FLT_STAT_LAPSE_TEST 0 0 = 0 → Completes (.blockTestOverdue p b) s (fun u => u.SameMemory s ∧ u.kp.rep.overdue = [m] ∧
      u.fld TEST_STAT_OVERDUE 0 0 = 1 ∧ u.fld FLT_STAT_LAPSE_TEST 0 0 = 1 ∧ u.Recorded s 0x11 0x0E 0xFF 0 0))) ∧
  (∀ (c : CoreId) (t : ThreadId) (n l cycles off j i : Nat) (cls ps : BitVec 8) (det : BitVec 32) (sub : Option (Fin 63)) (sym : Fin 37) (w : Fin 65536) (m : Fin 32)
    (lane : Fin 4) (spare : Fin 2) (p : Fin 8) (east router : Bool) (isl : Fin 90) (height width : BitVec 8) (rail : Fin 16) (s : State),
    let rep := s.kp.rep
    let quiet := ∀ q, s.qOn q = false
    let unbound := s.fld CTX_BIND_BOUND c 0 = 0
    let fence := fun (u : State) (k : Nat) => Sparse.get 0 u.kp.fences k
    let place := s.logicalOf c = some l ∧ s.nearSpare c (fun _ => true) = some n ∧ fence s c < 4
    let inBank := off < 0x40000 ∨ 0x100000 ≤ off ∧ off < 0x300000
    let key := c.val * 64 + (match sub with | none => 63 | some k => k.val)
    let word := bankAddr c ((if sub.isNone then 0x100000 else 0) + w.val * 32)
    let at_ := m.val / 4 * 18 + m.val % 4 * 4 + lane.val
    let h := if east then 1 else 0
    let half := p.val * 2 + h
    let present := s.fld HALF_RAIL_STATUS_VCORE_SET p h
    let tell := fun (u : State) (x : List Nat) => u.SentLast s ⟨.mgmt, 2 :: x⟩
    (s.Canonical → place → unbound → (s.core c).cache = [] → Completes (.liveGraft c cycles cls det none) s (fun u => u.physOf l = n ∧ fence u c = 5 ∧
      (u.core c).inReset = true ∧ u.fld RTR_REDIR_EN c 0 = 1 ∧ u.Recorded s cls.toNat 4 0xFF det.toNat (coreLoc c) ∧ u.x n t j = s.x c t j ∧
      (inBank → quiet → u.byte (bankAddr n off) = (s.asRead (bankAddr c off)).byte (bankAddr c off)))) ∧
    (place → unbound → Completes (.coldGraft c cls det) s (fun u => u.physOf l = n ∧ fence u c = 5 ∧ (u.core n).inReset = true ∧
      u.fld RTR_REDIR_EN c 0 = 1 ∧ u.Recorded s cls.toNat 5 0xFF det.toNat (coreLoc c) ∧ (inBank → quiet → u.byte (bankAddr n off) = 0))) ∧
    (Sparse.get 0 rep.rows key < 4 → Completes (.rowColGraft c sub sym [w]) s (fun u => u.mem = s.mem ∧ u.tags = s.tags ∧
      u.pat word = s.pat word - symPat sym (patSym (s.pat word) sym) ∧ (∀ a, a / 32 ≠ word / 32 → u.pat a = s.pat a) ∧
      Sparse.get 0 u.kp.rep.rows key = Sparse.get 0 rep.rows key + 1 ∧ u.Recorded s 1 (if sub.isNone then 2 else 3) (s.plotOf c) sym word)) ∧
    (s.portRouted m = false → s.spareLane m spare = true → s.fld LB_CTL_i_STATE 0 m ≠ 1 → Completes (.laneGraft m lane spare) s (fun u => u.SameMemory s ∧
      u.fld PORT_STAT_SPARE m 0 / 2 ^ spare.val % 2 = 1 ∧ Sparse.get 0 u.kp.rep.lanes (m.val / 4 * 18 + 16 + spare.val) = at_ + 1)) ∧
    (fence s (40000 + c) ≠ 5 → Completes (.routerFence c none) s (fun u => u.SameMemory s ∧ fence u (40000 + c) = 5 ∧ fence u c = 5 ∧
      u.Recorded s 7 6 0xFF 0 (coreLoc c) ∧ tell u [3, c])) ∧
    (s.fld STRAP_STAT_TEST_MODE 0 0 = 0 → (∀ k ∈ halfIslands p h, Sparse.has rep.slices (p.val * 90 + k) = true ∧ (s.planStep p k).1 ≤ s.safeStep p k 240 ∧
      (s.planStep p k).2 ≤ s.safeStep p k 240) → Completes (.ageReplan p east) s (fun u => (quiet → u.SameMemory s) ∧
        u.fld HALF_RAIL_STATUS_VCORE_SET p h = max 240 (present - 4) ∧ u.fld AGE_STAT_REPLANS 0 0 = (s.fld AGE_STAT_REPLANS 0 0 + 1) % 2 ^ 32 ∧
        u.Recorded s 0x10 0x0F 0xFF 0 half)) ∧
    (east = decide (isl.val % 10 ≥ 5) → ps.toNat < s.fld AGE_CFG_MARGIN_PS 0 0 / 2 → present < s.vmax → Completes (.ageAlarm p isl ps true) s (fun u => u.SameMemory s ∧
      u.fld HALF_RAIL_STATUS_VCORE_SET p h = present + 1 ∧ u.Recorded s 0x10 0x0A 0xFF ps.toNat (p.val * 90 + isl.val))) ∧
    (s.portUp m = true → s.portRouted m = true → height.toNat < s.fld AGE_CFG_EYE_MIN_MV 0 0 → (∀ k < 4096, s.portMask k / 2 ^ m.val % 2 = 1 → i < 32 ∧ i ≠ m.val ∧ s.portMask k / 2 ^ i % 2 = 1 ∧ s.portUp i = true) →
      Completes (.laneReadapt m lane height width) s (fun u => u.SameMemory s ∧ u.sent = s.sent ∧ u.fld PORT_STAT_STATE m 0 = 4 ∧
        Sparse.get 0 u.kp.rep.eyes at_ = width.toNat * 256 + height.toNat)) ∧
    Completes (.clockIslandFail p isl router) s (fun u => u.SameMemory s ∧ u.fld ISLAND_STATUS_CORE_STATE p isl = 4 ∧
      (router = true → u.fld ISLAND_STATUS_ROUTER_STATE p isl = 4) ∧ u.Recorded s 0x0A (if router then 6 else 5) 0xFF 0 (p.val * 90 + isl.val) ∧
      tell u [4, p.val * 90 + isl.val]) ∧
    (s.gated p h = false → (∀ k < 64, s.boundCores k = []) → Completes (.railFault p east) s (fun u => u.fld HALF_RAIL_STATUS_STATE p h = 2 ∧
      (coreP c = p → coreHalf c = h → inBank → u.byte (bankAddr c off) = 0) ∧ u.Recorded s 0x0B 0x0B 0xFF 0 half ∧ tell u [5, half])) ∧
    (Sparse.get 0 rep.phases rail = 0 → Completes (.phaseFailure rail) s (fun u => u.SameMemory s ∧ Sparse.get 0 u.kp.rep.phases rail = 1 ∧
      u.Recorded s 0x0C 0 0xFF 0 rail)) ∧
    (s.fld FW_STAT_UPD_STATE 0 0 ≠ 4 → rep.stewards = 2 → Completes .stewardMismatch s (fun u => u.SameMemory s ∧ u.kp.rep.stewards = 1 ∧
      u.Recorded s 0x0D 0x0C 0xFF 0 0)) ∧
    (p.val ∉ rep.ring → Completes (.ringStopFail p) s (fun u => u = s.setRep { rep with ring := rep.ring ++ [p.val] })))

/-- Resets: a request begins to drain its domain, a drain ends with the domain's cores in reset, a release starts the bound cores that have power, and a teardown ends at its
horizon unless a reset holds resources of the plot (R635 to R642, R646, R647, R649, R664, R667, R759). -/
def Obligations.ResetCommandsComplete : Prop :=
  ∀ (ag : Agent) (p : Fin 8) (v : Word) (v32 : BitVec 32) (us : BitVec 16) (bad : BitVec 8) (n : Fin 64) (x : Teardown) (c : Nat) (s : State), ag.keeper = true →
    let state := fun (u : State) (q : Nat) => u.fld RESET_STAT_STATE q 0
    let dom := s.fld RESET_STAT_DOMAIN p 0
    let idx := s.fld RESET_STAT_INDEX p 0
    let m := s.kp.modReset
    let calm := s.kp.hang = {} ∧ s.boundPlots = []
    let go := bitsOf v 58 56 ≤ 5 ∧ bitsOf v 55 55 = 1
    let held := fun (u : State) => ∀ k < 10368, (u.core k).inReset = true
    (bitsOf v 63 63 = 1 → go → state s p = 0 → Completes (.resetReqGo ag p v) s (fun u => u.SameMemory s ∧ u.Answers s 0 0 0 ∧ state u p = 2 ∧
      u.fld RESET_STAT_DOMAIN p 0 = bitsOf v 58 56 ∧ u.fld RESET_STAT_INDEX p 0 = bitsOf v 15 0 ∧ Sparse.get false u.kp.resets p = true)) ∧
    (bitsOf v 63 63 = 1 → go → state s p ≠ 0 → Completes (.resetReqGo ag p v) s (fun u => u.SameMemory s ∧ u.Answers s 0 0 0 ∧ state u p = state s p ∧
      u.fld RESET_STAT_ERR p 0 = 1)) ∧
    (state s p = 2 → s.kp.hang.busy = [] → s.cp.cmds = [] → Completes (.drainEnd (some p) us) s (fun u => u.SameMemory s ∧ state u p = 3 ∧
      u.fld RESET_STAT_DRAIN_US p 0 = us.toNat ∧ ∀ k ∈ domCores p dom idx, (u.core k).inReset = true ∧ (u.core k).cache = [] ∧ (u.core k).imem = (s.core k).imem)) ∧
    (m = 1 ∨ m = 3 → s.cp.cmds = [] → Completes (.drainEnd none us) s (fun u => u.SameMemory s ∧ u.kp.modReset = m + 1 ∧ held u)) ∧
    (state s p = 3 → s.kp.hang.todo = [] → Completes (.resetRelease (some p) bad) s (fun u => u.SameMemory s ∧ u.sent = s.sent ∧ state u p = 0 ∧
      ∀ k ∈ domCores p dom idx, s.fld CTX_BIND_BOUND k 0 = 1 → s.repairFenced k = false → s.gated (coreP k) (coreHalf k) = false → (u.core k).inReset = false)) ∧
    (m = 2 → s.kp.tds = [] → Completes (.resetRelease none bad) s (fun u => u.SameMemory s ∧ u.kp.modReset = 0 ∧
      (c < 10368 → s.fld CTX_BIND_BOUND c 0 = 1 → s.repairFenced c = false → s.gated (coreP c) (coreHalf c) = false → (u.core c).inReset = false))) ∧
    (m = 4 → s.kp.pinLow = false → Completes (.resetRelease none bad) s (fun u => u.SameMemory s ∧ u.kp.modReset = 5 ∧ u.fld PROFILE_STAT_STATE 0 0 = 0 ∧
      u.fld HBM_STAT_STATE p 0 = if bad.toNat / 2 ^ p.val % 2 = 1 then 4 else 0)) ∧
    (calm → m = 0 → bitsOf (BitVec.ofNat 64 v32.toNat) 31 31 = 1 → bitsOf (BitVec.ofNat 64 v32.toNat) 1 0 ≤ 1 → Completes (.modResetGo ag v32) s (fun u =>
      u.SameMemory s ∧ u.Answers s 0 0 0 ∧ u.kp.modReset = (if bitsOf (BitVec.ofNat 64 v32.toNat) 1 0 = 1 then 3 else 1) ∧ ∀ q < 8, state u q = 0)) ∧
    (calm → m < 3 → Completes (.modResetPin true) s (fun u => u.SameMemory s ∧ u.sent = s.sent ∧ u.kp.modReset = 3 ∧ u.kp.pinLow = true ∧ u.kp.img.cause = 0)) ∧
    Completes (.modResetPin false) s (fun u => u = s.setKp { s.kp with pinLow := false }) ∧
    (s.kp.tds = [x] → x.plot = n → x.horizon ≤ us.toNat → s.resetHolds n = false → s.kp.img.rebinds = [] → s.kp.hang = {} → Completes (.teardownHorizon n us) s (fun u =>
      u.kp.tds = [] ∧ u.kp.modReset = m ∧ Sparse.get 0 u.epochs n = Sparse.get 0 s.epochs n ∧
      u.fld TD_STAT_TEARDOWNS 0 0 = min (s.fld TD_STAT_TEARDOWNS 0 0 + 1) 0xFFFF)) ∧
    (s.resetHolds n = true → Completes (.teardownHorizon n us) s (fun u => u = s))

/-- Hangs: detection numbers a hang and asks for its dump, suspects are replayed one at a time, and a dump is written, or waits, with its silent units
named (R650 to R653, R658, R659, R661). -/
def Obligations.HangCommandsComplete : Prop :=
  ∀ (ag : Agent) (c : CoreId) (n : Nat) (r : List Nat) (ms : Nat) (d : DumpReq) (x : DumpUnit) (v : BitVec 32) (us : Nat) (s : State), ag.keeper = true →
    let h := s.kp.hang
    let hang : HangRec := ⟨1, coreLoc c, [coreDom c], [n], s.timeSec⟩
    let id := (s.fld HANG_STAT_HANG_ID 0 0 + 1) % 2 ^ 32
    let area := hbmAddr (s.fld DUMP_CFG_STACK 0 0) (s.hbmOff (s.fld DUMP_CFG_STACK 0 0) (s.fld DUMP_CFG_PAGE 0 0 * 2 ^ 21))
    let state := fun (u : State) => u.fld HANG_STAT_STATE 0 0
    (h = {} → s.fld HANG_CFG_EN 0 0 = 1 → s.fld HANG_CFG_DUMP 0 0 = 1 → s.kp.modReset = 0 → s.fld CTX_BIND_BOUND c 0 = 1 → s.fld CTX_BIND_PLOT c 0 = n → n < 64 →
      s.fld PLOT_STAT_W0_STATE 0 n = 1 → s.kp.tds = [] → s.gated (coreP c) (coreHalf c) = false → Completes (.hangDetect (.core c) us) s (fun u => u.SameMemory s ∧
        u.kp.hang.phase = .dumping ∧ u.kp.hang.cur = hang ∧ u.kp.hang.dumps = [{ reason := 1, id := id, doms := [coreDom c], plots := [n] }] ∧ state u = 1 ∧
        u.fld HANG_STAT_HANG_ID 0 0 = id ∧ u.fld PLOT_STAT_W0_STATE 0 n = 3 ∧ u.fld DUMP_STAT_STATE 0 0 = 1)) ∧
    (h.phase = .resetting → h.todo = [] → h.busy = [] → h.left = n :: r → n < 64 → Completes .hangReplay s (fun u => u.SameMemory s ∧ u.sent = s.sent ∧
      u.kp.hang.phase = .replaying ∧ u.kp.hang.replay = some n ∧ u.kp.hang.left = r ∧ u.kp.hang.held = h.held.filter (· ≠ n) ∧ state u = 3 ∧
      u.fld HANG_STAT_REPLAY_PLOT 0 0 = n)) ∧
    (h.replay = some n → s.fld HANG_CFG_REPLAY_MS 0 0 ≤ ms → h.left = r → r ≠ [] → Completes (.hangReplayEnd ms) s (fun u => u.SameMemory s ∧
      u.kp.hang.phase = .resetting ∧ u.kp.hang.replay = none ∧ u.kp.hang.left = r ∧ u.kp.hang.held = h.held ++ [n])) ∧
    (h.dumps = [d] → d.reason = 4 → d.doms = [] → s.fld DUMP_CFG_DEST 0 0 = 0 → s.fld HBM_STAT_STATE (s.fld DUMP_CFG_STACK 0 0) 0 = 0 →
      Completes (.crashDump [] false) s (fun u => u.sent = s.sent ∧ u.kp.hang.dumps = [] ∧ u.kp.hang.silent = [] ∧ u.fld DUMP_STAT_STATE 0 0 = 2 ∧
        u.fld DUMP_STAT_BYTES 0 0 = 64 ∧ u.readLE area 4 = 0x504D5544 ∧ u.readLE (area + 8) 4 = d.id % 2 ^ 32 ∧
        ∀ a, a < area ∨ area + 64 ≤ a → u.byte a = s.byte a)) ∧
    (h.dumps = [d] → h.silent = [] → Completes (.sidePathTimeout x us) s (fun u => u = s.setHang { h with silent := [(x, us)] })) ∧
    (h.dumps = [] → v.toNat % 2 = 1 → Completes (.dumpCtlGo ag v) s (fun u => u.SameMemory s ∧ u.Answers s 0 0 0 ∧ u.fld DUMP_STAT_STATE 0 0 = 1 ∧
      u.kp.hang.dumps = [{ reason := 4, id := s.fld HANG_STAT_HANG_ID 0 0 }]))

/-- Time: a Sync measurement shows its offset and keeps the servo LOCKED, an edge is timestamped, the servo falls back to HOLDOVER, the reference is lost
and found, a second passes and may complete an hour of RACK_STAT.HOURS (R688; that this is where hours are counted is the model's choice, log 43),
configuration and TIME_SET take effect by SRC, and an Announce is kept (R689 to R700). -/
def Obligations.TimeCommandsComplete : Prop :=
  ∀ (ag : Agent) (m : Option (Fin 32)) (p : Nat) (off : BitVec 64) (now : BitVec 96) (v32 : BitVec 32) (v : Word) (dom : BitVec 8) (data : List Nat) (utc : BitVec 16)
    (s : State), ag.keeper = true →
    let src := s.fld TIME_CFG_SRC 0 0
    let state := fun (u : State) => u.fld TIME_SRC_STATE 0 0
    let port := (m.map (fun x => x.val)).getD 32
    let w := BitVec.ofNat 64 v32.toNat
    let ns := off.toInt / 65536
    let reached := timeOf now ≤ s.timeNow
    let time := fun (u : State) => (u.timeSec, u.timeNs, u.fld TIME_NOW_0_FRAC 0 0)
    (src = 0 → s.bestMaster = some port → state s = 2 → reached → Completes (.ptpSync m off now) s (fun u => u.SameMemory s ∧ u.sent = s.sent ∧ time u = time s ∧
      state u = 2 ∧ u.fld TIME_STAT_OFFSET 0 0 = (BitVec.ofInt 32 (max (-2147483648) (min 2147483647 ns))).toNat ∧
      u.kp.servo = { s.kp.servo with good := if off.toInt.natAbs < 100 * 65536 then s.kp.servo.good + 1 else 0 })) ∧
    (src ≠ 1 → s.kp.servo.edge = none → reached → Completes (.ppsInEdge now) s (fun u => u.SameMemory s ∧ u.sent = s.sent ∧ time u = time s ∧
      u.reg .PPS_TS 0 0 = s.reg .TIME_NOW_0 0 0 ∧ u.kp.servo = { s.kp.servo with edge := some s.timeNow })) ∧
    (state s = 1 ∨ state s = 2 → Completes (.servoHoldover false) s (fun u => u.SameMemory s ∧ u.sent = s.sent ∧ state u = 3 ∧ u.kp.servo.good = 0)) ∧
    Completes .ref10Loss s (fun u => u = s.setFld TIME_SRC_REF10_OK 0 0 0) ∧
    (s.fld TIME_CFG_REF10 0 0 = 1 → Completes .ref10Lock s (fun u => u = s.setFld TIME_SRC_REF10_OK 0 0 1)) ∧
    Completes .ppsSecondBoundary s (fun u => u.SameMemory s ∧ time u = ((s.timeSec + 1) % 2 ^ 48, 0, 0) ∧ u.RegsExcept s [.TIME_NOW_0, .TIME_NOW_1, .RACK_STAT] ∧
      u.fld RACK_STAT_HOURS 0 0 = (if 3599 ≤ s.kp.rack.secs then min (s.fld RACK_STAT_HOURS 0 0 + 1) (2 ^ 32 - 1) else s.fld RACK_STAT_HOURS 0 0) ∧
      u.sent = if s.fld TIME_CFG_PPS_OUT 0 0 = 1 then s.sent ++ [⟨.pin, [1, 1]⟩] else s.sent) ∧
    (bitsOf w 29 28 ≤ 2 → Completes (.timeCfgWrite ag v32) s (fun u => u.SameMemory s ∧ u.Answers s 0 0 0 ∧ u.fld TIME_CFG_SRC 0 0 = bitsOf w 29 28 ∧
      u.fld TIME_CFG_DOMAIN 0 0 = bitsOf w 23 16 ∧ (p < 32 → u.fld PORT_PTP_DOMAIN p 0 = bitsOf w 23 16) ∧
      state u = if bitsOf w 29 28 = src then state s else if bitsOf w 29 28 = 2 then 0 else 1)) ∧
    Completes (.timeSet ag v) s (fun u => u.SameMemory s ∧ u.SentLast s ⟨.reply, [0, 0, 0]⟩ ∧ (src = 0 → time u = time s) ∧
      (src = 1 → time u = time s ∧ u.kp.servo.set = some (bitsOf v 47 0)) ∧
      (src = 2 → time u = (bitsOf v 47 0, 0, 0) ∧ u.fld TIME_STAT_STEPS 0 0 = min (s.fld TIME_STAT_STEPS 0 0 + 1) 0xFFFF)) ∧
    (dom.toNat = s.fld TIME_CFG_DOMAIN 0 0 → Completes (.ptpAnnounce m dom data utc) s (fun u => u.SameMemory s ∧ u.sent = s.sent ∧
      Sparse.get ([], 0) u.kp.servo.masters port = (data, utc.toNat) ∧ u.RegsExcept s [.TIME_SRC, .TIME_STAT]))

/-- Management messages: each vendor message that arrives as R710 lays it out, in a session that R705 asks for, acts and is answered with OK; MCTP
control, SPDM, KMP datagrams and address requests are answered (R702 to R705, R709 to R711). PLDM: discovery, monitoring and event requests are answered
as R706 to R708 say, by what the registers and the waiting events hold. -/
def Obligations.ManagementMessagesComplete : Prop :=
  (∀ (src : MgmtSrc) (f x y : BitVec 8) (a d : List (BitVec 8)) (at_ : RegAt) (val k : Nat) (e : BitVec 8) (fabric : Bool) (ip : BitVec 32) (bytes : List Nat) (s : State),
    s.fwRuns = true → f = 0 →
    let b := f :: x :: y :: a
    let l := a.map (fun z => z.toNat)
    let seq := (src.seq.map (fun q => q.toNat)).getD 0
    let open_ := pathCarries src.path 0x7F = true ∧ s.stored src = none
    let ready := open_ ∧ s.authentic src = true
    let done := fun (code : Nat) (args : List Nat) (u e : State) => u = e.mgmtAnswer src ([code, 1, 0, 0] ++ args)
    let info := [0x0A, s.fld MOD_IDENT_STEPPING 0 0, s.fld STRAP_STAT_SLOT_ID 0 0, s.fld STRAP_STAT_FEED_ID 0 0] ++ beBytes (s.fld MODULE_ID_ID 0 0) 2 ++
      beBytes (s.fld RACK_LOC_RACK_ID 0 0) 2
    let name := (argBe l 4 2, argBe l 6 2)
    let plot := argBe l 4 1
    let v := argBe l 8 2
    let svn := fwSvn s.kp.firm.run
    let new := max (s.fld FUSE_STAT_FW_CTR 0 0) svn
    let dl := d.map (fun z => z.toNat)
    let by_ : MgmtSrc := ⟨if fabric then .fabric else .mgmtPort, k, some (BitVec.ofNat 32 (ofBe (bytesAt dl 4 4))), none⟩
    let control := src.path = .smbus ∧ s.stored src = none
    let secure := src.path = .doe ∧ s.stored src = none
    let mg := s.kp.mgmt
    (open_ → a = [] → Completes (.getInfo src b) s (fun u => done 1 info u s)) ∧
    (ready → a.length = 2 → argBe l 4 2 ≠ 0xFFFF → Completes (.setModuleId src b) s (fun u =>
      done 2 [] u (if s.fld MODULE_ID_ID_LOCK 0 0 = 1 then s else (s.setFld MODULE_ID_ID 0 0 (argBe l 4 2)).setFld MODULE_ID_ID_LOCK 0 0 1))) ∧
    (ready → a.length = 2 → Completes (.setRackLoc src b) s (fun u => done 3 [] u ((s.setFld RACK_LOC_RACK_ID 0 0 (argBe l 4 2)).rackMoved))) ∧
    (ready → a.length = 3 → s.kp.rack.asked = [] → Completes (.partnerRegister src b) s (fun u => u.SameMemory s ∧ u.fld RACK_PARTNER_STATE 0 0 = 1 ∧
      u.kp.rack.asked = [(argBe l 4 2, decide (argBe l 6 1 % 2 = 1), src)])) ∧
    (ready → a.length = 5 → argBe l 8 1 % 2 = 1 → s.kp.rack.successors = [] → Completes (.nameSuccessor src b) s (fun u =>
      done 5 [] u (s.setRack { s.kp.rack with successors := [name] }))) ∧
    (ready → a.length = 8 → argBe l 6 2 = 1 → plot < 64 → v < 4096 → argBe l 10 2 ≠ 0xFFFF → s.fld TU_SYNC_DONE plot 0 = 1 → Completes (.setModmap src b) s (fun u =>
      u.SameMemory s ∧ u.fld TU_MODMAP_v_EN plot v = 1 ∧ u.fld TU_MODMAP_v_ID plot v = argBe l 10 2 ∧ u.fld TU_SYNC_DONE plot 0 = 0 ∧
      u.RegsExcept s [.TU_MODMAP_v, .TU_SYNC] ∧ u.sent = s.sent ++ [⟨.mgmt, [3, src.addr, seq, 6, 1, 0, 0]⟩])) ∧
    (ready → a.length = 20 → argBe l 4 2 = 1 → fabEntries l = [(some at_, val)] → Completes (.setFabric src b) s (fun u => done 7 [] u (s.putFabric at_ val))) ∧
    (ready → a = [] → s.kp.hang.dumps = [] → Completes (.dumpMessage src b) s (fun u => u.SameMemory s ∧ u.fld DUMP_STAT_STATE 0 0 = 1 ∧
      u.kp.hang.dumps = [{ reason := 4, id := s.fld HANG_STAT_HANG_ID 0 0, asker := some src }] ∧ u.sent = s.sent ++ [⟨.mgmt, [3, src.addr, seq, 8, 1, 0, 0]⟩])) ∧
    (ready → a.length = 1 → argBe l 4 1 % 2 = 0 → s.fld FW_STAT_TRIAL 0 0 = 0 → svn ≤ 64 → Completes (.commitSvn src b) s (fun u => u.SameMemory s ∧
      u.fld FUSE_STAT_FW_CTR 0 0 = new ∧ u.fld FW_STAT_LAST_CODE 0 0 = 0 ∧ u.sent = s.sent ++ [⟨.mgmt, [3, src.addr, seq, 9, 1, 0, 0, new]⟩])) ∧
    (ready → a = [] → s.fld FW_STAT_TRIAL 0 0 = 1 → Completes (.fwConfirm src b) s (fun u => u.SameMemory s ∧ u.fld FW_STAT_TRIAL 0 0 = 0 ∧
      u.fld FW_STAT_UPD_STATE 0 0 = 0 ∧ u.kp.firm.run = s.kp.firm.run ∧ u.sent = s.sent ++ [⟨.mgmt, [3, src.addr, seq, 0x0A, 1, 0, 0]⟩])) ∧
    (open_ → a.length = 48 → mg.root = none → Completes (.setOwnerRoot src b) s (fun u =>
      done 0x0B [] u ((s.setMgmt { mg with root := some l }).setFld FUSE_STAT_OWNED 0 0 1))) ∧
    (ready → a.length = 20 → argBe l 4 1 < 2 → Completes (.setMgmtAddr src b) s (fun u =>
      done 0x0C [] u (s.setMgmt { mg with static := some (argBe l 4 1, argBe l 5 1, bytesAt l 4 16) }))) ∧
    (ready → a.length = 6 → s.fld TIME_CFG_SRC 0 0 = 1 → Completes (.timeSetMessage src b) s (fun u =>
      done 0x0D [] u (s.setServo { s.kp.servo with set := some (argBe l 4 6) }))) ∧
    (control → e ≠ 0 → e ≠ 255 → Completes (.mctpControl src (.setEid e)) s (fun u =>
      u = (s.setMgmt { mg with eid := e.toNat }).mgmtAnswer src [0, 1, 0, 0, e.toNat, 0])) ∧
    (control → Completes (.mctpControl src .getEid) s (fun u => u = s.mgmtAnswer src [0, 2, 0, mg.eid, 0, 0])) ∧
    (dl.length = 12 → dl.getD 0 0 = 1 → dl.getD 1 0 = 0x7F → ofBe (bytesAt dl 2 2) = 4 → dl.getD 8 0 = 1 → dl.getD 9 0 = 0 → s.stored by_ = none →
      Completes (.kmpDatagram fabric k none d) s (fun u => u = s.mgmtAnswer by_ ([1, 1, 0, 0] ++ info))) ∧
    (secure → Completes (.spdmMessage src .version) s (fun u => u = s.mgmtAnswer src [5, 4, 0x13])) ∧
    (secure → (k, false) ∈ mg.sessions ∨ (k, true) ∈ mg.sessions → Completes (.spdmMessage src (.endSession k)) s (fun u =>
      u = (s.setMgmt { mg with sessions := mg.sessions.filter (fun z => z.1 ≠ k) }).mgmtAnswer src [5, 0x6C])) ∧
    (mg.static = some (0, k, bytes) → ofBe (bytes.take 4) = ip.toNat → Completes (.arpNeighbourSolicitation none (.arp ip) false) s (fun u =>
      u = s.send .mgmt [7, 0, ip.toNat]))) ∧
  (∀ (src : MgmtSrc) (tid typ : BitVec 8) (record value : BitVec 32) (n id : BitVec 16) (mode : Fin 3) (addr : Nat) (ev : PEvent) (r : List PEvent) (on : Bool) (s : State),
    s.fwRuns = true → pathCarries src.path 1 = true → s.stored src = none →
    let done := fun (t cmd : Nat) (data : List Nat) (u e : State) => u = e.mgmtAnswer src ([1, t, cmd, 0] ++ data)
    let mg := s.kp.mgmt
    let open_ := fun (t cmd len : Nat) (front : List Nat) (u : State) => ∃ (e : State) (data : List Nat), done t cmd (front ++ data) u e ∧ data.length = len ∧
      e = { s with freeCtr := s.freeCtr + 1 }
    let lapse := [s.fld FLT_STAT_LAPSE_ENV 0 0, s.fld FLT_STAT_LAPSE_SCRUB 0 0, s.fld FLT_STAT_LAPSE_TEST 0 0, s.fld FLT_STAT_LAPSE_KEEPER 0 0]
    let ev_ := s.kp.events
    Completes (.getTid src) s (fun u => done 0 2 [mg.tid] u s) ∧
    (tid ≠ 0 → tid ≠ 255 → Completes (.setTid src tid) s (fun u => done 0 1 [] u (s.setMgmt { mg with tid := tid.toNat }))) ∧
    (typ.toNat = 0 ∨ typ.toNat = 2 ∨ typ.toNat = 5 → Completes (.getPldmVersion src typ) s (open_ 0 3 4 [])) ∧
    Completes (.getPldmTypes src) s (fun u => done 0 4 [0x25, 0, 0, 0, 0, 0, 0, 0] u s) ∧
    (typ = 0 → Completes (.getPldmCommands src typ) s (fun u => done 0 5 (0x3E :: List.replicate 31 0) u s)) ∧
    Completes (.getPdrRepositoryInfo src) s (open_ 2 0x50 40 []) ∧
    Completes (.getPdr src record n) s (open_ 2 0x51 n.toNat (leBytes record.toNat 4)) ∧
    (id.toNat = 0x30 → id.toNat ∉ mg.disabled → Completes (.getSensorReading src id value) s (fun u => done 2 0x11 (0 :: leBytes (s.fld TIME_STAT_OFFSET 0 0) 4) u s)) ∧
    (id.toNat ∈ numericSensors → id.toNat ≠ 0x30 → id.toNat ∉ mg.disabled → Completes (.getSensorReading src id value) s (fun u =>
      done 2 0x11 (0 :: leBytes value.toNat 4) u s)) ∧
    (id.toNat = 0x100 → Completes (.getStateSensorReadings src id) s (fun u => done 2 0x21 [1, s.fld TIME_SRC_STATE 0 0] u s)) ∧
    (id.toNat = 0x101 → Completes (.getStateSensorReadings src id) s (fun u => done 2 0x21 (4 :: lapse) u s)) ∧
    (ev_.addr ≠ addr → Completes (.setEventReceiver src mode addr) s (fun u => done 2 4 [] u (s.setKp { s.kp with events := { mode := mode, addr := addr } }))) ∧
    (ev_.waiting = ev :: r → Completes (.pollForPlatformEventMessage src) s (fun u =>
      done 2 0x0B ([ev.cls] ++ leBytes ev_.dropped 2 ++ [ev.kind, 0] ++ ev.data) u (s.setKp { s.kp with events := { ev_ with waiting := r, dropped := 0 } }))) ∧
    (id.toNat ∈ numericSensors → Completes (.setNumericSensorEnable src id on) s (fun u => done 2 0x10 [] u (s.setMgmt { mg with
      disabled := mg.disabled.filter (· ≠ id.toNat) ++ if on then [] else [id.toNat] }))))

/-- Firmware: identifiers and parameters are told, an update is requested, passed, pulled, verified, activated, taken over, confirmed or cancelled, and
recovery starts a bundle (R706, R713 to R721). -/
def Obligations.FirmwareCommandsComplete : Prop :=
  ∀ (src : MgmtSrc) (size : BitVec 32) (data : List (BitVec 8)) (sig : Bool) (minutes : BitVec 16) (len : BitVec 32) (sigs : Vector Bool 4) (s : State),
    let x := s.kp.firm
    let ready := s.fwRuns = true ∧ pathCarries src.path 1 = true ∧ s.stored src = none
    let seq := (src.seq.map (fun q => q.toNat)).getD 0
    let done := fun (cmd : Nat) (d : List Nat) (u e : State) => u = e.mgmtAnswer src ([1, 5, cmd, 0] ++ d)
    let dev := s.fld FW_STAT_DEVICE 0 0
    let first := s.spiFirst
    let rec_ := s.bootRec first
    let all := x.got ++ data.map (fun y => y.toNat)
    let state := fun (u : State) => u.fld FW_STAT_UPD_STATE 0 0
    let trial := fun (u : State) => u.fld FW_STAT_TRIAL 0 0
    let next := s.fwBank first rec_.active
    let fetched := (List.range (min len.toNat (32 * 2 ^ 20))).map (fun i => Sparse.get 0 x.buffer i)
    let good := sigs.toList.getD (2 * first + rec_.active) false
    (ready → Completes (.queryDeviceIdentifiers src) s (fun u => done 1 [0x0A, s.fld MOD_IDENT_STEPPING 0 0] u s)) ∧
    (ready → Completes (.getFirmwareParameters src) s (fun u => ∃ d, d.length = 16 ∧ done 2 (leBytes (fwSvn (s.fwBank dev 0)) 4 ++ leBytes (fwSvn (s.fwBank dev 1)) 4 ++ d) u
      { s with freeCtr := s.freeCtr + 1 })) ∧
    (ready → x.upd = 0 → trial s = 0 → Completes (.requestUpdate src) s (fun u => done 0x10 [0, 0, 0] u (s.setFirm { x with upd := 1, got := [], size := 0 }))) ∧
    (ready → x.upd = 1 → Completes (.passComponentTable src 1) s (fun u => done 0x13 [0, 0] u (s.setFirm { x with upd := 2 }))) ∧
    (ready → x.upd = 2 → Completes (.updateComponent src 1 size) s (fun u => u.SameMemory s ∧ u.kp.firm = { x with got := [], size := size.toNat, upd := 3 } ∧ state u = 1 ∧
      u.sent = s.sent ++ [⟨.mgmt, [3, src.addr, seq, 1, 5, 0x14, 0, 0, 0, 0, 0, 0, 0, 0, 0]⟩, ⟨.mgmt, [4, 5, 0x15, 0, 0, 0, 0] ++ leBytes size.toNat 4⟩])) ∧
    (x.upd = 3 → all.length < x.size → Completes (.firmwareDataReceived data none) s (fun u => u.SameMemory s ∧ u.kp.firm.upd = 3 ∧ u.kp.firm.got = all ∧
      u.sent = s.sent ++ [⟨.mgmt, [4, 5, 0x15] ++ leBytes all.length 4 ++ leBytes (x.size - all.length) 4⟩])) ∧
    (x.upd = 3 → all.length = x.size → s.fwCheck all sig = 0 → Completes (.firmwareDataReceived data (some sig)) s (fun u => u.SameMemory s ∧ u.kp.firm.upd = 4 ∧
      state u = 3 ∧ u.fld FW_STAT_LAST_CODE 0 0 = 0 ∧ u.kp.firm.run = x.run ∧ u.kp.firm.boots = x.boots ∧ u.fwBank first (1 - rec_.active) = all)) ∧
    (ready → x.upd = 4 → state s = 3 → Completes (.activateFirmware src true) s (fun u => u.SameMemory s ∧ state u = 4 ∧ (u.bootRec first).active = 1 - rec_.active ∧
      (u.bootRec first).trial = true ∧ u.kp.firm.run = x.run ∧ u.sent = s.sent ++ [⟨.mgmt, [3, src.addr, seq, 1, 5, 0x1A, 0, 0, 0]⟩])) ∧
    (ready → Completes (.getStatus src) s (fun u => done 0x1B [x.upd, state s] u s)) ∧
    (ready → 3 ≤ x.upd → state s < 4 → Completes (.cancelUpdateComponent src) s (fun u => done 0x1C [] u (s.updTo 2 0))) ∧
    (ready → x.upd ≠ 0 → state s < 4 → Completes (.cancelUpdate src) s (fun u => done 0x1D [0] u ((s.setFirm { x with got := [], size := 0 }).updTo 0 0))) ∧
    (state s = 4 → s.keeperBoundary = true → Completes (.fwTakeover true sig) s (fun u => u.SameMemory s ∧ u.kp.firm.run = next ∧ u.kp.firm.prev = x.run ∧ trial u = 1 ∧
      state u = 5 ∧ u.fld FW_STAT_BANK 0 0 = rec_.active % 2 ∧ u.fld FW_STAT_RUN_SVN 0 0 = fwSvn next % 2 ^ 16 ∧ (u.bootRec first).count = rec_.count + 1)) ∧
    (trial s = 1 → s.fld FW_CFG_TRIAL_MIN 0 0 ≠ 0 → s.fld FW_CFG_TRIAL_MIN 0 0 ≤ minutes.toNat → s.fld FLT_STAT_LAPSE_KEEPER 0 0 = 0 →
      Completes (.trialAutoConfirm minutes) s (fun u => u.SameMemory s ∧ u.sent = s.sent ∧ trial u = 0 ∧ state u = 0 ∧ (u.bootRec first).trial = false ∧
        u.kp.firm.run = x.run)) ∧
    (x.recovery = 2 → s.fwCheck fetched sig = 0 → Completes (.fwRecoveryWrite len sig sigs) s (fun u => u.SameMemory s ∧ u.kp.firm.run = fetched ∧
      u.kp.firm.recovery = 0 ∧ u.kp.firm.buffer = [] ∧ u.fld FW_STAT_RUN_SVN 0 0 = fwSvn fetched % 2 ^ 16)) ∧
    (x.recovery ≠ 0 → x.boots = [] → s.fwCheck (s.fwBank first 0) good = 0 → Completes (.recoveryBootTimeout sigs) s (fun u => u.SameMemory s ∧ u.sent = s.sent ∧
      u.kp.firm.run = s.fwBank first 0 ∧ u.kp.firm.recovery = 0 ∧ u.kp.firm.buffer = [] ∧ u.fld FW_STAT_DEVICE 0 0 = first ∧ u.fld FW_STAT_BANK 0 0 = 0))

/-- Loopbacks and turn-back tests run under GO and TX_GO, the test access port's instructions answer, and the destructive ones run where TEST_MODE and
FULL allow them (R725 to R733, R743, R747, R748). Debug: registers and memory are read and written at the level that reaches them, an unlock grants its
level, a lock takes it back, and threads halt, resume, step and lose what they held too long (R732 to R748). -/
def Obligations.TestAndDebugCommandsComplete : Prop :=
  (∀ (ag : Option Agent) (lb : Fin 44) (n : CoreId) (v : Word) (errors : BitVec 32) (lock : BitVec 16) (rows : List (BitVec 41 × Nat)) (ok : Bool) (pins data : List Bool)
    (load : Option (List Bool)) (p : Fin 8) (s : State),
    let allowed := fun (off : Nat) => (∀ b, ag = some b → b.keeper = true ∧ s.MayPut b off 8) ∧ (ag = none → s.dbgFull = true)
    let loop := allowed (dbgOff (0x100 + 16 * lb.val))
    let turn := allowed (turnOff n.val)
    let state := fun (u : State) => u.fld LB_CTL_i_STATE 0 lb
    let same := fun (u : State) => u.SameMemory s
    let down := s.fld RTR_LINKERR_DOWN n 0
    let tb := bitsOf v 3 0
    let port := bitsOf v 5 4
    let count := bitsOf v 31 16
    let k := Sparse.get 0 s.kp.test.turns n + 1
    let bits := fun (l : List Bool) => l.map (fun b => if b then 1 else 0)
    let ir := fun (u : State) => u.kp.test.ir
    (loop → s.loopRefused lb v = false → Completes (.loopbackStart ag lb v) s (fun u => same u ∧ state u = 1 ∧ u.fld LB_CTL_i_GO 0 lb = 1 ∧ u.fld LB_CTL_i_CODE 0 lb = 0 ∧
      u.fld LB_CTL_i_DEPTH 0 lb = bitsOf v 2 0 ∧ u.fld LB_CTL_i_LANES 0 lb = bitsOf v 23 8)) ∧
    (loop → s.loopRefused lb v = true → Completes (.loopbackStart ag lb v) s (fun u => same u ∧ state u = 2 ∧ u.fld LB_CTL_i_CODE 0 lb = 0x0A01 ∧
      u.fld LB_CTL_i_GO 0 lb = s.fld LB_CTL_i_GO 0 lb)) ∧
    (loop → Completes (.loopbackStop ag lb v) s (fun u => same u ∧ u.fld LB_CTL_i_GO 0 lb = 0 ∧ state u = state s)) ∧
    (state s = 1 → lb.val < 34 → Completes (.loopbackStep lb errors lock rows) s (fun u => same u ∧ u.sent = s.sent ∧
      u.fld LB_STAT_i_STEPS 0 lb = min (s.fld LB_STAT_i_STEPS 0 lb + 1) 0xFFFF ∧ state u = (if s.fld LB_CTL_i_GO 0 lb = 0 then 0 else 1) ∧
      (s.fld LB_CTL_i_ROLE 0 lb = 0 → u.fld LB_STAT_i_ERRORS 0 lb = min 0xFFFFFFFF (s.fld LB_STAT_i_ERRORS 0 lb + errors.toNat)))) ∧
    (turn → tb &&& (15 - down) = 0 → Completes (.rtrTurnTbWrite ag n v) s (fun u => same u ∧ u.fld RTR_TURN_TB n 0 = tb ∧ u.fld RTR_TURN_COUNT n 0 = count ∧
      u.fld RTR_TURN_DONE n 0 = s.fld RTR_TURN_DONE n 0)) ∧
    (turn → tb &&& (15 - down) = 0 → down / 2 ^ port % 2 = 1 → s.fld RTR_TURN_DONE n 0 = 1 → count ≠ 0 → Completes (.turnBackStart ag n v) s (fun u => same u ∧
      u.fld RTR_TURN_DONE n 0 = 0 ∧ Sparse.get 0 u.kp.test.turns n = 0 ∧ ∃ m, u.sent = s.sent ++ [⟨.packet, [n, port, 0, count]⟩, m])) ∧
    (s.fld RTR_TURN_DONE n 0 = 0 → Completes (.turnBackFlitReturn n ok) s (fun u => same u ∧ u.sent = s.sent ∧ Sparse.get 0 u.kp.test.turns n = k ∧
      u.fld RTR_TURN_ERR n 0 = min (s.fld RTR_TURN_ERR n 0 + if ok then 0 else 1) 0xFFFF ∧
      u.fld RTR_TURN_DONE n 0 = if s.fld RTR_TURN_COUNT n 0 ≤ k then 1 else 0)) ∧
    Completes (.turnBackTimeout n) s (fun u => u = s.setFld RTR_TURN_DONE n 0 1) ∧
    Completes .idcode s (fun u => u = (s.jtag .idcode).send .jtag [0xB0000000 + 0x000A <<< 12 + Config.manufacturer.toNat <<< 1 + 1]) ∧
    Completes .bypass s (fun u => u = s.jtag .bypass) ∧
    Completes (.samplePreload pins load) s (fun u => same u ∧ ir u = .sample ∧ u.kp.test.cells = load.getD pins ∧ u.sent = s.sent ++ [⟨.jtag, bits pins⟩]) ∧
    Completes (.extest pins) s (fun u => same u ∧ ir u = .extest ∧ u.kp.test.cells = pins ∧ u.sent = s.sent ++ [⟨.pin, 3 :: bits s.kp.test.cells⟩]) ∧
    (s.factory = true → Completes (.scan p) s (fun u => ir u = .scan ∧ (coreP n = p → (u.core n).inReset = true) ∧
      ∀ a, a < bankAddr (p.val * 1296) 0 ∨ bankAddr ((p.val + 1) * 1296) 0 ≤ a → u.byte a = s.byte a)) ∧
    (s.factory = true → Completes (.mbist p) s (fun u => ir u = .mbist ∧ u.cores = s.cores ∧
      ∀ a, a < bankAddr (p.val * 1296) 0 ∨ bankAddr ((p.val + 1) * 1296) 0 ≤ a → u.byte a = s.byte a)) ∧
    (s.factory = true → Completes (.hbm1500 p data) s (fun u => same u ∧ ir u = .hbm1500 ∧ ∃ w < 2 ^ data.length, u.sent = s.sent ++ [⟨.jtag, [p, w]⟩]))) ∧
  (∀ (c : CoreId) (t : ThreadId) (x : Fin 32) (v : BitVec 512) (far : Status × BitVec 512) (a : Word) (m : Fin 65) (off : Nat) (q : List (BitVec 8)) (sig : Bool) (lock : Word)
    (us : BitVec 32) (ag : Option Agent) (s : State),
    let b := q.map (fun y => y.toNat)
    let key := ofLe (bytesAt b 4 4)
    let nonce := (List.range 2).flatMap (fun i => leBytes (s.reg .DBG_NONCE_i 0 i).toNat 8)
    let formed := q.length = 120 ∧ b.getD 0 0 = 2 ∧ b.getD 1 0 = 0 ∧ ofLe (bytesAt b 2 2) = 0
    let verified := sig = true ∧ bytesAt b 8 16 = nonce ∧ key < 4 ∧ s.fld FUSE_STAT_REVOKED 0 0 / 2 ^ key % 2 = 0
    let one := BitVec.ofNat 8 (2 ^ t.val)
    let reached := s.dbgThread c t = true
    let s0 := s.jtag .dbgAccess
    let same := fun (u : State) => u.SameMemory s
    let ok := fun (u : State) => u.SentLast s ⟨.jtag, [0, 0]⟩
    let h := fun (u : State) => u.thr c t
    (reached → Completes (.dbgAccess (.register c t (.scalar x)) none far) s (fun u => u = s0.dbgAnswer 0 (Sparse.get 0 (h s).x x : Word).toNat)) ∧
    (reached → Completes (.dbgAccess (.register c t (.scalar x)) (some v) far) s (fun u => same u ∧ ok u ∧
      (Sparse.get 0 (h u).x x : Word) = BitVec.ofNat 64 v.toNat ∧ u.regs = s.regs)) ∧
    (reached → Completes (.dbgAccess (.register c t (.vector ⟨x.val % 16, by omega⟩)) (some v) far) s (fun u => same u ∧ ok u ∧
      (Sparse.get 0 (h u).v (x.val % 16) : Vec) = v ∧ u.regs = s.regs)) ∧
    (s.dbgFull = true → s.translate s.dbgWho a false = .to (.bank c off) → s0.reach s.dbgWho a m false = .to (.bank c off) → 0 < m.val → a.toNat % 64 + m.val ≤ 64 →
      (∀ i < m.val, s.pat (bankAddr c off + i) = 0) → Completes (.dbgAccess (.memory a m) none far) s (fun u => same u ∧
        u.sent = s.sent ++ [⟨.jtag, [0, s.readLE (bankAddr c off) m]⟩])) ∧
    (formed → verified ∨ s.imgSecure = false → Completes (.debugUnlock q sig) s (fun u => same u ∧ u.fld DBG_LOCK_LEVEL 0 0 = 2 ∧ u.fld DBG_LOCK_PLOT 0 0 = 0)) ∧
    ((∀ y, ag = some y → y.keeper = true ∧ s.MayPut y (dbgOff 0) 8) → lock.toNat % 2 = 1 → Completes (.dbgLockWrite ag lock) s (fun u => same u ∧
      u.fld DBG_LOCK_LEVEL 0 0 = 0)) ∧
    (reached → (h s).st = .ready → Completes (.dbgHalt c one) s (fun u => same u ∧ ok u ∧ h u = { h s with haltReq := true })) ∧
    ((h s).haltReq = true → (h s).stopReq = false → (h s).st = .ready → Completes (.threadHalt c t) s (fun u => same u ∧ u.sent = s.sent ∧ (h u).st = .halted ∧
      (h u).pc = (h s).pc ∧ (h u).preHalt = some .ready ∧ u.tf dstat_CAUSE c t = if (h s).stepReq then 7 else 8)) ∧
    (reached → (h s).st = .halted → (h s).preHalt = some .ready → Completes (.dbgResume c one) s (fun u => same u ∧ ok u ∧ (h u).st = .ready ∧ (h u).pc = (h s).pc ∧
      (h u).stepReq = false ∧ (h u).preHalt = none)) ∧
    (reached → (h s).st = .halted → (h s).preHalt = some .ready → Completes (.dbgStep c one) s (fun u => same u ∧ ok u ∧ (h u).st = .ready ∧ (h u).pc = (h s).pc ∧
      (h u).stepReq = true)) ∧
    (reached → (h s).st = .halted → (h s).sendTimer = true → Completes (.dbgDiscard c one) s (fun u => same u ∧ ok u ∧ (h u).send = [] ∧ (h u).st = .halted ∧
      u.tf SEND_STAT_STAGED c t = 0 ∧ u.tf SEND_STAT_DISCARDED c t = 1)) ∧
    ((h s).st = .halted → (h s).sendTimer = false → s.tf SEND_STAT_STAGED c t ≠ 0 → s.fld DBG_HOLD_CHAN_HOLD_LIMIT 0 0 ≤ us.toNat → Completes (.chanHoldExpiry c t us) s
      (fun u => same u ∧ (h u).sendTimer = true ∧ u.fld DBG_STAT_EXPIRED c 0 / 2 ^ t.val % 2 = 1 ∧ u.sent = s.sent ++ [⟨.dbg, [c, t]⟩])))

/-- Power: straps are latched and rails come up, feeds and AUX go and return, trips and coolant power the module down, and the governor sets its cap (R749
to R766). -/
def Obligations.PowerCommandsComplete : Prop :=
  ∀ (ag : Agent) (straps : BitVec 22) (sigs : Vector Bool 4) (tftp : Option (List (BitVec 8) × Bool)) (feedA feedB b long on low : Bool) (bad : BitVec 8) (p : Fin 8)
    (inlet outlet flow mw : Nat) (t : Int) (v : BitVec 32) (id : BitVec 16) (s : State),
    let x := s.kp.power
    let strap := fun (u : State) (f : Field) (hi lo : Nat) => u.fld f 0 0 = nbits straps.toNat hi lo
    let good := fun (u : State) => u.fld PWR_STAT_PWR_GOOD 0 0
    let empty := fun (u : State) => u.mem = [] ∧ u.tags = [] ∧ u.bad = [] ∧ u.cores = [] ∧ u.dmas = [] ∧ good u = 0 ∧ u.kp.modReset = 0
    let mine := if b then PWR_STAT_FEED_B_OK else PWR_STAT_FEED_A_OK
    let other := if b then PWR_STAT_FEED_A_OK else PWR_STAT_FEED_B_OK
    let lapse := fun (u : State) => u.fld FLT_STAT_LAPSE_ENV 0 0
    let same := fun (u : State) => u.SameMemory s
    let w := BitVec.ofNat 64 v.toNat
    let n := id.toNat
    (x.aux = false → Completes (.auxPowerUp straps sigs tftp) s (fun u => same u ∧ u.kp.power.aux = true ∧ strap u STRAP_STAT_BOOT_SRC 1 0 ∧
      strap u STRAP_STAT_HOST_MODE 3 2 ∧ strap u STRAP_STAT_SLOT_ID 11 4 ∧ strap u STRAP_STAT_FEED_ID 15 12 ∧ strap u STRAP_STAT_PROFILE_PIN_EN 16 16 ∧
      strap u STRAP_STAT_PROFILE_DEF 18 17 ∧ strap u STRAP_STAT_SEC_LOCK 19 19 ∧ strap u STRAP_STAT_PTP_SRC 20 20 ∧ strap u STRAP_STAT_TEST_MODE 21 21 ∧
      (nbits straps.toNat 1 0 = 2 → u.kp.firm.recovery = 2))) ∧
    (x.aux = true → s.fwRuns = true → s.kp.firm.recovery = 0 → good s = 0 → x.trip = false → feedA || feedB → Completes (.railPowerUp feedA feedB false bad) s (fun u =>
      same u ∧ good u = 1 ∧ u.fld PWR_STAT_POWER_EN 0 0 = 1 ∧ u.fld PWR_STAT_FEED_A_OK 0 0 = (if feedA then 1 else 0) ∧
      u.fld PWR_STAT_FEED_B_OK 0 0 = (if feedB then 1 else 0) ∧ u.fld HBM_STAT_STATE p 0 = (if bad.toNat / 2 ^ p.val % 2 = 1 then 4 else 0) ∧
      u.kp.modReset = (if s.kp.pinLow then 4 else 5) ∧ u.sent = s.sent ++ [⟨.pin, [0, 1]⟩])) ∧
    (good s = 1 → Completes .powerEnFall s (fun u => empty u ∧ u.fld PWR_STAT_POWER_EN 0 0 = 0 ∧ u.SentLast s ⟨.pin, [0, 0]⟩)) ∧
    (good s = 0 → Completes .powerEnFall s (fun u => u = s.setFld PWR_STAT_POWER_EN 0 0 0)) ∧
    (s.fld mine 0 0 = 1 → s.fld other 0 0 = 1 → Completes (.feedDisconnect b) s (fun u => same u ∧ u.fld mine 0 0 = 0 ∧ u.fld other 0 0 = 1 ∧ good u = good s ∧
      u.fld PWR_EVT_FEED_LOSS 0 0 = min (s.fld PWR_EVT_FEED_LOSS 0 0 + 1) 0xFFFF)) ∧
    (s.fld mine 0 0 = 1 → s.fld other 0 0 = 0 → good s = 1 → Completes (.feedDisconnect b) s (fun u => empty u ∧ u.fld mine 0 0 = 0 ∧ lapse u = 1)) ∧
    Completes (.feedReconnect b) s (fun u => u = s.setFld mine 0 0 1) ∧
    Completes .auxLoss s (fun u => empty u ∧ u.pending = s.pending ∧ u.sent = s.sent ++ [⟨.pin, [0, 0]⟩, ⟨.pin, [2, 1]⟩] ∧ u.kp.firm.banks = s.kp.firm.banks ∧
      u.kp.firm.boots = s.kp.firm.boots ∧ u.kp.firm.run = [] ∧ u.kp.img.slots = s.kp.img.slots ∧ u.cp = State.reset.cp ∧
      u.fld FUSE_STAT_FW_CTR 0 0 = s.fld FUSE_STAT_FW_CTR 0 0 ∧ u.fld FUSE_STAT_OWNED 0 0 = 0) ∧
    (x.trip = false → Completes .thermalTrip s (fun u => empty u ∧ u.kp.power.trip = true ∧ lapse u = 1 ∧
      u.fld PWR_EVT_TRIPS 0 0 = min (s.fld PWR_EVT_TRIPS 0 0 + 1) 0xFFFF)) ∧
    (x.trip = true → s.fld PWR_STAT_POWER_EN 0 0 = 0 → Completes .thermTripRelease s (fun u => u = (s.setPower { x with trip := false }).send .pin [2, 1])) ∧
    (15000 ≤ inlet → inlet ≤ 45000 → outlet ≤ 65000 → 2000 ≤ flow → flow ≤ 4000 → Completes (.coolantAlarm inlet outlet flow long) s (fun u =>
      u = s.setPower { x with inlet := false, flow := false })) ∧
    (50000 ≤ inlet ∨ 70000 ≤ outlet ∨ flow < 1000 ∧ long = true → good s = 1 → Completes (.coolantAlarm inlet outlet flow long) s (fun u => empty u ∧ lapse u = 1)) ∧
    (t ≤ 105000 → Completes (.governorPeriod mw t []) s (fun u => ((∀ q, s.qOn q = false) → same u ∧ u.sent = s.sent) ∧ u.fld PWR_STAT_POWER_W 0 0 = min 4095 (mw / 1000) ∧
      u.fld PWR_STAT_CAP_STEP 0 0 = s.govCap mw t % 256)) ∧
    (ag.keeper = true → s.MayPut ag 0x21000090000 4 → Completes (.pwrCfgWrite ag v) s (fun u => same u ∧ u.Answers s 0 0 0 ∧ u.fld PWR_CFG_FIXED 0 0 = bitsOf w 31 31 ∧
      u.fld PWR_CFG_FIXED_STEP 0 0 = (if 0x20 ≤ bitsOf w 23 16 ∧ bitsOf w 23 16 ≤ 0x80 then bitsOf w 23 16 else s.fld PWR_CFG_FIXED_STEP 0 0) ∧
      u.fld PWR_CFG_LIMIT_W 0 0 = if 1000 ≤ bitsOf w 11 0 ∧ bitsOf w 11 0 ≤ 2600 then bitsOf w 11 0 else s.fld PWR_CFG_LIMIT_W 0 0)) ∧
    (n ∈ numericSensors → n < 0x18 ∨ 0x20 ≤ n → Completes (.sensorWarning id on low) s (fun u => u = s.sensorEvent n on low)) ∧
    (0x18 ≤ n → n < 0x20 → on = true → n - 0x18 ∉ x.hot → Completes (.sensorWarning id on low) s (fun u => same u ∧ u.kp.power.hot = x.hot ++ [n - 0x18]))

/-- Every step keeps the canonical form of memory, tags and symbols in error, and packs nothing twice. -/
def Obligations.StepKeepsTheInvariant : Prop :=
  ∀ s t : State, s.Canonical → s.kp.fab.cursor ≤ s.sent.length → step s = .next t → t.Canonical ∧ t.kp.fab.cursor ≤ t.sent.length

/-- Every step answers a next state, takes at most the front command, only appends to what the module has sent, and takes no free value twice. -/
def Obligations.StepTakesOneAndAppends : Prop :=
  ∀ s : State, ∃ t, step s = .next t ∧ t.pending = s.pending.tail ∧ s.sent <+: t.sent ∧ s.freeCtr ≤ t.freeCtr
end

