-- ==== Sys2Proof/Laws/Sparse.lean ====
section
/-!
SUPPORT. What the operations of a sparse map do: reads after writes, and the canonical form that every operation keeps.
-/
namespace Sys2Proof.Machine

variable {α : Type}

/-! ### Reads after writes -/

@[simp] theorem Sparse.get_nil (d : α) (q : Nat) : Sparse.get d [] q = d := rfl

theorem Sparse.get_erase_same (d : α) (m : Sparse α) (q : Nat) : Sparse.get d (m.erase q) q = d := by
  induction m with
  | nil => rfl
  | cons e r ih =>
    by_cases h : e.1 = q
    · simpa [Sparse.erase, h] using ih
    · simpa [Sparse.erase, Sparse.get, h] using ih

theorem Sparse.get_erase_other (d : α) (m : Sparse α) {q x : Nat} (n : x ≠ q) :
    Sparse.get d (m.erase q) x = Sparse.get d m x := by
  induction m with
  | nil => rfl
  | cons e r ih =>
    by_cases h : e.1 = q
    · have : e.1 ≠ x := fun hx => n (hx ▸ h)
      simpa [Sparse.erase, Sparse.get, h, this, Ne.symm n] using ih
    · simp [Sparse.erase, Sparse.get, h, ih]

theorem Sparse.get_put_same (d : α) (m : Sparse α) (q : Nat) (v : α) : Sparse.get d (m.put q v) q = v := by
  induction m with
  | nil => simp [Sparse.put, Sparse.get]
  | cons e r ih =>
    simp only [Sparse.put]
    split
    · simp [Sparse.get]
    · split
      · simp [Sparse.get]
      · rename_i h
        simpa [Sparse.get, Ne.symm h] using ih

theorem Sparse.get_put_other (d : α) (m : Sparse α) {q x : Nat} (v : α) (n : x ≠ q) :
    Sparse.get d (m.put q v) x = Sparse.get d m x := by
  induction m with
  | nil => simp [Sparse.put, Sparse.get, Ne.symm n]
  | cons e r ih =>
    simp only [Sparse.put]
    split
    · simp [Sparse.get, Ne.symm n]
    · split
      · rename_i h
        simp [Sparse.get, ← h, Ne.symm n]
      · simp [Sparse.get, ih]

/-- A read of the key just written gives the value written. -/
@[simp] theorem Sparse.get_set_same [DecidableEq α] (d : α) (m : Sparse α) (q : Nat) (v : α) :
    Sparse.get d (Sparse.set d m q v) q = v := by
  unfold Sparse.set
  split
  · rename_i h; rw [Sparse.get_erase_same, h]
  · exact Sparse.get_put_same d m q v

/-- A write leaves every other key alone. -/
theorem Sparse.get_set_other [DecidableEq α] (d e : α) (m : Sparse α) {q x : Nat} (v : α) (n : x ≠ q) :
    Sparse.get d (Sparse.set e m q v) x = Sparse.get d m x := by
  unfold Sparse.set
  split
  · exact Sparse.get_erase_other d m n
  · exact Sparse.get_put_other d m v n

theorem Sparse.get_keep (d : α) (p : Nat → Bool) (m : Sparse α) (q : Nat) :
    Sparse.get d (m.keep p) q = if p q then Sparse.get d m q else d := by
  induction m with
  | nil => simp [Sparse.keep]
  | cons e r ih =>
    simp only [Sparse.keep] at ih ⊢
    by_cases hp : p e.1
    · by_cases hq : e.1 = q
      · simp [Sparse.get, hq ▸ hp, hq]
      · simp [List.filter, hp, Sparse.get, hq, ih]
    · by_cases hq : e.1 = q
      · subst hq
        simp [hp, ih]
      · simp [List.filter, hp, Sparse.get, hq, ih]

/-! ### The canonical form -/

variable [DecidableEq α]

theorem Sparse.above_iff (b : Option Nat) (k : Nat) : Sparse.above b k = true ↔ ∀ x, b = some x → x < k := by
  cases b <;> simp [Sparse.above]

theorem Sparse.okAbove_weaken (d : α) {b c : Option Nat} (m : Sparse α)
    (le : ∀ x, c = some x → ∃ y, b = some y ∧ x ≤ y) (h : Sparse.okAbove d b m = true) : Sparse.okAbove d c m = true := by
  cases m with
  | nil => rfl
  | cons e r =>
    simp only [Sparse.okAbove, Bool.and_eq_true] at h ⊢
    refine ⟨⟨(Sparse.above_iff _ _).2 fun x hx => ?_, h.1.2⟩, h.2⟩
    obtain ⟨y, hy, hxy⟩ := le x hx
    exact Nat.lt_of_le_of_lt hxy ((Sparse.above_iff _ _).1 h.1.1 y hy)

theorem Sparse.okAbove_keep (d : α) (p : Nat → Bool) (m : Sparse α) (b : Option Nat) (h : Sparse.okAbove d b m = true) :
    Sparse.okAbove d b (m.keep p) = true := by
  induction m generalizing b with
  | nil => rfl
  | cons e r ih =>
    simp only [Sparse.okAbove, Bool.and_eq_true] at h
    simp only [Sparse.keep] at ih ⊢
    by_cases hp : p e.1
    · simp only [List.filter, hp, Sparse.okAbove, Bool.and_eq_true]
      exact ⟨h.1, ih _ h.2⟩
    · simp only [List.filter, hp]
      refine Sparse.okAbove_weaken d (b := some e.1) _ ?_ (ih _ h.2)
      intro x hx
      exact ⟨e.1, rfl, Nat.le_of_lt ((Sparse.above_iff _ _).1 h.1.1 x hx)⟩

omit [DecidableEq α] in
theorem Sparse.erase_eq_keep (m : Sparse α) (q : Nat) : m.erase q = m.keep (fun k => decide (k ≠ q)) := by
  induction m with
  | nil => rfl
  | cons e r ih =>
    by_cases h : e.1 = q
    · simp [Sparse.erase, Sparse.keep, h] at ih ⊢
      exact ih
    · simp [Sparse.erase, Sparse.keep, h] at ih ⊢
      exact ih

theorem Sparse.okAbove_put (d : α) (m : Sparse α) (b : Option Nat) (q : Nat) (v : α) (hv : v ≠ d)
    (hb : Sparse.above b q = true) (h : Sparse.okAbove d b m = true) : Sparse.okAbove d b (m.put q v) = true := by
  induction m generalizing b with
  | nil => simp [Sparse.put, Sparse.okAbove, hb, hv]
  | cons e r ih =>
    simp only [Sparse.okAbove, Bool.and_eq_true] at h
    simp only [Sparse.put]
    split
    · rename_i hq
      have : Sparse.above (some q) e.1 = true := by simpa [Sparse.above] using hq
      simp [Sparse.okAbove, hb, hv, this, h.1.2, h.2]
    · split
      · rename_i _ hq
        simp [Sparse.okAbove, hb, hv, hq ▸ h.2]
      · have lt : Sparse.above (some e.1) q = true := by simp [Sparse.above]; omega
        simp only [Sparse.okAbove, Bool.and_eq_true]
        exact ⟨h.1, ih (some e.1) lt h.2⟩

/-- Leaving keys out keeps the canonical form. -/
theorem Sparse.wf_keep (d : α) (p : Nat → Bool) (m : Sparse α) (h : Sparse.wf d m = true) : Sparse.wf d (m.keep p) = true :=
  Sparse.okAbove_keep d p m none h

/-- Writing a key keeps the canonical form. -/
theorem Sparse.wf_set (d : α) (m : Sparse α) (q : Nat) (v : α) (h : Sparse.wf d m = true) :
    Sparse.wf d (Sparse.set d m q v) = true := by
  unfold Sparse.set
  split
  · rw [Sparse.erase_eq_keep]; exact Sparse.wf_keep d _ m h
  · rename_i hv
    exact Sparse.okAbove_put d m none q v hv rfl h

end Sys2Proof.Machine
end

