-- ==== Sys2Proof/Laws/Registers.lean ====
section
/-!
SUPPORT. Reads and writes of bit fields and of registers: a field reads as written, and a write leaves the other fields and the other registers alone.
-/
namespace Sys2Proof.Machine

/-! ### Bit fields -/

theorem bitsOf_lt (w : Word) (hi lo : Nat) : bitsOf w hi lo < 2 ^ (hi + 1 - lo) := Nat.mod_lt _ (by positivity)

/-- A number split at the two ends of a field. -/
theorem split_at_field (x lo n : Nat) : x = (x / 2 ^ (lo + n)) * 2 ^ (lo + n) + (x / 2 ^ lo % 2 ^ n) * 2 ^ lo + x % 2 ^ lo := by
  have h1 := Nat.div_add_mod x (2 ^ lo)
  have h2 := Nat.div_add_mod (x / 2 ^ lo) (2 ^ n)
  rw [Nat.div_div_eq_div_mul, ← pow_add] at h2
  calc x = 2 ^ lo * (x / 2 ^ lo) + x % 2 ^ lo := h1.symm
    _ = 2 ^ lo * (2 ^ n * (x / 2 ^ (lo + n)) + x / 2 ^ lo % 2 ^ n) + x % 2 ^ lo := by rw [h2]
    _ = _ := by rw [pow_add]; ring

theorem below_field_end {a r lo n : Nat} (ha : a < 2 ^ n) (hr : r < 2 ^ lo) : a * 2 ^ lo + r < 2 ^ (lo + n) := by
  have h := Nat.mul_le_mul_right (2 ^ lo) (Nat.succ_le_of_lt ha)
  rw [Nat.succ_mul] at h
  rw [pow_add, Nat.mul_comm (2 ^ lo)]
  omega

theorem withBits_toNat (w : Word) (lo n v : Nat) (hn : 0 < n) (h : lo + n ≤ 64) :
    (withBits w (lo + n - 1) lo v).toNat =
      (w.toNat / 2 ^ (lo + n)) * 2 ^ (lo + n) + (v % 2 ^ n) * 2 ^ lo + w.toNat % 2 ^ lo := by
  have e : lo + n - 1 + 1 - lo = n := by omega
  have sp := split_at_field w.toNat lo n
  have b : w.toNat / 2 ^ (lo + n) * 2 ^ (lo + n) + v % 2 ^ n * 2 ^ lo + w.toNat % 2 ^ lo < 2 ^ 64 := by
    have q : w.toNat / 2 ^ (lo + n) < 2 ^ (64 - (lo + n)) := by
      rw [Nat.div_lt_iff_lt_mul (by positivity), ← pow_add]
      have : 64 - (lo + n) + (lo + n) = 64 := by omega
      rw [this]; exact w.isLt
    have r : v % 2 ^ n < 2 ^ n := Nat.mod_lt _ (by positivity)
    have m : w.toNat % 2 ^ lo < 2 ^ lo := Nat.mod_lt _ (by positivity)
    have a1 := below_field_end r m
    have a2 : w.toNat / 2 ^ (lo + n) * 2 ^ (lo + n) + 2 ^ (lo + n) ≤ 2 ^ (64 - (lo + n)) * 2 ^ (lo + n) := by
      have := Nat.mul_le_mul_right (2 ^ (lo + n)) (Nat.succ_le_of_lt q)
      simpa [Nat.succ_mul] using this
    rw [← pow_add] at a2
    have a3 : 64 - (lo + n) + (lo + n) = 64 := by omega
    rw [a3] at a2
    omega
  unfold withBits bitsOf
  simp only [e, BitVec.toNat_ofNat, Nat.shiftLeft_eq, Nat.shiftRight_eq_div_pow]
  rw [Nat.mod_eq_of_lt]
  · omega
  · omega

/-- A field reads as it was written. -/
theorem bitsOf_withBits_same (w : Word) (hi lo v : Nat) (hl : lo ≤ hi) (h : hi < 64) :
    bitsOf (withBits w hi lo v) hi lo = v % 2 ^ (hi + 1 - lo) := by
  obtain ⟨n, rfl, hn⟩ : ∃ n, hi = lo + n - 1 ∧ 0 < n := ⟨hi + 1 - lo, by omega, by omega⟩
  have e : lo + n - 1 + 1 - lo = n := by omega
  unfold bitsOf
  rw [withBits_toNat w lo n v hn (by omega), e, Nat.shiftRight_eq_div_pow]
  have m : w.toNat % 2 ^ lo < 2 ^ lo := Nat.mod_lt _ (by positivity)
  have : (w.toNat / 2 ^ (lo + n) * 2 ^ (lo + n) + v % 2 ^ n * 2 ^ lo + w.toNat % 2 ^ lo) / 2 ^ lo
      = w.toNat / 2 ^ (lo + n) * 2 ^ n + v % 2 ^ n := by
    rw [pow_add, show w.toNat / (2 ^ lo * 2 ^ n) * (2 ^ lo * 2 ^ n) + v % 2 ^ n * 2 ^ lo
      = 2 ^ lo * (w.toNat / (2 ^ lo * 2 ^ n) * 2 ^ n + v % 2 ^ n) by ring, Nat.mul_add_div (by positivity),
      Nat.div_eq_of_lt m, Nat.add_zero]
  rw [this, Nat.mul_add_mod_self_right, Nat.mod_mod]

/-- A write of a field leaves a field above or below it alone. -/
theorem bitsOf_withBits_other (w : Word) (hi lo v hi' lo' : Nat) (hl : lo ≤ hi) (h : hi < 64) (hl' : lo' ≤ hi')
    (dis : hi' < lo ∨ hi < lo') : bitsOf (withBits w hi lo v) hi' lo' = bitsOf w hi' lo' := by
  obtain ⟨n, rfl, hn⟩ : ∃ n, hi = lo + n - 1 ∧ 0 < n := ⟨hi + 1 - lo, by omega, by omega⟩
  unfold bitsOf
  rw [withBits_toNat w lo n v hn (by omega), Nat.shiftRight_eq_div_pow, Nat.shiftRight_eq_div_pow]
  have m : w.toNat % 2 ^ lo < 2 ^ lo := Nat.mod_lt _ (by positivity)
  have r : v % 2 ^ n < 2 ^ n := Nat.mod_lt _ (by positivity)
  rcases dis with d | d
  · obtain ⟨k, hk⟩ : ∃ k, lo = lo' + (hi' + 1 - lo') + k := ⟨lo - (lo' + (hi' + 1 - lo')), by omega⟩
    have part : ∀ y, (y * 2 ^ lo + w.toNat % 2 ^ lo) / 2 ^ lo' % 2 ^ (hi' + 1 - lo') = w.toNat / 2 ^ lo' % 2 ^ (hi' + 1 - lo') := by
      intro y
      rw [← Nat.mod_mul_right_div_self, ← Nat.mod_mul_right_div_self (w.toNat), ← pow_add]
      congr 1
      have dv : 2 ^ (lo' + (hi' + 1 - lo')) ∣ 2 ^ lo := by rw [hk]; exact Dvd.intro _ (pow_add 2 _ k).symm
      rw [Nat.add_mod, Nat.mod_mod_of_dvd _ dv, Nat.mul_mod, Nat.mod_eq_zero_of_dvd dv]
      simp
    have e : w.toNat / 2 ^ (lo + n) * 2 ^ (lo + n) + v % 2 ^ n * 2 ^ lo + w.toNat % 2 ^ lo
        = (w.toNat / 2 ^ (lo + n) * 2 ^ n + v % 2 ^ n) * 2 ^ lo + w.toNat % 2 ^ lo := by rw [pow_add]; ring
    rw [e, part]
  · congr 1
    obtain ⟨k, hk⟩ : ∃ k, lo' = lo + n + k := ⟨lo' - (lo + n), by omega⟩
    rw [hk, pow_add 2 (lo + n) k, ← Nat.div_div_eq_div_mul, ← Nat.div_div_eq_div_mul w.toNat]
    congr 1
    have a1 := below_field_end r m
    rw [show w.toNat / 2 ^ (lo + n) * 2 ^ (lo + n) + v % 2 ^ n * 2 ^ lo + w.toNat % 2 ^ lo
      = 2 ^ (lo + n) * (w.toNat / 2 ^ (lo + n)) + (v % 2 ^ n * 2 ^ lo + w.toNat % 2 ^ lo) by ring,
      Nat.mul_add_div (by positivity), Nat.div_eq_of_lt a1, Nat.add_zero]

/-! ### Registers -/

/-- A register reads as it was written. -/
@[simp] theorem State.reg_setReg_same (s : State) (r : RegName) (u i : Nat) (w : Word) : (s.setReg r u i w).reg r u i = w :=
  Sparse.get_set_same ..

/-- Registers of different names, units or indexes have different keys. -/
theorem RegName.key_ne {r r' : RegName} {u i u' i' : Nat} (hu : u < 1048576) (hi : i < 1048576) (hu' : u' < 1048576)
    (hi' : i' < 1048576) (n : ¬(r = r' ∧ u = u' ∧ i = i')) : r.key u i ≠ r'.key u' i' := by
  intro e
  unfold RegName.key at e
  have h1 : i = i' := by omega
  have h2 : u = u' := by omega
  have h3 : r.ctorIdx = r'.ctorIdx := by omega
  have inj : ∀ a b : RegName, a.ctorIdx = b.ctorIdx → a = b := by
    intro a b h
    have ha : RegName.ofNat a.ctorIdx = a := by cases a <;> rfl
    have hb : RegName.ofNat b.ctorIdx = b := by cases b <;> rfl
    rw [← ha, ← hb, h]
  exact n ⟨inj _ _ h3, h2, h1⟩

/-- A write of a register leaves every other register alone. -/
theorem State.reg_setReg_other (s : State) {r r' : RegName} {u i u' i' : Nat} (w : Word) (hu : u < 1048576) (hi : i < 1048576)
    (hu' : u' < 1048576) (hi' : i' < 1048576) (n : ¬(r' = r ∧ u' = u ∧ i' = i)) : (s.setReg r u i w).reg r' u' i' = s.reg r' u' i' :=
  Sparse.get_set_other _ _ _ _ (RegName.key_ne hu' hi' hu hi n)

/-- A field reads as it was written, cut to its width. -/
theorem State.fld_setFld_same (s : State) (f : Field) (u i v k : Nat) (hl : f.lo ≤ f.hi) (h : f.hi + k * f.step < 64) :
    (s.setFld f u i v k).fld f u i k = v % 2 ^ (f.hi + 1 - f.lo) := by
  unfold State.fld State.setFld
  rw [State.reg_setReg_same, bitsOf_withBits_same _ _ _ _ (by omega) h]
  congr 2
  omega

/-- A write of a field leaves another field of the same register alone. -/
theorem State.fld_setFld_beside (s : State) (f g : Field) (u i v k j : Nat) (hr : g.reg = f.reg) (hl : f.lo ≤ f.hi)
    (h : f.hi + k * f.step < 64) (hl' : g.lo ≤ g.hi)
    (dis : g.hi + j * g.step < f.lo + k * f.step ∨ f.hi + k * f.step < g.lo + j * g.step) :
    (s.setFld f u i v k).fld g u i j = s.fld g u i j := by
  unfold State.fld State.setFld
  rw [hr, State.reg_setReg_same, bitsOf_withBits_other _ _ _ _ _ _ (by omega) h (by omega) dis]

/-- A write of a field leaves the fields of every other register alone. -/
theorem State.fld_setFld_other (s : State) (f g : Field) (u i u' i' v k j : Nat) (hu : u < 1048576) (hi : i < 1048576)
    (hu' : u' < 1048576) (hi' : i' < 1048576) (n : ¬(g.reg = f.reg ∧ u' = u ∧ i' = i)) :
    (s.setFld f u i v k).fld g u' i' j = s.fld g u' i' j := by
  unfold State.fld State.setFld
  rw [State.reg_setReg_other s _ hu hi hu' hi' n]

end Sys2Proof.Machine
end

