-- ==== Sys2Proof/Laws/State.lean ====
section
/-!
SUPPORT. The fields of the state after each base operation: the operation changes one field and leaves the others, all by rfl.
-/
namespace Sys2Proof.Machine


/-! ### setReg -/

@[simp] theorem State.setReg_pending (s : State) (r : RegName) (u i : Nat) (w : Word) : (s.setReg r u i w).pending = s.pending := rfl
@[simp] theorem State.setReg_sent (s : State) (r : RegName) (u i : Nat) (w : Word) : (s.setReg r u i w).sent = s.sent := rfl
@[simp] theorem State.setReg_freeCtr (s : State) (r : RegName) (u i : Nat) (w : Word) : (s.setReg r u i w).freeCtr = s.freeCtr := rfl
@[simp] theorem State.setReg_mem (s : State) (r : RegName) (u i : Nat) (w : Word) : (s.setReg r u i w).mem = s.mem := rfl
@[simp] theorem State.setReg_tags (s : State) (r : RegName) (u i : Nat) (w : Word) : (s.setReg r u i w).tags = s.tags := rfl
@[simp] theorem State.setReg_bad (s : State) (r : RegName) (u i : Nat) (w : Word) : (s.setReg r u i w).bad = s.bad := rfl
@[simp] theorem State.setReg_cores (s : State) (r : RegName) (u i : Nat) (w : Word) : (s.setReg r u i w).cores = s.cores := rfl
@[simp] theorem State.setReg_lmap (s : State) (r : RegName) (u i : Nat) (w : Word) : (s.setReg r u i w).lmap = s.lmap := rfl
@[simp] theorem State.setReg_tuW1 (s : State) (r : RegName) (u i : Nat) (w : Word) : (s.setReg r u i w).tuW1 = s.tuW1 := rfl
@[simp] theorem State.setReg_epochs (s : State) (r : RegName) (u i : Nat) (w : Word) : (s.setReg r u i w).epochs = s.epochs := rfl
@[simp] theorem State.setReg_dmas (s : State) (r : RegName) (u i : Nat) (w : Word) : (s.setReg r u i w).dmas = s.dmas := rfl
@[simp] theorem State.setReg_routers (s : State) (r : RegName) (u i : Nat) (w : Word) : (s.setReg r u i w).routers = s.routers := rfl
@[simp] theorem State.setReg_deals (s : State) (r : RegName) (u i : Nat) (w : Word) : (s.setReg r u i w).deals = s.deals := rfl
@[simp] theorem State.setReg_cp (s : State) (r : RegName) (u i : Nat) (w : Word) : (s.setReg r u i w).cp = s.cp := rfl
@[simp] theorem State.setReg_kp (s : State) (r : RegName) (u i : Nat) (w : Word) : (s.setReg r u i w).kp = s.kp := rfl

/-! ### setFld -/

@[simp] theorem State.setFld_pending (s : State) (f : Field) (u i v k : Nat) : (s.setFld f u i v k).pending = s.pending := rfl
@[simp] theorem State.setFld_sent (s : State) (f : Field) (u i v k : Nat) : (s.setFld f u i v k).sent = s.sent := rfl
@[simp] theorem State.setFld_freeCtr (s : State) (f : Field) (u i v k : Nat) : (s.setFld f u i v k).freeCtr = s.freeCtr := rfl
@[simp] theorem State.setFld_mem (s : State) (f : Field) (u i v k : Nat) : (s.setFld f u i v k).mem = s.mem := rfl
@[simp] theorem State.setFld_tags (s : State) (f : Field) (u i v k : Nat) : (s.setFld f u i v k).tags = s.tags := rfl
@[simp] theorem State.setFld_bad (s : State) (f : Field) (u i v k : Nat) : (s.setFld f u i v k).bad = s.bad := rfl
@[simp] theorem State.setFld_cores (s : State) (f : Field) (u i v k : Nat) : (s.setFld f u i v k).cores = s.cores := rfl
@[simp] theorem State.setFld_lmap (s : State) (f : Field) (u i v k : Nat) : (s.setFld f u i v k).lmap = s.lmap := rfl
@[simp] theorem State.setFld_tuW1 (s : State) (f : Field) (u i v k : Nat) : (s.setFld f u i v k).tuW1 = s.tuW1 := rfl
@[simp] theorem State.setFld_epochs (s : State) (f : Field) (u i v k : Nat) : (s.setFld f u i v k).epochs = s.epochs := rfl
@[simp] theorem State.setFld_dmas (s : State) (f : Field) (u i v k : Nat) : (s.setFld f u i v k).dmas = s.dmas := rfl
@[simp] theorem State.setFld_routers (s : State) (f : Field) (u i v k : Nat) : (s.setFld f u i v k).routers = s.routers := rfl
@[simp] theorem State.setFld_deals (s : State) (f : Field) (u i v k : Nat) : (s.setFld f u i v k).deals = s.deals := rfl
@[simp] theorem State.setFld_cp (s : State) (f : Field) (u i v k : Nat) : (s.setFld f u i v k).cp = s.cp := rfl
@[simp] theorem State.setFld_kp (s : State) (f : Field) (u i v k : Nat) : (s.setFld f u i v k).kp = s.kp := rfl

/-! ### setTf -/

@[simp] theorem State.setTf_pending (s : State) (f : Field) (c t v i : Nat) : (s.setTf f c t v i).pending = s.pending := rfl
@[simp] theorem State.setTf_sent (s : State) (f : Field) (c t v i : Nat) : (s.setTf f c t v i).sent = s.sent := rfl
@[simp] theorem State.setTf_freeCtr (s : State) (f : Field) (c t v i : Nat) : (s.setTf f c t v i).freeCtr = s.freeCtr := rfl
@[simp] theorem State.setTf_mem (s : State) (f : Field) (c t v i : Nat) : (s.setTf f c t v i).mem = s.mem := rfl
@[simp] theorem State.setTf_tags (s : State) (f : Field) (c t v i : Nat) : (s.setTf f c t v i).tags = s.tags := rfl
@[simp] theorem State.setTf_bad (s : State) (f : Field) (c t v i : Nat) : (s.setTf f c t v i).bad = s.bad := rfl
@[simp] theorem State.setTf_cores (s : State) (f : Field) (c t v i : Nat) : (s.setTf f c t v i).cores = s.cores := rfl
@[simp] theorem State.setTf_lmap (s : State) (f : Field) (c t v i : Nat) : (s.setTf f c t v i).lmap = s.lmap := rfl
@[simp] theorem State.setTf_tuW1 (s : State) (f : Field) (c t v i : Nat) : (s.setTf f c t v i).tuW1 = s.tuW1 := rfl
@[simp] theorem State.setTf_epochs (s : State) (f : Field) (c t v i : Nat) : (s.setTf f c t v i).epochs = s.epochs := rfl
@[simp] theorem State.setTf_dmas (s : State) (f : Field) (c t v i : Nat) : (s.setTf f c t v i).dmas = s.dmas := rfl
@[simp] theorem State.setTf_routers (s : State) (f : Field) (c t v i : Nat) : (s.setTf f c t v i).routers = s.routers := rfl
@[simp] theorem State.setTf_deals (s : State) (f : Field) (c t v i : Nat) : (s.setTf f c t v i).deals = s.deals := rfl
@[simp] theorem State.setTf_cp (s : State) (f : Field) (c t v i : Nat) : (s.setTf f c t v i).cp = s.cp := rfl
@[simp] theorem State.setTf_kp (s : State) (f : Field) (c t v i : Nat) : (s.setTf f c t v i).kp = s.kp := rfl

/-! ### setTreg -/

@[simp] theorem State.setTreg_pending (s : State) (r : RegName) (c t : Nat) (w : Word) : (s.setTreg r c t w).pending = s.pending := rfl
@[simp] theorem State.setTreg_sent (s : State) (r : RegName) (c t : Nat) (w : Word) : (s.setTreg r c t w).sent = s.sent := rfl
@[simp] theorem State.setTreg_freeCtr (s : State) (r : RegName) (c t : Nat) (w : Word) : (s.setTreg r c t w).freeCtr = s.freeCtr := rfl
@[simp] theorem State.setTreg_mem (s : State) (r : RegName) (c t : Nat) (w : Word) : (s.setTreg r c t w).mem = s.mem := rfl
@[simp] theorem State.setTreg_tags (s : State) (r : RegName) (c t : Nat) (w : Word) : (s.setTreg r c t w).tags = s.tags := rfl
@[simp] theorem State.setTreg_bad (s : State) (r : RegName) (c t : Nat) (w : Word) : (s.setTreg r c t w).bad = s.bad := rfl
@[simp] theorem State.setTreg_cores (s : State) (r : RegName) (c t : Nat) (w : Word) : (s.setTreg r c t w).cores = s.cores := rfl
@[simp] theorem State.setTreg_lmap (s : State) (r : RegName) (c t : Nat) (w : Word) : (s.setTreg r c t w).lmap = s.lmap := rfl
@[simp] theorem State.setTreg_tuW1 (s : State) (r : RegName) (c t : Nat) (w : Word) : (s.setTreg r c t w).tuW1 = s.tuW1 := rfl
@[simp] theorem State.setTreg_epochs (s : State) (r : RegName) (c t : Nat) (w : Word) : (s.setTreg r c t w).epochs = s.epochs := rfl
@[simp] theorem State.setTreg_dmas (s : State) (r : RegName) (c t : Nat) (w : Word) : (s.setTreg r c t w).dmas = s.dmas := rfl
@[simp] theorem State.setTreg_routers (s : State) (r : RegName) (c t : Nat) (w : Word) : (s.setTreg r c t w).routers = s.routers := rfl
@[simp] theorem State.setTreg_deals (s : State) (r : RegName) (c t : Nat) (w : Word) : (s.setTreg r c t w).deals = s.deals := rfl
@[simp] theorem State.setTreg_cp (s : State) (r : RegName) (c t : Nat) (w : Word) : (s.setTreg r c t w).cp = s.cp := rfl
@[simp] theorem State.setTreg_kp (s : State) (r : RegName) (c t : Nat) (w : Word) : (s.setTreg r c t w).kp = s.kp := rfl

/-! ### bump -/

@[simp] theorem State.bump_pending (s : State) (f : Field) (u i n : Nat) : (s.bump f u i n).pending = s.pending := rfl
@[simp] theorem State.bump_sent (s : State) (f : Field) (u i n : Nat) : (s.bump f u i n).sent = s.sent := rfl
@[simp] theorem State.bump_freeCtr (s : State) (f : Field) (u i n : Nat) : (s.bump f u i n).freeCtr = s.freeCtr := rfl
@[simp] theorem State.bump_mem (s : State) (f : Field) (u i n : Nat) : (s.bump f u i n).mem = s.mem := rfl
@[simp] theorem State.bump_tags (s : State) (f : Field) (u i n : Nat) : (s.bump f u i n).tags = s.tags := rfl
@[simp] theorem State.bump_bad (s : State) (f : Field) (u i n : Nat) : (s.bump f u i n).bad = s.bad := rfl
@[simp] theorem State.bump_cores (s : State) (f : Field) (u i n : Nat) : (s.bump f u i n).cores = s.cores := rfl
@[simp] theorem State.bump_lmap (s : State) (f : Field) (u i n : Nat) : (s.bump f u i n).lmap = s.lmap := rfl
@[simp] theorem State.bump_tuW1 (s : State) (f : Field) (u i n : Nat) : (s.bump f u i n).tuW1 = s.tuW1 := rfl
@[simp] theorem State.bump_epochs (s : State) (f : Field) (u i n : Nat) : (s.bump f u i n).epochs = s.epochs := rfl
@[simp] theorem State.bump_dmas (s : State) (f : Field) (u i n : Nat) : (s.bump f u i n).dmas = s.dmas := rfl
@[simp] theorem State.bump_routers (s : State) (f : Field) (u i n : Nat) : (s.bump f u i n).routers = s.routers := rfl
@[simp] theorem State.bump_deals (s : State) (f : Field) (u i n : Nat) : (s.bump f u i n).deals = s.deals := rfl
@[simp] theorem State.bump_cp (s : State) (f : Field) (u i n : Nat) : (s.bump f u i n).cp = s.cp := rfl
@[simp] theorem State.bump_kp (s : State) (f : Field) (u i n : Nat) : (s.bump f u i n).kp = s.kp := rfl

/-! ### bumpWrap -/

@[simp] theorem State.bumpWrap_pending (s : State) (f : Field) (u i n : Nat) : (s.bumpWrap f u i n).pending = s.pending := rfl
@[simp] theorem State.bumpWrap_sent (s : State) (f : Field) (u i n : Nat) : (s.bumpWrap f u i n).sent = s.sent := rfl
@[simp] theorem State.bumpWrap_freeCtr (s : State) (f : Field) (u i n : Nat) : (s.bumpWrap f u i n).freeCtr = s.freeCtr := rfl
@[simp] theorem State.bumpWrap_mem (s : State) (f : Field) (u i n : Nat) : (s.bumpWrap f u i n).mem = s.mem := rfl
@[simp] theorem State.bumpWrap_tags (s : State) (f : Field) (u i n : Nat) : (s.bumpWrap f u i n).tags = s.tags := rfl
@[simp] theorem State.bumpWrap_bad (s : State) (f : Field) (u i n : Nat) : (s.bumpWrap f u i n).bad = s.bad := rfl
@[simp] theorem State.bumpWrap_cores (s : State) (f : Field) (u i n : Nat) : (s.bumpWrap f u i n).cores = s.cores := rfl
@[simp] theorem State.bumpWrap_lmap (s : State) (f : Field) (u i n : Nat) : (s.bumpWrap f u i n).lmap = s.lmap := rfl
@[simp] theorem State.bumpWrap_tuW1 (s : State) (f : Field) (u i n : Nat) : (s.bumpWrap f u i n).tuW1 = s.tuW1 := rfl
@[simp] theorem State.bumpWrap_epochs (s : State) (f : Field) (u i n : Nat) : (s.bumpWrap f u i n).epochs = s.epochs := rfl
@[simp] theorem State.bumpWrap_dmas (s : State) (f : Field) (u i n : Nat) : (s.bumpWrap f u i n).dmas = s.dmas := rfl
@[simp] theorem State.bumpWrap_routers (s : State) (f : Field) (u i n : Nat) : (s.bumpWrap f u i n).routers = s.routers := rfl
@[simp] theorem State.bumpWrap_deals (s : State) (f : Field) (u i n : Nat) : (s.bumpWrap f u i n).deals = s.deals := rfl
@[simp] theorem State.bumpWrap_cp (s : State) (f : Field) (u i n : Nat) : (s.bumpWrap f u i n).cp = s.cp := rfl
@[simp] theorem State.bumpWrap_kp (s : State) (f : Field) (u i n : Nat) : (s.bumpWrap f u i n).kp = s.kp := rfl

/-! ### setCore -/

@[simp] theorem State.setCore_pending (s : State) (c : Nat) (k : Core) : (s.setCore c k).pending = s.pending := rfl
@[simp] theorem State.setCore_sent (s : State) (c : Nat) (k : Core) : (s.setCore c k).sent = s.sent := rfl
@[simp] theorem State.setCore_freeCtr (s : State) (c : Nat) (k : Core) : (s.setCore c k).freeCtr = s.freeCtr := rfl
@[simp] theorem State.setCore_regs (s : State) (c : Nat) (k : Core) : (s.setCore c k).regs = s.regs := rfl
@[simp] theorem State.setCore_mem (s : State) (c : Nat) (k : Core) : (s.setCore c k).mem = s.mem := rfl
@[simp] theorem State.setCore_tags (s : State) (c : Nat) (k : Core) : (s.setCore c k).tags = s.tags := rfl
@[simp] theorem State.setCore_bad (s : State) (c : Nat) (k : Core) : (s.setCore c k).bad = s.bad := rfl
@[simp] theorem State.setCore_lmap (s : State) (c : Nat) (k : Core) : (s.setCore c k).lmap = s.lmap := rfl
@[simp] theorem State.setCore_tuW1 (s : State) (c : Nat) (k : Core) : (s.setCore c k).tuW1 = s.tuW1 := rfl
@[simp] theorem State.setCore_epochs (s : State) (c : Nat) (k : Core) : (s.setCore c k).epochs = s.epochs := rfl
@[simp] theorem State.setCore_dmas (s : State) (c : Nat) (k : Core) : (s.setCore c k).dmas = s.dmas := rfl
@[simp] theorem State.setCore_routers (s : State) (c : Nat) (k : Core) : (s.setCore c k).routers = s.routers := rfl
@[simp] theorem State.setCore_deals (s : State) (c : Nat) (k : Core) : (s.setCore c k).deals = s.deals := rfl
@[simp] theorem State.setCore_cp (s : State) (c : Nat) (k : Core) : (s.setCore c k).cp = s.cp := rfl
@[simp] theorem State.setCore_kp (s : State) (c : Nat) (k : Core) : (s.setCore c k).kp = s.kp := rfl

/-! ### setThr -/

@[simp] theorem State.setThr_pending (s : State) (c t : Nat) (h : Thread) : (s.setThr c t h).pending = s.pending := rfl
@[simp] theorem State.setThr_sent (s : State) (c t : Nat) (h : Thread) : (s.setThr c t h).sent = s.sent := rfl
@[simp] theorem State.setThr_freeCtr (s : State) (c t : Nat) (h : Thread) : (s.setThr c t h).freeCtr = s.freeCtr := rfl
@[simp] theorem State.setThr_regs (s : State) (c t : Nat) (h : Thread) : (s.setThr c t h).regs = s.regs := rfl
@[simp] theorem State.setThr_mem (s : State) (c t : Nat) (h : Thread) : (s.setThr c t h).mem = s.mem := rfl
@[simp] theorem State.setThr_tags (s : State) (c t : Nat) (h : Thread) : (s.setThr c t h).tags = s.tags := rfl
@[simp] theorem State.setThr_bad (s : State) (c t : Nat) (h : Thread) : (s.setThr c t h).bad = s.bad := rfl
@[simp] theorem State.setThr_lmap (s : State) (c t : Nat) (h : Thread) : (s.setThr c t h).lmap = s.lmap := rfl
@[simp] theorem State.setThr_tuW1 (s : State) (c t : Nat) (h : Thread) : (s.setThr c t h).tuW1 = s.tuW1 := rfl
@[simp] theorem State.setThr_epochs (s : State) (c t : Nat) (h : Thread) : (s.setThr c t h).epochs = s.epochs := rfl
@[simp] theorem State.setThr_dmas (s : State) (c t : Nat) (h : Thread) : (s.setThr c t h).dmas = s.dmas := rfl
@[simp] theorem State.setThr_routers (s : State) (c t : Nat) (h : Thread) : (s.setThr c t h).routers = s.routers := rfl
@[simp] theorem State.setThr_deals (s : State) (c t : Nat) (h : Thread) : (s.setThr c t h).deals = s.deals := rfl
@[simp] theorem State.setThr_cp (s : State) (c t : Nat) (h : Thread) : (s.setThr c t h).cp = s.cp := rfl
@[simp] theorem State.setThr_kp (s : State) (c t : Nat) (h : Thread) : (s.setThr c t h).kp = s.kp := rfl

/-! ### setByte -/

@[simp] theorem State.setByte_pending (s : State) (a : Nat) (b : Byte) : (s.setByte a b).pending = s.pending := rfl
@[simp] theorem State.setByte_sent (s : State) (a : Nat) (b : Byte) : (s.setByte a b).sent = s.sent := rfl
@[simp] theorem State.setByte_freeCtr (s : State) (a : Nat) (b : Byte) : (s.setByte a b).freeCtr = s.freeCtr := rfl
@[simp] theorem State.setByte_regs (s : State) (a : Nat) (b : Byte) : (s.setByte a b).regs = s.regs := rfl
@[simp] theorem State.setByte_tags (s : State) (a : Nat) (b : Byte) : (s.setByte a b).tags = s.tags := rfl
@[simp] theorem State.setByte_bad (s : State) (a : Nat) (b : Byte) : (s.setByte a b).bad = s.bad := rfl
@[simp] theorem State.setByte_cores (s : State) (a : Nat) (b : Byte) : (s.setByte a b).cores = s.cores := rfl
@[simp] theorem State.setByte_lmap (s : State) (a : Nat) (b : Byte) : (s.setByte a b).lmap = s.lmap := rfl
@[simp] theorem State.setByte_tuW1 (s : State) (a : Nat) (b : Byte) : (s.setByte a b).tuW1 = s.tuW1 := rfl
@[simp] theorem State.setByte_epochs (s : State) (a : Nat) (b : Byte) : (s.setByte a b).epochs = s.epochs := rfl
@[simp] theorem State.setByte_dmas (s : State) (a : Nat) (b : Byte) : (s.setByte a b).dmas = s.dmas := rfl
@[simp] theorem State.setByte_routers (s : State) (a : Nat) (b : Byte) : (s.setByte a b).routers = s.routers := rfl
@[simp] theorem State.setByte_deals (s : State) (a : Nat) (b : Byte) : (s.setByte a b).deals = s.deals := rfl
@[simp] theorem State.setByte_cp (s : State) (a : Nat) (b : Byte) : (s.setByte a b).cp = s.cp := rfl
@[simp] theorem State.setByte_kp (s : State) (a : Nat) (b : Byte) : (s.setByte a b).kp = s.kp := rfl

/-! ### setTag -/

@[simp] theorem State.setTag_pending (s : State) (a t : Nat) : (s.setTag a t).pending = s.pending := rfl
@[simp] theorem State.setTag_sent (s : State) (a t : Nat) : (s.setTag a t).sent = s.sent := rfl
@[simp] theorem State.setTag_freeCtr (s : State) (a t : Nat) : (s.setTag a t).freeCtr = s.freeCtr := rfl
@[simp] theorem State.setTag_regs (s : State) (a t : Nat) : (s.setTag a t).regs = s.regs := rfl
@[simp] theorem State.setTag_mem (s : State) (a t : Nat) : (s.setTag a t).mem = s.mem := rfl
@[simp] theorem State.setTag_bad (s : State) (a t : Nat) : (s.setTag a t).bad = s.bad := rfl
@[simp] theorem State.setTag_cores (s : State) (a t : Nat) : (s.setTag a t).cores = s.cores := rfl
@[simp] theorem State.setTag_lmap (s : State) (a t : Nat) : (s.setTag a t).lmap = s.lmap := rfl
@[simp] theorem State.setTag_tuW1 (s : State) (a t : Nat) : (s.setTag a t).tuW1 = s.tuW1 := rfl
@[simp] theorem State.setTag_epochs (s : State) (a t : Nat) : (s.setTag a t).epochs = s.epochs := rfl
@[simp] theorem State.setTag_dmas (s : State) (a t : Nat) : (s.setTag a t).dmas = s.dmas := rfl
@[simp] theorem State.setTag_routers (s : State) (a t : Nat) : (s.setTag a t).routers = s.routers := rfl
@[simp] theorem State.setTag_deals (s : State) (a t : Nat) : (s.setTag a t).deals = s.deals := rfl
@[simp] theorem State.setTag_cp (s : State) (a t : Nat) : (s.setTag a t).cp = s.cp := rfl
@[simp] theorem State.setTag_kp (s : State) (a t : Nat) : (s.setTag a t).kp = s.kp := rfl

/-! ### setPat -/

@[simp] theorem State.setPat_pending (s : State) (a p : Nat) : (s.setPat a p).pending = s.pending := rfl
@[simp] theorem State.setPat_sent (s : State) (a p : Nat) : (s.setPat a p).sent = s.sent := rfl
@[simp] theorem State.setPat_freeCtr (s : State) (a p : Nat) : (s.setPat a p).freeCtr = s.freeCtr := rfl
@[simp] theorem State.setPat_regs (s : State) (a p : Nat) : (s.setPat a p).regs = s.regs := rfl
@[simp] theorem State.setPat_mem (s : State) (a p : Nat) : (s.setPat a p).mem = s.mem := rfl
@[simp] theorem State.setPat_tags (s : State) (a p : Nat) : (s.setPat a p).tags = s.tags := rfl
@[simp] theorem State.setPat_cores (s : State) (a p : Nat) : (s.setPat a p).cores = s.cores := rfl
@[simp] theorem State.setPat_lmap (s : State) (a p : Nat) : (s.setPat a p).lmap = s.lmap := rfl
@[simp] theorem State.setPat_tuW1 (s : State) (a p : Nat) : (s.setPat a p).tuW1 = s.tuW1 := rfl
@[simp] theorem State.setPat_epochs (s : State) (a p : Nat) : (s.setPat a p).epochs = s.epochs := rfl
@[simp] theorem State.setPat_dmas (s : State) (a p : Nat) : (s.setPat a p).dmas = s.dmas := rfl
@[simp] theorem State.setPat_routers (s : State) (a p : Nat) : (s.setPat a p).routers = s.routers := rfl
@[simp] theorem State.setPat_deals (s : State) (a p : Nat) : (s.setPat a p).deals = s.deals := rfl
@[simp] theorem State.setPat_cp (s : State) (a p : Nat) : (s.setPat a p).cp = s.cp := rfl
@[simp] theorem State.setPat_kp (s : State) (a p : Nat) : (s.setPat a p).kp = s.kp := rfl

/-! ### send -/

@[simp] theorem State.send_pending (s : State) (k : MsgKind) (l : List Nat) : (s.send k l).pending = s.pending := rfl
@[simp] theorem State.send_freeCtr (s : State) (k : MsgKind) (l : List Nat) : (s.send k l).freeCtr = s.freeCtr := rfl
@[simp] theorem State.send_regs (s : State) (k : MsgKind) (l : List Nat) : (s.send k l).regs = s.regs := rfl
@[simp] theorem State.send_mem (s : State) (k : MsgKind) (l : List Nat) : (s.send k l).mem = s.mem := rfl
@[simp] theorem State.send_tags (s : State) (k : MsgKind) (l : List Nat) : (s.send k l).tags = s.tags := rfl
@[simp] theorem State.send_bad (s : State) (k : MsgKind) (l : List Nat) : (s.send k l).bad = s.bad := rfl
@[simp] theorem State.send_cores (s : State) (k : MsgKind) (l : List Nat) : (s.send k l).cores = s.cores := rfl
@[simp] theorem State.send_lmap (s : State) (k : MsgKind) (l : List Nat) : (s.send k l).lmap = s.lmap := rfl
@[simp] theorem State.send_tuW1 (s : State) (k : MsgKind) (l : List Nat) : (s.send k l).tuW1 = s.tuW1 := rfl
@[simp] theorem State.send_epochs (s : State) (k : MsgKind) (l : List Nat) : (s.send k l).epochs = s.epochs := rfl
@[simp] theorem State.send_dmas (s : State) (k : MsgKind) (l : List Nat) : (s.send k l).dmas = s.dmas := rfl
@[simp] theorem State.send_routers (s : State) (k : MsgKind) (l : List Nat) : (s.send k l).routers = s.routers := rfl
@[simp] theorem State.send_deals (s : State) (k : MsgKind) (l : List Nat) : (s.send k l).deals = s.deals := rfl
@[simp] theorem State.send_cp (s : State) (k : MsgKind) (l : List Nat) : (s.send k l).cp = s.cp := rfl
@[simp] theorem State.send_kp (s : State) (k : MsgKind) (l : List Nat) : (s.send k l).kp = s.kp := rfl

/-! ### setKp -/

@[simp] theorem State.setKp_pending (s : State) (k : Keeper) : (s.setKp k).pending = s.pending := rfl
@[simp] theorem State.setKp_sent (s : State) (k : Keeper) : (s.setKp k).sent = s.sent := rfl
@[simp] theorem State.setKp_freeCtr (s : State) (k : Keeper) : (s.setKp k).freeCtr = s.freeCtr := rfl
@[simp] theorem State.setKp_regs (s : State) (k : Keeper) : (s.setKp k).regs = s.regs := rfl
@[simp] theorem State.setKp_mem (s : State) (k : Keeper) : (s.setKp k).mem = s.mem := rfl
@[simp] theorem State.setKp_tags (s : State) (k : Keeper) : (s.setKp k).tags = s.tags := rfl
@[simp] theorem State.setKp_bad (s : State) (k : Keeper) : (s.setKp k).bad = s.bad := rfl
@[simp] theorem State.setKp_cores (s : State) (k : Keeper) : (s.setKp k).cores = s.cores := rfl
@[simp] theorem State.setKp_lmap (s : State) (k : Keeper) : (s.setKp k).lmap = s.lmap := rfl
@[simp] theorem State.setKp_tuW1 (s : State) (k : Keeper) : (s.setKp k).tuW1 = s.tuW1 := rfl
@[simp] theorem State.setKp_epochs (s : State) (k : Keeper) : (s.setKp k).epochs = s.epochs := rfl
@[simp] theorem State.setKp_dmas (s : State) (k : Keeper) : (s.setKp k).dmas = s.dmas := rfl
@[simp] theorem State.setKp_routers (s : State) (k : Keeper) : (s.setKp k).routers = s.routers := rfl
@[simp] theorem State.setKp_deals (s : State) (k : Keeper) : (s.setKp k).deals = s.deals := rfl
@[simp] theorem State.setKp_cp (s : State) (k : Keeper) : (s.setKp k).cp = s.cp := rfl

/-! ### setDma -/

@[simp] theorem State.setDma_pending (s : State) (u : Nat) (d : Dma) : (s.setDma u d).pending = s.pending := rfl
@[simp] theorem State.setDma_sent (s : State) (u : Nat) (d : Dma) : (s.setDma u d).sent = s.sent := rfl
@[simp] theorem State.setDma_freeCtr (s : State) (u : Nat) (d : Dma) : (s.setDma u d).freeCtr = s.freeCtr := rfl
@[simp] theorem State.setDma_regs (s : State) (u : Nat) (d : Dma) : (s.setDma u d).regs = s.regs := rfl
@[simp] theorem State.setDma_mem (s : State) (u : Nat) (d : Dma) : (s.setDma u d).mem = s.mem := rfl
@[simp] theorem State.setDma_tags (s : State) (u : Nat) (d : Dma) : (s.setDma u d).tags = s.tags := rfl
@[simp] theorem State.setDma_bad (s : State) (u : Nat) (d : Dma) : (s.setDma u d).bad = s.bad := rfl
@[simp] theorem State.setDma_cores (s : State) (u : Nat) (d : Dma) : (s.setDma u d).cores = s.cores := rfl
@[simp] theorem State.setDma_lmap (s : State) (u : Nat) (d : Dma) : (s.setDma u d).lmap = s.lmap := rfl
@[simp] theorem State.setDma_tuW1 (s : State) (u : Nat) (d : Dma) : (s.setDma u d).tuW1 = s.tuW1 := rfl
@[simp] theorem State.setDma_epochs (s : State) (u : Nat) (d : Dma) : (s.setDma u d).epochs = s.epochs := rfl
@[simp] theorem State.setDma_routers (s : State) (u : Nat) (d : Dma) : (s.setDma u d).routers = s.routers := rfl
@[simp] theorem State.setDma_deals (s : State) (u : Nat) (d : Dma) : (s.setDma u d).deals = s.deals := rfl
@[simp] theorem State.setDma_cp (s : State) (u : Nat) (d : Dma) : (s.setDma u d).cp = s.cp := rfl
@[simp] theorem State.setDma_kp (s : State) (u : Nat) (d : Dma) : (s.setDma u d).kp = s.kp := rfl

/-! ### setRtr -/

@[simp] theorem State.setRtr_pending (s : State) (n : Nat) (r : Router) : (s.setRtr n r).pending = s.pending := rfl
@[simp] theorem State.setRtr_sent (s : State) (n : Nat) (r : Router) : (s.setRtr n r).sent = s.sent := rfl
@[simp] theorem State.setRtr_freeCtr (s : State) (n : Nat) (r : Router) : (s.setRtr n r).freeCtr = s.freeCtr := rfl
@[simp] theorem State.setRtr_regs (s : State) (n : Nat) (r : Router) : (s.setRtr n r).regs = s.regs := rfl
@[simp] theorem State.setRtr_mem (s : State) (n : Nat) (r : Router) : (s.setRtr n r).mem = s.mem := rfl
@[simp] theorem State.setRtr_tags (s : State) (n : Nat) (r : Router) : (s.setRtr n r).tags = s.tags := rfl
@[simp] theorem State.setRtr_bad (s : State) (n : Nat) (r : Router) : (s.setRtr n r).bad = s.bad := rfl
@[simp] theorem State.setRtr_cores (s : State) (n : Nat) (r : Router) : (s.setRtr n r).cores = s.cores := rfl
@[simp] theorem State.setRtr_lmap (s : State) (n : Nat) (r : Router) : (s.setRtr n r).lmap = s.lmap := rfl
@[simp] theorem State.setRtr_tuW1 (s : State) (n : Nat) (r : Router) : (s.setRtr n r).tuW1 = s.tuW1 := rfl
@[simp] theorem State.setRtr_epochs (s : State) (n : Nat) (r : Router) : (s.setRtr n r).epochs = s.epochs := rfl
@[simp] theorem State.setRtr_dmas (s : State) (n : Nat) (r : Router) : (s.setRtr n r).dmas = s.dmas := rfl
@[simp] theorem State.setRtr_deals (s : State) (n : Nat) (r : Router) : (s.setRtr n r).deals = s.deals := rfl
@[simp] theorem State.setRtr_cp (s : State) (n : Nat) (r : Router) : (s.setRtr n r).cp = s.cp := rfl
@[simp] theorem State.setRtr_kp (s : State) (n : Nat) (r : Router) : (s.setRtr n r).kp = s.kp := rfl

/-! ### setQp -/

@[simp] theorem State.setQp_pending (s : State) (q : Nat) (x : Qp) : (s.setQp q x).pending = s.pending := rfl
@[simp] theorem State.setQp_sent (s : State) (q : Nat) (x : Qp) : (s.setQp q x).sent = s.sent := rfl
@[simp] theorem State.setQp_freeCtr (s : State) (q : Nat) (x : Qp) : (s.setQp q x).freeCtr = s.freeCtr := rfl
@[simp] theorem State.setQp_regs (s : State) (q : Nat) (x : Qp) : (s.setQp q x).regs = s.regs := rfl
@[simp] theorem State.setQp_mem (s : State) (q : Nat) (x : Qp) : (s.setQp q x).mem = s.mem := rfl
@[simp] theorem State.setQp_tags (s : State) (q : Nat) (x : Qp) : (s.setQp q x).tags = s.tags := rfl
@[simp] theorem State.setQp_bad (s : State) (q : Nat) (x : Qp) : (s.setQp q x).bad = s.bad := rfl
@[simp] theorem State.setQp_cores (s : State) (q : Nat) (x : Qp) : (s.setQp q x).cores = s.cores := rfl
@[simp] theorem State.setQp_lmap (s : State) (q : Nat) (x : Qp) : (s.setQp q x).lmap = s.lmap := rfl
@[simp] theorem State.setQp_tuW1 (s : State) (q : Nat) (x : Qp) : (s.setQp q x).tuW1 = s.tuW1 := rfl
@[simp] theorem State.setQp_epochs (s : State) (q : Nat) (x : Qp) : (s.setQp q x).epochs = s.epochs := rfl
@[simp] theorem State.setQp_dmas (s : State) (q : Nat) (x : Qp) : (s.setQp q x).dmas = s.dmas := rfl
@[simp] theorem State.setQp_routers (s : State) (q : Nat) (x : Qp) : (s.setQp q x).routers = s.routers := rfl
@[simp] theorem State.setQp_deals (s : State) (q : Nat) (x : Qp) : (s.setQp q x).deals = s.deals := rfl
@[simp] theorem State.setQp_kp (s : State) (q : Nat) (x : Qp) : (s.setQp q x).kp = s.kp := rfl

/-! ### setCache -/

@[simp] theorem State.setCache_pending (s : State) (c : Nat) (l : List CEntry) : (s.setCache c l).pending = s.pending := rfl
@[simp] theorem State.setCache_sent (s : State) (c : Nat) (l : List CEntry) : (s.setCache c l).sent = s.sent := rfl
@[simp] theorem State.setCache_freeCtr (s : State) (c : Nat) (l : List CEntry) : (s.setCache c l).freeCtr = s.freeCtr := rfl
@[simp] theorem State.setCache_regs (s : State) (c : Nat) (l : List CEntry) : (s.setCache c l).regs = s.regs := rfl
@[simp] theorem State.setCache_mem (s : State) (c : Nat) (l : List CEntry) : (s.setCache c l).mem = s.mem := rfl
@[simp] theorem State.setCache_tags (s : State) (c : Nat) (l : List CEntry) : (s.setCache c l).tags = s.tags := rfl
@[simp] theorem State.setCache_bad (s : State) (c : Nat) (l : List CEntry) : (s.setCache c l).bad = s.bad := rfl
@[simp] theorem State.setCache_lmap (s : State) (c : Nat) (l : List CEntry) : (s.setCache c l).lmap = s.lmap := rfl
@[simp] theorem State.setCache_tuW1 (s : State) (c : Nat) (l : List CEntry) : (s.setCache c l).tuW1 = s.tuW1 := rfl
@[simp] theorem State.setCache_epochs (s : State) (c : Nat) (l : List CEntry) : (s.setCache c l).epochs = s.epochs := rfl
@[simp] theorem State.setCache_dmas (s : State) (c : Nat) (l : List CEntry) : (s.setCache c l).dmas = s.dmas := rfl
@[simp] theorem State.setCache_routers (s : State) (c : Nat) (l : List CEntry) : (s.setCache c l).routers = s.routers := rfl
@[simp] theorem State.setCache_deals (s : State) (c : Nat) (l : List CEntry) : (s.setCache c l).deals = s.deals := rfl
@[simp] theorem State.setCache_cp (s : State) (c : Nat) (l : List CEntry) : (s.setCache c l).cp = s.cp := rfl
@[simp] theorem State.setCache_kp (s : State) (c : Nat) (l : List CEntry) : (s.setCache c l).kp = s.kp := rfl

/-! ### Cores and threads -/

@[simp] theorem State.core_setCore_same (s : State) (c : Nat) (k : Core) : (s.setCore c k).core c = k := Sparse.get_set_same ..

theorem State.core_setCore_other (s : State) {c d : Nat} (k : Core) (n : d ≠ c) : (s.setCore c k).core d = s.core d :=
  Sparse.get_set_other _ _ _ _ n

@[simp] theorem State.core_setReg (s : State) (r : RegName) (u i : Nat) (w : Word) (c : Nat) : (s.setReg r u i w).core c = s.core c := rfl

@[simp] theorem State.thr_setThr_same (s : State) (c t : Nat) (h : Thread) : (s.setThr c t h).thr c t = h := by
  unfold State.thr State.setThr
  rw [State.core_setCore_same]
  exact Sparse.get_set_same ..

theorem State.thr_setThr_other (s : State) (c : Nat) {t j : Nat} (h : Thread) (n : j ≠ t) : (s.setThr c t h).thr c j = s.thr c j := by
  unfold State.thr State.setThr
  rw [State.core_setCore_same]
  exact Sparse.get_set_other _ _ _ _ n

theorem State.thr_setThr_elsewhere (s : State) {c d : Nat} (t j : Nat) (h : Thread) (n : d ≠ c) : (s.setThr c t h).thr d j = s.thr d j := by
  unfold State.thr State.setThr
  rw [State.core_setCore_other _ _ n]

@[simp] theorem State.thr_setReg (s : State) (r : RegName) (u i : Nat) (w : Word) (c t : Nat) : (s.setReg r u i w).thr c t = s.thr c t := rfl
@[simp] theorem State.thr_setFld (s : State) (f : Field) (u i v k c t : Nat) : (s.setFld f u i v k).thr c t = s.thr c t := rfl
@[simp] theorem State.thr_setTf (s : State) (f : Field) (d j v k c t : Nat) : (s.setTf f d j v k).thr c t = s.thr c t := rfl
@[simp] theorem State.reg_setThr (s : State) (c t : Nat) (h : Thread) (r : RegName) (u i : Nat) : (s.setThr c t h).reg r u i = s.reg r u i := rfl
@[simp] theorem State.fld_setThr (s : State) (c t : Nat) (h : Thread) (f : Field) (u i k : Nat) : (s.setThr c t h).fld f u i k = s.fld f u i k := rfl
@[simp] theorem State.tf_setThr (s : State) (c t : Nat) (h : Thread) (f : Field) (d j i : Nat) : (s.setThr c t h).tf f d j i = s.tf f d j i := rfl
@[simp] theorem State.reg_send (s : State) (k : MsgKind) (l : List Nat) (r : RegName) (u i : Nat) : (s.send k l).reg r u i = s.reg r u i := rfl
@[simp] theorem State.fld_send (s : State) (k : MsgKind) (l : List Nat) (f : Field) (u i j : Nat) : (s.send k l).fld f u i j = s.fld f u i j := rfl
@[simp] theorem State.reg_setCore (s : State) (c : Nat) (k : Core) (r : RegName) (u i : Nat) : (s.setCore c k).reg r u i = s.reg r u i := rfl
@[simp] theorem State.reg_setKp (s : State) (k : Keeper) (r : RegName) (u i : Nat) : (s.setKp k).reg r u i = s.reg r u i := rfl

/-! ### Absorbed replies -/

/-- A counter that holds at its greatest value. -/
theorem State.bump_fld (s : State) (f : Field) (u : Nat) (hl : f.lo ≤ f.hi) (h : f.hi < 64) :
    (s.bump f u 0).fld f u 0 = min (s.fld f u 0 + 1) (2 ^ (f.hi + 1 - f.lo) - 1) := by
  unfold State.bump
  rw [State.fld_setFld_same _ _ _ _ _ _ hl (by omega)]
  apply Nat.mod_eq_of_lt
  have : 0 < 2 ^ (f.hi + 1 - f.lo) := Nat.two_pow_pos _
  omega

/-- The boundary of a fenced part changes only its counter. -/
theorem State.boundaryCount_frame (s : State) (c : Nat) (f : Field) :
    (s.boundaryCount c f).cores = s.cores ∧ (s.boundaryCount c f).mem = s.mem ∧ (s.boundaryCount c f).tags = s.tags ∧ (s.boundaryCount c f).sent = s.sent := by
  unfold State.boundaryCount
  split <;> exact ⟨rfl, rfl, rfl, rfl⟩

/-- A reply or wake that a fence or a proxy absorbs changes only its counter. -/
theorem State.inward_absorbs (s : State) (c : Nat) (f : State → State) (h : s.answeredAhead c = true) :
    (s.inward c f).cores = s.cores ∧ (s.inward c f).mem = s.mem ∧ (s.inward c f).tags = s.tags ∧ (s.inward c f).sent = s.sent ∧
    (s.gated (coreP c) (coreHalf c) = true →
      (s.inward c f).fld SEAM_STAT_ABSORBED (coreP c) 0 = min (s.fld SEAM_STAT_ABSORBED (coreP c) 0 + 1) (2 ^ (SEAM_STAT_ABSORBED.hi + 1 - SEAM_STAT_ABSORBED.lo) - 1)) ∧
    (s.gated (coreP c) (coreHalf c) = false → s.islandShut c = false →
      (s.inward c f).fld FENCE_DROP_CNT_ABSORBED c 0 = min (s.fld FENCE_DROP_CNT_ABSORBED c 0 + 1) (2 ^ (FENCE_DROP_CNT_ABSORBED.hi + 1 - FENCE_DROP_CNT_ABSORBED.lo) - 1)) := by
  cases hg : s.gated (coreP c) (coreHalf c) with
  | true =>
    have e : s.inward c f = s.bump SEAM_STAT_ABSORBED (coreP c) 0 := by unfold State.inward; rw [h, hg]; rfl
    rw [e]
    exact ⟨s.setFld_cores .., s.setFld_mem .., s.setFld_tags .., s.setFld_sent .., fun _ => s.bump_fld SEAM_STAT_ABSORBED _ (by decide) (by decide),
      fun x => nomatch x⟩
  | false =>
    have e : s.inward c f = s.boundaryCount c FENCE_DROP_CNT_ABSORBED := by unfold State.inward; rw [h, hg]; rfl
    rw [e]
    obtain ⟨a, b, d, g⟩ := s.boundaryCount_frame c FENCE_DROP_CNT_ABSORBED
    refine ⟨a, b, d, g, (fun x => nomatch x), fun _ hi => ?_⟩
    have e2 : s.boundaryCount c FENCE_DROP_CNT_ABSORBED = s.bump FENCE_DROP_CNT_ABSORBED c 0 := by unfold State.boundaryCount; rw [hi]; rfl
    rw [e2]
    exact State.bump_fld _ FENCE_DROP_CNT_ABSORBED _ (by decide) (by decide)

/-- A reply or wake that neither a fence nor a proxy absorbs reaches the core. -/
theorem State.inward_reaches (s : State) (c : Nat) (f : State → State) (h : s.answeredAhead c = false) : s.inward c f = f s := by
  unfold State.inward; rw [h]; rfl

end Sys2Proof.Machine
end

