-- ==== Sys2Proof/Laws/Memory.lean ====
section
/-!
SUPPORT. Memory, its tags and its error patterns: reads after writes, and the canonical form that every memory operation keeps.
-/
namespace Sys2Proof.Machine

/-! ### Reads after writes -/

@[simp] theorem State.byte_setByte_same (s : State) (a : Nat) (b : Byte) : (s.setByte a b).byte a = b := Sparse.get_set_same ..

theorem State.byte_setByte_other (s : State) {a x : Nat} (b : Byte) (n : x ≠ a) : (s.setByte a b).byte x = s.byte x :=
  Sparse.get_set_other _ _ _ _ n

theorem State.writeLE_other (s : State) (a n v x : Nat) (out : x < a ∨ a + n ≤ x) : (s.writeLE a n v).byte x = s.byte x := by
  induction n generalizing s a v with
  | zero => rfl
  | succ n ih =>
    rw [State.writeLE, ih _ _ _ (by omega)]
    exact State.byte_setByte_other s _ (by omega)

theorem State.writeMask_other (s : State) (a n m v x : Nat) (out : x < a ∨ a + n ≤ x) : (s.writeMask a n m v).byte x = s.byte x := by
  induction n generalizing s a m v with
  | zero => rfl
  | succ n ih =>
    rw [State.writeMask, ih _ _ _ _ (by omega)]
    split
    · exact State.byte_setByte_other s _ (by omega)
    · rfl

theorem State.writeBytes_other (s : State) (a : Nat) (l : List Nat) (x : Nat) (out : x < a ∨ a + l.length ≤ x) :
    (s.writeBytes a l).byte x = s.byte x := by
  induction l generalizing s a with
  | nil => rfl
  | cons b r ih =>
    simp only [List.length_cons] at out
    rw [State.writeBytes, ih _ _ (by omega)]
    exact State.byte_setByte_other s _ (by omega)

/-- A number written little-endian reads back, cut to its bytes. -/
theorem State.readLE_writeLE (s : State) (a n v : Nat) : (s.writeLE a n v).readLE a n = v % 2 ^ (8 * n) := by
  induction n generalizing s a v with
  | zero => simp [State.readLE, Nat.mod_one]
  | succ n ih =>
    rw [State.writeLE, State.readLE, ih, State.writeLE_other _ _ _ _ _ (by omega), State.byte_setByte_same]
    simp only [BitVec.toNat_ofNat]
    rw [show 2 ^ (8 * (n + 1)) = 2 ^ 8 * 2 ^ (8 * n) by rw [← pow_add]; congr 1; ring, Nat.mod_mul]
    norm_num

theorem State.byte_zeroBytes (s : State) (a n x : Nat) : (s.zeroBytes a n).byte x = if a ≤ x ∧ x < a + n then 0 else s.byte x := by
  unfold State.byte State.zeroBytes
  rw [Sparse.get_keep]
  by_cases h : a ≤ x ∧ x < a + n
  · simp [h]
  · simp [h]

/-! ### The canonical form -/

theorem State.setByte_canonical (s : State) (a : Nat) (b : Byte) (h : s.Canonical) : (s.setByte a b).Canonical :=
  ⟨Sparse.wf_set 0 _ _ _ h.1, h.2⟩

theorem State.setTag_canonical (s : State) (a t : Nat) (h : s.Canonical) : (s.setTag a t).Canonical :=
  ⟨h.1, Sparse.wf_set 0 _ _ _ h.2.1, h.2.2⟩

theorem State.setPat_canonical (s : State) (a p : Nat) (h : s.Canonical) : (s.setPat a p).Canonical :=
  ⟨h.1, h.2.1, Sparse.wf_set 0 _ _ _ h.2.2⟩

theorem State.zeroBytes_canonical (s : State) (a n : Nat) (h : s.Canonical) : (s.zeroBytes a n).Canonical :=
  ⟨Sparse.wf_keep 0 (fun k => decide (k < a) || decide (a + n ≤ k)) _ h.1, h.2⟩

theorem State.initBytes_canonical (s : State) (a n : Nat) (h : s.Canonical) : (s.initBytes a n).Canonical :=
  ⟨Sparse.wf_keep 0 (fun k => decide (k < a) || decide (a + n ≤ k)) _ h.1,
    Sparse.wf_keep 0 (fun k => decide (k < a / 8) || decide ((a + n) / 8 ≤ k)) _ h.2.1,
    Sparse.wf_keep 0 (fun k => decide (k < a / 32) || decide ((a + n) / 32 ≤ k)) _ h.2.2⟩

theorem State.writeLE_canonical (s : State) (a n v : Nat) (h : s.Canonical) : (s.writeLE a n v).Canonical := by
  induction n generalizing s a v with
  | zero => exact h
  | succ n ih => exact ih _ _ _ (s.setByte_canonical _ _ h)

theorem State.writeMask_canonical (s : State) (a n m v : Nat) (h : s.Canonical) : (s.writeMask a n m v).Canonical := by
  induction n generalizing s a m v with
  | zero => exact h
  | succ n ih =>
    refine ih _ _ _ _ ?_
    split
    · exact s.setByte_canonical _ _ h
    · exact h

theorem State.flipWord_canonical (s : State) (a p : Nat) (h : s.Canonical) : (s.flipWord a p).Canonical := by
  have fold : ∀ (l : List Nat) (f : State → Nat → State) (s : State), (∀ s i, s.Canonical → (f s i).Canonical) → s.Canonical → (l.foldl f s).Canonical := by
    intro l f
    induction l with
    | nil => exact fun _ _ h => h
    | cons x l ih => exact fun s g h => ih _ g (g _ _ h)
  have bytes := fold (List.range 32) (fun s i => s.setByte (a / 32 * 32 + i) (s.byte (a / 32 * 32 + i) ^^^ patSym p i)) s
    (fun s _ h => s.setByte_canonical _ _ h) h
  unfold State.flipWord
  simp only
  split
  · exact bytes
  · exact fold _ _ _ (fun s _ h => s.setTag_canonical _ _ h) bytes

theorem State.asRead_canonical (s : State) (a : Nat) (h : s.Canonical) : (s.asRead a).Canonical := by
  unfold State.asRead
  split
  · exact h
  · split
    · exact h
    · exact State.setPat_canonical _ _ _ (s.flipWord_canonical _ _ h)
  · split
    · exact h
    · exact State.setPat_canonical _ _ _ (s.flipWord_canonical _ _ h)

theorem State.writeBytes_canonical (s : State) (a : Nat) (l : List Nat) (h : s.Canonical) : (s.writeBytes a l).Canonical := by
  induction l generalizing s a with
  | nil => exact h
  | cons b r ih => exact ih _ _ (s.setByte_canonical _ _ h)

end Sys2Proof.Machine
end

