-- ==== Sys2Proof/Laws/SzCode.lean ====
section
/-!
SUPPORT. Lemmas on the SZ code: an error of one symbol is found with its place and value (R241, R242).
-/
namespace Sys2Proof.Machine

theorem xor_zero_byte (x : Byte) : x ^^^ 0 = x := by simp

theorem zero_xor_byte (x : Byte) : 0 ^^^ x = x := by simp

theorem gfX_zero : gfX 0 = 0 := by decide

theorem gfShift_zero (n : Nat) : gfShift 0 n = 0 := by
  induction n with
  | zero => rfl
  | succ n ih => rw [gfShift, ih, gfX_zero]

theorem gfShift_add (a : Byte) (m n : Nat) : gfShift (gfShift a m) n = gfShift a (m + n) := by
  induction n with
  | zero => rfl
  | succ n ih => rw [gfShift, ih]; rfl

/-- α^n × a is none of a, α × a, …, for n in reach of a code word. -/
def gfFree (a : Byte) : Nat → Byte → Bool
  | 0, _ => true
  | n + 1, t => gfX t != a && gfFree a n (gfX t)

theorem gfFree_spec {a t : Byte} {n k : Nat} (h : gfFree a n t = true) (hk : k < n) : gfShift t (k + 1) ≠ a := by
  induction n generalizing t k with
  | zero => omega
  | succ n ih =>
    simp only [gfFree, Bool.and_eq_true, bne_iff_ne] at h
    rcases k with _ | k
    · exact h.1
    · have := ih h.2 (k := k) (by omega)
      have e : gfShift (gfX t) (k + 1) = gfShift t (k + 2) := by
        have := gfShift_add t 1 (k + 1)
        simpa [gfShift, Nat.add_comm 1] using this
      rwa [e] at this

theorem gfFree_all : ∀ i : Fin 256, i = 0 ∨ gfFree (BitVec.ofFin i) 36 (BitVec.ofFin i) = true := by decide +kernel

theorem gfX_ne_zero : ∀ i : Fin 256, i = 0 ∨ gfX (BitVec.ofFin i) ≠ 0 := by decide +kernel

theorem gfShift_ne_zero {a : Byte} (h : a ≠ 0) (n : Nat) : gfShift a n ≠ 0 := by
  induction n with
  | zero => exact h
  | succ n ih =>
    rcases gfX_ne_zero (gfShift a n).toFin with g | g
    · exact absurd (BitVec.eq_of_toFin_eq g) ih
    · exact g

/-- Powers of α that differ by less than a code word is long take a symbol to different values. -/
theorem gfShift_inj {e : Byte} (he : e ≠ 0) {k m : Nat} (hk : k < m) (hm : m ≤ 36) : gfShift e k ≠ gfShift e m := by
  intro h
  have h0 := gfShift_ne_zero he k
  rcases gfFree_all (gfShift e k).toFin with g | g
  · exact h0 (BitVec.eq_of_toFin_eq g)
  · refine gfFree_spec g (k := m - k - 1) (by omega) ?_
    have := gfShift_add e k (m - k)
    rw [show m - k - 1 + 1 = m - k by omega]
    exact (this.trans (by rw [show k + (m - k) = m by omega])).trans h.symm

theorem szPlace_spec {e : Byte} (he : e ≠ 0) {m : Nat} (hm : m ≤ 36) (n k : Nat) (h1 : k ≤ m) (h2 : m < k + n) :
    szPlace (gfShift e m) (gfShift e (2 * m)) n (gfShift e k) (gfShift e (2 * k)) = some (n - 1 - (m - k)) := by
  induction n generalizing k with
  | zero => omega
  | succ n ih =>
    unfold szPlace
    by_cases h : k = m
    · subst h; simp
    · have ne := gfShift_inj he (show k < m by omega) hm
      have := ih (k + 1) (by omega) (by omega)
      simp only [ne, decide_false, Bool.false_and, Bool.false_eq_true, if_false]
      rw [show gfX (gfShift e k) = gfShift e (k + 1) from rfl, gfShift_add, show 2 * k + 2 = 2 * (k + 1) by omega, this]
      congr 1; omega

theorem szAt_zeros (j n : Nat) (a : Byte) : (List.replicate n (0 : Byte)).foldl (fun a s => gfShift a j ^^^ s) a = gfShift a (j * n) := by
  induction n generalizing a with
  | zero => rfl
  | succ n ih =>
    rw [List.replicate_succ, List.foldl_cons, ih, xor_zero_byte, gfShift_add]
    congr 1; rw [Nat.mul_succ]; omega

theorem patSym_symPat (i j : Nat) (e : Byte) : patSym (symPat i e) j = if j = i then e else 0 := by
  unfold patSym symPat
  apply BitVec.eq_of_toNat_eq
  have he := e.isLt
  rcases Nat.lt_trichotomy j i with h | h | h
  · obtain ⟨d, rfl⟩ := Nat.exists_eq_add_of_lt h
    rw [if_neg (by omega), show j + d + 1 = (d + 1) + j by omega, Nat.pow_add, ← Nat.mul_assoc, Nat.mul_div_cancel _ (by positivity), Nat.pow_succ,
      ← Nat.mul_assoc]
    simp
  · subst h
    rw [if_pos rfl, Nat.mul_div_cancel _ (by positivity)]
    simp
  · rw [if_neg (by omega), Nat.div_eq_of_lt]
    · simp
    · calc e.toNat * 256 ^ i < 256 * 256 ^ i := Nat.mul_lt_mul_of_pos_right (by omega) (by positivity)
        _ = 256 ^ (i + 1) := by rw [Nat.pow_succ, Nat.mul_comm]
        _ ≤ 256 ^ j := Nat.pow_le_pow_right (by omega) h

theorem patSyms_symPat {i : Nat} (hi : i < 37) (e : Byte) : patSyms (symPat i e) = List.replicate i 0 ++ e :: List.replicate (36 - i) 0 := by
  apply List.ext_getElem
  · simp [patSyms]; omega
  · intro k h1 h2
    simp only [patSyms, List.getElem_map, List.getElem_range, patSym_symPat, List.getElem_append, List.length_replicate]
    split_ifs with a b b
    · omega
    · subst a; simp
    · simp
    · rw [List.getElem_cons]; split_ifs with c
      · omega
      · simp

theorem szAt_symPat {i : Nat} (hi : i < 37) (e : Byte) (j : Nat) : szAt j (patSyms (symPat i e)) = gfShift e (j * (36 - i)) := by
  rw [patSyms_symPat hi, szAt, List.foldl_append, szAt_zeros, gfShift_zero, List.foldl_cons, gfShift_zero, zero_xor_byte, szAt_zeros]

/-- One symbol in error, in bits that are stored, is found with its place and value (R242). -/
theorem szFind_symPat {hbm : Bool} {i : Nat} (hi : i < 37) {e : Byte} (he : e ≠ 0) (hs : e &&& szStored hbm i = e) :
    szFind hbm (patSyms (symPat i e)) = .one i e := by
  have h := szPlace_spec he (m := 36 - i) (by omega) 37 0 (by omega) (by omega)
  have p : 37 - 1 - (36 - i - 0) = i := by omega
  simp only [gfShift, p] at h
  simp only [szFind, szAt_symPat hi, Nat.zero_mul, Nat.one_mul, gfShift, h, hs, if_pos]
  rw [if_neg (by simp; intro a; exact absurd a he), if_neg he]

end Sys2Proof.Machine
end

