-- ==== Sys2Proof/Laws/Words.lean ====
section
/-!
SUPPORT. What issuing a word does: the operation of a word that is carried out, a word whose guard is off, and a word of a thread that does not issue.
-/
namespace Sys2Proof.Machine

variable {s : State} {c t : Nat} {g : BitVec 4}

@[simp] theorem State.thr_reads (s : State) (c t : Nat) : (s.reads c t).thr c t = (s.begins c t).thr c t := State.thr_setTf ..

theorem State.thr_begins (s : State) (c t : Nat) : (s.begins c t).thr c t =
    { (s.tickIssue c t).thr c t with snap := (s.tickIssue c t).ctxOf c t } := State.thr_setThr_same ..

/-- A word that is carried out ends as its operation says. -/
theorem State.issue_runs (h : s.Runs c t g) (body : State → Fx) :
    s.issue c t g [] false false body = (s.reads c t).finish c t (s.begins c t) (body (s.reads c t)) := by
  have hp := h.fetched
  have hg := h.guard
  have hb := h.noBreak
  have hs := h.slotEnd
  simp only [State.thr_reads] at hs
  rw [State.thr_begins] at hp hg hb hs
  unfold State.issue
  have e : (s.tickIssue c t).setThr c t { (s.tickIssue c t).thr c t with snap := (s.tickIssue c t).ctxOf c t } = s.begins c t := rfl
  simp only [h.turn, ne_eq, not_true_eq_false, if_false, e]
  simp only at hp hg hb hs
  have r : (s.begins c t).setTf dstat_SKIP c t 0 = s.reads c t := rfl
  simp only [hg, hb, r, if_neg (Nat.not_le.2 hp), List.min?_nil, ite_true]
  cases hslot : ((s.tickIssue c t).thr c t).slot with
  | none => simp
  | some x => simp [hs (by simp [hslot])]

/-- A word whose operation completes. -/
theorem State.issue_done (h : s.Runs c t g) {body : State → Fx} {f : State → State} (e : body (s.reads c t) = .done (f (s.reads c t))) :
    s.issue c t g [] false false body = (f (s.reads c t)).after (s.reads c t) c t := by
  rw [s.issue_runs h, e]
  rfl

/-- A word that must not stand in a delay slot. -/
theorem State.issue_runsFree (h : s.RunsFree c t g) (body : State → Fx) :
    s.issue c t g [] true false body = (s.reads c t).finish c t (s.begins c t) (body (s.reads c t)) := by
  have hp := h.fetched
  have hg := h.guard
  have hb := h.noBreak
  have hs := h.noSlot
  simp only [State.thr_reads] at hs
  rw [State.thr_begins] at hp hg hb hs
  unfold State.issue
  have e : (s.tickIssue c t).setThr c t { (s.tickIssue c t).thr c t with snap := (s.tickIssue c t).ctxOf c t } = s.begins c t := rfl
  simp only [h.turn, ne_eq, not_true_eq_false, if_false, e]
  simp only at hp hg hb hs
  have r : (s.begins c t).setTf dstat_SKIP c t 0 = s.reads c t := rfl
  simp only [hg, hb, r, hs, if_neg (Nat.not_le.2 hp), List.min?_nil, ite_true]
  simp

/-- A branch. -/
theorem State.issue_runsBranch (h : s.RunsBranch c t g) (body : State → Fx) :
    s.issue c t g [] true true body = (s.reads c t).finish c t (s.begins c t) (body (s.reads c t)) := by
  have hp := h.fetched
  have hg := h.guard
  have hb := h.noBreak
  have hs := h.noSlot
  have he := h.noEnd
  simp only [State.thr_reads] at hs he
  rw [State.thr_begins] at hp hg hb hs he
  unfold State.issue
  have e : (s.tickIssue c t).setThr c t { (s.tickIssue c t).thr c t with snap := (s.tickIssue c t).ctxOf c t } = s.begins c t := rfl
  simp only [h.turn, ne_eq, not_true_eq_false, if_false, e]
  simp only at hp hg hb hs he
  have r : (s.begins c t).setTf dstat_SKIP c t 0 = s.reads c t := rfl
  simp only [hg, hb, r, hs, he, if_neg (Nat.not_le.2 hp), List.min?_nil, ite_true]
  simp

/-- A word of a thread that the issue slot does not choose does not issue: nothing changes (R105; notes/assumptions/6.md). -/
theorem State.issue_idle (s : State) (c t : Nat) (g : BitVec 4) (enc : List Nat) (ctl br : Bool) (body : State → Fx)
    (h : s.nextIssue c ≠ some t) : s.issue c t g enc ctl br body = s := by
  unfold State.issue
  simp [h]

/-- The thread that the issue slot chooses may issue, in a core that is out of reset and has power (R38, R105, R107). -/
theorem State.nextIssue_may (h : s.nextIssue c = some t) :
    s.mayIssue c t = true ∧ (s.core c).inReset = false ∧ s.gated (coreP c) (coreHalf c) = false := by
  unfold State.nextIssue at h
  split at h
  · exact absurd h (by simp)
  · rename_i n
    simp only [Bool.or_eq_true, not_or, Bool.not_eq_true] at n
    exact ⟨List.find?_some h, n⟩

end Sys2Proof.Machine
end

