-- ==== Sys2Proof/Tests/Slice0.lean ====
section
/-!
SUPPORT. Tests of the model: what WellFormed refuses, results taken from the rules' own tables and examples, and for each statement with hypotheses a
state and operands that meet them, clause by clause.
-/
namespace Sys2Proof.Tests

open Sys2Proof Sys2Proof.Machine

-- One thread elaborates these theorems: many at once hold many stacks.
set_option Elab.async false

/-! ### What WellFormed refuses -/

/-- An agent that names a thread and no core. -/
def noCoreAgent : Agent := ⟨true, true, 0, 0, none, some 0⟩

/-- The Keeper's agent. -/
def keeper : Agent := ⟨true, true, 0, 0, none, none⟩

theorem test_wf_agent : WellFormed (.imemPtrWrite noCoreAgent 0 0) = false ∧ WellFormed (.imemPtrWrite keeper 0 0) = true := by decide
theorem test_wf_optional_agent : WellFormed (.qpReset (some noCoreAgent) 0) = false ∧ WellFormed (.qpReset none 0) = true := by decide
theorem test_wf_pools : WellFormed (.portInitFrame 0 0 0 []) = false ∧ WellFormed (.portInitFrame 0 0 0 (List.replicate 8 0)) = true := by decide
theorem test_wf_frame : WellFormed (.linkDataFrame 0 true true (List.replicate 9217 0)) = false ∧
    WellFormed (.routedFrameReceive 0 true true false (List.replicate 9217 0)) = false := by decide +kernel
theorem test_wf_ring : WellFormed (.sqFetch 0 0 0 0 (List.replicate 9 0)) = false ∧ WellFormed (.ringAccessRetry 0 0 0 0 (List.replicate 9 0)) = false := by decide +kernel
theorem test_wf_verdicts : WellFormed (.switchProfile 0 0 []) = false ∧ WellFormed (.fullImageApply 0 []) = false ∧ WellFormed (.profileLoadEdge 0 []) = false := by
  decide
theorem test_wf_time : WellFormed (.ptpSync none 0 (BitVec.ofNat 96 (1000000000 * 65536))) = false ∧
    WellFormed (.ppsInEdge (BitVec.ofNat 96 (999999999 * 65536))) = true := by decide +kernel
theorem test_wf_message : WellFormed (.kmpDatagram false 0 none (List.replicate 1409 0)) = false ∧
    WellFormed (.getInfo ⟨.smbus, 0, none, none⟩ (List.replicate 1400 0)) = false := by decide +kernel
theorem test_wf_unlock : WellFormed (.debugUnlock [] true) = false ∧ WellFormed (.governorPeriod 0 0 (List.replicate 17 (0, 0))) = false := by decide
theorem test_decode_none : decodeTableWord 32 0 = none := rfl

/-! ### Words of a core, as the worked examples of R61 and R230 encode them, and one of each other group -/

/-- The operation of a word, or the detail of illegal. -/
def word (w : BitVec 32) : Option Instr × Nat :=
  match decodeCoreWord 5 2 w with
  | .ok i => (some i, 0)
  | .error d => (none, d)

theorem test_decode_pair : word 0x90C525C8 = (some (.pairIssue 5 2 0x90C525C8), 0) := by decide
theorem test_decode_add : word 0x00521A80 = (some (.intAddSub 5 2 false ⟨10, 5, 4, 6⟩), 0) := by decide
theorem test_decode_loop : word 0x36C64006 = (some (.loop 5 2 ⟨1, true, 100, 6⟩), 0) := by decide
theorem test_decode_acas : word 0x2C241009 = (some (.acas 5 2 true ⟨0, 2, 8, 4⟩), 0) := by decide
theorem test_decode_stf : word 0x2C961816 = (some (.stf 5 2 ⟨0, 9, 12, 6⟩), 0) := by decide
theorem test_decode_tset : word 0x3CA30C0C = (some (.tset 5 2 .sreg2 ⟨0, 10, 6, 3⟩), 0) := by decide
theorem test_decode_cmplt : word 0x0E33AFFB = (some (.cmpImm 5 2 ⟨3, 7, 0x2FFB⟩), 0) := by decide
/-- VFMA.f v3, v4, v5: MAJ 0x22, FN[5:3] 3, FN[2:0] 6. -/
theorem test_decode_vfma : word (0x44000000 + 0x300000 + 0x20000 + 0x1400 + 0x1E) = (some (.vfloat 5 2 3 6 ⟨0, 3, 4, 5⟩), 0) := by decide
/-- TLD.r t1, m3, [s4], s5: MAJ 0x31, A 0x19, FN 0x01. -/
theorem test_decode_tld : word (0x62000000 + 0x1900000 + 0x20000 + 0x1400 + 1) = (some (.tldR 5 2 ⟨0, 25, 4, 5⟩), 0) := by decide
/-- ALDX.ADD a2, m1, [s4]: MAJ 0x3A, FN 0x18; and the same word with FN[2:0] not zero (R198). -/
theorem test_decode_aldxAdd : word (0x74000000 + 0x100000 + 0x20000 + 0x800 + 0x18) = (some (.aldxAdd 5 2 ⟨0, 1, 4, 2⟩), 0) ∧
    word (0x74000000 + 0x100000 + 0x20000 + 0x800 + 0x19) = (none, 0x11) := by decide
/-- B −4 under p1, and a reserved major opcode and FN (R64, R103). -/
theorem test_decode_branch : word (0x30000000 + 0x1200000 + 0x1FFFFF) = (some (.b 5 2 ⟨9, BitVec.ofInt 21 (-1)⟩), 0) ∧ word 0x54000000 = (none, 1) ∧
    word 0x00000006 = (none, 1) := by decide

/-! ### The code of R240 to R242 -/

/-- A message of 34 symbols. -/
def message : List Byte := (List.range 34).map (fun i => BitVec.ofNat 8 (7 * i % 16))

theorem test_sz_encoded_is_clean : szFind false (szEncode message) = .clean := by decide +kernel
/-- One symbol wrong is found; two are detected. -/
theorem test_sz_errors : szFind false (List.zipWith (· ^^^ ·) (szEncode message) (patSyms (symPat 33 9))) = .one 33 9 ∧
    szFind false (List.zipWith (· ^^^ ·) (szEncode message) (patSyms (symPat 0 0x80 + symPat 36 1))) = .bad := by decide +kernel

/-! ### What a test asks -/

/-- The outcome is a next state of which p holds. -/
def nextHas (o : Host.Outcome State Fault Refusal) (p : State → Bool) : Bool :=
  match o with
  | .next u => p u
  | _ => false

theorem runs_of {s : State} {c t : Nat} {g : BitVec 4}
    (h : s.nextIssue c = some t ∧ ((s.begins c t).thr c t).pc < fetchLimit ((s.begins c t).world c t) ∧ guardHolds ((s.begins c t).thr c t).p g = true ∧
      (s.begins c t).breakAt c t ((s.begins c t).thr c t).pc = none ∧
      (((s.reads c t).thr c t).slot.isSome = true → (s.reads c t).atLoopEnd c t ((s.reads c t).thr c t).pc = false)) : s.Runs c t g :=
  ⟨h.1, h.2.1, h.2.2.1, h.2.2.2.1, h.2.2.2.2⟩

theorem settled_of {s : State} {c t : Nat}
    (h : ((s.reads c t).thr c t).stepReq = false ∧ (s.reads c t).tf dstat_SS c t = 0 ∧ ((s.reads c t).thr c t).flight = []) : s.Settled c t :=
  ⟨h.1, h.2.1, h.2.2⟩

theorem takesOwn_of {s : State} {c t : Nat}
    (h : (s.reads c t).tf wstat_EXL c t = 0 ∧ (s.reads c t).tf wstat_SELF c t = 1 ∧ ((s.reads c t).thr c t).shadow = 0 ∧ ((s.reads c t).thr c t).slot = none) :
    s.TakesOwn c t := ⟨h.1, h.2.1, h.2.2.1, h.2.2.2⟩

theorem ownBank_of {e : State} {c t off n : Nat} {write : Bool}
    (h : (off + n ≤ 0x40000 ∨ 0x100000 ≤ off ∧ off + n ≤ 0x300000 ∧ e.poolBacked c = false) ∧ (n = 1 ∨ n = 4 ∨ n = 8 ∨ n = 64) ∧ off % n = 0 ∧
      e.worldCheck c off (e.who c t) = none ∧ e.watchHit c t (BitVec.ofNat 64 (0xFFFF <<< 48 + bankAddr c off)) n (!write) write = none ∧
      (write = true → e.spillRefuses c off n (e.who c t) = false) ∧ e.portHeld c off = false ∧
      e.imageOrder c t (.bank c off) n write = false ∧ ∀ i < n, e.pat (bankAddr c off + i) = 0) : e.OwnBank c t off n write :=
  ⟨h.1, h.2.1, h.2.2.1, h.2.2.2.1, h.2.2.2.2.1, h.2.2.2.2.2.1, h.2.2.2.2.2.2.1, h.2.2.2.2.2.2.2.1, h.2.2.2.2.2.2.2.2⟩

/-! ### States of a core's words -/

/-- Thread 2 of core 5 is READY at address 0x400, takes its own exceptions, and its core, out of reset, is bound to plot 0. -/
def run : State :=
  (({ State.reset with cores := [(5, { inReset := false, threads := [(2, { st := .ready, pc := 0x400 })] })] } : State).setTf wstat_SELF 5 2 1).setFld
    CTX_BIND_BOUND 5 0 1

/-- With a scalar register of thread 2 set. -/
def setX (s : State) (n : Nat) (v : Word) : State := s.setThr 5 2 { s.thr 5 2 with x := Sparse.set 0 (s.thr 5 2).x n v }

/-- With thread 2 changed. -/
def withThr (s : State) (f : Thread → Thread) : State := s.setThr 5 2 (f (s.thr 5 2))

/-- With core 5 changed. -/
def withCore (s : State) (f : Core → Core) : State := s.setCore 5 (f (s.core 5))

/-- The fabric address of offset `off` of core 5's own window. -/
def own (off : Nat) : Word := BitVec.ofNat 64 (0xFFFF <<< 48 + bankAddr 5 off)

/-- Thread 2 at supervisor level. -/
def sup : State := run.setTf wstat_LEVEL 5 2 1

/-! ### The issue slot (R105) -/

/-- Threads 2 and 5 are READY, and thread 2 issued last. -/
theorem test_issue_wraps : (withCore (run.setThr 5 5 { st := .ready }) (fun k => { k with lastIssue := 2 })).nextIssue 5 = some 5 ∧
    (withCore (run.setThr 5 5 { st := .ready }) (fun k => { k with lastIssue := 5 })).nextIssue 5 = some 2 := by decide +kernel

/-! ### Witnesses: words of a thread -/

/-- Core 5 issues ADDI s3, s1, 5 at 0x400 in an idle cycle. -/
def fetching : State := withCore run (fun k => { k with imem := [(imemKey 0 0x100, 0x04308005)] })

theorem witness_StepTakesTheFrontCommand : fetching.nextIssue 5 = some 2 ∧
    (match decodeCoreWord 5 2 (fetching.fetchWord 5 ((fetching.tickIssue 5 2).world 5 2) ((fetching.tickIssue 5 2).thr 5 2).pc) with
      | .ok j => decide (j = .addi 5 2 ⟨3, 1, 5⟩)
      | .error _ => false) = true := by decide +kernel

theorem witness_runs : run.Runs 5 2 0 ∧ run.Settled 5 2 ∧ run.TakesOwn 5 2 ∧ run.Issues 5 2 :=
  ⟨runs_of (by decide +kernel), settled_of (by decide +kernel), takesOwn_of (by decide +kernel),
    ⟨by decide +kernel, by decide +kernel⟩⟩

/-- A domain whose drain has ended, and a module that drains. -/
def draining : State := (State.reset.setFld RESET_STAT_STATE 0 0 2).setFld RESET_STAT_INDEX 0 0 5

theorem witness_CoreResetClearsThreadRegisters :
    draining.fld RESET_STAT_STATE 0 0 = 2 ∧ 5 ∈ domCores 0 (draining.fld RESET_STAT_DOMAIN 0 0) (draining.fld RESET_STAT_INDEX 0 0) ∧
    ({ State.reset with kp := { State.reset.kp with modReset := 3 } } : State).kp.modReset = 3 := by decide +kernel

/-- Division of s1 by s2: a plain one, one by zero, and the one that overflows. -/
def dividing (b d : Word) : State := setX (setX run 1 b) 2 d

theorem witness_ScalarArithmeticCompletes : (dividing 7 2).Runs 5 2 0 ∧ ((dividing 7 2).reads 5 2).x 5 2 2 ≠ 0 :=
  ⟨runs_of (by decide +kernel), by decide +kernel⟩

theorem witness_DivisionEdgeCases : (dividing 7 0).Runs 5 2 0 ∧ ((dividing 7 0).reads 5 2).x 5 2 2 = 0 ∧
    (dividing 0x8000000000000000 0xFFFFFFFFFFFFFFFF).Runs 5 2 0 ∧
    (((dividing 0x8000000000000000 0xFFFFFFFFFFFFFFFF).reads 5 2).x 5 2 1).toInt = -2 ^ 63 ∧
    (((dividing 0x8000000000000000 0xFFFFFFFFFFFFFFFF).reads 5 2).x 5 2 2).toInt = -1 :=
  ⟨runs_of (by decide +kernel), by decide +kernel, runs_of (by decide +kernel), by decide +kernel, by decide +kernel⟩

theorem witness_ScalarRegistersHoldWhatIsWritten : run.Runs 5 2 0 ∧ run.Settled 5 2 := ⟨witness_runs.1, witness_runs.2.1⟩

theorem witness_PredicateWordsComplete : run.Runs 5 2 0 ∧ (7 : BitVec 5).toNat < 8 ∧ (1 : BitVec 5).toNat < 2 := ⟨witness_runs.1, by decide, by decide⟩

theorem witness_ImmediateWordsComplete : run.Runs 5 2 0 ∧ (7 : BitVec 5).toNat < 8 ∧
    (∀ k : Fin 4, (BitVec.ofNat 15 (k.val * 8192 + 63)).toNat / 64 % 128 = 0 ∧ (BitVec.ofNat 15 (k.val * 8192 + 63)).toNat / 8192 = k.val) ∧
    (∀ k : Fin 8, (BitVec.ofNat 15 (k.val * 4096 + 4095)).toNat / 4096 = k.val) := ⟨witness_runs.1, by decide +kernel⟩

theorem witness_IllegalFieldsAreTaken : run.Issues 5 2 ∧ (run.begins 5 2).breakAt 5 2 ((run.begins 5 2).thr 5 2).pc = none ∧ run.Settled 5 2 ∧
    run.TakesOwn 5 2 ∧ 8 ≤ (8 : BitVec 5).toNat ∧ 16 ≤ (16 : BitVec 5).toNat ∧ (64 : BitVec 15).toNat / 64 % 128 ≠ 0 :=
  ⟨witness_runs.2.2.2, by decide +kernel, witness_runs.2.1, witness_runs.2.2.1, by decide⟩

theorem witness_WordsWithoutEffect : run.Settled 5 2 ∧ run.Skips 5 2 8 ∧ ((run.reads 5 2).thr 5 2).slot = none ∧ run.nextIssue 5 ≠ some 1 ∧
    run.nextIssue 6 ≠ some 0 ∧ (run.setFld HALF_RAIL_STATUS_STATE 0 0 2).nextIssue 5 ≠ some 2 ∧
    (run.setThr 5 1 { st := .ready }).nextIssue 5 ≠ some 2 :=
  ⟨witness_runs.2.1, ⟨witness_runs.2.2.2, by decide +kernel⟩, by decide +kernel⟩

theorem witness_RegisterWordsChangeOnlyTheirCore : ∀ j < 8, (∀ p x, (run.thr 5 j).wait ≠ .pair p x) ∧
    ∀ g ∈ (run.thr 5 j).flight, ∀ n b, g.dest = .sreg n b → (sregAt n).map (·.1) ≠ some .ccfg := fun j hj => by
  have h : ∀ j < 8, (run.thr 5 j).wait = .none ∧ (run.thr 5 j).flight = [] := by decide +kernel
  rw [(h j hj).1, (h j hj).2]
  exact ⟨fun _ _ => Wait.noConfusion, fun _ hg => absurd hg (List.not_mem_nil)⟩

/-- s1 holds the address of offset `off` of the own window, and memory there holds bytes. -/
def atOwn (off : Nat) : State := (setX (setX (setX run 1 (own off)) 2 0x8899AABBCCDDEEFF) 3 (own off - 0x4000)).writeLE (bankAddr 5 off) 16 0x0102030405060708090A0B0C0D0E0FF1

theorem witness_OwnBankLoadsAndStoresComplete : (atOwn 0x3BFF8).Runs 5 2 0 ∧ (atOwn 0x3BFF8).Settled 5 2 ∧
    ((atOwn 0x3BFF8).reads 5 2).x 5 2 1 + (0 : BitVec 15).signExtend 64 = BitVec.ofNat 64 (0xFFFF <<< 48 + bankAddr 5 0x3BFF8) ∧
    ((atOwn 0x3BFF8).reads 5 2).OwnBank 5 2 0x3BFF8 8 true ∧ ((atOwn 0x3BFF8).reads 5 2).OwnBank 5 2 0x3BFF8 4 false ∧
    ((atOwn 0x2FFFF8).reads 5 2).OwnBank 5 2 0x2FFFFF 1 true :=
  ⟨runs_of (by decide +kernel), settled_of (by decide +kernel), by decide +kernel, ownBank_of (by decide +kernel), ownBank_of (by decide +kernel),
    ownBank_of (by decide +kernel)⟩

/-- Mailbox 3 of thread 2 in a state. -/
def box (st : MbState) : State := withThr sup (fun h => h.setMbox 3 { st := st, val := 0x1234 })

theorem witness_MailboxWordsComplete : (atOwn 0x100000).Runs 5 2 0 ∧ ((((atOwn 0x100000).reads 5 2).thr 5 2).mbox 3).st = .empty ∧
    ((atOwn 0x100000).reads 5 2).x 5 2 1 = BitVec.ofNat 64 (0xFFFF <<< 48 + bankAddr 5 0x100000) ∧ ((atOwn 0x100000).reads 5 2).OwnBank 5 2 0x100000 8 false ∧
    (box .full).Runs 5 2 0 ∧ (∃ n < 4, 8 / 2 ^ n % 2 = 1 ∧ ((((box .full).reads 5 2).thr 5 2).mbox n).st = .full) ∧
    (((((box .error).reads 5 2).thr 5 2).mbox 3).st ≠ .pending ∧ ((box .error).reads 5 2).level 5 2 = 1) :=
  ⟨runs_of (by decide +kernel), by decide +kernel, by decide +kernel, ownBank_of (by decide +kernel), runs_of (by decide +kernel), ⟨3, by decide +kernel⟩,
    by decide +kernel⟩

/-- Two return addresses on the stack, and s1 a branch target, aligned or not. -/
def branching (target : Word) : State := withThr (setX run 1 target) (fun h => { h with rstack := [0x80, 0x84] })

theorem witness_BranchesComplete : (branching 0x10040).RunsBranch 5 2 0 ∧ (branching 0x10040).Settled 5 2 ∧
    ((0 : Nat) : Int) = (((branching 0x10040).reads 5 2).thr 5 2).pc + 4 * (BitVec.ofInt 21 (-0x100)).toInt ∧
    (((branching 0x10040).reads 5 2).thr 5 2).rstack = 0x80 :: [0x84] ∧ (((branching 0x10040).reads 5 2).x 5 2 1).toNat % 65536 % 4 = 0 ∧
    (branching 0x10042).TakesOwn 5 2 ∧ (branching 0x10042).RunsBranch 5 2 0 ∧ (((branching 0x10042).reads 5 2).x 5 2 1).toNat % 65536 % 4 ≠ 0 :=
  ⟨⟨⟨runs_of (by decide +kernel), by decide +kernel⟩, by decide +kernel⟩, settled_of (by decide +kernel), by decide +kernel, by decide +kernel, by decide +kernel,
    takesOwn_of (by decide +kernel), ⟨⟨runs_of (by decide +kernel), by decide +kernel⟩, by decide +kernel⟩, by decide +kernel⟩

theorem witness_LoopWordsComplete : run.RunsFree 5 2 0 ∧ run.Settled 5 2 ∧ (run.reads 5 2).tf lstat_ACTIVE 5 2 = 0 ∧
    (run.reads 5 2).atLoopEnd 5 2 ((run.reads 5 2).thr 5 2).pc = false ∧
    (((run.reads 5 2).thr 5 2).pc % 4 = 0 ∧ ((run.reads 5 2).x 5 2 1).toNat % 2 ^ 32 = 0) ∧ (3 : BitVec 5).toNat < 4 :=
  ⟨⟨witness_runs.1, by decide +kernel⟩, witness_runs.2.1, by decide +kernel⟩

/-- Saved registers that a return may restore (R131). -/
def returning : State := ((sup.setTf estat_SAVED 5 2 0x20).setTf epc_ADDR 5 2 0x33).setTf estat_SHADOW 5 2 2

theorem witness_SystemAndStateRegisterWordsComplete : returning.RunsFree 5 2 0 ∧ returning.Settled 5 2 ∧ returning.Taken 5 2 ∧
    ((returning.reads 5 2).thr 5 2).shadow = 0 ∧ (returning.reads 5 2).level 5 2 = 1 ∧
    (returning.reads 5 2).tf estat_SAVED 5 2 / 2 % 2 = (returning.reads 5 2).world 5 2 ∧ (returning.reads 5 2).tf estat_RSVD 5 2 = 0 ∧
    (returning.reads 5 2).tf estat_SHADOW 5 2 ≠ 3 ∧ (∃ p, sregAt 0 = some p ∧ p.1.varies = false) ∧
    ((returning.setTf wstat_WORLD 5 2 1).Runs 5 2 0 ∧ (∃ i, sregAt 80 = some (.ccfg, i)) ∧ ((returning.setTf wstat_WORLD 5 2 1).reads 5 2).level 5 2 = 1 ∧
      ((returning.setTf wstat_WORLD 5 2 1).reads 5 2).world 5 2 = 1 ∧ ((returning.setTf wstat_WORLD 5 2 1).reads 5 2).fld ccfg_EN 5 0 = 1 ∧
      (((returning.setTf wstat_WORLD 5 2 1).reads 5 2).x 5 2 1).toNat % 2 = 0) :=
  ⟨⟨runs_of (by decide +kernel), by decide +kernel⟩, settled_of (by decide +kernel), (by decide +kernel : (returning.reads 5 2).tf wstat_EXL 5 2 = 0), by decide +kernel,
    by decide +kernel, by decide +kernel, by decide +kernel, by decide +kernel, ⟨_, rfl, by decide +kernel⟩, runs_of (by decide +kernel), ⟨0, by decide +kernel⟩,
    by decide +kernel⟩

/-- Thread 4 of core 5 in a state, and s1 its start address. -/
def other (st : TState) : State := (setX sup 1 0x44).setThr 5 4 { st := st, pc := 0x88 }

/-- A return stack of three, a spill pointer and a count of spilled entries. -/
def spilling (lo : Nat) : State :=
  withThr (((sup.setTf wstat_WORLD 5 2 1).setTf rspill_PTR 5 2 lo).setTf rstat_SPILLED 5 2 3) (fun h => { h with rstack := [0x10, 0x20, 0xFFFC] })

theorem witness_ThreadControlAndSpillWordsComplete : (other .stopped).Runs 5 2 0 ∧ (other .stopped).Settled 5 2 ∧
    (((other .stopped).reads 5 2).level 5 2 = 1 ∧ ((other .stopped).reads 5 2).world 5 4 = ((other .stopped).reads 5 2).world 5 2 ∧
      (((other .stopped).reads 5 2).x 5 2 1).toNat % 4 = 0 ∧ (((other .stopped).reads 5 2).thr 5 4).st = .stopped ∧
      (((other .suspended).reads 5 2).thr 5 4).st = .suspended ∧ (((other .ready).reads 5 2).thr 5 4).st = .ready) ∧
    (spilling 0x7FFE).Runs 5 2 0 ∧ (spilling 0x7FFE).Settled 5 2 ∧ (((spilling 0x7FFE).reads 5 2).tf rspill_PTR 5 2 + 1 < 2 ^ 15 ∧
      ((spilling 0x7FFE).reads 5 2).tf rsreg_EN 5 2 = 0 ∧ ((spilling 0x7FFE).reads 5 2).pat (bankAddr 5 (8 * 0x7FFE)) = 0 ∧
      ((spilling 0x7FFE).reads 5 2).worldCheck 5 (0x7FFE * 8) (((spilling 0x7FFE).reads 5 2).who 5 2) = none ∧
      ((spilling 0x7FFE).reads 5 2).worldCheck 5 (0x7FFD * 8) (((spilling 0x7FFE).reads 5 2).who 5 2) = none ∧
      ((spilling 0x7FFE).reads 5 2).spillForeign 5 2 (0x7FFE * 8) 8 = false ∧
      (((spilling 0x7FFE).reads 5 2).thr 5 2).rstack = [0x10, 0x20] ++ [0xFFFC] ∧ 0 < ((spilling 0x7FFE).reads 5 2).tf rstat_SPILLED 5 2) :=
  ⟨runs_of (by decide +kernel), settled_of (by decide +kernel), by decide +kernel, runs_of (by decide +kernel), settled_of (by decide +kernel), by decide +kernel⟩

theorem witness_OwnBankAtomicsComplete : (atOwn 0x2FFFF8).Runs 5 2 0 ∧ (atOwn 0x2FFFF8).Settled 5 2 ∧
    ((atOwn 0x2FFFF8).reads 5 2).x 5 2 1 = BitVec.ofNat 64 (0xFFFF <<< 48 + bankAddr 5 0x2FFFF8) ∧ ∀ write, ((atOwn 0x2FFFF8).reads 5 2).OwnBank 5 2 0x2FFFF8 8 write :=
  ⟨runs_of (by decide +kernel), settled_of (by decide +kernel), by decide +kernel,
    fun w => by cases w; exact ownBank_of (by decide +kernel); exact ownBank_of (by decide +kernel)⟩

/-- An own word with a tag. -/
def tagged (tag : Nat) : State := (atOwn 0x100000).setTag (bankAddr 5 0x100000) tag

/-- s1 holds an address of core 7's scratch, s2 the counts of a contribution. -/
def contributing : State := setX (setX run 1 (BitVec.ofNat 64 (0xFFFF <<< 48 + bankAddr 7 0x40))) 2 0x123456789A

/-- s1 holds an address of module 9, whose virtual ID the core's translation cache holds. -/
def sending : State :=
  let s := setX (run.setFld MODULE_ID_ID 0 0 3) 1 (BitVec.ofNat 64 (9 <<< 48 + bankAddr 7 0x40))
  { s with kp := { s.kp with tx := [(5, [{ plot := 0, mid := true, vbase := 9, size := 1, target := 9, w := true, sup := false }])] } }

/-- The same with an access of the core in flight to the bytes that s1 names. -/
def overlapping : State := withCore contributing (fun k => { k with
  flying := [{ key := .write 1 0, mem := 7, off := 0x40, len := 8, parts := [0] }] })

theorem witness_FullEmptyAndRequestWordsComplete_waits :
    (contributing.reads 5 2).watchHit 5 2 ((contributing.reads 5 2).x 5 2 1) 64 false true = none ∧
    (sending.reads 5 2).watchHit 5 2 ((sending.reads 5 2).x 5 2 1) 8 false true = none ∧ (contributing.reads 5 2).inFlight 5 ((contributing.reads 5 2).x 5 2 1) 64 = false ∧
    (overlapping.reads 5 2).inFlight 5 ((overlapping.reads 5 2).x 5 2 1) 64 = true ∧
    (∀ y ∈ ((overlapping.reads 5 2).core 5).flying, y.held = true → y.key ≠ .write 2 ((overlapping.reads 5 2).thr 5 2).nextW) := by decide +kernel

/-- R326: the access that overlaps one in flight waits in the core and leaves once that one is acknowledged. -/
theorem test_overlap_waits : ((overlapping.depart 5 (.word 2) (overlapping.x 5 2 1) 8 [0] [7]).sent.length = overlapping.sent.length) ∧
    ((overlapping.depart 5 (.word 2) (overlapping.x 5 2 1) 8 [0] [7]).acked 5 1 0).sent = overlapping.sent ++ [⟨.request, [7]⟩] := by decide +kernel

theorem witness_FullEmptyAndRequestWordsComplete : (tagged 5).Runs 5 2 0 ∧ (tagged 5).Settled 5 2 ∧
    ((tagged 5).reads 5 2).x 5 2 1 = BitVec.ofNat 64 (0xFFFF <<< 48 + bankAddr 5 0x100000) ∧ (∀ write, ((tagged 5).reads 5 2).OwnBank 5 2 0x100000 8 write) ∧
    4 ≤ ((tagged 5).reads 5 2).tag (bankAddr 5 0x100000) ∧ ((tagged 3).reads 5 2).tag (bankAddr 5 0x100000) < 4 ∧
    contributing.Runs 5 2 0 ∧ contributing.Settled 5 2 ∧ (((contributing.reads 5 2).x 5 2 1).toNat % 64 = 0 ∧
      (contributing.reads 5 2).translateWord ((contributing.reads 5 2).who 5 2) ((contributing.reads 5 2).x 5 2 1) true = .to (.bank 7 0x40) ∧
      (contributing.reads 5 2).translateWord ((contributing.reads 5 2).who 5 2) ((contributing.reads 5 2).x 5 2 1) false = .to (.bank 7 0x40) ∧
      inCoreWindow (((contributing.reads 5 2).x 5 2 1).toNat % 2 ^ 48) = true ∧ ((contributing.reads 5 2).core 5).cache = [] ∧ ((contributing.reads 5 2).core 5).wbs = [] ∧
      (contributing.reads 5 2).world 5 2 = 0 ∧ (contributing.reads 5 2).fld DET_CNT_FASTPOT 5 0 < 65535) ∧
    sending.Runs 5 2 0 ∧ sending.Settled 5 2 ∧ ((sending.reads 5 2).translateWord ((sending.reads 5 2).who 5 2) ((sending.reads 5 2).x 5 2 1) true =
      .to (.remote 9 (bankAddr 7 0x40)) ∧ (sending.reads 5 2).localPlace (bankAddr 7 0x40) = .bank 7 0x40 ∧ ((sending.reads 5 2).thr 5 2).wrfOut = none ∧
      ((sending.reads 5 2).core 5).cache = [] ∧ ((sending.reads 5 2).core 5).wbs = []) :=
  ⟨runs_of (by decide +kernel), settled_of (by decide +kernel), by decide +kernel,
    fun w => by cases w; exact ownBank_of (by decide +kernel); exact ownBank_of (by decide +kernel), by decide +kernel, by decide +kernel,
    runs_of (by decide +kernel), settled_of (by decide +kernel), by decide +kernel, runs_of (by decide +kernel), settled_of (by decide +kernel), by decide +kernel⟩

/-- Writes of thread 2 that are not acknowledged. -/
def writing : State := withThr run (fun h => { h with outw := [⟨1, 2⟩, ⟨3, 1⟩], nextW := 3 })

theorem witness_WaitAndPairWordsComplete : writing.Runs 5 2 0 ∧ writing.Settled 5 2 ∧
    ((∀ x ∈ ((writing.reads 5 2).thr 5 2).outw, ¬(x.id < ((writing.reads 5 2).thr 5 2).nextW ∧ x.scope ≤ 1)) ∧
      ∃ x ∈ ((writing.reads 5 2).thr 5 2).outw, x.id < ((writing.reads 5 2).thr 5 2).nextW ∧ x.scope ≤ 3) ∧ (15 : Fin 16) ≠ 0 :=
  ⟨runs_of (by decide +kernel), settled_of (by decide +kernel), by decide +kernel⟩

/-- The cache of core 5 holds one line, of the HBM address in s1; s2 is the length of a range. -/
def caching (x : CEntry) (len : Nat) : State :=
  withCore (setX (setX run 1 (BitVec.ofNat 64 (0xFFFF <<< 48 + hbmAddr 0 0x1000))) 2 (BitVec.ofNat 64 len)) (fun k => { k with cache := [x] })

/-- The line that `caching` holds. -/
def line : CEntry := { line := (0xFFFF <<< 48 + hbmAddr 0 0x1000) / 64, world := 0, valid := 3 }

theorem witness_CacheWordsComplete : (caching line 1).Runs 5 2 0 ∧ (caching line 1).Settled 5 2 ∧
    (((caching line 1).reads 5 2).x 5 2 2).toNat = 1 ∧ (((caching line 0).reads 5 2).x 5 2 2).toNat = 0 ∧ (((caching line 1).reads 5 2).core 5).cache = [line] ∧
    line.line = ((caching line 1).reads 5 2).lineOf (((caching line 1).reads 5 2).x 5 2 1) ∧ (((caching line 1).reads 5 2).core 5).side = [] ∧
    (((caching line 1).reads 5 2).core 5).wbs = [] ∧ ((caching line 1).reads 5 2).fld ccfg_EN 5 0 = 1 ∧ 0 < ((caching line 1).reads 5 2).fld ccfg_LOCKMAX 5 0 ∧
    ((((caching line 1).setFld ccfg_EN 5 0 0).reads 5 2).fld ccfg_EN 5 0 = 0 ∧ line.valid ≠ 0 ∧ ({ line with dirty := 1 } : CEntry).dirty ≠ 0) ∧
    (((caching { line with valid := BitVec.allOnes 64 } 1).setTf wstat_WORLD 5 2 1).reads 5 2).check 5 2 (lineAddr line.line) 64 true false false = .ok (.hbm 0 0x1000) :=
  ⟨runs_of (by decide +kernel), settled_of (by decide +kernel), by decide +kernel⟩

/-- The cache of `caching` is empty, with prefetching on, and its thread a Keeper thread. -/
def empty : State := (withCore (caching line 1) (fun k => { k with cache := [] })).setFld ccfg_PFEN 5 0 1 |>.setTf wstat_WORLD 5 2 1

theorem witness_CacheWordsComplete_misses : empty.Runs 5 2 0 ∧ empty.Settled 5 2 ∧ (((empty.reads 5 2).x 5 2 2).toNat = 1 ∧ ((empty.reads 5 2).core 5).cache = [] ∧
      ((empty.reads 5 2).core 5).side = [] ∧ ((empty.reads 5 2).core 5).dropped = [] ∧ (empty.reads 5 2).fld ccfg_EN 5 0 = 1 ∧ (empty.reads 5 2).fld ccfg_PFEN 5 0 = 1 ∧
      (empty.reads 5 2).check 5 2 (lineAddr ((empty.reads 5 2).lineOf ((empty.reads 5 2).x 5 2 1))) 64 true false false = .ok (.hbm 0 0x1000) ∧
      (Place.hbm 0 0x1000).isOwnBank 5 (lineAddr ((empty.reads 5 2).lineOf ((empty.reads 5 2).x 5 2 1))) = false ∧
      (empty.reads 5 2).translate ((empty.reads 5 2).who 5 2) ((empty.reads 5 2).x 5 2 1) false = .to (.hbm 0 0x1000)) :=
  ⟨runs_of (by decide +kernel), settled_of (by decide +kernel), by decide +kernel⟩

/-! ### Witnesses: the vector, tile and matrix units -/

theorem witness_VectorIntegerWordsComplete : run.Runs 5 2 0 ∧ (3 : BitVec 3).toNat < 4 ∧ (15 : BitVec 5).toNat < 16 := ⟨witness_runs.1, by decide, by decide⟩

theorem witness_VectorFloatWordsComplete : run.Runs 5 2 0 ∧ (15 : BitVec 5).toNat < 16 ∧ 4 ≤ (6 : BitVec 3).toNat ∧ (6 : BitVec 3).toNat < 7 ∧
    (3 : BitVec 3).toNat < 4 := ⟨witness_runs.1, by decide, by decide, by decide, by decide⟩

theorem witness_VectorMoveAndMemoryWordsComplete : (atOwn 0x3BFC0).Runs 5 2 0 ∧ (atOwn 0x3BFC0).Settled 5 2 ∧ (6 : BitVec 3).toNat < 7 ∧
    ((atOwn 0x3BFC0).reads 5 2).x 5 2 1 + ((atOwn 0x3BFC0).reads 5 2).x 5 2 9 = BitVec.ofNat 64 (0xFFFF <<< 48 + bankAddr 5 0x3BFC0) ∧
    (∀ write, ((atOwn 0x3BFC0).reads 5 2).OwnBank 5 2 0x3BFC0 64 write) ∧ ∀ write, ((atOwn 0x2FFFC0).reads 5 2).OwnBank 5 2 0x2FFFC0 64 write :=
  ⟨runs_of (by decide +kernel), settled_of (by decide +kernel), by decide, by decide +kernel,
    fun w => by cases w; exact ownBank_of (by decide +kernel); exact ownBank_of (by decide +kernel),
    fun w => by cases w; exact ownBank_of (by decide +kernel); exact ownBank_of (by decide +kernel)⟩

/-- A tile configuration: 16 rows of 16 bytes in format 1, held by thread 2 alone (R155). -/
def config : Word := BitVec.ofNat 64 (16 + 16 * 2 ^ 8 + 2 ^ 16 + 2 ^ 23 + 2 * 2 ^ 27)

/-- Tiles 0 and 1 configured so, every row of them valid but row 15 of tile 0, and accumulator 0 of the mode's type. -/
def tiled : State :=
  withCore ((setX run 1 config).setReg .tcfg 5 0 config |>.setReg .tcfg 5 1 config)
    (fun k => { k with tiles := [(0, { valid := 0x7FFF }), (1, { valid := 0xFFFF })], accs := [(0, { typ := 1 })] })

/-- A transfer of thread 2 to mailbox 3, with rows still to request and rows on their way; a Keeper thread's, from an HBM stack. -/
def moving (store : Bool) (todo out : List Nat) : State :=
  withCore (run.setTf wstat_WORLD 5 2 1) (fun k => { k with xfers :=
    [{ tile := 0, thread := 2, world := 1, store := store, base := BitVec.ofNat 64 (0xFFFF <<< 48 + hbmAddr 3 0), stride := 0, mb := 3, todo := todo, out := out }] })

theorem witness_TileConfigurationAndRowEventsComplete : tiled.Runs 5 2 0 ∧ tiled.Settled 5 2 ∧
    (((tiled.reads 5 2).core 5).busyBy 0 = none ∧ ((tiled.reads 5 2).core 5).busyBy 7 = none ∧
      (tiled.reads 5 2).tcfgDetail 5 2 7 ((tiled.reads 5 2).x 5 2 1) = none ∧ bitsOf ((tiled.reads 5 2).x 5 2 1) 6 0 ≠ 0 ∧
      (tiled.reads 5 2).tcfgDetail 5 2 0 ((tiled.reads 5 2).x 5 2 9) = none ∧ bitsOf ((tiled.reads 5 2).x 5 2 9) 6 0 = 0 ∧
      (tiled.reads 5 2).world 5 2 < 2 ∧ (tiled.reads 5 2).tRows 5 0 ≠ 0 ∧ (tiled.reads 5 2).tileMine 5 2 0 = true) ∧
    ((moving false [63] []).fld RTR_REDIR_EN 5 0 = 0 ∧ (moving false [63] []).answeredAhead 5 = false ∧ ((moving false [63] []).core 5).cache = [] ∧ ((moving false [63] []).core 5).wbs = [] ∧
      ∃ x, ((moving false [63] []).core 5).xfers = [x] ∧ (moving false [63] []).rowPlace 5 ((moving false [63] []).xferWho 5 x)
        (BitVec.ofNat 64 (0xFFFF <<< 48 + hbmAddr 3 0) + 0 * BitVec.ofNat 64 63) ((moving false [63] []).rowLen 5 0) false = .to (.hbm 3 0) ∧ x.thread = (2 : ThreadId) ∧ x.mb = (3 : Fin 4) ∧ x.fail = none ∧ x.todo = [63] ∧ x.out = []) ∧
    (∃ x, ((moving false [] [63, 0]).core 5).xfers = [x] ∧ x.store = false ∧ x.todo = [] ∧ x.out = [63, 0]) ∧
    (∃ x, ((moving true [] [63, 0]).core 5).xfers = [x] ∧ x.store = true ∧ x.todo = [] ∧ x.out = [63, 0]) :=
  ⟨runs_of (by decide +kernel), settled_of (by decide +kernel), by decide +kernel,
    ⟨by decide +kernel, by decide +kernel, by decide +kernel, by decide +kernel, _, rfl, by decide +kernel⟩, ⟨_, rfl, by decide +kernel⟩, ⟨_, rfl, by decide +kernel⟩⟩

/-- A TLD of thread 2 on tile 0 with a row still to request, to its mailbox 3. -/
def aTld (out : List Nat) : TileXfer := { tile := 0, thread := 2, store := false, base := 0, stride := 0, mb := 3, todo := [15], out := out }

/-- Core 5 with that transfer. -/
def quitting (out : List Nat) : State := withThr (withCore tiled (fun k => { k with xfers := [aTld out] })) (fun h => h.setMbox 3 { st := .pending })

theorem witness_TileMoveWordsComplete_quit : (quitting []).Runs 5 2 0 ∧ (quitting []).Settled 5 2 ∧
    (∀ out ∈ [[], [14]], (((quitting out).reads 5 2).core 5).xfers = [aTld out] ∧ (aTld out).fail = none ∧ (aTld out).todo ≠ []) ∧
    ((((quitting []).reads 5 2).thr 5 2).mbox 3).st = .pending ∧ (((quitting []).reads 5 2).thr 5 2).st = .ready :=
  ⟨runs_of (by decide +kernel), settled_of (by decide +kernel), by decide +kernel⟩

theorem witness_TileMoveWordsComplete : tiled.Runs 5 2 0 ∧ tiled.Settled 5 2 ∧ (((tiled.reads 5 2).core 5).xfers = [] ∧
      (((tiled.reads 5 2).thr 5 2).mbox 3).st = .empty ∧ (tiled.reads 5 2).tRows 5 0 ≠ 0 ∧ (tiled.reads 5 2).tileMine 5 2 0 = true ∧
      ((tiled.reads 5 2).x 5 2 2).toNat % 4 = 0 ∧ ((tiled.reads 5 2).myRows 5 2 0).length = 16) ∧
    (((tiled.reads 5 2).myRows 5 2 0).filter (fun r => !decide ((((tiled.reads 5 2).core 5).tile 0).valid.toNat / 2 ^ r % 2 = 1)) = [15] ∧
      ((tiled.reads 5 2).myRows 5 2 0).filter (fun r => decide ((((tiled.reads 5 2).core 5).tile 0).valid.toNat / 2 ^ r % 2 = 1)) ≠ [] ∧
      (tiled.reads 5 2).fld tcfg_BASE 5 0 + 14 % (tiled.reads 5 2).fld tcfg_GANG 5 0 = 2 ∧ scaleBytes 8 32 ≠ 0) :=
  ⟨runs_of (by decide +kernel), settled_of (by decide +kernel), by decide +kernel⟩

/-- The front of the matrix queue holds an AZERO of accumulator 0 that runs or not; the shadow checker has counted 64 operations; an image access of
thread 2 has ended well. -/
def zeroing (running : Bool) : MEntry :=
  { op := .azero, acc := 0, thread := 2, pc := 0x400, mode := 0, typ := 1, world := 0, issWorld := 0, running := running }

/-- Core 5 with that entry. -/
def queueing (running : Bool) : State :=
  withThr (withCore run (fun k => { k with mq := [zeroing running], shadowCnt := 64, images := [⟨2, 3, some 0, none, false⟩] })) (fun h => h.setMbox 3 { st := .pending })

theorem witness_MatrixWordsAndEventsComplete : tiled.Runs 5 2 0 ∧ tiled.Settled 5 2 ∧ (((tiled.reads 5 2).core 5).mq.length < 4 ∧
      (tiled.reads 5 2).mmaDetail 5 2 0 1 1 0 0 false false = none ∧ (tiled.reads 5 2).acvtDetail 5 2 0 0 0 0 = none ∧
      (((tiled.reads 5 2).core 5).acc 3).typ = 0 ∧ (((tiled.reads 5 2).core 5).acc 0).typ = 1 ∧ (((tiled.reads 5 2).core 5).acc 0).world ≠ 1 ∧
      (tiled.reads 5 2).modeNow 5 2 % 2 = 0 ∧ ((tiled.reads 5 2).x 5 2 2).toNat % 64 = 0 ∧ (((tiled.reads 5 2).thr 5 2).mbox 3).st = .empty ∧
      ((tiled.reads 5 2).thr 5 2).wrfOut = none ∧ ∀ y ∈ ((tiled.reads 5 2).core 5).mq, y.thread ≠ 2) ∧
    (((queueing false).core 5).mq = [zeroing false] ∧ ((queueing true).core 5).mq = [zeroing true] ∧ (zeroing true).op = .azero ∧
      ((queueing false).core 5).images = [⟨2, 3, some 0, none, false⟩] ∧ (((queueing false).thr 5 2).mbox 3).st = .pending ∧ ((queueing false).thr 5 2).st = .ready ∧
      ((queueing false).core 5).shadowArm = false ∧ ((queueing false).core 5).shadowOp = none ∧ 64 ≤ ((queueing false).core 5).shadowCnt) ∧
    (∃ op, ((withCore run (fun k => { k with shadowOp := some ⟨zeroing false, [], [], {}⟩ })).core 5).shadowOp = some op ∧
      ((withCore run (fun k => { k with shadowOp := some ⟨zeroing false, [], [], {}⟩ })).core 5).mq = []) :=
  ⟨runs_of (by decide +kernel), settled_of (by decide +kernel), by decide +kernel, by decide +kernel, ⟨_, rfl, by decide +kernel⟩⟩

/-! ### Witnesses: replies, threads, banks and core registers -/

/-- Thread 2 waiting for something. -/
def waiting (x : Wait) (st : TState := .waiting) : State := withThr run (fun h => { h with st := st, wait := x })

/-- What the core of `sending` reaches at module 9. -/
def far : Word := BitVec.ofNat 64 (9 <<< 48)

/-- A release held at thread 2 for an address of module 9, and a full/empty wait there whose poll interval runs. -/
def holding : State := withThr sending (fun h => { h with held := [⟨7, 2, 7, far, 0, 3⟩], st := .sleeping, poll := true, wait := .fe 1 7 far 0 0 })

/-- The cache of core 5 waits for a line, or its side buffer does, or a write-back is on its way. -/
def filling (side : Bool) : State :=
  if side then withCore run (fun k => { k with side := [{ line := 9, world := 0, left := BitVec.allOnes 64, fid := 4 }] })
  else withCore run (fun k => { k with cache := [{ line := 9, world := 0, left := BitVec.allOnes 64, fid := 4 }], wbs := [⟨9, 0, 1, 0, none⟩] })

theorem witness_RepliesAndCacheEventsComplete_leaves : (holding.core 5).flying = [] ∧ holding.inFlight 5 far 8 = false ∧
    (holding.accessRange (.write 2 7) far 8 [0]).isSome = true ∧ (empty.reads 5 2).inFlight 5 (lineAddr line.line) 64 = false := by decide +kernel

theorem witness_RepliesAndCacheEventsComplete : (run.fld RTR_REDIR_EN 5 0 = 0 ∧ run.answeredAhead 5 = false) ∧
    (((waiting (.load (.s 31) 8 0 none)).thr 5 2).st = .waiting ∧ ((waiting (.load (.s 31) 8 0 none)).thr 5 2).wait = .load (.s 31) 8 0 none) ∧
    ((((queueing false).thr 5 2).mbox 3).st = .pending ∧ (box .pending).mbElsewhere 5 2 3 = false ∧ (box .pending).tornDown 5 2 = false ∧ (((box .pending).thr 5 2).mbox 3).st = .pending ∧
      ((box .pending).thr 5 2).st = .ready ∧ ((box .pending).thr 5 2).flight = [] ∧ ((box .pending).thr 5 2).mbWait = []) ∧
    (((waiting (.fe 1 31 0 0 0)).thr 5 2).wait = .fe 1 31 0 0 0 ∧ ((waiting (.fe 1 31 0 0 0)).thr 5 2).armed = false) ∧
    (((withThr run (fun h => { h with outw := [⟨3, 1⟩] })).thr 5 2).outw = [⟨3, 1⟩] ∧ ((waiting (.mmrStore 8)).thr 5 2).wait = .mmrStore 8 ∧
      (run.core 5).kend = false) ∧
    ((holding.thr 5 2).held = [⟨7, 2, 7, far, 0, 3⟩] ∧ (holding.thr 5 2).outw = [] ∧ (holding.core 5).cache = [] ∧ (holding.core 5).wbs = [] ∧ (holding.thr 5 2).poll = true ∧
      ∀ w, holding.translate (holding.who 5 2) far w = .to (.remote 9 0)) ∧
    (((withThr (waiting (.fe 5 0 far 0 0) .sleeping) (fun h => { h with armed := true })).thr 5 2).armed = true) ∧
    ((∀ t : Fin 8, ((filling false).thr 5 t).st ≠ .waiting) ∧ ((filling false).core 5).cache.length = 1 ∧ ((filling true).core 5).side.length = 1 ∧
      ((filling false).core 5).wbs = [⟨9, 0, 1, 0, none⟩] ∧ ((filling false).core 5).kend = false) := by decide +kernel

/-- Core 5 fenced, in a half without power, or redirected to core 9. -/
def fencedOff : State := run.setFld ISLAND_STATUS_CORE_STATE (coreP 5) (coreIsland 5) 4
def unpowered : State := run.setFld HALF_RAIL_STATUS_STATE (coreP 5) (coreHalf 5) 2
def redirected : State := (run.setFld RTR_REDIR_EN 5 0 1).setFld RTR_REDIR_SX 5 0 9

theorem witness_RepliesAndCacheEventsComplete_absorbed :
    ((fencedOff.thr 5 2).flight = [] ∧ fencedOff.fld RTR_REDIR_EN 5 0 = 0 ∧ fencedOff.answeredAhead 5 = true ∧ fencedOff.gated (coreP 5) (coreHalf 5) = false ∧
      fencedOff.islandShut 5 = false) ∧
    ((unpowered.thr 5 2).flight = [] ∧ unpowered.fld RTR_REDIR_EN 5 0 = 0 ∧ unpowered.answeredAhead 5 = true ∧ unpowered.gated (coreP 5) (coreHalf 5) = true) ∧
    (redirected.fld RTR_REDIR_EN 5 0 = 1 ∧ coreP 5 * 1296 + redirected.fld RTR_REDIR_SY 5 0 * 36 + redirected.fld RTR_REDIR_SX 5 0 = 9 ∧
      redirected.fld RTR_REDIR_EN 9 0 = 0) := by decide +kernel

/-- R303, R640: a fence and a seam proxy count the reply that they absorb. -/
theorem test_reply_absorbed :
    (∃ u, exec (.loadReply 5 2 0 1) fencedOff = .next u ∧ u.fld FENCE_DROP_CNT_ABSORBED 5 0 = 1) ∧
    (∃ u, exec (.loadReply 5 2 0 1) unpowered = .next u ∧ u.fld SEAM_STAT_ABSORBED 0 0 = 1) :=
  ⟨⟨_, rfl, by decide +kernel⟩, ⟨_, rfl, by decide +kernel⟩⟩

/-- Thread 2 of core 5 asleep, its world's supervisor thread, with a wait timeout that has passed. -/
def asleep : State :=
  (((waiting .sleep .sleeping).setTf wtimeout_EN 5 2 1).setFld svt_TENANT 5 0 2).setThr 5 0 {}

theorem witness_ThreadEventsComplete :
    ((withThr run (fun h => { h with stopReq := true })).thr 5 2).stopReq = true ∧ (∀ j : Fin 8, (run.thr 5 j).wait ≠ .tstop 2) ∧
    (((withCore (run.setFld svt_TENANT 5 0 2) (fun k => { k with tfnewT := 1, tfpendT := 1 })).core 5).tfnewT = 1 ∧ (run.setFld svt_TENANT 5 0 2).supOf 5 0 = 2 ∧
      run.tf wstat_EXL 5 2 = 0 ∧ (run.thr 5 2).slot = none ∧ (run.thr 5 2).shadow = 0 ∧ (run.thr 5 2).flight = []) ∧
    ((∀ line : Fin 32, 1 < line.val →
      let s := (((run.setTf wstat_WORLD 5 2 1).setReg .ipend 5 0 (BitVec.ofNat 64 (2 ^ line.val))).setTreg .tvec 5 2 (BitVec.ofNat 64 (2 ^ line.val))).setTf wstat_IE 5 2 1
      (s.reg .ipend 5 0).toNat / 2 ^ line.val % 2 = 1 ∧ s.canTake 5 2 line = true ∧ ∀ j : Fin 2, s.canTake 5 j line = false)) ∧
    ((run.setTf tmcmp_EN 5 2 1).tf tmcmp_EN 5 2 = 1 ∧ (run.setTf tmcmp_EN 5 2 1).tf tmcmp_CMP 5 2 ≤ (run.core 5).cyc) ∧
    (asleep.stalemated 5 0 = true ∧ (asleep.core 5).stale = [] ∧ asleep.supOf 5 0 = 2 ∧ (asleep.thr 5 2).st = .sleeping ∧ (asleep.thr 5 2).wait = .sleep ∧
      (asleep.thr 5 2).snap.slot = none ∧ asleep.tf wstat_EXL 5 2 = 0 ∧ asleep.tf wtimeout_EN 5 2 = 1 ∧
      asleep.tf wtimeout_LIMIT 5 2 * 256 ≤ (asleep.core 5).cyc - (asleep.thr 5 2).waitStart) ∧
    ((withThr run (fun h => { h with smx := some (0, 0) })).thr 5 2).smx ≠ none ∧
    asleep.answeredAhead 5 = false ∧ asleep.stale 5 (whoOf keeper) = false ∧ (4 : BitVec 8).toNat / 2 ^ 2 % 2 = 1 := by decide +kernel

theorem witness_BankRequestsComplete :
    (∀ o : Fin 2, let off := o.val * 0x3FFF8
      run.coreRefuses 5 off 8 (whoOf keeper) = none ∧ run.pat (bankAddr 5 off) = 0 ∧ run.spillRefuses 5 off 8 (whoOf keeper) = false ∧ off + 8 ≤ 0x40000) ∧
    (run.core 5).watches = [] ∧ 4 ≤ (run.setTag (bankAddr 5 0) 5).tag (bankAddr 5 0) ∧ run.tag (bankAddr 5 0) < 4 ∧
    ((withCore run (fun k => { k with corrDue := [9] })).core 5).corrDue = [(9 : BitVec 37).toNat] := by decide +kernel

/-- An access reaches the place p. -/
def reaches (r : Reach) (p : Place) : Bool :=
  match r with
  | .to q => decide (q = p)
  | _ => false

theorem reach_of {r : Reach} {p : Place} (h : reaches r p = true) : r = .to p := by
  rcases r with q | ⟨a, b⟩ | e
  · exact congrArg Reach.to (of_decide_eq_true h)
  · exact absurd h Bool.false_ne_true
  · exact absurd h Bool.false_ne_true

theorem mayWrite_of {s : State} {ag : Agent} {c off : Nat} (h : reaches (s.reach (whoOf ag) (pageAddr c off) 8 true) (.coreMmr c (0x3F0000 + off)) = true) :
    s.MayWrite ag c off := ⟨_, reach_of h⟩

theorem witness_CoreRegisterWritesComplete :
    (run.MayWrite keeper 5 0 ∧ run.MayWrite keeper 5 8 ∧ run.MayWrite keeper 5 0x100 ∧ run.MayWrite keeper 5 0x108 ∧ run.MayWrite keeper 5 0x220 ∧
      run.MayWrite keeper 5 0x300 ∧ run.MayWrite keeper 5 0x808) ∧
    run.fld IMEM_PTR_PART 5 0 = 0 ∧ (run.setFld IMEM_PTR_ADDR 5 0 0x17FF).fld IMEM_PTR_ADDR 5 0 * 8 + 8 ≤ 0xC000 ∧ (run.thr 5 2).st = .ready ∧
    (run.thr 5 7).st = .stopped ∧ run.codeWordRefuses 5 0x3FFE0 32 (whoOf keeper) = false ∧
    (∃ p, run.reach (whoOf keeper) (pageAddr 5 0x230) 4 true = .to p) ∧ (∃ p, run.reach (whoOf keeper) (pageAddr 5 0x230) 4 false = .to p) ∧
    run.fld TAG_ADDR_CW_OFF 5 0 * 32 + 32 ≤ 0x40000 ∧ run.pat (bankAddr 5 0) = 0 ∧ run.fld MODULE_ID_ID_LOCK 0 0 = 0 ∧ run.fld WRANGE_CTL_LOCK 5 0 = 0 ∧
    (∃ p, run.reach (whoOf keeper) (pageAddr 5 0x140) 8 true = .to p ∧ p.regAt = some ⟨.WRANGE_n, 5, 0, 0⟩) :=
  ⟨⟨mayWrite_of (by decide +kernel), mayWrite_of (by decide +kernel), mayWrite_of (by decide +kernel), mayWrite_of (by decide +kernel),
      mayWrite_of (by decide +kernel), mayWrite_of (by decide +kernel), mayWrite_of (by decide +kernel)⟩,
    by decide +kernel, by decide +kernel, by decide +kernel, by decide +kernel, by decide +kernel,
    ⟨.coreMmr 5 0x3F0230, reach_of (by decide +kernel)⟩, ⟨.coreMmr 5 0x3F0230, reach_of (by decide +kernel)⟩, by decide +kernel,
    by decide +kernel, by decide +kernel, by decide +kernel, ⟨.coreMmr 5 0x3F0140, reach_of (by decide +kernel), by decide +kernel⟩⟩

/-- Thread 2 ends its part of a kernel that another thread still runs. -/
def ending : State := (run.setFld KSTAT_ACTIVE 5 0 1).setFld KSTAT_RUN 5 0 6

/-- A commit of thread 2 to its core's own bank, behind a write that is out. -/
def committing : State :=
  (withThr run (fun h => { h with outw := [⟨1, 1⟩], nextW := 3 })).setTf SEND_DEST_ADDR 5 2 ((own 0x3FFF8).toNat / 8)

/-- Pot slot n of core 5 is open for two vectors at the last code words of its scratch. -/
def potting (n : Nat) : State :=
  withCore run (fun k => { k with pots := [(n, { state := 1, form := 2, n := 2, dest := 0x3FFC0 })] })

/-- A contribution of one vector to it. -/
def vectorPart : PotPart :=
  { dest := 0, form := 2, k := 0, i := 0, count := 1, last := 0, plot := 0, epoch := 0, payload := 0x0102030405060708, tags := [7] }

theorem witness_CoreUnitsComplete_absorbed : (fencedOff.setTf SEND_DEST_ADDR 5 2 0x1000).fld RTR_REDIR_EN 5 0 = 0 ∧
    (fencedOff.setTf SEND_DEST_ADDR 5 2 0x1000).answeredAhead 5 = true ∧
    ∀ o, (fencedOff.setTf SEND_DEST_ADDR 5 2 0x1000).place (BitVec.ofNat 64 ((fencedOff.setTf SEND_DEST_ADDR 5 2 0x1000).tf SEND_DEST_ADDR 5 2 * 8)) ≠ .bank 5 o :=
  ⟨by decide +kernel, by decide +kernel, fun o h => by
    rw [show (fencedOff.setTf SEND_DEST_ADDR 5 2 0x1000).place (BitVec.ofNat 64 ((fencedOff.setTf SEND_DEST_ADDR 5 2 0x1000).tf SEND_DEST_ADDR 5 2 * 8))
      = .noId from by decide +kernel] at h
    cases h⟩

theorem witness_CoreUnitsComplete : keeper.sup = true ∧
    (ending.fld KSTAT_ACTIVE 5 0 = 1 ∧ ending.fld KSTAT_RUN 5 0 / 2 ^ 2 % 2 = 1 ∧ ending.fld KSTAT_RUN 5 0 ≠ 2 ^ 2 ∧ (ending.thr 5 2).wait = .none ∧
      (ending.thr 5 2).slot = none ∧ (ending.thr 5 2).flight = []) ∧
    (run.tf SEND_STAT_BUSY 5 2 = 0 ∧ run.tf SEND_STAT_DISCARDED 5 2 = 0) ∧
    (committing.tf SEND_STAT_BUSY 5 2 = 0 ∧ committing.tf SEND_STAT_DISCARDED 5 2 = 0 ∧ committing.clearBelow 5 2 ((257 : Word).toNat / 256 % 4) (committing.thr 5 2).nextW = false ∧
      committing.translate (committing.who 5 2) (BitVec.ofNat 64 (committing.tf SEND_DEST_ADDR 5 2 * 8)) true = .to (.bank 5 0x3FFF8)) ∧
    (run.fld RTR_REDIR_EN 5 0 = 0 ∧ run.answeredAhead 5 = false ∧ (run.setTf SEND_STAT_BUSY 5 2 1).tf SEND_STAT_BUSY 5 2 = 1 ∧ (run.thr 5 2).held = [] ∧ (run.thr 5 2).sendStatus = none) ∧
    (∀ ch : Fin 2, run.dmaState (256 + 2 * 5 + ch.val) = 0) ∧
    (run.MayWrite keeper 5 0x308 ∧ run.MayWrite keeper 5 0x310 ∧ run.MayWrite keeper 5 0x318) ∧ (∀ k : Fin 16, (run.pot 5 k).state = 0) ∧
    (∀ n : Fin 16, let bits := (BitVec.ofNat 64 (2 ^ 58 * (4 * n.val + 2) + 2 ^ 20 + 0xFFF)).toNat
      bits = 2 ^ 58 * (4 * (bits / 2 ^ 60) + 2) + 2 ^ 20 * (bits / 2 ^ 20 % 2 ^ 20) + bits % 2 ^ 16 ∧ bits % 2 ^ 16 * 64 = 0x3FFC0) ∧
    (run.core 5).watches = [] ∧ (∀ i < 8, run.pat (bankAddr 5 0x3FFC0 + 8 * i) = 0) ∧ run.codeWordRefuses 5 0x3FFC0 64 (whoOf keeper) = false ∧ run.spillRefuses 5 0x3FFC0 64 (whoOf keeper) = false ∧
    (∀ j : Fin 16, ((potting j).pot 5 j).state ≠ 0) ∧ (potting 15).MayWrite keeper 5 0x318 ∧
    (((potting 15).pot 5 15).form = 2 ∧ ((potting 15).pot 5 15).dest = 0x3FFC0 ∧ (∀ k : Fin 15, ((potting 15).pot 5 k).dest ≠ 0x3FFC0) ∧ (potting 15).holdUsed 5 = 0 ∧
      ((potting 15).pot 5 15).plot = vectorPart.plot ∧ vectorPart.count < ((potting 15).pot 5 15).n ∧ ((potting 15).pot 5 15).sums = [] ∧
      (potting 15).answersFenced 5 = false ∧ (potting 15).stale 5 { whoOf keeper with plot := 0, epoch := 0 } = false ∧
      (potting 15).gated (coreP 5) (coreHalf 5) = false ∧ (potting 15).potRefused 5 0x3FFC0 { whoOf keeper with plot := 0, epoch := 0 } = false) :=
  ⟨by decide, by decide +kernel, by decide +kernel, by decide +kernel, by decide +kernel, by decide +kernel,
    ⟨mayWrite_of (by decide +kernel), mayWrite_of (by decide +kernel), mayWrite_of (by decide +kernel)⟩, by decide +kernel, by decide +kernel, by decide +kernel,
    by decide +kernel, by decide +kernel, by decide +kernel, by decide +kernel, mayWrite_of (by decide +kernel), by decide +kernel⟩

/-- A packet to column dx of row 0 in the class cls: a read of core 9's scratch. -/
def packet (dx : Fin 144) (cls : Fin 4) : Packet :=
  { source := 5, entry := 4, id := 7, dx := dx, dy := 0, port := 4, addr := BitVec.ofNat 64 (0xFFFF <<< 48 + bankAddr 9 0), op := .read, by_ := .given cls,
    cls := cls, keeper := false, sup := false, plot := 0, epoch := 0, tag := 0, len := 0, deal := none, pot := none }

/-- A router that holds a contribution, and a half of a parcel that is powered off. -/
def meshing : State := { run with routers := [(5, { comb := [(3, packet 9 3)] })] }

/-- An output that leads to a router whose buffers are empty. -/
def openTo (s : State) (n : Nat) (o : Out) : Bool :=
  match s.openLink n o with
  | some k => (s.rtr k).buf.isEmpty
  | none => false

theorem free_of {s : State} {n : Nat} {o : Out} (h : openTo s n o = true) : ∃ k, s.openLink n o = some k ∧ (s.rtr k).buf = [] := by
  unfold openTo at h
  split at h
  · exact ⟨_, ‹_›, List.isEmpty_iff.1 h⟩
  · cases h

/-- The target word of a Deal to columns 6 to 9 of row 0. -/
def dealt : Word := 6 <<< 56 ||| 9 <<< 48

/-- Router 0's link to the east is DOWN. -/
def severed : State := run.setFld RTR_LINKERR_DOWN 0 0 2

/-- Entry 0 of router 5 holds a packet's route, and the packet is on its way. -/
def routed : State := ({ run with routers := [(5, { wire := [(1, packet 9 3)] })] } : State).setReg .RTR_OVR_k 5 0 (31 <<< 59 ||| 1 <<< 56 ||| 9 <<< 48 ||| 9 <<< 40)

theorem witness_MeshCommandsComplete :
    (run.closedRouter 5 = false ∧ (run.rtr 5).buf = [] ∧ (run.rtr 5).wire = [] ∧ (run.rtr 5).comb = [] ∧ (packet 9 3).flits ≤ 4 ∧ (packet 9 3).pot = none) ∧
    (∃ m, linkTo 5 (outOf 3) = some m ∧ (run.rtr m).wire = []) ∧
    (run.gated (coreP (coreAt 9 0)) (coreHalf (coreAt 9 0)) = false ∧ run.islandShut (coreAt 9 0) = false ∧ ∃ k, run.openLink 5 (run.routeOut 5 9 0 3) = some k ∧ (run.rtr k).buf = []) ∧
    (run.routeOut 5 5 0 3 = .here ∧ run.answersFenced 5 = false ∧ run.fld RTR_REDIR_EN 5 0 = 0) ∧
    (∀ o ∈ dealBranches 5 dealt true (some (outOf 3)), ∃ k, run.openLink 5 o = some k ∧ (run.rtr k).buf = []) ∧
    ((∀ i : Fin 7, (run.meter 5 i).waiting = []) ∧ run.kp.reroute = [] ∧ ∀ cls : Fin 4, run.meterAllows 5 (run.stamp 5 (packet 0 cls)) 0 = true) ∧
    (run.exitOf (packet 0 0).addr = some (9, 4) ∧ (packet 0 0).op ≠ .reply ∧ (packet 0 0).op ≠ .ack) ∧
    ((meshing.rtr 5).comb = [(3, packet 9 3)] ∧ (meshing.rtr 5).buf = [] ∧ (meshing.rtr 5).wire = [] ∧
      ∃ k, meshing.openLink 5 (meshing.routeOut 5 9 0 3) = some k ∧ (meshing.rtr k).buf = []) ∧
    ((run.setFld HALF_RAIL_STATUS_STATE 0 1 2).gated 0 1 = true ∧ run.routers = []) ∧ keeper.keeper = true ∧
    (let v : Word := 0xE11
     v.toNat / 256 % 16 + v.toNat / 16 % 16 + v.toNat % 16 = 16 ∧ 0 < v.toNat / 256 % 16 ∧ 0 < v.toNat / 16 % 16 ∧ 0 < v.toNat % 16) ∧
    bitsOf (3 <<< 56 : Word) 58 56 ≤ 3 ∧ (run.withRoutes [(5, 0, 0)]).routesPass = true ∧
    ((routed.withRoutes [(5, 0, 0)]).routesPass = true ∧ routed.inTransit [(5, 0, 0)] = true) ∧ (severed.withRoutes [(5, 0, 0)]).routesPass = false :=
  ⟨by decide +kernel, ⟨4, by decide +kernel⟩, ⟨by decide +kernel, by decide +kernel, free_of (by decide +kernel)⟩, by decide +kernel,
    fun o h => free_of ((by decide +kernel : ∀ o ∈ dealBranches 5 dealt true (some (outOf 3)), openTo run 5 o = true) o h), by decide +kernel, by decide +kernel,
    ⟨by decide +kernel, by decide +kernel, by decide +kernel, free_of (by decide +kernel)⟩, by decide +kernel⟩

/-- Stack 7 is ACTIVE. -/
def stacked : State := run.setFld HBM_STAT_STATE 7 0 0

theorem witness_StackRequestsComplete : keeper.keeper = true ∧ (∀ o : Fin 2, let off := (BitVec.ofNat 36 (o.val * 0x85FFFFFF8)).toNat
    off + 8 ≤ 0x860000000 ∧ off % 8 = 0 ∧ stacked.hbmRefuses 7 off = none ∧ stacked.anyBad (hbmAddr 7 off) 8 = false) ∧ (stacked.stack 7).pdown = 0 := by decide +kernel

theorem mayPut_of {s : State} {ag : Agent} {off n : Nat} {p : Place} (h : reaches (s.reach (whoOf ag) (ownAddr off) n true) p = true) : s.MayPut ag off n := ⟨p, reach_of h⟩

/-- Channel u rests in state st, and its world, level and plot are the Keeper's. -/
def resting (u st : Nat) : State := (run.setFld DMA_STAT_STATE u 0 st).setFld DMA_BIND_BOUND u 0 1

/-- Channel u runs. -/
def channel (u : Nat) (d : Dma) : State := (run.setDma u { d with world := 1, level := 1 }).setFld DMA_STAT_STATE u 0 1

theorem witness_DmaRegisterWritesComplete :
    ((resting 255 0).MayPut keeper (dmaOff 255 0x28) 4 ∧ (resting 255 0).fld DMA_BIND_BOUND 255 0 = 1 ∧ (resting 255 0).dmaState 255 = 0 ∧
      ((resting 255 0).dma 255).fetching = false ∧ ((resting 255 0).dma 255).running = false ∧ (resting 255 0).fld DMA_HEAD_INDEX 255 0 ≠ (0xFFFF : BitVec 16).toNat) ∧
    ((resting 0 4).MayPut keeper (dmaOff 0 0) 4 ∧ (resting 0 4).dmaState 0 = 4 ∧ (resting 0 4).fld DMA_HEAD_INDEX 0 0 = (resting 0 4).fld DMA_TAIL_INDEX 0 0) ∧
    ((channel 20991 { running := true }).MayPut keeper (dmaOff 20991 0) 4 ∧ ((channel 20991 { running := true }).dma 20991).running = true ∧
      ((channel 20991 { running := true }).dma 20991).code = none ∧ ((channel 20991 { running := true }).dma 20991).wait = none) ∧
    ((resting 0 4).MayPut keeper (dmaOff 0 0x10) 8 ∧ (resting 0 4).MayPut keeper (dmaOff 0 0x18) 4) ∧
    (∀ v : Fin 9, let w := (BitVec.ofNat 64 (v.val + 4)).toNat % 16
      4 ≤ w ∧ w ≤ 12) ∧ run.MayPut keeper (dmaOff 255 0x40) 4 :=
  ⟨⟨mayPut_of (p := .mmr 0x200107F8028) (by decide +kernel), by decide +kernel⟩, ⟨mayPut_of (p := .mmr 0x20010000000) (by decide +kernel), by decide +kernel⟩,
    ⟨mayPut_of (p := .coreMmr 10367 0x3F0580) (by decide +kernel), by decide +kernel⟩,
    ⟨mayPut_of (p := .mmr 0x20010000010) (by decide +kernel), mayPut_of (p := .mmr 0x20010000018) (by decide +kernel)⟩, by decide +kernel,
    mayPut_of (p := .mmr 0x200107F8040) (by decide +kernel)⟩

/-- When a core does not serve a request. -/
theorem refuses_isSome (s : State) (n off len : Nat) (w : Who) : (s.coreRefuses n off len w).isSome =
    (s.gated (coreP n) (coreHalf n) || (s.answersFenced n || ((s.core n).inReset && decide (w.world = 0))) || s.stale n w ||
      ((s.worldCheck n off w).isSome || (s.worldCheck n (off + (len - 1)) w).isSome)) := by
  unfold State.coreRefuses
  split_ifs <;> simp_all

/-- What the channels hold does not matter to where an access goes. -/
theorem bank_dmas {s : State} (l : Sparse Dma) {w : Who} {a : Word} {n c off : Nat} {wr : Bool} (h1 : s.translate w a wr = .to (.bank c off))
    (h2 : (s.coreRefuses c off n w).isSome = false)
    (h3 : (w.world = 0 && 0x100000 ≤ off && s.poolBacked c && !inHbmWindow (a.toNat % 2 ^ 48)) = false) (h4 : (wr && s.spillRefuses c off n w) = false) :
    ({ s with dmas := l } : State).reach w a n wr = .to (.bank c off) := by
  have h : (({ s with dmas := l } : State).coreRefuses c off n w).isSome = false := by
    rw [← h2, refuses_isSome, refuses_isSome]; rfl
  unfold State.reach
  rw [show ({ s with dmas := l } : State).translate w a wr = s.translate w a wr from rfl, h1]
  cases h5 : ({ s with dmas := l } : State).coreRefuses c off n w with
  | some x => rw [h5] at h; cases h
  | none =>
    simp only [show ({ s with dmas := l } : State).poolBacked c = s.poolBacked c from rfl, show ({ s with dmas := l } : State).spillRefuses c off n w = s.spillRefuses c off n w from rfl,
      h5, h3, h4]
    rfl

theorem dmaBank_of {s : State} {u n c off : Nat} {a : Word} {wr : Bool}
    (h : (0 < n ∧ a.toNat % 64 + n ≤ 64) ∧ s.translate (dmaWho u (s.dma u)) a wr = .to (.bank c off) ∧ (s.coreRefuses c off n (dmaWho u (s.dma u))).isSome = false ∧
      ((dmaWho u (s.dma u)).world = 0 && 0x100000 ≤ off && s.poolBacked c && !inHbmWindow (a.toNat % 2 ^ 48)) = false ∧
      (wr && s.spillRefuses c off n (dmaWho u (s.dma u))) = false ∧ (∀ k < n, s.pat (bankAddr c off + k) = 0) ∧ (s.core c).watches = []) :
    s.DmaBank u a n wr c off := ⟨h.1, fun l => bank_dmas l h.2.1 h.2.2.1 h.2.2.2.1 h.2.2.2.2.1, h.2.2.2.2.2.1, h.2.2.2.2.2.2⟩

theorem dmaAt_of {s : State} {u : Nat} {i : DmaIns} (h : (s.dma u).running = true ∧ (s.dma u).fetching = false ∧ (s.dma u).code = none ∧ (s.dma u).move = none ∧
    (s.dma u).wait = none ∧ (s.dma u).outs = [] ∧ s.dmaPaused u = false ∧ dmaAt (s.dma u) = i) : s.DmaAt u i :=
  ⟨h.1, h.2.1, h.2.2.1, h.2.2.2.1, h.2.2.2.2.1, h.2.2.2.2.2.1, h.2.2.2.2.2.2.1, h.2.2.2.2.2.2.2⟩

/-- Channel 255 stands at the first of these program words. -/
def program (ws : List Nat) (d : Dma := {}) : State :=
  channel 255 { d with running := true, w0 := BitVec.ofNat 64 ws.length, words := (List.range ws.length).map (fun i => (i, BitVec.ofNat 64 (ws.getD i 0))) }

/-- A loop level that has `left` iterations left. -/
def level (left : Nat) : Dma := { loops := [⟨5, left, 1, -8, 8⟩] }

/-- The word of core 5 that the program words name, and the block 64 bytes above it. -/
def mark : Nat := (own 0x3FF80).toNat

/-- A MOVE of eight elements of 8 bytes from there. -/
def moves : DmaMove := { src := own 0x3FF80, dst := own 0x3FFC0, e := 8, n0 := 8, n1 := 1, n2 := 1, ss1 := 0, ds1 := 0, ss2 := 0, ds2 := 0, len := 3 }

theorem witness_DmaProgramWordsComplete :
    (program [2 * 2 ^ 56 + 3, 2 ^ 64 - 1]).DmaAt 255 (.loop 3 (-1) (-1)) ∧
    ((program [3 * 2 ^ 56] (level 2)).DmaAt 255 .endl ∧ (program [3 * 2 ^ 56] (level 1)).DmaAt 255 .endl) ∧
    (let s := (program [4 * 2 ^ 56, mark]).setTag (bankAddr 5 0x3FF80) 5
     s.DmaAt 255 (.waitWord false (own 0x3FF80) 0) ∧ 4 ≤ s.tag (bankAddr 5 0x3FF80) ∧
      ((s.setDma 255 { s.dma 255 with wait := some (.word false (own 0x3FF80) false 0) }).setFld DMA_STAT_STATE 255 0 2).DmaBank 255 (own 0x3FF80) 8 false 5 0x3FF80) ∧
    ((program [4 * 2 ^ 56 + 2 * 2 ^ 54 + 0xFFFF, 0]).DmaAt 255 (.waitEvents 0xFFFF 0) ∧ (program [4 * 2 ^ 56 + 2 * 2 ^ 54, 0]).DmaAt 255 (.waitEvents 0 0)) ∧
    ((program [5 * 2 ^ 56 + 3 * 2 ^ 48, mark, 9]).DmaAt 255 (.fill 3 (own 0x3FF80) 9) ∧ (program [5 * 2 ^ 56 + 3 * 2 ^ 48, mark, 9]).DmaBank 255 (own 0x3FF80) 8 true 5 0x3FF80) ∧
    ((program [5 * 2 ^ 56 + 2 ^ 54, mark, 9]).DmaAt 255 (.add (own 0x3FF80) 9) ∧ (program [5 * 2 ^ 56 + 2 ^ 54, mark, 9]).DmaBank 255 (own 0x3FF80) 8 true 5 0x3FF80) ∧
    (let s := { (program [5 * 2 ^ 56 + 2 * 2 ^ 54, 0x3FFF, 9]).setFld QP_STAT_STATE 0x3FFF 0 1 with cp := { qps := [(0x3FFF, { cqRetry := true })] } }
     s.DmaAt 255 (.post 0x3FFF 9) ∧ s.fld QP_BIND_PLOT 0x3FFF 0 = (s.dma 255).plot ∧ s.qOn 0x3FFF = true ∧ (s.qp 0x3FFF).cqRetry = true) ∧
    (let s := program [5 * 2 ^ 56 + 3 * 2 ^ 54, mark, 9]
     s.DmaAt 255 (.event (own 0x3FF80) 9) ∧ ∀ l, ∃ p, ({ s with dmas := l } : State).reach (dmaWho 255 (s.dma 255)) (own 0x3FF80) 4 true = .to p) ∧
    ((program [6 * 2 ^ 56]).DmaAt 255 .hashBegin ∧ (program [6 * 2 ^ 56 + 2 ^ 54] { digest := some [] }).DmaAt 255 .hashPause ∧
      (program [6 * 2 ^ 56 + 2 * 2 ^ 54] { digest := some [] }).DmaAt 255 .hashResume) ∧
    (let s := program [6 * 2 ^ 56 + 3 * 2 ^ 54, mark] { digest := some [97, 98, 99] }
     s.DmaAt 255 (.hashFinal (own 0x3FF80)) ∧ s.DmaBank 255 (own 0x3FF80) 48 true 5 0x3FF80) ∧
    (program [7 * 2 ^ 56]).DmaAt 255 .fin ∧
    (let s := program [2 ^ 56 + 3 * 2 ^ 48 + 8, mark, mark + 64]
     s.DmaAt 255 (.move moves) ∧ s.moveStart 255 moves = .ok moves ∧ moves.piece 0 = (0, 0, moves.n0) ∧ (s.dma 255).feeding = false ∧
      s.DmaBank 255 moves.src (moves.n0 * moves.e) false 5 0x3FF80 ∧ s.DmaBank 255 moves.dst (moves.n0 * moves.e) true 5 0x3FFC0) :=
  ⟨dmaAt_of (by decide +kernel), ⟨dmaAt_of (by decide +kernel), dmaAt_of (by decide +kernel)⟩,
    ⟨dmaAt_of (by decide +kernel), by decide +kernel, dmaBank_of (by decide +kernel)⟩, ⟨dmaAt_of (by decide +kernel), dmaAt_of (by decide +kernel)⟩,
    ⟨dmaAt_of (by decide +kernel), dmaBank_of (by decide +kernel)⟩, ⟨dmaAt_of (by decide +kernel), dmaBank_of (by decide +kernel)⟩,
    ⟨dmaAt_of (by decide +kernel), by decide +kernel⟩,
    ⟨dmaAt_of (by decide +kernel), fun l => ⟨.bank 5 0x3FF80, bank_dmas l (by decide +kernel) (by decide +kernel) (by decide +kernel) (by decide +kernel)⟩⟩,
    ⟨dmaAt_of (by decide +kernel), dmaAt_of (by decide +kernel), dmaAt_of (by decide +kernel)⟩, ⟨dmaAt_of (by decide +kernel), dmaBank_of (by decide +kernel)⟩,
    dmaAt_of (by decide +kernel),
    ⟨dmaAt_of (by decide +kernel), rfl, by decide +kernel, by decide +kernel, dmaBank_of (by decide +kernel), dmaBank_of (by decide +kernel)⟩⟩

/-- A descriptor at offset 0x3FF80 of core 5 that software has handed over: four words of program at address 64. -/
def described : State := (channel 255 { fetching := true, descAddr := own 0x3FF80 }).writeLE (bankAddr 5 0x3FF80) 16 (2 ^ 63 + 4 + mark * 2 ^ 64)

/-- Channel 255 has one write to module 9 outstanding. -/
def writer (r : DmaReq) : State := (channel 255 { running := true, outs := [r] }).setFld MODULE_ID_ID 0 0 3

/-- That write. -/
def aWrite (failed entry : Option Nat) : DmaReq := { id := 4, kind := .write, addr := far, len := 8, data := 77, failed := failed, entry := entry }

theorem remote_dmas (s : State) (l : Sparse Dma) (w : Who) (a : Word) : ({ s with dmas := l } : State).isRemote w a true = s.isRemote w a true := rfl

theorem witness_DmaEventsComplete :
    ((described.dma 255).fetching = true ∧ (described.dma 255).outs = [] ∧ (described.dma 255).code = none ∧ described.dmaPaused 255 = false ∧
      described.DmaBank 255 (described.dma 255).descAddr 64 false 5 0x3FF80 ∧
      let desc := described.readLE (bankAddr 5 0x3FF80) 64
      desc / 2 ^ 63 % 2 = 1 ∧ 0 < desc % 2 ^ 16 ∧ desc % 2 ^ 16 ≤ 4096 ∧ desc / 2 ^ 64 % 8 = 0) ∧
    (let s := channel 255 { running := true, w0 := 8, prog := own 0x3FF80 }
     (s.dma 255).running = true ∧ (s.dma 255).fetching = false ∧ (s.dma 255).code = none ∧ (s.dma 255).move = none ∧ s.dmaPaused 255 = false ∧
      (s.dma 255).outs = [] ∧ (s.dma 255).pc = 0 ∧ (s.dma 255).words = [] ∧ 8 ≤ (s.dma 255).w0.toNat % 2 ^ 16 ∧ (s.dma 255).prog.toNat % 64 = 0 ∧
      s.DmaBank 255 (s.dma 255).prog 64 false 5 0x3FF80) ∧
    (∀ f ∈ [none, some 0x0305, some 0x0385], ∀ e ∈ [none, some 0], let s := writer (aWrite f e)
      (s.dma 255).running = true ∧ (s.dma 255).fetching = false ∧ (s.dma 255).code = none ∧ (s.dma 255).move = none ∧ s.dmaPaused 255 = false ∧
      (aWrite f e).kind = .write ∧ (s.dma 255).outs = [aWrite f e] ∧ (aWrite f e).tries < s.fld DMA_RETRY_LIMIT_LIMIT 255 0 ∧ s.islandShut (dmaRouter 255) = false ∧
      (s.setFld ISLAND_STATUS_ROUTER_STATE (coreP (dmaRouter 255)) (coreIsland (dmaRouter 255)) 3).islandShut (dmaRouter 255) = true) ∧
    (∀ l, ({ (writer (aWrite (some 0x0305) none)).bump DMA_COUNT_RETRIES 255 0 with dmas := l } : State).isRemote
      (dmaWho 255 ((writer (aWrite (some 0x0305) none)).dma 255)) far true = true) ∧
    (∀ l, ({ writer (aWrite (some 0x0385) (some 0)) with dmas := l } : State).isRemote
      (dmaWho 255 ((writer (aWrite (some 0x0385) (some 0))).dma 255)) far true = true) ∧
    (let s := channel 255 { running := true, wait := some (.events 1 5) }
     (s.dma 255).code = none ∧ (s.dma 255).wait = some (.events 1 5)) ∧
    (let s := channel 255 { running := true, code := some 0, stage := 3, descAddr := own 0x3FF80 }
     (s.dma 255).code = some 0 ∧ s.dmaPaused 255 = false ∧ (s.dma 255).outs = [] ∧ (s.dma 255).stage = 3 ∧ (s.dma 255).descFault = none ∧
      s.DmaBank 255 (s.dma 255).descAddr 8 true 5 0x3FF80) :=
  ⟨⟨by decide +kernel, by decide +kernel, by decide +kernel, by decide +kernel, dmaBank_of (by decide +kernel), by decide +kernel⟩,
    ⟨by decide +kernel, by decide +kernel, by decide +kernel, by decide +kernel, by decide +kernel, by decide +kernel, by decide +kernel, by decide +kernel,
      by decide +kernel, by decide +kernel, dmaBank_of (by decide +kernel)⟩, by decide +kernel,
    fun l => (remote_dmas _ l _ _).trans (by decide +kernel), fun l => (remote_dmas _ l _ _).trans (by decide +kernel),
    by decide +kernel, ⟨by decide +kernel, by decide +kernel, by decide +kernel, by decide +kernel, by decide +kernel, dmaBank_of (by decide +kernel)⟩⟩

/-- The lookup of thread 2 of core 5 for the first page of the HBM windows. -/
def seek (ans : Option Lk) : Lookup := { port := 5, thread := some 2, plot := 0, sup := false, addr := BitVec.ofNat 64 (0xFFFF * 2 ^ 48 + 2 ^ 40 + 5), write := false, ans := ans }

/-- Thread 2 waits for it; its plot has one page of stack 0, which range entry 255 maps. -/
def seeking (ans : Option Lk) : State :=
  let s := waiting .txHold
  ({ s with kp := { s.kp with lookups := [seek ans] }, tuW1 := [(255, 2 ^ 32)],
            regs := (((s.setReg .TU_GRANT_g 0 0 (BitVec.ofNat 64 (2 ^ 63 + 7 * 2 ^ 18 + 1))).setReg .TU_RANGE_W0 0 255 (BitVec.ofNat 64 (2 ^ 63 + 2 ^ 40))).setReg
              .TU_RANGE_W1 0 255 (2 ^ 32)).regs } : State)

/-- What the store answers. -/
def found : TxEntry := { plot := 0, mid := false, vbase := 2 ^ 40, size := 2 ^ 21, target := hbmAddr 0 (7 * 2 ^ 21), w := false, sup := false }

/-- A sync of plot 63 is in progress, and a cache holds what it is to drop. -/
def syncing : State :=
  let s := run.setFld TU_SYNC_DONE 63 0 0
  { s with kp := { s.kp with syncs := [(63, (1, 0))], tx := [(5, [{ found with plot := 63 }, found])] } }

/-- Stack 7 has one reserve page, and a page to be zeroised. -/
def booked : State := (run.setFld HBM_CFG_RESERVE 7 0 1).setStack 7 { dirty := [(17150, 1)] }

theorem witness_TranslationAndRetirementCommandsComplete :
    ((seeking none).kp.lookups = [seek none] ∧ (seek none).port = (5 : CoreId).val ∧ (seek none).thread = some (2 : ThreadId).val ∧
      (seeking none).storeLook (seek none) = .ok found) ∧
    ((seek (some (.ok found))).ans = some (.ok found) ∧ ((seeking (some (.ok found))).thr 5 2).st = .waiting ∧
      ((seeking (some (.ok found))).thr 5 2).wait = .txHold ∧ Sparse.get [] (seeking (some (.ok found))).kp.tx 5 = []) ∧
    ((seek none).ans = none ∧ ((seeking none).thr 5 2).snap.slot = none ∧ ((seeking none).thr 5 2).snap.shadow = 0 ∧ ((seeking none).thr 5 2).flight = [] ∧
      (seeking none).tf wstat_EXL 5 2 = 0 ∧ (seeking none).tf wstat_SELF 5 2 = 1) ∧
    ((seeking none).MayPut keeper (tuOff 0 (0x1000 + 16 * 255)) 8 ∧ (BitVec.ofNat 64 (2 ^ 63 + 2 ^ 40)).toNat / 2 ^ 63 = 1 ∧
      (seeking none).rangeErr keeper.keeper 0 255 (RegName.written .TU_RANGE_W0 true 63 0 ((seeking none).reg .TU_RANGE_W0 0 255) (BitVec.ofNat 64 (2 ^ 63 + 2 ^ 40)))
        ((seeking none).reg .TU_RANGE_W1 0 255) = 0) ∧
    (run.MayPut keeper (tuOff 63 8) 8 ∧ run.fld TU_SYNC_DONE 63 0 = 1) ∧
    (syncing.fld TU_SYNC_DONE 63 0 = 0 ∧ Sparse.get (0, 0) syncing.kp.syncs 63 = (1, 0)) ∧
    (booked.Canonical ∧ (booked.stack 7).retired.contains 0 = false ∧ booked.inReserve 7 0 = false ∧ booked.replacements 7 (0 % 32) = [17151] ∧
      booked.grantOf 7 0 = none ∧ ∀ j < 2 ^ 21, booked.pat (hbmAddr 7 0 + j) = 0) ∧
    booked.fld HBM_STAT_PC_OFF 7 0 / 2 ^ 31 % 2 = 0 ∧ (booked.stack 7).dirty = [(17150, 1)] :=
  ⟨by decide +kernel, by decide +kernel, by decide +kernel, ⟨mayPut_of (p := .mmr 0x20070001FF0) (by decide +kernel), by decide +kernel, by decide +kernel⟩,
    ⟨mayPut_of (p := .mmr 0x20073F00008) (by decide +kernel), by decide +kernel⟩, by decide +kernel,
    ⟨⟨by decide +kernel, by decide +kernel, by decide +kernel⟩, by decide +kernel, by decide +kernel, by decide +kernel, by decide +kernel, fun _ _ => rfl⟩, by decide +kernel, by decide +kernel⟩

/-- Module 3 with port 31 in state st, routed or direct. -/
def fabric (st mode : Nat) (p : FabPort := {}) : State :=
  let s := ((run.setFld MODULE_ID_ID 0 0 3).setFld PORT_STAT_STATE 31 0 st).setFld PORT_CFG_MODE 31 0 mode
  { s with kp := { s.kp with fab := { s.kp.fab with ports := [(31, p)] } } }

/-- The pools of a peer. -/
def pools : List (Fin 4096) := [4095, 1, 2, 3, 4, 5, 6, 7]

theorem witness_PortCommandsComplete : (fabric 0 0).Packed ∧ (fabric 0 0).kp.fab.conns = [] ∧
    ((fabric 0 0).MayPut keeper (portOff 31 0) 4 ∧ (fabric 0 0).fld PORT_CFG_EN 31 0 = 0 ∧ (fabric 0 0).fld LB_CTL_i_STATE 0 31 ≠ 1 ∧
      (0x80000000 : BitVec 32).toNat / 2 ^ 31 = 1) ∧
    ((fabric 1 0).fld PORT_STAT_STATE 31 0 = 1 ∧ (fabric 1 1).portRouted 31 = true ∧ (fabric 1 0).portRouted 31 = false) ∧
    ((fabric 2 0).fld PORT_STAT_STATE 31 0 = 2 ∧ (9 : BitVec 16).toNat ≠ (fabric 2 0).fld MODULE_ID_ID 0 0) ∧
    (((fabric 4 0).setFld PORT_CFG_EN 31 0 1).fld PORT_CFG_EN 31 0 = 1 ∧ (fabric 4 0).fld PORT_STAT_STATE 31 0 ≠ 3) ∧
    ((fabric 3 1).portRouted 31 = true ∧ (fabric 3 1).portUp 31 = true) ∧
    (let s := fabric 3 0 { replay := [(0xFFFF, [1, 2])], owed := [(7, 4095)] }
     s.Packed ∧ s.portUp 31 = true ∧ s.portRouted 31 = false ∧
      (let w : Word := BitVec.ofNat 64 (0x11 <<< 56 + 0xFFFF <<< 16 + 7 <<< 13 + 4095)
       w.toNat / 2 ^ 56 = 0x11 ∧ w.toNat / 2 ^ 12 % 2 = 0 ∧ 0xFFFF = w.toNat / 2 ^ 16 % 2 ^ 16) ∧
      (s.fport 31).replay = [(0xFFFF, [1, 2])] ∧ (s.fport 31).replays < s.fld PORT_LINK_RETRY_MAX 31 0 ∧ (s.fport 31).owed = [(7, 4095)]) :=
  ⟨rfl, by decide +kernel, ⟨mayPut_of (p := .mmr 0x20031F00000) (by decide +kernel), by decide +kernel⟩, by decide +kernel, by decide +kernel,
    by decide +kernel, by decide +kernel, rfl, by decide +kernel⟩

/-- Module 3 is connected with module 9 by port 31. -/
def connected (mode : Nat) (c : Conn) (p : FabPort := {}) : State :=
  let s := ((((fabric 3 mode p).setFld PORT_BIND_KEEPER_OK 31 0 1).setFld PORT_PLOTS_PLOTS 31 0 1).setReg .PT_ENTRY_W0 0 0
    (BitVec.ofNat 64 (2 ^ 63))).setFld PT_ENTRY_W0_HI 0 0 0xFFFF
  let s := (s.setFld PT_ENTRY_W1_PORTS 0 0 (2 ^ 31))
  { s with kp := { s.kp with fab := { s.kp.fab with conns := [(9, c)] } } }

/-- A READ of 8 bytes by module 9's Keeper. -/
def aRead : FabMsg := { op := 1, kw := true, len := 8, tag := 77, off := bankAddr 5 0x3FFF8 }

/-- The transport frame that brings it, in class 3. -/
def frameOf (x : FabMsg) : List Nat := [0, 9, 0, 3, 0xC0, 1, 1, 0] ++ List.replicate 8 0 ++ List.replicate 8 0 ++ x.bytes

/-- A frame not acknowledged. -/
def sentFrame : FabFrame := { tseq := 0xFFFFFFFF, msgs := [aRead], port := 31 }

theorem witness_TransportCommandsComplete :
    (let s := connected 1 { gen := 1 }
     let tp := readTp (frameOf aRead)
     s.Packed ∧ s.kp.fab.conns = [((9 : BitVec 16).toNat, { gen := 1 })] ∧ s.portUp 31 = true ∧ s.portRouted 31 = true ∧ (connected 0 { gen := 1 }).portRouted 31 = false ∧
      24 ≤ (frameOf aRead).length ∧ tp.smod = 9 ∧ tp.dmod = s.fld MODULE_ID_ID 0 0 ∧ tp.enc = false ∧ tp.busy = false ∧ tp.gen = 1 ∧ tp.msgs = 1 ∧ tp.tseq = 0 ∧
      s.fld PORT_CFG_ENC 31 0 = 0 ∧ readMsgs ((frameOf aRead).drop 24) 1 = [aRead] ∧ aRead.bad = false ∧ aRead.onResponse = tp.resp ∧
      (s.fport 31).held (2 * tp.vc + bit tp.resp) + cellsOf false [aRead] ≤ s.poolOf 31 (2 * tp.vc + bit tp.resp)) ∧
    (let all := beBytes (0x10 <<< 56) 8 ++ frameOf aRead
     ofBe (bytesAt all 0 8) / 2 ^ 56 = 0x10 ∧ ofBe (bytesAt all 0 8) / 2 ^ 32 % 2 ^ 16 = (((connected 0 { gen := 1 }).fport 31).lrx + 1) % 65536 ∧
      ofBe (bytesAt all 0 8) / 2 ^ 12 % 2 = 0 ∧ all.drop 8 = frameOf aRead ∧ (all.map (fun x => (BitVec.ofNat 8 x).toNat)) = all) ∧
    (let c : Conn := { gen := 1, spaces := [(7, { frames := [sentFrame] })] }
     (c.space (2 * 3 + 1)).frames = [sentFrame] ∧ sentFrame.tries < (connected 0 c).fld FAB_CFG_RETRY_MAX 0 0 ∧ sentFrame.tseq < 2 ^ 32) ∧
    (let c : Conn := { gen := 1, busy := true }
     c.spaces = [] ∧ c.busy = true ∧ (connected 0 c).connIdle 9 c = true) ∧
    (let s := (connected 0 { gen := 1 }).setFld PORT_CFG_PTP 31 0 1
     s.fld PORT_CFG_PTP 31 0 = 1 ∧ s.fld PORT_PTP_DOMAIN 31 0 = (0 : BitVec 8).toNat ∧ s.portUp 31 = true ∧ s.portRouted 31 = false) :=
  ⟨⟨rfl, by decide +kernel⟩, by decide +kernel, by decide +kernel, by decide +kernel, by decide +kernel⟩

/-- The message q of module 9 waits in class 3 at port 31. -/
def rxOf (q : FabMsg) (resp : Bool := false) : RxMsg := ⟨9, 3, resp, 1, q⟩

/-- With that message, and a connection that has a counter of stream 5. -/
def arrived (q : FabMsg) (resp : Bool := false) : State := connected 0 { gen := 1, streams := [{ num := 5 }] } { rx := [rxOf q resp] }

theorem ingress_of {s : State} {m vc : Nat} {resp : Bool} {r : RxMsg} {op : Nat}
    (h : s.kp.fab.cursor = s.sent.length ∧ s.rxFront m vc resp = some r ∧ r.msg.op = op ∧ s.rxDenied m r.msg = false ∧ r.msg.strm = 0) : s.Ingress m vc resp r op :=
  ⟨h.1, h.2.1, h.2.2.1, h.2.2.2.1, h.2.2.2.2⟩

theorem ingressBank_of {s : State} {m : Nat} {r : RxMsg} {n : Nat} {wr : Bool} {c off : Nat}
    (h : (0 < n ∧ r.msg.off < 2 ^ 48 ∧ r.msg.off % 64 + n ≤ 64) ∧ reaches ((s.rxTake m r).reach (s.rxWho m r.msg) (ownAddr r.msg.off) n wr) (.bank c off) = true ∧
      (∀ k < n, s.pat (bankAddr c off + k) = 0) ∧ (s.core c).watches = []) : s.IngressBank m r n wr c off :=
  ⟨h.1, reach_of h.2.1, h.2.2.1, h.2.2.2⟩

/-- A message of operation `op` for the last word of core 5's scratch. -/
def toWord (op len : Nat) (arg : Nat := 0) : FabMsg := { op := op, kw := true, len := len, tag := 77, off := bankAddr 5 0x3FFF8, arg := arg, data := 9 }

/-- A contribution for the block that holds it. -/
def toPot : FabMsg := { op := 0x32, kw := true, len := 64, tag := 77, off := bankAddr 5 0x3FFC0, arg := 1 }

theorem witness_FabricRequestsComplete :
    ((arrived (toWord 1 8)).Ingress 31 3 false (rxOf (toWord 1 8)) 1 ∧ (arrived (toWord 1 8)).IngressBank 31 (rxOf (toWord 1 8)) 8 false 5 0x3FFF8) ∧
    ((arrived (toWord 2 1)).Ingress 31 3 false (rxOf (toWord 2 1)) 2 ∧ (arrived (toWord 2 1)).IngressBank 31 (rxOf (toWord 2 1)) 1 true 5 0x3FFF8) ∧
    ((arrived (toWord 8 8)).Ingress 31 3 false (rxOf (toWord 8 8)) 8 ∧ (arrived (toWord 8 8)).IngressBank 31 (rxOf (toWord 8 8)) 8 true 5 0x3FFF8) ∧
    ((arrived (toWord 0x10 0)).Ingress 31 3 false (rxOf (toWord 0x10 0)) 0x10 ∧ (arrived (toWord 0x14 8)).Ingress 31 3 false (rxOf (toWord 0x14 8)) 0x14 ∧
      (arrived (toWord 0x20 0)).Ingress 31 3 false (rxOf (toWord 0x20 0)) 0x20 ∧ (arrived (toWord 0x23 8)).Ingress 31 3 false (rxOf (toWord 0x23 8)) 0x23 ∧
      (arrived (toWord 0x10 0)).IngressBank 31 (rxOf (toWord 0x10 0)) 8 true 5 0x3FFF8 ∧ (arrived (toWord 0x14 8)).IngressBank 31 (rxOf (toWord 0x14 8)) 8 true 5 0x3FFF8 ∧
      (arrived (toWord 0x20 0)).IngressBank 31 (rxOf (toWord 0x20 0)) 8 true 5 0x3FFF8 ∧ (arrived (toWord 0x23 8)).IngressBank 31 (rxOf (toWord 0x23 8)) 8 true 5 0x3FFF8 ∧
      bankAddr 5 0x3FFF8 % 8 = 0 ∧ 4 ≤ ((arrived (toWord 0x20 0)).setTag (bankAddr 5 0x3FFF8) 4).tag (bankAddr 5 0x3FFF8)) ∧
    (let q := { toWord 3 8 1 with strm := 5 }
     let s := arrived q
     s.Packed ∧ s.rxFront 31 3 false = some (rxOf q) ∧ s.rxDenied 31 q = false ∧ s.kp.fab.finals = [] ∧ 0 < q.arg % 2 ^ 32 ∧
      ((s.rxTake 31 (rxOf q)).streams 9).find? (fun y => y.num = 5) = some { num := 5 }) ∧
    ((arrived toPot).Ingress 31 3 false (rxOf toPot) 0x32 ∧
      ((arrived toPot).rxTake 31 (rxOf toPot)).translate ((arrived toPot).rxWho 31 toPot) (ownAddr toPot.off) true = .to (.bank 5 0x3FFC0) ∧
      ((arrived toPot).fport 31).comb = []) ∧
    ((arrived (toWord 0x40 0 4) true).Ingress 31 3 true (rxOf (toWord 0x40 0 4) true) 0x40 ∧
      ((arrived (toWord 0x40 0 4) true).rxTake 31 (rxOf (toWord 0x40 0 4) true)).reach ((arrived (toWord 0x40 0 4) true).rxWho 31 (toWord 0x40 0 4))
        (ownAddr (bankAddr 5 0x3FFF8)) 8 true = .to (.bank 5 0x3FFF8) ∧ 4 / 2 ^ 63 % 2 = 0) ∧
    (arrived (toWord 0x48 0)).Ingress 31 3 false (rxOf (toWord 0x48 0)) 0x48 ∧
    (let s : State := { run with kp := { run.kp with fab := { run.kp.fab with finals := [⟨31, 9, 3, toWord 3 8 1⟩] } } }
     s.Packed ∧ s.kp.fab.finals = [⟨31, 9, 3, toWord 3 8 1⟩]) ∧
    (let x : FabComb := ⟨true, 9, 3, true, true, vectorPart⟩
     let s := connected 0 { gen := 1 } { comb := [x] }
     s.Packed ∧ x.out = true ∧ (s.fport 31).comb = [x]) :=
  ⟨⟨ingress_of (by decide +kernel), ingressBank_of (by decide +kernel)⟩, ⟨ingress_of (by decide +kernel), ingressBank_of (by decide +kernel)⟩,
    ⟨ingress_of (by decide +kernel), ingressBank_of (by decide +kernel)⟩,
    ⟨ingress_of (by decide +kernel), ingress_of (by decide +kernel), ingress_of (by decide +kernel), ingress_of (by decide +kernel), ingressBank_of (by decide +kernel),
      ingressBank_of (by decide +kernel), ingressBank_of (by decide +kernel), ingressBank_of (by decide +kernel), by decide +kernel, by decide +kernel⟩,
    ⟨rfl, by decide +kernel⟩, ⟨ingress_of (by decide +kernel), by decide +kernel⟩,
    ⟨ingress_of (by decide +kernel), reach_of (by decide +kernel), by decide +kernel⟩, ingress_of (by decide +kernel), ⟨rfl, by decide +kernel⟩,
    ⟨rfl, by decide +kernel⟩⟩

/-- A reply of operation `op` with status `st` to the message of tag 77. -/
def replyOf (op st : Nat) : FabMsg := { op := op, len := 8, tag := 77, strm := st, data := 0x1122334455667788, arg := 3 }

/-- It waits at port 31, and the message was the one request of thread 2's load. -/
def replying (op st : Nat) : State :=
  let s := { arrived (replyOf op st) true with cores := (waiting (.load (.s 31) 8 0 none)).cores }
  { s with kp := { s.kp with fab := { s.kp.fab with outs := [⟨77, 9, 3, 5, 0⟩], groups := [{ id := 5, req := [5, 2, 0], left := 1 }] } } }

theorem witness_FabricRepliesComplete : ∀ x ∈ [(0x80, 0), (0x81, 1), (0x82, 0), (0x83, 0), (0x84, 0x0440), (0x85, 0)],
    let s := replying x.1 x.2
    let r := rxOf (replyOf x.1 x.2) true
    s.kp.fab.cursor = s.sent.length ∧ s.rxFront 31 3 true = some r ∧ s.kp.fab.outs = [⟨77, 9, 3, 5, 0⟩] ∧ 77 = r.msg.tag ∧ 9 = r.peer ∧
      s.kp.fab.groups = [{ id := 5, req := [5, 2, 0], left := 1 }] ∧ r.msg.op = x.1 ∧ Sparse.get [] s.kp.fab.joined 77 = [] ∧ (x.1 < 0x84 → r.msg.strm ≤ 1) := by
  decide +kernel

/-- Function 63, of link 1, is up; its window begins with the banks, and core 5 is the Tenant's. -/
def hosted : State :=
  (((run.setFld WRANGE_n_WORLD 5 0 0).setFld FUNC_STAT_LINK_UP 63 0 1).setFld FUNC_BIND_LINK 63 0 1).setFld FUNC_WIN_BASE 63 0 (0xFFFF * 2 ^ 48 / 2 ^ 30)

/-- The offset of core 5's last word of scratch in that window. -/
def inWindow : BitVec 36 := BitVec.ofNat 36 (5 * 0x400000 + 0x3FFF8)

/-- Two PCIe links are strapped; link 1 and function 63's reads stand so. -/
def linked (l : Link) (reads : List (Nat × Nat) := []) : State :=
  { (hosted.setFld STRAP_STAT_HOST_MODE 0 0 1).setFld PROFILE_STAT_STATE 0 0 1 with cp := { links := [(1, l)], fns := [(63, { reads := reads })] } }

theorem witness_HostLinkCommandsComplete : hosted.cp.cmds = [] ∧ hosted.kp.firm.recovery ≠ 2 ∧
    (∀ n ∈ [1, 8], ∀ write, hosted.fnUp 63 = true ∧ inWindow.toNat + n ≤ 2 ^ (hosted.fn 63).bar4 ∧ 0 < n ∧ (hosted.winAddr 63 inWindow.toNat).toNat % 64 + n ≤ 64 ∧
      reaches (hosted.reach (hosted.fnWho 63) (hosted.winAddr 63 inWindow.toNat) n write) (.bank 5 0x3FFF8) = true ∧ (∀ i < n, hosted.pat (bankAddr 5 0x3FFF8 + i) = 0)) ∧
    (hosted.fn 63).reads = [] ∧ ((linked {} [(inWindow.toNat, 4096)]).fn 63).reads = [(inWindow.toNat, (4096 : Fin 4097).val)] ∧
    hosted.MayPut keeper (0x20050000000 + 63 * 0x200000 + 0x10) 8 ∧
    ((linked {}).fld STRAP_STAT_HOST_MODE 0 0 ≠ 2 ∧ (linked {}).fld STRAP_STAT_HOST_MODE 0 0 = 1) ∧
    (((linked { training := true }).link 1).perst = false ∧ ((linked { training := true }).link 1).training = true) ∧
    (((linked { up := true }).link 1).up = true ∧ ((linked { up := true }).link 1).loop = false) ∧
    ((linked {}).fnUp 63 = true ∧ (linked {}).fld PROFILE_STAT_STATE 0 0 ≠ 0 ∧ (linked {}).cp.cmds = [] ∧ (linked {}).kp.firm.recovery ≠ 2) :=
  ⟨by decide +kernel, by decide +kernel, by decide +kernel, by decide +kernel, by decide +kernel, mayPut_of (p := .mmr 0x20057E00010) (by decide +kernel),
    by decide +kernel, by decide +kernel, by decide +kernel, by decide +kernel⟩

/-- The highest queue, of the Keeper, is enabled with 64 entries in the last page of core 5's scratch; 63 have been fetched. -/
def queued (x : Qp := {}) : State :=
  { (((((run.setFld QP_BIND_KEEPER 16383 0 1).setFld QP_STAT_STATE 16383 0 1).setFld QP_CFG_SQ_LOG2 16383 0 6).setFld QP_CFG_CQ_LOG2 16383 0 6).setFld
      QP_SQ_BASE_BASE 16383 0 ((own 0x3F000).toNat / 4096)).setFld QP_STAT_SQ_HEAD 16383 0 63 with cp := { qps := [(16383, x)] } }

/-- Queue 5 of function 0, which has 16 queues, is disabled. -/
def hostQueue : State := (run.setFld FUNC_BIND_QCOUNT 0 0 16).setFld QP_BIND_LOCAL 5 0 15

/-- A value of QP_CFG that enables a queue of 2^16 entries. -/
def enable : Word := BitVec.ofNat 64 (2 ^ 31 + 16 * 2 ^ 23 + 16 * 2 ^ 18)

theorem witness_QueueCommandsComplete : keeper.keeper = true ∧
    (queued.MayPut keeper (qpOff 16383 0x40) 4 ∧ queued.MayPut keeper (qpOff 16383 0x48) 4 ∧ queued.MayPut keeper (qpOff 16383 0x08) 4 ∧
      queued.MayPut keeper (qpOff 16383 0x58) 4) ∧
    (hostQueue.fld QP_BIND_KEEPER 5 0 = 0 ∧ hostQueue.qLinked 5 = true ∧ hostQueue.fld QP_BIND_LOCAL 5 0 < hostQueue.fld FUNC_BIND_QCOUNT (hostQueue.fld QP_BIND_FUNC 5 0) 0 ∧
      hostQueue.fld QP_CFG_EN 5 0 = 0 ∧ hostQueue.cfgOk 5 enable = true ∧ enable.toNat / 2 ^ 31 % 2 = 1 ∧ hostQueue.cp.cmds = []) ∧
    (queued.qOn 16383 = true ∧ (63 : BitVec 16).toNat < queued.sqSize 16383 ∧ queued.fld QP_BIND_TARGET 16383 0 < 2 ∧ (63 : BitVec 16).toNat < queued.cqSize 16383 ∧
      (0 + queued.cqSize 16383 - queued.fld QP_CQ_HEAD_INDEX 16383 0) % queued.cqSize 16383 ≤
        (queued.fld QP_STAT_CQ_TAIL 16383 0 + queued.cqSize 16383 - queued.fld QP_CQ_HEAD_INDEX 16383 0) % queued.cqSize 16383 ∧ (queued.qp 16383).wait = [] ∧
      queued.fld QP_CFG_IEN 16383 0 = 0) ∧
    ((queued.qp 16383).sqRetry = false ∧ queued.fld QP_BIND_KEEPER 16383 0 = 1 ∧ queued.fld QP_BIND_TARGET 16383 0 = 0 ∧ queued.fld QP_CFG_SQ_HOST 16383 0 = 0 ∧
      queued.fld QP_STAT_SQ_HEAD 16383 0 ≠ queued.fld QP_SQ_TAIL_INDEX 16383 0 ∧
      reaches (queued.reach (queued.qWho 16383) (BitVec.ofNat 64 (queued.fld QP_SQ_BASE_BASE 16383 0 * 4096 + 64 * 63)) 64 false) (.bank 5 0x3FFC0) = true ∧
      (∀ i < 64, queued.pat (bankAddr 5 0x3FFC0 + i) = 0) ∧
      (let words := (List.range 8).map (fun i => wordAt (queued.readLE (bankAddr 5 0x3FFC0) 64) i)
       words.getD 0 0 / 2 ^ 56 = 0 ∧ (queued.setFld QP_STAT_SQ_HEAD 16383 0 0).cmdDetail
        { seq := 0, q := 16383, cid := words.getD 0 0 / 2 ^ 16 % 2 ^ 16, words := words, cls := queued.qClass 16383, plot := queued.fld QP_BIND_PLOT 16383 0,
          phase := .waiting, fetched := 9, total := 0 } = none)) ∧
    (let s := (queued { sqRetry := true }).setFld QP_SQ_TAIL_INDEX 16383 0 63
     (s.qp 16383).sqRetry = true ∧ (s.qp 16383).cqRetry = false ∧ s.fld QP_STAT_SQ_HEAD 16383 0 = s.fld QP_SQ_TAIL_INDEX 16383 0) ∧
    (let s := ((queued { fresh := 1 }).setFld QP_CFG_IEN 16383 0 1).setFld QP_COAL_COAL_T 16383 0 1
     s.fld QP_CFG_IEN 16383 0 = 1 ∧ s.fld QP_COAL_COAL_T 16383 0 ≠ 0 ∧ (s.qp 16383).fresh ≠ 0) ∧
    (let v := (0x1E1 : Word).toNat
     v % 16 + v / 16 % 16 + v / 256 % 16 = 16 ∧ 0 < v % 16 ∧ 0 < v / 16 % 16 ∧ 0 < v / 256 % 16) ∧
    (List.range 64).foldl (fun t i => if i = 63 then t else t + run.fld ADMIT_PLOT_n_LEAD_CMDS 0 i) 0 + 14 ≤ 14 :=
  ⟨by decide, ⟨mayPut_of (p := .mmr 0x20023FFF040) (by decide +kernel), mayPut_of (p := .mmr 0x20023FFF048) (by decide +kernel),
      mayPut_of (p := .mmr 0x20023FFF008) (by decide +kernel), mayPut_of (p := .mmr 0x20023FFF058) (by decide +kernel)⟩, by decide +kernel, by decide +kernel,
    by decide +kernel, by decide +kernel, by decide +kernel, by decide +kernel, by decide +kernel⟩

/-- A command of the Keeper's queue 16383 in a phase, its words from word 0 up. -/
def command (phase : CmdPhase) (words : List Nat) : Cmd := { seq := 3, q := 16383, cid := 0xFFFF, words := words, cls := 0, plot := 0, phase := phase, fetched := 10, total := 2 }

/-- The command processor holds these commands. -/
def holdingCmds (l : List Cmd) (s : State := queued) : State := { s with cp := { s.cp with cmds := l } }

/-- Word 0 of an opcode whose word i is a host address. -/
def opWord (opc : Nat) (hosts : List Nat := []) : Nat := opc * 2 ^ 56 + (hosts.map (fun i => 2 ^ (47 + i))).sum

theorem witness_StepCommandsComplete :
    (∀ p ∈ [CmdPhase.between, .waiting], let k := command p [opWord 0x11]
      k.word 1 = 0 ∧ k.cid < 2 ^ 16 ∧ k.q < 16384 ∧ (holdingCmds [k]).nextStep = some (k, false) ∧ k.racks = false ∧
        (holdingCmds [k]).fld QP_STAT_ACTIVE k.q 0 < 0xFFFF) ∧
    (let k := command .worked [opWord 0x11]
     k.opc = 0x11 ∧ k.done + 1 < k.total ∧ k.aborted = false ∧ k.code = 0 ∧ k.cancelled = false ∧ ∀ p < 8, (holdingCmds [k]).fld RESET_STAT_STATE p 0 ≠ 1) ∧
    run.fld ADMIT_CFG_FOLLOW_WAIT 0 0 ≤ 100000 - (command .waiting []).fetched ∧ run.fld ADMIT_CFG_PASS_WAIT 0 0 ≤ 100000 - (command .waiting []).fetched := by decide +kernel

/-- Words that name core 5's logical number 5 and one core. -/
def oneCore : Nat := 2 ^ 32 + 5

theorem witness_PlainCommandsComplete :
    (let k := command .atFetch [0]
     k.cid < 2 ^ 16 ∧ k.q < 16384 ∧ k.code = 0 ∧ k.opc = 0 ∧ k.after = none ∧ k.word 0 / 2 ^ 55 % 2 = 0) ∧
    (let k : Cmd := { command .atFetch [opWord 3, 0, 2 ^ 16 * 15 + 7] with seq := 4, q := 6 }
     let x : Cmd := { command .waiting [opWord 0x11] with q := 5, cid := 7 }
     let s := holdingCmds [x, k] hostQueue
     s.cp.cmds = [x, k] ∧ k.opc = 3 ∧ s.fld QP_BIND_KEEPER k.q 0 = 0 ∧ s.localQueue (s.fld QP_BIND_FUNC k.q 0) (k.word 2 / 2 ^ 16 % 2 ^ 14) = some x.q ∧ x.cid = k.word 2 % 2 ^ 16 ∧
      s.fld QP_BIND_TARGET x.q 0 = 0 ∧ x.phase = .waiting ∧ x.seq ≠ k.seq ∧ s.plotHeld x.plot = false) ∧
    (∀ opc ∈ [1, 2], (command .granted [opWord opc [2]]).opc = opc ∧ (command .granted [opWord opc [2]]).host 2 = true) ∧
    (let k := command .granted [opWord 0x11, 0, mark, 9, 0x34]
     k.opc = 0x11 ∧ k.word 4 % 4 = 0 ∧ (BitVec.ofNat 64 (k.word 2)).toNat % 64 + 8 ≤ 64 ∧
      reaches ((holdingCmds [k]).reach ((holdingCmds [k]).qWho k.q) (BitVec.ofNat 64 (k.word 2)) 8 true) (.bank 5 0x3FF80) = true ∧
      (∀ j < 8, (holdingCmds [k]).pat (bankAddr 5 0x3FF80 + j) = 0) ∧ ((holdingCmds [k]).core 5).watches = []) ∧
    (let k := command .granted [opWord 0x12 [2], 0, 5, mark, 64]
     k.opc = 0x12 ∧ k.done = 0 ∧ k.word 4 = 64 ∧ k.host 2 = true ∧ k.host 3 = false ∧ (k.addr 3 0).toNat % 64 + 64 ≤ 64 ∧
      reaches ((holdingCmds [k]).reach ((holdingCmds [k]).qWho k.q) (k.addr 3 0) 64 true) (.bank 5 0x3FF80) = true) ∧
    (let k := command .granted [opWord 0x13 [3], 0, oneCore, 5, 2 ^ 32 * 2048 + 0x1000]
     k.opc = 0x13 ∧ k.host 3 = true ∧ (holdingCmds [k]).launchCores k = [(5, 5)] ∧ k.word 4 / 2 ^ 32 % 2 ^ 16 * 2 ≤ 4096 ∧
      (holdingCmds [k]).coreRefuses 5 0x3F0008 8 { Who.keeper with plot := k.plot } = none) ∧
    (let k := command .granted [opWord 0x28, 0, 0xFFFF * 2 ^ 48 + hbmAddr 7 (2 ^ 21), 2 ^ 21]
     let s := holdingCmds [k] (queued.setFld HBM_STAT_STATE 7 0 0)
     k.opc = 0x28 ∧ k.word 3 = 2 ^ 21 ∧ reaches (s.reach (s.qWho k.q) (k.addr 2 0) 8 true) (.hbm 7 (2 ^ 21)) = true) := by decide +kernel

/-- The least full image: PLOT, QUEUE, HOST and POWER sections, the last of one record alone, for the lowest part and stepping. -/
def leastImage (part stepping : Nat) : List Nat :=
  let sec := fun (typ len : Nat) => leBytes typ 4 ++ leBytes 128 4 ++ leBytes len 8
  leBytes 0x494C5A53 4 ++ leBytes 1 4 ++ leBytes 248 4 ++ leBytes 4 2 ++ [part, stepping] ++ leBytes 0 48 ++
    (sec 1 0 ++ sec 7 0 ++ sec 12 0 ++ sec 14 16) ++ (leBytes 1000 8 ++ leBytes 0x20 8) ++ leBytes 0 104

/-- Slot 3 of both devices holds that image. -/
def profiled (s : State) : State :=
  let b := leastImage (s.fld MOD_IDENT_PART 0 0) (s.fld MOD_IDENT_STEPPING 0 0)
  s.setImg { s.kp.img with slots := [(3, b), (7, b)] }

/-- Plot 0 is bound and its pool is one cellar bank, of logical core 5, and one spilled page. -/
def pooled (pages : List PoolPage) (s : State := queued) : State :=
  let s1 := (s.setBind 0 { spill := 1, pool := 5, pooln := 1, vbase := 2 ^ 19, gbase := 0 }).setFld PLOT_STAT_W0_STATE 0 0 1
  (s1.setPool 0 pages).getD s1

/-- Words of a pool command for both pages of that pool. -/
def bothPages : List Nat := [2 ^ 40, 2 ^ 22]

theorem witness_PlotCommandsComplete :
    (let k := command .granted [opWord 0x10, 0, oneCore, 2 ^ 38 + 2 ^ 24 + 0x44]
     let s := holdingCmds [k]
     k.cid < 2 ^ 16 ∧ k.q < 16384 ∧ k.code = 0 ∧ k.opc = 0x10 ∧ k.done = 0 ∧ s.launchCores k = [(5, 5)] ∧ k.word 3 / 2 ^ 32 % 256 = 2 ^ 6 ∧ s.startable 5 6 = true ∧
      s.underTest 5 = false ∧ s.fld KSTAT_ACTIVE 5 0 = 0 ∧ (s.core 5).cache = []) ∧
    (let k := command .launched [opWord 0x10, 0, oneCore, 2 ^ 34, 0, 0, 50]
     let s := (((holdingCmds [k] (waiting (.mmrStore 8))).setFld KSTAT_ACTIVE 5 0 1).setFld KSTAT_RUN 5 0 4)
     k.opc = 0x10 ∧ k.word 6 % 2 ^ 32 ≠ 0 ∧ k.word 6 % 2 ^ 32 ≤ (50 : BitVec 32).toNat ∧ s.launchCores k = [(5, 5)] ∧ s.fld KSTAT_ACTIVE 5 0 = 1 ∧
      s.fld KSTAT_RUN 5 0 = 2 ^ 2 ∧ (s.thr 5 2).st = .waiting) ∧
    (let k : Cmd := { command .granted (opWord 0x20 :: 0 :: bothPages) with done := 1 }
     let s := holdingCmds [k] (pooled [])
     let pages := (s.poolPages k.plot).foldl (fun l x => insertPage x l) []
     k.opc = 0x20 ∧ k.done + 1 = k.total ∧ k.aborted = false ∧ s.poolTake k.plot (s.poolNamed k) pages 0 0 = some ([⟨0, true, 5⟩, ⟨1, false, 0⟩], 2, 1) ∧
      (s.setPool k.plot [⟨0, true, 5⟩, ⟨1, false, 0⟩]).isSome = true) ∧
    (let k : Cmd := { command .granted (opWord 0x21 :: 0 :: bothPages) with done := 1 }
     let s := holdingCmds [k] (pooled [⟨0, true, 5⟩, ⟨1, false, 0⟩])
     let pages := (s.poolPages k.plot).foldl (fun l x => insertPage x l) []
     k.opc = 0x21 ∧ pages.length = 2 ∧ (s.setPool k.plot (pages.filter (fun x => !(s.poolNamed k).contains x.page))).isSome = true) ∧
    (let k : Cmd := { command .granted (opWord 0x22 :: 0 :: bothPages ++ [1]) with done := 1 }
     let s := holdingCmds [k] (pooled [⟨0, true, 5⟩])
     let pages := (s.poolPages k.plot).foldl (fun l x => insertPage x l) []
     let r := s.poolMove k.plot (k.word 4 % 2 = 1) (s.poolNamed k) pages 0 0
     k.opc = 0x22 ∧ k.word 4 % 2 = 1 ∧ r.1 = [⟨0, false, 0⟩] ∧ r.2.1 = 1 ∧ (r.2.2.2.setPool k.plot r.1).isSome = true) ∧
    ((command .granted [opWord 0x30, 0, 63]).opc = 0x30 ∧ (command .granted [opWord 0x30, 0, 63]).word 2 % 64 = 63 ∧ queued.fld PLOT_STAT_W0_STATE 0 63 ≠ 2 ∧ queued.kp.tds = []) ∧
    ((command .granted [opWord 0x42, 0, 7 * 256 + 127]).opc = 0x42 ∧ queued.kp.rep.tests = [] ∧ (queued.setFld TEST_CFG_MIGRATE 0 0 0).fld TEST_CFG_MIGRATE 0 0 = 0 ∧
      (command .granted [opWord 0x42, 0, 7 * 256 + 127]).word 2 / 2 ^ 16 % 2 = 0) ∧
    ((command .granted [opWord 0x43, 0, 2 ^ 9 + 1]).opc = 0x43 ∧ (command .granted [opWord 0x43, 0, 2 ^ 9 + 1]).total ≠ 0 ∧ queued.bad = []) ∧
    (let k := command .granted [opWord 0x40 [2], 0, 0, 2 ^ 20]
     k.opc = 0x40 ∧ k.host 2 = true ∧ k.done = 0 ∧ 0 < k.word 3 ∧ k.word 3 ≤ 2 ^ 20) ∧
    (let k := command .granted [opWord 0x41, 0, 3]
     let s := holdingCmds [k] (profiled queued)
     k.opc = 0x41 ∧ s.kp.img.rebinds = [] ∧
      (s.firstCopy (((s.slotOrder (k.word 2 % 4)).take 2).zip [(true, none), (true, none)])).isSome = true) := by decide +kernel

/-- The job of a command, in a phase, with these pieces. -/
def job (phase : Nat) (pieces : List (Nat × Nat × Nat)) : RackJob := { cmd := 3, plot := 0, cfg := 0, area := 0, phase := phase, pieces := pieces }

/-- The command with that job. -/
def racking (k : Cmd) (j : RackJob) : State := let s := holdingCmds [k]; s.setRack { s.kp.rack with jobs := [j] }

/-- A RACK or RESTORE whose staging area is core 5's scratch at 0x3FD00. -/
def rackCommand (opc : Nat) (v : Nat := 0) (phase : CmdPhase := .granted) : Cmd := command phase [opWord opc, 0, 0, 0, 0, v, (own 0x3FD00).toNat]

/-- VERIFY is FULL and holds a loss. -/
def verified : State :=
  let s := holdingCmds [{ rackCommand 0x39 (own 0x3FE00).toNat .launched with notes := [0x77, 0] }]
  (s.setTag (bankAddr 5 0x3FE00) 5).writeLE (bankAddr 5 0x3FE00) 8 0x77

theorem witness_RackCommandsComplete :
    (let k := rackCommand 0x38
     let s := racking k (job 1 [((own 0x3FF41).toNat, 0x80, 63)])
     let w := s.rackWho k
     k.cid < 2 ^ 16 ∧ k.q < 16384 ∧ k.code = 0 ∧ s.cp.cmds = [k] ∧ k.phase = .granted ∧ k.opc = 0x38 ∧ (job 1 []).nvme = [] ∧
      (own 0x3FF41).toNat % 64 + 63 ≤ 64 ∧ (k.stage 0x80).toNat % 64 + 63 ≤ 64 ∧
      reaches (s.reach w (BitVec.ofNat 64 (own 0x3FF41).toNat) 63 false) (.bank 5 0x3FF41) = true ∧ reaches (s.reach w (k.stage 0x80) 63 true) (.bank 5 0x3FD80) = true ∧
      (∀ i < 63, s.pat (bankAddr 5 0x3FF41 + i) = 0) ∧ ∀ i < 63, s.pat (bankAddr 5 0x3FD80 + i) = 0) ∧
    (let k := rackCommand 0x39
     let s := racking k (job 3 [((own 0x3FF40).toNat, 0x81, 63)])
     let w := s.rackWho k
     k.cid < 2 ^ 16 ∧ k.q < 16384 ∧ k.code = 0 ∧ s.cp.cmds = [k] ∧ k.phase = .granted ∧ k.opc = 0x39 ∧
      (own 0x3FF40).toNat % 64 + 63 ≤ 64 ∧ (k.stage 0x81).toNat % 64 + 63 ≤ 64 ∧
      reaches (s.reach w (BitVec.ofNat 64 (own 0x3FF40).toNat) 63 true) (.bank 5 0x3FF40) = true ∧ reaches (s.reach w (k.stage 0x81) 63 false) (.bank 5 0x3FD81) = true ∧
      (∀ i < 63, s.pat (bankAddr 5 0x3FF40 + i) = 0) ∧ ∀ i < 63, s.pat (bankAddr 5 0x3FD81 + i) = 0) ∧
    (let k := verified.cp.cmds.headD (rackCommand 0)
     verified.cp.cmds = [k] ∧ k.phase = .launched ∧ k.opc = 0x39 ∧ k.word 1 = 0 ∧ k.code = 0 ∧
      reaches (verified.reach (verified.rackWho k) (BitVec.ofNat 64 (k.word 5)) 8 false) (.bank 5 0x3FE00) = true ∧
      4 ≤ verified.tag (bankAddr 5 0x3FE00) ∧ verified.tag (bankAddr 5 0x3FE00) < 8 ∧ verified.pat (bankAddr 5 0x3FE00) = 0) ∧
    (let k := rackCommand 0x39 0 .launched
     let s := racking k (job 3 [])
     s.cp.cmds = [k] ∧ k.phase = .launched ∧ k.opc = 0x39 ∧ k.word 1 = 0 ∧ s.kp.rack.jobs = [job 3 []] ∧ (job 3 []).cmd = k.seq ∧
      bitsOf (job 3 []).cfg 31 16 ≤ (0 : BitVec 32).toNat) ∧
    (let s := run.setRack { run.kp.rack with nvmeOn := true, nvme := [(6, 4)] }
     s.kp.rack.nvme = [(6, 4)] ∧ s.kp.rack.nvmeOn = true ∧ s.kp.rack.jobs = []) := by decide +kernel

/-- A Module reset at its release, with a staged image or none. -/
def releasing (staged : Option (List Nat)) : State :=
  run.setKp { run.kp with modReset := 5, img := { run.kp.img with staged := staged, cause := 2, toReset := true } }

/-- A re-bind of plot 63 that a reset has ended. -/
def broken : Rebind := { plot := 63, cmd := 3, image := [], regs := [], bind := {}, masks := [(5, 0xFF)], aborted := true }

theorem witness_ImageCommandsComplete :
    (let s := releasing (some (leastImage 0 0xB0))
     s.kp.modReset = 5 ∧ s.fld STRAP_STAT_TEST_MODE 0 0 = 0 ∧ s.kp.img.staged = some (leastImage 0 0xB0) ∧ s.kp.img.cause = 2) ∧
    (let s := (releasing none).setFld STRAP_STAT_TEST_MODE 0 0 1
     s.kp.modReset = 5 ∧ s.fld STRAP_STAT_TEST_MODE 0 0 = 1) ∧
    (let s := run.setImg { run.kp.img with toReset := true }
     s.kp.img.toReset = true ∧ s.kp.img.rebinds = [] ∧ s.kp.modReset < 3 ∧ s.kp.hang.phase = .idle ∧ s.boundPlots = []) ∧
    (let s := run.setImg { run.kp.img with rebinds := [broken] }
     s.kp.img.rebinds = [broken] ∧ broken.plot = (63 : Fin 64).val ∧ broken.aborted = true ∧ s.kp.tds = []) ∧
    run.fld STRAP_STAT_PROFILE_PIN_EN 0 0 = 0 ∧
    (let s := profiled (run.setFld STRAP_STAT_PROFILE_PIN_EN 0 0 1)
     s.fld STRAP_STAT_PROFILE_PIN_EN 0 0 = 1 ∧
      (s.firstCopy (((s.slotOrder (3 : Fin 4)).take 2).zip [(true, none), (true, none)])).isSome = true) := by decide +kernel

/-- The least descriptor of a model of slot 7: every table at the start of the pool of `pooled`, its kernel on logical core 5 (R572). -/
def descriptor : List Nat :=
  let at_ := leBytes (2 ^ 40 + 0xFFFF * 2 ^ 48) 8
  leBytes 0x4C444D53 4 ++ [7, 0] ++ leBytes 1 2 ++ leBytes 2 8 ++ leBytes 1 4 ++ leBytes 1 4 ++ at_ ++ leBytes 2 4 ++ leBytes 1 2 ++ leBytes 1 2 ++
    [0, 0, 1, 1] ++ leBytes 5 2 ++ leBytes 1 2 ++ at_ ++ at_ ++ at_ ++ at_ ++ leBytes 0 240

/-- The model of that descriptor. -/
def model (f : SrvModel → SrvModel := id) : SrvModel := f (srvModelOf 0 descriptor)

/-- The engine holds these models and requests, and the command processor these commands. -/
def serving (models : List SrvModel) (reqs : List SrvReq) (cmds : List Cmd := []) (s : State := pooled [⟨0, true, 5⟩]) : State :=
  let s1 := holdingCmds cmds s
  s1.setSrv { s1.kp.srv with models := models, reqs := reqs }

/-- A request in batch slot 0 that has written none of its prompt of one token. -/
def request (f : SrvReq → SrvReq := id) : SrvReq :=
  f { rid := 0x3FFF, plot := 0, q := 16383, cid := 9, cls := 2, words := [0, 0, 2 ^ 57 + 7 * 2 ^ 48 + 2 ^ 32 + 1, 0, 0x3F800000], fetched := 0, tokens := some [1] }

/-- Bytes of host memory. -/
def hostBytes (l : List Nat) : List Vec := (List.range (l.length / 64 + 1)).map (fun i => BitVec.ofNat 512 (ofLe (bytesAt l (64 * i) 64)))

/-- A table of two tokens without merges: each byte value starts as token 1, and the strings have 1 and 64 bytes (R586). -/
def tokenTable : List Nat :=
  leBytes 0x4B4F5453 4 ++ leBytes 2 12 ++ leBytes 64 8 ++ leBytes 1088 8 ++ leBytes 0 32 ++ (List.replicate 256 (leBytes 1 4)).flatten ++
    (leBytes 1 4 ++ leBytes 0 4 ++ leBytes 64 4 ++ leBytes 8 4)

/-- A step of the model that runs here. -/
def stepping : SrvStep := { entries := [⟨0x3FFF, 0, 0, 1, true⟩] }

theorem witness_ServingCommandsComplete :
    (let k := command .atFetch [opWord 0x80 [1], 0, 2 ^ 57 + 7 * 2 ^ 48 + 2 ^ 32 + 1, 0, 0x3F800000]
     let s := serving [model] [] [k] ((pooled [⟨0, true, 5⟩]).setFld SRV_PLOT_A_n_TRACK_LEAD 0 0 1)
     k.cid < 2 ^ 16 ∧ k.q < 16384 ∧ k.word 0 / 2 ^ 55 % 2 = 0 ∧ k.racks = false ∧ s.cp.cmds = [k] ∧ k.phase = .atFetch ∧ k.after = none ∧ k.opc = 0x80 ∧
      srvBadFields (k.word 2) (k.word 4) (k.word 5) = none ∧ s.srvModel k.plot (nbits (k.word 2) 51 48) = some model ∧ model.lost = false ∧ model.leader = none ∧
      k.word 2 / 2 ^ 62 % 4 = 0 ∧ k.word 2 / 2 ^ 60 % 4 = 0 ∧ k.word 2 % 2 ^ 32 ≤ model.d 32 4 - 1 ∧ s.srvRoom k.plot k.cls = none ∧ s.kp.srv.reqs = [] ∧
      k.host 1 = true ∧ (∀ i < k.word 2 % 2 ^ 32, farVal (hostBytes [1]) / 2 ^ (32 * i) % 2 ^ 32 < model.d 8 4)) ∧
    (let k := command .atFetch [opWord 0x81, 0, 9]
     k.word 0 / 2 ^ 55 % 2 = 0 ∧ k.racks = false ∧ k.opc = 0x81 ∧ request.q = k.q ∧ request.cid = k.word 2 % 2 ^ 16 ∧ request.bslot = none) ∧
    (let k := command .atFetch [opWord 0x88 [2]]
     let s := serving [] [] [k]
     let loaded := srvModelOf k.plot (leBytes (farVal (hostBytes descriptor) % 2 ^ 2560) 320)
     k.word 0 / 2 ^ 55 % 2 = 0 ∧ k.racks = false ∧ k.opc = 0x88 ∧ s.kp.srv.models = [] ∧ k.host 2 = true ∧ s.srvCheck loaded = none ∧ loaded.d 38 2 = 1) ∧
    (let k := command .atFetch [opWord 0x89 [2], 0, 0, 7]
     let s := serving [model] [] [k]
     let g := fun (o b : Nat) => farVal (hostBytes tokenTable) / 2 ^ (8 * o) % 2 ^ (8 * b)
     k.word 0 / 2 ^ 55 % 2 = 0 ∧ k.racks = false ∧ k.opc = 0x89 ∧ s.srvModel k.plot (k.word 3) = some model ∧ s.srvBetween k.plot = true ∧ k.host 2 = true ∧
      g 0 4 = 0x4B4F5453 ∧ g 4 4 = model.d 8 4 ∧ g 8 4 = 0 ∧ g 12 4 = 0 ∧ g 40 24 = 0 ∧ (∀ i < g 4 4, 0 < g (g 24 8 + 8 * i) 4 ∧ g (g 24 8 + 8 * i) 4 ≤ 64)) ∧
    (let k := command .atFetch [opWord 0x8A, 0, 7]
     k.opc = 0x8A ∧ k.racks = false ∧ model.plot = k.plot ∧ model.slot = k.word 2 ∧ model.step = none) ∧
    (let k := command .atFetch [opWord 0x8B, 0, 256 * 2 ^ 48 + 255 * 2 ^ 32, 5 * 2 ^ 8, 63]
     let s := serving [] [] [k] run
     k.opc = 0x8B ∧ k.racks = false ∧ s.srvBetween k.plot = true ∧ k.word 4 < 64 ∧ (∀ i < 64, s.fld SRV_PLOT_A_n_TRACK_MAX 0 i ≤ 256) ∧ k.word 2 / 2 ^ 48 ≤ 256 ∧
      k.word 2 / 2 ^ 32 % 2 ^ 15 ≤ k.word 2 / 2 ^ 48 ∧ s.qOn k.q = false ∧ s.fld QP_STAT_STATE k.q 0 = 0 ∧ k.post = true) ∧
    (let r := request (fun r => { r with bslot := some 0, blocks := [0] })
     let s := serving [model] [r]
     model.plot = (0 : Fin 64).val ∧ model.slot = (7 : Fin 8).val ∧ s.plotHeld 0 = false ∧ (∀ c ∈ s.srvCores model, s.underTest c = false) ∧ model.members = [] ∧
      1 ≤ model.d 36 2 ∧ s.kp.srv.reqs = [r] ∧ r.plot = 0 ∧ r.slot = 7 ∧ r.bslot = some 0 ∧ r.stop = false ∧ r.cancels = [] ∧ r.ctx.length = r.pos + 1 ∧
      (r.pos + model.tpp) / model.tpp ≤ r.blocks.length ∧ (s.qp r.q).wait = []) ∧
    (let m := model (fun m => { m with leader := some 4 })
     let s := serving [m] []
     m.leader = some 4 ∧ m.step = none ∧ ∀ c ∈ s.srvCores m, (s.core c).cache = []) ∧
    (let st : SrvStep := { stepping with members := [4095] }
     let m := model (fun m => { m with members := [4095], step := some st })
     m.step = some st ∧ m.leader = none ∧ st.here = true ∧ (4095 : Fin 4096).val ∈ st.members ∧ st.again = false ∧ st.members ≠ [] ∧
      (∀ c ∈ (serving [m] []).srvCores m, (serving [m] []).fld KSTAT_ACTIVE c 0 = 0 ∧ ((serving [m] []).core c).wbLost = false) ∧ m.d 43 1 ≤ 1) ∧
    (let s := serving [] [request] [] run
     request.granted = false ∧ request.cls = 2 ∧ s.fld SRV_PLOT_B_n_FOLLOW_WAIT 0 request.plot * 1000 ≤ 10 ^ 9 - request.fetched ∧ s.qOn request.q = false) ∧
    (let t : SrvTable := { bytemap := [], strings := [], merges := [] }
     let r := request (fun r => { r with tokens := none, enc := some [1] })
     let m := model (fun m => { m with table := some t })
     m.plot = r.plot ∧ m.slot = r.slot ∧ m.step = none ∧ m.table = some t ∧ r.enc = some [1] ∧ t.mergeOnce [1] = none ∧ (∀ y ∈ [1], y < m.d 8 4) ∧
      [1].length ≤ m.d 32 4 - 1) :=
  ⟨by decide +kernel, by decide +kernel, by decide +kernel, by decide +kernel, by decide +kernel, by decide +kernel, by decide +kernel, by decide +kernel, by decide +kernel, by decide +kernel, by decide +kernel⟩

/-- Thread 2's watchdog count has reached the limit. -/
def watched : State := withThr (run.setFld WDOG_CTL_EN 5 0 4) (fun h => { h with wdog := run.fld WDOG_CTL_LIMIT 5 0 * 1024 })

/-- Scrub runs. -/
def scrubbing : State := run.setFld SCRUB_CFG_EN 0 0 1

/-- Core 5 bound to no plot, with a byte at the top of its cellar. -/
def unbound : State := (run.setFld CTX_BIND_BOUND 5 0 0).setByte (bankAddr 5 0x2FFFFF) 0x5A

/-- Half 1 of parcel 7, each island of which kept 255 ps of slack at 0.60 V at every step when it was measured. -/
def measured : State := run.setRep { run.kp.rep with slices := (halfIslands 7 1).map (fun i => (7 * 90 + i, [List.replicate 129 255])) }

/-- At reset no queue is enabled. -/
theorem quiet (q : Nat) : State.reset.qOn q = false := by
  have k : ∀ n, Sparse.get (RegName.resetVal .QP_STAT n 0) ([] : Sparse Word) (RegName.key .QP_STAT n 0) = RegName.resetVal .QP_STAT 0 0 := fun n => by
    unfold Sparse.get; rfl
  have h : ∀ n, State.reset.reg .QP_STAT n 0 = RegName.resetVal .QP_STAT 0 0 := k
  unfold State.qOn State.fld; rw [show QP_STAT_STATE.reg = .QP_STAT from rfl, h]; decide +kernel

theorem witness_FindingAndRepairCommandsComplete :
    (watched.fld WDOG_CTL_EN 5 0 / 2 ^ 2 % 2 = 1 ∧ watched.fld WDOG_CTL_LIMIT 5 0 * 1024 ≤ (watched.thr 5 2).wdog ∧ (watched.thr 5 2).st = .ready) ∧
    (run.setKp { run.kp with flash := [1023, 0] }).kp.flash = 1023 :: [0] ∧
    (0x2FFFE0 % 32 = 0 ∧ scrubbing.fld SCRUB_CFG_EN 0 0 = 1 ∧ scrubbing.fld STRAP_STAT_TEST_MODE 0 0 = 0 ∧ scrubbing.scrubSkips (bankAddr 5 0x2FFFE0) = false ∧
      scrubbing.pat (bankAddr 5 0x2FFFE0) = 0 ∧ (∀ i ∈ [0, 33, 36], let s := scrubbing.setPat (bankAddr 5 0x2FFFE0) (symPat i 15)
        s.pat (bankAddr 5 0x2FFFE0) = symPat i 15 ∧ s.scrubSkips (bankAddr 5 0x2FFFE0) = false)) ∧
    (1440 < max (1441 : BitVec 16).toNat (0 : BitVec 16).toNat ∧ run.fld FLT_STAT_LAPSE_SCRUB 0 0 = 0 ∧ ¬1440 < max (1440 : BitVec 16).toNat (0 : BitVec 16).toNat) ∧
    (let s := (run.setFld TEST_CFG_EN 0 0 1).setFld TEST_CFG_MIGRATE 0 0 0
     s.kp.rep.tests = [] ∧ s.fld TEST_CFG_EN 0 0 = 1 ∧ s.fld TEST_CFG_MIGRATE 0 0 = 0) ∧
    (let s := run.setRep { run.kp.rep with tests := [{ parcel := 7, block := 80 }], overdue := [647] }
     s.kp.rep.tests = [{ parcel := (7 : Fin 8), block := (80 : Fin 81) }] ∧ s.kp.rep.overdue = [(7 : Fin 8).val * 81 + (80 : Fin 81).val]) ∧
    (run.kp.rep.overdue = [] ∧ run.fld FLT_STAT_LAPSE_TEST 0 0 = 0) ∧
    (unbound.Canonical ∧ unbound.logicalOf 5 = some 5 ∧ (unbound.nearSpare 5 (fun _ => true)).isSome = true ∧ Sparse.get 0 unbound.kp.fences 5 < 4 ∧
      unbound.fld CTX_BIND_BOUND 5 0 = 0 ∧ (unbound.core 5).cache = [] ∧ (0x100000 ≤ 0x2FFFFF ∧ 0x2FFFFF < 0x300000)) ∧
    (∀ q, State.reset.qOn q = false) ∧
    (Sparse.get 0 run.kp.rep.rows (5 * 64 + 62) < 4 ∧ Sparse.get 0 run.kp.rep.rows (5 * 64 + 63) < 4) ∧
    ((fabric 3 0).portRouted 31 = false ∧ (fabric 3 0).spareLane 31 1 = true ∧ (fabric 3 0).fld LB_CTL_i_STATE 0 31 ≠ 1) ∧
    Sparse.get 0 run.kp.fences (40000 + 5) ≠ 5 ∧
    (measured.fld STRAP_STAT_TEST_MODE 0 0 = 0 ∧ ∀ k ∈ halfIslands 7 1, Sparse.has measured.kp.rep.slices (7 * 90 + k) = true ∧
      (measured.planStep 7 k).1 ≤ measured.safeStep 7 k 240 ∧ (measured.planStep 7 k).2 ≤ measured.safeStep 7 k 240) ∧
    (let s := run.setFld AGE_CFG_MARGIN_PS 0 0 4
     true = decide ((89 : Fin 90).val % 10 ≥ 5) ∧ (1 : BitVec 8).toNat < s.fld AGE_CFG_MARGIN_PS 0 0 / 2 ∧ s.fld HALF_RAIL_STATUS_VCORE_SET 7 1 < s.vmax) ∧
    ((fabric 3 1).portUp 31 = true ∧ (fabric 3 1).portRouted 31 = true ∧
      (0 : BitVec 8).toNat < ((fabric 3 1).setFld AGE_CFG_EYE_MIN_MV 0 0 20).fld AGE_CFG_EYE_MIN_MV 0 0) ∧
    (State.reset.gated 7 1 = false ∧ ∀ k < 64, State.reset.boundCores k = []) ∧
    Sparse.get 0 run.kp.rep.phases 15 = 0 ∧ (run.fld FW_STAT_UPD_STATE 0 0 ≠ 4 ∧ run.kp.rep.stewards = 2) ∧ 7 ∉ run.kp.rep.ring :=
  ⟨by decide +kernel, by decide +kernel, by decide +kernel, by decide +kernel, by decide +kernel, by decide +kernel, by decide +kernel,
    ⟨⟨by decide +kernel, by decide +kernel, by decide +kernel⟩, by decide +kernel⟩, quiet, by decide +kernel, by decide +kernel, by decide +kernel, by decide +kernel,
    by decide +kernel, by decide +kernel, by decide +kernel, by decide +kernel, by decide +kernel, by decide +kernel⟩

/-- RESET_REQ with GO and FORCED, a domain and an index. -/
def resetWord (dom idx : Nat) : Word := BitVec.ofNat 64 (2 ^ 63 + dom * 2 ^ 56 + 2 ^ 55 + idx)

/-- Parcel p's reset in a state, over core 5. -/
def resetting (st : Nat) : State := (run.setFld RESET_STAT_STATE 0 0 st).setFld RESET_STAT_INDEX 0 0 5

/-- A Compute or Module reset in a state. -/
def moduleReset (m : Nat) (s : State := run) : State := s.setKp { s.kp with modReset := m }

/-- A teardown of plot 63. -/
def tearing : State := run.setKp { run.kp with tds := [{ plot := 63, cmds := [], horizon := 200, next := 0 }] }

theorem witness_ResetCommandsComplete : keeper.keeper = true ∧
    (bitsOf (resetWord 5 65535) 63 63 = 1 ∧ bitsOf (resetWord 5 65535) 58 56 ≤ 5 ∧ bitsOf (resetWord 5 65535) 55 55 = 1 ∧ run.fld RESET_STAT_STATE 7 0 = 0 ∧
      (resetting 3).fld RESET_STAT_STATE 0 0 ≠ 0) ∧
    ((resetting 2).fld RESET_STAT_STATE 0 0 = 2 ∧ (resetting 2).kp.hang.busy = [] ∧ (resetting 2).cp.cmds = [] ∧
      5 ∈ domCores 0 ((resetting 2).fld RESET_STAT_DOMAIN 0 0) ((resetting 2).fld RESET_STAT_INDEX 0 0)) ∧
    (((moduleReset 1).kp.modReset = 1 ∨ (moduleReset 1).kp.modReset = 3) ∧ (moduleReset 1).cp.cmds = [] ∧ (moduleReset 3).kp.modReset = 3) ∧
    ((resetting 3).fld RESET_STAT_STATE 0 0 = 3 ∧ (resetting 3).kp.hang.todo = [] ∧ (resetting 3).fld CTX_BIND_BOUND 5 0 = 1 ∧ (resetting 3).repairFenced 5 = false ∧
      (resetting 3).gated (coreP 5) (coreHalf 5) = false) ∧
    ((moduleReset 2).kp.modReset = 2 ∧ (moduleReset 2).kp.tds = [] ∧ (moduleReset 2).fld CTX_BIND_BOUND 5 0 = 1 ∧ (moduleReset 2).repairFenced 5 = false ∧
      (moduleReset 2).gated (coreP 5) (coreHalf 5) = false) ∧
    ((moduleReset 4).kp.modReset = 4 ∧ (moduleReset 4).kp.pinLow = false) ∧
    (run.kp.hang = {} ∧ run.boundPlots = [] ∧ run.kp.modReset = 0 ∧ (∀ w ∈ [2147483648, 2147483649],
      w < 2 ^ 32 ∧ bitsOf (BitVec.ofNat 64 w) 31 31 = 1 ∧ bitsOf (BitVec.ofNat 64 w) 1 0 ≤ 1)) ∧
    (tearing.kp.tds = [{ plot := (63 : Fin 64), cmds := [], horizon := 200, next := 0 }] ∧ 200 ≤ (200 : BitVec 16).toNat ∧ tearing.kp.img.rebinds = [] ∧
      tearing.kp.hang = {} ∧ tearing.resetHolds 63 = false ∧ (resetting 2).resetHolds ((resetting 2).fld CTX_BIND_PLOT 5 0) = true) :=
  ⟨by decide +kernel, by decide +kernel, by decide +kernel, by decide +kernel, by decide +kernel, by decide +kernel, by decide +kernel, ⟨by decide +kernel, by decide +kernel, by decide +kernel, by decide +kernel⟩,
    by decide +kernel⟩

/-- Hangs are detected and dumped, and plot 0 is bound. -/
def detecting : State := ((run.setFld HANG_CFG_EN 0 0 1).setFld HANG_CFG_DUMP 0 0 1).setFld PLOT_STAT_W0_STATE 0 0 1

/-- What the Keeper holds of a hang. -/
def hung (f : Hang → Hang) : State := run.setHang (f run.kp.hang)

theorem witness_HangCommandsComplete : keeper.keeper = true ∧
    (detecting.kp.hang = {} ∧ detecting.fld HANG_CFG_EN 0 0 = 1 ∧ detecting.fld HANG_CFG_DUMP 0 0 = 1 ∧ detecting.kp.modReset = 0 ∧
      detecting.fld CTX_BIND_BOUND 5 0 = 1 ∧ detecting.fld CTX_BIND_PLOT 5 0 = 0 ∧ detecting.fld PLOT_STAT_W0_STATE 0 0 = 1 ∧ detecting.kp.tds = [] ∧
      detecting.gated (coreP 5) (coreHalf 5) = false) ∧
    (let s := hung (fun h => { h with phase := .resetting, left := [63, 2] })
     s.kp.hang.phase = .resetting ∧ s.kp.hang.todo = [] ∧ s.kp.hang.busy = [] ∧ s.kp.hang.left = 63 :: [2]) ∧
    (let s := hung (fun h => { h with phase := .replaying, replay := some 1, left := [63, 2] })
     s.kp.hang.replay = some 1 ∧ s.fld HANG_CFG_REPLAY_MS 0 0 ≤ 10 ^ 9 ∧ s.kp.hang.left = [63, 2]) ∧
    (let d : DumpReq := { reason := 4, id := 9 }
     let s := (hung (fun h => { h with dumps := [d] })).setFld HBM_STAT_STATE (run.fld DUMP_CFG_STACK 0 0) 0 0
     s.kp.hang.dumps = [d] ∧ d.reason = 4 ∧ d.doms = [] ∧ s.fld DUMP_CFG_DEST 0 0 = 0 ∧ s.fld HBM_STAT_STATE (s.fld DUMP_CFG_STACK 0 0) 0 = 0 ∧ s.kp.hang.silent = []) ∧
    run.kp.hang.dumps = [] := by decide +kernel

/-- The servo follows source `src` in a state, and has heard a master at port 31. -/
def timing (src st : Nat) : State :=
  (((run.setFld TIME_CFG_SRC 0 0 src).setFld TIME_SRC_STATE 0 0 st).setFld PORT_CFG_PTP 31 0 1).setServo { run.kp.servo with masters := [(31, ([1, 2], 37))], good := 3 }

theorem witness_TimeCommandsComplete : keeper.keeper = true ∧
    ((timing 0 2).fld TIME_CFG_SRC 0 0 = 0 ∧ (timing 0 2).bestMaster = some 31 ∧ (timing 0 2).fld TIME_SRC_STATE 0 0 = 2 ∧ timeOf 0 ≤ (timing 0 2).timeNow) ∧
    ((timing 2 0).fld TIME_CFG_SRC 0 0 = 2 ∧ (timing 2 0).kp.servo.edge = none ∧ timeOf 0 ≤ (timing 2 0).timeNow ∧ (timing 1 1).fld TIME_CFG_SRC 0 0 = 1) ∧
    (timing 0 1).fld TIME_SRC_STATE 0 0 = 1 ∧ (run.setFld TIME_CFG_REF10 0 0 1).fld TIME_CFG_REF10 0 0 = 1 ∧
    bitsOf (BitVec.ofNat 64 (2 * 2 ^ 28 + 255 * 2 ^ 16)) 29 28 ≤ 2 ∧ (0 : BitVec 8).toNat = (timing 0 2).fld TIME_CFG_DOMAIN 0 0 := by decide +kernel

/-- Firmware runs, and session 7's requester authenticated to the owner root. -/
def managed : State := (run.setFirm { run.kp.firm with run := [0] }).setMgmt { run.kp.mgmt with sessions := [(7, true)] }

/-- Requests by SMBus in that session, by a KMP datagram in it, and by a DOE mailbox. -/
def bySmbus : MgmtSrc := ⟨.smbus, 0x20, none, some 7⟩
/-- By KMP. -/
def byKmp : MgmtSrc := ⟨.mgmtPort, 0x20, some 0xFFFFFFFF, some 7⟩
/-- By DOE. -/
def byDoe : MgmtSrc := ⟨.doe, 0, none, none⟩

/-- ARGS that write one fabric register: PORT_CFG of port 31 (R710). -/
def fabricArgs : List Nat := beBytes 1 2 ++ [0, 0, 0, 0] ++ beBytes (portOff 31 0) 6 ++ beBytes 0x40000000 8

/-- A KMP datagram that carries GET_INFO. -/
def datagram : List Nat := [1, 0x7F, 0, 4, 0xFF, 0xFF, 0xFF, 0xFF, 1, 0, 0, 0]

/-- A platform event that waits for a receiver that polls. -/
def eventful : State := managed.setKp { managed.kp with events := { mode := 2, addr := 0x20, waiting := [⟨0xF0, 0, [1, 2]⟩], dropped := 3 } }

theorem witness_ManagementMessagesComplete :
    (∀ src ∈ [bySmbus, byKmp], managed.fwRuns = true ∧ pathCarries src.path 0x7F = true ∧ managed.stored src = none ∧ managed.authentic src = true ∧
      pathCarries src.path 1 = true) ∧
    (argBe [1, 0] 4 2 ≠ 0xFFFF ∧ managed.kp.rack.asked = [] ∧ argBe [0, 1, 0, 2, 1] 8 1 % 2 = 1 ∧ managed.kp.rack.successors = []) ∧
    (let l := [63, 0, 0, 1, 0x0F, 0xFF, 0xFF, 0xFE]
     l.length = 8 ∧ argBe l 6 2 = 1 ∧ argBe l 4 1 < 64 ∧ argBe l 8 2 < 4096 ∧ argBe l 10 2 ≠ 0xFFFF ∧ managed.fld TU_SYNC_DONE 63 0 = 1) ∧
    (fabricArgs.length = 20 ∧ argBe fabricArgs 4 2 = 1 ∧ fabEntries fabricArgs = [(some ⟨.PORT_CFG, 31, 0, 0⟩, 0x40000000)]) ∧
    (managed.kp.hang.dumps = [] ∧ argBe [0] 4 1 % 2 = 0 ∧ managed.fld FW_STAT_TRIAL 0 0 = 0 ∧ fwSvn managed.kp.firm.run ≤ 64 ∧
      (managed.setFld FW_STAT_TRIAL 0 0 1).fld FW_STAT_TRIAL 0 0 = 1 ∧ managed.kp.mgmt.root = none ∧ argBe (1 :: List.replicate 19 0) 4 1 < 2 ∧
      (managed.setFld TIME_CFG_SRC 0 0 1).fld TIME_CFG_SRC 0 0 = 1) ∧
    (bySmbus.path = .smbus ∧ managed.stored bySmbus = none ∧ (254 : BitVec 8) ≠ 0 ∧ (254 : BitVec 8) ≠ 255) ∧
    (datagram.length = 12 ∧ datagram.getD 0 0 = 1 ∧ datagram.getD 1 0 = 0x7F ∧ ofBe (bytesAt datagram 2 2) = 4 ∧ datagram.getD 8 0 = 1 ∧ datagram.getD 9 0 = 0 ∧
      managed.stored ⟨.fabric, 0x20, some (BitVec.ofNat 32 (ofBe (bytesAt datagram 4 4))), none⟩ = none) ∧
    (byDoe.path = .doe ∧ managed.stored byDoe = none ∧ (7, true) ∈ managed.kp.mgmt.sessions) ∧
    (let s := managed.setMgmt { managed.kp.mgmt with static := some (0, 24, 10 :: 0 :: 0 :: 9 :: List.replicate 12 0) }
     s.kp.mgmt.static = some (0, 24, 10 :: 0 :: 0 :: 9 :: List.replicate 12 0) ∧ ofBe [10, 0, 0, 9] = 0x0A000009) ∧
    (0x30 ∉ managed.kp.mgmt.disabled ∧ 0x22 ∈ numericSensors ∧ 0x22 ∉ managed.kp.mgmt.disabled ∧ managed.kp.events.addr ≠ 0x77 ∧
      eventful.kp.events.waiting = [⟨0xF0, 0, [1, 2]⟩]) :=
  ⟨by decide +kernel, by decide +kernel, by decide +kernel, by decide +kernel, by decide +kernel, by decide +kernel, by decide +kernel, by decide +kernel,
    by decide +kernel, by decide +kernel⟩

/-- The least firmware bundle: Rootstock code of 8 bytes and core Keeper code of none, SVN 64 (R713). -/
def leastBundle : List Nat :=
  leBytes 0x57465A53 4 ++ leBytes 1 2 ++ [2, 0] ++ leBytes 224 4 ++ leBytes 2 2 ++ [managed.fld MOD_IDENT_PART 0 0, managed.fld MOD_IDENT_STEPPING 0 0] ++
    leBytes 64 48 ++ (leBytes 0x0101 4 ++ leBytes 96 4 ++ leBytes 16 8) ++ (leBytes 0x0102 4 ++ leBytes 112 4 ++ leBytes 8 8) ++
    (leBytes 0 4 ++ leBytes 8 4 ++ leBytes 0 8) ++ leBytes 0 8 ++ leBytes 0 104

/-- Firmware with a part of its state replaced, and what UPD_STATE and TRIAL show. -/
def updating (f : Firm → Firm) (st : Nat := 0) (trial : Nat := 0) (s : State := managed) : State :=
  ((s.setFirm (f s.kp.firm)).setFld FW_STAT_UPD_STATE 0 0 st).setFld FW_STAT_TRIAL 0 0 trial

/-- A bundle in the recovery buffer. -/
def recovering : State := updating (fun x => { x with recovery := 2, buffer := ((List.range 224).zip leastBundle).filter (fun e => e.2 ≠ 0) })

theorem witness_FirmwareCommandsComplete :
    (∀ src ∈ [bySmbus, byKmp], ∀ u ∈ [0, 1, 2, 4], let s := updating (fun x => { x with upd := u }) (if u = 4 then 3 else 0)
      s.fwRuns = true ∧ pathCarries src.path 1 = true ∧ s.stored src = none ∧ s.kp.firm.upd = u ∧ s.fld FW_STAT_TRIAL 0 0 = 0 ∧
        s.fld FW_STAT_UPD_STATE 0 0 = (if u = 4 then 3 else 0)) ∧
    (let s := updating (fun x => { x with upd := 3, size := 224, got := leastBundle.take 100 }) 1
     s.kp.firm.upd = 3 ∧ (s.kp.firm.got ++ ((leastBundle.drop 100).take 123)).length < s.kp.firm.size ∧
      (s.kp.firm.got ++ leastBundle.drop 100).length = s.kp.firm.size ∧ s.fwCheck (s.kp.firm.got ++ leastBundle.drop 100) true = 0) ∧
    (let s := updating (fun x => { x with upd := 4 }) 4
     s.fld FW_STAT_UPD_STATE 0 0 = 4 ∧ s.keeperBoundary = true) ∧
    (let s := (updating id 5 1).setFld FW_CFG_TRIAL_MIN 0 0 30
     s.fld FW_STAT_TRIAL 0 0 = 1 ∧ s.fld FW_CFG_TRIAL_MIN 0 0 ≠ 0 ∧ s.fld FW_CFG_TRIAL_MIN 0 0 ≤ (30 : BitVec 16).toNat ∧ s.fld FLT_STAT_LAPSE_KEEPER 0 0 = 0) ∧
    (recovering.kp.firm.recovery = 2 ∧
      recovering.fwCheck ((List.range (min (224 : BitVec 32).toNat (32 * 2 ^ 20))).map (fun i => Sparse.get 0 recovering.kp.firm.buffer i)) false = 0) ∧
    (let s := updating (fun x => { x with recovery := 3, banks := [(0, leastBundle)] })
     s.kp.firm.recovery ≠ 0 ∧ s.kp.firm.boots = [] ∧ s.fwCheck (s.fwBank s.spiFirst 0) false = 0) :=
  ⟨by decide +kernel, by decide +kernel, by decide +kernel, by decide +kernel, by decide +kernel, by decide +kernel⟩

/-- The debug level is FULL. -/
def full : State := sup.setFld DBG_LOCK_LEVEL 0 0 2

/-- The test strap is set, so that every interface is out of service (R727). -/
def factory : State := full.setFld STRAP_STAT_TEST_MODE 0 0 1

/-- LB_CTL_i for lane 0 at depth 3, and at the reserved depth 7. -/
def loopBits : Word := 3 + 1 <<< 8

/-- Thread 2 of core 5 HALTED out of READY with a staged word. -/
def heldThread (timer : Bool) : State :=
  ((withThr full (fun h => { h with st := .halted, preHalt := some .ready, sendTimer := timer, send := [(0, 1)] })).setTf SEND_STAT_STAGED 5 2 1).setFld
    DBG_HOLD_CHAN_HOLD_LIMIT 0 0 100

/-- A request for level FULL with the nonce and key 0. -/
def fullRequest : List (BitVec 8) :=
  ([2, 0, 0, 0, 0, 0, 0, 0] ++ (List.range 2).flatMap (fun i => leBytes (sup.reg .DBG_NONCE_i 0 i).toNat 8) ++ List.replicate 96 0).map (BitVec.ofNat 8)

theorem witness_TestAndDebugCommandsComplete :
    (full.dbgFull = true ∧ sup.MayPut keeper (dbgOff (0x100 + 16 * 43)) 8 ∧ sup.MayPut keeper (turnOff 10367) 8 ∧ sup.MayPut keeper (dbgOff 0) 8) ∧
    (factory.factory = true ∧ (∀ lb ∈ [0, 31, 32, 33, 34, 41, 42, 43], factory.loopRefused lb loopBits = false ∧ factory.loopRefused lb (loopBits + 4) = true) ∧
      full.loopRefused 32 loopBits = true ∧ (full.setFld LB_CTL_i_STATE 0 33 1).fld LB_CTL_i_STATE 0 33 = 1) ∧
    (let s := (full.setFld RTR_LINKERR_DOWN 10367 0 8).setFld RTR_TURN_DONE 10367 0 1
     let v : Word := 8 + 0x30 + 0xFFFF <<< 16
     bitsOf v 3 0 &&& (15 - s.fld RTR_LINKERR_DOWN 10367 0) = 0 ∧ s.fld RTR_LINKERR_DOWN 10367 0 / 2 ^ bitsOf v 5 4 % 2 = 1 ∧ s.fld RTR_TURN_DONE 10367 0 = 1 ∧
       bitsOf v 31 16 ≠ 0 ∧ (s.setFld RTR_TURN_DONE 10367 0 0).fld RTR_TURN_DONE 10367 0 = 0) ∧
    full.dbgThread 5 2 = true ∧
    (full.translate full.dbgWho (own 0x3FFC0) false = .to (.bank 5 0x3FFC0) ∧
      (full.jtag .dbgAccess).reach full.dbgWho (own 0x3FFC0) 64 false = .to (.bank 5 0x3FFC0) ∧ (own 0x3FFC0).toNat % 64 + 64 ≤ 64 ∧
      (∀ i < 64, full.pat (bankAddr 5 0x3FFC0 + i) = 0)) ∧
    (let b := fullRequest.map (fun y => y.toNat)
     fullRequest.length = 120 ∧ b.getD 0 0 = 2 ∧ b.getD 1 0 = 0 ∧ ofLe (bytesAt b 2 2) = 0 ∧
      bytesAt b 8 16 = (List.range 2).flatMap (fun i => leBytes (sup.reg .DBG_NONCE_i 0 i).toNat 8) ∧ ofLe (bytesAt b 4 4) < 4 ∧
      sup.fld FUSE_STAT_REVOKED 0 0 / 2 ^ ofLe (bytesAt b 4 4) % 2 = 0 ∧ sup.imgSecure = false) ∧
    ((full.thr 5 2).st = .ready ∧ ((withThr full (fun h => { h with haltReq := true })).thr 5 2).haltReq = true ∧
      ((withThr full (fun h => { h with haltReq := true })).thr 5 2).stopReq = false ∧ ((withThr full (fun h => { h with haltReq := true })).thr 5 2).st = .ready) ∧
    (∀ timer ∈ [false, true], (heldThread timer).dbgThread 5 2 = true ∧ ((heldThread timer).thr 5 2).st = .halted ∧
      ((heldThread timer).thr 5 2).preHalt = some .ready ∧ ((heldThread timer).thr 5 2).sendTimer = timer) ∧
    ((heldThread false).tf SEND_STAT_STAGED 5 2 ≠ 0 ∧ (heldThread false).fld DBG_HOLD_CHAN_HOLD_LIMIT 0 0 ≤ (100 : BitVec 32).toNat) :=
  ⟨⟨by decide +kernel, mayPut_of (p := .root 0x210000803B0) (by decide +kernel), mayPut_of (p := .mmr (turnOff 10367)) (by decide +kernel),
      mayPut_of (p := .root 0x21000080000) (by decide +kernel)⟩, by decide +kernel, by decide +kernel, by decide +kernel,
    ⟨by decide +kernel, reach_of (by decide +kernel), by decide +kernel, by decide +kernel⟩, by decide +kernel, by decide +kernel, by decide +kernel,
    by decide +kernel⟩

/-- After reset no queue is on. -/
theorem queues_off (q : Nat) : State.reset.qOn q = false := by
  have h : State.reset.reg .QP_STAT q 0 = RegName.resetVal .QP_STAT q 0 := rfl
  have z : RegName.resetVal .QP_STAT q 0 = RegName.resetVal .QP_STAT 0 0 := by simp [RegName.resetVal]
  have f : QP_STAT_STATE.reg = .QP_STAT := rfl
  rw [State.qOn, State.fld, f, h, z]
  decide +kernel

/-- The module with its rails up and feeds in range, or powered by AUX alone. -/
def powered (good a b : Nat) : State :=
  (((managed.setPower { managed.kp.power with aux := true }).setFld PWR_STAT_PWR_GOOD 0 0 good).setFld PWR_STAT_FEED_A_OK 0 0 a).setFld PWR_STAT_FEED_B_OK 0 0 b

theorem witness_PowerCommandsComplete :
    State.reset.kp.power.aux = false ∧
    (let s := powered 0 0 0
     s.kp.power.aux = true ∧ s.fwRuns = true ∧ s.kp.firm.recovery = 0 ∧ s.fld PWR_STAT_PWR_GOOD 0 0 = 0 ∧ s.kp.power.trip = false) ∧
    (let s := powered 1 1 1
     s.fld PWR_STAT_PWR_GOOD 0 0 = 1 ∧ s.fld PWR_STAT_FEED_A_OK 0 0 = 1 ∧ s.fld PWR_STAT_FEED_B_OK 0 0 = 1 ∧ s.kp.power.trip = false) ∧
    ((powered 1 1 0).fld PWR_STAT_FEED_A_OK 0 0 = 1 ∧ (powered 1 1 0).fld PWR_STAT_FEED_B_OK 0 0 = 0 ∧
      (powered 1 0 1).fld PWR_STAT_FEED_B_OK 0 0 = 1 ∧ (powered 1 0 1).fld PWR_STAT_FEED_A_OK 0 0 = 0) ∧
    (let s := State.reset.setPower { State.reset.kp.power with trip := true }
     s.kp.power.trip = true ∧ s.fld PWR_STAT_POWER_EN 0 0 = 0) ∧
    ((∀ q, State.reset.qOn q = false) ∧ (0x22 : BitVec 16).toNat ∈ numericSensors ∧ (0x1F : BitVec 16).toNat - 0x18 ∉ State.reset.kp.power.hot) ∧
    sup.MayPut keeper 0x21000090000 4 :=
  ⟨by decide +kernel, by decide +kernel, by decide +kernel, by decide +kernel, by decide +kernel, ⟨queues_off, by decide +kernel⟩, mayPut_of (p := .root 0x21000090000) (by decide +kernel)⟩
/-- A state that lists memory, has sent a message, and has a command waiting. -/
def waitingOne : State := { State.reset.writeLE 0x100 8 0x1234 with pending := [.bypass], sent := [⟨.pin, [0, 1]⟩] }

theorem witness_StepKeepsTheInvariant : waitingOne.Canonical ∧ waitingOne.kp.fab.cursor ≤ waitingOne.sent.length ∧ nextHas (step waitingOne) (fun t => t.pending = []) = true :=
  ⟨⟨by decide +kernel, by decide +kernel, by decide +kernel⟩, by decide +kernel, by decide +kernel⟩

/-- R634, R688 and R420: what persists across the loss of AUX. A fault record not yet copied to SPI NOR does not. -/
theorem test_aux_loss_keeps : nextHas (execAuxLoss ((((((powered 1 1 1).setReg .FLT_REC_W1 0 3 7).setReg .FLT_REC_W1 0 4 8).setFld RACK_STAT_FAILS 0 0 5).setFld
      HBM_STAT_RETIRED 6 0 9).setKp { managed.kp with flash := [4] })) (fun u =>
    decide (u.reg .FLT_REC_W1 0 3 = 7 ∧ u.reg .FLT_REC_W1 0 4 = 0 ∧ u.fld RACK_STAT_FAILS 0 0 = 5 ∧ u.fld HBM_STAT_RETIRED 6 0 = 9)) = true := by decide +kernel

end Sys2Proof.Tests
end

section
/-!
SUPPORT and O2. What the accessors read in the state right after reset: each of its maps lists nothing, so every accessor gives its default.
-/
namespace Sys2Proof.Machine

/-! ### What the state after reset reads as -/

@[simp] theorem State.byte_reset (a : Nat) : State.reset.byte a = 0 := Sparse.get_nil ..

@[simp] theorem State.tag_reset (a : Nat) : State.reset.tag a = 0 := Sparse.get_nil ..

@[simp] theorem State.pat_reset (a : Nat) : State.reset.pat a = 0 := Sparse.get_nil ..

@[simp] theorem State.reg_reset (r : RegName) (u i : Nat) : State.reset.reg r u i = r.resetVal u i := Sparse.get_nil ..

@[simp] theorem State.core_reset (c : Nat) : State.reset.core c = {} := Sparse.get_nil ..

@[simp] theorem State.thr_reset (c t : Nat) : State.reset.thr c t = {} := by
  rw [State.thr, State.core_reset]
  exact Sparse.get_nil ..

@[simp] theorem State.x_reset (c t : Nat) (n : BitVec 5) : State.reset.x c t n = 0 := by
  rw [State.x, State.thr_reset]
  exact Sparse.get_nil ..

@[simp] theorem State.vr_reset (c t : Nat) (n : BitVec 5) : State.reset.vr c t n = 0 := by
  rw [State.vr, State.thr_reset]
  exact Sparse.get_nil ..

theorem State.reset_canonical : State.reset.Canonical := ⟨rfl, rfl, rfl⟩

/-- The reset value of PLOT_STAT has every field 0, whatever the plot. -/
theorem RegName.resetVal_PLOT_STAT_W0 (u i : Nat) : RegName.resetVal .PLOT_STAT_W0 u i = 0 := by
  have place_free : RegName.resetVal .PLOT_STAT_W0 u i = RegName.resetVal .PLOT_STAT_W0 0 0 := rfl
  rw [place_free]
  decide +kernel

/-- PLOT_STAT.STATE of each of the 64 plots is 0, so no plot is bound (R522). -/
@[simp] theorem State.boundPlots_reset : State.reset.boundPlots = [] := by
  have unbound (n : Nat) : State.reset.fld PLOT_STAT_W0_STATE 0 n = 0 := by
    have hreg : State.reset.reg PLOT_STAT_W0_STATE.reg 0 n = 0 := (State.reg_reset ..).trans (RegName.resetVal_PLOT_STAT_W0 0 n)
    rw [State.fld, hreg]
    rfl
  simp [State.boundPlots, unbound]

/-! ### The obligation -/

/-- Settles O2: the maps of the state after reset list nothing, so every accessor reads its default, and the defaults of a core and of a thread are those
of a core held in reset and of a STOPPED thread. Memory that reads 0 and the reset values whose source the spec names without a number are the model's
choices (notes/assumptions/5.md, notes/assumptions/3.md, notes/assumptions/91.md). -/
theorem resetStateIsAsTheSpecSays : Obligations.ResetStateIsAsTheSpecSays := by
  have memory (a : Nat) : State.reset.byte a = 0 ∧ State.reset.tag a = 0 ∧ State.reset.pat a = 0 :=
    ⟨State.byte_reset a, State.tag_reset a, State.pat_reset a⟩
  have cores (c : Nat) : (State.reset.core c).inReset = true ∧ (State.reset.core c).cache = [] ∧ (State.reset.core c).mq = [] := by simp
  have threads (c t : Nat) : (State.reset.thr c t).pc = 0 ∧ (State.reset.thr c t).st = .stopped ∧
      ∀ n, State.reset.x c t n = 0 ∧ State.reset.vr c t n = 0 := by simp
  refine ⟨State.reset_canonical, rfl, rfl, Nat.le_refl 0, memory, State.boundPlots_reset, rfl, State.reg_reset, fun c => ?_⟩
  obtain ⟨held, noCache, noQueue⟩ := cores c
  exact ⟨held, noCache, noQueue, threads c⟩

end Sys2Proof.Machine
end

section
/-!
SUPPORT and O10. What going on to the next word leaves alone, a word whose guard is off, and a word of a thread that the issue slot does not choose.
-/
namespace Sys2Proof.Machine

/-! ### What going on to the next word leaves alone -/

/-- The state u differs from e at most in where thread t of core c stands: its program counter, delay slot, shadow and loop levels. -/
structure State.OnlyMoves (u e : State) (c t : Nat) : Prop where
  memory : u.SameMemory e
  sent : u.sent = e.sent
  kp : u.kp = e.kp
  x : (u.thr c t).x = (e.thr c t).x
  v : (u.thr c t).v = (e.thr c t).v
  p : (u.thr c t).p = (e.thr c t).p
  mb : (u.thr c t).mb = (e.thr c t).mb
  stepReq : (u.thr c t).stepReq = (e.thr c t).stepReq
  singleStep : u.tf dstat_SS c t = e.tf dstat_SS c t

theorem State.SameMemory.refl (s : State) : s.SameMemory s := ⟨rfl, rfl, rfl⟩

theorem State.OnlyMoves.refl (e : State) (c t : Nat) : e.OnlyMoves e c t :=
  ⟨State.SameMemory.refl e, rfl, rfl, rfl, rfl, rfl, rfl, rfl, rfl⟩

theorem State.OnlyMoves.trans {u v e : State} {c t : Nat} (a : u.OnlyMoves v c t) (b : v.OnlyMoves e c t) : u.OnlyMoves e c t where
  memory := ⟨a.memory.1.trans b.memory.1, a.memory.2.1.trans b.memory.2.1, a.memory.2.2.trans b.memory.2.2⟩
  sent := a.sent.trans b.sent
  kp := a.kp.trans b.kp
  x := a.x.trans b.x
  v := a.v.trans b.v
  p := a.p.trans b.p
  mb := a.mb.trans b.mb
  stepReq := a.stepReq.trans b.stepReq
  singleStep := a.singleStep.trans b.singleStep

/-- Replacing the thread by one with the same registers and mailboxes only moves it. -/
theorem State.onlyMoves_setThr (e : State) (c t : Nat) {h : Thread} (x : h.x = (e.thr c t).x) (v : h.v = (e.thr c t).v) (p : h.p = (e.thr c t).p)
    (mb : h.mb = (e.thr c t).mb) (q : h.stepReq = (e.thr c t).stepReq) : (e.setThr c t h).OnlyMoves e c t := by
  refine ⟨State.SameMemory.refl e, rfl, rfl, ?_, ?_, ?_, ?_, ?_, rfl⟩ <;> rw [State.thr_setThr_same] <;> assumption

/-- Loop levels are a field of lstat, single-stepping one of dstat. -/
theorem State.onlyMoves_setActive (e : State) (c : CoreId) (t : ThreadId) (a : Nat) : (e.setTf lstat_ACTIVE c t a).OnlyMoves e c t := by
  refine ⟨State.SameMemory.refl e, rfl, rfl, rfl, rfl, rfl, rfl, rfl, ?_⟩
  unfold State.tf State.setTf
  exact State.fld_setFld_other e lstat_ACTIVE dstat_SS _ _ _ _ _ _ _ (by omega) (by omega) (by omega) (by omega) (by simp [dstat_SS, lstat_ACTIVE])

theorem State.onlyMoves_loopEnd (e : State) (c : CoreId) (t : ThreadId) (w next k : Nat) : (e.loopEnd c t w next k).2.OnlyMoves e c t := by
  induction k generalizing e with
  | zero => exact State.OnlyMoves.refl e c t
  | succ k ih =>
    have counted (n : Nat) : (e.setThr c t { e.thr c t with lc := Sparse.set 0 (e.thr c t).lc k n }).OnlyMoves e c t :=
      e.onlyMoves_setThr c t rfl rfl rfl rfl rfl
    simp only [State.loopEnd]
    split
    · split
      · exact counted _
      · exact ((ih _).trans (State.onlyMoves_setActive _ c t _)).trans (counted 0)
    · exact ih e

theorem State.OnlyMoves.goesTo {u e : State} {c t : Nat} (m : u.OnlyMoves e c t) (pc : Nat) (slot : Option Slot) (shadow : Nat) :
    (u.setThr c t { u.thr c t with pc := pc, slot := slot, shadow := shadow }).OnlyMoves e c t :=
  State.OnlyMoves.trans (by apply State.onlyMoves_setThr <;> rfl) m

theorem State.onlyMoves_advance (e : State) (c : CoreId) (t : ThreadId) (pc : Nat) (loops : Bool) : (e.advance c t pc loops).OnlyMoves e c t := by
  simp only [State.advance, State.advanceTo]
  refine State.OnlyMoves.goesTo ?_ _ none _
  split
  · exact State.OnlyMoves.refl e c t
  · split
    · exact e.onlyMoves_loopEnd c t _ _ _
    · exact State.OnlyMoves.refl e c t

/-- No single step is due: the thread is not halted. -/
theorem State.stepHalt_of_noStep (s : State) (c t : Nat) (h : (s.thr c t).stepReq = false) (ss : s.tf dstat_SS c t = 0) : s.stepHalt c t = s := by
  simp [State.stepHalt, h, ss]

theorem State.stepHalt_moved {s u : State} {c t : Nat} (h : s.Settled c t) (m : u.OnlyMoves (s.reads c t) c t) : u.stepHalt c t = u :=
  u.stepHalt_of_noStep c t (m.stepReq.trans h.noStep) (m.singleStep.trans h.noSS)

/-- A word that is not a branch leaves, by going on to the next, all but the thread's place. -/
theorem State.onlyMoves_after {s : State} {c : CoreId} {t : ThreadId} (h : s.Settled c t) :
    ((s.reads c t).after (s.reads c t) c t).OnlyMoves (s.reads c t) c t := by
  have m := (s.reads c t).onlyMoves_advance c t ((s.reads c t).thr c t).pc true
  unfold State.after
  rwa [State.stepHalt_moved h m]

/-! ### A word whose guard is off -/

/-- The place of a thread after a branch that its guard switches off: its delay slot comes, and no target is taken (R62, R84). -/
def State.passedBy (e : State) (c t : Nat) : State :=
  let h := e.thr c t
  e.setThr c t { h with pc := h.pc + 4, slot := some ⟨h.pc, none, h.rstack, e.tf lstat_ACTIVE c t, h.shadow⟩, shadow := h.shadow - 1 }

/-- Such a branch leaves its delay slot, its return stack and its loop levels as they were, and its own place for a word that fails. -/
theorem State.passedBy_leaves (e : State) (c t : Nat) :
    (e.passedBy c t).SameMemory e ∧ (e.passedBy c t).sent = e.sent ∧ ((e.passedBy c t).thr c t).rstack = (e.thr c t).rstack ∧
    ((e.passedBy c t).thr c t).pc = (e.thr c t).pc + 4 ∧ (e.passedBy c t).tf lstat_ACTIVE c t = e.tf lstat_ACTIVE c t ∧
    ((e.passedBy c t).thr c t).slot = some ⟨(e.thr c t).pc, none, (e.thr c t).rstack, e.tf lstat_ACTIVE c t, (e.thr c t).shadow⟩ := by
  refine ⟨⟨rfl, rfl, rfl⟩, rfl, ?_⟩
  simp only [State.passedBy, State.thr_setThr_same, State.tf_setThr, and_self]

variable {s : State} {c t : Nat} {g : BitVec 4}

/-- A word that comes to issue while its guard is off: it goes on to the next word, or leaves its delay slot to come if it is a branch (R62). -/
theorem State.issue_skips (h : s.Skips c t g) (ctl br : Bool) (body : State → Fx) :
    s.issue c t g [] ctl br body =
      if br && (((s.reads c t).thr c t).slot.bind (fun i => i.target)).isNone then ((s.reads c t).passedBy c t).stepHalt c t
      else (s.reads c t).after (s.reads c t) c t := by
  have hp := h.fetched
  have hg := h.guard
  rw [State.thr_begins] at hp hg
  have begins : (s.tickIssue c t).setThr c t { (s.tickIssue c t).thr c t with snap := (s.tickIssue c t).ctxOf c t } = s.begins c t := rfl
  have reads : (s.begins c t).setTf dstat_SKIP c t 0 = s.reads c t := rfl
  unfold State.issue
  simp only at hp hg
  simp only [h.turn, ne_eq, not_true_eq_false, if_false, begins, reads, if_neg (Nat.not_le.2 hp), hg, List.min?_nil]
  simp [State.after, State.passedBy, State.thr_begins]

/-- A word that is no branch and that its guard switches off goes on to the next. -/
theorem completes_of_skips {c : CoreId} {t : ThreadId} {i : Instr} {enc : List Nat} {ctl : Bool} {body : State → Fx} (k : s.Skips c t g)
    (h : s.Settled c t) (legal : enc = []) (e : exec i s = .next (s.issue c t g enc ctl false body)) :
    Completes i s (fun u => u = (s.reads c t).after (s.reads c t) c t ∧ u.OnlyMoves (s.reads c t) c t) := by
  refine ⟨(s.reads c t).after (s.reads c t) c t, ?_, rfl, State.onlyMoves_after h⟩
  rw [e, legal, State.issue_skips k, Bool.false_and, if_neg Bool.false_ne_true]

/-- A branch that its guard switches off, outside a delay slot, leaves its own delay slot to come. -/
theorem branch_completes_of_skips {c : CoreId} {t : ThreadId} {i : Instr} {enc : List Nat} {ctl : Bool} {body : State → Fx} (k : s.Skips c t g)
    (h : s.Settled c t) (slot : ((s.reads c t).thr c t).slot = none) (legal : enc = []) (e : exec i s = .next (s.issue c t g enc ctl true body)) :
    Completes i s (fun u => u = (s.reads c t).passedBy c t) := by
  refine ⟨(s.reads c t).passedBy c t, ?_, rfl⟩
  have moves : ((s.reads c t).passedBy c t).OnlyMoves (s.reads c t) c t := (State.OnlyMoves.refl _ c t).goesTo _ _ _
  rw [e, legal, State.issue_skips k, slot, if_pos (by rfl), State.stepHalt_moved h moves]

/-- A word of a thread that the issue slot does not choose changes nothing. -/
theorem exec_idle {c : CoreId} {t : ThreadId} {i : Instr} {enc : List Nat} {ctl br : Bool} {body : State → Fx} (h : s.nextIssue c ≠ some t)
    (e : exec i s = .next (s.issue c t g enc ctl br body)) : exec i s = .next s := by
  rw [e, State.issue_idle s c t g enc ctl br body h]

theorem Completes.imp {i : Instr} {s : State} {P Q : State → Prop} (h : Completes i s P) (w : ∀ u, P u → Q u) : Completes i s Q := by
  obtain ⟨u, e, p⟩ := h
  exact ⟨u, e, w u p⟩

/-- Settles O10: a word that its guard switches off only moves its thread on, and a word of a thread that is not chosen does not issue; that the latter is
no error is the model's choice (notes/assumptions/6.md). -/
theorem wordsWithoutEffect : Obligations.WordsWithoutEffect := by
  unfold Obligations.WordsWithoutEffect
  refine ⟨?_, ?_⟩
  · intro c t w b f lo sh s h e advances passes
    have advance {i : Instr} {enc : List Nat} {ctl : Bool} {body : State → Fx} (k : s.Skips c t w.g) (legal : enc = [])
        (d : exec i s = .next (s.issue c t w.g enc ctl false body)) : advances i := by
      refine (completes_of_skips k h legal d).imp fun u ⟨hu, m⟩ => ⟨hu, m.memory, m.sent, m.kp, fun n => ⟨?_, ?_, ?_, m.mb⟩⟩
      · rw [State.x, State.x, m.x]
      · rw [State.vr, State.vr, m.v]
      · rw [State.pr, State.pr, m.p]
    have pass {i : Instr} {g : BitVec 4} {enc : List Nat} {ctl : Bool} {body : State → Fx} (k : s.Skips c t g) (legal : enc = [])
        (d : exec i s = .next (s.issue c t g enc ctl true body)) : passes i := by
      intro slot
      refine (branch_completes_of_skips k h slot legal d).imp fun u hu => ?_
      rw [hu]
      exact (s.reads c t).passedBy_leaves c t
    refine ⟨fun k => ⟨advance k rfl rfl, advance k rfl rfl, advance k rfl rfl, advance k rfl rfl, advance k rfl rfl, advance k rfl rfl, advance k rfl rfl,
      advance k rfl rfl, advance k rfl rfl, fun ha hb hc => advance k ?_ rfl, pass k rfl rfl, pass k rfl rfl, fun hb => pass k ?_ rfl⟩,
      fun k => ⟨pass k rfl rfl, pass k rfl rfl⟩⟩
    · simp [encZ, ha, hb, hc]
    · simp [encZ, hb]
  · intro c t f w l u b o lo sh rel im z q v mv pr k m s h idle
    repeat' apply And.intro
    all_goals exact exec_idle h rfl

end Sys2Proof.Machine
end

section
/-!
SUPPORT and O51. The port table, a routed port that goes DOWN for an adaptation, and a state in which the clause on LANE_READAPT fails.
-/
namespace Sys2Proof.Machine

/-! ### The port table -/

/-- The mask of a peer is that of the lowest-numbered enabled entry that holds it (R445). -/
theorem State.portMask_of_first {s : State} {peer r : Nat} (listed : r < 1024) (on : s.fld PT_ENTRY_W0_EN 0 r = 1)
    (holds : s.fld PT_ENTRY_W0_LO 0 r ≤ peer ∧ peer ≤ s.fld PT_ENTRY_W0_HI 0 r) (first : ∀ j < r, s.fld PT_ENTRY_W0_HI 0 j < peer) :
    s.portMask peer = s.fld PT_ENTRY_W1_PORTS 0 r := by
  have found : (List.range 1024).find? (fun r => s.fld PT_ENTRY_W0_EN 0 r = 1 && s.fld PT_ENTRY_W0_LO 0 r ≤ peer && peer ≤ s.fld PT_ENTRY_W0_HI 0 r)
      = some r := by
    rw [List.find?_range_eq_some]
    refine ⟨by simp [on, holds], by simpa using listed, fun j hj => ?_⟩
    simp [Nat.not_le.2 (first j hj)]
  unfold State.portMask
  rw [found]

/-! ### A routed port that goes DOWN for an adaptation (R629) -/

section
variable (s : State) (x : Repair)

@[simp] theorem State.fld_setRep (f : Field) (u i k : Nat) : (s.setRep x).fld f u i k = s.fld f u i k := by
  simp only [State.fld, State.setRep, State.reg_setKp]

@[simp] theorem State.portUp_setRep (m : Nat) : (s.setRep x).portUp m = s.portUp m := by simp only [State.portUp, State.fld_setRep]

@[simp] theorem State.portRouted_setRep (m : Nat) : (s.setRep x).portRouted m = s.portRouted m := by simp only [State.portRouted, State.fld_setRep]

@[simp] theorem State.portMask_setRep (peer : Nat) : (s.setRep x).portMask peer = s.portMask peer := by
  unfold State.portMask
  simp only [State.fld_setRep]

end

/-- The aggregator keeps the reading of lane `lane` of port m (R624). -/
def State.keepEye (s : State) (m : Fin 32) (lane : Fin 4) (height width : BitVec 8) : State :=
  s.setRep { s.kp.rep with eyes := Sparse.set 0 s.kp.rep.eyes (m.val / 4 * 18 + m.val % 4 * 4 + lane.val) (width.toNat * 256 + height.toNat) }

/-- A routed port with a lane whose eye is too low goes DOWN, where every mask of the port table that holds it has another port UP. -/
theorem laneReadapt_takes_down {s : State} {m : Fin 32} {lane : Fin 4} {height width : BitVec 8} (up : s.portUp m = true) (routed : s.portRouted m = true)
    (low : height.toNat < s.fld AGE_CFG_EYE_MIN_MV 0 0)
    (others : ∀ k < 4096, s.portMask k / 2 ^ m.val % 2 = 1 → ∃ j < 32, j ≠ m.val ∧ s.portMask k / 2 ^ j % 2 = 1 ∧ s.portUp j = true) :
    exec (.laneReadapt m lane height width) s = .next ((s.keepEye m lane height width).portDown m) := by
  show execLaneReadapt m lane height width s = _
  simp only [execLaneReadapt, State.portUp_setRep, State.portRouted_setRep, State.portMask_setRep, State.fld_setRep]
  rw [if_neg (by simp [up, Nat.not_le.2 low]), if_neg (by simp [routed]), if_pos ?_, State.keepEye]
  refine List.all_eq_true.2 fun k listed => ?_
  simp only [List.mem_filter, List.mem_range, decide_eq_true_eq, nbit, Nat.shiftRight_eq_div_pow] at listed
  obtain ⟨known, mask⟩ := listed
  simpa [nbit, Nat.shiftRight_eq_div_pow, and_assoc] using others k known mask

/-! ### The counterexample to O51 -/

/-- The fabric address of byte 0x40 of module 1's core 0. -/
def strandedAddr : Nat := 2 ^ 48 + 0x40

/-- Store number `id` of thread 7 of core 5 to that address, as the core sends it. -/
def strandedStore (id : Nat) : List Nat := [5, 7, 1, strandedAddr, 8, 0, id]

/-- Module 3, whose routed ports 30 and 31 are UP and serve every module from 2 up. The fabric manager has cleared the mask of module 1, while a store of
core 5 to it still waits in its connection, whose window of one frame is full; a second store to the same bytes waits in the core for the first (R326). -/
def stranded : State :=
  let s := ((State.reset.setFld MODULE_ID_ID 0 0 3).setFld PT_ENTRY_W0_EN 0 0 1).setFld PT_ENTRY_W0_HI 0 0 1
  let s := ((s.setFld PT_ENTRY_W0_EN 0 1 1).setFld PT_ENTRY_W0_LO 0 1 2).setFld PT_ENTRY_W0_HI 0 1 0xFFFF
  let s := s.setFld PT_ENTRY_W1_PORTS 0 1 (2 ^ 31 + 2 ^ 30)
  let s := [30, 31].foldl (fun s m => (s.setFld PORT_CFG_MODE m 0 1).setFld PORT_STAT_STATE m 0 3) s
  let first : Access := { key := .write 7 0, mem := 2 ^ 21 + 1, off := 0x40, len := 8, parts := [0] }
  let core : Core :=
    { inReset := false
      threads := [(7, { st := .ready, nextW := 2, outw := [⟨0, 3⟩, ⟨1, 3⟩] })]
      flying := [first, { first with key := .write 7 1, msg := some (strandedStore 1) }] }
  let space : Space :=
    { next := 1, window := 1
      frames := [{ tseq := 0, msgs := [{ op := 0x48, kw := true, sup := true, len := 16, tag := 6 }], port := 31 }]
      queue := [{ op := 2, kw := true, sup := true, len := 8, tag := 7, off := 0x40 }] }
  let fab : Fab :=
    { cursor := 1, nextTag := 8, gens := [(1, 1)]
      conns := [(1, { gen := 1, spaces := [(0, space)] })]
      outs := [{ tag := 7, peer := 1, vc := 0, grp := 7, pos := 0 }]
      groups := [{ id := 7, req := strandedStore 0, left := 1 }] }
  { s with cores := [(5, core)], sent := [⟨.request, strandedStore 0⟩], kp := { s.kp with fab := fab } }

/-- Modules 0 and 1 have no port, the others ports 30 and 31. -/
theorem portMask_stranded (k : Nat) (known : k < 4096) : stranded.portMask k = if k ≤ 1 then 0 else 2 ^ 31 + 2 ^ 30 := by
  have entries : (stranded.fld PT_ENTRY_W0_EN 0 0 = 1 ∧ stranded.fld PT_ENTRY_W0_LO 0 0 = 0 ∧ stranded.fld PT_ENTRY_W0_HI 0 0 = 1 ∧
        stranded.fld PT_ENTRY_W1_PORTS 0 0 = 0) ∧
      stranded.fld PT_ENTRY_W0_EN 0 1 = 1 ∧ stranded.fld PT_ENTRY_W0_LO 0 1 = 2 ∧ stranded.fld PT_ENTRY_W0_HI 0 1 = 0xFFFF ∧
        stranded.fld PT_ENTRY_W1_PORTS 0 1 = 2 ^ 31 + 2 ^ 30 := by decide +kernel
  obtain ⟨⟨on, lo, hi, ports⟩, on', lo', hi', ports'⟩ := entries
  split
  · rw [State.portMask_of_first (r := 0) (by decide) on (by omega) (by simp), ports]
  · refine (State.portMask_of_first (r := 1) (by decide) on' (by omega) fun j hj => ?_).trans ports'
    obtain rfl : j = 0 := by omega
    omega

/-- Ports 30 and 31 are UP, and the limit of an eye is what reset gives. -/
theorem stranded_ports : stranded.portUp 30 = true ∧ stranded.portUp 31 = true ∧ stranded.portRouted 31 = true ∧
    stranded.fld AGE_CFG_EYE_MIN_MV 0 0 = 20 := by decide +kernel

/-- As port 31 goes DOWN, the waiting store is answered PEER_UNREACHABLE (R445), so that the store behind it leaves its core. -/
theorem portDown_stranded_sends : ((stranded.keepEye 31 0 0 0).portDown 31).sent = stranded.sent ++ [⟨.request, strandedStore 1⟩] := by decide +kernel

/-- Refutes O51 by its clause on LANE_READAPT, which says that nothing is sent. A routed port that goes DOWN answers each request that has not left and for
whose peer no port is UP (R431, R445). That every mask which holds the port has another port UP (R629) does not exclude such a request: it may wait for a
peer whose mask holds no port any more. `stranded` holds one, and its answer lets a second store leave core 5. -/
theorem not_findingAndRepairCommandsComplete : ¬ Obligations.FindingAndRepairCommandsComplete := by
  unfold Obligations.FindingAndRepairCommandsComplete
  rintro ⟨-, repairs⟩
  obtain ⟨up30, up31, routed, limit⟩ := stranded_ports
  have low : (0 : BitVec 8).toNat < stranded.fld AGE_CFG_EYE_MIN_MV 0 0 := by rw [limit]; decide
  have others (k : Nat) (known : k < 4096) (mask : stranded.portMask k / 2 ^ (31 : Fin 32).val % 2 = 1) :
      30 < 32 ∧ 30 ≠ (31 : Fin 32).val ∧ stranded.portMask k / 2 ^ 30 % 2 = 1 ∧ stranded.portUp 30 = true := by
    have served := portMask_stranded k known
    split at served
    · rw [served] at mask
      exact absurd mask (by decide)
    · rw [served]
      exact ⟨by decide, by decide, by decide, up30⟩
  obtain ⟨-, -, -, -, -, -, -, readapt, -⟩ :=
    repairs 0 0 0 0 0 0 0 30 0 0 0 none 0 0 31 0 0 0 false false 0 0 0 0 stranded
  obtain ⟨u, reached, -, silent, -⟩ := readapt up31 routed low others
  have down := laneReadapt_takes_down (m := 31) (lane := 0) (width := 0) up31 routed low (fun k known mask => ⟨30, others k known mask⟩)
  have same : u = (stranded.keepEye 31 0 0 0).portDown 31 := Host.Outcome.next.inj (reached.symm.trans down)
  rw [same, portDown_stranded_sends] at silent
  simp at silent

end Sys2Proof.Machine
end

section
/-!
SUPPORT and O1. The step on an empty and on a waiting queue, and the cycle of a core whose issue slot has chosen a thread.
-/
namespace Sys2Proof.Machine

/-- A core whose issue slot chooses a thread is out of reset and has power, so its cycle is the issue of that thread's next word. -/
theorem State.cycleCore_of_nextIssue {s : State} {c : CoreId} {t : ThreadId} (chosen : s.nextIssue c = some t) : s.cycleCore c = s.issueNext c t := by
  obtain ⟨-, running, powered⟩ := State.nextIssue_may chosen
  unfold State.cycleCore
  rw [running, powered, chosen]
  exact dif_pos t.isLt

/-- The word at the thread's place is what its decoded command does. -/
theorem State.issueNext_of_decoded {s : State} {c : CoreId} {t : ThreadId} {j : Instr}
    (decoded : decodeCoreWord c t (s.fetchWord c ((s.tickIssue c t).world c t) ((s.tickIssue c t).thr c t).pc) = .ok j) : s.issueNext c t = exec j s := by
  simp only [State.issueNext, decoded]

/-- Settles O1: the step matches on the queue, and a core whose issue slot has chosen a thread issues the word that decodes there. That an empty queue
lets a cycle pass is the model's choice (notes/assumptions/2.md). -/
theorem stepTakesTheFrontCommand : Obligations.StepTakesTheFrontCommand := by
  intro i r s
  refine ⟨rfl, rfl, fun c t j chosen decoded => ?_⟩
  rw [State.cycleCore_of_nextIssue chosen, State.issueNext_of_decoded decoded]

end Sys2Proof.Machine
end

section
/-!
SUPPORT. The rules that the words of a thread rest on: fields and registers of a thread after writes of others, what going on to the next word changes, and
how a word whose operation completes ends.
-/
namespace Sys2Proof.Machine

/-! ### Fields of a thread's registers -/

section
variable (s : State) (c : CoreId) (t : ThreadId)

/-- A write of a thread's field leaves the fields of its other registers alone. -/
theorem State.tf_setTf_other {f g : Field} (n : g.reg ≠ f.reg) (v : Nat) : (s.setTf f c t v).tf g c t = s.tf g c t :=
  State.fld_setFld_other s f g _ _ _ _ _ _ _ (by omega) (by omega) (by omega) (by omega) (fun h => n h.1)

theorem State.tf_setTf_same {f : Field} (w : f.lo ≤ f.hi) (h : f.hi < 64) (v : Nat) :
    (s.setTf f c t v).tf f c t = v % 2 ^ (f.hi + 1 - f.lo) :=
  State.fld_setFld_same s f _ _ _ 0 w (by omega)

theorem State.tf_setTf_beside {f g : Field} (r : g.reg = f.reg) (w : f.lo ≤ f.hi) (h : f.hi < 64) (w' : g.lo ≤ g.hi)
    (dis : g.hi < f.lo ∨ f.hi < g.lo) (v : Nat) : (s.setTf f c t v).tf g c t = s.tf g c t :=
  State.fld_setFld_beside s f g _ _ _ 0 0 r w (by omega) w' (by omega)

theorem State.treg_setTf_other {f : Field} {r : RegName} (n : r ≠ f.reg) (v : Nat) : (s.setTf f c t v).treg r c t = s.treg r c t :=
  State.reg_setReg_other s _ (by omega) (by omega) (by omega) (by omega) (fun h => n h.1)

theorem State.treg_setTreg_other {r q : RegName} (n : q ≠ r) (w : Word) : (s.setTreg r c t w).treg q c t = s.treg q c t :=
  State.reg_setReg_other s _ (by omega) (by omega) (by omega) (by omega) (fun h => n h.1)

@[simp] theorem State.treg_setTreg_same (r : RegName) (w : Word) : (s.setTreg r c t w).treg r c t = w := State.reg_setReg_same ..

theorem State.tf_setTreg_other {r : RegName} {f : Field} (n : f.reg ≠ r) (w : Word) : (s.setTreg r c t w).tf f c t = s.tf f c t := by
  unfold State.tf State.fld State.setTreg
  rw [State.reg_setReg_other s _ (by omega) (by omega) (by omega) (by omega) (fun h => n h.1)]

/-- A field of a register that was written whole. -/
theorem State.tf_setTreg_same (f : Field) (w : Word) : (s.setTreg f.reg c t w).tf f c t = bitsOf w f.hi f.lo := by
  unfold State.tf State.fld State.setTreg
  simp only [Nat.add_zero, State.reg_setReg_same, Nat.zero_mul]

end

section
variable (s : State) (c t : Nat)

@[simp] theorem State.thr_setTreg (r : RegName) (d j : Nat) (w : Word) : (s.setTreg r d j w).thr c t = s.thr c t := rfl
@[simp] theorem State.treg_setThr (d j : Nat) (h : Thread) (r : RegName) : (s.setThr d j h).treg r c t = s.treg r c t := rfl
@[simp] theorem State.level_setThr (d j : Nat) (h : Thread) : (s.setThr d j h).level c t = s.level c t := rfl
@[simp] theorem State.world_setThr (d j : Nat) (h : Thread) : (s.setThr d j h).world c t = s.world c t := rfl
@[simp] theorem State.core_setFld (f : Field) (u i v k d : Nat) : (s.setFld f u i v k).core d = s.core d := rfl
@[simp] theorem State.core_setTf (f : Field) (u i v k d : Nat) : (s.setTf f u i v k).core d = s.core d := rfl
@[simp] theorem State.core_setTreg (r : RegName) (d j : Nat) (w : Word) : (s.setTreg r d j w).core c = s.core c := rfl

theorem State.core_setThr_same (j : Nat) (h : Thread) :
    (s.setThr c j h).core c = { s.core c with threads := Sparse.set {} (s.core c).threads j h } := State.core_setCore_same ..

@[simp] theorem State.cyc_setThr (d j : Nat) (h : Thread) : ((s.setThr d j h).core c).cyc = (s.core c).cyc := by
  by_cases e : c = d
  · rw [e, State.core_setThr_same]
  · rw [State.setThr, State.core_setCore_other _ _ e]

end

/-! ### Going on to the next word -/

/-- What going on to the next word leaves: the thread but for its place, the cycle count, and every register but lstat. -/
structure State.GoesOn (u e : State) (c t : Nat) : Prop where
  thread : ∃ pc slot shadow lc, u.thr c t = { e.thr c t with pc := pc, slot := slot, shadow := shadow, lc := lc }
  cyc : (u.core c).cyc = (e.core c).cyc
  regs : ∀ r, r ≠ .lstat → u.treg r c t = e.treg r c t
  only : u.OnlyMoves e c t

theorem State.GoesOn.refl (e : State) (c t : Nat) : e.GoesOn e c t := ⟨⟨_, _, _, _, rfl⟩, rfl, fun _ _ => rfl, State.OnlyMoves.refl e c t⟩

theorem State.GoesOn.trans {u v e : State} {c t : Nat} (a : u.GoesOn v c t) (b : v.GoesOn e c t) : u.GoesOn e c t where
  thread := by
    obtain ⟨_, _, _, _, ha⟩ := a.thread
    obtain ⟨_, _, _, _, hb⟩ := b.thread
    exact ⟨_, _, _, _, by rw [ha, hb]⟩
  cyc := a.cyc.trans b.cyc
  regs r n := (a.regs r n).trans (b.regs r n)
  only := a.only.trans b.only

theorem State.goesOn_setThr (e : State) (c t pc : Nat) (slot : Option Slot) (shadow : Nat) (lc : Sparse Nat) :
    (e.setThr c t { e.thr c t with pc := pc, slot := slot, shadow := shadow, lc := lc }).GoesOn e c t :=
  ⟨⟨_, _, _, _, State.thr_setThr_same ..⟩, State.cyc_setThr .., fun _ _ => rfl, e.onlyMoves_setThr c t rfl rfl rfl rfl rfl⟩

theorem State.goesOn_loopEnd (e : State) (c : CoreId) (t : ThreadId) (w next k : Nat) : (e.loopEnd c t w next k).2.GoesOn e c t := by
  induction k generalizing e with
  | zero => exact State.GoesOn.refl e c t
  | succ k ih =>
    have counted (n : Nat) := e.goesOn_setThr c t (e.thr c t).pc (e.thr c t).slot (e.thr c t).shadow (Sparse.set 0 (e.thr c t).lc k n)
    have active (u : State) (a : Nat) : (u.setTf lstat_ACTIVE c t a).GoesOn u c t :=
      ⟨⟨_, _, _, _, rfl⟩, rfl, fun _ n => State.treg_setTf_other u c t n a, u.onlyMoves_setActive c t a⟩
    simp only [State.loopEnd]
    split
    · split
      · exact counted _
      · exact ((ih _).trans (active _ _)).trans (counted 0)
    · exact ih e

theorem State.goesOn_advanceTo (e : State) (c : CoreId) (t : ThreadId) (pc next : Nat) (loops : Bool) :
    (e.advanceTo c t pc next loops).GoesOn e c t := by
  have place (u : State) (pc : Nat) (slot : Option Slot) (shadow : Nat) := u.goesOn_setThr c t pc slot shadow (u.thr c t).lc
  simp only [State.advanceTo]
  refine State.GoesOn.trans (place _ _ none _) ?_
  split
  · exact State.GoesOn.refl e c t
  · split
    · exact e.goesOn_loopEnd c t _ _ _
    · exact State.GoesOn.refl e c t

theorem State.advanceTo_shadow (e : State) (c t pc next : Nat) (loops : Bool) :
    ((e.advanceTo c t pc next loops).thr c t).shadow = (e.thr c t).shadow - 1 := by
  simp only [State.advanceTo, State.thr_setThr_same]

/-- Outside a delay slot, where no loop level ends at the word, the thread goes on at the next word and nothing else of its place changes. -/
theorem State.advanceTo_plain {e : State} {c t : Nat} (slot : (e.thr c t).slot = none) (pc next : Nat) (loops : Bool)
    (noEnd : e.atLoopEnd c t pc = false) :
    e.advanceTo c t pc next loops = e.setThr c t { e.thr c t with pc := next, slot := none, shadow := (e.thr c t).shadow - 1 } := by
  have none_ends (unlocked : e.tf wstat_EXL c t = 0) (k : Nat) (hk : k ≤ 4) : e.loopEnd c t pc next k = (next, e) := by
    induction k with
    | zero => rfl
    | succ k ih =>
      simp only [State.atLoopEnd, unlocked, decide_true, Bool.true_and, List.any_eq_false] at noEnd
      rw [State.loopEnd, if_neg (noEnd k (List.mem_range.2 (by omega))), ih (by omega)]
  simp only [State.advanceTo, slot]
  by_cases h : (loops && decide (e.tf wstat_EXL c t = 0)) = true
  · have unlocked : e.tf wstat_EXL c t = 0 := of_decide_eq_true (Bool.and_eq_true_iff.1 h).2
    rw [if_pos h, none_ends unlocked 4 (by omega)]
  · rw [if_neg h]

section
variable {s u : State} {c : CoreId} {t : ThreadId}

/-- No single step is due after a word that leaves the thread's stepping as it was. -/
theorem State.stepHalt_kept (h : s.Settled c t) (step : (u.thr c t).stepReq = ((s.reads c t).thr c t).stepReq)
    (single : u.tf dstat_SS c t = (s.reads c t).tf dstat_SS c t) : u.stepHalt c t = u :=
  u.stepHalt_of_noStep c t (step.trans h.noStep) (single.trans h.noSS)

/-- What follows an operation that leaves the thread's stepping as it was. -/
theorem State.after_eq (h : s.Settled c t) (step : (u.thr c t).stepReq = ((s.reads c t).thr c t).stepReq)
    (single : u.tf dstat_SS c t = (s.reads c t).tf dstat_SS c t) :
    u.after (s.reads c t) c t = u.advance c t ((s.reads c t).thr c t).pc true := by
  have moves := u.onlyMoves_advance c t ((s.reads c t).thr c t).pc true
  exact State.stepHalt_kept h (moves.stepReq.trans step) (moves.singleStep.trans single)

end

/-! ### How a word ends -/

section
variable {s : State} {c : CoreId} {t : ThreadId} {g : BitVec 4} {i : Instr} {enc : List Nat} {body : State → Fx} {f : State → State}

/-- A word without an illegal field whose operation completes. -/
theorem does_of_done (runs : s.Runs c t g) (legal : enc = []) (word : exec i s = .next (s.issue c t g enc false false body))
    (done : body (s.reads c t) = .done (f (s.reads c t))) : Does i s c t f := by
  unfold Does
  rw [word, legal, State.issue_done runs done]

/-- The same with what follows where no single step is due. -/
theorem completes_of_done (runs : s.Runs c t g) (h : s.Settled c t) (legal : enc = []) (word : exec i s = .next (s.issue c t g enc false false body))
    {e : State} (done : body (s.reads c t) = .done e) (step : (e.thr c t).stepReq = ((s.reads c t).thr c t).stepReq)
    (single : e.tf dstat_SS c t = (s.reads c t).tf dstat_SS c t) :
    Completes i s (fun u => u = e.advance c t ((s.reads c t).thr c t).pc true) := by
  have ends : exec i s = .next (e.after (s.reads c t) c t) := does_of_done (f := fun _ => e) runs legal word done
  exact ⟨_, ends, State.after_eq h step single⟩

end

end Sys2Proof.Machine
end

section
/-!
SUPPORT and O13. An access to an own bank that nothing refuses, and the words of the mailboxes.
-/
namespace Sys2Proof.Machine

/-! ### An access to an own bank -/

/-- The fabric address of byte `off` of core c's own window (R42, R44). -/
def ownBankWord (c off : Nat) : Word := BitVec.ofNat 64 (0xFFFF <<< 48 + bankAddr c off)

theorem ownBankWord_toNat (c : CoreId) {off : Nat} (inside : off < 0x400000) : (ownBankWord c off).toNat = 0xFFFF * 2 ^ 48 + bankAddr c off := by
  have := c.isLt
  unfold ownBankWord bankAddr
  rw [BitVec.toNat_ofNat, Nat.shiftLeft_eq, Nat.mod_eq_of_lt]
  omega

/-- It names the own module, and there the own bank, which is no HBM window. -/
theorem ownBankWord_parts (c : CoreId) {off : Nat} (inside : off < 0x400000) :
    (ownBankWord c off).toNat >>> 48 = 0xFFFF ∧ (ownBankWord c off).toNat % 2 ^ 48 = bankAddr c off ∧ inHbmWindow (bankAddr c off) = false := by
  have := c.isLt
  have small : bankAddr c off < 0xA20000000 := by unfold bankAddr; omega
  rw [ownBankWord_toNat c inside, Nat.shiftRight_eq_div_pow]
  refine ⟨by omega, by omega, ?_⟩
  unfold inHbmWindow
  rw [decide_eq_false (by omega), Bool.false_and]

variable {e : State} {c : CoreId} {t : ThreadId} {off n : Nat} {write : Bool}

theorem State.OwnBank.offset (b : e.OwnBank c t off n write) : off < 0x40000 ∨ 0x100000 ≤ off ∧ off < 0x300000 := by
  obtain h | ⟨h, k, -⟩ := b.inside <;> rcases b.size with h1 | h1 | h1 | h1 <;> omega

theorem State.OwnBank.pos (b : e.OwnBank c t off n write) : 0 < n := by
  rcases b.size with rfl | rfl | rfl | rfl <;> decide

theorem State.localPlace_bank (e : State) (c : CoreId) (bank : off < 0x40000 ∨ 0x100000 ≤ off ∧ off < 0x300000) :
    e.localPlace (bankAddr c off) = .bank c off := by
  have := c.isLt
  have window : bankAddr c off / 0x400000 = c.val ∧ bankAddr c off % 0x400000 = off := by unfold bankAddr; omega
  unfold State.localPlace windowPlace
  rw [if_pos (by unfold bankAddr; omega), window.1, window.2]
  rcases bank with h | ⟨h, k⟩
  · rw [if_pos h]
  · rw [if_neg (by omega), if_pos (by simp [h, k])]

theorem State.translateWord_bank (e : State) (c : CoreId) (t : Nat) (bank : off < 0x40000 ∨ 0x100000 ≤ off ∧ off < 0x300000) (write : Bool) :
    e.translateWord (e.who c t) (ownBankWord c off) write = .to (.bank c off) := by
  obtain ⟨mid, low, plain⟩ := ownBankWord_parts c (off := off) (by omega)
  have hits : e.txMiss (e.who c t) (ownBankWord c off) write = false := by
    unfold State.txMiss
    simp only [mid, low, plain, decide_true, Bool.true_or, Bool.false_and, if_true, ite_self]
  unfold State.translateWord State.translate
  simp only [hits, mid, low, plain, decide_true, Bool.true_or, Bool.and_false, if_true, Bool.false_eq_true, if_false, e.localPlace_bank c bank]

/-- The checks let the access through (R98, R116, R122, R237, R270). -/
theorem State.check_ownBank (b : e.OwnBank c t off n write) : e.check c t (ownBankWord c off) n ((ownBankWord c off).toNat % n = 0) write = .ok (.bank c off) := by
  obtain ⟨mid, low, plain⟩ := ownBankWord_parts c (off := off) (by have := b.offset; omega)
  have aligned : (ownBankWord c off).toNat % n = 0 := by
    rw [ownBankWord_toNat c (by have := b.offset; omega)]
    have := b.aligned
    unfold bankAddr
    rcases b.size with rfl | rfl | rfl | rfl <;> omega
  have place : e.checkPlace c t (ownBankWord c off) n write (.bank c off) = .ok (.bank c off) := by
    have spill : (write && e.spillRefuses c off n (e.who c t)) = false := by
      cases write
      · rfl
      · simpa using b.noSpill rfl
    have pool : (decide (0x100000 ≤ off) && e.poolBacked c) = false := by
      rcases b.inside with h | ⟨-, -, h⟩
      · have scratch : ¬ 0x100000 ≤ off := by omega
        simp [scratch]
      · rw [h, Bool.and_false]
    have noPool (x y : Bool) : (x && decide (0x100000 ≤ off) && e.poolBacked c && y) = false := by
      rw [Bool.and_assoc x, pool, Bool.and_false, Bool.false_and]
    unfold State.checkPlace
    simp only [b.allowed]
    rw [noPool, spill, b.portFree, Bool.and_false]
    rfl
  have here : e.aheadOf c (.bank c off) = false := by simp [State.aheadOf]
  have watch : e.watchHit c t (ownBankWord c off) n (!write) write = none := b.noWatch
  have plainPlace : e.regSpace (.bank c off) = false := rfl
  simp only [State.check, aligned, decide_true, Bool.not_true, Bool.false_eq_true, if_false, e.translateWord_bank c t b.offset, plainPlace, Bool.false_and,
    watch, here, place, b.noImage]

theorem Place.ownBank_bank (c : CoreId) (bank : off < 0x40000 ∨ 0x100000 ≤ off ∧ off < 0x300000) :
    (Place.bank c off).ownBank c (ownBankWord c off) = some off := by
  obtain ⟨-, low, plain⟩ := ownBankWord_parts c (off := off) (by omega)
  simp only [Place.ownBank, low, plain, Bool.not_false, decide_true, Bool.and_self, if_true]

/-! ### Code words without error -/

/-- The code words of n bytes without a symbol in error have none. -/
theorem State.pat_codeWords {a : Nat} (pos : 0 < n) (clean : ∀ i < n, e.pat (a + i) = 0) {w : Nat} (hw : w ∈ codeWords a n) : e.pat w = 0 := by
  simp only [codeWords, List.mem_map, List.mem_range] at hw
  obtain ⟨j, hj, rfl⟩ := hw
  have touched : ∃ i < n, (a + i) / 32 = a / 32 + j := by
    rcases Nat.eq_zero_or_pos j with h | h
    · exact ⟨0, by omega, by omega⟩
    · exact ⟨32 * (a / 32 + j) - a, by omega, by omega⟩
  obtain ⟨i, hi, same⟩ := touched
  have word : (a / 32 + j) * 32 / 32 = (a + i) / 32 := by omega
  rw [State.pat, word]
  exact clean i hi

theorem State.readWord_clean {o : Nat} (h : e.pat (bankAddr c o) = 0) : e.readWord c o = e := by rw [State.readWord, if_pos h]

/-- A read of bank bytes in code words without error gives the bytes and changes nothing (R242). -/
theorem State.bankRead_clean (pos : 0 < n) (clean : ∀ i < n, e.pat (bankAddr c off + i) = 0) : e.bankRead c off n = (some (e.readLE (bankAddr c off) n), e) := by
  have noneBad : e.anyBad (bankAddr c off) n = false := by
    rw [State.anyBad, List.any_eq_false]
    intro w hw
    simp [State.uncorrectable, State.finding, e.pat_codeWords pos clean hw]
  have reads (l : List Nat) (h : ∀ o ∈ l, e.pat (bankAddr c o) = 0) : l.foldl (fun s o => s.readWord c o) e = e := by
    induction l with
    | nil => rfl
    | cons o l ih =>
      rw [List.foldl_cons, e.readWord_clean (h o (List.mem_cons_self ..))]
      exact ih fun p hp => h p (List.mem_cons_of_mem o hp)
  have all : e.readWords c off n = e := by
    refine reads _ fun o ho => ?_
    have shifted : bankAddr c o ∈ codeWords (bankAddr c off) n := by
      simp only [wordsOf, codeWords, List.mem_map, List.mem_range, bankAddr] at ho ⊢
      obtain ⟨j, hj, rfl⟩ := ho
      exact ⟨j, by omega, by omega⟩
    exact e.pat_codeWords pos clean shifted
  simp only [State.bankRead, noneBad, Bool.false_eq_true, if_false, all]

/-! ### The words of the mailboxes -/

/-- A mailbox that is PENDING after the word, for a load from an own bank in code words without error. -/
theorem State.mbPend_bankRead (e : State) (c : CoreId) (t : ThreadId) (m : Nat) (pos : 0 < n) (clean : ∀ i < n, e.pat (bankAddr c off + i) = 0) :
    (e.mbPend c t m).bankRead c off n = (some (e.readLE (bankAddr c off) n), e.mbPend c t m) := by
  have bytes (a n : Nat) : (e.mbPend c t m).readLE a n = e.readLE a n := by
    induction n generalizing a with
    | zero => rfl
    | succ n ih => rw [State.readLE, State.readLE, ih]; rfl
  rw [State.bankRead_clean (e := e.mbPend c t m) pos clean, bytes]

variable {s : State} {w : LR}

/-- A mailbox-directed load from an own bank. -/
theorem mbLoad_ownBank (runs : s.Runs c t w.g) (low : w.a.toNat < 4) (empty : (((s.reads c t).thr c t).mbox w.a.toNat).st = .empty)
    (addr : (s.reads c t).x c t w.b = ownBankWord c off) {sz : MbSize} (size : mbBytes sz = n) (bank : (s.reads c t).OwnBank c t off n false) :
    Does (.mbLoad c t sz w) s c t (fun e => (e.mbPend c t w.a.toNat).fly c t (.mbox w.a.toNat) (e.readLE (bankAddr c off) n)
      (if off < 0x40000 then 4 else 7)) := by
  refine does_of_done runs (by simp [encZ, low]) rfl ?_
  have free : (s.reads c t).mbBusy c t w.a.toNat = false := by rw [State.mbBusy, empty]; rfl
  have check := State.check_ownBank bank
  rw [← addr] at check
  have place := Place.ownBank_bank c bank.offset
  rw [← addr] at place
  have reads := State.mbPend_bankRead (s.reads c t) c t w.a.toNat bank.pos bank.clean
  -- The read stands behind `Function.update`, so that a match on it is reduced only once it is rewritten, and its address never evaluated.
  rw [← Function.update_eq_self off (((s.reads c t).mbPend c t w.a.toNat).bankRead c)]
  simp only [size, free, check, Bool.false_eq_true, if_false]
  rw [place]
  simp only [Function.update_self, reads]

/-- Settles O13. A load whose checks pass reads the bank without error; MBRD, MBTST, MBWAIT and MBSET are the cases of the mailbox's state. That MBTST counts
in DET_CNT.PROBE is R559. -/
theorem mailboxWordsComplete : Obligations.MailboxWordsComplete := by
  intro c t w s off runs e box set dist
  refine ⟨fun low empty addr => ⟨mbLoad_ownBank runs low empty addr rfl, mbLoad_ownBank runs low empty addr rfl, mbLoad_ownBank runs low empty addr rfl⟩,
    fun low zero full => ?_, fun low => ?_, fun zero low rest arrived => ?_, fun zero free sup => ?_⟩
  · refine does_of_done runs (by simp [encZ, low, zero]) rfl ?_
    simp only [State.mbrd, show ((s.reads c t).thr c t).mbox w.b.toNat = box w.b.toNat from rfl, full]
    rfl
  · refine does_of_done runs (by simp [encZ, low]) rfl ?_
    simp only [State.probe, Bool.decide_or]
    rfl
  · refine does_of_done (f := id) runs (by simp [encZ, zero, low, rest]) rfl ?_
    have some_arrived : ((s.reads c t).thr c t).mbArrived w.b.toNat = true := by
      obtain ⟨n, hn, named, state⟩ := arrived
      rw [Thread.mbArrived, List.any_eq_true]
      have here : (((s.reads c t).thr c t).mbox n).st = .full ∨ (((s.reads c t).thr c t).mbox n).st = .error := state
      have bit : nbit w.b.toNat n = 1 := by rw [nbit, Nat.shiftRight_eq_div_pow, named]
      refine ⟨n, List.mem_range.2 hn, ?_⟩
      rw [decide_eq_true bit, Bool.true_and, ← Bool.decide_or, decide_eq_true here]
    simp only [State.mbwait, some_arrived, if_true, id]
  · refine does_of_done runs (by simp [encZ, zero]) rfl ?_
    have allowed : (s.reads c t).level c t ≠ 0 := by rw [sup]; decide
    rw [if_neg free, State.supOnly, if_neg allowed]

end Sys2Proof.Machine
end

section
/-!
SUPPORT and O9. The entry of a vector, and words with a field that is illegal.
-/
namespace Sys2Proof.Machine

/-! ### A cycle of the issue slot leaves the state's stepping registers -/

section
variable (s : State) (c : CoreId) (t : ThreadId)

theorem State.tf_reads {f : Field} (n : f.reg ≠ .dstat) : (s.reads c t).tf f c t = (s.begins c t).tf f c t := State.tf_setTf_other _ c t n 0

theorem State.treg_reads {r : RegName} (n : r ≠ .dstat) : (s.reads c t).treg r c t = (s.begins c t).treg r c t := State.treg_setTf_other _ c t n 0

theorem State.stepping_reads : (s.reads c t).tf dstat_SS c t = (s.begins c t).tf dstat_SS c t :=
  State.tf_setTf_beside (f := dstat_SKIP) (g := dstat_SS) _ c t rfl (by decide) (by decide) (by decide) (by decide) 0

end

/-! ### Entering a vector (R117, R121) -/

/-- The thread stands in no delay slot and in no SETM shadow, and nothing of it is in flight to a register. -/
structure State.Plain (e : State) (c t : Nat) : Prop where
  noSlot : (e.thr c t).slot = none
  noShadow : (e.thr c t).shadow = 0
  landed : (e.thr c t).flight = []

section
variable {e : State} {c : CoreId} {t : ThreadId} {vec det status : Nat} {addr : Word}

/-- Nothing is in flight: nothing lands. -/
theorem State.landAll_nothing {e : State} {c t : Nat} (landed : (e.thr c t).flight = []) : e.landAll c t = e.setThr c t (e.thr c t) := by
  have same : { e.thr c t with flight := [] } = e.thr c t := by rw [← landed]
  simp only [State.landAll, landed, List.filter_nil, State.landList, same]

theorem State.undoSlot_none {e : State} {c t : Nat} (noSlot : (e.thr c t).slot = none) : e.undoSlot c t = (false, e) := by
  simp only [State.undoSlot, noSlot]

/-- The registers that entering vector `vec` writes. -/
def State.savesEntry (q : State) (c t vec : Nat) (epc estat ecause eaddr emode : Word) : State :=
  let s := ((((q.setTreg .epc c t epc).setTreg .estat c t estat).setTreg .ecause c t ecause).setTreg .eaddr c t eaddr).setTreg .emode c t emode
  let s := ((s.setTf wstat_LEVEL c t 1).setTf wstat_EXL c t 1).setTf wstat_IE c t 0
  if vec = 8 then s.setTf rstat_INH c t 1 else s

/-- The thread at the entry of vector `vec`. -/
def Thread.atEntry (h : Thread) (vec : Nat) : Thread :=
  { h with st := .ready, wait := .none, armed := false, pc := 16 * vec, slot := none, shadow := 0, notBefore := if vec < 32 then h.snap.cycle + 2 else h.notBefore }

@[simp] theorem Thread.stepReq_atEntry (h : Thread) (vec : Nat) : (h.atEntry vec).stepReq = h.stepReq := rfl

section
variable (q : State) (c : CoreId) (t : ThreadId) (vec : Nat) (epc estat ecause eaddr emode : Word)

@[simp] theorem State.thr_savesEntry : (q.savesEntry c t vec epc estat ecause eaddr emode).thr c t = q.thr c t := by
  unfold State.savesEntry
  split <;> simp only [State.thr_setTf, State.thr_setTreg]

theorem State.treg_savesEntry : let u := q.savesEntry c t vec epc estat ecause eaddr emode
    u.treg .epc c t = epc ∧ u.treg .ecause c t = ecause ∧ u.treg .eaddr c t = eaddr ∧ u.treg .emode c t = emode := by
  unfold State.savesEntry
  split <;> simp (disch := decide) only [State.treg_setTf_other, State.treg_setTreg_same, State.treg_setTreg_other, and_self]

theorem State.tf_savesEntry : let u := q.savesEntry c t vec epc estat ecause eaddr emode
    u.tf wstat_LEVEL c t = 1 ∧ u.tf wstat_EXL c t = 1 ∧ u.tf wstat_IE c t = 0 ∧ u.tf dstat_SS c t = q.tf dstat_SS c t := by
  unfold State.savesEntry
  split <;> simp (disch := decide) only [State.tf_setTf_other, State.tf_setTf_same, State.tf_setTf_beside, State.tf_setTreg_other, wstat_LEVEL, wstat_EXL,
    wstat_IE] <;> decide

end

theorem State.enter_plain (plain : e.Plain c t) : e.enter c t vec det addr status 0 =
    ((e.setThr c t (e.thr c t)).savesEntry c t vec (BitVec.ofNat 64 ((e.thr c t).pc % 65536)) (BitVec.ofNat 64 ((e.treg .wstat c t).toNat % 256))
      (BitVec.ofNat 64 (vec + det <<< 24 + status <<< 48)) addr (BitVec.ofNat 64 (e.treg .mode c t).toNat)).setThr c t ((e.thr c t).atEntry vec) := by
  have undone : (e.setThr c t (e.thr c t)).undoSlot c t = (false, e.setThr c t (e.thr c t)) :=
    State.undoSlot_none (by rw [State.thr_setThr_same]; exact plain.noSlot)
  have here : (e.setThr c t (e.thr c t)).thr c t = e.thr c t := State.thr_setThr_same ..
  simp only [State.enter, State.landAll_nothing plain.landed, undone, here, plain.noShadow, if_true, Bool.false_eq_true, if_false, Nat.zero_mod,
    Nat.zero_shiftLeft, Nat.add_zero, State.treg_setThr]
  unfold State.savesEntry Thread.atEntry
  by_cases isEight : vec = 8
  · simp only [if_pos isEight, State.thr_setTf, State.thr_setTreg, here]
  · simp only [if_neg isEight, State.thr_setTf, State.thr_setTreg, here]

theorem State.enter_thr (plain : e.Plain c t) : (e.enter c t vec det addr status 0).thr c t = (e.thr c t).atEntry vec := by
  rw [State.enter_plain plain, State.thr_setThr_same]

theorem State.enter_single (plain : e.Plain c t) : (e.enter c t vec det addr status 0).tf dstat_SS c t = e.tf dstat_SS c t := by
  obtain ⟨-, -, -, single⟩ := State.tf_savesEntry (e.setThr c t (e.thr c t)) c t vec (BitVec.ofNat 64 ((e.thr c t).pc % 65536))
    (BitVec.ofNat 64 ((e.treg .wstat c t).toNat % 256)) (BitVec.ofNat 64 (vec + det <<< 24 + status <<< 48)) addr
    (BitVec.ofNat 64 (e.treg .mode c t).toNat)
  rw [State.enter_plain plain, State.tf_setThr, single, State.tf_setThr]

/-- What a thread that enters a vector shows. -/
theorem State.enter_entered (plain : e.Plain c t) :
    (e.enter c t vec det addr status 0).Entered c t vec det status (e.thr c t).pc (e.treg .mode c t).toNat addr := by
  have cause : vec + det <<< 24 + status <<< 48 = vec + det * 2 ^ 24 + status * 2 ^ 48 := by rw [Nat.shiftLeft_eq, Nat.shiftLeft_eq]
  rw [State.enter_plain plain, cause]
  generalize e.setThr c t (e.thr c t) = q
  generalize BitVec.ofNat 64 ((e.treg .wstat c t).toNat % 256) = estat
  obtain ⟨epc, ecause, eaddr, emode⟩ := State.treg_savesEntry q c t vec (BitVec.ofNat 64 ((e.thr c t).pc % 65536)) estat
    (BitVec.ofNat 64 (vec + det * 2 ^ 24 + status * 2 ^ 48)) addr (BitVec.ofNat 64 (e.treg .mode c t).toNat)
  obtain ⟨level, exl, ie, -⟩ := State.tf_savesEntry q c t vec (BitVec.ofNat 64 ((e.thr c t).pc % 65536)) estat
    (BitVec.ofNat 64 (vec + det * 2 ^ 24 + status * 2 ^ 48)) addr (BitVec.ofNat 64 (e.treg .mode c t).toNat)
  exact ⟨by rw [State.thr_setThr_same]; rfl, by rw [State.thr_setThr_same]; rfl, level, exl, ie, epc, ecause, eaddr, emode⟩

/-- The thread takes its own exceptions of vectors 1 to 5 (R118, R123). -/
theorem State.raise_own (taken : e.tf wstat_EXL c t = 0) (self : e.tf wstat_SELF c t = 1) (own : 1 ≤ vec ∧ vec ≤ 5) :
    e.raise c t vec det addr status = e.enter c t vec det addr status 0 := by
  simp only [State.raise]
  rw [if_neg (by simp; omega), if_neg (by omega), if_neg (by simp; omega), if_pos (by simp [own]), if_pos (by simp [self])]

/-- Traps and interrupts are taken whatever the thread's wstat.SELF (R118). -/
theorem State.raise_high (taken : e.tf wstat_EXL c t = 0) (high : 16 ≤ vec) : e.raise c t vec det addr status = e.enter c t vec det addr status 0 := by
  simp only [State.raise]
  rw [if_neg (by simp; omega), if_neg (by omega), if_neg (by simp; omega), if_neg (by simp; omega)]

end

/-! ### A word whose fields are illegal -/

section
variable {s : State} {c : CoreId} {t : ThreadId}

/-- The state before a word of a thread that takes its own exceptions. -/
theorem State.begins_plain (h : s.Settled c t) (own : s.TakesOwn c t) : (s.begins c t).Plain c t :=
  ⟨State.thr_reads s c t ▸ own.noSlot, State.thr_reads s c t ▸ own.noShadow, State.thr_reads s c t ▸ h.landed⟩

/-- An exception of vectors 1 to 5 at a word of such a thread. -/
theorem State.raise_begins (h : s.Settled c t) (own : s.TakesOwn c t) {vec det : Nat} (low : 1 ≤ vec ∧ vec ≤ 5) :
    ((s.begins c t).raise c t vec det 0 0).Entered c t vec det 0 ((s.reads c t).thr c t).pc ((s.reads c t).treg .mode c t).toNat 0 ∧
    ((s.begins c t).raise c t vec det 0 0).stepHalt c t = (s.begins c t).raise c t vec det 0 0 := by
  have plain := State.begins_plain h own
  have taken : (s.begins c t).tf wstat_EXL c t = 0 := (s.tf_reads c t (by decide)).symm.trans own.taken
  have self : (s.begins c t).tf wstat_SELF c t = 1 := (s.tf_reads c t (by decide)).symm.trans own.self
  rw [State.raise_own taken self low, State.thr_reads, s.treg_reads c t (by decide)]
  refine ⟨State.enter_entered plain, State.stepHalt_kept h ?_ ?_⟩
  · rw [State.enter_thr plain, State.thr_reads, Thread.stepReq_atEntry]
  · rw [State.enter_single plain, s.stepping_reads c t]

/-- A word with an illegal field takes vector 1 with the lowest detail, whatever its guard (R103, R206). -/
theorem State.issue_illegal (issues : s.Issues c t) (noBreak : (s.begins c t).breakAt c t ((s.begins c t).thr c t).pc = none) {enc : List Nat} {d : Nat}
    (lowest : enc.min? = some d) (g : BitVec 4) (ctl br : Bool) (body : State → Fx) : s.issue c t g enc ctl br body = (s.begins c t).raise c t 1 d 0 0 := by
  have fetched := issues.fetched
  rw [State.thr_begins] at fetched noBreak
  have begins : (s.tickIssue c t).setThr c t { (s.tickIssue c t).thr c t with snap := (s.tickIssue c t).ctxOf c t } = s.begins c t := rfl
  simp only at fetched noBreak
  unfold State.issue
  simp only [issues.turn, ne_eq, not_true_eq_false, if_false, begins, if_neg (Nat.not_le.2 fetched), noBreak, ite_self, lowest]

theorem completes_of_illegal (issues : s.Issues c t) (noBreak : (s.begins c t).breakAt c t ((s.begins c t).thr c t).pc = none) (h : s.Settled c t)
    (own : s.TakesOwn c t) {i : Instr} {g : BitVec 4} {enc : List Nat} {ctl br : Bool} {body : State → Fx} {d : Nat} (lowest : enc.min? = some d)
    (word : exec i s = .next (s.issue c t g enc ctl br body)) :
    Completes i s (fun u => u.Entered c t 1 d 0 ((s.reads c t).thr c t).pc ((s.reads c t).treg .mode c t).toNat 0) :=
  ⟨_, by rw [word, State.issue_illegal issues noBreak lowest], (State.raise_begins h own ⟨le_refl 1, by decide⟩).1⟩

theorem min_encZ {l : List Bool} (b : Bool) (named : b ∈ l) (off : b = false) : (encZ l).min? = some 0x11 := by
  unfold encZ
  rw [if_pos (List.any_eq_true.2 ⟨b, named, by rw [off]; rfl⟩)]
  rfl

theorem min_encP {l : List (BitVec 5)} {r : List Nat} (n : BitVec 5) (named : n ∈ l) (high : 8 ≤ n.toNat) (above : r = [] ∨ r = [0x11]) :
    (encP l ++ r).min? = some 0x10 := by
  unfold encP
  rw [if_pos (List.any_eq_true.2 ⟨n, named, decide_eq_true high⟩)]
  rcases above with rfl | rfl <;> rfl

theorem min_encP_off {l : List (BitVec 5)} (low : ∀ n ∈ l, n.toNat < 8) (r : List Nat) : (encP l ++ r).min? = r.min? := by
  unfold encP
  rw [if_neg (by simpa using low), List.nil_append]

theorem encZ_cases (l : List Bool) : encZ l = [] ∨ encZ l = [0x11] := by
  unfold encZ
  split
  · exact Or.inr rfl
  · exact Or.inl rfl

/-- Settles O9: each illegal field puts its detail among the word's encoding conditions, of which the lowest is taken. -/
theorem illegalFieldsAreTaken : Obligations.IllegalFieldsAreTaken := by
  intro c t w l rel lo s issues noBreak h own e illegal wide
  have takes {i : Instr} {g : BitVec 4} {enc : List Nat} {body : State → Fx} {d : Nat} (lowest : enc.min? = some d)
      (word : exec i s = .next (s.issue c t g enc false false body)) : illegal d i := completes_of_illegal issues noBreak h own lowest word
  refine ⟨fun a => takes (min_encZ (decide (w.a.toNat < 8)) (by simp) (by simpa using a)) rfl, fun bc => ?_, fun b c a => ?_, fun b c => ?_, fun bc => ?_,
    fun imm => takes (min_encZ (decide (l.imm.toNat / 64 % 128 = 0)) (by simp) (by simpa using imm)) rfl,
    fun a => takes (min_encZ (decide (l.a.toNat < 8)) (by simp) (by simpa using a)) rfl, fun abc => ?_, fun abc => ?_⟩
  · rcases bc with b | c
    · exact takes (min_encP w.b (by simp) b (encZ_cases _)) rfl
    · exact takes (min_encP w.c (by simp) c (encZ_cases _)) rfl
  · refine takes ((min_encP_off (by simp [b, c]) _).trans (min_encZ (decide (w.a.toNat < 8)) (by simp) (by simpa using a))) rfl
  · refine takes ((min_encP_off (by simp [b]) _).trans (min_encZ (decide (w.c = 0)) (by simp) (by simpa using c))) rfl
  · rcases bc with b | c
    · exact takes (min_encZ (decide (w.b.toNat < 2)) (by simp) (by simp; omega)) rfl
    · exact takes (min_encZ (decide (w.c = 0)) (by simp) (by simpa using c)) rfl
  · rcases abc with a | b | c
    · exact takes (min_encZ (decide (w.a = 0)) (by simp) (by simpa using a)) rfl
    · exact takes (min_encZ (decide (w.b = 0)) (by simp) (by simpa using b)) rfl
    · exact takes (min_encZ (decide (w.c = 0)) (by simp) (by simpa using c)) rfl
  · refine takes (d := 0x10) (enc := encOp [decide ((2 : BitVec 3).toNat < 4)] ++ encV [w.a, w.b, w.c]) ?_ rfl
    have high : [w.a, w.b, w.c].any (fun n => decide (16 ≤ n.toNat)) = true := by simpa using abc
    unfold encV
    rw [if_pos high]
    rfl

end

end Sys2Proof.Machine
end

section
/-!
SUPPORT. What the threads of a core do in a cycle: the elementary changes that landing writes, waking, entering vectors and going on are made of.
-/
namespace Sys2Proof.Machine

/-- A write in flight that is no SETS of ccfg. -/
def Flight.Calm (f : Flight) : Prop := ∀ n b, f.dest = .sreg n b → (sregAt n).map (·.1) ≠ some .ccfg

/-- A thread that waits at no pair word and has no SETS of ccfg in flight: nothing that it lands or wakes to reaches memory. -/
def Thread.Calm (h : Thread) : Prop := (∀ p x, h.wait ≠ .pair p x) ∧ ∀ g ∈ h.flight, g.Calm

/-- A thread that keeps its scalar registers and its writes in flight, and stays READY. -/
structure Thread.Rests (h k : Thread) : Prop where
  x : h.x = k.x
  flight : h.flight = k.flight
  ready : k.st = .ready → h.st = .ready

theorem Thread.Rests.refl (h : Thread) : h.Rests h := ⟨rfl, rfl, id⟩

theorem Thread.Rests.trans {h k l : Thread} (a : h.Rests k) (b : k.Rests l) : h.Rests l :=
  ⟨a.x.trans b.x, a.flight.trans b.flight, fun r => a.ready (b.ready r)⟩

/-- `u` is reached from `s` by changes of core c of which only the threads in `J` are the actors: their own thread states, the wake of any thread, registers
of the core, the core apart from its threads, and messages. Where `loud` is off no thread that is calm stops being so, and nothing else changes; where it
is on, memory and the units may change too. -/
inductive State.Acts (loud : Bool) (c : Nat) (J : Nat → Prop) : State → State → Prop
  | refl (s : State) : Acts loud c J s s
  | trans {s v u : State} (first : Acts loud c J s v) (next : Acts loud c J v u) : Acts loud c J s u
  | thread (s : State) {j : Nat} (h : Thread) (mine : J j) (calm : (s.thr c j).Calm → h.Calm) : Acts loud c J s (s.setThr c j h)
  | louder (s : State) {j : Nat} (h : Thread) (mine : J j) (on : loud = true) : Acts loud c J s (s.setThr c j h)
  | wake (s : State) (j : Nat) (armed poll : Bool) :
      Acts loud c J s (s.setThr c j { s.thr c j with st := .ready, wait := .none, armed := armed, poll := poll })
  | reg (s : State) (r : RegName) {i : Nat} (small : i < 1048576) (w : Word) : Acts loud c J s (s.setReg r c i w)
  | core (s : State) (k : Core) (kept : k.threads = (s.core c).threads) : Acts loud c J s (s.setCore c k)
  | emits (s : State) (l : List Msg) (n : Nat) : Acts loud c J s { s with sent := l, freeCtr := n }
  | meddles (s u : State) (on : loud = true) (kept : ∀ j, u.thr c j = s.thr c j) : Acts loud c J s u

section
variable {loud : Bool} {c : Nat} {J : Nat → Prop} {s u : State}

theorem State.Acts.foldl {α : Type} {f : State → α → State} (l : List α) (each : ∀ s, ∀ x ∈ l, State.Acts loud c J s (f s x)) (s : State) :
    State.Acts loud c J s (l.foldl f s) := by
  induction l generalizing s with
  | nil => exact .refl s
  | cons x l ih => exact (each s x List.mem_cons_self).trans (ih (fun s y m => each s y (List.mem_cons_of_mem x m)) _)

/-- A last change after others: the order in which a chain of updates is read from outside. -/
theorem State.Acts.last {v : State} (next : State.Acts loud c J v u) (first : State.Acts loud c J s v) : State.Acts loud c J s u := first.trans next

/-- The other threads rest. -/
theorem State.Acts.rests (a : State.Acts loud c J s u) {j : Nat} (other : ¬ J j) : (u.thr c j).Rests (s.thr c j) := by
  induction a with
  | refl => exact .refl _
  | trans _ _ first next => exact next.trans first
  | @thread s k h mine _ | @louder s k h mine _ =>
    have apart : j ≠ k := fun e => other (e ▸ mine)
    exact State.thr_setThr_other s c h apart ▸ .refl _
  | wake s k armed poll =>
    by_cases e : j = k
    · rw [e, State.thr_setThr_same]
      exact ⟨rfl, rfl, fun _ => rfl⟩
    · exact State.thr_setThr_other s c _ e ▸ .refl _
  | reg => exact .refl _
  | core s k kept =>
    have same : (s.setCore c k).thr c j = s.thr c j := by unfold State.thr; rw [State.core_setCore_same, kept]
    exact same ▸ .refl _
  | emits => exact .refl _
  | meddles s u on kept => exact kept j ▸ .refl _

/-- A calm thread stays calm where nothing is loud. -/
theorem State.Acts.calm (a : State.Acts loud c J s u) (j : Nat) (was : loud = true ∨ (s.thr c j).Calm) : loud = true ∨ (u.thr c j).Calm := by
  induction a with
  | refl => exact was
  | trans _ _ first next => exact next (first was)
  | @thread s k h mine calm =>
    refine was.imp_right (fun was => ?_)
    by_cases e : j = k
    · subst e
      rw [State.thr_setThr_same]
      exact calm was
    · rwa [State.thr_setThr_other s c _ e]
  | louder s h mine on => exact Or.inl on
  | wake s k armed poll =>
    refine was.imp_right (fun was => ?_)
    by_cases e : j = k
    · subst e
      rw [State.thr_setThr_same]
      exact ⟨fun _ _ h => Wait.noConfusion h, was.2⟩
    · rwa [State.thr_setThr_other s c _ e]
  | reg => exact was
  | core s k kept =>
    have same : (s.setCore c k).thr c j = s.thr c j := by unfold State.thr; rw [State.core_setCore_same, kept]
    rwa [same]
  | emits => exact was
  | meddles s u on kept => exact Or.inl on

/-! ### Changes of the thread's own state and registers -/

section
variable (s : State) {j : Nat} (mine : J j) (small : j < 8)
include mine

theorem State.acts_place (pc : Nat) (slot : Option Slot) (rstack : List Nat) (shadow : Nat) (lc : Sparse Nat) :
    State.Acts loud c J s (s.setThr c j { s.thr c j with pc := pc, slot := slot, rstack := rstack, shadow := shadow, lc := lc }) :=
  .thread s _ mine id

theorem State.acts_fly (d : Dest) (quiet : ∀ n b, d ≠ .sreg n b) (v dist : Nat) : State.Acts loud c J s (s.fly c j d v dist) := by
  refine .thread s _ mine (fun was => ⟨was.1, fun g m => ?_⟩)
  have added : ∀ (f : Flight) (l : List Flight), g ∈ addFlight f l → g = f ∨ g ∈ l := by
    intro f l
    induction l with
    | nil => simp [addFlight]
    | cons h l ih =>
      simp only [addFlight]
      split
      · simp
      · simp only [List.mem_cons]
        rintro (rfl | m)
        · simp
        · exact (ih m).imp_right Or.inr
  rcases added _ _ m with rfl | m
  · exact fun n b e => absurd e (quiet n b)
  · exact was.2 g m

omit mine
include small

theorem State.acts_setTf (f : Field) (v : Nat) : State.Acts loud c J s (s.setTf f c j v) := .reg s _ (by omega) _

theorem State.acts_setTreg (r : RegName) (w : Word) : State.Acts loud c J s (s.setTreg r c j w) := .reg s _ (by omega) _

end

theorem State.acts_setFld (s : State) (f : Field) (v : Nat) {i : Nat} (small : i < 1048576) : State.Acts loud c J s (s.setFld f c i v) := .reg s _ small _

theorem State.acts_ready (s : State) (j : Nat) : State.Acts loud c J s (s.ready c j) := .wake s j false false

/-! ### What memory and the units do beside the threads -/

/-- Every thread of every core is as before. -/
def State.ThreadsAs (u s : State) : Prop := ∀ d, (u.core d).threads = (s.core d).threads

theorem State.ThreadsAs.refl (s : State) : s.ThreadsAs s := fun _ => rfl

theorem State.ThreadsAs.trans {s v u : State} (first : v.ThreadsAs s) (next : u.ThreadsAs v) : u.ThreadsAs s := fun d => (next d).trans (first d)

theorem State.ThreadsAs.of_cores {u s : State} (same : u.cores = s.cores) : u.ThreadsAs s := fun d => by unfold State.core; rw [same]

theorem State.threadsAs_setCore (s : State) (d : Nat) (k : Core) (kept : k.threads = (s.core d).threads) : (s.setCore d k).ThreadsAs s := by
  intro e
  by_cases h : e = d
  · rw [h, State.core_setCore_same, kept]
  · rw [State.core_setCore_other _ _ h]

theorem State.ThreadsAs.foldl {α : Type} {f : State → α → State} (each : ∀ s x, (f s x).ThreadsAs s) (l : List α) (s : State) : (l.foldl f s).ThreadsAs s := by
  induction l generalizing s with
  | nil => exact .refl s
  | cons x l ih => exact (each s x).trans (ih _)

theorem State.ThreadsAs.acts {u s : State} (h : u.ThreadsAs s) (on : loud = true) : State.Acts loud c J s u :=
  .meddles s u on (fun j => by unfold State.thr; rw [h c])

section
variable (s : State)

@[simp] theorem State.cores_setReg (r : RegName) (q i : Nat) (w : Word) : (s.setReg r q i w).cores = s.cores := id rfl
@[simp] theorem State.cores_setFld (f : Field) (q i v k : Nat) : (s.setFld f q i v k).cores = s.cores := id rfl
@[simp] theorem State.cores_bump (f : Field) (q i n : Nat) : (s.bump f q i n).cores = s.cores := id rfl
@[simp] theorem State.cores_bumpWrap (f : Field) (q i n : Nat) : (s.bumpWrap f q i n).cores = s.cores := id rfl
@[simp] theorem State.cores_setKp (k : Keeper) : (s.setKp k).cores = s.cores := id rfl
@[simp] theorem State.cores_setHang (h : Hang) : (s.setHang h).cores = s.cores := id rfl
@[simp] theorem State.cores_send (k : MsgKind) (l : List Nat) : (s.send k l).cores = s.cores := id rfl
@[simp] theorem State.cores_free : s.free.2.cores = s.cores := id rfl
@[simp] theorem State.cores_setByte (a : Nat) (b : Byte) : (s.setByte a b).cores = s.cores := id rfl
@[simp] theorem State.cores_setTag (a t : Nat) : (s.setTag a t).cores = s.cores := id rfl
@[simp] theorem State.cores_setPat (a p : Nat) : (s.setPat a p).cores = s.cores := id rfl

theorem State.cores_foldl {α : Type} {f : State → α → State} (each : ∀ s x, (f s x).cores = s.cores) (l : List α) : (l.foldl f s).cores = s.cores := by
  induction l generalizing s with
  | nil => rfl
  | cons x l ih => exact (ih _).trans (each s x)

@[simp] theorem State.cores_platformEvent (cls kind : Nat) (data : List Nat) : (s.platformEvent cls kind data).cores = s.cores := by
  simp only [State.platformEvent, apply_ite State.cores, State.cores_setKp, State.cores_send, ite_self]

@[simp] theorem State.cores_rackIntervals : s.rackIntervals.cores = s.cores := by
  refine State.cores_foldl s (fun s n => ?_) _
  simp only [apply_ite State.cores, State.cores_setFld, ite_self]

@[simp] theorem State.cores_mgmtAnswer (src : MgmtSrc) (b : List Nat) : (s.mgmtAnswer src b).cores = s.cores := by
  unfold State.mgmtAnswer
  cases src.seq <;> rfl

@[simp] theorem State.cores_dumpBegun : s.dumpBegun.cores = s.cores := by
  unfold State.dumpBegun
  split
  · exact s.cores_mgmtAnswer _ _
  · rfl

@[simp] theorem State.cores_askDump (d : DumpReq) : (s.askDump d).cores = s.cores := by
  simp only [State.askDump, apply_ite State.cores, State.cores_dumpBegun, State.cores_setFld, State.cores_setHang, ite_self]

@[simp] theorem State.cores_rackFail : s.rackFail.cores = s.cores := by
  simp only [State.rackFail, State.cores_rackIntervals, State.cores_setKp, State.cores_bump]

@[simp] theorem State.cores_faultRec (cls act plot det loc : Nat) : (s.faultRec cls act plot det loc).cores = s.cores := by
  simp only [State.faultRec, apply_ite State.cores, State.cores_askDump, State.cores_rackFail, State.cores_setKp, State.cores_platformEvent,
    State.cores_bumpWrap, State.cores_setReg, ite_self]

/-! ### Banks and the cache -/

theorem State.cores_countErr (n off : Nat) : (s.countErr n off).cores = s.cores := by
  unfold State.countErr
  split
  · rfl
  · exact State.cores_setReg ..
  · exact State.cores_setReg ..

theorem State.cores_reportFinding (f : SzFinding) (cls plot a : Nat) : (s.reportFinding f cls plot a).cores = s.cores := by
  unfold State.reportFinding
  split
  · rfl
  · dsimp only
    split
    · exact State.cores_faultRec ..
    · exact s.cores_free
  · exact s.cores_faultRec ..

theorem State.cores_bankFinding (n off : Nat) : (s.bankFinding n off).cores = s.cores := by
  unfold State.bankFinding
  exact (State.cores_reportFinding ..).trans (s.cores_countErr n off)

theorem State.cores_flipWord (a p : Nat) : (s.flipWord a p).cores = s.cores := by
  unfold State.flipWord
  dsimp only
  split
  · exact State.cores_foldl _ (fun s i => s.cores_setByte _ _) _
  · exact (State.cores_foldl _ (fun s i => s.cores_setTag _ _) _).trans (State.cores_foldl _ (fun s i => s.cores_setByte _ _) _)

theorem State.cores_asRead (a : Nat) : (s.asRead a).cores = s.cores := by
  unfold State.asRead
  split
  · rfl
  · split
    · rfl
    · exact s.cores_flipWord a _
  · split
    · rfl
    · exact s.cores_flipWord a _

theorem State.cores_foundBad (n off k : Nat) : (s.foundBad n off k).cores = s.cores := State.cores_bankFinding s _ _

theorem State.threadsAs_dueBack (n off : Nat) : (s.dueBack n off).ThreadsAs s := by
  unfold State.dueBack
  dsimp only
  split
  · exact .refl s
  · exact s.threadsAs_setCore n _ rfl

theorem State.threadsAs_readWord (n off : Nat) : (s.readWord n off).ThreadsAs s := by
  unfold State.readWord
  by_cases clean : s.pat (bankAddr n off) = 0
  · exact (if_pos clean).symm ▸ State.ThreadsAs.refl s
  · rw [if_neg clean]
    split
    · exact .trans (.of_cores ((State.cores_bankFinding _ n off).trans (s.cores_asRead _))) (State.threadsAs_dueBack _ n off)
    · exact .of_cores (s.cores_asRead _)

/-- What holds of both ends of a read of bank bytes. -/
theorem State.bankRead_ind {P : Option Nat × State → Prop} {n off k : Nat} (bad : P (none, s.foundBad n off k))
    (good : P (some ((s.readWords n off k).readLE (bankAddr n off) k), s.readWords n off k)) : P (s.bankRead n off k) := by
  unfold State.bankRead
  by_cases h : s.anyBad (bankAddr n off) k = true
  · rw [if_pos h]
    exact bad
  · rw [if_neg h]
    exact good

/-- What holds of both ends of a write of bank bytes. -/
theorem State.bankWrite_ind {P : Bool × State → Prop} {n off k mask v : Nat} (bad : P (false, s.foundBad n off k))
    (good : P (true, (s.readWords n off k).bankPut n off k mask v)) : P (s.bankWrite n off k mask v) := by
  unfold State.bankWrite
  by_cases h : s.anyBad (bankAddr n off) k = true
  · rw [if_pos h]
    exact bad
  · rw [if_neg h]
    exact good

theorem State.threadsAs_readWords (n off k : Nat) : (s.readWords n off k).ThreadsAs s := .foldl (fun s o => s.threadsAs_readWord n o) _ s

theorem State.cores_writeMask (a n mask v : Nat) : (s.writeMask a n mask v).cores = s.cores := by
  induction n generalizing s a mask v with
  | zero => rfl
  | succ n ih =>
    rw [State.writeMask, ih]
    split <;> rfl

theorem State.threadsAs_bankPut (n off k mask v : Nat) : (s.bankPut n off k mask v).ThreadsAs s := by
  have wrote (s : State) (o : Nat) : (s.wroteWord n o).ThreadsAs s := State.threadsAs_setCore _ n _ rfl
  exact .trans (.of_cores (s.cores_writeMask _ _ _ _)) (.foldl wrote _ _)

theorem State.threadsAs_settle (d : Nat) : (s.settle d).ThreadsAs s := by
  have flown (l : List Access) : (s.setCore d { s.core d with flying := l }).ThreadsAs s := s.threadsAs_setCore d _ rfl
  unfold State.settle
  exact (flown _).trans (.foldl (fun s m => .of_cores (s.cores_send _ m)) _ _)

theorem State.threadsAs_depart (d : Nat) (key : AccKey) (a : Word) (n : Nat) (parts msg : List Nat) : (s.depart d key a n parts msg).ThreadsAs s := by
  have flown (l : List Access) : (s.setCore d { s.core d with flying := l }).ThreadsAs s := s.threadsAs_setCore d _ rfl
  unfold State.depart
  split
  · exact .of_cores (s.cores_send _ _)
  · dsimp only
    split
    · exact (flown _).trans (State.threadsAs_settle _ d)
    · split
      · exact flown _
      · exact (flown _).trans (.of_cores (State.cores_send _ _ _))

theorem State.threadsAs_emptyCache (d : Nat) : (s.emptyCache d).ThreadsAs s := by
  have due (s : State) (l : List WriteBack) : (s.setCore d { s.core d with wbs := l }).ThreadsAs s := s.threadsAs_setCore d _ rfl
  have back (s : State) (e : CEntry) : (s.writeBack d e none).ThreadsAs s := by
    unfold State.writeBack
    split
    · exact .refl s
    · exact (due s _).trans (State.threadsAs_depart _ _ _ _ _ _ _)
  have unlocked (u : State) (l : List CEntry) : (u.setCore d { u.core d with cache := l }).ThreadsAs u := u.threadsAs_setCore d _ rfl
  have flushed : (s.flushEntries d none (fun _ => true)).ThreadsAs s := State.ThreadsAs.trans (.foldl back _ s) (unlocked _ _)
  have invalid (u : State) : (u.invalidate d (fun _ => true) (fun _ => true)).ThreadsAs u := u.threadsAs_setCore d _ rfl
  exact (flushed.trans (unlocked _ _)).trans (invalid _)

end

/-! ### Landing (R71, R102) -/

theorem State.acts_cacheOffDone (s : State) : State.Acts loud c J s (s.cacheOffDone c) := by
  unfold State.cacheOffDone
  split
  · exact .refl s
  · refine .foldl _ (fun s j _ => ?_) s
    split
    · exact State.acts_ready s j
    · exact .refl s

end

end Sys2Proof.Machine
end

section
/-!
SUPPORT. Landing writes, entering vectors, stopping and going on, told as changes of the thread's own core.
-/
namespace Sys2Proof.Machine

section
variable {loud : Bool} {c : Nat} {J : Nat → Prop} {s : State} {j : Nat}

/-! ### Landing (R71, R102) -/

/-- A state register has few elements. -/
theorem sregAt_small {n : Nat} {r : RegName} {i : Nat} (h : sregAt n = some (r, i)) : i < 1024 := by
  have few : ∀ r ∈ Block.thr.regs ++ Block.cst.regs, r.desc.cnt ≤ 1024 := by decide
  obtain ⟨q, m, e⟩ := List.exists_of_findSome?_eq_some h
  dsimp only at e
  split at e
  · rename_i inside
    obtain ⟨rfl, rfl⟩ := Prod.mk.inj (Option.some.inj e)
    have := few q m
    simp at inside
    omega
  · cases e

theorem State.acts_sets (s : State) (mine : J j) (small : j < 8) {r : RegName} {i : Nat} (few : i < 1024) (quiet : loud = true ∨ r ≠ .ccfg) (w : Nat)
    (v : Word) : State.Acts loud c J s (s.sets c j w r i v) := by
  have generic : State.Acts loud c J s (s.setReg r c (j * 32 + i) (r.written true 63 0 (s.reg r c (j * 32 + i)) v)) := .reg s r (by omega) _
  have own (r : RegName) (w : Word) : State.Acts loud c J s (s.setReg r c 0 w) := .reg s r (by decide) w
  unfold State.sets
  dsimp only
  split
  · exact .reg s _ (by omega) _
  · have keeper (w : Nat) (b : Bool) : State.Acts loud c J s (if b then s.setFld svt_KEEPER c 0 w else s) := by
      split
      · exact s.acts_setFld _ _ (by decide)
      · exact .refl s
    split
    · exact (keeper _ _).trans (State.acts_setFld _ _ _ (by decide))
    · exact keeper _ _
  · exact generic.trans (.thread _ _ mine id)
  · exact own _ _
  · exact s.acts_setFld _ _ (by decide)
  · exact s.acts_setTf small _ _
  · refine .foldl _ (fun s k _ => ?_) s
    split
    · exact .thread s _ mine id
    · exact .refl s
  · split
    · exact .refl s
    · exact .core s _ rfl
  · split
    · have written := own .ccfg (RegName.ccfg.written true 63 0 (s.reg .ccfg c 0) v)
      split
      · have on := quiet.resolve_right (by simp)
        exact written.trans (((State.threadsAs_emptyCache _ c).acts on).trans (State.acts_cacheOffDone _))
      · exact written
    · exact .refl s
  · exact own _ _
  iterate 7 · exact .refl s
  · exact generic

theorem State.acts_landOne (s : State) (mine : J j) (small : j < 8) {f : Flight} (quiet : loud = true ∨ f.Calm) :
    State.Acts loud c J s (s.landOne c j f) := by
  unfold State.landOne
  dsimp only
  split
  · exact .thread s _ mine id
  · exact .thread s _ mine id
  · exact .thread s _ mine id
  · exact .thread s _ mine id
  · rename_i n b isSreg
    split
    · rename_i r i at_
      have few := sregAt_small at_
      have other : loud = true ∨ r ≠ .ccfg := quiet.imp_right (fun q e => q n b isSreg (by rw [at_, e]; rfl))
      have set : State.Acts loud c J s (s.sets c j (s.world c j) r i (BitVec.ofNat 64 f.val)) := s.acts_sets mine small few other _ _
      split
      · exact set.trans (.thread _ _ mine id)
      · exact set
    · exact .refl s
  · exact .core s _ rfl
  · exact .core s _ rfl
  · exact s.acts_setTreg small _ _
  · split
    · exact .thread s _ mine id
    · exact .refl s

theorem State.acts_landList (mine : J j) (small : j < 8) {l : List Flight} (quiet : loud = true ∨ ∀ f ∈ l, f.Calm) (s : State) :
    State.Acts loud c J s (s.landList c j l) := by
  induction l generalizing s with
  | nil => exact .refl s
  | cons f l ih =>
    have head : loud = true ∨ f.Calm := quiet.imp_right (fun q => q f List.mem_cons_self)
    have tail : loud = true ∨ ∀ g ∈ l, g.Calm := quiet.imp_right (fun q g m => q g (List.mem_cons_of_mem f m))
    exact (s.acts_landOne mine small head).trans (ih tail _)

/-- Some writes in flight of a thread land, and the others stay in flight. -/
theorem State.acts_landSome (mine : J j) (small : j < 8) (calm : loud = true ∨ (s.thr c j).Calm) (stay land : Flight → Bool) :
    State.Acts loud c J s ((s.setThr c j { s.thr c j with flight := (s.thr c j).flight.filter stay }).landList c j ((s.thr c j).flight.filter land)) := by
  have quiet : loud = true ∨ ∀ f ∈ (s.thr c j).flight.filter land, f.Calm := calm.imp_right (fun q f m => q.2 f (List.mem_of_mem_filter m))
  exact .last (State.acts_landList mine small quiet _) (.thread s _ mine (fun q => ⟨q.1, fun f m => q.2 f (List.mem_of_mem_filter m)⟩))

theorem State.acts_landDue (mine : J j) (small : j < 8) (calm : loud = true ∨ (s.thr c j).Calm) (now : Nat) :
    State.Acts loud c J s (s.landDue c j now) := State.acts_landSome mine small calm _ _

theorem State.acts_landAll (mine : J j) (small : j < 8) (calm : loud = true ∨ (s.thr c j).Calm) : State.Acts loud c J s (s.landAll c j) :=
  State.acts_landSome mine small calm _ _

/-! ### Entering vectors and suspending (R117 to R125) -/

theorem State.acts_undoSlot (s : State) (mine : J j) (small : j < 8) : State.Acts loud c J s (s.undoSlot c j).2 := by
  unfold State.undoSlot
  dsimp only
  split
  · exact .refl s
  · exact .last (State.acts_setTf _ small _ _) (.thread s _ mine id)

/-- A thread that no longer waits is calm if what it has in flight is. -/
theorem Thread.Calm.noWait {h k : Thread} (calm : k.Calm) (wait : h.wait = .none) (flight : h.flight = k.flight) : h.Calm :=
  ⟨fun _ _ e => Wait.noConfusion (wait.symm.trans e), flight ▸ calm.2⟩

theorem State.acts_enter (mine : J j) (small : j < 8) (calm : loud = true ∨ (s.thr c j).Calm) (vec det : Nat) (addr : Word) (status thread : Nat) :
    State.Acts loud c J s (s.enter c j vec det addr status thread) := by
  have stand (u : State) (h : Thread) (pc first : Nat) (e : u.thr c j = h) : State.Acts loud c J u (u.setThr c j { h with
      st := .ready, wait := .none, armed := false, pc := pc, slot := none, shadow := 0, notBefore := first }) :=
    .thread u _ mine (fun q => (e ▸ q : h.Calm).noWait rfl rfl)
  have inhibit (u : State) : State.Acts loud c J u (if vec = 8 then u.setTf rstat_INH c j 1 else u) := by
    split
    · exact u.acts_setTf small _ _
    · exact .refl u
  have reg {u : State} {r : RegName} {w : Word} : State.Acts loud c J u (u.setTreg r c j w) := u.acts_setTreg small r w
  have fld {u : State} {f : Field} {v : Nat} : State.Acts loud c J u (u.setTf f c j v) := u.acts_setTf small f v
  have undone := (State.acts_landAll mine small calm).trans (State.acts_undoSlot (s.landAll c j) mine small)
  unfold State.enter
  exact .last (stand _ _ _ _ rfl) (.last (inhibit _) (.last fld (.last fld (.last fld (.last reg (.last reg (.last reg (.last reg (.last reg undone)))))))))

theorem State.acts_stopDone (s : State) (k : Nat) : State.Acts loud c J s (s.stopDone c k) := by
  refine .foldl _ (fun s i _ => ?_) s
  split
  · exact .wake s i (s.thr c i).armed (s.thr c i).poll
  · exact .refl s

theorem State.acts_suspendNotice (mine : J j) (small : j < 8) (calm : loud = true ∨ (s.thr c j).Calm) (w vec det : Nat) (addr : Word) (status : Nat) :
    State.Acts loud c J s (s.suspendNotice c j w vec det addr status) := by
  have stop (u : State) (h : Thread) (e : u.thr c j = h) : State.Acts loud c J u (u.setThr c j { h with
      st := .suspended, wait := .none, armed := false, stopReq := false, susVec := vec }) :=
    .thread u _ mine (fun q => (e ▸ q : h.Calm).noWait rfl rfl)
  have reg {u : State} {r : RegName} {w : Word} : State.Acts loud c J u (u.setTreg r c j w) := u.acts_setTreg small r w
  have undone := (State.acts_landAll mine small calm).trans (State.acts_undoSlot (s.landAll c j) mine small)
  unfold State.suspendNotice
  extract_lets u s1 h s2 s3 s4 k s5 bit r kr
  have stopped : State.Acts loud c J s s5 := .last (State.acts_stopDone _ j) (.last (stop _ _ rfl) (.last reg (.last reg (.last reg undone))))
  clear_value r kr s5
  split
  · split
    · exact .last (.core s5 _ rfl) stopped
    · exact .last (.core s5 _ rfl) stopped
  · split
    · exact .last (.core s5 _ rfl) stopped
    · exact .last (.emits s5 _ _) stopped

end

end Sys2Proof.Machine
end

section
/-!
SUPPORT. Taking exceptions, going on, the ends of words, wakes, and the issue of a word, told as changes of the thread's own core.
-/
namespace Sys2Proof.Machine

/-- What an operation does, an exception apart, is a change of the core. -/
def Fx.Acts (loud : Bool) (c : Nat) (J : Nat → Prop) (s : State) : Fx → Prop
  | .exc _ _ _ _ => True
  | .done u | .branch u _ | .goto u _ | .hold u | .again u => State.Acts loud c J s u

section
variable {loud : Bool} {c : Nat} {J : Nat → Prop} {s : State} {j : Nat}

theorem Fx.Acts.after {o : State} {f : Fx} (first : State.Acts loud c J o s) (does : f.Acts loud c J s) : f.Acts loud c J o := by
  cases f with
  | exc => trivial
  | done u | branch u tgt | goto u p | hold u | again u => exact first.trans does

/-! ### Exceptions and stops -/

theorem State.acts_raise (mine : J j) (small : j < 8) (calm : loud = true ∨ (s.thr c j).Calm) (vec det : Nat) (addr : Word) (status : Nat) :
    State.Acts loud c J s (s.raise c j vec det addr status) := by
  have enters := State.acts_enter mine small calm vec det addr status 0
  have suspends (w : Nat) := State.acts_suspendNotice mine small calm w vec det addr status
  unfold State.raise
  dsimp only
  split
  · exact suspends 1
  · split
    · exact suspends _
    · split
      · exact suspends _
      · split
        · split
          · exact enters
          · exact suspends _
        · exact enters

theorem State.acts_halt (mine : J j) (small : j < 8) (calm : loud = true ∨ (s.thr c j).Calm) (cause : Nat) :
    State.Acts loud c J s (s.halt c j cause) := by
  have stop (u : State) (n : Nat) : State.Acts loud c J u (u.setThr c j { u.thr c j with
      st := .halted, preHalt := some (u.thr c j).st, haltReq := false, stepReq := false, waitStart := n }) := .thread u _ mine id
  unfold State.halt
  exact .last (stop _ _) (.last (State.acts_setTf _ small _ _) (State.acts_landAll mine small calm))

theorem State.acts_stepHalt (mine : J j) (small : j < 8) (calm : loud = true ∨ (s.thr c j).Calm) : State.Acts loud c J s (s.stepHalt c j) := by
  unfold State.stepHalt
  dsimp only
  split
  · split
    · exact State.acts_halt mine small calm 7
    · exact State.acts_halt mine small calm 7
    · exact .thread s _ mine id
    · exact .thread s _ mine id
  · exact .refl s

theorem State.acts_debugStop (mine : J j) (small : j < 8) (calm : loud = true ∨ (s.thr c j).Calm) (cause act : Nat) (addr : Word) :
    State.Acts loud c J s (s.debugStop c j cause act addr) := by
  have told : State.Acts loud c J s (s.setTf dstat_CAUSE c j cause) := s.acts_setTf small _ _
  unfold State.debugStop
  split
  · exact .last (State.acts_raise mine small (told.calm j calm) 13 0 addr 0) told
  · exact State.acts_halt mine small calm cause

/-! ### Going on (R78, R84, R88) -/

theorem State.acts_loopEnd (s : State) (mine : J j) (small : j < 8) (w next k : Nat) : State.Acts loud c J s (s.loopEnd c j w next k).2 := by
  have counted (s : State) (n : Nat) : State.Acts loud c J s (s.setThr c j { s.thr c j with lc := Sparse.set 0 (s.thr c j).lc k n }) := .thread s _ mine id
  induction k generalizing s with
  | zero => exact .refl s
  | succ k ih =>
    simp only [State.loopEnd]
    split
    · split
      · exact .thread s _ mine id
      · exact .last (ih _ (fun s n => .thread s _ mine id)) (.last (State.acts_setTf _ small _ _) (.thread s _ mine id))
    · exact ih s (fun s n => .thread s _ mine id)

theorem State.acts_advanceTo (s : State) (mine : J j) (small : j < 8) (pc next : Nat) (loops : Bool) :
    State.Acts loud c J s (s.advanceTo c j pc next loops) := by
  simp only [State.advanceTo]
  refine .last (.thread _ _ mine id) ?_
  split
  · exact .refl s
  · split
    · exact s.acts_loopEnd mine small _ _ _
    · exact .refl s

theorem State.acts_finish {s2 o : State} {f : Fx} (mine : J j) (small : j < 8) (calm : loud = true ∨ (o.thr c j).Calm) (reads : State.Acts loud c J o s)
    (begins : State.Acts loud c J o s2) (does : f.Acts loud c J s) : State.Acts loud c J o (s.finish c j s2 f) := by
  have halts {u : State} (h : State.Acts loud c J o u) : State.Acts loud c J o (u.stepHalt c j) := h.trans (State.acts_stepHalt mine small (h.calm j calm))
  unfold State.finish
  cases f with
  | exc v d a st => exact halts (begins.trans (State.acts_raise mine small (begins.calm j calm) v d a st))
  | done u => exact halts ((reads.trans does).trans (State.acts_advanceTo u mine small _ _ true))
  | branch u tgt => exact halts ((reads.trans does).trans (.thread u _ mine id))
  | goto u p => exact halts ((reads.trans does).trans (State.acts_advanceTo u mine small _ _ true))
  | hold u =>
    dsimp only
    split
    · exact reads.trans does
    · exact halts (reads.trans does)
  | again u => exact reads.trans does

/-! ### Mailboxes and pair words -/

theorem State.acts_mbRead (s : State) (mine : J j) (dest m : Nat) (v : Word) : State.Acts loud c J s (s.mbRead c j dest m v) :=
  .last (State.acts_fly _ mine _ (fun _ _ h => Dest.noConfusion h) _ _) (.thread s _ mine id)

theorem State.acts_sleepOn (s : State) (mine : J j) (w : Wait) (quiet : loud = true ∨ ∀ p x, w ≠ .pair p x) : State.Acts loud c J s (s.sleepOn c j w) := by
  rcases quiet with on | quiet
  · exact .louder s _ mine on
  · exact .thread s _ mine (fun q => ⟨quiet, q.2⟩)

theorem State.acts_mbrd (s : State) (mine : J j) (dest m : Nat) (w : Wait) (quiet : loud = true ∨ ∀ p x, w ≠ .pair p x) :
    (s.mbrd c j dest m w).Acts loud c J s := by
  unfold State.mbrd
  dsimp only
  split
  · exact s.acts_mbRead mine _ _ _
  · exact s.acts_sleepOn mine w quiet
  · trivial
  · trivial

/-- What a slot of a pair word does is a change of the core. -/
def SlotFx.Acts (loud : Bool) (c : Nat) (J : Nat → Prop) : SlotFx → Prop
  | .ok f => ∀ s, State.Acts loud c J s (f s)
  | _ => True

section
variable (on : loud = true)
include on

theorem State.bankRead_eq (off n : Nat) (s : State) : ∃ v u, s.bankRead c off n = (v, u) ∧ State.Acts loud c J s u := by
  refine State.bankRead_ind s (P := fun q => ∃ v u, q = (v, u) ∧ State.Acts loud c J s u) ?_ ?_
  · exact ⟨_, _, rfl, (State.ThreadsAs.of_cores (s.cores_foundBad c off n)).acts on⟩
  · exact ⟨_, _, rfl, (s.threadsAs_readWords c off n).acts on⟩

/-- A way to load for a slot is a change of the core. It is said of the function, whose body then need not be compared with a call's: the kernel would
evaluate the bank's address there. -/
def State.LoadActs (loud : Bool) (c : Nat) (J : Nat → Prop) (j : Nat) (load : State → Nat → Nat → Nat → Nat → Nat → State) : Prop :=
  ∀ s off n d, State.Acts loud c J s (load s c j off n d)

omit on in
theorem State.LoadActs.intro {load : State → Nat → Nat → Nat → Nat → Nat → State} (each : ∀ s off n d, State.Acts loud c J s (load s c j off n d)) :
    State.LoadActs loud c J j load := each

theorem State.loadActs_slotLoad (mine : J j) : State.LoadActs loud c J j State.slotLoad := by
  delta State.slotLoad
  refine State.LoadActs.intro (fun s off n d => ?_)
  obtain ⟨v, u, ends, acts⟩ := State.bankRead_eq (c := c) (J := J) on off n s
  rw [ends]
  cases v with
  | none => exact acts
  | some v => exact acts.trans (State.acts_fly _ mine _ (fun _ _ h => Dest.noConfusion h) _ _)

theorem State.acts_slotLoad (mine : J j) (off n d : Nat) (s : State) : State.Acts loud c J s (s.slotLoad c j off n d) :=
  State.loadActs_slotLoad on mine s off n d

theorem State.bankWrite_eq (off n mask v : Nat) (s : State) : ∃ b u, s.bankWrite c off n mask v = (b, u) ∧ State.Acts loud c J s u := by
  refine State.bankWrite_ind s (P := fun q => ∃ b u, q = (b, u) ∧ State.Acts loud c J s u) ?_ ?_
  · exact ⟨_, _, rfl, (State.ThreadsAs.of_cores (s.cores_foundBad c off n)).acts on⟩
  · exact ⟨_, _, rfl, ((s.threadsAs_readWords c off n).trans (State.threadsAs_bankPut _ c off n mask v)).acts on⟩

theorem State.acts_bankWrite (off n mask v : Nat) (s : State) : State.Acts loud c J s (s.bankWrite c off n mask v).2 := by
  obtain ⟨b, u, ends, acts⟩ := State.bankWrite_eq (J := J) on off n mask v s
  rw [ends]
  exact acts

omit on in
theorem State.acts_slotMem (off n : Nat) (write : Bool) {f : State → State} (each : ∀ s, State.Acts loud c J s (f s)) :
    (s.slotMem c j off n write f).Acts loud c J := by
  unfold State.slotMem
  dsimp only
  split
  · trivial
  · split
    · trivial
    · split
      · trivial
      · exact each

omit on in
theorem State.acts_stackOp (v : Word) (write : Bool) {f : State → State} (each : ∀ s, State.Acts loud c J s (f s)) :
    (s.stackOp c j v write f).Acts loud c J := by
  unfold State.stackOp
  split
  · trivial
  · exact State.acts_slotMem _ _ _ each

theorem State.acts_slotFx (mine : J j) (sl : Nat) (x : Sparse Word) : (s.slotFx c j sl x).Acts loud c J := by
  have toReg (n : Nat) : ∀ k b, Dest.s n ≠ .sreg k b := fun _ _ h => Dest.noConfusion h
  have toPred (n : Nat) : ∀ k b, Dest.p n ≠ .sreg k b := fun _ _ h => Dest.noConfusion h
  unfold State.slotFx
  extract_lets r d sp a n v v' m b
  split
  · exact fun s => .refl s
  · split
    · trivial
    · split
      · trivial
      · split
        · exact State.acts_slotMem _ _ _ (State.acts_slotLoad on mine _ _ _)
        · exact State.acts_slotMem _ _ _ (State.acts_bankWrite on _ _ _ _)
  · exact State.acts_stackOp _ _ (State.acts_slotLoad on mine _ _ _)
  · exact State.acts_stackOp _ _ (State.acts_bankWrite on _ _ _ _)
  · exact fun s => s.acts_fly mine _ (toPred _) _ _
  · split
    · exact State.acts_stackOp _ _ (fun s => (State.acts_bankWrite on _ _ _ _ s).trans (State.acts_fly _ mine _ (toReg 30) _ _))
    · exact State.acts_stackOp _ _ (fun s => (State.acts_slotLoad on mine _ _ _ s).trans (State.acts_fly _ mine _ (toReg 30) _ _))
    · split
      · exact fun s => s.acts_mbRead mine _ _ _
      · trivial
      · trivial
      · trivial
  · exact fun s => s.acts_fly mine _ (toReg _) _ _

theorem State.acts_loadFault (mine : J j) (small : j < 8) (s : State) (a : Word) : (s.loadFault c j a).Acts loud c J s := by
  have told : State.Acts loud c J s ((s.setTf lderr_SKIP c j 0).setTf lderr_NEXT c j (((s.advance c j (s.thr c j).pc true).thr c j).pc / 4)) :=
    .last (State.acts_setTf _ small _ _) (s.acts_setTf small _ _)
  exact told.trans (State.acts_raise mine small (Or.inl on) 3 4 a 0x0401)

theorem State.acts_pairFx (mine : J j) (small : j < 8) (s : State) (w : Nat) (x : Sparse Word) : (s.pairFx c j w x).Acts loud c J s := by
  have sleeps : (Fx.hold (s.sleepOn c j (.pair (BitVec.ofNat 32 w) x))).Acts loud c J s := s.acts_sleepOn mine _ (Or.inl on)
  have slotA := State.acts_slotFx (s := s) (c := c) on mine (w / 65536 % 32768) x
  have slotB := State.acts_slotFx (s := s) (c := c) on mine (w % 32768) x
  unfold State.pairFx
  dsimp only
  split
  · split <;> trivial
  · trivial
  · trivial
  · exact .refl s
  · exact .refl s
  · exact sleeps
  · exact sleeps
  · rename_i f g isOk isOk'
    have both : State.Acts loud c J s (g (f s)) := by
      rw [isOk] at slotA
      rw [isOk'] at slotB
      exact (slotA s).trans (slotB _)
    split
    · split
      · exact Fx.Acts.after ((State.ThreadsAs.of_cores (s.cores_foundBad c _ _)).acts on) (State.acts_loadFault on mine small _ _)
      · exact both
    · exact both

end

/-! ### Wakes and the passing of a cycle (R71, R80 to R83, R603) -/

theorem State.acts_mbWake (mine : J j) (small : j < 8) (calm : loud = true ∨ (s.thr c j).Calm) : State.Acts loud c J s (s.mbWake c j) := by
  have up : State.Acts loud c J s (s.setThr c j { s.thr c j with st := .ready, wait := .none }) := .wake s j (s.thr c j).armed (s.thr c j).poll
  have noPair (p : BitVec 32) (x : Sparse Word) : Wait.none ≠ .pair p x := fun h => Wait.noConfusion h
  unfold State.mbWake
  dsimp only
  split
  · exact .refl s
  · split
    · split
      · exact State.acts_finish mine small calm up up (State.acts_mbrd _ mine _ _ _ (Or.inr noPair))
      · exact .refl s
    · split
      · exact State.acts_finish mine small calm up up (.refl _)
      · exact .refl s
    · rename_i w x isPair
      split
      · exact .refl s
      · have on : loud = true := calm.resolve_right (fun q => q.1 w x isPair)
        exact State.acts_finish mine small calm up up (State.acts_pairFx on mine small _ _ _)
    · exact .refl s

theorem State.acts_wdogTick (s : State) (mine : J j) (d : Nat) : State.Acts loud c J s (s.wdogTick c j d) := by
  unfold State.wdogTick
  dsimp only
  split
  · exact .thread s _ mine id
  · exact .refl s

/-- One thread's part of the passing of cycles. -/
def State.passThr (s : State) (c j d now : Nat) : State := ((s.wdogTick c j d).landDue c j now).mbWake c j

theorem State.passTo_eq (s : State) (c now : Nat) :
    s.passTo c now = (List.range 8).foldl (fun a j => a.passThr c j (now - (s.core c).cyc) now) (s.setCore c { s.core c with cyc := now }) := rfl

theorem State.acts_passThr (mine : J j) (small : j < 8) (calm : loud = true ∨ (s.thr c j).Calm) (d now : Nat) :
    State.Acts loud c J s (s.passThr c j d now) := by
  have ticked : State.Acts loud c J s (s.wdogTick c j d) := s.acts_wdogTick mine d
  have landed := ticked.trans (State.acts_landDue mine small (ticked.calm j calm) now)
  exact landed.trans (State.acts_mbWake mine small (landed.calm j calm))

theorem State.acts_passTo (all : ∀ j, J j) (calm : ∀ j < 8, loud = true ∨ (s.thr c j).Calm) (now : Nat) : State.Acts loud c J s (s.passTo c now) := by
  have passes (d : Nat) (l : List Nat) (small : ∀ j ∈ l, j < 8) (s : State) (calm : ∀ j < 8, loud = true ∨ (s.thr c j).Calm) :
      State.Acts loud c J s (l.foldl (fun a j => a.passThr c j d now) s) := by
    induction l generalizing s with
    | nil => exact .refl s
    | cons k l ih =>
      have first : State.Acts loud c J s (s.passThr c k d now) :=
        State.acts_passThr (all k) (small k List.mem_cons_self) (calm k (small k List.mem_cons_self)) d now
      exact first.trans (ih (fun j m => small j (List.mem_cons_of_mem k m)) _ (fun j h => first.calm j (calm j h)))
  have counted : State.Acts loud c J s (s.setCore c { s.core c with cyc := now }) := .core s _ rfl
  rw [State.passTo_eq]
  exact counted.trans (passes _ _ (fun j m => List.mem_range.1 m) _ (fun j h => counted.calm j (calm j h)))

theorem State.acts_tickIssue (all : ∀ j, J j) (calm : ∀ j < 8, loud = true ∨ (s.thr c j).Calm) (t : Nat) :
    State.Acts loud c J s (s.tickIssue c t) := by
  have chosen (l : List Nat) : State.Acts loud c J s (s.setCore c { s.core c with lastIssue := t, stale := l }) := .core s _ rfl
  unfold State.tickIssue
  exact .last (State.acts_passTo all (fun j h => (chosen _).calm j (calm j h)) _) (chosen _)

/-- The issue of a word whose operation is a change of the core. -/
theorem State.acts_issue (all : ∀ j, J j) (calm : ∀ j < 8, loud = true ∨ (s.thr c j).Calm) {t : Nat} (small : t < 8) (g : BitVec 4) (enc : List Nat)
    (ctl br : Bool) {body : State → Fx} (does : ∀ e, (body e).Acts loud c J e) : State.Acts loud c J s (s.issue c t g enc ctl br body) := by
  have placed (u : State) (x : Ctx) : State.Acts loud c J u (u.setThr c t { u.thr c t with snap := x }) := .thread u _ (all t) id
  have begins : State.Acts loud c J s (s.begins c t) := by
    unfold State.begins
    exact .last (placed _ _) (State.acts_tickIssue all calm t)
  have reads : State.Acts loud c J s (s.reads c t) := .last (State.acts_setTf _ small _ _) begins
  have halts {u : State} (h : State.Acts loud c J s u) : State.Acts loud c J s (u.stepHalt c t) :=
    h.trans (State.acts_stepHalt (all t) small (h.calm t (calm t small)))
  have raises {u : State} (h : State.Acts loud c J s u) (v d : Nat) : State.Acts loud c J s (u.raise c t v d 0 0) :=
    h.trans (State.acts_raise (all t) small (h.calm t (calm t small)) v d 0 0)
  have unslotted (u : State) : State.Acts loud c J u (u.setThr c t { u.thr c t with slot := none }) := .thread u _ (all t) id
  have off (u : State) (pc : Nat) (i : Slot) (n : Nat) : State.Acts loud c J u (u.setThr c t { u.thr c t with pc := pc, slot := some i, shadow := n }) :=
    .thread u _ (all t) id
  unfold State.issue
  split
  · exact .refl s
  · extract_lets s1 h s2 on s3
    have atBegins : State.Acts loud c J s s2 := begins
    have atReads : State.Acts loud c J s s3 := reads
    clear_value s3 on s2 h
    split
    · exact raises atBegins 3 1
    · split
      · exact atBegins.trans (State.acts_debugStop (all t) small (atBegins.calm t (calm t small)) _ _ 0)
      · split
        · exact raises atBegins 1 _
        · split
          · exact raises (atReads.trans (unslotted s3)) 1 6
          · split
            · exact raises atReads 1 7
            · split
              · split
                · exact halts (atReads.trans (off s3 _ _ _))
                · exact halts (atReads.trans (s3.acts_advanceTo (all t) small _ _ true))
              · exact State.acts_finish (all t) small (calm t small) atReads atBegins (does _)

end

end Sys2Proof.Machine
end

section
/-!
SUPPORT and O11. What a core does where nothing is loud stays within the core, and the words of its registers are of that kind.
-/
namespace Sys2Proof.Machine

/-- Nothing but core c differs: its state, its registers, messages and free values. -/
structure State.Within (u s : State) (c : Nat) : Prop where
  memory : u.SameMemory s
  kp : u.kp = s.kp
  cp : u.cp = s.cp
  dmas : u.dmas = s.dmas
  routers : u.routers = s.routers
  lmap : u.lmap = s.lmap
  tuW1 : u.tuW1 = s.tuW1
  epochs : u.epochs = s.epochs
  cores : ∀ d, d ≠ c → u.core d = s.core d
  regs : ∀ r, ∀ q < 2 ^ 20, ∀ i < 2 ^ 20, q ≠ c → u.reg r q i = s.reg r q i

theorem State.Within.refl (s : State) (c : Nat) : s.Within s c := ⟨⟨rfl, rfl, rfl⟩, rfl, rfl, rfl, rfl, rfl, rfl, rfl, fun _ _ => rfl, fun _ _ _ _ _ _ => rfl⟩

theorem State.Within.trans {s v u : State} {c : Nat} (a : v.Within s c) (b : u.Within v c) : u.Within s c where
  memory := ⟨b.memory.1.trans a.memory.1, b.memory.2.1.trans a.memory.2.1, b.memory.2.2.trans a.memory.2.2⟩
  kp := b.kp.trans a.kp
  cp := b.cp.trans a.cp
  dmas := b.dmas.trans a.dmas
  routers := b.routers.trans a.routers
  lmap := b.lmap.trans a.lmap
  tuW1 := b.tuW1.trans a.tuW1
  epochs := b.epochs.trans a.epochs
  cores d n := (b.cores d n).trans (a.cores d n)
  regs r q hq i hi n := (b.regs r q hq i hi n).trans (a.regs r q hq i hi n)

theorem State.within_setCore (s : State) (c : Nat) (k : Core) : (s.setCore c k).Within s c :=
  { State.Within.refl s c with cores := fun _ n => State.core_setCore_other s k n }

/-- What a core does where nothing is loud stays within the core. -/
theorem State.Acts.within {c : Nat} {J : Nat → Prop} {s u : State} (known : c < 1048576) (a : State.Acts false c J s u) : u.Within s c := by
  induction a with
  | refl s => exact .refl s c
  | trans _ _ first next => exact first.trans next
  | thread s h | wake s j armed poll => exact s.within_setCore c _
  | louder s h mine on => cases on
  | reg s r small w =>
    exact { State.Within.refl s c with
      regs := fun q n hn i hi apart => State.reg_setReg_other s w known small hn hi (fun h => apart h.2.1) }
  | core s k kept => exact s.within_setCore c k
  | emits s l n => exact { State.Within.refl s c with }
  | meddles s u on => cases on

section
variable {loud : Bool} {c : CoreId} {t : ThreadId} {s : State}

/-- A word whose operation is a change of the core changes nothing else. -/
theorem completes_within (calm : ∀ j < 8, (s.thr c j).Calm) {i : Instr} {g : BitVec 4} {enc : List Nat} {ctl br : Bool} {body : State → Fx}
    (word : exec i s = .next (s.issue c t g enc ctl br body)) (does : ∀ e, (body e).Acts false c (fun _ => True) e) :
    Completes i s (fun u => u.Within s c) :=
  ⟨_, word, (State.acts_issue (fun _ => trivial) (fun j h => Or.inr (calm j h)) t.isLt g enc ctl br does).within (by omega)⟩

end

/-! ### Words that write registers -/

section
variable {loud : Bool} {c t : Nat} {J : Nat → Prop} (mine : J t) (e : State)
include mine

theorem State.acts_outX (n : BitVec 5) (v : Word) (d : Nat) : State.Acts loud c J e (e.outX c t n v d) :=
  e.acts_fly mine _ (fun _ _ h => Dest.noConfusion h) _ _

theorem State.acts_outP (n : BitVec 5) (v : Bool) (d : Nat) : State.Acts loud c J e (e.outP c t n v d) :=
  e.acts_fly mine _ (fun _ _ h => Dest.noConfusion h) _ _

theorem State.acts_outV (n : BitVec 5) (v : Vec) (d : Nat) : State.Acts loud c J e (e.outV c t n v d) :=
  e.acts_fly mine _ (fun _ _ h => Dest.noConfusion h) _ _

theorem State.acts_outFlags (v d : Nat) : State.Acts loud c J e (e.outFlags c t v d) := by
  unfold State.outFlags
  split
  · exact .refl e
  · exact e.acts_fly mine _ (fun _ _ h => Dest.noConfusion h) _ _

theorem State.acts_outR (n : BitVec 5) (b : Nat) (l : List Rnd) (d : Nat) : State.Acts loud c J e (e.outR c t n b l d) :=
  .last (State.acts_outFlags mine _ _ _) (e.acts_outV mine _ _ _)

omit mine

/-- A free value is drawn, or none. -/
theorem State.acts_free (b : Prop) [Decidable b] : State.Acts loud c J e (if b then e.free.2 else e) := by
  split
  · exact .emits e _ _
  · exact .refl e

theorem State.acts_leaveLoops (small : t < 8) (target : Nat) : State.Acts loud c J e (e.leaveLoops c t target) := by
  unfold State.leaveLoops
  dsimp only
  split
  · exact e.acts_setTf small _ _
  · exact .refl e

end

/-- Settles O11: every word of these registers ends in writes that it puts in flight to registers of its own thread. -/
theorem registerWordsChangeOnlyTheirCore : Obligations.RegisterWordsChangeOnlyTheirCore := by
  intro c t w l u f lo sh rel im k m cv mv s inside calm
  have within {i : Instr} {g : BitVec 4} {enc : List Nat} {ctl br : Bool} {body : State → Fx}
      (word : exec i s = .next (s.issue c t g enc ctl br body)) (does : ∀ e, (body e).Acts false c (fun _ => True) e) : inside i := by
    obtain ⟨v, ends, h⟩ := completes_within (fun j h => calm j h) word does
    exact ⟨v, ends, h.memory, h.kp, h.cp, h.dmas, h.routers, h.lmap, h.tuW1, h.epochs, h.cores, h.regs⟩
  have scalar {i : Instr} {g : BitVec 4} {enc : List Nat} {n : BitVec 5} {d : Nat} {v : State → Word}
      (word : exec i s = s.word c t g enc (fun e => .done (e.outX c t n (v e) d))) : inside i := within word (fun e => e.acts_outX trivial _ _ _)
  have predicate {i : Instr} {g : BitVec 4} {enc : List Nat} {n : BitVec 5} {d : Nat} {v : State → Bool}
      (word : exec i s = s.word c t g enc (fun e => .done (e.outP c t n (v e) d))) : inside i := within word (fun e => e.acts_outP trivial _ _ _)
  have vector {i : Instr} {g : BitVec 4} {enc : List Nat} {n : BitVec 5} {d : Nat} {v : State → Vec}
      (word : exec i s = s.word c t g enc (fun e => .done (e.outV c t n (v e) d))) : inside i := within word (fun e => e.acts_outV trivial _ _ _)
  refine ⟨scalar rfl, scalar rfl, scalar rfl, scalar rfl, scalar rfl, scalar rfl, scalar rfl, predicate rfl, predicate rfl, predicate rfl, predicate rfl,
    scalar rfl, scalar rfl, scalar rfl, predicate rfl, scalar rfl, scalar rfl, scalar rfl,
    within rfl (fun e => e.acts_fly trivial _ (fun _ _ h => Dest.noConfusion h) _ _), within rfl (fun e => e.acts_leaveLoops t.isLt _), within rfl (fun e => ?_),
    vector rfl, vector rfl, within rfl (fun e => ?_), within rfl (fun e => ?_), predicate rfl, within rfl (fun e => e.acts_outR trivial _ _ _ _),
    within rfl (fun e => ?_), vector rfl, vector rfl, within rfl (fun e => ?_), within rfl (fun e => ?_)⟩
  case refine_1 =>
    dsimp only
    split
    · trivial
    · exact e.acts_leaveLoops t.isLt _
  case refine_2 => exact .last (State.acts_outR trivial _ _ _ _ _) (e.acts_free _)
  case refine_3 => exact .last (State.acts_outFlags trivial _ _ _) (.last (State.acts_outV trivial _ _ _ _) (e.acts_free _))
  case refine_4 =>
    have drawn : State.Acts false c (fun _ => True) e { e with freeCtr := e.freeCtr + 64 } := .emits e _ _
    dsimp only
    split
    · exact .last (State.acts_outR trivial _ _ _ _ _) drawn
    · exact .last (State.acts_outR trivial _ _ _ _ _) drawn
    · exact .last (State.acts_outR trivial _ _ _ _ _) drawn
  case refine_5 => 
    have drawn : State.Acts false c (fun _ => True) e (if typW m.toNat = 64 then e else e.free.2) := by
      split
      · exact .refl e
      · exact .emits e _ _
    exact .last (State.acts_outX trivial _ _ _ _) drawn
  case refine_6 =>
    dsimp only
    split
    · exact e.acts_outX trivial _ _ _
    · exact .last (State.acts_outFlags trivial _ _ _) (e.acts_outX trivial _ _ _)

end Sys2Proof.Machine
end

section
/-!
SUPPORT and O6. A thread that the issue slot chooses stays READY while the core's cycle passes, and what it has in flight lands at its next word.
-/
namespace Sys2Proof.Machine

section
variable {s : State} {c j : Nat}

/-! ### Landing leaves a READY thread READY -/

/-- A thread that is READY in `s` is READY in `u`. -/
def State.StaysReady (u s : State) (c j : Nat) : Prop := (s.thr c j).st = .ready → (u.thr c j).st = .ready

theorem State.StaysReady.trans {v u : State} (first : v.StaysReady s c j) (next : u.StaysReady v c j) : u.StaysReady s c j := fun r => next (first r)

theorem State.Acts.staysReady {loud : Bool} {J : Nat → Prop} {u : State} (a : State.Acts loud c J s u) (other : ¬ J j) : u.StaysReady s c j :=
  (a.rests other).ready

/-- Where nobody acts, as registers of a core, units and wakes change. -/
theorem State.Acts.idle {u : State} (a : State.Acts true c (fun _ => False) s u) (j : Nat) : u.StaysReady s c j := a.staysReady id

theorem State.staysReady_setThr (h : Thread) (st : h.st = (s.thr c j).st) : (s.setThr c j h).StaysReady s c j := fun r => by
  rw [State.thr_setThr_same, st, r]

theorem State.staysReady_core (k : Core) (kept : k.threads = (s.core c).threads) : (s.setCore c k).StaysReady s c j := State.Acts.idle (.core s k kept) j

theorem State.staysReady_foldl {α : Type} {f : State → α → State} (each : ∀ s x, (f s x).StaysReady s c j) (l : List α) (s : State) :
    (l.foldl f s).StaysReady s c j := by
  induction l generalizing s with
  | nil => exact id
  | cons x l ih => exact (each s x).trans (ih _)

theorem State.staysReady_sets (s : State) (w : Nat) (r : RegName) (i : Nat) (v : Word) : (s.sets c j w r i v).StaysReady s c j := by
  unfold State.sets
  dsimp only
  split
  · exact id
  · simp only [State.StaysReady, apply_ite (fun u : State => u.thr c j), State.thr_setFld, ite_self, imp_self]
  · exact State.staysReady_setThr _ rfl
  · exact id
  · exact id
  · exact id
  · refine State.staysReady_foldl (fun s k => ?_) _ s
    split
    · exact State.staysReady_setThr _ rfl
    · exact id
  · split
    · exact id
    · exact State.staysReady_core _ rfl
  · split
    · have written : State.Acts true c (fun _ => False) s (s.setReg .ccfg c 0 (RegName.ccfg.written true 63 0 (s.reg .ccfg c 0) v)) := .reg s _ (by decide) _
      split
      · exact (written.trans (((State.threadsAs_emptyCache _ c).acts rfl).trans (State.acts_cacheOffDone _))).idle j
      · exact written.idle j
    · exact id
  all_goals exact id

theorem State.staysReady_landOne (s : State) (f : Flight) : (s.landOne c j f).StaysReady s c j := by
  unfold State.landOne
  dsimp only
  split
  · exact State.staysReady_setThr _ rfl
  · exact State.staysReady_setThr _ rfl
  · exact State.staysReady_setThr _ rfl
  · exact State.staysReady_setThr _ rfl
  · split
    · split
      · exact (s.staysReady_sets _ _ _ _).trans (State.staysReady_setThr _ rfl)
      · exact s.staysReady_sets _ _ _ _
    · exact id
  · exact State.staysReady_core _ rfl
  · exact State.staysReady_core _ rfl
  · exact id
  · split
    · exact State.staysReady_setThr _ rfl
    · exact id

theorem State.staysReady_landList (l : List Flight) (s : State) : (s.landList c j l).StaysReady s c j := by
  induction l generalizing s with
  | nil => exact id
  | cons f l ih => exact (s.staysReady_landOne f).trans (ih _)

/-! ### The passing of a cycle -/

/-- A READY thread waits for nothing that a wake could end. -/
theorem State.mbWake_ready (ready : (s.thr c j).st = .ready) : s.mbWake c j = s := by
  unfold State.mbWake
  dsimp only
  rw [if_pos (by rw [ready]; decide)]

theorem State.wdogTick_thr (s : State) (c j d : Nat) : ∃ n, (s.wdogTick c j d).thr c j = { s.thr c j with wdog := n } := by
  unfold State.wdogTick
  dsimp only
  split
  · exact ⟨_, State.thr_setThr_same ..⟩
  · exact ⟨_, rfl⟩

theorem State.staysReady_passThr (s : State) (d now : Nat) : (s.passThr c j d now).StaysReady s c j := by
  intro ready
  obtain ⟨n, counted⟩ := s.wdogTick_thr c j d
  have ticked : ((s.wdogTick c j d).thr c j).st = .ready := by rw [counted]; exact ready
  have landed : (((s.wdogTick c j d).landDue c j now).thr c j).st = .ready :=
    State.staysReady_landList _ _ (State.staysReady_setThr (s := s.wdogTick c j d) { (s.wdogTick c j d).thr c j with flight := _ } rfl ticked)
  rw [State.passThr, State.mbWake_ready landed]
  exact landed

/-- In the passing of a cycle the other threads let thread j rest; its own part comes once. -/
theorem State.passTo_split (s : State) {j : Nat} (small : j < 8) (now : Nat) : ∃ a b : State, (a.thr c j).Rests (s.thr c j) ∧
    (∃ d, b = a.passThr c j d now) ∧ ((s.passTo c now).thr c j).Rests (b.thr c j) := by
  obtain ⟨pre, post, parts⟩ := List.append_of_mem (List.mem_range.2 small)
  have once : j ∉ pre ∧ j ∉ post := by
    have nodup : (pre ++ j :: post).Nodup := parts ▸ List.nodup_range
    exact not_or.1 (fun m => (List.nodup_cons.1 (List.nodup_middle.1 nodup)).1 (List.mem_append.2 m))
  have rest (d : Nat) (l : List Nat) (apart : j ∉ l) (small : ∀ k ∈ l, k < 8) (s : State) :
      ((l.foldl (fun a k => a.passThr c k d now) s).thr c j).Rests (s.thr c j) := by
    have acts : State.Acts true c (· ≠ j) s (l.foldl (fun a k => a.passThr c k d now) s) :=
      .foldl l (fun s k m => State.acts_passThr (fun e : k = j => apart (e ▸ m)) (small k m) (Or.inl rfl) d now) s
    exact acts.rests (fun h => h rfl)
  have within (k : Nat) (m : k ∈ pre ++ j :: post) : k < 8 := List.mem_range.1 (parts ▸ m)
  have start : State.Acts true c (· ≠ j) s (s.setCore c { s.core c with cyc := now }) := .core s _ rfl
  rw [State.passTo_eq, parts, List.foldl_append, List.foldl_cons]
  generalize now - (s.core c).cyc = d
  generalize s.setCore c _ = s0 at start ⊢
  have before := (rest d pre once.1 (fun k m => within k (by simp [m])) s0).trans (start.rests (fun h => h rfl))
  exact ⟨_, _, before, ⟨d, rfl⟩, rest d post once.2 (fun k m => within k (by simp [m])) _⟩

theorem State.tickIssue_eq (s : State) (c t : Nat) : s.tickIssue c t = State.passTo
    (s.setCore c { s.core c with lastIssue := t, stale := (s.core c).stale.filter (· ≠ s.world c t) }) c (max ((s.core c).cyc + 1) (s.thr c t).notBefore) := rfl

/-- The same of a cycle of the issue slot. -/
theorem State.tickIssue_split (s : State) {j : Nat} (small : j < 8) : ∃ a b : State, (a.thr c j).Rests (s.thr c j) ∧
    (∃ d, b = a.passThr c j d (max ((s.core c).cyc + 1) (s.thr c j).notBefore)) ∧ ((s.tickIssue c j).thr c j).Rests (b.thr c j) := by
  have chosen (l : List Nat) : State.Acts true c (fun _ => False) s (s.setCore c { s.core c with lastIssue := j, stale := l }) := .core s _ rfl
  rw [State.tickIssue_eq]
  have start := (chosen ((s.core c).stale.filter (· ≠ s.world c j))).rests (j := j) id
  generalize s.setCore c _ = s0 at start ⊢
  obtain ⟨a, b, before, own, after⟩ := s0.passTo_split (c := c) small (max ((s.core c).cyc + 1) (s.thr c j).notBefore)
  exact ⟨a, b, before.trans start, own, after⟩

/-- The place that is kept when a word begins is the thread's only change after the cycle. -/
theorem State.thr_reads_tick (s : State) (c t : Nat) : ∃ x, (s.reads c t).thr c t = { (s.tickIssue c t).thr c t with snap := x } :=
  ⟨_, (s.thr_reads c t).trans (s.thr_begins c t)⟩

end

/-- The thread that the issue slot chooses is READY when its word begins. -/
theorem State.reads_ready {s : State} {c : CoreId} {t : ThreadId} (turn : s.nextIssue c = some t) : ((s.reads c t).thr c t).st = .ready := by
  obtain ⟨may, -, -⟩ := State.nextIssue_may turn
  have ready : (s.thr c t).st = .ready := by
    simp only [State.mayIssue, Bool.and_eq_true, decide_eq_true_eq] at may
    exact may.1.1
  obtain ⟨a, b, before, ⟨d, rfl⟩, after⟩ := s.tickIssue_split (c := c) t.isLt
  obtain ⟨x, same⟩ := s.thr_reads_tick c t
  rw [same]
  dsimp only
  exact after.ready (a.staysReady_passThr _ _ (before.ready ready))

/-! ### What a word has written is there for the next word -/

/-- A READY thread whose one write in flight is due sees it at its next word, and its other registers as before. -/
theorem State.x_reads_landed (u : State) (c : CoreId) (t : ThreadId) {n v : Nat} (ready : (u.thr c t).st = .ready)
    (flight : (u.thr c t).flight = [⟨.s n, v, (u.core c).cyc + 1⟩]) :
    ((u.reads c t).thr c t).x = Sparse.set 0 (u.thr c t).x n (BitVec.ofNat 64 v) := by
  obtain ⟨a, b, before, ⟨d, rfl⟩, after⟩ := u.tickIssue_split (c := c) t.isLt
  obtain ⟨x, same⟩ := u.thr_reads_tick c t
  have due : (u.core c).cyc + 1 ≤ max ((u.core c).cyc + 1) (u.thr c t).notBefore := le_max_left _ _
  generalize max ((u.core c).cyc + 1) (u.thr c t).notBefore = now at due after
  obtain ⟨k, counted⟩ := a.wdogTick_thr c t d
  have landed : ((a.wdogTick c t d).landDue c t now).thr c t =
      { (a.wdogTick c t d).thr c t with flight := [], x := Sparse.set 0 ((a.wdogTick c t d).thr c t).x n (BitVec.ofNat 64 v) } := by
    have one : ((a.wdogTick c t d).thr c t).flight = [⟨.s n, v, (u.core c).cyc + 1⟩] := by rw [counted, ← flight, ← before.flight]
    simp only [State.landDue, one, List.filter_cons, List.filter_nil, due, decide_true, if_true, Nat.not_lt.2 due, decide_false, Bool.false_eq_true, if_false,
      State.landList, State.landOne, State.thr_setThr_same]
  have woken : (a.passThr c t d now).thr c t = ((a.wdogTick c t d).landDue c t now).thr c t := by
    rw [State.passThr, State.mbWake_ready (by rw [landed, counted]; exact before.ready ready)]
  calc ((u.reads c t).thr c t).x = ((u.tickIssue c t).thr c t).x := by rw [same]
    _ = ((a.passThr c t d now).thr c t).x := after.x
    _ = Sparse.set 0 (u.thr c t).x n (BitVec.ofNat 64 v) := by rw [woken, landed, counted, before.x]

/-- A scalar register that a completed word has put in flight at distance 1 reads as written at the thread's next word, and the others as before. -/
theorem State.x_next {s : State} {c : CoreId} {t : ThreadId} (ready : ((s.reads c t).thr c t).st = .ready) (landed : ((s.reads c t).thr c t).flight = [])
    (a : BitVec 5) (v : Word) (n : BitVec 5) :
    ((((s.reads c t).outX c t a v 1).advance c t ((s.reads c t).thr c t).pc true).reads c t).x c t n = if n = a then v else (s.reads c t).x c t n := by
  obtain ⟨⟨pc, slot, shadow, lc, thread⟩, cyc, -, -⟩ := ((s.reads c t).outX c t a v 1).goesOn_advanceTo c t ((s.reads c t).thr c t).pc
    (((s.reads c t).thr c t).pc + 4) true
  have flown : ((s.reads c t).outX c t a v 1).thr c t =
      { (s.reads c t).thr c t with flight := [⟨.s a.toNat, v.toNat, ((s.reads c t).core c).cyc + 1⟩] } := by
    simp only [State.outX, State.fly, State.thr_setThr_same, landed, addFlight]
  have clock : (((s.reads c t).outX c t a v 1).core c).cyc = ((s.reads c t).core c).cyc := State.cyc_setThr ..
  rw [flown] at thread
  rw [clock] at cyc
  unfold State.advance State.x
  generalize ((s.reads c t).outX c t a v 1).advanceTo c t ((s.reads c t).thr c t).pc (((s.reads c t).thr c t).pc + 4) true = u at thread cyc ⊢
  rw [State.x_reads_landed u c t (n := a.toNat) (v := v.toNat) (by simp only [thread, ready]) (by simp only [thread, cyc]), thread, BitVec.ofNat_toNat,
    BitVec.setWidth_eq]
  by_cases same : n = a
  · rw [if_pos same, same, Sparse.get_set_same]
  · rw [if_neg same, Sparse.get_set_other _ _ _ _ (fun e => same (BitVec.eq_of_toNat_eq e))]

/-- Settles O6: ADDI puts the sum in flight at distance 1, it lands when the thread's next word issues, and no other register of the thread is written. -/
theorem scalarRegistersHoldWhatIsWritten : Obligations.ScalarRegistersHoldWhatIsWritten := by
  intro c t l s runs h
  have step (v : Word) : (((s.reads c t).outX c t l.a v 1).thr c t).stepReq = ((s.reads c t).thr c t).stepReq := by
    simp only [State.outX, State.fly, State.thr_setThr_same]
  obtain ⟨u, ends, rfl⟩ := completes_of_done (i := .addi c t l) runs h rfl rfl rfl (step _) (by simp only [State.outX, State.fly, State.tf_setThr])
  exact ⟨_, ends, State.x_next (State.reads_ready runs.turn) h.landed l.a _⟩

end Sys2Proof.Machine
end

section
/-!
SUPPORT and O14. Branches: where they go and what they leave.
-/
namespace Sys2Proof.Machine

section
variable {s : State} {c : CoreId} {t : ThreadId}

theorem State.thr_leaveLoops (e : State) (c t a : Nat) : (e.leaveLoops c t a).thr c t = e.thr c t := by
  unfold State.leaveLoops
  dsimp only
  split
  · exact State.thr_setTf ..
  · rfl

theorem State.single_leaveLoops (e : State) (c : CoreId) (t : ThreadId) (a : Nat) : (e.leaveLoops c t a).tf dstat_SS c t = e.tf dstat_SS c t := by
  unfold State.leaveLoops
  dsimp only
  split
  · exact State.tf_setTf_other _ _ _ (by decide) _
  · rfl

/-- A branch that is taken to `a`, whose operation leaves the thread but for its return stack. -/
theorem branched_of_branch {g : BitVec 4} (runs : s.RunsBranch c t g) (h : s.Settled c t) {i : Instr} {enc : List Nat} {body : State → Fx} {u : State}
    {a : Nat} {stack : List Nat} (legal : enc = []) (word : exec i s = .next (s.issue c t g enc true true body))
    (done : body (s.reads c t) = .branch u (some a)) (rstack : (u.thr c t).rstack = stack)
    (st : (u.thr c t).st = ((s.reads c t).thr c t).st) (step : (u.thr c t).stepReq = ((s.reads c t).thr c t).stepReq)
    (single : u.tf dstat_SS c t = (s.reads c t).tf dstat_SS c t) : Completes i s (fun v => v.Branched (s.reads c t) c t a stack) := by
  have ready := State.reads_ready runs.turn
  have ends : exec i s = .next (u.setThr c t { u.thr c t with
      pc := ((s.reads c t).thr c t).pc + 4
      slot := some ⟨((s.reads c t).thr c t).pc, some a, ((s.reads c t).thr c t).rstack, (s.reads c t).tf lstat_ACTIVE c t, ((s.reads c t).thr c t).shadow⟩
      shadow := ((s.reads c t).thr c t).shadow - 1 }) := by
    rw [word, legal, State.issue_runsBranch runs, done]
    simp only [State.finish]
    rw [State.stepHalt_kept h]
    · rw [State.thr_setThr_same, step]
    · rw [State.tf_setThr, single]
  refine ⟨_, ends, ?_, ?_, ?_, ?_⟩
  all_goals simp only [State.thr_setThr_same, rstack, st, ready]

/-- The target of B and CALL, where the word's address plus 4 × OFF21 is no negative number (R85). -/
theorem branchTarget_eq {pc a : Nat} {off : BitVec 21} (low : pc < 0xC000) (target : (a : Int) = pc + 4 * off.toInt) : branchTarget pc off = a := by
  have := off.toInt_lt
  unfold branchTarget
  rw [← target, Int.emod_eq_of_lt (by omega) (by omega), Int.toNat_natCast]

theorem State.Runs.pc_low {g : BitVec 4} (runs : s.Runs c t g) : ((s.reads c t).thr c t).pc < 0xC000 := by
  have fetched := runs.fetched
  rw [State.thr_reads]
  unfold fetchLimit at fetched
  split at fetched
  · exact lt_trans fetched (by decide)
  · exact fetched

theorem State.callTo_room {e : State} {c t a : Nat} (room : (e.thr c t).rstack.length < 16) : e.callTo c t a =
    .branch (e.setThr c t { e.thr c t with rstack := ((e.thr c t).pc + 8) % 65536 :: (e.thr c t).rstack }) (some a) := if_neg room.ne

/-- A call whose return stack has room. -/
theorem branched_of_call {g : BitVec 4} (runs : s.RunsBranch c t g) (h : s.Settled c t) {i : Instr} {body : State → Fx} {a : Nat}
    (word : exec i s = .next (s.issue c t g [] true true body)) (calls : body (s.reads c t) = (s.reads c t).callTo c t a)
    (room : ((s.reads c t).thr c t).rstack.length < 16) :
    Completes i s (fun v => v.Branched (s.reads c t) c t a ((((s.reads c t).thr c t).pc + 8) % 65536 :: ((s.reads c t).thr c t).rstack)) := by
  refine branched_of_branch runs h rfl word (calls.trans (State.callTo_room room)) ?_ ?_ ?_ (State.tf_setThr ..)
  all_goals rw [State.thr_setThr_same]

/-- A jump that leaves the loop levels outside its target. -/
theorem branched_of_jump {g : BitVec 4} (runs : s.RunsBranch c t g) (h : s.Settled c t) {i : Instr} {body : State → Fx} {a : Nat}
    (word : exec i s = .next (s.issue c t g [] true true body)) (jumps : body (s.reads c t) = .branch ((s.reads c t).leaveLoops c t a) (some a)) :
    Completes i s (fun v => v.Branched (s.reads c t) c t a ((s.reads c t).thr c t).rstack) :=
  have thread := State.thr_leaveLoops (s.reads c t) c t a
  branched_of_branch runs h rfl word jumps (by rw [thread]) (by rw [thread]) (by rw [thread]) (State.single_leaveLoops ..)

/-- A register's target that is misaligned takes vector 2 (R85). -/
theorem entered_of_misaligned {g : BitVec 4} (runs : s.RunsBranch c t g) (h : s.Settled c t) (own : s.TakesOwn c t) {i : Instr} {body : State → Fx}
    (word : exec i s = .next (s.issue c t g [] true true body)) (bad : body (s.reads c t) = .exc 2 0 0 0) :
    Completes i s (fun v => v.Entered c t 2 0 0 ((s.reads c t).thr c t).pc ((s.reads c t).treg .mode c t).toNat 0) := by
  obtain ⟨entered, kept⟩ := State.raise_begins h own (vec := 2) (det := 0) (by decide)
  refine ⟨_, ?_, entered⟩
  rw [word, State.issue_runsBranch runs, bad, State.finish, kept]

end

/-- Settles O14: each branch is a jump that leaves loop levels, a call that pushes, a return that pops, or a misaligned target. -/
theorem branchesComplete : Obligations.BranchesComplete := by
  intro c t b w s h e pc stack reg
  refine ⟨fun runs a target => ?_, fun runs aligned => ?_, fun runs own odd => ?_, fun runs zero a rest top => ?_⟩
  · have goes : branchTarget pc b.off = a := branchTarget_eq runs.pc_low target
    exact ⟨branched_of_jump runs h rfl (by rw [← goes]), branched_of_call runs h rfl (by rw [← goes])⟩
  · have even : ¬ (e.x c t w.b).toNat % 65536 % 4 ≠ 0 := not_not.2 aligned
    exact ⟨branched_of_jump runs h rfl (if_neg even), branched_of_call runs h rfl (if_neg even)⟩
  · exact ⟨entered_of_misaligned runs h own rfl (if_pos odd), entered_of_misaligned runs h own rfl (if_pos odd)⟩
  · have top : ((s.reads c t).thr c t).rstack = a :: rest := top
    refine branched_of_branch runs h (by simp [encZ, zero]) rfl (by simp only [top]; rfl) ?_ ?_ ?_ (State.tf_setThr ..)
    all_goals rw [State.thr_setThr_same]

end Sys2Proof.Machine
end

section
/-!
SUPPORT and O15. LOOP, and the words of the loop counters.
-/
namespace Sys2Proof.Machine

section
variable {s : State} {c : CoreId} {t : ThreadId}

/-! ### Elements of a field of a thread's registers -/

theorem State.tf_setTf_elt_same (s : State) (c : CoreId) (t : ThreadId) {f : Field} (w : f.lo ≤ f.hi) (h : f.hi < 64) (v k : Nat) :
    (s.setTf f c t v k).tf f c t k = v % 2 ^ (f.hi + 1 - f.lo) := State.fld_setFld_same s f _ _ _ 0 w (by omega)

theorem State.tf_setTf_elt_beside (s : State) (c : CoreId) (t : ThreadId) {f g : Field} (r : g.reg = f.reg) (w : f.lo ≤ f.hi) (h : f.hi < 64) (w' : g.lo ≤ g.hi)
    (dis : g.hi < f.lo ∨ f.hi < g.lo) (v k : Nat) : (s.setTf f c t v k).tf g c t k = s.tf g c t k :=
  State.fld_setFld_beside s f g _ _ _ 0 0 r w (by omega) w' (by omega)

theorem State.tf_setTf_elt_other (s : State) (c : CoreId) (t : ThreadId) {f g : Field} (n : g.reg ≠ f.reg) (v : Nat) {j k : Nat} (hj : j < 4) (hk : k < 4) :
    (s.setTf f c t v j).tf g c t k = s.tf g c t k :=
  State.fld_setFld_other s f g _ _ _ _ _ _ _ (by omega) (by omega) (by omega) (by omega) (fun h => n h.1)

/-- A register that is no array stands beside an element of another. -/
theorem State.tf_setTf_elt_away (s : State) (c : CoreId) (t : ThreadId) {f g : Field} (n : g.reg ≠ f.reg) (v : Nat) (k : BitVec 2) :
    (s.setTf f c t v k.toNat).tf g c t = s.tf g c t :=
  State.fld_setFld_other s f g _ _ _ _ _ _ _ (by omega) (by omega) (by omega) (by omega) (fun h => n h.1)

/-! ### The word -/

/-- What follows the operation of a word that must not stand in a delay slot. -/
theorem completes_of_free {g : BitVec 4} (runs : s.RunsFree c t g) (h : s.Settled c t) {i : Instr} {enc : List Nat} {body : State → Fx} {u : State}
    (legal : enc = []) (word : exec i s = .next (s.issue c t g enc true false body)) (done : body (s.reads c t) = .done u)
    (step : (u.thr c t).stepReq = ((s.reads c t).thr c t).stepReq) (single : u.tf dstat_SS c t = (s.reads c t).tf dstat_SS c t) :
    Completes i s (fun v => v = u.advance c t ((s.reads c t).thr c t).pc true) := by
  refine ⟨u.after (s.reads c t) c t, ?_, State.after_eq h step single⟩
  rw [word, legal, State.issue_runsFree runs, done]
  rfl

/-- The state that LOOP of level k leaves, with n counts over the words from the next up to `stop` words on (R87). -/
def State.looped (e : State) (c t k stop n : Nat) : State :=
  State.fly ((((e.setTf lpa_START c t ((e.thr c t).pc / 4 + 1) k).setTf lpa_END c t ((e.thr c t).pc / 4 + stop) k).setTf lstat_ACTIVE c t
    (e.tf lstat_ACTIVE c t + 2 ^ k))) c t (.lc k) n 3

section
variable (e : State) (c : CoreId) (t : ThreadId) {k : Nat} (low : k < 4) (stop n : Nat)
include low

theorem State.active_looped (idle : e.tf lstat_ACTIVE c t = 0) : (e.looped c t k stop n).tf lstat_ACTIVE c t = 2 ^ k := by
  have bound : 2 ^ k < 2 ^ 4 := Nat.pow_lt_pow_right (by decide) low
  unfold State.looped State.fly
  rw [State.tf_setThr, State.tf_setTf_same _ _ _ (by decide) (by decide), idle, Nat.zero_add]
  exact Nat.mod_eq_of_lt bound

theorem State.start_looped : (e.looped c t k stop n).tf lpa_START c t k = ((e.thr c t).pc / 4 + 1) % 2 ^ 14 := by
  unfold State.looped State.fly
  rw [State.tf_setThr, State.tf_setTf_elt_other _ _ _ (by decide) _ (by decide) low,
    State.tf_setTf_elt_beside _ _ _ (by decide) (by decide) (by decide) (by decide) (by decide),
    State.tf_setTf_elt_same _ _ _ (by decide) (by decide)]
  rfl

theorem State.end_looped : (e.looped c t k stop n).tf lpa_END c t k = ((e.thr c t).pc / 4 + stop) % 2 ^ 14 := by
  unfold State.looped State.fly
  rw [State.tf_setThr, State.tf_setTf_elt_other _ _ _ (by decide) _ (by decide) low, State.tf_setTf_elt_same _ _ _ (by decide) (by decide)]
  rfl

omit low in
theorem State.thr_looped : (e.looped c t k stop n).thr c t =
    { e.thr c t with flight := addFlight ⟨.lc k, n, (e.core c).cyc + 3⟩ (e.thr c t).flight } := by
  simp only [State.looped, State.fly, State.thr_setThr_same, State.thr_setTf, State.core_setTf]

/-- The body of a LOOP does not end at the word itself. -/
theorem State.noEnd_looped (idle : e.tf lstat_ACTIVE c t = 0) (fetched : (e.thr c t).pc < 0xC000) (some : 0 < stop) (few : stop < 4096) :
    (e.looped c t k stop n).atLoopEnd c t (e.thr c t).pc = false := by
  have other : ∀ k < 4, ∀ j < 4, nbit (2 ^ k) j = 1 → j = k := by decide
  have word : (e.thr c t).pc / 4 < 0x3000 := Nat.div_lt_of_lt_mul fetched
  have ends : ((e.thr c t).pc / 4 + stop) % 2 ^ 14 * 4 ≠ (e.thr c t).pc := by omega
  rw [State.atLoopEnd, e.active_looped c t low stop n idle, Bool.and_eq_false_iff, List.any_eq_false]
  refine Or.inr (fun j hj here => ?_)
  rw [Bool.and_eq_true, decide_eq_true_eq, decide_eq_true_eq] at here
  obtain ⟨active, stops⟩ := here
  have same := other k low j (List.mem_range.1 hj) active
  rw [same, e.end_looped c t low] at stops
  exact ends stops

end

end

theorem loop_legal {l : LL} (named : l.i = true ∨ l.cnt.toNat < 32) : encZ [l.i || decide (l.cnt.toNat < 32)] = [] := by
  have fits : (l.i || decide (l.cnt.toNat < 32)) = true := by simpa using named
  simp [encZ, fits]

/-- The number of rounds that a LOOP asks for. -/
def State.loopCount (e : State) (c t : Nat) (l : LL) : Nat := if l.i then l.cnt.toNat else (e.x c t (l.cnt.truncate 5)).toNat % 2 ^ 32

/-- What a LOOP does: with a level that is active or an empty body it is illegal, with no rounds it goes on after the body, and else it begins one. -/
def State.loopFx (e : State) (c t : Nat) (l : LL) : Fx :=
  if nbit (e.tf lstat_ACTIVE c t) l.lvl.toNat = 1 || l.stop.toNat = 0 then .exc 1 0x0C 0 0
  else if e.loopCount c t l = 0 then .goto e ((e.thr c t).pc + 4 * (l.stop.toNat + 1))
  else .done (e.looped c t l.lvl.toNat l.stop.toNat (e.loopCount c t l))

theorem execLoop_eq (c : CoreId) (t : ThreadId) (l : LL) (s : State) :
    exec (.loop c t l) s = .next (s.issue c t 0 (encZ [l.i || decide (l.cnt.toNat < 32)]) true false (fun e => e.loopFx c t l)) := rfl

/-- The operation of a LOOP whose level is not active and whose body is not empty. -/
theorem State.loopFx_inactive {e : State} {c t : Nat} {l : LL} (inactive : e.tf lstat_ACTIVE c t / 2 ^ l.lvl.toNat % 2 = 0) (body : l.stop.toNat ≠ 0) :
    e.loopFx c t l = if e.loopCount c t l = 0 then .goto e ((e.thr c t).pc + 4 * (l.stop.toNat + 1))
      else .done (e.looped c t l.lvl.toNat l.stop.toNat (e.loopCount c t l)) := by
  refine if_neg ?_
  rw [nbit, Nat.shiftRight_eq_div_pow, inactive]
  simp [body]

section
variable {s : State} {c : CoreId} {t : ThreadId} {l : LL}

theorem loop_skips (runs : s.RunsFree c t 0) (h : s.Settled c t) (legal : encZ [l.i || decide (l.cnt.toNat < 32)] = []) {a : Nat}
    (goes : (s.reads c t).loopFx c t l = .goto (s.reads c t) a) (noEnd : (s.reads c t).atLoopEnd c t ((s.reads c t).thr c t).pc = false) :
    Completes (.loop c t l) s (fun u => (u.thr c t).pc = a ∧ u.regs = (s.reads c t).regs ∧ (u.thr c t).lc = ((s.reads c t).thr c t).lc) := by
  have plain := State.advanceTo_plain runs.noSlot ((s.reads c t).thr c t).pc a true noEnd
  refine ⟨(s.reads c t).advanceTo c t ((s.reads c t).thr c t).pc a true, ?_, ?_⟩
  · rw [execLoop_eq, legal, State.issue_runsFree runs, goes]
    simp only [State.finish]
    rw [State.stepHalt_kept h]
    · rw [plain, State.thr_setThr_same]
    · rw [plain, State.tf_setThr]
  · rw [plain]
    refine ⟨?_, rfl, ?_⟩
    all_goals rw [State.thr_setThr_same]

theorem loop_begins (runs : s.RunsFree c t 0) (h : s.Settled c t) (legal : encZ [l.i || decide (l.cnt.toNat < 32)] = []) {n : Nat}
    (starts : (s.reads c t).loopFx c t l = .done ((s.reads c t).looped c t l.lvl.toNat l.stop.toNat n))
    (idle : (s.reads c t).tf lstat_ACTIVE c t = 0) (body : l.stop.toNat ≠ 0) :
    Completes (.loop c t l) s (fun u => u = ((s.reads c t).looped c t l.lvl.toNat l.stop.toNat n).setThr c t
      { ((s.reads c t).looped c t l.lvl.toNat l.stop.toNat n).thr c t with
        pc := ((s.reads c t).thr c t).pc + 4, slot := none, shadow := (((s.reads c t).looped c t l.lvl.toNat l.stop.toNat n).thr c t).shadow - 1 }) := by
  have thread := State.thr_looped (s.reads c t) c t (k := l.lvl.toNat) l.stop.toNat n
  have noSlot : (((s.reads c t).looped c t l.lvl.toNat l.stop.toNat n).thr c t).slot = none := by simp only [thread, runs.noSlot]
  have noEnd := State.noEnd_looped (s.reads c t) c t l.lvl.isLt l.stop.toNat n idle runs.pc_low (Nat.pos_of_ne_zero body) l.stop.isLt
  have single : ((s.reads c t).looped c t l.lvl.toNat l.stop.toNat n).tf dstat_SS c t = (s.reads c t).tf dstat_SS c t := by
    unfold State.looped State.fly
    rw [State.tf_setThr]
    simp (disch := decide) only [State.tf_setTf_other, State.tf_setTf_elt_away]
  obtain ⟨u, ends, rfl⟩ := completes_of_free runs h legal (execLoop_eq c t l s) starts (by simp only [thread]) single
  exact ⟨_, ends, State.advanceTo_plain noSlot _ _ _ noEnd⟩

end

/-- Settles O15. A LOOP with a count goes on to its body's first word, because the body it makes active does not end at the LOOP itself; LCRD and LCWR
complete. -/
theorem loopWordsComplete : Obligations.LoopWordsComplete := by
  intro c t l w s e pc k stop n
  have counts : (s.reads c t).loopCount c t l = n := rfl
  clear_value n
  refine ⟨fun runs h named inactive body aligned => ?_, fun runs low => ?_, fun runs low => ?_⟩
  · have fx := State.loopFx_inactive (e := s.reads c t) (l := l) inactive body
    rw [counts] at fx
    refine ⟨fun zero noEnd => loop_skips runs h (loop_legal named) (by rw [fx, if_pos zero]) noEnd, fun count idle _ => ?_⟩
    obtain ⟨u, ends, rfl⟩ := loop_begins runs h (loop_legal named) (by rw [fx, if_neg count]) idle body
    have landed := h.landed
    refine ⟨_, ends, ?_, ?_, ?_, ?_, ?_⟩
    · exact (State.tf_setThr ..).trans (State.active_looped _ c t l.lvl.isLt stop n idle)
    · exact (State.tf_setThr ..).trans (State.start_looped _ c t l.lvl.isLt stop n)
    · exact (State.tf_setThr ..).trans (State.end_looped _ c t l.lvl.isLt stop n)
    · rw [State.thr_setThr_same, State.thr_looped]
      simp only [landed, addFlight]
      rfl
    · rw [State.thr_setThr_same]
  · refine does_of_done runs rfl rfl ?_
    simp only [State.lcr, Nat.mod_eq_of_lt low]
  · exact does_of_done runs (by simp [encZ, low]) rfl rfl

end Sys2Proof.Machine
end

section
/-!
SUPPORT and O16. The system words TRAP, RFE, ISYNC and SETM, and the words that read and write state registers.
-/
namespace Sys2Proof.Machine

section
variable {s : State} {c : CoreId} {t : ThreadId}

/-! ### TRAP (R130) -/

/-- A word that leaves the thread as its operation says, where no single step is due. -/
theorem completes_of_hold {g : BitVec 4} (runs : s.RunsFree c t g) (h : s.Settled c t) {i : Instr} {enc : List Nat} {body : State → Fx} {u : State}
    (legal : enc = []) (word : exec i s = .next (s.issue c t g enc true false body)) (done : body (s.reads c t) = .hold u)
    (step : (u.thr c t).stepReq = ((s.reads c t).thr c t).stepReq) (single : u.tf dstat_SS c t = (s.reads c t).tf dstat_SS c t) :
    Completes i s (fun v => v = u) := by
  refine ⟨u, ?_, rfl⟩
  rw [word, legal, State.issue_runsFree runs, done, State.finish, State.stepHalt_kept h step single, ite_self]

/-- The state in which TRAP raises its vector: the thread stands at the word after. -/
def State.pastTrap (e : State) (c t : Nat) : State := e.setThr c t { e.thr c t with pc := (e.thr c t).pc + 4, shadow := (e.thr c t).shadow - 1 }

theorem State.thr_pastTrap (e : State) (c t : Nat) :
    (e.pastTrap c t).thr c t = { e.thr c t with pc := (e.thr c t).pc + 4, shadow := (e.thr c t).shadow - 1 } := State.thr_setThr_same ..

theorem State.plain_pastTrap {e : State} {c t : Nat} (noSlot : (e.thr c t).slot = none) (noShadow : (e.thr c t).shadow = 0) (landed : (e.thr c t).flight = []) :
    (e.pastTrap c t).Plain c t where
  noSlot := by simp only [State.thr_pastTrap, noSlot]
  noShadow := by simp only [State.thr_pastTrap, noShadow]
  landed := by simp only [State.thr_pastTrap, landed]

theorem execTrap_eq (c : CoreId) (t : ThreadId) (w : LR) (s : State) : exec (.trap c t w) s = .next (s.issue c t w.g (encZ [w.a = 0, immBC w < 256]) true false
    (fun e => .hold ((e.pastTrap c t).raise c t (64 + immBC w) 0 0 0))) := rfl

theorem trap_enters {w : LR} (h : s.Settled c t) (runs : s.RunsFree c t w.g) (taken : s.Taken c t) (zero : w.a = 0) (few : w.b.toNat * 32 + w.c.toNat < 256)
    (noShadow : ((s.reads c t).thr c t).shadow = 0) : Completes (.trap c t w) s (fun u => u.Entered c t (64 + (w.b.toNat * 32 + w.c.toNat)) 0 0
      (((s.reads c t).thr c t).pc + 4) ((s.reads c t).treg .mode c t).toNat 0) := by
  have legal : encZ [decide (w.a = 0), decide (immBC w < 256)] = [] := by
    have : immBC w < 256 := few
    simp [encZ, zero, this]
  have plain := State.plain_pastTrap runs.noSlot noShadow h.landed
  have exl : ((s.reads c t).pastTrap c t).tf wstat_EXL c t = 0 := by
    rw [State.pastTrap, State.tf_setThr]
    exact taken
  have enters : ((s.reads c t).pastTrap c t).raise c t (64 + immBC w) 0 0 0 = ((s.reads c t).pastTrap c t).enter c t (64 + immBC w) 0 0 0 0 :=
    State.raise_high exl (by omega)
  have entered := State.enter_entered (vec := 64 + immBC w) (det := 0) (status := 0) (addr := 0) plain
  have step : ((((s.reads c t).pastTrap c t).enter c t (64 + immBC w) 0 0 0 0).thr c t).stepReq = ((s.reads c t).thr c t).stepReq := by
    simp only [State.enter_thr plain, Thread.stepReq_atEntry, State.thr_pastTrap]
  have single : (((s.reads c t).pastTrap c t).enter c t (64 + immBC w) 0 0 0 0).tf dstat_SS c t = (s.reads c t).tf dstat_SS c t := by
    rw [State.enter_single plain, State.pastTrap, State.tf_setThr]
  obtain ⟨u, ends, rfl⟩ := completes_of_hold runs h legal (execTrap_eq c t w s) (congrArg Fx.hold enters) step single
  have from_ : (((s.reads c t).pastTrap c t).thr c t).pc = ((s.reads c t).thr c t).pc + 4 := by simp only [State.thr_pastTrap]
  have mode : ((s.reads c t).pastTrap c t).treg .mode c t = (s.reads c t).treg .mode c t := State.treg_setThr ..
  rw [from_, mode] at entered
  exact ⟨_, ends, entered⟩

/-! ### RFE (R131, R132) -/

/-- The status that a return restores: LEVEL, WORLD, IE and SELF of what was saved, with EXL off. -/
def restored (saved : Nat) : Word := BitVec.ofNat 64 (saved % 128 &&& 0x63)

theorem restored_bits (saved : Nat) : bitsOf (restored saved) 0 0 = saved % 2 ∧ bitsOf (restored saved) 1 1 = saved / 2 % 2 ∧
    bitsOf (restored saved) 5 5 = saved / 32 % 2 ∧ bitsOf (restored saved) 7 7 = 0 := by
  have low : ∀ m < 128, bitsOf (BitVec.ofNat 64 (m &&& 0x63)) 0 0 = m % 2 ∧ bitsOf (BitVec.ofNat 64 (m &&& 0x63)) 1 1 = m / 2 % 2 ∧
      bitsOf (BitVec.ofNat 64 (m &&& 0x63)) 5 5 = m / 32 % 2 ∧ bitsOf (BitVec.ofNat 64 (m &&& 0x63)) 7 7 = 0 := by decide
  obtain ⟨level, world, ie, exl⟩ := low (saved % 128) (Nat.mod_lt _ (by decide))
  refine ⟨level.trans (by omega), world.trans (by omega), ie.trans (by omega), exl⟩

/-- The registers that a return leaves. -/
def State.statusBack (e : State) (c t : Nat) : State := (e.setTreg .wstat c t (restored (e.tf estat_SAVED c t))).setTf rstat_INH c t 0

/-- A return that nothing refuses. -/
theorem State.rfe_back {e : State} {c t : Nat} (sup : e.level c t = 1) (world : e.tf estat_SAVED c t / 2 % 2 = e.world c t) (rsvd : e.tf estat_RSVD c t = 0)
    (shadow : e.tf estat_SHADOW c t ≠ 3) : e.rfe c t = (e.statusBack c t).setThr c t { (e.statusBack c t).thr c t with
      pc := (e.statusBack c t).tf epc_ADDR c t * 4, slot := none, shadow := (e.statusBack c t).tf estat_SHADOW c t
      oldMode := ((e.statusBack c t).treg .emode c t).toNat } := by
  have bit : nbit (e.tf estat_SAVED c t) 1 = e.world c t := by rw [nbit, Nat.shiftRight_eq_div_pow, pow_one, world]
  have below : ¬ 1 < e.tf estat_SAVED c t % 2 := by omega
  refine if_neg ?_
  simp [sup, below, bit, rsvd, shadow]

theorem State.thr_statusBack (e : State) (c t : Nat) : (e.statusBack c t).thr c t = e.thr c t := by
  simp only [State.statusBack, State.thr_setTf, State.thr_setTreg]

theorem State.tf_statusBack (e : State) (c : CoreId) (t : ThreadId) {f : Field} (n : f.reg ≠ .wstat) (m : f.reg ≠ .rstat) :
    (e.statusBack c t).tf f c t = e.tf f c t := by
  unfold State.statusBack
  rw [State.tf_setTf_other _ _ _ m, State.tf_setTreg_other _ _ _ n]

theorem State.wstat_statusBack (e : State) (c : CoreId) (t : ThreadId) {f : Field} (r : f.reg = .wstat) :
    (e.statusBack c t).tf f c t = bitsOf (restored (e.tf estat_SAVED c t)) f.hi f.lo := by
  unfold State.statusBack
  rw [State.tf_setTf_other _ _ _ (by rw [r]; decide), ← r, State.tf_setTreg_same]

theorem rfe_returns {w : LR} (h : s.Settled c t) (runs : s.RunsFree c t w.g) (a : w.a = 0) (b : w.b = 0) (z : w.c = 0) (sup : (s.reads c t).level c t = 1)
    (world : (s.reads c t).tf estat_SAVED c t / 2 % 2 = (s.reads c t).world c t) (rsvd : (s.reads c t).tf estat_RSVD c t = 0)
    (shadow : (s.reads c t).tf estat_SHADOW c t ≠ 3) : Completes (.rfe c t w) s (fun u => u = (s.reads c t).rfe c t) := by
  refine completes_of_hold runs h (by simp [encZ, a, b, z]) rfl rfl ?_ ?_
  · simp only [State.rfe_back sup world rsvd shadow, State.thr_setThr_same, State.thr_statusBack]
  · rw [State.rfe_back sup world rsvd shadow, State.tf_setThr, State.tf_statusBack _ _ _ (by decide) (by decide)]

/-! ### SETM (R78) -/

/-- The state in which SETM has set the mode. -/
def State.modeSet (e : State) (c t n : Nat) : State :=
  (e.setThr c t { e.thr c t with shadow := 3, oldMode := (e.treg .mode c t).toNat }).setTreg .mode c t (BitVec.ofNat 64 n)

theorem State.thr_modeSet (e : State) (c t n : Nat) :
    (e.modeSet c t n).thr c t = { e.thr c t with shadow := 3, oldMode := (e.treg .mode c t).toNat } := by
  simp only [State.modeSet, State.thr_setTreg, State.thr_setThr_same]

theorem execSetm_eq (c : CoreId) (t : ThreadId) (w : LR) (s : State) : exec (.setm c t w) s = .next (s.issue c t w.g (encZ [immBC w = immBC w &&& 5]) true false
    (fun e => if 0 < (e.thr c t).shadow then .exc 1 0x12 0 0 else .done (e.modeSet c t (immBC w)))) := rfl

theorem setm_sets {w : LR} (h : s.Settled c t) (runs : s.RunsFree c t w.g) {n : Nat} (value : immBC w = n) (modes : n = 0 ∨ n = 1 ∨ n = 4 ∨ n = 5)
    (noShadow : ((s.reads c t).thr c t).shadow = 0) : Completes (.setm c t w) s (fun u => u.treg .mode c t = BitVec.ofNat 64 n ∧
      (u.thr c t).shadow = 2 ∧ (u.thr c t).oldMode = ((s.reads c t).treg .mode c t).toNat) := by
  subst value
  have legal : encZ [decide (immBC w = immBC w &&& 5)] = [] := by
    have bits : immBC w = immBC w &&& 5 := by rcases modes with m | m | m | m <;> rw [m] <;> rfl
    rw [decide_eq_true bits]
    rfl
  have thread := State.thr_modeSet (s.reads c t) c t (immBC w)
  have outside : ¬ 0 < ((s.reads c t).thr c t).shadow := by rw [noShadow]; decide
  have single : ((s.reads c t).modeSet c t (immBC w)).tf dstat_SS c t = (s.reads c t).tf dstat_SS c t := by
    rw [State.modeSet, State.tf_setTreg_other _ _ _ (by decide), State.tf_setThr]
  obtain ⟨u, ends, rfl⟩ := completes_of_free runs h legal (execSetm_eq c t w s) (if_neg outside) (by simp only [thread]) single
  obtain ⟨⟨pc, slot, shadow, lc, moved⟩, -, regs, -⟩ := ((s.reads c t).modeSet c t (immBC w)).goesOn_advanceTo c t ((s.reads c t).thr c t).pc
    (((s.reads c t).thr c t).pc + 4) true
  refine ⟨_, ends, (regs .mode (by decide)).trans (State.treg_setTreg_same ..), ?_, ?_⟩
  · simp only [State.advance, State.advanceTo_shadow, thread]
  · simp only [State.advance, moved, thread]

/-! ### State registers (R99 to R102) -/

theorem gets_reads {l : LI} {r : RegName} {i : Nat} (runs : s.Runs c t 0) (few : l.imm.toNat < 1024) (at_ : sregAt l.imm.toNat = some (r, i)) (zero : l.b = 0)
    (sup : r.getsSup = true → (s.reads c t).level c t = 1) (steady : r.varies = false) :
    Does (.gets c t l) s c t (fun e => e.outX c t l.a (e.gets c t r i) 2) := by
  have allowed : ¬ (r.getsSup && decide ((s.reads c t).level c t = 0)) = true := by
    rw [Bool.and_eq_true, decide_eq_true_eq]
    exact fun ⟨need, user⟩ => absurd (sup need) (by omega)
  have kept : (s.reads c t).afterGets c t r = s.reads c t := by
    unfold State.afterGets
    split
    · cases steady
    · rfl
  refine does_of_done runs (by simp [encZ, zero, few]) rfl ?_
  rw [at_]
  dsimp only
  rw [if_neg allowed, kept, steady, if_neg (by decide)]

/-- A SETS turns the cache off: one of the Keeper's of ccfg with EN 0, where the cache is on (R266). -/
def State.turnsOff (e : State) (c t : Nat) (l : LI) (r : RegName) : Bool :=
  r = .ccfg && e.world c t = 1 && e.fld ccfg_EN c 0 = 1 && (e.x c t l.b).toNat % 2 = 0

theorem State.turnsOff_iff {e : State} {c t : Nat} {l : LI} {r : RegName} :
    e.turnsOff c t l r = true ↔ r = .ccfg ∧ e.world c t = 1 ∧ e.fld ccfg_EN c 0 = 1 ∧ (e.x c t l.b).toNat % 2 = 0 := by
  simp only [State.turnsOff, Bool.and_eq_true, decide_eq_true_eq, and_assoc]

/-- The state with a SETS in flight. -/
def State.setsLands (e : State) (c t : Nat) (l : LI) : State := e.fly c t (.sreg l.imm.toNat (decide (e.level c t = 1))) (e.x c t l.b).toNat 3

theorem sets_writes {l : LI} {r : RegName} {i : Nat} (runs : s.Runs c t 0) (few : l.imm.toNat < 1024) (at_ : sregAt l.imm.toNat = some (r, i)) (zero : l.a = 0)
    (sup : r.setsSup = true → (s.reads c t).level c t = 1) {f : State → State}
    (lands : (if (s.reads c t).turnsOff c t l r then ((s.reads c t).setsLands c t l).waitOn c t .cacheOff else (s.reads c t).setsLands c t l) = f (s.reads c t)) :
    Does (.sets c t l) s c t f := by
  have allowed : ¬ (r.setsSup && decide ((s.reads c t).level c t = 0)) = true := by
    rw [Bool.and_eq_true, decide_eq_true_eq]
    exact fun ⟨need, user⟩ => absurd (sup need) (by omega)
  refine does_of_done runs (by simp [encZ, zero, few]) rfl ?_
  rw [at_]
  dsimp only
  rw [if_neg allowed, ← lands]
  rfl

end

/-- Settles O16. TRAP enters at the word after its own (log 14 of notes/assumptions.md has it so at a loop's end too), RFE restores what was saved, ISYNC only
goes on (log 19), SETM's mode waits out its shadow (where GETS reads the old one, log 112), and GETS and SETS complete where the level permits. -/
theorem systemAndStateRegisterWordsComplete : Obligations.SystemAndStateRegisterWordsComplete := by
  refine ⟨fun c t w s h => ⟨fun runs taken zero few noShadow => trap_enters h runs taken zero few noShadow, fun runs a b z sup world rsvd shadow => ?_,
    fun runs a b z => does_of_done (f := id) runs (by simp [encZ, a, b, z]) rfl rfl, fun runs modes noShadow => setm_sets h runs rfl modes noShadow⟩,
    fun c t l s r i runs few at_ => ⟨fun zero sup steady => gets_reads runs few at_ zero sup steady, fun zero sup => ⟨fun on => ?_, fun off => ?_⟩⟩⟩
  · obtain ⟨u, ends, rfl⟩ := rfe_returns h runs a b z sup world rsvd shadow
    obtain ⟨level, back, ie, exl⟩ := restored_bits ((s.reads c t).tf estat_SAVED c t)
    have status {f : Field} (r : f.reg = .wstat) := State.wstat_statusBack (s.reads c t) c t r
    have other {f : Field} (n : f.reg ≠ .wstat) (m : f.reg ≠ .rstat) := State.tf_statusBack (s.reads c t) c t n m
    refine ⟨_, ends, ?_⟩
    rw [State.rfe_back sup world rsvd shadow]
    simp only [State.thr_setThr_same, State.level_setThr, State.world_setThr, State.tf_setThr]
    refine ⟨?_, trivial, (status rfl).trans level, ((status rfl).trans back).trans world, (status rfl).trans ie, (status rfl).trans exl, ?_, ?_⟩
    · rw [other (by decide) (by decide)]
    · exact State.tf_setTf_same _ _ _ (by decide) (by decide) 0
    · exact other (by decide) (by decide)
  · exact sets_writes runs few at_ zero sup (if_neg (fun h => on (State.turnsOff_iff.1 h)))
  · exact sets_writes runs few at_ zero sup (if_pos (State.turnsOff_iff.2 off))

end Sys2Proof.Machine
end

section
/-!
SUPPORT and O20. The words that wait, and pair words of two slots of register arithmetic.
-/
namespace Sys2Proof.Machine

/-! ### Pair words (R65 to R69) -/

/-- The pair word of two slots. -/
def pairWord (a b : Nat) : BitVec 32 := BitVec.ofNat 32 (2 ^ 31 + a * 65536 + b)

section
variable {a b : Nat}

theorem pairWord_toNat (ha : a < 32768) (hb : b < 32768) : (pairWord a b).toNat = 2 ^ 31 + a * 65536 + b := by
  rw [pairWord, BitVec.toNat_ofNat, Nat.mod_eq_of_lt (by omega)]

theorem pairWord_slotA (ha : a < 32768) (hb : b < 32768) : (pairWord a b).toNat / 65536 % 32768 = a := by
  rw [pairWord_toNat ha hb]
  omega

theorem pairWord_slotB (ha : a < 32768) (hb : b < 32768) : (pairWord a b).toNat % 32768 = b := by
  rw [pairWord_toNat ha hb]
  omega

theorem pairWord_bit15 (ha : a < 32768) (hb : b < 32768) : nbit (pairWord a b).toNat 15 ≠ 1 := by
  rw [pairWord_toNat ha hb, nbit, Nat.shiftRight_eq_div_pow]
  omega

end

/-- The slot of a short operation. -/
def slotOf (sop d s x : Nat) : Nat := sop * 1024 + d * 64 + s * 4 + x

theorem slotOf_op (sop : Nat) {d n x : Nat} (hd : d < 16) (hn : n < 16) (hx : x < 4) : slotSop (slotOf sop d n x) = sop ∧ slotX (slotOf sop d n x) = x := by
  unfold slotOf slotSop slotX
  omega

/-- A slot's register is the thread's. -/
theorem slotReg_x (e : State) (c t : Nat) (n : Fin 16) : slotReg (e.thr c t).x n = e.x c t (BitVec.ofNat 5 n) := by
  have small : (BitVec.ofNat 5 n).toNat = n := by
    rw [BitVec.toNat_ofNat, Nat.mod_eq_of_lt (by omega)]
  rw [State.x, small]
  rfl

/-- The fields of a slot of register arithmetic: MOV and its like, sums and bitwise operations, exclusive or and shifts. -/
structure AluSlot (sl d s : Nat) : Prop where
  low : sl < 32768
  sop : slotSop sl = 1 ∧ slotX sl ≠ 3 ∨ slotSop sl = 2 ∨ slotSop sl = 3
  dest : slotD sl = d
  source : slotS sl = s

theorem aluSlot {sop d s x : Nat} (op : sop = 1 ∧ x ≠ 3 ∨ sop = 2 ∨ sop = 3) (hd : d < 16) (hs : s < 16) (hx : x < 4) : AluSlot (slotOf sop d s x) d s := by
  unfold slotOf
  constructor
  · omega
  · unfold slotSop slotX
    omega
  · unfold slotD
    omega
  · unfold slotS
    omega

section
variable {e : State} {c t sl d n : Nat} {x : Sparse Word} (alu : AluSlot sl d n)
include alu

theorem AluSlot.fx : e.slotFx c t sl x = .ok (fun q => q.fly c t (.s d) (slotAlu sl (slotReg x d) (slotReg x n)).toNat 1) := by
  rw [← alu.dest, ← alu.source]
  rcases alu.sop with ⟨sop, -⟩ | sop | sop <;> simp only [State.slotFx, sop]

theorem AluSlot.noRead : slotReadAt x sl = none := by
  rcases alu.sop with ⟨sop, -⟩ | sop | sop <;> simp only [slotReadAt, sop]

theorem AluSlot.writes : slotWrites sl = [d] := by
  rw [← alu.dest]
  rcases alu.sop with ⟨sop, -⟩ | sop | sop <;> simp only [slotWrites, sop]

theorem AluSlot.legal : slotReserved sl = false ∧ slotMem sl = false ∧ slotNonZero sl = false := by
  rcases alu.sop with ⟨sop, other⟩ | sop | sop <;> simp [slotReserved, slotMem, slotNonZero, sop]
  exact other

end

/-- A pair word of two slots that only write registers carries out both. -/
theorem State.pairFx_ok {e : State} {c t w : Nat} {x : Sparse Word} {f g : State → State} (a : e.slotFx c t (w / 65536 % 32768) x = .ok f)
    (b : e.slotFx c t (w % 32768) x = .ok g) (noReadA : slotReadAt x (w / 65536 % 32768) = none) (noReadB : slotReadAt x (w % 32768) = none) :
    e.pairFx c t w x = .done (g (f e)) := by
  simp only [State.pairFx, a, b, noReadA, noReadB, Option.orElse]

section
variable {s : State} {c : CoreId} {t : ThreadId} {a b da sa db sb : Nat}

theorem pairEnc_alu (first : AluSlot a da sa) (second : AluSlot b db sb) (apart : da ≠ db) : pairEnc (pairWord a b).toNat = [] := by
  obtain ⟨reservedA, memA, zeroA⟩ := first.legal
  obtain ⟨reservedB, memB, zeroB⟩ := second.legal
  simp [pairEnc, pairWord_slotA first.low second.low, pairWord_slotB first.low second.low, pairWord_bit15 first.low second.low, first.writes, second.writes,
    reservedA, reservedB, memA, zeroA, zeroB, apart]

/-- A pair word of two slots of register arithmetic on different registers. -/
theorem pair_writes (runs : s.Runs c t 0) (first : AluSlot a da sa) (second : AluSlot b db sb) (apart : da ≠ db) {va vb : Word}
    (valA : slotAlu a (slotReg ((s.reads c t).thr c t).x da) (slotReg ((s.reads c t).thr c t).x sa) = va)
    (valB : slotAlu b (slotReg ((s.reads c t).thr c t).x db) (slotReg ((s.reads c t).thr c t).x sb) = vb) :
    Does (.pairIssue c t (pairWord a b)) s c t (fun e => (e.fly c t (.s da) va.toNat 1).fly c t (.s db) vb.toNat 1) := by
  refine does_of_done runs (pairEnc_alu first second apart) rfl ?_
  rw [State.pairFx_ok (f := fun q => q.fly c t (.s da) va.toNat 1) (g := fun q => q.fly c t (.s db) vb.toNat 1)]
  · rw [pairWord_slotA first.low second.low, first.fx, valA]
  · rw [pairWord_slotB first.low second.low, second.fx, valB]
  · rw [pairWord_slotA first.low second.low, first.noRead]
  · rw [pairWord_slotB first.low second.low, second.noRead]

/-- A pair word whose second slot does nothing. -/
theorem pair_writes_one (runs : s.Runs c t 0) (first : AluSlot a da sa) {va : Word}
    (valA : slotAlu a (slotReg ((s.reads c t).thr c t).x da) (slotReg ((s.reads c t).thr c t).x sa) = va) :
    Does (.pairIssue c t (pairWord a 0)) s c t (fun e => e.fly c t (.s da) va.toNat 1) := by
  obtain ⟨reserved, mem, zero⟩ := first.legal
  have none : slotWrites 0 = [] ∧ slotReserved 0 = false ∧ slotMem 0 = false ∧ slotNonZero 0 = false := by decide
  have legal : pairEnc (pairWord a 0).toNat = [] := by
    simp [pairEnc, pairWord_slotA first.low, pairWord_slotB first.low, pairWord_bit15 first.low, none, reserved, mem, zero]
  refine does_of_done runs legal rfl ?_
  rw [State.pairFx_ok (f := fun q => q.fly c t (.s da) va.toNat 1) (g := id)]
  · rfl
  · rw [pairWord_slotA first.low (by decide), first.fx, valA]
  · rw [pairWord_slotB first.low (by decide)]
    rfl
  · rw [pairWord_slotA first.low (by decide), first.noRead]
  · rw [pairWord_slotB first.low (by decide)]
    rfl

/-! ### FENCE and SLEEP -/

theorem State.clearBelow_iff {e : State} {c t scope n : Nat} : e.clearBelow c t scope n = true ↔ ∀ x ∈ (e.thr c t).outw, ¬ (x.id < n ∧ x.scope ≤ scope) := by
  simp only [State.clearBelow, List.all_eq_true, Bool.not_eq_true', ← Bool.not_eq_true, Bool.and_eq_true, decide_eq_true_eq]

theorem fence_waits {w : LR} (runs : s.Runs c t w.g) (h : s.Settled c t) (a : w.a = 0) (b : w.b = 0) (low : w.c.toNat < 4) (wide : w.c.toNat ≠ 0)
    (out : (s.reads c t).clearBelow c t w.c.toNat ((s.reads c t).thr c t).nextW = false) :
    Completes (.fence c t w) s (fun u => (u.thr c t).st = .waiting ∧ (u.thr c t).wait = .fence w.c.toNat) := by
  have waits : ((s.reads c t).waitOn c t (.fence w.c.toNat)).thr c t =
      { (s.reads c t).thr c t with st := .waiting, wait := .fence w.c.toNat, waitStart := ((s.reads c t).core c).cyc } := State.thr_setThr_same ..
  obtain ⟨u, ends, rfl⟩ := completes_of_done (i := .fence c t w) (e := (s.reads c t).waitOn c t (.fence w.c.toNat)) runs h (by simp [encZ, a, b, low]) rfl
    (if_neg (by rw [out, decide_eq_false wide]; decide)) (by simp only [waits]) (State.tf_setThr ..)
  obtain ⟨⟨pc, slot, shadow, lc, moved⟩, -, -, -⟩ := ((s.reads c t).waitOn c t (.fence w.c.toNat)).goesOn_advanceTo c t ((s.reads c t).thr c t).pc
    (((s.reads c t).thr c t).pc + 4) true
  refine ⟨_, ends, ?_, ?_⟩
  all_goals simp only [State.advance, moved, waits]

theorem State.mem_sleepOn (e : State) (c t : Nat) (w : Wait) : (e.sleepOn c t w).mem = e.mem := rfl

theorem State.sent_sleepOn (e : State) (c t : Nat) (w : Wait) : (e.sleepOn c t w).sent = e.sent := rfl

theorem sleep_sleeps {w : LR} (runs : s.Runs c t w.g) (h : s.Settled c t) (a : w.a = 0) (b : w.b = 0) (z : w.c = 0) :
    Completes (.sleep c t w) s (fun u => (u.thr c t).st = .sleeping ∧ (u.thr c t).wait = .sleep ∧ u.mem = (s.reads c t).mem ∧
      u.sent = (s.reads c t).sent) := by
  have sleeps : ((s.reads c t).sleepOn c t .sleep).thr c t =
      { (s.reads c t).thr c t with st := .sleeping, wait := .sleep, waitStart := ((s.reads c t).core c).cyc } := State.thr_setThr_same ..
  obtain ⟨u, ends, rfl⟩ := completes_of_done (i := .sleep c t w) (e := (s.reads c t).sleepOn c t .sleep) runs h (by simp [encZ, a, b, z]) rfl
    rfl (by simp only [sleeps]) (State.tf_setThr ..)
  obtain ⟨⟨pc, slot, shadow, lc, moved⟩, -, -, only⟩ := ((s.reads c t).sleepOn c t .sleep).goesOn_advanceTo c t ((s.reads c t).thr c t).pc
    (((s.reads c t).thr c t).pc + 4) true
  refine ⟨_, ends, ?_, ?_, only.memory.1.trans (State.mem_sleepOn ..), only.sent.trans (State.sent_sleepOn ..)⟩
  all_goals simp only [State.advance, moved, sleeps]

end

/-- Settles O20. FENCE waits for what is outstanding in its scope, SLEEP sleeps, and slots of register arithmetic write what they read before the word. -/
theorem waitAndPairWordsComplete : Obligations.WaitAndPairWordsComplete := by
  refine ⟨fun c t w s runs h a b => ⟨fun low clear => ?_, fun wide low ⟨x, out, earlier⟩ => ?_, fun z => ?_⟩, fun c t s da sa db sb runs apart => ?_⟩
  · refine does_of_done (f := id) runs (by simp [encZ, a, b, low]) rfl (if_pos ?_)
    rw [Bool.or_eq_true, decide_eq_true_eq]
    exact clear.imp (fun z => by rw [z]; rfl) (fun none => State.clearBelow_iff.2 none)
  · refine fence_waits runs h a b low wide.ne' ?_
    rw [← Bool.not_eq_true]
    exact fun clear => State.clearBelow_iff.1 clear x out earlier
  · exact sleep_sleeps runs h a b z
  · have arith {sop x : Nat} (d n : Fin 16) (op : sop = 1 ∧ x ≠ 3 ∨ sop = 2 ∨ sop = 3) (hx : x < 4) : AluSlot (slotOf sop d n x) d n :=
      aluSlot op d.isLt n.isLt hx
    have others : (da : Nat) ≠ db := fun h => apart (Fin.ext h)
    have op (sop x : Nat) (d n : Fin 16) (hx : x < 4) := slotOf_op sop d.isLt n.isLt hx
    refine ⟨pair_writes runs (arith da sa (by decide) (by decide)) (arith db sb (by decide) (by decide)) others ?_ ?_,
      pair_writes runs (arith da sa (by decide) (by decide)) (arith db sb (by decide) (by decide)) others ?_ ?_,
      pair_writes_one runs (arith da sa (by decide) (by decide)) ?_⟩
    · simp only [slotAlu, op 2 0 da sa (by decide), slotReg_x]
    · simp only [slotAlu, op 2 1 db sb (by decide), slotReg_x]
    · simp only [slotAlu, op 3 0 da sa (by decide), slotReg_x]
    · simp only [slotAlu, op 1 1 db sb (by decide), slotReg_x]
    · simp only [slotAlu, op 2 2 da sa (by decide), slotReg_x]

end Sys2Proof.Machine
end

section
/-!
SUPPORT and O31. A read of TAG_DATA of a code word whose tags are wider than R245's three bits.
-/
namespace Sys2Proof.Machine

/-- The Keeper's supervisor agent outside the cores. -/
def tagReader : Agent := { keeper := true, sup := true, plot := 0, core := none, thread := none, epoch := 0 }

/-- The reset state, but that the first word of core 0's scratch has the tag 8, above the tags 4 × full + scope of R245. -/
def wideTag : State := { State.reset with tags := [(0, 8)] }

/-- Whether an access is let through to a place. -/
def Reach.lets : Reach → Bool
  | .to _ => true
  | _ => false

theorem Reach.lets_iff {r : Reach} : r.lets = true ↔ ∃ p, r = .to p := by cases r <;> simp [Reach.lets]

/-- The access of the Keeper to core 0's TAG_DATA is let through. -/
theorem wideTag_reach : ∃ p, wideTag.reach (whoOf tagReader) (pageAddr 0 0x230) 4 false = .to p := Reach.lets_iff.1 (by decide +kernel)

/-- The FE bit of word 0's tag carries into that of word 1. -/
theorem wideTag_tagRead : (wideTag.tagRead 0).reg .TAG_DATA 0 0 = 2 := by decide +kernel

/-- What the read leaves in TAG_DATA. -/
theorem wideTag_next {u : State} (h : exec (.tagDataRead tagReader 0) wideTag = .next u) : u.reg .TAG_DATA 0 0 = 2 := by
  obtain ⟨p, reached⟩ := wideTag_reach
  have step : exec (.tagDataRead tagReader 0) wideTag = execTagDataRead tagReader 0 wideTag := rfl
  have place : pageAddr 0 0x230 = BitVec.ofNat 64 (0xFFFF <<< 48 + bankAddr 0 0x3F0230) := rfl
  rw [place] at reached
  rw [step, execTagDataRead, show (0 : CoreId).val = 0 from rfl, reached] at h
  obtain rfl := Host.Outcome.next.inj h
  exact wideTag_tagRead

/-- Refutes O31, by its clause on TAG_DATA_READ: no hypothesis keeps the tags of memory within the three bits of R245, and a tag of 8 at a code word's first
word sets the FE bit that the read gives for its second word, whose tag is 0. -/
theorem not_coreRegisterWritesComplete : ¬ Obligations.CoreRegisterWritesComplete := by
  intro holds
  obtain ⟨-, -, -, -, -, -, -, -, -, tagRead, -⟩ := holds tagReader 0 0 0 wideTag 0 rfl rfl
  obtain ⟨u, next, -, x, -, read, bits⟩ := tagRead wideTag_reach (by decide +kernel) (by decide +kernel) (by decide +kernel)
  have second := bits 1 (by decide)
  rw [read.symm.trans (wideTag_next next)] at second
  exact absurd second (by decide +kernel)

end Sys2Proof.Machine
end

section
/-!
SUPPORT. What the reset of a core clears of its threads, and what the resets of the other cores leave.
-/
namespace Sys2Proof.Machine

/-! ### Registers of a block that is cleared -/

/-- The unit of a register is in its key. -/
theorem RegName.key_unit {r x : RegName} {q u i : Nat} (small : q < 1048576) (smallU : u < 1048576) (smallI : i < 1048576)
    (h : r.key u i / 1048576 = x.ctorIdx * 1048576 + q) : x = r ∧ u = q := by
  have key : x.key q 0 = r.key u 0 := by
    unfold RegName.key at h ⊢
    omega
  by_contra n
  exact RegName.key_ne small (by decide) smallU (by decide) (fun e => n ⟨e.1, e.2.1.symm⟩) key

/-- A register whose key is kept. -/
theorem State.reg_keep (s : State) {f : Nat → Bool} {r : RegName} {u i : Nat} (kept : f (r.key u i) = true) :
    ({ s with regs := Sparse.keep f s.regs } : State).reg r u i = s.reg r u i := by
  unfold State.reg
  rw [Sparse.get_keep, if_pos kept]

/-- A register outside a block's cleared unit keeps its value. -/
theorem State.reg_resetRegs_other (s : State) {b : Block} {r : RegName} {q u i : Nat} (small : q < 1048576) (smallU : u < 1048576) (smallI : i < 1048576)
    (apart : r ∉ b.regs ∨ u ≠ q) : (s.resetRegs b q).reg r u i = s.reg r u i := by
  refine s.reg_keep ?_
  rw [Bool.not_eq_true', List.any_eq_false]
  intro x mem hit
  obtain ⟨rfl, same⟩ := RegName.key_unit small smallU smallI (of_decide_eq_true hit)
  exact apart.elim (fun h => h mem) (fun h => h same)

/-- A register of the cleared unit is at its reset value. -/
theorem State.reg_resetRegs_same (s : State) {b : Block} {r : RegName} {q i : Nat} (small : i < 1048576) (mem : r ∈ b.regs) :
    (s.resetRegs b q).reg r q i = r.resetVal q i := by
  have gone : (b.regs.any fun x => decide (r.key q i / 1048576 = x.ctorIdx * 1048576 + q)) = true :=
    List.any_eq_true.2 ⟨r, mem, decide_eq_true (by unfold RegName.key; omega)⟩
  unfold State.reg State.resetRegs
  rw [Sparse.get_keep, gone]
  rfl

/-- A register of another block keeps its value where a whole block is cleared. -/
theorem State.reg_resetBlock_other (s : State) {b : Block} {r : RegName} {u i : Nat} (smallU : u < 1048576) (smallI : i < 1048576) (apart : r ∉ b.regs) :
    (s.resetBlock b).reg r u i = s.reg r u i := by
  refine s.reg_keep ?_
  rw [Bool.not_eq_true', List.any_eq_false]
  intro x mem hit
  have unit : r.key u i / 1048576 = x.ctorIdx * 1048576 + u := by
    have hit := of_decide_eq_true hit
    unfold RegName.key at hit ⊢
    omega
  obtain ⟨rfl, -⟩ := RegName.key_unit smallU smallU smallI unit
  exact apart mem

/-! ### A cleared core -/

/-- The thread's registers that R54 names beside those of the register files: loop levels, and the data and register stacks' enables. -/
def stackRegs : List RegName := [.lstat, .dslim, .rsreg]

/-- Core k's threads are as reset makes them, and their loop and stack registers hold 0. -/
structure State.Cleared (u : State) (k : Nat) : Prop where
  threads : (u.core k).threads = []
  regs : ∀ r ∈ stackRegs, ∀ t : ThreadId, u.treg r k t = 0

/-- What was done from `s` to `u` leaves core k's threads and their loop and stack registers alone. -/
structure State.Spares (u s : State) (k : Nat) : Prop where
  threads : (u.core k).threads = (s.core k).threads
  regs : ∀ r ∈ stackRegs, ∀ t : ThreadId, u.treg r k t = s.treg r k t

section
variable {k : Nat} {s u v : State}

theorem State.Spares.refl (s : State) (k : Nat) : s.Spares s k := ⟨rfl, fun _ _ _ => rfl⟩

theorem State.Spares.trans (next : u.Spares v k) (first : v.Spares s k) : u.Spares s k :=
  ⟨next.threads.trans first.threads, fun r m t => (next.regs r m t).trans (first.regs r m t)⟩

theorem State.Spares.cleared (h : u.Spares s k) (was : s.Cleared k) : u.Cleared k :=
  ⟨h.threads.trans was.threads, fun r m t => (h.regs r m t).trans (was.regs r m t)⟩

theorem State.Spares.foldl {α : Type} {f : State → α → State} {l : List α} (each : ∀ s, ∀ x ∈ l, (f s x).Spares s k) (s : State) :
    (l.foldl f s).Spares s k := by
  induction l generalizing s with
  | nil => exact .refl s k
  | cons x l ih => exact (ih (fun s y m => each s y (List.mem_cons_of_mem x m)) _).trans (each s x List.mem_cons_self)

/-- What changes neither cores nor registers. -/
theorem State.Spares.of_same (cores : u.cores = s.cores) (regs : u.regs = s.regs) : u.Spares s k :=
  ⟨by unfold State.core; rw [cores], fun r _ t => by unfold State.treg State.reg; rw [regs]⟩

end

section
variable {k : Nat} (s : State) (inside : k < 1048576)

include inside in
theorem State.spares_setReg {r : RegName} {q i : Nat} (small : q < 1048576) (smallI : i < 1048576) (w : Word) (apart : r ∉ stackRegs ∨ q ≠ k) :
    (s.setReg r q i w).Spares s k := by
  refine ⟨rfl, fun x mem t => State.reg_setReg_other s w small smallI inside (by omega) ?_⟩
  rintro ⟨rfl, rfl, -⟩
  rcases apart with h | h
  · exact h mem
  · exact h rfl

include inside in
theorem State.spares_setFld {f : Field} {q i : Nat} (small : q < 1048576) (smallI : i < 1048576) (n : Nat) (j : Nat) (apart : f.reg ∉ stackRegs ∨ q ≠ k) :
    (s.setFld f q i n j).Spares s k := s.spares_setReg inside small smallI _ apart

include inside in
theorem State.spares_resetRegs {b : Block} {q : Nat} (small : q < 1048576) (apart : (∀ r ∈ stackRegs, r ∉ b.regs) ∨ k ≠ q) :
    (s.resetRegs b q).Spares s k :=
  ⟨rfl, fun r mem t => s.reg_resetRegs_other small inside (by omega) (apart.imp_left fun h => h r mem)⟩

include inside in
theorem State.spares_resetBlock {b : Block} (apart : ∀ r ∈ stackRegs, r ∉ b.regs) : (s.resetBlock b).Spares s k :=
  ⟨rfl, fun r mem t => s.reg_resetBlock_other inside (by omega) (apart r mem)⟩

theorem State.spares_setCore {c : Nat} (n : k ≠ c) (q : Core) : (s.setCore c q).Spares s k :=
  ⟨by rw [State.core_setCore_other s q n], fun _ _ _ => rfl⟩

theorem State.spares_setKp (x : Keeper) : (s.setKp x).Spares s k := .of_same (s.setKp_cores x) (s.setKp_regs x)

theorem State.spares_setDma (u : Nat) (d : Dma) : (s.setDma u d).Spares s k := .of_same (s.setDma_cores u d) (s.setDma_regs u d)

/-! ### The reset of a core -/

/-- The wakes of a core's watches change nothing else of it, and no register. -/
theorem State.spares_fireAll (c : Nat) : (s.fireAll c).Spares s k := by
  have fired (s : State) (l : List Watch) : (l.foldl (fun s w =>
      s.send .wake [c, w.word * 8, w.waiter.toNat, w.plot, w.epoch, s.tag (bankAddr c (w.word * 8)) % 4]) s).Spares s k :=
    .foldl (fun s w _ => .of_same (s.cores_send _ _) (s.send_regs _ _)) s
  have emptied (q : Core) (same : q.threads = (s.core c).threads) : (s.setCore c q).Spares s k := ⟨s.threadsAs_setCore c q same k, fun _ _ _ => rfl⟩
  unfold State.fireAll
  exact (fired _ _).trans (emptied _ rfl)

end

/-- No block but the threads' own holds their loop and stack registers. -/
theorem Block.stackRegs_notin {b : Block} (n : b ≠ .thr) : ∀ r ∈ stackRegs, r ∉ b.regs := by
  cases b with
  | thr => exact absurd rfl n
  | _ => decide

theorem stackRegs_resetVal (u i : Nat) : ∀ r ∈ stackRegs, r.resetVal u i = 0 := by
  intro r mem
  simp only [stackRegs, List.mem_cons, List.not_mem_nil, or_false] at mem
  rcases mem with rfl | rfl | rfl <;> rfl

section
variable {k : Nat} (s : State) (inside : k < 1048576)
include inside

/-- The channels of a core that are reset. -/
theorem State.spares_resetChannel {c u : Nat} (low : c < 10368) (m : u ∈ [256 + 2 * c, 257 + 2 * c]) :
    ((s.resetRegs .dma u).setDma u { nextId := (s.dma u).nextId }).Spares s k := by
  simp only [List.mem_cons, List.not_mem_nil, or_false] at m
  exact (State.spares_setDma _ u _).trans (s.spares_resetRegs inside (b := .dma) (by omega) (Or.inl (Block.stackRegs_notin (by decide))))

/-- A channel that is stopped. -/
theorem State.spares_stopDma {u : Nat} (small : u < 1048576) : (s.stopDma u).Spares s k := by
  have stopped (s : State) (f : Field) (apart : f.reg ∉ stackRegs) : (s.setFld f u 0 0).Spares s k :=
    s.spares_setFld inside small (by decide) 0 0 (Or.inl apart)
  have idle := (stopped (s.setDma u { nextId := (s.dma u).nextId }) DMA_STAT_STATE (by decide)).trans (s.spares_setDma u _)
  unfold State.stopDma
  dsimp only
  split
  · exact ((stopped _ DMA_TAIL_INDEX (by decide)).trans (stopped _ DMA_HEAD_INDEX (by decide))).trans idle
  · exact idle

/-- The end of a core's reset, after its registers and threads are cleared. -/
theorem State.spares_resetMarks {c : Nat} (low : c < 10368) (mask : Nat) (s : State) :
    (((List.range 8).foldl (fun s t => s.setTf wstat_WORLD c t (nbit mask t)) s).setFld WDOG_CTL_EN c 0 mask).Spares s k := by
  have world (s : State) (t : Nat) (m : t ∈ List.range 8) : (s.setTf wstat_WORLD c t (nbit mask t)).Spares s k :=
    s.spares_setFld inside (by omega) (by have := List.mem_range.1 m; omega) _ 0 (Or.inl (by decide))
  exact (State.spares_setFld _ inside (by omega) (by decide) _ 0 (Or.inl (by decide))).trans (.foldl world s)

end

/-- The reset of another core. -/
theorem State.spares_coreReset (s : State) {k c : Nat} (inside : k < 1048576) (low : c < 10368) (n : k ≠ c) : (s.coreReset c).Spares s k := by
  have block (s : State) (b : Block) : (s.resetRegs b c).Spares s k := s.spares_resetRegs inside (by omega) (Or.inr n)
  have bound (s : State) (w : Word) : (s.setReg .CTX_BIND c 0 w).Spares s k := s.spares_setReg inside (by omega) (by decide) w (Or.inr (Ne.symm n))
  unfold State.coreReset
  refine (State.spares_setKp _ _).trans ((State.spares_resetMarks inside low _ _).trans ((State.spares_setCore _ n _).trans ?_))
  refine (State.Spares.foldl (fun s u m => s.spares_resetChannel inside low m) _).trans ((bound _ _).trans ?_)
  exact (block _ .cst).trans ((block _ .thr).trans ((block _ .core).trans (s.spares_fireAll c)))

/-- The reset of the core itself (R54). -/
theorem State.cleared_coreReset (s : State) {c : Nat} (low : c < 10368) : (s.coreReset c).Cleared c := by
  have registers (s : State) (w : Word) : ∀ r ∈ stackRegs, ∀ t : ThreadId, (((s.resetRegs .thr c).resetRegs .cst c).setReg .CTX_BIND c 0 w).treg r c t = 0 := by
    intro r mem t
    have bound := ((s.resetRegs .thr c).resetRegs .cst c).spares_setReg (k := c) (r := .CTX_BIND) (q := c) (i := 0) (by omega) (by omega) (by decide) w
      (Or.inl (by decide))
    have other := (s.resetRegs .thr c).spares_resetRegs (k := c) (b := .cst) (q := c) (by omega) (by omega) (Or.inl (Block.stackRegs_notin (by decide)))
    have own : r ∈ Block.thr.regs := by
      simp only [stackRegs, List.mem_cons, List.not_mem_nil, or_false] at mem
      rcases mem with rfl | rfl | rfl <;> decide
    exact ((bound.trans other).regs r mem t).trans ((s.reg_resetRegs_same (by omega) own).trans (stackRegs_resetVal _ _ r mem))
  have fresh (s : State) (q : Core) (none : q.threads = []) (held : ∀ r ∈ stackRegs, ∀ t : ThreadId, s.treg r c t = 0) : (s.setCore c q).Cleared c :=
    ⟨by rw [State.core_setCore_same, none], held⟩
  unfold State.coreReset
  refine (State.spares_setKp _ _).cleared ((State.spares_resetMarks (by omega) low _ _).cleared (fresh _ _ rfl fun r mem t => ?_))
  exact ((State.Spares.foldl (fun s u m => s.spares_resetChannel (by omega) low m) _).regs r mem t).trans (registers _ _ r mem t)

/-- A reset of cores leaves each of them cleared, and no cleared core otherwise. -/
theorem State.cleared_coreResets {k : Nat} (inside : k < 1048576) (l : List Nat) (low : ∀ c ∈ l, c < 10368) (s : State) (was : k ∈ l ∨ s.Cleared k) :
    (l.foldl (fun s c => s.coreReset c) s).Cleared k := by
  induction l generalizing s with
  | nil => exact was.resolve_left List.not_mem_nil
  | cons c l ih =>
    have lowC := low c List.mem_cons_self
    refine ih (fun d m => low d (List.mem_cons_of_mem c m)) _ ?_
    by_cases e : k = c
    · subst e
      exact Or.inr (s.cleared_coreReset lowC)
    · exact was.imp (fun m => (List.mem_cons.1 m).resolve_left e) (s.spares_coreReset inside lowC e).cleared

end Sys2Proof.Machine
end

section
/-!
SUPPORT and O3. What a reset clears of a core stays cleared while the rest of its domain, and of the module, is reset.
-/
namespace Sys2Proof.Machine

theorem State.regs_free (s : State) : s.free.2.regs = s.regs := id rfl

section
variable {k : Nat} (s : State)

theorem State.spares_send (m : MsgKind) (l : List Nat) : (s.send m l).Spares s k := .of_same (s.send_cores m l) (s.send_regs m l)

theorem State.spares_free : s.free.2.Spares s k := .of_same s.cores_free s.regs_free

theorem State.spares_turnBack (p : Packet) : (s.turnBack p).Spares s k := by
  have answered (s : State) (a b c : Nat) : (s.reply a b c).Spares s k := s.spares_send _ _
  have deals (l : List DealRun) : ({ s with deals := l } : State).Spares s k := .of_same rfl rfl
  unfold State.turnBack
  split
  · unfold State.dealAck
    split
    · exact .refl s k
    · dsimp only
      split
      · exact (answered _ _ _ _).trans (deals _)
      · exact deals _
  · exact .foldl (fun s g _ => answered s g _ 0) s
  · exact answered s _ _ _

variable (inside : k < 1048576)
include inside

theorem State.spares_bump {f : Field} {q : Nat} (small : q < 1048576) (apart : f.reg ∉ stackRegs) : (s.bump f q 0).Spares s k :=
  s.spares_setFld inside small (by decide) _ 0 (Or.inl apart)

theorem State.spares_boundaryCount {f : Field} {n : Nat} (low : n < 10368) (apart : f.reg ∉ stackRegs) : (s.boundaryCount n f).Spares s k := by
  unfold State.boundaryCount
  split
  · exact (State.spares_bump _ inside (by have := Nat.mod_lt s.free.1 (show 0 < 10368 by decide); omega) apart).trans s.spares_free
  · exact s.spares_bump inside (by omega) apart

theorem State.spares_dropPacket (within : Nat → Bool) {n : Nat} (low : n < 10368) (p : Packet) : (s.dropPacket within n p).Spares s k := by
  have counted (f : Field) (apart : f.reg ∉ stackRegs) : (s.boundaryCount n f).Spares s k := s.spares_boundaryCount inside low apart
  unfold State.dropPacket
  dsimp only
  split
  · split
    · exact counted _ (by decide)
    · exact (State.spares_send _ _ _).trans (counted _ (by decide))
  · split
    · exact .refl s k
    · exact (State.spares_turnBack _ p).trans (counted _ (by decide))

theorem State.spares_routerReset (within : Nat → Bool) {n : Nat} (low : n < 10368) : (s.routerReset within n).Spares s k := by
  have set (s : State) (r : RegName) (apart : r ∉ stackRegs) (w : Word) : (s.setReg r n 0 w).Spares s k :=
    s.spares_setReg inside (by omega) (by decide) w (Or.inl apart)
  have gone (l : Sparse Router) (s : State) : ({ s with routers := l } : State).Spares s k := .of_same rfl rfl
  unfold State.routerReset
  refine (set _ .RTR_TURN (by decide) _).trans ((set _ .FENCE_DROP_CNT (by decide) _).trans ((set _ .RTR_LINKERR (by decide) _).trans ?_))
  exact (set _ .RTR_STAT (by decide) _).trans ((gone _ _).trans (.foldl (fun s p _ => s.spares_dropPacket inside within low p) s))

theorem State.spares_portReset {m : Nat} (low : m < 32) : (s.portReset m).Spares s k := by
  have block := s.spares_resetRegs inside (b := .port) (q := m) (by omega) (Or.inl (Block.stackRegs_notin (by decide)))
  have mac (s : State) (w : Word) : (s.setReg .PORT_MAC m 0 w).Spares s k := s.spares_setReg inside (by omega) (by decide) w (Or.inl (by decide))
  unfold State.portReset
  exact (State.spares_setKp _ _).trans ((mac _ _).trans block)

theorem State.spares_loopStop {l : List Nat} (low : ∀ i ∈ l, i < 42) : (s.loopStop l).Spares s k := by
  refine .foldl (fun s i m => ?_) s
  split
  · exact s.spares_setFld inside (by decide) (by have := low i m; omega) 0 0 (Or.inl (by decide))
  · exact .refl s k

/-- The registers that a Parcel reset returns to their reset values are the parcel's. -/
theorem State.spares_parcelReset {p : Nat} (low : p < 8) : (s.parcelReset p).Spares s k := by
  have registers (keep : List RegName) : ({ s with regs := Sparse.keep (fun x =>
      !(Block.parcel.regs.any fun r => !keep.contains r && x / 1048576 = r.ctorIdx * 1048576 + p)) s.regs } : State).Spares s k := by
    refine ⟨rfl, fun r mem t => s.reg_keep ?_⟩
    rw [Bool.not_eq_true', List.any_eq_false]
    intro x own hit
    obtain ⟨rfl, -⟩ := RegName.key_unit (by omega) inside (by omega) (of_decide_eq_true (Bool.and_eq_true_iff.1 hit).2)
    exact Block.stackRegs_notin (by decide) x mem own
  have stopped (s : State) (c : Nat) (m : c ∈ List.range 32) :
      ((s.stopDma (32 * p + c)).setKp { s.kp with tx := Sparse.erase s.kp.tx (10368 + 32 * p + c) }).Spares s k :=
    State.Spares.trans (State.spares_setKp (s.stopDma (32 * p + c)) _) (s.spares_stopDma inside (by have := List.mem_range.1 m; omega))
  unfold State.parcelReset
  exact (State.Spares.foldl stopped _).trans (registers _)

end

/-! ### The reset of a domain -/

theorem domCores_lt {p dom idx c : Nat} (low : p < 8) (m : c ∈ domCores p dom idx) : c < 10368 := by
  unfold domCores at m
  split at m <;> simp only [List.mem_cons, List.not_mem_nil, or_false, List.mem_filter, List.mem_map, List.mem_range] at m
  · omega
  · obtain ⟨⟨i, h, rfl⟩, -⟩ := m
    omega
  · obtain ⟨⟨i, h, rfl⟩, -⟩ := m
    omega
  · obtain ⟨i, h, rfl⟩ := m
    omega

theorem domPorts_lt {p dom idx m : Nat} (low : p < 8) (h : m ∈ domPorts p dom idx) : m < 32 := by
  unfold domPorts at h
  split at h
  · simp only [List.mem_map, List.mem_range] at h
    obtain ⟨i, h, rfl⟩ := h
    omega
  · split at h <;> simp only [List.mem_cons, List.not_mem_nil, or_false] at h
    omega

/-- The cores of a domain are cleared, and those of other domains that were so stay cleared. -/
theorem State.cleared_clearDomain (s : State) {k p dom idx : Nat} (inside : k < 1048576) (low : p < 8) (was : k ∈ domCores p dom idx ∨ s.Cleared k) :
    (s.clearDomain p dom idx).Cleared k := by
  have lowCore {c : Nat} (m : c ∈ domCores p dom idx) : c < 10368 := domCores_lt low m
  have ports (s : State) : ((domPorts p dom idx).foldl (fun (s : State) m => s.portReset m) s).Spares s k :=
    .foldl (fun s m h => s.spares_portReset inside (domPorts_lt low h)) s
  have routers (s : State) : ((domCores p dom idx).foldl (fun (s : State) c => s.routerReset (fun n => (domCores p dom idx).contains n) c) s).Spares s k :=
    .foldl (fun s c h => s.spares_routerReset inside _ (lowCore h)) s
  have stopped : (s.loopStop (domPorts p dom idx ++ if domStack dom then [34 + p] else [])).Spares s k := by
    refine s.spares_loopStop inside fun i m => ?_
    rcases List.mem_append.1 m with h | h
    · have := domPorts_lt low h
      omega
    · split at h <;> simp only [List.mem_cons, List.not_mem_nil, or_false] at h
      omega
  have cores := State.cleared_coreResets inside (domCores p dom idx) (fun _ => lowCore) _ (was.imp_right stopped.cleared)
  have parcel (e : State) (held : e.Cleared k) : (if dom = 3 then e.parcelReset p else e).Cleared k := by
    split
    · exact (e.spares_parcelReset inside low).cleared held
    · exact held
  unfold State.clearDomain
  refine parcel _ ((ports _).cleared ?_)
  split
  · exact (routers _).cleared cores
  · exact cores

/-- What the end of a parcel's drain leaves of a core of its domain. -/
theorem State.cleared_drainParcel (s : State) {k p : Nat} (low : p < 8) (us : Nat)
    (m : k ∈ domCores p (s.fld RESET_STAT_DOMAIN p 0) (s.fld RESET_STAT_INDEX p 0)) : (s.drainParcel p us).Cleared k := by
  have ends (u : State) (hit : Nat → Bool) (dom idx : Nat) (m : k ∈ domCores p dom idx) : ((u.clearDomain p dom idx).abortRebinds hit).Cleared k :=
    (State.spares_setKp _ _).cleared (u.cleared_clearDomain (by have := domCores_lt low m; omega) low (Or.inl m))
  unfold State.drainParcel
  exact ends _ _ _ _ m

/-! ### The reset of the module -/

section
variable {k : Nat} (s : State) (inside : k < 1048576)
include inside

theorem State.spares_dbgLock : s.dbgLock.Spares s k := by
  have event (s : State) (cls kind : Nat) (data : List Nat) : (s.platformEvent cls kind data).Spares s k := by
    have sent (s : State) (l : List Nat) : (s.send .mgmt l).Spares s k := s.spares_send _ l
    unfold State.platformEvent
    dsimp only
    split
    · exact (sent _ _).trans ((State.spares_setKp _ _).trans (sent _ _))
    · split
      · exact (State.spares_setKp _ _).trans (sent _ _)
      · exact sent _ _
  have field (s : State) (f : Field) (apart : f.reg ∉ stackRegs) : (s.setFld f 0 0 0).Spares s k :=
    s.spares_setFld inside (by decide) (by decide) 0 0 (Or.inl apart)
  unfold State.dbgLock
  split
  · exact .refl s k
  · unfold State.measuredFree State.measured
    exact (event _ _ _ _).trans ((State.spares_free _).trans ((field _ DBG_LOCK_PLOT (by decide)).trans (field s DBG_LOCK_LEVEL (by decide))))

theorem State.spares_clearModule : s.clearModule.Spares s k := by
  have block (s : State) (b : Block) (m : b ∈ [Block.parcel, .router, .func, .queue, .adm, .port, .fab, .ident, .serve, .dma]) : (s.resetBlock b).Spares s k :=
    s.spares_resetBlock inside (Block.stackRegs_notin (by rintro rfl; revert m; decide))
  have debug (s : State) : (s.resetBlock .dbg).Spares s k := s.spares_resetBlock inside (Block.stackRegs_notin (by decide))
  have nonce (s : State) : s.newNonce.Spares s k := by
    have set (s : State) (i : Nat) (small : i < 1048576) (w : Word) : (s.setReg .DBG_NONCE_i 0 i w).Spares s k :=
      s.spares_setReg inside (by decide) small w (Or.inl (by decide))
    unfold State.newNonce
    exact (set _ 1 (by decide) _).trans ((set _ 0 (by decide) _).trans s.spares_free)
  have macs (w : Nat → Word) (s : State) (m : Nat) (h : m ∈ List.range 32) : (s.setReg .PORT_MAC m 0 (w m)).Spares s k :=
    s.spares_setReg inside (by have := List.mem_range.1 h; omega) (by decide) _ (Or.inl (by decide))
  have spares (s : State) (p n : Nat) : (s.setFld SPARE_AVAIL_FREE 0 0 n p).Spares s k :=
    s.spares_setFld inside (by decide) (by decide) n p (Or.inl (by decide))
  have logged (s : State) (c : Cmd) : (s.log 2 [c.q, c.cid, c.opc, c.done, c.total]).Spares s k := .of_same rfl rfl
  have keeper (s : State) (x : Keeper) : (s.setKp x).Spares s k := s.spares_setKp x
  have emptied (s : State) (cp : Cp) : ({ s with routers := [], deals := [], cp := cp } : State).Spares s k := .of_same rfl rfl
  unfold State.clearModule
  extract_lets running s1 s2 s3 s4 s5 rep s6 fences images img keep s7
  have h1 : s1.Spares s k := .foldl (fun s c _ => logged s c) s
  have h2 : s2.Spares s k := (State.Spares.foldl block s1).trans h1
  have h3 : s3.Spares s k := (emptied s2 _).trans h2
  have h4 : s4.Spares s k := (keeper s3 _).trans h3
  have h5 : s5.Spares s k := (State.Spares.foldl (macs _) s4).trans h4
  have h6 : s6.Spares s k := (keeper _ _).trans ((nonce _).trans ((debug _).trans ((s5.spares_dbgLock inside).trans h5)))
  have h7 : s7.Spares s k := (keeper s6 _).trans h6
  unfold State.countSpares
  exact (State.Spares.foldl (fun s p _ => spares s p _) s7).trans h7

/-- The parcels of the module are cleared one after the other. -/
theorem State.cleared_clearParcels (l : List Nat) (low : ∀ p ∈ l, p < 8) (s : State) (was : (∃ p ∈ l, k ∈ domCores p 3 0) ∨ s.Cleared k) :
    (l.foldl (fun s p => s.clearDomain p 3 0) s).Cleared k := by
  induction l generalizing s with
  | nil => exact was.resolve_left (fun ⟨_, m, _⟩ => List.not_mem_nil m)
  | cons p l ih =>
    refine ih (fun q m => low q (List.mem_cons_of_mem p m)) _ ?_
    have lowP := low p List.mem_cons_self
    rcases was with ⟨q, m, own⟩ | was
    · rcases List.mem_cons.1 m with rfl | m
      · exact Or.inr (s.cleared_clearDomain inside lowP (Or.inl own))
      · exact Or.inl ⟨q, m, own⟩
    · exact Or.inr (s.cleared_clearDomain inside lowP (Or.inr was))

end

/-- Every core lies in one of the parcels. -/
theorem mem_parcelCores {k : Nat} (low : k < 10368) : ∃ p ∈ List.range 8, k ∈ domCores p 3 0 :=
  ⟨k / 1296, List.mem_range.2 (by omega), List.mem_map.2 ⟨k % 1296, List.mem_range.2 (by omega), by omega⟩⟩

/-- What the end of the drain of a Compute or Module reset leaves of every core. -/
theorem execDrainEnd_module (us : BitVec 16) (s : State) (on : s.kp.modReset = 1 ∨ s.kp.modReset = 3) :
    ∃ u, execDrainEnd none us s = .next u ∧ ∀ k < 10368, u.Cleared k := by
  refine ⟨_, rfl, fun k low => ?_⟩
  have inside : k < 1048576 := by omega
  have parcels (s : State) : ((List.range 8).foldl (fun s p => s.clearDomain p 3 0) s).Cleared k :=
    State.cleared_clearParcels inside _ (fun p m => List.mem_range.1 m) s (Or.inl (mem_parcelCores low))
  have begun : ¬ (decide (s.kp.modReset ≠ 1) && decide (s.kp.modReset ≠ 3)) = true := by
    rcases on with h | h <;> simp [h]
  dsimp only
  rw [if_neg begun]
  refine (State.spares_setKp _ _).cleared ?_
  split
  · exact (State.spares_clearModule _ inside).cleared (parcels _)
  · exact (State.spares_setKp _ _).cleared (parcels _)

/-- A cleared core's threads read as R54 says. -/
theorem State.Cleared.reads {u : State} {k : Nat} (h : u.Cleared k) (t : ThreadId) :
    (∀ n, u.x k t n = 0 ∧ u.vr k t n = 0) ∧ (∀ n, u.pr k t n = false) ∧ (∀ n, u.lcr k t n = 0) ∧ (∀ n, ((u.thr k t).mbox n).st = .empty) ∧
      (u.thr k t).rstack = [] ∧ u.tf lstat_ACTIVE k t = 0 ∧ u.tf dslim_EN k t = 0 ∧ u.tf rsreg_EN k t = 0 := by
  have fresh : u.thr k t = {} := by unfold State.thr; rw [h.threads]; rfl
  have field (f : Field) (m : f.reg ∈ stackRegs) : u.tf f k t = 0 := by
    have held := h.regs f.reg m t
    unfold State.treg at held
    unfold State.tf State.fld
    rw [Nat.add_zero, held]
    simp [bitsOf]
  refine ⟨fun n => ⟨?_, ?_⟩, fun n => ?_, fun n => ?_, fun n => ?_, ?_, field _ (by decide), field _ (by decide), field _ (by decide)⟩
  · rw [State.x, fresh]; rfl
  · rw [State.vr, fresh]; rfl
  · rw [State.pr, fresh]; simp [nbit]
  · rw [State.lcr, fresh]; rfl
  · rw [fresh]; rfl
  · rw [fresh]

/-- Settles O3. The cores of a domain are reset one by one, and neither the resets of the others nor that of the routers, ports and the rest of the module
reaches their threads. -/
theorem coreResetClearsThreadRegisters : Obligations.CoreResetClearsThreadRegisters := by
  intro p us s cleared
  refine ⟨fun drains => ⟨s.drainParcel p us.toNat, ?_, fun k m t => (s.cleared_drainParcel p.isLt us.toNat m).reads t⟩, fun on => ?_⟩
  · have step : exec (.drainEnd (some p) us) s = .next (if s.fld RESET_STAT_STATE p 0 = 2 then s.drainParcel p us.toNat else s) := rfl
    rw [step, if_pos drains]
  · obtain ⟨u, next, held⟩ := execDrainEnd_module us s on
    exact ⟨u, next, fun k low t => (held k low).reads t⟩

end Sys2Proof.Machine
end

section
/-!
SUPPORT. Accesses of a core that are in flight: what their replies and their leaving leave alone (R326).
-/
namespace Sys2Proof.Machine

/-- From `s` to `u` nothing has changed but the accesses of core c in flight, and what was sent. -/
structure State.Flown (u s : State) (c : Nat) : Prop where
  core : ∃ l, u.core c = { s.core c with flying := l }
  others : ∀ d, d ≠ c → u.core d = s.core d
  regs : u.regs = s.regs
  mem : u.mem = s.mem
  tags : u.tags = s.tags
  dmas : u.dmas = s.dmas
  kp : u.kp = s.kp

/-- Memory, tags and every other core are as they were. -/
structure State.Beside (u s : State) (c : Nat) : Prop where
  mem : u.mem = s.mem
  tags : u.tags = s.tags
  others : ∀ d, d ≠ c → u.core d = s.core d

section
variable {u v s : State} {c : Nat}

theorem State.Beside.refl (s : State) (c : Nat) : s.Beside s c := ⟨rfl, rfl, fun _ _ => rfl⟩

theorem State.Beside.trans (next : u.Beside v c) (first : v.Beside s c) : u.Beside s c :=
  ⟨next.mem.trans first.mem, next.tags.trans first.tags, fun d n => (next.others d n).trans (first.others d n)⟩

theorem State.beside_setCore (s : State) (c : Nat) (k : Core) : (s.setCore c k).Beside s c :=
  ⟨s.setCore_mem c k, s.setCore_tags c k, fun _ n => State.core_setCore_other s k n⟩

theorem State.beside_setThr (s : State) (c t : Nat) (h : Thread) : (s.setThr c t h).Beside s c := s.beside_setCore c _

theorem State.beside_ready (s : State) (c t : Nat) : (s.ready c t).Beside s c := s.beside_setThr c t _

theorem State.Flown.beside (h : u.Flown s c) : u.Beside s c := ⟨h.mem, h.tags, h.others⟩

theorem State.Flown.refl (s : State) (c : Nat) : s.Flown s c := ⟨⟨_, rfl⟩, fun _ _ => rfl, rfl, rfl, rfl, rfl, rfl⟩

theorem State.Flown.trans (next : u.Flown v c) (first : v.Flown s c) : u.Flown s c := by
  obtain ⟨l, last⟩ := next.core
  obtain ⟨l', before⟩ := first.core
  refine ⟨⟨l, by rw [last, before]⟩, fun d n => (next.others d n).trans (first.others d n), next.regs.trans first.regs, next.mem.trans first.mem,
    next.tags.trans first.tags, next.dmas.trans first.dmas, next.kp.trans first.kp⟩

theorem State.Flown.thr (h : u.Flown s c) (t : Nat) : u.thr c t = s.thr c t := by
  obtain ⟨l, e⟩ := h.core
  unfold State.thr
  rw [e]

theorem State.Flown.reg (h : u.Flown s c) (r : RegName) (q i : Nat) : u.reg r q i = s.reg r q i := by
  unfold State.reg
  rw [h.regs]

theorem State.Flown.fld (h : u.Flown s c) (f : Field) (q i k : Nat) : u.fld f q i k = s.fld f q i k := by
  unfold State.fld
  rw [h.reg]

theorem State.flown_send (s : State) (c : Nat) (m : MsgKind) (l : List Nat) : (s.send m l).Flown s c :=
  ⟨⟨_, rfl⟩, fun _ _ => rfl, rfl, rfl, rfl, rfl, rfl⟩

theorem State.flown_setFlying (s : State) (c : Nat) (l : List Access) : (s.setCore c { s.core c with flying := l }).Flown s c :=
  ⟨⟨l, State.core_setCore_same ..⟩, fun _ n => State.core_setCore_other s _ n, s.setCore_regs c _, s.setCore_mem c _, s.setCore_tags c _, s.setCore_dmas c _,
    s.setCore_kp c _⟩

theorem State.flown_settle (s : State) (c : Nat) : (s.settle c).Flown s c := by
  have sent (l : List (List Nat)) (s : State) : (l.foldl (fun s m => s.send .request m) s).Flown s c := by
    induction l generalizing s with
    | nil => exact .refl s c
    | cons m l ih => exact (ih _).trans (s.flown_send c _ m)
  unfold State.settle
  exact (sent _ _).trans (s.flown_setFlying c _)

/-- A reply takes its access, or a part of it, off the accesses in flight. -/
theorem State.flown_landAccess (s : State) (c : Nat) (key : AccKey) (p : Nat) : (s.landAccess c key p).Flown s c := by
  unfold State.landAccess
  dsimp only
  split
  · exact .refl s c
  · split
    · exact (State.flown_settle _ c).trans (s.flown_setFlying c _)
    · exact s.flown_setFlying c _

end

/-! ### An access that leaves -/

section
variable {s : State} {c : Nat} {key : AccKey} {a : Word} {n : Nat} {parts msg : List Nat}

/-- An access that no access in flight overlaps leaves at once. -/
theorem State.depart_clear (free : ∀ x, s.accessRange key a n parts = some x → ∀ y ∈ (s.core c).flying, y.meets x = false) :
    (s.depart c key a n parts msg).Flown s c ∧ (s.depart c key a n parts msg).sent = s.sent ++ [⟨.request, msg⟩] := by
  unfold State.depart
  cases range : s.accessRange key a n parts with
  | none => exact ⟨s.flown_send c _ msg, rfl⟩
  | some x =>
    have apart := free x range
    have noOwn : ((s.core c).flying.any fun y => y.held && decide (y.key = key) && y.meets x) = false :=
      List.any_eq_false.2 fun y m => by rw [apart y m, Bool.and_false]; exact Bool.false_ne_true
    have noMeets : ((s.core c).flying.any fun y => y.meets x) = false := List.any_eq_false.2 fun y m => by rw [apart y m]; exact Bool.false_ne_true
    dsimp only
    rw [noOwn, noMeets]
    exact ⟨(State.flown_send _ c _ msg).trans (s.flown_setFlying c _), rfl⟩

theorem Access.meets_self (x : Access) (pos : 0 < x.len) : x.meets x = true := by
  unfold Access.meets
  simp [pos]

/-- The only access that waits in its core leaves. -/
theorem State.sent_settle_one {x : Access} (alone : (s.core c).flying = [x]) (waits : x.msg = some msg) :
    (s.settle c).sent = s.sent ++ [⟨.request, msg⟩] := by
  unfold State.settle
  rw [alone, List.foldl_cons, List.foldl_nil]
  simp only [waits, List.any_nil, Bool.false_eq_true, if_false, List.nil_append, List.foldl_cons, List.foldl_nil]
  rfl

/-- A release that alone holds its place leaves from there. -/
theorem State.depart_held {x : Access} (range : s.accessRange key a n parts = some x) (alone : (s.core c).flying = [{ x with held := true }])
    (pos : 0 < n) :
    (s.depart c key a n parts msg).Flown s c ∧ (s.depart c key a n parts msg).sent = s.sent ++ [⟨.request, msg⟩] := by
  obtain ⟨p, -, rfl⟩ := Option.map_eq_some_iff.1 range
  have own := Access.meets_self { key := key, mem := p.1, off := p.2, len := n, parts := parts } pos
  have mine : ((s.core c).flying.any fun y => y.held && decide (y.key = key) && y.meets { key := key, mem := p.1, off := p.2, len := n, parts := parts }) = true := by
    rw [alone]
    simpa [Access.meets] using own
  unfold State.depart
  rw [range]
  dsimp only
  rw [if_pos mine]
  refine ⟨(State.flown_settle _ c).trans (s.flown_setFlying c _), ?_⟩
  rw [alone]
  exact (State.sent_settle_one (by rw [State.core_setCore_same, List.map_singleton]) (by rw [if_pos (by simpa [Access.meets] using own)])).trans
    (congrArg (· ++ _) (s.setCore_sent c _))

end

end Sys2Proof.Machine
end

section
/-!
SUPPORT. What replies do to the thread that waits for them, where nothing stands before the core.
-/
namespace Sys2Proof.Machine

/-! ### Replies that reach their core -/

section
variable {s : State} {c : CoreId} {i : Instr}

theorem State.redir_self (home : s.fld RTR_REDIR_EN c 0 = 0) : s.redir c = c := by
  unfold State.redir
  rw [if_neg (by rw [home]; decide)]

/-- A reply from outside to a core that nothing stands before. -/
theorem completes_of_inward (home : s.fld RTR_REDIR_EN c 0 = 0) (clear : s.answeredAhead c = false) {f : CoreId → State → State}
    (word : exec i s = .next (s.inward (s.redir c) fun s => f (s.redir c) s)) {P : State → Prop} (holds : P (f c s)) : Completes i s P := by
  rw [State.redir_self home, State.inward_reaches _ _ _ clear, State.redir_self home] at word
  exact ⟨_, word, holds⟩

end

/-! ### The thread that a reply lets go on -/

section
variable (s : State) (c : CoreId) (t : ThreadId)

@[simp] theorem State.thr_ready : (s.ready c t).thr c t = { s.thr c t with st := .ready, wait := .none, armed := false, poll := false } := State.thr_setThr_same ..

theorem State.landOne_s (n v due : Nat) :
    s.landOne c t ⟨.s n, v, due⟩ = s.setThr c t { s.thr c t with x := Sparse.set 0 (s.thr c t).x n (BitVec.ofNat 64 v) } := rfl

end

/-- The thread goes on with a value in a scalar register. -/
structure State.GoesOnWith (u s : State) (c t n : Nat) (v : Word) : Prop where
  value : u.x c t (BitVec.ofNat 5 n) = v
  others : ∀ k < 32, k ≠ n → u.x c t (BitVec.ofNat 5 k) = s.x c t (BitVec.ofNat 5 k)
  ready : (u.thr c t).st = .ready
  wait : (u.thr c t).wait = .none
  beside : u.Beside s c

section
variable {s e : State} {c : CoreId} {t : ThreadId} {n : Nat} {a v data : Word}

/-- A value lands in the scalar register of a waiting thread, which goes on. -/
theorem State.goesOn_landed (flown : e.Flown s c) (low : n < 32) (w : Nat) (due : Nat) :
    ((e.landOne c t ⟨.s n, w, due⟩).ready c t).GoesOnWith s c t n (BitVec.ofNat 64 w) := by
  have index (k : Nat) (h : k < 32) : (BitVec.ofNat 5 k).toNat = k := by simp [h]
  have regs : (((e.landOne c t ⟨.s n, w, due⟩).ready c t).thr c t).x = Sparse.set 0 (s.thr c t).x n (BitVec.ofNat 64 w) := by
    rw [State.thr_ready, State.landOne_s, State.thr_setThr_same, flown.thr]
  refine ⟨?_, fun k h apart => ?_, ?_, ?_, (State.beside_ready _ c t).trans ((State.beside_setThr e c t _).trans flown.beside)⟩
  · rw [State.x, regs, index n low, Sparse.get_set_same]
  · rw [State.x, regs, index k h, Sparse.get_set_other _ _ _ _ apart, State.x, index k h]
  · rw [State.thr_ready]
  · rw [State.thr_ready]

/-- The reply of a scalar load of eight bytes (R79). -/
theorem State.loadReply_scalar (low : n < 32) (waits : (s.thr c t).st = .waiting) (load : (s.thr c t).wait = .load (.s n) 8 a none) (x : Vec) :
    (s.loadReply c t 0 x).GoesOnWith s c t n (BitVec.ofNat 64 x.toNat) := by
  have flown := s.flown_landAccess c (.word t) 0
  have value : BitVec.ofNat 64 (x.toNat % 2 ^ (8 * 8)) = BitVec.ofNat 64 x.toNat := BitVec.eq_of_toNat_eq (by simp)
  unfold State.loadReply
  simp only [waits, load]
  rw [if_neg (by decide), if_pos (by decide), ← value]
  exact State.goesOn_landed flown low _ 0

theorem State.underHalt_awake (f : State → State) (awake : (s.thr c t).st ≠ .halted) : s.underHalt c t f = f s := by
  unfold State.underHalt
  dsimp only
  split
  next h _ => exact absurd h awake
  next => rfl

/-- The reply of a full/empty read that the thread waits for (R331). -/
theorem State.feReply_read (low : n < 32) (waits : (s.thr c t).st = .waiting) (unarmed : (s.thr c t).armed = false) (noPoll : (s.thr c t).poll = false)
    (read : (s.thr c t).wait = .fe 1 n a 0 data) : (s.feReply c t none 0 v 0).GoesOnWith s c t n v := by
  have flown := s.flown_landAccess c (feKey t 0 none 0) 0
  have same := flown.thr t
  unfold State.feReply
  dsimp only
  rw [Option.map_none, State.underHalt_awake _ (by rw [same, waits]; decide)]
  simp only [same, waits, unarmed, noPoll, read]
  have done : BitVec.ofNat 64 v.toNat = v := by simp
  have lands := State.goesOn_landed (t := t) flown low v.toNat 0
  rw [done] at lands
  exact lands

/-! ### Mailboxes -/

theorem State.Flown.mbElsewhere (h : e.Flown s c) (m : Nat) : e.mbElsewhere c t m = s.mbElsewhere c t m := by
  obtain ⟨l, core⟩ := h.core
  unfold State.mbElsewhere
  rw [core, h.dmas]

theorem State.Flown.tornDown (h : e.Flown s c) : e.tornDown c t = s.tornDown c t := by
  unfold State.tornDown State.world State.tf
  rw [h.fld, h.fld, h.fld, h.kp]

/-- What a mailbox holds once a reply has come (R80). -/
def Mbox.replied (status : Nat) (v : Word) : Mbox := if status ≤ 1 then { st := .full, val := v } else { st := .error, err := BitVec.ofNat 16 status }

/-- A reply to a pending mailbox of a thread that does not sleep. -/
theorem State.mbReply_awake {m : Nat} (pending : ((s.thr c t).mbox m).st = .pending) (awake : (s.thr c t).st ≠ .sleeping) (status : Nat) (v : Word) :
    s.mbReply c t m status v = s.setThr c t ((s.thr c t).setMbox m (Mbox.replied status v)) := by
  unfold State.mbReply State.mbArrive
  dsimp only
  rw [if_neg (not_not.2 pending)]
  unfold State.mbWake
  dsimp only
  rw [State.thr_setThr_same]
  exact if_pos awake

/-- A reply fills a mailbox that nothing else completes, of a thread with nothing on its way (R80, R83). -/
theorem State.mailboxReply_fills {m : Fin 4} (pending : ((s.thr c t).mbox m).st = .pending) (ready : (s.thr c t).st = .ready)
    (here : s.mbElsewhere c t m = false) (alive : s.tornDown c t = false) (landed : (s.thr c t).flight = []) (plain : (s.thr c t).mbWait = [])
    (status : Status) :
    ((s.mailboxReply c t m status v).thr c t).mbox m = Mbox.replied status.toNat v ∧ (s.mailboxReply c t m status v).Beside s c := by
  have flown := s.flown_landAccess c (.mail t m) 0
  have absent : Sparse.has (s.thr c t).mbWait m = false := by rw [plain]; rfl
  have none_flies : (s.thr c t).flight.find? (fun f => f.dest = .mbox m) = none := by rw [landed]; rfl
  have replies : s.mailboxReply c t m status v =
      ((s.landAccess c (.mail t m) 0).setThr c t { s.thr c t with mbWait := Sparse.erase (s.thr c t).mbWait m }).mbReply c t m status.toNat v := by
    unfold State.mailboxReply
    extract_lets h e done
    rw [if_neg (by rw [flown.mbElsewhere, flown.tornDown, here, alive]; simp [h, pending])]
    rw [none_flies]
    dsimp only
    rw [absent]
    exact if_neg Bool.false_ne_true
  rw [replies, State.mbReply_awake (by rw [State.thr_setThr_same]; exact pending) (by rw [State.thr_setThr_same]; exact ready ▸ TState.noConfusion)]
  refine ⟨?_, (State.beside_setThr _ c t _).trans ((State.beside_setThr _ c t _).trans flown.beside)⟩
  rw [State.thr_setThr_same, State.thr_setThr_same]
  exact Sparse.get_set_same ..

/-! ### Acknowledgements -/

theorem State.kernelOver_off {c : Nat} (off : (s.core c).kend = false) : s.kernelOver c = s := by
  unfold State.kernelOver
  dsimp only
  rw [off]
  rfl

theorem State.kend_setThr (s : State) (c t : Nat) (h : Thread) : ((s.setThr c t h).core c).kend = (s.core c).kend := by
  rw [State.core_setThr_same]

/-- The acknowledgement of the thread's only write (R324, R329). -/
theorem State.acked_last (only : (s.thr c t).outw = [⟨n, 1⟩]) (idle : (s.thr c t).wait = .none) (off : (s.core c).kend = false) :
    ((s.acked c t n).thr c t).outw = [] ∧ (s.acked c t n).Beside s c := by
  have flown := s.flown_landAccess c (.write t n) 0
  unfold State.acked
  extract_lets h s1 h1
  have thread : (s1.thr c t).outw = [] ∧ (s1.thr c t).wait = .none := by
    rw [State.thr_setThr_same]
    exact ⟨by simp [h, only], idle⟩
  have quiet : (s1.core c).kend = false := by
    obtain ⟨l, core⟩ := flown.core
    rw [State.kend_setThr, core]
    exact off
  have stands : h1.wait = .none := thread.2
  rw [stands]
  dsimp only
  rw [State.kernelOver_off quiet]
  exact ⟨thread.1, (State.beside_setThr _ c t _).trans flown.beside⟩

/-- The reply of a store to MMR space (R215). -/
theorem State.writeAck_mmr (waits : (s.thr c t).st = .waiting) (store : (s.thr c t).wait = .mmrStore a) :
    ((s.writeAck c t none 0).thr c t).st = .ready ∧ (s.writeAck c t none 0).Beside s c := by
  have flown := s.flown_landAccess c (.word t) 0
  unfold State.writeAck
  simp only [waits, store]
  rw [if_neg (by decide), if_pos (by decide), State.thr_ready]
  exact ⟨rfl, (State.beside_ready _ c t).trans flown.beside⟩

/-! ### What leaves for another module -/

/-- A request leaves core c for elsewhere: its threads stand, and it is the next message. -/
structure State.Departs (u s : State) (c : Nat) (msg : List Nat) : Prop where
  threads : ∀ t, u.thr c t = s.thr c t
  beside : u.Beside s c
  sent : u.sent = s.sent ++ [⟨.request, msg⟩]

/-- From `s` to `u` only what core c's cache and side buffer hold has changed. -/
structure State.CacheOnly (u s : State) (c : Nat) : Prop where
  threads : ∀ t, u.thr c t = s.thr c t
  flying : (u.core c).flying = (s.core c).flying
  beside : u.Beside s c
  regs : u.regs = s.regs
  sent : u.sent = s.sent
  place : ∀ a, u.place a = s.place a

theorem State.CacheOnly.trans {u v s : State} {c : Nat} (next : u.CacheOnly v c) (first : v.CacheOnly s c) : u.CacheOnly s c :=
  ⟨fun t => (next.threads t).trans (first.threads t), next.flying.trans first.flying, next.beside.trans first.beside, next.regs.trans first.regs,
    next.sent.trans first.sent, fun a => (next.place a).trans (first.place a)⟩

theorem State.place_setCore (s : State) (c : Nat) (k : Core) (a : Word) : (s.setCore c k).place a = s.place a := id rfl

theorem State.cacheOnly_setCore {s : State} {c : Nat} {k : Core} (threads : k.threads = (s.core c).threads) (flying : k.flying = (s.core c).flying) :
    (s.setCore c k).CacheOnly s c :=
  ⟨fun t => by unfold State.thr; rw [State.core_setCore_same, threads], by rw [State.core_setCore_same, flying], s.beside_setCore c k, s.setCore_regs c k,
    s.setCore_sent c k, s.place_setCore c k⟩

theorem State.cacheOnly_invalidate (s : State) (c : Nat) (f : CEntry → Bool) (g : SideEntry → Bool) : (s.invalidate c f g).CacheOnly s c :=
  State.cacheOnly_setCore rfl rfl

/-- A bypassing access where the cache is empty writes nothing back (R254). -/
theorem State.bypass_empty (s : State) (c : Nat) (a : Word) (n : Nat) (write : Bool) (empty : (s.core c).cache = []) :
    (s.bypass c a n write).CacheOnly s c := by
  have flushed : (s.bypassFlush c a n).CacheOnly s c := by
    unfold State.bypassFlush State.flushEntries
    rw [empty]
    exact State.cacheOnly_setCore rfl rfl
  unfold State.bypass State.bypassGo
  split
  · exact (State.cacheOnly_invalidate _ c _ _).trans flushed
  · exact flushed

end

end Sys2Proof.Machine
end

section
/-!
SUPPORT. Words of fetched lines that land, and acknowledged write-backs, where no thread of the core waits (R257 to R262).
-/
namespace Sys2Proof.Machine

/-! ### A word of a line -/

theorem wideMask_wordMask (k : Fin 8) : wideMask (wordMask k) = BitVec.ofNat 512 ((2 ^ 64 - 1) <<< (64 * k.val)) := by
  revert k
  decide +kernel

theorem wordMask_ne_zero (k : Fin 8) : wordMask k ≠ 0 := by
  revert k
  decide

/-- The word that is merged into a line reads back. -/
theorem lineBytes_mergeBytes (d : Vec) (k : Fin 8) (v : Word) :
    lineBytes (mergeBytes d (BitVec.ofNat 512 (v.toNat <<< (64 * k.val))) (wordMask k)) (8 * k.val) 8 = v.toNat := by
  refine Nat.eq_of_testBit_eq fun i => ?_
  unfold lineBytes mergeBytes
  rw [wideMask_wordMask, Nat.testBit_mod_two_pow, Nat.testBit_shiftRight]
  have := k.isLt
  by_cases low : i < 64
  · have place : 8 * (8 * k.val) + i = 64 * k.val + i := by omega
    have inside : 64 * k.val + i < 512 := by omega
    have back : 64 * k.val + i - 64 * k.val = i := by omega
    have above : 64 * k.val ≤ 64 * k.val + i := by omega
    have mask : (BitVec.ofNat 512 ((2 ^ 64 - 1) <<< (64 * k.val))).getLsbD (64 * k.val + i) = true := by
      rw [BitVec.getLsbD_ofNat, Nat.testBit_shiftLeft, back, Nat.testBit_two_pow_sub_one]
      simp [inside, above, low]
    have word : (BitVec.ofNat 512 (v.toNat <<< (64 * k.val))).getLsbD (64 * k.val + i) = v.toNat.testBit i := by
      rw [BitVec.getLsbD_ofNat, Nat.testBit_shiftLeft, back]
      simp [inside, above]
    rw [place, BitVec.testBit_toNat, BitVec.getLsbD_or, BitVec.getLsbD_and, BitVec.getLsbD_and, BitVec.getLsbD_not, mask, word]
    simp [low]
  · have high : v.toNat.testBit i = false := Nat.testBit_lt_two_pow (lt_of_lt_of_le v.isLt (Nat.pow_le_pow_right (by decide) (by omega)))
    rw [high, decide_eq_false (by omega), Bool.false_and]

/-- The first word of a fetch that lands in an entry without bytes. -/
theorem CEntry.landWord_first {x : CEntry} (all : x.left = BitVec.allOnes 64) (bare : x.valid = 0) (k : Fin 8) (v : Word) :
    let z := x.landWord x.fid k true v
    z.valid = wordMask k ∧ z.left = ~~~wordMask k ∧ lineBytes z.data (8 * k.val) 8 = v.toNat ∧ z.dirty = x.dirty := by
  have mask : BitVec.allOnes 64 &&& wordMask k = wordMask k := BitVec.allOnes_and
  have rest : BitVec.allOnes 64 &&& ~~~wordMask k = ~~~wordMask k := BitVec.allOnes_and
  simp only [CEntry.landWord, all, bare, mask, rest, ne_eq, not_true_eq_false, if_false, if_true, lineBytes_mergeBytes, and_self, and_true]
  exact BitVec.zero_or

/-- The same of a side-buffer entry. -/
theorem SideEntry.landWord_first {y : SideEntry} (all : y.left = BitVec.allOnes 64) (bare : y.valid = 0) (k : Fin 8) (v : Word) :
    let z := y.landWord y.fid k true v
    z.valid = wordMask k ∧ z.left = ~~~wordMask k ∧ lineBytes z.data (8 * k.val) 8 = v.toNat := by
  have mask : BitVec.allOnes 64 &&& wordMask k = wordMask k := BitVec.allOnes_and
  have rest : BitVec.allOnes 64 &&& ~~~wordMask k = ~~~wordMask k := BitVec.allOnes_and
  simp only [SideEntry.landWord, all, bare, mask, rest, ne_eq, not_true_eq_false, if_false, if_true, lineBytes_mergeBytes, and_true]
  exact BitVec.zero_or

/-! ### A core none of whose threads waits -/

/-- No thread of the core waits. -/
def State.NoneWaits (s : State) (c : Nat) : Prop := ∀ t, t < 8 → (s.thr c t).st ≠ .waiting

/-- A pass over the threads that does nothing to each. -/
theorem State.foldl_threads_idle {s : State} {f : State → Nat → State} (idle : ∀ t < 8, f s t = s) : (List.range 8).foldl f s = s := by
  have any (l : List Nat) (low : ∀ t ∈ l, t < 8) : l.foldl f s = s := by
    induction l with
    | nil => rfl
    | cons t l ih => rw [List.foldl_cons, idle t (low t List.mem_cons_self), ih (fun t m => low t (List.mem_cons_of_mem _ m))]
  exact any _ (fun t m => List.mem_range.1 m)

section
variable {s e : State} {c : CoreId}

theorem State.deliverFill_idle (idle : s.NoneWaits c) (fid : Nat) (bad : BitVec 64) (status : Nat) : s.deliverFill c fid bad status = s := by
  unfold State.deliverFill
  split
  · rfl
  · exact State.foldl_threads_idle fun t low => if_pos (idle t low)

theorem State.recheck_idle (idle : s.NoneWaits c) : s.recheck c = s := by
  unfold State.recheck
  rw [State.foldl_threads_idle fun t low => if_pos (idle t low)]
  unfold State.cacheOffDone
  split
  · rfl
  · refine State.foldl_threads_idle fun t low => if_neg ?_
    rw [Bool.and_eq_true]
    exact fun h => idle t low (of_decide_eq_true h.1)

theorem State.Flown.noneWaits (h : e.Flown s c) (idle : s.NoneWaits c) : e.NoneWaits c := fun t low => by rw [h.thr]; exact idle t low

theorem State.noneWaits_setCore (idle : s.NoneWaits c) {k : Core} (threads : k.threads = (s.core c).threads) : (s.setCore c k).NoneWaits c := by
  intro t low
  unfold State.thr
  rw [State.core_setCore_same, threads]
  exact idle t low

/-- What a word that lands leaves (R257, R261). -/
theorem State.landFetch_idle (idle : s.NoneWaits c) (fid : Nat) (k : Fin 8) (v : Word) :
    ((s.landFetch c fid k 0 v).core c).cache =
        ((s.core c).cache.map fun e => e.landWord fid k true v).filter (fun e => e.valid ≠ 0 || e.left ≠ 0 || e.lock) ∧
      ((s.landFetch c fid k 0 v).core c).side = ((s.core c).side.map fun e => e.landWord fid k true v) ∧ (s.landFetch c fid k 0 v).mem = s.mem := by
  have flown := s.flown_landAccess c (.fill fid) k
  obtain ⟨l, core⟩ := flown.core
  unfold State.landFetch
  extract_lets ok e q s1 s2 q2
  have held : s1.NoneWaits c := State.noneWaits_setCore (flown.noneWaits idle) (by rfl)
  have stands : s2 = s1 := State.deliverFill_idle held ..
  have held2 : s2.NoneWaits c := stands ▸ held
  have landed : s1.core c = { q with
      cache := q.cache.map (fun e => e.landWord fid k ok v)
      dropped := q.dropped.map (fun e => e.landWord fid k ok v)
      side := q.side.map (fun e => e.landWord fid k ok v) } := State.core_setCore_same ..
  have entries : q2 = s1.core c := congrArg (fun s : State => s.core c) stands
  rw [State.recheck_idle (State.noneWaits_setCore held2 (by rfl)), State.core_setCore_same, State.setCore_mem, entries, landed, stands, State.setCore_mem]
  have first : q.cache = (s.core c).cache ∧ q.side = (s.core c).side := by rw [show q = _ from core]; exact ⟨rfl, rfl⟩
  rw [first.1, first.2]
  exact ⟨rfl, rfl, flown.mem⟩

/-- The acknowledgement of the core's only write-back (R259). -/
theorem State.writebackAck_last (idle : s.NoneWaits c) {b : WriteBack} (only : (s.core c).wbs = [b]) (low : b.line < 2 ^ 58)
    (off : (s.core c).kend = false) :
    ((s.writebackAck c (BitVec.ofNat 58 b.line) 0).core c).wbs = [] ∧ (s.writebackAck c (BitVec.ofNat 58 b.line) 0).mem = s.mem := by
  have line : (BitVec.ofNat 58 b.line).toNat = b.line := by rw [BitVec.toNat_ofNat, Nat.mod_eq_of_lt low]
  have flown := s.flown_landAccess c (.line (BitVec.ofNat 58 b.line).toNat) 0
  obtain ⟨l, core⟩ := flown.core
  unfold State.writebackAck
  extract_lets e k
  have back : k.wbs = [b] := by rw [show k = _ from core]; exact only
  have found : k.wbs.find? (fun x => x.line = (BitVec.ofNat 58 b.line).toNat) = some b := by rw [back, line]; simp
  rw [found]
  dsimp -zeta only
  extract_lets s1
  have held : s1.NoneWaits c := State.noneWaits_setCore (flown.noneWaits idle) (by rfl)
  have after : s1.core c = { k with wbs := k.wbs.erase b } := State.core_setCore_same ..
  have quiet : (s1.core c).kend = false := by rw [after, show k = _ from core]; exact off
  rw [if_pos (by decide), State.recheck_idle held, State.kernelOver_off quiet, after, back]
  exact ⟨by simp, (State.setCore_mem ..).trans flown.mem⟩

end

end Sys2Proof.Machine
end

section
/-!
SUPPORT and O28. Releases and polls that leave again, watches that wake, and the replies that a core's fence, proxy or spare takes.
-/
namespace Sys2Proof.Machine

section
variable {s : State} {c : CoreId} {t : ThreadId} {n : Nat} {a v data : Word} {op opt mid : Nat}

/-! ### Full/empty operations that leave for elsewhere -/

theorem State.accessRange_setThr (s : State) (c t : Nat) (h : Thread) (key : AccKey) (a : Word) (n : Nat) (parts : List Nat) :
    (s.setThr c t h).accessRange key a n parts = s.accessRange key a n parts := by
  unfold State.accessRange State.setThr
  rw [State.place_setCore]

theorem State.CacheOnly.accessRange {u s : State} {c : Nat} (h : u.CacheOnly s c) (key : AccKey) (a : Word) (n : Nat) (parts : List Nat) :
    u.accessRange key a n parts = s.accessRange key a n parts := by
  unfold State.accessRange
  rw [h.place]

/-- A full/empty operation on a place outside the core leaves as a request. -/
theorem State.feLeave_departs (empty : (s.core c).cache = [])
    (room : (∀ x, s.accessRange (feKey t op none n) a 8 [0] = some x → ∀ y ∈ (s.core c).flying, y.meets x = false) ∨
      ∃ x, s.accessRange (feKey t op none n) a 8 [0] = some x ∧ (s.core c).flying = [{ x with held := true }]) :
    ∃ u, s.feLeave c t op a data opt none none n = (none, u) ∧ u.Departs s c (s.feArgs c t op a data opt none n) := by
  have only := s.bypass_empty c a 8 true empty
  have left : ((s.bypass c a 8 true).depart c (feKey t op none n) a 8 [0] (s.feArgs c t op a data opt none n)).Flown (s.bypass c a 8 true) c ∧
      ((s.bypass c a 8 true).depart c (feKey t op none n) a 8 [0] (s.feArgs c t op a data opt none n)).sent =
        (s.bypass c a 8 true).sent ++ [⟨.request, s.feArgs c t op a data opt none n⟩] := by
    rcases room with free | ⟨x, range, alone⟩
    · exact State.depart_clear fun x range y m => free x (only.accessRange .. ▸ range) y (only.flying ▸ m)
    · exact State.depart_held (only.accessRange .. ▸ range) (only.flying.trans alone) (by decide)
  exact ⟨_, rfl, fun j => (left.1.thr j).trans (only.threads j), left.1.beside.trans only.beside, by rw [left.2, only.sent]⟩

/-- Where no access in flight shares a byte with a range, none meets an access of it. -/
theorem State.meets_of_inFlight {key : AccKey} {len : Nat} {parts : List Nat} {x y : Access} (free : s.inFlight c a len = false)
    (range : s.accessRange key a len parts = some x) (m : y ∈ (s.core c).flying) : y.meets x = false := by
  obtain ⟨p, spot, rfl⟩ := Option.map_eq_some_iff.1 range
  unfold State.inFlight State.accessRange at free
  rw [spot] at free
  exact Bool.eq_false_iff.2 (List.any_eq_false.1 free y m)

/-- A held release whose thread has no write out leaves for another module (R328). -/
theorem releaseDepart_leaves (held : (s.thr c t).held = [⟨n, 2, n, a, data, 3⟩]) (none_out : (s.thr c t).outw = []) (empty : (s.core c).cache = [])
    (back : (s.core c).wbs = []) (away : ∀ w, s.translate (s.who c t) a w = .to (.remote mid 0))
    (room : (s.core c).flying = [] ∨ ∃ y, s.accessRange (.write t n) a 8 [0] = some y ∧ (s.core c).flying = [{ y with held := true }]) :
    Completes (.releaseDepart c t n) s (fun u => (u.thr c t).held = [] ∧ u.sent = s.sent ++ [⟨.request, s.feArgs c t 3 a data 6 none n⟩] ∧ u.Beside s c) := by
  have clear : s.clearBelow c t 2 n = true := by unfold State.clearBelow; rw [none_out]; rfl
  have dry : s.bypassWaits c a 8 = false := by simp only [State.bypassWaits, empty, back, List.any_nil, Bool.or_self]
  obtain ⟨u, leaves, departs⟩ := State.feLeave_departs (s := s.setThr c t { s.thr c t with held := [] }) (c := c) (t := t) (op := 3) (a := a) (data := data)
    (opt := 6) (n := n) (by rw [State.core_setThr_same]; exact empty) (by
      simp only [State.accessRange_setThr, State.core_setThr_same]
      refine room.imp_left (fun free x _ y m => ?_)
      rw [free] at m
      exact absurd m List.not_mem_nil)
  have word : exec (.releaseDepart c t n) s = .next u := by
    have step : exec (.releaseDepart c t n) s = execReleaseDepart c t n s := rfl
    rw [step]
    unfold execReleaseDepart
    simp only [held, List.find?_cons, decide_true, clear, away, dry]
    have gone : [(⟨n, 2, n, a, data, 3⟩ : HeldRelease)].filter (fun x => decide (x.id ≠ n)) = [] := by simp
    have elsewhere : (Place.remote mid 0).ownBank c a = none := rfl
    dsimp only at leaves
    rw [gone, elsewhere, if_neg (by simp), if_neg (by decide), if_neg (by simp), leaves]
  refine ⟨u, word, ?_, departs.sent, departs.beside.trans (State.beside_setThr ..)⟩
  rw [departs.threads, State.thr_setThr_same]

/-- A full/empty operation of a thread on another module's word is issued again (R336, R339). -/
theorem State.feAgain_away (s : State) {c : CoreId} {t : ThreadId} (op n : Nat) (a data : Word) {mid : Nat}
    (away : ∀ w, s.translate (s.who c t) a w = .to (.remote mid 0)) :
    s.feAgain c t op n a data 0 none =
      match (s.setThr c t { s.thr c t with armed := false, poll := false }).feLeave c t op a data 0 none none n with
      | (none, u) => u
      | (some rep, u) => (if op = 2 && rep.status = 0 then u.acked c t n else u).feOutcome c t op n a 0 data rep := by
  unfold State.feAgain
  simp only [away]
  generalize (State.feLeave _ _ _ _ _ _ _ _ _ _) = q
  obtain ⟨_ | rep, u⟩ := q <;> rfl

/-- A poll that ends issues its read again (R336). -/
theorem watchPollExpiry_again (poll : (s.thr c t).poll = true) (asleep : (s.thr c t).st = .sleeping) (read : (s.thr c t).wait = .fe 1 n a 0 data)
    (empty : (s.core c).cache = []) (away : ∀ w, s.translate (s.who c t) a w = .to (.remote mid 0)) (free : s.inFlight c a 8 = false) :
    Completes (.watchPollExpiry c t none) s (fun u => (u.thr c t).poll = false ∧ u.sent = s.sent ++ [⟨.request, s.feArgs c t 1 a data 0 none n⟩] ∧
      u.Beside s c) := by
  obtain ⟨u, leaves, departs⟩ := State.feLeave_departs (s := s.setThr c t { s.thr c t with armed := false, poll := false }) (c := c) (t := t) (op := 1) (a := a)
    (data := data) (opt := 0) (n := n) (by rw [State.core_setThr_same]; exact empty) (by
      simp only [State.accessRange_setThr, State.core_setThr_same]
      exact Or.inl fun x range y m => State.meets_of_inFlight free range m)
  have word : exec (.watchPollExpiry c t none) s = .next u := by
    have step : exec (.watchPollExpiry c t none) s = execWatchPollExpiry c t none s := rfl
    rw [step]
    unfold execWatchPollExpiry
    dsimp only
    rw [read]
    dsimp only
    rw [poll, asleep, if_neg (by decide), if_neg (by decide), s.feAgain_away 1 n a data away, leaves]
  refine ⟨u, word, ?_, departs.sent, departs.beside.trans (State.beside_setThr ..)⟩
  rw [departs.threads, State.thr_setThr_same]

theorem State.feDone_waitf (s : State) (c t n : Nat) (a : Word) (r : FeReply) : s.feDone c t 5 n a 0 r = s.ready c t := by
  unfold State.feDone
  dsimp only
  rw [if_neg (by decide), if_neg (by decide)]

/-- A wake of its watch ends the wait of a WAITF (R339). -/
theorem State.watchWake_waitf (asleep : (s.thr c t).st = .sleeping) (armed : (s.thr c t).armed = true) (waitf : (s.thr c t).wait = .fe 5 n a 0 data) :
    s.watchWake c t none a 0 (BitVec.ofNat 8 (s.fld CTX_BIND_EPOCH c 0)) = s.ready c t := by
  have epoch : (BitVec.ofNat 8 (s.fld CTX_BIND_EPOCH c 0)).toNat = s.fld CTX_BIND_EPOCH c 0 := by
    rw [BitVec.toNat_ofNat]
    exact Nat.mod_eq_of_lt (bitsOf_lt _ _ _)
  unfold State.watchWake
  simp only [epoch, waitf, armed, asleep]
  unfold State.wakeThread
  rw [waitf, if_neg (not_not.2 rfl), if_neg (by simp), if_neg (by decide)]
  exact (if_pos rfl).trans (s.feDone_waitf c t n a _)

theorem completes_watchWake (home : s.fld RTR_REDIR_EN c 0 = 0) (clear : s.answeredAhead c = false) (epoch : BitVec 8) {P : State → Prop}
    (holds : P (s.watchWake c t none a 0 epoch)) : Completes (.watchWakeArrive c t none a 0 epoch) s P := by
  refine ⟨_, rfl, ?_⟩
  rw [State.redir_self home, State.inward_reaches _ _ _ clear, State.redir_self home, ite_self]
  exact holds

/-! ### Replies that do not reach the core (R303, R618, R640) -/

/-- A reply to a core that a fence or a seam proxy stands before changes its counter only. -/
theorem completes_of_absorbed {i : Instr} (home : s.fld RTR_REDIR_EN c 0 = 0) (ahead : s.answeredAhead c = true) {f : State → State}
    (word : exec i s = .next (s.inward (s.redir c) f)) :
    Completes i s (fun u => u.cores = s.cores ∧ u.mem = s.mem ∧ u.tags = s.tags ∧ u.sent = s.sent ∧
      (s.gated (coreP c) (coreHalf c) = true →
        u.fld SEAM_STAT_ABSORBED (coreP c) 0 = min (s.fld SEAM_STAT_ABSORBED (coreP c) 0 + 1) (2 ^ (SEAM_STAT_ABSORBED.hi + 1 - SEAM_STAT_ABSORBED.lo) - 1)) ∧
      (s.gated (coreP c) (coreHalf c) = false → s.islandShut c = false → u.fld FENCE_DROP_CNT_ABSORBED c 0 =
        min (s.fld FENCE_DROP_CNT_ABSORBED c 0 + 1) (2 ^ (FENCE_DROP_CNT_ABSORBED.hi + 1 - FENCE_DROP_CNT_ABSORBED.lo) - 1))) := by
  rw [State.redir_self home] at word
  exact ⟨_, word, s.inward_absorbs c f ahead⟩

/-- Only what it does at this state matters of what a reply would do. -/
theorem State.inward_congr {n : Nat} {f g : State → State} (same : f s = g s) : s.inward n f = s.inward n g := by
  unfold State.inward
  rw [same]

/-- Two cores whose replies reach one core. -/
theorem exec_eq_of_redir {d : CoreId} {i j : Instr} (same : s.redir c = s.redir d) {f : CoreId → State → State}
    (word : exec i s = .next (s.inward (s.redir c) fun s => f (s.redir c) s)) (other : exec j s = .next (s.inward (s.redir d) fun s => f (s.redir d) s)) :
    exec i s = exec j s := by
  rw [word, other, same]
  exact congrArg Host.Outcome.next (State.inward_congr (by rw [same]))

theorem exec_mailboxReply_redir {d : CoreId} (same : s.redir c = s.redir d) (m : Fin 4) (st : Status) (v : Word) :
    exec (.mailboxReply c t m st v) s = exec (.mailboxReply d t m st v) s := by
  have step (c : CoreId) : exec (.mailboxReply c t m st v) s = execMailboxReply c t m st v s := rfl
  rw [step, step]
  have inner : s.inward (s.redir d) (fun s => s.mailboxReply (s.redir c) t m st v) = s.inward (s.redir d) fun s => s.mailboxReply (s.redir d) t m st v :=
    State.inward_congr (by rw [same])
  unfold execMailboxReply
  rw [same, inner]

/-- A mailbox's reply, where no load of the core's own is on its way to the mailbox. -/
theorem exec_mailboxReply {m : Fin 4} (outside : ∀ y ∈ (s.thr (s.redir c) t).flight, y.dest ≠ .mbox m) (st : Status) (v : Word) :
    exec (.mailboxReply c t m st v) s = .next (s.inward (s.redir c) fun s => s.mailboxReply (s.redir c) t m st v) := by
  have own : ((s.thr (s.redir c) t).flight.any fun f => decide (f.dest = .mbox m)) = false :=
    List.any_eq_false.2 fun y h => by simpa using outside y h
  have step : exec (.mailboxReply c t m st v) s = execMailboxReply c t m st v s := rfl
  rw [step]
  unfold execMailboxReply
  rw [own]
  rfl

/-- The replies and acknowledgements that reach a core from outside. -/
def coreReplies (t : ThreadId) (m : Fin 4) (id : Nat) (k : Fin 8) (r : Fin 64) (st : Status) (v : Word) (x : Vec) (y : BitVec 544) (tag : Fin 4) (line : BitVec 58)
    (c : CoreId) : List Instr :=
  [.loadReply c t st x, .mailboxReply c t m st v, .feReply c t none st v tag, .writeAck c t (some id) st,
    .cacheFillLand c id k st v, .prefLand c id k st v, .writebackAck c line st, .tileRowLand c t m r st y, .tileRowAck c t m r st]

section
variable {m : Fin 4} {id : Nat} {k : Fin 8} {r : Fin 64} {st : Status} {x : Vec} {y : BitVec 544} {tag : Fin 4} {line : BitVec 58}

/-- Each of them comes to the core through what stands before it. -/
theorem exec_coreReplies (outside : ∀ y ∈ (s.thr (s.redir c) t).flight, y.dest ≠ .mbox m) {i : Instr}
    (mem : i ∈ coreReplies t m id k r st v x y tag line c) : ∃ f, exec i s = .next (s.inward (s.redir c) f) := by
  simp only [coreReplies, List.mem_cons, List.not_mem_nil, or_false] at mem
  rcases mem with rfl | rfl | rfl | rfl | rfl | rfl | rfl | rfl | rfl
  case inr.inl => exact ⟨_, exec_mailboxReply outside st v⟩
  all_goals exact ⟨_, rfl⟩

/-- Each of them does the same for two cores whose replies reach one core. -/
theorem exec_coreReplies_redir {d : CoreId} (same : s.redir c = s.redir d) (n : Nat) (low : n < 9) :
    (coreReplies t m id k r st v x y tag line c)[n]?.map (fun i => exec i s) = (coreReplies t m id k r st v x y tag line d)[n]?.map (fun i => exec i s) :=
  match n, low with
  | 0, _ => congrArg some (exec_eq_of_redir same (f := fun c s => s.loadReply c t st x) rfl rfl)
  | 1, _ => congrArg some (exec_mailboxReply_redir same m st v)
  | 2, _ => congrArg some (exec_eq_of_redir same (f := fun c s => s.feReply c t none st v tag) rfl rfl)
  | 3, _ => congrArg some (exec_eq_of_redir same (f := fun c s => s.writeAck c t (some id) st) rfl rfl)
  | 4, _ => congrArg some (exec_eq_of_redir same (f := fun c s => s.landFetch c id k st.toNat v) rfl rfl)
  | 5, _ => congrArg some (exec_eq_of_redir same (f := fun c s => s.landFetch c id k st.toNat v) rfl rfl)
  | 6, _ => congrArg some (exec_eq_of_redir same (f := fun c s => s.writebackAck c line st) rfl rfl)
  | 7, _ => congrArg some (exec_eq_of_redir same (f := fun c s => s.rowLand c t m r st y) rfl rfl)
  | 8, _ => congrArg some (exec_eq_of_redir same (f := fun c s => s.rowAck c t m r st) rfl rfl)

end

/-- The spare that a redirected core's replies go to. -/
theorem State.redir_spare {d : CoreId} (on : s.fld RTR_REDIR_EN c 0 = 1)
    (spare : d.val = coreP c * 1296 + s.fld RTR_REDIR_SY c 0 * 36 + s.fld RTR_REDIR_SX c 0) : s.redir c = d := by
  unfold State.redir
  dsimp only
  rw [if_pos on, dif_pos (spare ▸ d.isLt)]
  exact Fin.ext spare.symm

end

/-- Settles O28. The reply takes its access off those in flight, which touches no thread, no line and no other core; what it then does is the rule of its own.
A reply that is absorbed, or goes to the spare, ends at `State.inward` or `State.redir`. -/
theorem repliesAndCacheEventsComplete : Obligations.RepliesAndCacheEventsComplete := by
  have besides {u s : State} {c : CoreId} (h : u.Beside s c) : u.mem = s.mem ∧ u.tags = s.tags ∧ ∀ d : Nat, d ≠ c → u.core d = s.core d :=
    ⟨h.mem, h.tags, h.others⟩
  have flies {s : State} {c : CoreId} {t : ThreadId} {m : Fin 4} (home : s.fld RTR_REDIR_EN c 0 = 0) (landed : (s.thr c t).flight = []) :
      ∀ y ∈ (s.thr (s.redir c) t).flight, y.dest ≠ .mbox m := by
    rw [State.redir_self home, landed]
    exact fun y h => absurd h List.not_mem_nil
  refine ⟨fun c t m s n a v data x opt home clear => ?_, fun c s x y k v b home clear idle => ?_, fun c d t m id k r st v x y tag line s => ?_⟩
  · refine ⟨fun low waits load => ?_, fun pending ready here alive landed plain => ⟨?_, ?_⟩, fun low waits unarmed noPoll read => ?_,
      fun only idle off => ?_, fun waits store => ?_, fun held none_out empty back away room => ?_, fun asleep armed waitf => ?_,
      fun asleep poll read empty away free => ?_⟩
    · have goes := State.loadReply_scalar low waits load x
      exact completes_of_inward home clear (f := fun c s => s.loadReply c t 0 x) rfl ⟨goes.value, goes.ready, goes.wait, besides goes.beside, goes.others⟩
    · have fills := State.mailboxReply_fills (v := v) pending ready here alive landed plain 0
      exact completes_of_inward home clear (f := fun c s => s.mailboxReply c t m 0 v) (exec_mailboxReply (flies home landed) 0 v) ⟨fills.1, besides fills.2⟩
    · have fills := State.mailboxReply_fills (v := v) pending ready here alive landed plain 0x0402
      exact completes_of_inward home clear (f := fun c s => s.mailboxReply c t m 0x0402 v) (exec_mailboxReply (flies home landed) 0x0402 v)
        ⟨fills.1, besides fills.2⟩
    · have goes := State.feReply_read (v := v) low waits unarmed noPoll read
      exact completes_of_inward home clear (f := fun c s => s.feReply c t none 0 v 0) rfl ⟨goes.value, goes.ready, besides goes.beside⟩
    · obtain ⟨done, beside⟩ := State.acked_last only idle off
      exact completes_of_inward home clear (f := fun c s => s.writeAck c t (some n) 0) rfl ⟨done, besides beside⟩
    · obtain ⟨done, beside⟩ := State.writeAck_mmr waits store
      exact completes_of_inward home clear (f := fun c s => s.writeAck c t none 0) rfl ⟨done, besides beside⟩
    · obtain ⟨u, next, left, sent, beside⟩ := releaseDepart_leaves held none_out empty back away room
      exact ⟨u, next, left, sent, besides beside⟩
    · refine completes_watchWake home clear _ ?_
      rw [State.watchWake_waitf asleep armed waitf, State.thr_ready]
      exact ⟨rfl, rfl, besides (s.beside_ready c t)⟩
    · obtain ⟨u, next, ended, sent, beside⟩ := watchPollExpiry_again poll asleep read empty away free
      exact ⟨u, next, ended, sent, besides beside⟩
  · refine ⟨fun cached _ _ all bare => ?_, fun _ _ side all bare => ?_, fun only low off => ?_⟩
    · obtain ⟨cache, -, mem⟩ := State.landFetch_idle idle x.fid k v
      obtain ⟨valid, left, bytes, dirty⟩ := CEntry.landWord_first all bare k v
      refine completes_of_inward home clear (f := fun c s => s.landFetch c x.fid k 0 v) rfl ⟨x.landWord x.fid k true v, ?_, valid, left, bytes, dirty, mem⟩
      rw [cache, cached]
      exact List.filter_cons_of_pos (by rw [valid, decide_eq_true (wordMask_ne_zero k)]; rfl)
    · obtain ⟨-, entries, mem⟩ := State.landFetch_idle idle y.fid k v
      obtain ⟨valid, left, bytes⟩ := SideEntry.landWord_first all bare k v
      refine completes_of_inward home clear (f := fun c s => s.landFetch c y.fid k 0 v) rfl ⟨y.landWord y.fid k true v, ?_, valid, left, bytes, mem⟩
      rw [entries, side, List.map_singleton]
    · exact completes_of_inward home clear (f := fun c s => s.writebackAck c (BitVec.ofNat 58 b.line) 0) rfl
        (State.writebackAck_last idle only low off)
  · refine ⟨fun outside home ahead i mem => ?_, fun on spare settled n low => ?_⟩
    · obtain ⟨f, word⟩ := exec_coreReplies (s := s) (by rw [State.redir_self home]; exact outside) mem
      exact completes_of_absorbed home ahead word
    · have same : s.redir c = s.redir d := (State.redir_spare on spare).trans (State.redir_self settled).symm
      exact exec_coreReplies_redir same n low

end Sys2Proof.Machine
end

section
/-!
SUPPORT. Single bits and fields, and threads of a core that a word of another thread leaves alone.
-/
namespace Sys2Proof.Machine

/-! ### Bits, fields and threads -/

/-- A bit of a number, kept to m bits, that is replaced reads as it was written. -/
theorem nbit_replace (p v : Nat) {n m : Nat} (low : n < m) : nbit ((p - nbit p n * 2 ^ n + v % 2 * 2 ^ n) % 2 ^ m) n = v % 2 := by
  have parts := split_at_field p n 1
  have below : p % 2 ^ n < 2 ^ n := Nat.mod_lt _ (Nat.two_pow_pos n)
  have replaced : p - nbit p n * 2 ^ n + v % 2 * 2 ^ n = p % 2 ^ n + (p / 2 ^ (n + 1) * 2 + v % 2) * 2 ^ n := by
    rw [pow_one] at parts
    rw [nbit, Nat.shiftRight_eq_div_pow, Nat.add_mul, Nat.mul_assoc, ← pow_succ']
    omega
  have cut (x : Nat) : x % 2 ^ m / 2 ^ n % 2 = x / 2 ^ n % 2 := by
    obtain ⟨d, rfl⟩ : ∃ d, m = n + (d + 1) := ⟨m - n - 1, by omega⟩
    rw [pow_add, Nat.mod_mul_right_div_self, pow_succ', Nat.mod_mul_right_mod]
  rw [nbit, Nat.shiftRight_eq_div_pow, cut, replaced, Nat.add_mul_div_right _ _ (Nat.two_pow_pos n), Nat.div_eq_of_lt below]
  omega

theorem State.tf_eq_bitsOf (s : State) (f : Field) (c t : Nat) : s.tf f c t = bitsOf (s.treg f.reg c t) f.hi f.lo := by
  simp only [State.tf, State.fld, State.treg, Nat.add_zero, Nat.zero_mul]

theorem State.tf_congr {u e : State} (same : u.regs = e.regs) (f : Field) (c t : Nat) : u.tf f c t = e.tf f c t := by
  simp only [State.tf, State.fld, State.reg, same]

theorem State.thr_setCore_kept (s : State) (c j : Nat) {k : Core} (kept : k.threads = (s.core c).threads) : (s.setCore c k).thr c j = s.thr c j := by
  rw [State.thr, State.core_setCore_same, kept, State.thr]

/-! ### A thread that is left alone -/

/-- Thread k of core c and its state registers are in `u` as they are in `e`. -/
structure State.Keeps (u e : State) (c : CoreId) (k : ThreadId) : Prop where
  thr : u.thr c k = e.thr c k
  treg : ∀ r, u.treg r c k = e.treg r c k

section
variable {u v e : State} {c : CoreId} {k j : ThreadId}

theorem State.Keeps.refl (e : State) (c : CoreId) (k : ThreadId) : e.Keeps e c k := ⟨rfl, fun _ => rfl⟩

theorem State.Keeps.trans (next : u.Keeps v c k) (first : v.Keeps e c k) : u.Keeps e c k :=
  ⟨next.thr.trans first.thr, fun r => (next.treg r).trans (first.treg r)⟩

theorem State.Keeps.tf (h : u.Keeps e c k) (f : Field) : u.tf f c k = e.tf f c k := by
  rw [State.tf_eq_bitsOf, h.treg, State.tf_eq_bitsOf]

theorem State.Keeps.x (h : u.Keeps e c k) (n : BitVec 5) : u.x c k n = e.x c k n := by rw [State.x, h.thr, State.x]

theorem State.Keeps.pr (h : u.Keeps e c k) (n : BitVec 5) : u.pr c k n = e.pr c k n := by rw [State.pr, h.thr, State.pr]

theorem State.Keeps.lcr (h : u.Keeps e c k) (n : Nat) : u.lcr c k n = e.lcr c k n := by rw [State.lcr, h.thr, State.lcr]

theorem State.keeps_setThr (e : State) (other : k ≠ j) (h : Thread) : (e.setThr c j h).Keeps e c k :=
  ⟨State.thr_setThr_other e c h (fun same => other (Fin.ext same)), fun _ => rfl⟩

theorem State.keeps_setTreg (e : State) (other : k ≠ j) (r : RegName) (w : Word) : (e.setTreg r c j w).Keeps e c k := by
  have apart : k.val ≠ j.val := fun same => other (Fin.ext same)
  exact ⟨rfl, fun q => State.reg_setReg_other e _ (by omega) (by omega) (by omega) (by omega) (by omega)⟩

theorem State.keeps_setTf (e : State) (other : k ≠ j) (f : Field) (n : Nat) : (e.setTf f c j n).Keeps e c k := State.keeps_setTreg e other f.reg _

theorem State.keeps_setCore (e : State) {q : Core} (kept : q.threads = (e.core c).threads) : (e.setCore c q).Keeps e c k :=
  ⟨e.thr_setCore_kept c k kept, fun _ => rfl⟩

/-! ### Going on to the next word leaves the other threads alone -/

theorem State.keeps_loopEnd (e : State) (other : k ≠ j) (w next n : Nat) : (e.loopEnd c j w next n).2.Keeps e c k := by
  induction n generalizing e with
  | zero => exact State.Keeps.refl e c k
  | succ n ih =>
    simp only [State.loopEnd]
    split
    · split
      · exact e.keeps_setThr other _
      · exact (ih _).trans ((State.keeps_setTf _ other _ _).trans (e.keeps_setThr other _))
    · exact ih e

theorem State.keeps_advance (e : State) (other : k ≠ j) (pc : Nat) (loops : Bool) : (e.advance c j pc loops).Keeps e c k := by
  simp only [State.advance, State.advanceTo]
  refine (State.keeps_setThr _ other _).trans ?_
  split
  · exact State.Keeps.refl e c k
  · split
    · exact e.keeps_loopEnd other _ _ _
    · exact State.Keeps.refl e c k

/-- A word of thread t whose operation leaves its own thread alone ends with another thread as the operation leaves it. -/
theorem completes_on_other {s : State} {t : ThreadId} {g : BitVec 4} {i : Instr} {enc : List Nat} {body : State → Fx} (runs : s.Runs c t g)
    (h : s.Settled c t) (legal : enc = []) (word : exec i s = .next (s.issue c t g enc false false body)) (done : body (s.reads c t) = .done e)
    (own : e.Keeps (s.reads c t) c t) (other : k ≠ t) : Completes i s (fun u => u.Keeps e c k) := by
  obtain ⟨u, ends, rfl⟩ := completes_of_done runs h legal word done (by rw [own.thr]) (own.tf _)
  exact ⟨_, ends, e.keeps_advance other _ _⟩

end

end Sys2Proof.Machine
end

section
/-!
SUPPORT. The words that start, stop and write another thread: TSTART, TSTOP and TSET (R108 to R112).
-/
namespace Sys2Proof.Machine

section
variable {s e : State} {c : CoreId} {t k : ThreadId} {w : LR}

/-- Supervisor code controls a thread of its own world, which is STOPPED or SUSPENDED where it must be (R111). -/
theorem State.threadRefusal_none (world : e.world c k = e.world c t) {need : Bool}
    (held : need = true → (e.thr c k).st = .stopped ∨ (e.thr c k).st = .suspended) :
    e.threadRefusal c t k need = none := by
  unfold State.threadRefusal
  dsimp only
  rw [if_neg (by simp [world]), if_neg]
  cases need
  · simp
  · rcases held rfl with h | h <;> simp [h]

theorem State.supOnly_sup (sup : e.level c t = 1) (f : Fx) : e.supOnly c t f = f := if_neg (by rw [sup]; decide)

/-! ### TSTART (R109) -/

/-- Clearing a notice touches the fault record of its thread, and no thread. -/
theorem State.clearNotice_leaves (e : State) (c : CoreId) (k : ThreadId) : (∀ j : Nat, (e.clearNotice c k).thr c j = e.thr c j) ∧
    ∀ (r : RegName) (j : ThreadId), r ∉ [RegName.tfpc, .tfcause, .tfaddr] → (e.clearNotice c k).treg r c j = e.treg r c j := by
  refine ⟨fun j => ?_, fun r j apart => ?_⟩
  · rw [State.clearNotice, State.thr, State.core_setCore_same, State.thr]
    rfl
  · simp only [List.mem_cons, List.not_mem_nil, or_false, not_or] at apart
    obtain ⟨pc, cause, addr⟩ := apart
    have reg (q : State) {x : RegName} (n : r ≠ x) : (q.setTreg x c k 0).treg r c j = q.treg r c j :=
      State.reg_setReg_other q _ (by omega) (by omega) (by omega) (by omega) (fun h => n h.1)
    show (((e.setTreg .tfpc c k 0).setTreg .tfcause c k 0).setTreg .tfaddr c k 0).treg r c j = e.treg r c j
    rw [reg _ addr, reg _ cause, reg _ pc]

theorem State.clearNotice_keeps (e : State) (other : t ≠ k) : (e.clearNotice c k).Keeps e c t := by
  have treg (q : State) (r : RegName) : (q.setTreg r c k 0).Keeps q c t := q.keeps_setTreg other r 0
  exact ⟨(e.clearNotice_leaves c k).1 t, ((treg _ .tfaddr).trans ((treg _ .tfcause).trans (treg e .tfpc))).treg⟩

/-- The state with thread k started at an address (R109). -/
def State.started (e : State) (c k sup pc : Nat) : State :=
  let q := ((((e.clearNotice c k).setTf wstat_LEVEL c k sup).setTf wstat_EXL c k 0).setTf wstat_IE c k 0).setTf wstat_SELF c k 0
  q.setThr c k { q.thr c k with st := .ready, pc := pc, slot := none, shadow := 0, wait := .none, armed := false }

/-- The state with thread k resumed (R109). -/
def State.resumed (e : State) (c k : Nat) : State := (e.clearNotice c k).setThr c k { (e.clearNotice c k).thr c k with st := .ready }

theorem State.started_keeps (e : State) (other : t ≠ k) (sup pc : Nat) : (e.started c k sup pc).Keeps e c t := by
  have tf (q : State) (f : Field) (n : Nat) : (q.setTf f c k n).Keeps q c t := q.keeps_setTf other f n
  exact (State.keeps_setThr _ other _).trans ((tf _ _ _).trans ((tf _ _ _).trans ((tf _ _ _).trans ((tf _ _ _).trans (e.clearNotice_keeps other)))))

theorem State.resumed_keeps (e : State) (other : t ≠ k) : (e.resumed c k).Keeps e c t := (State.keeps_setThr _ other _).trans (e.clearNotice_keeps other)

theorem State.started_status (e : State) (c : CoreId) (k : ThreadId) (sup pc : Nat) : (e.started c k sup pc).tf wstat_LEVEL c k = sup % 2 ∧
    (e.started c k sup pc).tf wstat_EXL c k = 0 ∧ (e.started c k sup pc).tf wstat_IE c k = 0 ∧
    (e.started c k sup pc).tf wstat_WORLD c k = e.tf wstat_WORLD c k := by
  have world : (e.clearNotice c k).tf wstat_WORLD c k = e.tf wstat_WORLD c k := by
    rw [State.tf_eq_bitsOf, (e.clearNotice_leaves c k).2 _ _ (by decide), State.tf_eq_bitsOf]
  unfold State.started
  simp (disch := decide) only [State.tf_setThr, State.tf_setTf_beside, State.tf_setTf_same, world, and_true]
  exact ⟨rfl, rfl, rfl⟩

theorem tstart_starts (runs : s.Runs c t w.g) (h : s.Settled c t) (named : w.c.toNat = k) (other : k ≠ t) (sup : (s.reads c t).level c t = 1)
    (world : (s.reads c t).world c k = (s.reads c t).world c t) (start : w.b = 0) (aligned : ((s.reads c t).x c t w.a).toNat % 4 = 0)
    (stopped : ((s.reads c t).thr c k).st = .stopped) : Completes (.tstart c t w) s (fun u => (u.thr c k).st = .ready ∧
      (u.thr c k).pc = ((s.reads c t).x c t w.a).toNat % 65536 ∧ u.level c k = 0 ∧ u.tf wstat_EXL c k = 0 ∧ u.tf wstat_IE c k = 0 ∧
      u.world c k = (s.reads c t).world c k) := by
  have allowed := State.threadRefusal_none world (need := true) fun _ => Or.inl stopped
  obtain ⟨u, ends, kept⟩ := completes_on_other (i := .tstart c t w) (e := (s.reads c t).started c k 0 (((s.reads c t).x c t w.a).toNat % 65536)) (k := k)
    runs h (by simp [encZ, start, named]) rfl (by simp [State.started, start, nbit, State.supOnly_sup sup, aligned, named, allowed])
    (State.started_keeps _ (Ne.symm other) _ _) other
  obtain ⟨level, exl, ie, same⟩ := (s.reads c t).started_status c k 0 (((s.reads c t).x c t w.a).toNat % 65536)
  refine ⟨u, ends, ?_, ?_, (kept.tf _).trans level, (kept.tf _).trans exl, (kept.tf _).trans ie, (kept.tf _).trans same⟩
  all_goals rw [kept.thr, State.started, State.thr_setThr_same]

theorem tstart_resumes (runs : s.Runs c t w.g) (h : s.Settled c t) (named : w.c.toNat = k) (other : k ≠ t) (sup : (s.reads c t).level c t = 1)
    (world : (s.reads c t).world c k = (s.reads c t).world c t) (resume : w.b = 1) (suspended : ((s.reads c t).thr c k).st = .suspended) :
    Completes (.tstart c t w) s (fun u => (u.thr c k).st = .ready ∧ (u.thr c k).pc = ((s.reads c t).thr c k).pc ∧
      u.treg .wstat c k = (s.reads c t).treg .wstat c k) := by
  have allowed := State.threadRefusal_none world (need := true) fun _ => Or.inr suspended
  obtain ⟨u, ends, kept⟩ := completes_on_other (i := .tstart c t w) (e := (s.reads c t).resumed c k) (k := k) runs h (by simp [encZ, resume, named]) rfl
    (by simp [State.resumed, resume, nbit, State.supOnly_sup sup, named, allowed, suspended]) (State.resumed_keeps _ (Ne.symm other)) other
  obtain ⟨threads, regs⟩ := (s.reads c t).clearNotice_leaves c k
  refine ⟨u, ends, ?_, ?_, ?_⟩
  · rw [kept.thr, State.resumed, State.thr_setThr_same]
  · rw [kept.thr, State.resumed, State.thr_setThr_same, threads]
  · rw [kept.treg, State.resumed, State.treg_setThr, regs _ _ (by decide)]

/-! ### TSTOP (R110) -/

theorem tstop_idle (runs : s.Runs c t w.g) (named : w.c.toNat = k) (other : k ≠ t) (sup : (s.reads c t).level c t = 1)
    (world : (s.reads c t).world c k = (s.reads c t).world c t) (a : w.a = 0) (b : w.b = 0)
    (off : ((s.reads c t).thr c k).st = .stopped ∨ ((s.reads c t).thr c k).st = .suspended) : Does (.tstop c t w) s c t id := by
  have allowed := State.threadRefusal_none world (need := false) (fun h => nomatch h)
  have apart : k.val ≠ t.val := fun same => other (Fin.ext same)
  refine does_of_done runs (by simp [encZ, a, b, named]) rfl ?_
  rcases off with h | h <;> simp [State.supOnly_sup sup, named, allowed, apart, h]

/-- The state in which thread k is asked to stop. -/
def State.askedToStop (e : State) (c k : Nat) : State := e.setThr c k { e.thr c k with stopReq := true }

theorem tstop_waits (runs : s.Runs c t w.g) (h : s.Settled c t) (named : w.c.toNat = k) (other : k ≠ t) (sup : (s.reads c t).level c t = 1)
    (world : (s.reads c t).world c k = (s.reads c t).world c t) (a : w.a = 0) (b : w.b = 0) (ready : ((s.reads c t).thr c k).st = .ready) :
    Completes (.tstop c t w) s (fun u => (u.thr c k).stopReq = true ∧ (u.thr c t).st = .waiting ∧ (u.thr c t).wait = .tstop k) := by
  have allowed := State.threadRefusal_none world (need := false) (fun h => nomatch h)
  have apart : k.val ≠ t.val := fun same => other (Fin.ext same)
  obtain ⟨asked, same⟩ : ∃ q, q = (s.reads c t).askedToStop c k := ⟨_, rfl⟩
  have own : asked.Keeps (s.reads c t) c t := same ▸ State.keeps_setThr _ (Ne.symm other) _
  have waits : (asked.waitOn c t (.tstop k)).thr c t = { asked.thr c t with st := .waiting, wait := .tstop k, waitStart := (asked.core c).cyc } :=
    State.thr_setThr_same ..
  have waiting : (asked.waitOn c t (.tstop k)).Keeps asked c k := State.keeps_setThr _ other _
  obtain ⟨u, ends, rfl⟩ := completes_of_done (i := .tstop c t w) (e := asked.waitOn c t (.tstop k)) runs h (by simp [encZ, a, b, named]) rfl
    (by simp [same, State.askedToStop, State.supOnly_sup sup, named, allowed, apart, ready]) (by rw [waits, own.thr]) ((State.tf_setThr ..).trans (own.tf _))
  obtain ⟨⟨pc, slot, shadow, lc, moved⟩, -, -, -⟩ := (asked.waitOn c t (.tstop k)).goesOn_advanceTo c t ((s.reads c t).thr c t).pc
    (((s.reads c t).thr c t).pc + 4) true
  refine ⟨_, ends, ?_, ?_, ?_⟩
  · rw [((asked.waitOn c t (.tstop k)).keeps_advance other _ _).thr, waiting.thr, same, State.askedToStop, State.thr_setThr_same]
  · rw [State.advance, moved, waits]
  · rw [State.advance, moved, waits]

/-! ### TSET (R108, R112, R225) -/

/-- A register that TSET writes is there once the word has ended. -/
theorem tset_writes (runs : s.Runs c t w.g) (h : s.Settled c t) (named : w.c.toNat = k) (other : k ≠ t) (sup : (s.reads c t).level c t = 1)
    (world : (s.reads c t).world c k = (s.reads c t).world c t) (off : ((s.reads c t).thr c k).st = .stopped ∨ ((s.reads c t).thr c k).st = .suspended)
    {cls : TsetClass} (legal : tsetEnc cls w = []) (own : ((s.reads c t).tset c t k cls w.a.toNat ((s.reads c t).x c t w.b)).Keeps (s.reads c t) c t) :
    Completes (.tset c t cls w) s (fun u => u.Keeps ((s.reads c t).tset c t k cls w.a.toNat ((s.reads c t).x c t w.b)) c k) := by
  have allowed := State.threadRefusal_none world (need := true) fun _ => off
  exact completes_on_other runs h legal rfl (by simp only [State.supOnly_sup sup, named, allowed]) own other

theorem State.tset_scalar (e : State) (c : CoreId) (t k : ThreadId) (a : BitVec 5) (v : Word) : (e.tset c t k .scalar a.toNat v).x c k a = v ∧
    ∀ r, r ≠ a → (e.tset c t k .scalar a.toNat v).x c k r = e.x c k r := by
  have regs : ((e.tset c t k .scalar a.toNat v).thr c k).x = Sparse.set 0 (e.thr c k).x a.toNat v := by
    rw [State.tset, State.landOne_s, State.thr_setThr_same]
    simp
  refine ⟨?_, fun r apart => ?_⟩
  · rw [State.x, regs, Sparse.get_set_same]
  · rw [State.x, regs, Sparse.get_set_other _ _ _ _ (fun same => apart (BitVec.eq_of_toNat_eq same)), State.x]

theorem State.tset_loop (e : State) (c : CoreId) (t k : ThreadId) (a : Nat) (v : Word) : (e.tset c t k .loop a v).lcr c k a = v.toNat % 2 ^ 32 := by
  rw [State.lcr, State.tset, State.landOne, State.thr_setThr_same]
  simp

theorem State.tset_pred (e : State) (c : CoreId) (t k : ThreadId) {a : BitVec 5} (low : a.toNat < 8) (v : Word) :
    (e.tset c t k .pred a.toNat v).pr c k a = decide (v.toNat % 2 = 1) := by
  have set := nbit_replace ((e.thr c k).p.toNat) (v.toNat % 2) low
  rw [Nat.mod_mod] at set
  rw [State.pr, State.tset, State.landOne, State.thr_setThr_same, Nat.mod_eq_of_lt low]
  dsimp only
  rw [BitVec.toNat_ofNat, Nat.mod_mod, set]

/-- TSET of a scalar register, a loop counter or a predicate writes only the thread that it names. -/
theorem State.tset_keeps (e : State) (other : t ≠ k) {cls : TsetClass} (plain : cls ≠ .sreg0 ∧ cls ≠ .sreg2) (a : Nat) (v : Word) :
    (e.tset c t k cls a v).Keeps e c t := by
  obtain ⟨no0, no2⟩ := plain
  cases cls with
  | scalar => exact State.keeps_setThr e other _
  | pred => exact State.keeps_setThr e other _
  | loop => exact State.keeps_setThr e other _
  | sreg0 => exact absurd rfl no0
  | sreg2 => exact absurd rfl no2

/-! ### State registers that TSET writes -/

theorem sregAt_wtimeout : sregAt 3 = some (.wtimeout, 0) := by decide +kernel

theorem sregAt_rspill : sregAt 0x2A = some (.rspill, 0) := by decide +kernel

/-- TSET of wtimeout (R225). -/
theorem State.tset_wtimeout (e : State) (c t k : Nat) (v : Word) : e.tset c t k .sreg0 3 v =
    e.setTreg .wtimeout c k (withBits (withBits (e.treg .wtimeout c k) 31 31 (bitsOf v 31 31)) 23 0 (bitsOf v 23 0)) := by
  have named : (tsetReg .sreg0 3).bind sregAt = some (.wtimeout, 0) := sregAt_wtimeout
  rw [State.tset, named]
  rfl

/-- TSET of rspill (R225). -/
theorem State.tset_rspill (e : State) (c t k : Nat) (v : Word) : e.tset c t k .sreg2 0x0A v =
    e.setTreg .rspill c k (withBits (e.treg .rspill c k) 17 3 (bitsOf v 17 3)) := by
  have named : (tsetReg .sreg2 0x0A).bind sregAt = some (.rspill, 0) := sregAt_rspill
  rw [State.tset, named]
  rfl

theorem State.tset_wtimeout_en (e : State) (c : CoreId) (t k : ThreadId) (v : Word) :
    (e.tset c t k .sreg0 3 v).tf wtimeout_EN c k = v.toNat / 2 ^ 31 % 2 := by
  rw [State.tset_wtimeout, State.tf_eq_bitsOf]
  simp only [wtimeout_EN]
  rw [State.treg_setTreg_same, bitsOf_withBits_other _ _ _ _ _ _ (by decide) (by decide) (by decide) (by decide),
    bitsOf_withBits_same _ _ _ _ (by decide) (by decide), bitsOf, Nat.shiftRight_eq_div_pow]
  simp

theorem State.tset_rspill_ptr (e : State) (c : CoreId) (t k : ThreadId) (v : Word) :
    (e.tset c t k .sreg2 0x0A v).tf rspill_PTR c k = v.toNat / 8 % 2 ^ 15 := by
  rw [State.tset_rspill, State.tf_eq_bitsOf]
  simp only [rspill_PTR]
  rw [State.treg_setTreg_same, bitsOf_withBits_same _ _ _ _ (by decide) (by decide), bitsOf, Nat.shiftRight_eq_div_pow]
  simp

end

end Sys2Proof.Machine
end

section
/-!
SUPPORT and O17. The words that move entries of the return stack to and from own scratch, RSPILL and RSFILL (R97), and the statement.
-/
namespace Sys2Proof.Machine

/-! ### A write of bank bytes in code words without error -/

section
variable {e : State} {c : CoreId} {off n : Nat}

theorem State.readLE_congr {u : State} (same : u.mem = e.mem) (a n : Nat) : u.readLE a n = e.readLE a n := by
  have byte (x : Nat) : u.byte x = e.byte x := by rw [State.byte, same, State.byte]
  induction n generalizing a with
  | zero => rfl
  | succ n ih => rw [State.readLE, State.readLE, byte, ih]

/-- A mask of all bytes writes them all. -/
theorem State.writeMask_full (e : State) (a n v : Nat) : e.writeMask a n (2 ^ n - 1) v = e.writeLE a n v := by
  induction n generalizing e a v with
  | zero => rfl
  | succ n ih =>
    have pos : 0 < 2 ^ n := Nat.two_pow_pos n
    have first : (2 ^ (n + 1) - 1) % 2 = 1 := by omega
    have rest : (2 ^ (n + 1) - 1) / 2 = 2 ^ n - 1 := by omega
    rw [State.writeMask, if_pos first, rest, ih, State.writeLE]

theorem State.writeMask_regs (e : State) (a n mask v : Nat) : (e.writeMask a n mask v).regs = e.regs := by
  induction n generalizing e a mask v with
  | zero => rfl
  | succ n ih =>
    rw [State.writeMask, ih]
    split <;> rfl

theorem State.wroteWords_leave (l : List Nat) (e : State) :
    (l.foldl (fun s o => s.wroteWord c o) e).mem = e.mem ∧ (l.foldl (fun s o => s.wroteWord c o) e).regs = e.regs := by
  induction l generalizing e with
  | nil => exact ⟨rfl, rfl⟩
  | cons o l ih =>
    obtain ⟨mem, regs⟩ := ih (e.wroteWord c o)
    exact ⟨mem, regs⟩

/-- A whole write of bank bytes changes those bytes of memory, no thread and no register. -/
theorem State.bankPut_full (e : State) (c : CoreId) (off n v : Nat) :
    (e.bankPut c off n (2 ^ n - 1) v).mem = (e.writeLE (bankAddr c off) n v).mem ∧ (e.bankPut c off n (2 ^ n - 1) v).regs = e.regs ∧
      ∀ j : Nat, (e.bankPut c off n (2 ^ n - 1) v).thr c j = e.thr c j := by
  obtain ⟨mem, regs⟩ := State.wroteWords_leave (c := c) (wordsOf off n) (e.writeMask (bankAddr c off) n (2 ^ n - 1) v)
  refine ⟨mem.trans (by rw [State.writeMask_full]), regs.trans (State.writeMask_regs ..), fun j => ?_⟩
  rw [State.thr, State.threadsAs_bankPut, State.thr]

/-- A write of bank bytes in code words without error is carried out (R234). -/
theorem State.bankWrite_clean (pos : 0 < n) (clean : ∀ i < n, e.pat (bankAddr c off + i) = 0) (mask v : Nat) :
    e.bankWrite c off n mask v = (true, e.bankPut c off n mask v) := by
  have read := State.bankRead_clean pos clean
  unfold State.bankRead at read
  dsimp only at read
  split at read
  · exact absurd (congrArg Prod.fst read) (fun h => nomatch h)
  · next sound =>
    have same : e.readWords c off n = e := congrArg Prod.snd read
    rw [State.bankWrite, if_neg sound, same]

end

/-! ### RSPILL and RSFILL -/

/-- The state with a thread's return stack, spill pointer and count of spilled entries replaced. -/
def State.movesStack (m : State) (c t ptr held : Nat) (stack : List Nat) : State :=
  let q := (m.setTf rspill_PTR c t ptr).setTf rstat_SPILLED c t held
  q.setThr c t { q.thr c t with rstack := stack }

section
variable {s e : State} {c : CoreId} {t : ThreadId} {w : LR}

/-- The slots of a return stack's spill region are words of one code word each. -/
theorem State.slot_clean {lo : Nat} (clean : e.pat (bankAddr c (lo * 8)) = 0) : ∀ i < 8, e.pat (bankAddr c (lo * 8) + i) = 0 := by
  intro i low
  have same : (bankAddr c (lo * 8) + i) / 32 = bankAddr c (lo * 8) / 32 := by unfold bankAddr; omega
  rw [State.pat, same]
  exact clean

/-- A word that ends with its thread's return stack moved. -/
theorem completes_movesStack {i : Instr} {g : BitVec 4} {enc : List Nat} {body : State → Fx} {m : State} {ptr held : Nat} {stack : List Nat}
    (runs : s.Runs c t g) (h : s.Settled c t) (legal : enc = []) (word : exec i s = .next (s.issue c t g enc false false body))
    (done : body (s.reads c t) = .done (m.movesStack c t ptr held stack)) (thr : m.thr c t = (s.reads c t).thr c t) (regs : m.regs = (s.reads c t).regs)
    (low : ptr < 2 ^ 15) (few : held < 2 ^ 32) : Completes i s (fun u => (u.thr c t).rstack = stack ∧ u.tf rspill_PTR c t = ptr ∧
      u.tf rstat_SPILLED c t = held ∧ u.mem = m.mem) := by
  have moved : (m.movesStack c t ptr held stack).thr c t = { m.thr c t with rstack := stack } := by
    simp only [State.movesStack, State.thr_setThr_same, State.thr_setTf]
  have single : (m.movesStack c t ptr held stack).tf dstat_SS c t = (s.reads c t).tf dstat_SS c t := by
    simp (disch := decide) only [State.movesStack, State.tf_setThr, State.tf_setTf_other]
    exact State.tf_congr regs _ c t
  have pointer : (m.movesStack c t ptr held stack).tf rspill_PTR c t = ptr := by
    simp (disch := decide) only [State.movesStack, State.tf_setThr, State.tf_setTf_other, State.tf_setTf_same]
    exact Nat.mod_eq_of_lt low
  have count : (m.movesStack c t ptr held stack).tf rstat_SPILLED c t = held := by
    simp (disch := decide) only [State.movesStack, State.tf_setThr, State.tf_setTf_same]
    exact Nat.mod_eq_of_lt few
  have memory : (m.movesStack c t ptr held stack).mem = m.mem := by
    simp only [State.movesStack, State.setThr, State.setTf, State.setCore_mem, State.setFld_mem]
  obtain ⟨u, ends, rfl⟩ := completes_of_done runs h legal word done (by rw [moved, thr]) single
  obtain ⟨⟨pc, slot, shadow, lc, place⟩, -, treg, only⟩ := (m.movesStack c t ptr held stack).goesOn_advanceTo c t ((s.reads c t).thr c t).pc
    (((s.reads c t).thr c t).pc + 4) true
  refine ⟨_, ends, ?_, ?_, ?_, only.memory.1.trans memory⟩
  · rw [State.advance, place, moved]
  · rw [State.advance, State.tf_eq_bitsOf, treg _ (by decide), ← State.tf_eq_bitsOf, pointer]
  · rw [State.advance, State.tf_eq_bitsOf, treg _ (by decide), ← State.tf_eq_bitsOf, count]

theorem State.slotsCheck_one {lo : Nat} (allowed : e.worldCheck c (lo * 8) (e.who c t) = none) : e.slotsCheck c t lo 1 = none := by
  rw [State.slotsCheck, Nat.add_sub_cancel, allowed]
  rfl

theorem State.spillSlots_one {lo : Nat} (inside : lo + 1 ≤ 0x8000) (free : e.tf rsreg_EN c t = 0) : e.spillSlots c t lo 1 = true := by
  simp [State.spillSlots, inside, free]

/-- RSPILL of one entry moves the oldest to the slot at the spill pointer. -/
theorem rspill_moves {lo a : Nat} {rest : List Nat} (runs : s.Runs c t w.g) (h : s.Settled c t) (b : w.b = 0) (z : w.c = 0)
    (sup : (s.reads c t).level c t = 1) (free : (s.reads c t).tf rsreg_EN c t = 0) (ptr : (s.reads c t).tf rspill_PTR c t = lo) (inside : lo + 1 ≤ 0x8000)
    (low : lo + 1 < 2 ^ 15) (few : (s.reads c t).tf rstat_SPILLED c t + 1 < 2 ^ 32) (clean : (s.reads c t).pat (bankAddr c (lo * 8)) = 0)
    (allowed : (s.reads c t).worldCheck c (lo * 8) ((s.reads c t).who c t) = none) (own : (s.reads c t).spillForeign c t (lo * 8) 8 = false)
    (stack : ((s.reads c t).thr c t).rstack = rest ++ [a]) (address : a < 65536) : Completes (.rspill c t w) s (fun u => (u.thr c t).rstack = rest ∧
      u.readLE (bankAddr c (lo * 8)) 8 = a ∧ u.tf rspill_PTR c t = lo + 1 ∧ u.tf rstat_SPILLED c t = (s.reads c t).tf rstat_SPILLED c t + 1 ∧
      ∀ x, x < bankAddr c (lo * 8) ∨ bankAddr c (lo * 8) + 8 ≤ x → u.byte x = (s.reads c t).byte x) := by
  have imm : immBC w = 0 := by rw [immBC, b, z]; rfl
  obtain ⟨mem, regs, threads⟩ := (s.reads c t).bankPut_full c (lo * 8) 8 a
  have write : (s.reads c t).bankWrite c (lo * 8) 8 0xFF a = (true, (s.reads c t).bankPut c (lo * 8) 8 (2 ^ 8 - 1) a) :=
    State.bankWrite_clean (by decide) (State.slot_clean clean) 0xFF a
  have count : ((s.reads c t).bankPut c (lo * 8) 8 (2 ^ 8 - 1) a).tf rstat_SPILLED c t = (s.reads c t).tf rstat_SPILLED c t :=
    State.tf_congr regs _ c t
  obtain ⟨u, ends, left, pointer, spilled, after⟩ := completes_movesStack (i := .rspill c t w) (ptr := lo + 1)
    (held := ((s.reads c t).bankPut c (lo * 8) 8 (2 ^ 8 - 1) a).tf rstat_SPILLED c t + 1) (stack := rest)
    runs h (by simp [encZ, imm]) rfl (by
      obtain ⟨put, same⟩ : ∃ f, f = State.bankWrite := ⟨_, rfl⟩
      rw [← same] at write ⊢
      simp only [imm, stack, ptr, List.length_append, List.length_singleton, State.supOnly_sup sup, Nat.zero_add, State.spillSlots_one inside free,
        State.slotsCheck_one allowed, own, Nat.mul_one]
      simp [write, State.movesStack]) (threads t) regs low (by rw [count]; exact few)
  have written : u.mem = ((s.reads c t).writeLE (bankAddr c (lo * 8)) 8 a).mem := after.trans mem
  refine ⟨u, ends, left, ?_, pointer, spilled.trans (by rw [count]), fun x out => ?_⟩
  · rw [State.readLE_congr written, State.readLE_writeLE]
    exact Nat.mod_eq_of_lt (lt_trans address (by decide))
  · rw [State.byte, written]
    exact State.writeLE_other _ _ _ _ _ out

/-- The functions are put behind variables first: where a match on the read is unfolded, the kernel would evaluate the bank's address. -/
theorem State.readSlots_one {lo : Nat} (clean : e.pat (bankAddr c (lo * 8)) = 0) :
    e.readSlots c lo 1 = ([e.readLE (bankAddr c (lo * 8)) 8 % 65536 / 4 * 4], e) := by
  have one := State.bankRead_clean (by decide) (State.slot_clean clean)
  obtain ⟨slots, body⟩ : ∃ f, f = State.readSlots := ⟨_, rfl⟩
  obtain ⟨read, same⟩ : ∃ f, f = State.bankRead := ⟨_, rfl⟩
  rw [← body]
  delta State.readSlots State.readSlots._f at body
  rw [← same] at one body
  rw [body]
  show (match read e c (lo * 8) 8 with
    | (some v, u) => ([v % 65536 / 4 * 4], u)
    | (none, u) => ([u.free.1 % 65536 / 4 * 4], u.free.2)) = _
  rw [one]

/-- RSFILL of one entry brings back the one below the spill pointer, as the oldest. -/
theorem rsfill_moves {lo : Nat} (runs : s.Runs c t w.g) (h : s.Settled c t) (b : w.b = 0) (z : w.c = 0) (sup : (s.reads c t).level c t = 1)
    (free : (s.reads c t).tf rsreg_EN c t = 0) (ptr : (s.reads c t).tf rspill_PTR c t = lo + 1) (inside : lo + 1 ≤ 0x8000)
    (spilled : 0 < (s.reads c t).tf rstat_SPILLED c t) (room : ((s.reads c t).thr c t).rstack.length < 16)
    (clean : (s.reads c t).pat (bankAddr c (lo * 8)) = 0) (allowed : (s.reads c t).worldCheck c (lo * 8) ((s.reads c t).who c t) = none) :
    Completes (.rsfill c t w) s (fun u =>
      (u.thr c t).rstack = ((s.reads c t).thr c t).rstack ++ [(s.reads c t).readLE (bankAddr c (lo * 8)) 8 % 65536 / 4 * 4] ∧
      u.tf rspill_PTR c t = lo ∧ u.tf rstat_SPILLED c t = (s.reads c t).tf rstat_SPILLED c t - 1 ∧ u.mem = (s.reads c t).mem) := by
  have imm : immBC w = 0 := by rw [immBC, b, z]; rfl
  have count : (s.reads c t).tf rstat_SPILLED c t < 2 ^ 32 := bitsOf_lt _ _ _
  have deep : (decide (16 < ((s.reads c t).thr c t).rstack.length + 1) || decide ((s.reads c t).tf rstat_SPILLED c t < 1)) = false := by
    rw [Bool.or_eq_false_iff, decide_eq_false_iff_not, decide_eq_false_iff_not]
    omega
  exact completes_movesStack (i := .rsfill c t w) runs h (by simp [encZ, imm]) rfl (by
    simp only [imm, ptr, Nat.zero_add, State.supOnly_sup sup, Nat.add_sub_cancel, State.spillSlots_one inside free, State.slotsCheck_one allowed,
      State.readSlots_one clean, deep]
    simp [State.movesStack]) rfl rfl (by omega) (by omega)

end

/-- Settles O17. The other thread is as the operation leaves it, because what follows the word changes only the word's own thread; a spilled entry is a word
of one code word, and RSFILL keeps of what it reads the bits of a word address below 64 KiB (notes/assumptions/102.md). -/
theorem threadControlAndSpillWordsComplete : Obligations.ThreadControlAndSpillWordsComplete := by
  refine ⟨fun c t w s k runs h named small other => ?_, fun c t w s a rest runs h b z => ?_⟩
  · intro e sup world
    obtain ⟨k, rfl⟩ : ∃ j : ThreadId, k = j := ⟨⟨k, small⟩, rfl⟩
    have apart : k ≠ t := fun same => other (congrArg Fin.val same)
    have valid : w.c.toNat < 8 := named ▸ small
    refine ⟨fun start aligned stopped => tstart_starts runs h named apart sup world start aligned stopped,
      fun resume suspended => tstart_resumes runs h named apart sup world resume suspended, fun a b off => tstop_idle runs named apart sup world a b off,
      fun a b ready => tstop_waits runs h named apart sup world a b ready, fun off => ⟨?_, fun low => ?_, fun low => ?_, fun reg => ?_, fun reg => ?_⟩⟩
    · refine (tset_writes runs h named apart sup world off (cls := .scalar) (by simp [tsetEnc, encZ, valid]) (e.tset_keeps apart.symm (by decide) _ _)).imp
        fun u kept => ?_
      obtain ⟨same, rest⟩ := e.tset_scalar c t k w.a (e.x c t w.b)
      exact ⟨(kept.x _).trans same, fun r n => (kept.x r).trans (rest r n)⟩
    · exact (tset_writes runs h named apart sup world off (cls := .loop) (by simp [tsetEnc, encZ, valid, low]) (e.tset_keeps apart.symm (by decide) _ _)).imp
        fun u kept => (kept.lcr _).trans (e.tset_loop c t k _ _)
    · exact (tset_writes runs h named apart sup world off (cls := .pred) (by simp [tsetEnc, encZ, valid, low]) (e.tset_keeps apart.symm (by decide) _ _)).imp
        fun u kept => (kept.pr _).trans (e.tset_pred c t k low _)
    · refine (tset_writes runs h named apart sup world off (cls := .sreg0) (by simp [tsetEnc, tsetReg, encZ, valid, reg])
        (by rw [reg, State.tset_wtimeout]; exact State.keeps_setTreg _ apart.symm _ _)).imp fun u kept => (kept.tf _).trans ?_
      rw [reg]
      exact e.tset_wtimeout_en c t k _
    · refine (tset_writes runs h named apart sup world off (cls := .sreg2) (by simp [tsetEnc, tsetReg, encZ, valid, reg])
        (by rw [reg, State.tset_rspill]; exact State.keeps_setTreg _ apart.symm _ _)).imp fun u kept => (kept.tf _).trans ?_
      rw [reg]
      exact e.tset_rspill_ptr c t k _
  · intro e lo held sup free
    constructor
    · rw [Nat.mul_comm 8 lo]
      exact fun inside low few clean allowed own stack address => rspill_moves runs h b z sup free rfl inside low few clean allowed own stack address
    · intro above inside spilled room
      obtain ⟨p, ptr⟩ : ∃ p, lo = p + 1 := ⟨lo - 1, by omega⟩
      rw [ptr, Nat.add_sub_cancel, Nat.mul_comm 8 p]
      exact fun clean allowed => rsfill_moves runs h b z sup free ptr (ptr ▸ inside) spilled room clean allowed

end Sys2Proof.Machine
end

section
/-!
SUPPORT and O29. Stops, notices, interrupts, timers, stalemates, timeouts and wakes, as events that reach a thread between its words.
-/
namespace Sys2Proof.Machine

/-! ### What entering a vector leaves of the core and of its lines -/

section
variable {e : State} {c : CoreId} {t : ThreadId} {vec det status from_ mode : Nat} {addr : Word}

theorem State.core_savesEntry (q : State) (epc estat ecause eaddr emode : Word) : (q.savesEntry c t vec epc estat ecause eaddr emode).core c = q.core c := by
  unfold State.savesEntry
  split <;> simp only [State.core_setTf, State.core_setTreg]

theorem State.ipend_savesEntry (q : State) (epc estat ecause eaddr emode : Word) :
    (q.savesEntry c t vec epc estat ecause eaddr emode).reg .ipend c 0 = q.reg .ipend c 0 := by
  have tf (s : State) (f : Field) (n : Nat) (apart : f.reg ≠ .ipend) : (s.setTf f c t n).reg .ipend c 0 = s.reg .ipend c 0 :=
    State.reg_setReg_other s _ (by omega) (by omega) (by omega) (by omega) (fun h => apart h.1.symm)
  have treg (s : State) (r : RegName) (w : Word) (apart : r ≠ .ipend) : (s.setTreg r c t w).reg .ipend c 0 = s.reg .ipend c 0 :=
    State.reg_setReg_other s _ (by omega) (by omega) (by omega) (by omega) (fun h => apart h.1.symm)
  unfold State.savesEntry
  split <;> simp (disch := decide) only [tf, treg]

theorem State.enter_core (plain : e.Plain c t) : ∃ l, (e.enter c t vec det addr status 0).core c = { e.core c with threads := l } := by
  rw [State.enter_plain plain, State.core_setThr_same, State.core_savesEntry, State.core_setThr_same]
  exact ⟨_, rfl⟩

theorem State.enter_ipend (plain : e.Plain c t) : (e.enter c t vec det addr status 0).reg .ipend c 0 = e.reg .ipend c 0 := by
  rw [State.enter_plain plain, State.reg_setThr, State.ipend_savesEntry, State.reg_setThr]

theorem State.Entered.epcAddr {u : State} (h : u.Entered c t vec det status from_ mode addr) : u.tf epc_ADDR c t = from_ / 4 % 2 ^ 14 := by
  have saved : u.treg epc_ADDR.reg c t = BitVec.ofNat 64 (from_ % 65536) := h.epc
  rw [State.tf_eq_bitsOf, saved]
  simp only [epc_ADDR, bitsOf, BitVec.toNat_ofNat, Nat.shiftRight_eq_div_pow]
  omega

theorem State.plain_of {h : Thread} (own : e.thr c t = h) (slot : h.slot = none) (shadow : h.shadow = 0) (landed : h.flight = []) : e.Plain c t :=
  ⟨by rw [own, slot], by rw [own, shadow], by rw [own, landed]⟩

/-- An exception of none of the vectors 1 to 6, 8, 12 and 15 is taken by the thread itself while its EXL is 0 (R118, R123). -/
theorem State.raise_itself (taken : e.tf wstat_EXL c t = 0) (high : 5 < vec) (plainVec : vec ≠ 6 ∧ vec ≠ 8 ∧ vec ≠ 12 ∧ vec ≠ 15) :
    e.raise c t vec det addr status = e.enter c t vec det addr status 0 := by
  obtain ⟨six, eight, twelve, fifteen⟩ := plainVec
  simp only [State.raise]
  rw [if_neg (by simp [six, fifteen]), if_neg (by omega), if_neg (by simp [eight]), if_neg (by simp [twelve]; omega)]

end

/-! ### A wait that ends early (R136) -/

/-- The thread back at its waiting word, with no wait. -/
def Thread.backAtWait (h : Thread) : Thread :=
  { h with pc := h.snap.pc, slot := h.snap.slot, shadow := h.snap.shadow, lc := h.snap.lc, wait := .none, armed := false, poll := false }

section
variable {s e : State} {c : CoreId} {t : ThreadId} {vec det : Nat}

theorem State.abandon_sleep (asleep : (s.thr c t).wait = .sleep) :
    (s.abandon c t false).thr c t = (s.thr c t).backAtWait ∧ (∀ f : Field, f.reg ≠ .lstat → (s.abandon c t false).tf f c t = s.tf f c t) ∧
      ∃ l, (s.abandon c t false).core c = { s.core c with threads := l } := by
  unfold State.abandon
  simp only [asleep, reduceCtorEq, decide_false, Bool.and_false, Bool.or_false, Bool.false_eq_true, if_false, State.restoreCtx]
  refine ⟨?_, fun f apart => ?_, ?_⟩
  · simp only [State.thr_setThr_same, State.thr_setTf]
    rfl
  · rw [State.tf_setThr, State.tf_setTf_other _ _ _ apart, State.tf_setThr]
  · simp only [State.core_setThr_same, State.core_setTf]
    exact ⟨_, rfl⟩

/-- A thread that is put back at its SLEEP takes an exception there: it stands at the vector's entry with the SLEEP as its return address. -/
theorem State.raise_backAtWait {h : Thread} (back : e.thr c t = h.backAtWait) (slot : h.snap.slot = none) (shadow : h.snap.shadow = 0) (landed : h.flight = [])
    (taken : e.tf wstat_EXL c t = 0) (high : 5 < vec) (plainVec : vec ≠ 6 ∧ vec ≠ 8 ∧ vec ≠ 12 ∧ vec ≠ 15) :
    let u := e.raise c t vec det 0 0
    (u.thr c t).st = .ready ∧ (u.thr c t).pc = 16 * vec ∧ u.tf epc_ADDR c t = h.snap.pc / 4 % 2 ^ 14 ∧ ∃ l, u.core c = { e.core c with threads := l } := by
  have plain : e.Plain c t := State.plain_of back slot shadow landed
  have entered := State.enter_entered (vec := vec) (det := det) (status := 0) (addr := 0) plain
  have pc : (e.thr c t).pc = h.snap.pc := by rw [back]; rfl
  rw [pc] at entered
  rw [State.raise_itself taken high plainVec]
  exact ⟨entered.ready, entered.pc, entered.epcAddr, State.enter_core plain⟩

/-- A wait timeout of a Tenant thread is counted (R136, R559): no thread and no status register changes. -/
theorem State.timeout_keeps (e : State) (c : CoreId) (t : ThreadId) :
    let u := if e.world c t = 0 then e.bump DET_CNT_TIMEOUT c 0 else e
    u.thr c t = e.thr c t ∧ u.tf wstat_EXL c t = e.tf wstat_EXL c t := by
  dsimp only
  split
  · exact ⟨State.thr_setFld .., State.fld_setFld_other e DET_CNT_TIMEOUT wstat_EXL _ _ _ _ _ _ _ (by omega) (by omega) (by omega) (by omega)
      (by simp [DET_CNT_TIMEOUT, wstat_EXL])⟩
  · exact ⟨rfl, rfl⟩

theorem State.clockTo_past {now : Nat} (past : now ≤ (s.core c).cyc) : s.clockTo c now = s := if_pos past

end

/-! ### A stop that is due (R110) -/

section
variable {s : State} {c : CoreId} {t : ThreadId}

theorem State.stopDone_unawaited {k : Nat} (unawaited : ∀ j : Nat, (s.thr c j).wait ≠ .tstop k) : s.stopDone c k = s :=
  State.foldl_threads_idle fun j _ => if_neg (unawaited j)

/-- Landing and leaving a wait change nothing for a thread with nothing in flight and no wait. -/
theorem State.abandon_idle (noWait : (s.thr c t).wait = .none) (landed : (s.thr c t).flight = []) :
    ((s.landAll c t).abandon c t false).thr c t = { s.thr c t with wait := .none, armed := false, poll := false } ∧
      ∀ j : Nat, j ≠ t → ((s.landAll c t).abandon c t false).thr c j = s.thr c j := by
  rw [State.landAll_nothing landed]
  unfold State.abandon
  simp only [State.thr_setThr_same, noWait, decide_true, Bool.true_or, if_true, true_and]
  exact fun j other => by rw [State.thr_setThr_other _ _ _ other, State.thr_setThr_other _ _ _ other]

/-- A thread with no wait is suspended at its boundary: its record shows the place, and vector 0. -/
theorem State.suspend_plain (noWait : (s.thr c t).wait = .none) (plain : s.Plain c t) (unawaited : ∀ j : Nat, (s.thr c j).wait ≠ .tstop t) :
    ((s.suspend c t).thr c t).st = .suspended ∧ ((s.suspend c t).thr c t).stopReq = false ∧
      (s.suspend c t).treg .tfpc c t = BitVec.ofNat 64 ((s.thr c t).pc % 65536) ∧ (s.suspend c t).treg .tfcause c t = 0 := by
  obtain ⟨own, others⟩ := State.abandon_idle noWait plain.landed
  unfold State.suspend
  generalize (s.landAll c t).abandon c t false = q at own others
  have undone : q.undoSlot c t = (false, q) := State.undoSlot_none (by rw [own]; exact plain.noSlot)
  have place : (q.thr c t).pc = (s.thr c t).pc ∧ (q.thr c t).shadow = 0 := by
    rw [own]
    exact ⟨rfl, plain.noShadow⟩
  dsimp only
  rw [State.stopDone_unawaited]
  · simp (disch := decide) [undone, place, State.treg_setTreg_other]
  · intro j
    by_cases same : j = t
    · rw [same, State.thr_setThr_same]
      exact fun h => nomatch h
    · rw [State.thr_setThr_other _ _ _ same, undone]
      simp only [State.thr_setTreg, others j same]
      exact unawaited j

end

/-! ### Lines and wakes (R119, R133, R226) -/

theorem State.setLine_pending (s : State) (c : Nat) {line : Nat} (low : line < 64) : ((s.setLine c line).reg .ipend c 0).toNat / 2 ^ line % 2 = 1 := by
  have set := nbit_replace (s.reg .ipend c 0).toNat 1 low
  rw [nbit, Nat.shiftRight_eq_div_pow, Nat.one_mod, Nat.one_mul] at set
  rw [State.setLine, State.reg_setReg_same, BitVec.toNat_ofNat, set]

/-- What a wake does to one thread: it ends the thread's SLEEP where the mask names the thread. -/
def State.wakeOne (c mask : Nat) (s : State) (t : Nat) : State :=
  let h := s.thr c t
  if nbit mask t = 0 || h.wait ≠ .sleep then s
  else match h.st with
    | .sleeping => s.ready c t
    | .halted => s.setThr c t { h with heldWake := some 0 }
    | _ => s

theorem State.wakeNotify_eq (s : State) (c mask : Nat) : s.wakeNotify c mask = (List.range 8).foldl (State.wakeOne c mask) (s.setLine c 4) := rfl

section
variable {s : State} {c mask : Nat}

/-- A wake changes at most the thread that it is for. -/
theorem State.wakeOne_frame (s : State) (c mask j : Nat) : (State.wakeOne c mask s j).regs = s.regs ∧
    ∀ t, t ≠ j → (State.wakeOne c mask s j).thr c t = s.thr c t := by
  have other (h : Thread) : (s.setThr c j h).regs = s.regs ∧ ∀ t, t ≠ j → (s.setThr c j h).thr c t = s.thr c t :=
    ⟨rfl, fun t apart => State.thr_setThr_other s c h apart⟩
  unfold State.wakeOne
  dsimp only
  split
  · exact ⟨rfl, fun _ _ => rfl⟩
  · split
    · exact other _
    · exact other _
    · exact ⟨rfl, fun _ _ => rfl⟩

theorem State.wakeOne_idle {j : Nat} (awake : (s.thr c j).wait ≠ .sleep) : State.wakeOne c mask s j = s := if_pos (by simp [awake])

theorem State.wakeOne_named {t : Nat} (named : nbit mask t = 1) (asleep : (s.thr c t).st = .sleeping) (sleep : (s.thr c t).wait = .sleep) :
    State.wakeOne c mask s t = s.ready c t := by
  unfold State.wakeOne
  simp only [named, sleep, asleep]
  rfl

theorem State.wakeAll_regs (l : List Nat) (s : State) : (l.foldl (State.wakeOne c mask) s).regs = s.regs := by
  induction l generalizing s with
  | nil => rfl
  | cons j l ih => rw [List.foldl_cons, ih, (s.wakeOne_frame c mask j).1]

/-- A thread without a wait is left alone by every wake. -/
theorem State.wakeAll_awake {t : Nat} (l : List Nat) (awake : (s.thr c t).wait = .none) : (l.foldl (State.wakeOne c mask) s).thr c t = s.thr c t := by
  induction l generalizing s with
  | nil => rfl
  | cons j l ih =>
    have kept : (State.wakeOne c mask s j).thr c t = s.thr c t := by
      by_cases own : t = j
      · rw [State.wakeOne_idle (by rw [← own, awake]; decide)]
      · exact (s.wakeOne_frame c mask j).2 t own
    rw [List.foldl_cons, ih (by rw [kept, awake]), kept]

/-- A sleeping thread that the mask names is READY once the wakes have come to it. -/
theorem State.wakeAll_named {t : Nat} {l : List Nat} (m : t ∈ l) (named : nbit mask t = 1) (asleep : (s.thr c t).st = .sleeping)
    (sleep : (s.thr c t).wait = .sleep) : ((l.foldl (State.wakeOne c mask) s).thr c t).st = .ready := by
  induction l generalizing s with
  | nil => exact absurd m List.not_mem_nil
  | cons j l ih =>
    rw [List.foldl_cons]
    by_cases own : t = j
    · subst own
      have ready : ((s.ready c t).thr c t).st = .ready ∧ ((s.ready c t).thr c t).wait = .none := by
        rw [State.ready, State.thr_setThr_same]
        exact ⟨rfl, rfl⟩
      rw [State.wakeOne_named named asleep sleep, State.wakeAll_awake l ready.2, ready.1]
    · have kept := (s.wakeOne_frame c mask j).2 t own
      exact ih ((List.mem_cons.1 m).resolve_left own) (by rw [kept, asleep]) (by rw [kept, sleep])

end

theorem State.wakeNotify_wakes {s : State} {c mask : Nat} {t : ThreadId} (named : nbit mask t = 1) (asleep : (s.thr c t).st = .sleeping)
    (sleep : (s.thr c t).wait = .sleep) :
    ((s.wakeNotify c mask).thr c t).st = .ready ∧ ((s.wakeNotify c mask).reg .ipend c 0).toNat / 16 % 2 = 1 := by
  have line : (s.wakeNotify c mask).reg .ipend c 0 = (s.setLine c 4).reg .ipend c 0 := by
    rw [State.wakeNotify_eq, State.reg, State.wakeAll_regs, State.reg]
  rw [line]
  exact ⟨State.wakeAll_named (List.mem_range.2 t.isLt) named asleep sleep, s.setLine_pending c (line := 4) (by decide)⟩

/-! ### The events -/

section
variable {s : State} {c : CoreId} {t : ThreadId}

theorem threadSuspend_suspends (due : (s.thr c t).stopReq = true) (ready : (s.thr c t).st = .ready) (noWait : (s.thr c t).wait = .none)
    (plain : s.Plain c t) (unawaited : ∀ j : Nat, (s.thr c j).wait ≠ .tstop t) : Completes (.threadSuspend c t) s (fun u =>
      (u.thr c t).st = .suspended ∧ (u.thr c t).stopReq = false ∧ u.treg .tfpc c t = BitVec.ofNat 64 ((s.thr c t).pc % 65536) ∧
      u.treg .tfcause c t = 0) := by
  refine ⟨_, rfl, ?_⟩
  simp only [due, ready, Bool.not_true, Bool.false_eq_true, if_false, State.thr_setThr_same, State.treg_setThr]
  exact State.suspend_plain noWait plain unawaited

/-- The supervisor thread of the Tenant world takes the one new notice, which is for thread 0 (R124). -/
theorem threadFaultTaken_enters (new : (s.core c).tfnewT = 1) (pending : (s.core c).tfpendT = 1) (sup : s.supOf c 0 = t)
    (taken : s.tf wstat_EXL c t = 0) (ready : (s.thr c t).st = .ready) (plain : s.Plain c t) : Completes (.threadFaultTaken c false) s (fun u =>
      u.Entered c t 32 0 0 (s.thr c t).pc (s.treg .mode c t).toNat 0 ∧ (u.core c).tfnewT = 0) := by
  have first : lowestBit (s.core c).tfnewT.toNat = some 0 := by rw [new]; decide
  have named : lowestBit (s.core c).tfpendT.toNat = some 0 := by rw [pending]; decide
  have cleared : (s.core c).tfnewT &&& ~~~(BitVec.ofNat 8 (2 ^ 0)) = 0 := by rw [new]; decide
  have kept := s.thr_setCore_kept c t (k := { s.core c with tfnewT := 0 }) rfl
  have plain' : (s.setCore c { s.core c with tfnewT := 0 }).Plain c t := State.plain_of kept plain.noSlot plain.noShadow plain.landed
  have entered := State.enter_entered (vec := 32) (det := 0) (status := 0) (addr := 0) plain'
  rw [kept] at entered
  refine ⟨(s.setCore c { s.core c with tfnewT := 0 }).enter c t 32 0 0 0 0, ?_, entered, ?_⟩
  · show execThreadFaultTaken c false s = _
    simp only [execThreadFaultTaken, Bool.false_eq_true, if_false, first, named, cleared, sup, Option.getD_some]
    rw [if_neg (by simp [taken, plain.noSlot, ready]), if_neg (by rw [ready]; decide)]
  · obtain ⟨l, same⟩ := State.enter_core (vec := 32) (det := 0) (status := 0) (addr := 0) plain'
    rw [same, State.core_setCore_same]

/-- The lowest thread that can take a pending line takes it, and the line is pending no more (R120). -/
theorem interruptTaken_enters {line : Fin 32} (above : 1 < line.val) (pending : (s.reg .ipend c 0).toNat / 2 ^ line.val % 2 = 1)
    (can : s.canTake c t line = true) (first : ∀ j : Nat, j < t → s.canTake c j line = false) (ready : (s.thr c t).st = .ready) (plain : s.Plain c t) :
    Completes (.interruptTaken c line) s (fun u => u.Entered c t (32 + line.val) 0 0 (s.thr c t).pc (s.treg .mode c t).toNat 0 ∧
      (u.reg .ipend c 0).toNat = (s.reg .ipend c 0).toNat - 2 ^ line.val) := by
  have found : (List.range 8).find? (fun t => s.canTake c t line.val && (line.val ≠ 1 || (s.thr c t).timerHeld)) = some t.val := by
    rw [List.find?_range_eq_some]
    have notTimer : line.val ≠ 1 := by omega
    exact ⟨by simp [can, notTimer], List.mem_range.2 t.isLt, fun j lower => by simp [first j lower]⟩
  have bit : nbit (s.reg .ipend c 0).toNat line.val = 1 := by rw [nbit, Nat.shiftRight_eq_div_pow, pending]
  have plain' : (s.setReg .ipend c 0 (BitVec.ofNat 64 ((s.reg .ipend c 0).toNat - 2 ^ line.val))).Plain c t := ⟨plain.noSlot, plain.noShadow, plain.landed⟩
  have entered := State.enter_entered (vec := 32 + line.val) (det := 0) (status := 0) (addr := 0) plain'
  have mode : (s.setReg .ipend c 0 (BitVec.ofNat 64 ((s.reg .ipend c 0).toNat - 2 ^ line.val))).treg .mode c t = s.treg .mode c t :=
    State.reg_setReg_other s _ (by omega) (by omega) (by omega) (by omega) (fun h => nomatch h.1)
  rw [mode, State.thr_setReg] at entered
  refine ⟨_, ?_, entered, ?_⟩
  · show execInterruptTaken c line s = _
    have any : ¬ (line.val = 0 ∨ 2 ≤ line.val ∧ nbit (s.reg .ipend c 0).toNat line.val = 0) := by omega
    have notTimer : line.val ≠ 1 := by omega
    simp only [execInterruptTaken]
    rw [if_neg (by simpa using any), found]
    dsimp only
    rw [if_neg notTimer, if_neg (by rw [ready]; decide)]
  · rw [State.enter_ipend plain', State.reg_setReg_same, BitVec.toNat_ofNat]
    exact Nat.mod_eq_of_lt (lt_of_le_of_lt (Nat.sub_le ..) (BitVec.isLt _))

theorem timerFire_fires {now : Word} (armed : s.tf tmcmp_EN c t = 1) (reached : s.tf tmcmp_CMP c t ≤ (s.core c).cyc) (past : now.toNat ≤ (s.core c).cyc) :
    Completes (.timerFire c t now) s (fun u => (u.thr c t).timerHeld = true ∧ u.tf tmcmp_EN c t = 0) := by
  refine ⟨_, rfl, ?_⟩
  simp only [State.clockTo_past past, armed, reached, decide_true, Bool.and_self, if_true, State.thr_setThr_same, State.tf_setThr, true_and]
  exact State.tf_setTf_same s c t (by decide) (by decide) 0

/-- A thread that stalemate or a timeout takes out of its SLEEP. -/
structure State.Sleeps (s : State) (c : CoreId) (t : ThreadId) : Prop where
  asleep : (s.thr c t).st = .sleeping
  sleep : (s.thr c t).wait = .sleep
  slot : (s.thr c t).snap.slot = none
  shadow : (s.thr c t).snap.shadow = 0
  landed : (s.thr c t).flight = []
  taken : s.tf wstat_EXL c t = 0

/-- The world's supervisor thread sleeps with the others: the stalemate is raised on it, once (R135). -/
theorem stalemate_enters (stuck : s.stalemated c 0 = true) (new : (s.core c).stale = []) (sup : s.supOf c 0 = t) (h : s.Sleeps c t) :
    Completes (.stalemate c false) s (fun u => (u.thr c t).st = .ready ∧ (u.thr c t).pc = 144 ∧ (u.core c).stale = [0] ∧
      u.tf epc_ADDR c t = (s.thr c t).snap.pc / 4 % 2 ^ 14) := by
  let noted := s.setCore c { s.core c with stale := [0] }
  have kept : noted.thr c t = s.thr c t := s.thr_setCore_kept c t rfl
  obtain ⟨back, fields, l, core⟩ := State.abandon_sleep (s := noted) (by rw [kept, h.sleep])
  rw [kept] at back
  have here : s.away c t = false := by simp only [State.away, h.asleep]
  obtain ⟨ready, pc, epc, l', entered⟩ := State.raise_backAtWait (vec := 9)
    (det := maskOf 8 (fun t => s.world c t = 0 && (s.thr c t).st = .sleeping)) back h.slot h.shadow h.landed
    ((fields wstat_EXL (by decide)).trans h.taken) (by decide) (by decide)
  refine ⟨_, ?_, ready, pc, ?_, epc⟩
  · show execStalemate c false s = _
    simp only [execStalemate, Bool.false_eq_true, if_false, new, List.contains_nil, stuck, Bool.not_true, Bool.or_self, sup, here, Bool.not_false, if_true]
    rw [show (s.setCore c { s.core c with stale := [0] }).thr c t = s.thr c t from kept, h.asleep]
  · rw [entered, core, State.core_setCore_same]

/-- A SLEEP that has lasted its thread's limit ends in vector 10 (R136). -/
theorem waitTimeout_enters {now : Word} (h : s.Sleeps c t) (on : s.tf wtimeout_EN c t = 1)
    (lasted : s.tf wtimeout_LIMIT c t * 256 ≤ (s.core c).cyc - (s.thr c t).waitStart) (past : now.toNat ≤ (s.core c).cyc) :
    Completes (.waitTimeout c t now) s (fun u => (u.thr c t).st = .ready ∧ (u.thr c t).pc = 160 ∧
      u.tf epc_ADDR c t = (s.thr c t).snap.pc / 4 % 2 ^ 14) := by
  obtain ⟨back, fields, -⟩ := State.abandon_sleep h.sleep
  obtain ⟨same, exl⟩ := (s.abandon c t false).timeout_keeps c t
  obtain ⟨ready, pc, epc, -⟩ := State.raise_backAtWait (vec := 10) (det := 0) (same.trans back) h.slot h.shadow h.landed
    (exl.trans ((fields wstat_EXL (by decide)).trans h.taken)) (by decide) (by decide)
  refine ⟨_, ?_, ready, pc, epc⟩
  show execWaitTimeout c t now s = _
  simp only [execWaitTimeout, State.clockTo_past past, h.asleep, on, lasted, decide_true, Bool.and_self, if_true]

theorem scopeMismatchTaken_enters (held : (s.thr c t).smx ≠ none) (ready : (s.thr c t).st = .ready) (taken : s.tf wstat_EXL c t = 0) (plain : s.Plain c t) :
    Completes (.scopeMismatchTaken c t) s (fun u => u.Entered c t 14 0 0 (s.thr c t).pc (s.treg .mode c t).toNat 0 ∧ (u.thr c t).smx = none) := by
  have own : (s.setThr c t { s.thr c t with smx := none }).thr c t = { s.thr c t with smx := none } := State.thr_setThr_same ..
  have plain' : (s.setThr c t { s.thr c t with smx := none }).Plain c t := State.plain_of own plain.noSlot plain.noShadow plain.landed
  have enters := State.raise_itself (vec := 14) (det := 0) (status := 0) (addr := 0) ((State.tf_setThr ..).trans taken : (s.setThr c t
    { s.thr c t with smx := none }).tf wstat_EXL c t = 0) (by decide) (by decide)
  have entered := State.enter_entered (vec := 14) (det := 0) (status := 0) (addr := 0) plain'
  rw [own, State.treg_setThr] at entered
  refine ⟨_, ?_, entered, ?_⟩
  · show execScopeMismatchTaken c t s = _
    rw [execScopeMismatchTaken, if_pos, enters]
    simp only [Option.isSome_iff_ne_none.2 held, ready, taken, plain.noSlot, Option.isNone_none, decide_true, Bool.and_self]
  · rw [State.enter_thr plain', own]
    rfl

/-- A fence or a seam proxy that absorbs a wake leaves every core's lines alone (R303, R640). -/
theorem State.inward_ipend (s : State) (c : CoreId) (f : State → State) (ahead : s.answeredAhead c = true) :
    (s.inward c f).reg .ipend c 0 = s.reg .ipend c 0 := by
  have counted (q : State) {g : Field} {n : Nat} (low : n < 10368) (apart : g.reg ≠ .ipend) : (q.bump g n 0).reg .ipend c 0 = q.reg .ipend c 0 :=
    State.reg_setReg_other q _ (by omega) (by omega) (by omega) (by omega) (fun h => apart h.1.symm)
  have parcel : coreP c < 10368 := lt_of_le_of_lt (Nat.div_le_self ..) c.isLt
  unfold State.inward
  rw [ahead, Bool.not_true, if_neg Bool.false_ne_true]
  split
  · exact counted s parcel (by decide)
  · unfold State.boundaryCount
    split
    · exact counted _ (Nat.mod_lt _ (by decide)) (by decide)
    · exact counted s c.isLt (by decide)

end

/-- Settles O29: each event meets a thread that is at a boundary or asleep; it then enters its vector, is suspended, or goes on. That the clock of a command
that names a cycle runs on, and what a wait that ends early leaves, are the model's (notes/assumptions/22.md, notes/assumptions/23.md). -/
theorem threadEventsComplete : Obligations.ThreadEventsComplete := by
  intro c t s line now ag mask h mode plain
  have stands : plain → s.Plain c t := fun ⟨slot, shadow, landed⟩ => ⟨slot, shadow, landed⟩
  refine ⟨fun due ready noWait p unawaited => threadSuspend_suspends due ready noWait (stands p) unawaited,
    fun new pending sup taken ready p => threadFaultTaken_enters new pending sup taken ready (stands p),
    fun above pending can first ready p => interruptTaken_enters above pending can first ready (stands p),
    fun armed reached past => timerFire_fires armed reached past,
    fun stuck new sup asleep sleep slot shadow landed taken => stalemate_enters stuck new sup ⟨asleep, sleep, slot, shadow, landed, taken⟩,
    fun asleep sleep on lasted past slot shadow landed taken => waitTimeout_enters ⟨asleep, sleep, slot, shadow, landed, taken⟩ on lasted past,
    fun held ready taken p => scopeMismatchTaken_enters held ready taken (stands p), fun clear fresh asleep sleep named => ?_, fun ahead => ?_, ?_⟩
  · refine ⟨s.wakeNotify c mask.toNat, ?_, State.wakeNotify_wakes (by rw [nbit, Nat.shiftRight_eq_div_pow, named]) asleep sleep⟩
    show execWakeNotifyArrive ag c mask s = _
    rw [execWakeNotifyArrive, State.inward_reaches _ _ _ clear, if_neg (by rw [fresh]; decide)]
  · refine ⟨_, rfl, ?_⟩
    obtain ⟨cores, mem, -⟩ := s.inward_absorbs c _ ahead
    exact ⟨cores, State.inward_ipend s c _ ahead, mem⟩
  · exact ⟨_, rfl, s.setLine_pending c (line := 6) (by decide), rfl, rfl⟩

end Sys2Proof.Machine
end

section
/-!
SUPPORT. A register that is built from its lanes, lane by lane (R140, R142).
-/
namespace Sys2Proof.Machine

/-! ### The lanes of a register -/

/-- The lanes of n ≤ 512 / w bits, each below its own end. -/
theorem laneSum_lt (w n : Nat) (f : Nat → Nat) : (List.range n).foldl (fun a i => a + (f i % 2 ^ w) <<< (w * i)) 0 < 2 ^ (w * n) := by
  induction n with
  | zero => exact Nat.two_pow_pos _
  | succ n ih =>
    rw [List.range_succ, List.foldl_append, List.foldl_cons, List.foldl_nil, Nat.shiftLeft_eq, Nat.add_comm, Nat.mul_succ]
    exact below_field_end (Nat.mod_lt _ (Nat.two_pow_pos w)) ih

/-- Each lane of the sum stands in its own place. -/
theorem laneSum_lane (w : Nat) (f : Nat → Nat) {n k : Nat} (low : k < n) :
    (List.range n).foldl (fun a i => a + (f i % 2 ^ w) <<< (w * i)) 0 / 2 ^ (w * k) % 2 ^ w = f k % 2 ^ w := by
  induction n with
  | zero => exact absurd low (Nat.not_lt_zero k)
  | succ n ih =>
    have below := laneSum_lt w n f
    rw [List.range_succ, List.foldl_append, List.foldl_cons, List.foldl_nil, Nat.shiftLeft_eq]
    rcases Nat.lt_succ_iff_lt_or_eq.1 low with h | rfl
    · obtain ⟨d, hd⟩ : ∃ d, w * n = w * k + (w + d) := ⟨w * (n - k - 1), by
        obtain ⟨j, rfl⟩ : ∃ j, n = k + 1 + j := ⟨n - (k + 1), by omega⟩
        rw [show k + 1 + j - k - 1 = j by omega]; ring⟩
      rw [hd, pow_add, pow_add, show f n % 2 ^ w * (2 ^ (w * k) * (2 ^ w * 2 ^ d)) = 2 ^ (w * k) * (2 ^ w * (f n % 2 ^ w * 2 ^ d)) by ring,
        Nat.add_mul_div_left _ _ (Nat.two_pow_pos _), Nat.add_mul_mod_self_left, ih h]
    · rw [Nat.add_mul_div_right _ _ (Nat.two_pow_pos _), Nat.div_eq_of_lt below, Nat.zero_add, Nat.mod_mod]

theorem lane_eq (w : Nat) (v : Vec) (k : Nat) : lane w v k = v.toNat / 2 ^ (w * k) % 2 ^ w := by rw [lane, Nat.shiftRight_eq_div_pow]

theorem lane_lt (w : Nat) (v : Vec) (k : Nat) : lane w v k < 2 ^ w := Nat.mod_lt _ (Nat.two_pow_pos w)

theorem lane_mod (w : Nat) (v : Vec) (k : Nat) : lane w v k % 2 ^ w = lane w v k := Nat.mod_eq_of_lt (lane_lt w v k)

/-- A lane of a register that is built from its lanes. -/
theorem lane_ofLanes {w n k : Nat} (fits : w * n = 512) (f : Nat → Nat) (low : k < n) : lane w (ofLanes w n f) k = f k % 2 ^ w := by
  rw [lane_eq, ofLanes, BitVec.toNat_ofNat, ← fits, Nat.mod_eq_of_lt (laneSum_lt w n f), laneSum_lane w f low]

/-- The lanes of every type fill the register (R140). -/
theorem typW_mul_typN (ty : BitVec 3) : typW ty.toNat * typN ty.toNat = 512 := by
  revert ty
  decide

theorem typW_pos (ty : BitVec 3) : 0 < typW ty.toNat := by
  revert ty
  decide

/-! ### Lanes as signed numbers -/

/-- The bits of a wrapped number are the number modulo 2^w. -/
theorem wrapI_cast (w : Nat) (x : Int) : (wrapI w x : Int) = x % 2 ^ w := Int.toNat_of_nonneg (Int.emod_nonneg _ (by positivity))

theorem wrapI_mod (w : Nat) (x : Int) : ((wrapI w x % 2 ^ w : Nat) : Int) = x % 2 ^ w := by
  push_cast
  rw [wrapI_cast, Int.emod_emod]

/-- A lane and its signed reading have the same bits. -/
theorem sLane_mod (w x : Nat) : sLane w x % 2 ^ w = x % 2 ^ w := by
  unfold sLane
  split
  · exact Int.sub_emod_right ..
  · rfl

theorem natCast_mod (w x : Nat) : ((x % 2 ^ w : Nat) : Int) = (x : Int) % 2 ^ w := by push_cast; rfl

end Sys2Proof.Machine
end

section
/-!
SUPPORT and O22. The integer words of the vector unit, lane by lane (R143, R228).
-/
namespace Sys2Proof.Machine

theorem encV_legal {l : List (BitVec 5)} (low : ∀ n ∈ l, n.toNat < 16) : encV l = [] := by
  simpa [encV] using low

theorem encOp_legal {l : List Bool} (all : ∀ b ∈ l, b = true) : encOp l = [] := by
  simpa [encOp] using all

section
variable {s : State} {c : CoreId} {t : ThreadId} {ty : BitVec 3} {w : LR}

/-! ### What the words write -/

/-- A word that builds its destination from lanes. -/
theorem does_ofLanes {i : Instr} {enc : List Nat} {f : Nat → Nat} {d : Nat} (runs : s.Runs c t w.g) (legal : enc = []) {body : State → Fx}
    (word : exec i s = s.word c t w.g enc body)
    (done : body (s.reads c t) = .done ((s.reads c t).outV c t w.a (ofLanes (typW ty.toNat) (typN ty.toNat) f) d)) :
    ∃ v : Vec, Does i s c t (fun e => e.outV c t w.a v d) ∧ ∀ k < typN ty.toNat, lane (typW ty.toNat) v k = f k % 2 ^ typW ty.toNat :=
  ⟨_, does_of_done runs legal word done, fun _ low => lane_ofLanes (typW_mul_typN ty) f low⟩

/-- A lane's result for integer arithmetic, as a number modulo 2^w (R143). -/
def vintResult (op w x y : Nat) : Int :=
  let a := sLane w x
  let b := sLane w y
  match op with
  | 0 => a + b
  | 1 => a - b
  | 2 => a * b
  | 3 => a * b / 2 ^ w
  | 4 => min a b
  | 5 => max a b
  | 6 => max (-2 ^ (w - 1)) (min (2 ^ (w - 1) - 1) (a + b))
  | _ => max (-2 ^ (w - 1)) (min (2 ^ (w - 1) - 1) (a - b))

theorem vintLane_mod (w x y : Nat) : (op : Nat) → ((vintLane op w x y % 2 ^ w : Nat) : Int) = vintResult op w x y % 2 ^ w
  | 0 | 1 | 2 | 3 | 6 | _ + 7 => wrapI_mod w _
  | 4 => by
    change ((if _ then x else y : Nat) % 2 ^ w : Nat) = min (sLane w x) (sLane w y) % 2 ^ w
    split
    case isTrue h => rw [min_eq_left h, sLane_mod, natCast_mod]
    case isFalse h => rw [min_eq_right (le_of_not_ge h), sLane_mod, natCast_mod]
  | 5 => by
    change ((if _ then y else x : Nat) % 2 ^ w : Nat) = max (sLane w x) (sLane w y) % 2 ^ w
    split
    case isTrue h => rw [max_eq_right h, sLane_mod, natCast_mod]
    case isFalse h => rw [max_eq_left (le_of_not_ge h), sLane_mod, natCast_mod]

/-- A lane's result for logic, a shift or ABS, as a number modulo 2^w (R143). -/
def vlogResult (op w x y : Nat) : Int :=
  match op with
  | 0 => (x &&& y : Nat)
  | 1 => (x ||| y : Nat)
  | 2 => (x ^^^ y : Nat)
  | 3 => (x &&& (2 ^ w - 1 - y) : Nat)
  | 4 => x * 2 ^ (y % w)
  | 5 => x / 2 ^ (y % w)
  | 6 => sLane w x / 2 ^ (y % w)
  | _ => (sLane w x).natAbs

theorem vlogLane_mod (w x y : Nat) : (op : Nat) → ((vlogLane op w x y % 2 ^ w : Nat) : Int) = vlogResult op w x y % 2 ^ w
  | 0 | 1 | 2 | 3 => natCast_mod w _
  | 4 => by
    change (((x <<< (y % w)) % 2 ^ w % 2 ^ w : Nat) : Int) = (x * 2 ^ (y % w)) % 2 ^ w
    rw [Nat.mod_mod, Nat.shiftLeft_eq]
    push_cast
    rfl
  | 5 => by
    change ((x >>> (y % w) % 2 ^ w : Nat) : Int) = (x / 2 ^ (y % w)) % 2 ^ w
    rw [Nat.shiftRight_eq_div_pow]
    push_cast
    rfl
  | 6 | _ + 7 => wrapI_mod w _

theorem vintArith_gives (op : BitVec 3) (runs : s.Runs c t w.g) (int : ty.toNat < 4) (a : w.a.toNat < 16) (b : w.b.toNat < 16) (z : w.c.toNat < 16) :
    let x := lane (typW ty.toNat) ((s.reads c t).vr c t w.b)
    let y := lane (typW ty.toNat) ((s.reads c t).vr c t w.c)
    ∃ v : Vec, Does (.vintArith c t op ty w) s c t (fun e => e.outV c t w.a v (if op.toNat = 2 || op.toNat = 3 then 4 else 2)) ∧
      ∀ k < typN ty.toNat, (lane (typW ty.toNat) v k : Int) = vintResult op.toNat (typW ty.toNat) (x k) (y k) % 2 ^ typW ty.toNat := by
  intro x y
  obtain ⟨v, does, lanes⟩ := does_ofLanes (i := .vintArith c t op ty w) runs
    (by rw [encOp_legal (by simp [int]), encV_legal (by simp [a, b, z])]; rfl) rfl rfl
  exact ⟨v, does, fun k low => by rw [lanes k low]; exact vintLane_mod ..⟩

theorem vlogic_gives (op : BitVec 3) (runs : s.Runs c t w.g) (int : ty.toNat < 4) (a : w.a.toNat < 16) (b : w.b.toNat < 16) (z : w.c.toNat < 16)
    (zero : op = 7 → w.c = 0) :
    let x := lane (typW ty.toNat) ((s.reads c t).vr c t w.b)
    let y := lane (typW ty.toNat) ((s.reads c t).vr c t w.c)
    ∃ v : Vec, Does (.vlogic c t op ty w) s c t (fun e => e.outV c t w.a v 2) ∧
      ∀ k < typN ty.toNat, (lane (typW ty.toNat) v k : Int) = vlogResult op.toNat (typW ty.toNat) (x k) (y k) % 2 ^ typW ty.toNat := by
  intro x y
  have legal : encOp [decide (ty.toNat < 4)] ++ encV (if op.toNat = 7 then [w.a, w.b] else [w.a, w.b, w.c]) ++
      encZ [decide (op.toNat ≠ 7) || decide (w.c = 0)] = [] := by
    have field : op.toNat ≠ 7 ∨ w.c = 0 := by
      by_cases h : op = 7
      · exact .inr (zero h)
      · exact .inl fun n => h (BitVec.eq_of_toNat_eq n)
    rw [encOp_legal (by simp [int]), encV_legal (by split <;> simp [a, b, z]), encZ, ← Bool.decide_or, decide_eq_true field]
    rfl
  obtain ⟨v, does, lanes⟩ := does_ofLanes (i := .vlogic c t op ty w) runs legal rfl rfl
  exact ⟨v, does, fun k low => by rw [lanes k low]; exact vlogLane_mod ..⟩

end

/-- Settles O22: a word's lanes are its operation's, and each operation's result is its lane's number modulo the type's width. -/
theorem vectorIntegerWordsComplete : Obligations.VectorIntegerWordsComplete := by
  intro c t ty w s runs int a b z e width x y sx sy top gives
  have arith (op : BitVec 3) := vintArith_gives op runs int a b z
  have logic (op : BitVec 3) (other : op ≠ 7) := vlogic_gives op runs int a b z (fun h => absurd h other)
  exact ⟨arith 0, arith 1, arith 2, arith 3, arith 4, arith 5, arith 6, arith 7, logic 0 (by decide), logic 1 (by decide), logic 2 (by decide),
    logic 3 (by decide), logic 4 (by decide), logic 5 (by decide), logic 6 (by decide), fun zero => vlogic_gives 7 runs int a b z (fun _ => zero)⟩

end Sys2Proof.Machine
end

section
/-!
SUPPORT and O23. The float words of the vector unit, its compares, reductions and conversions (R144 to R149, R228, R229).
-/
namespace Sys2Proof.Machine

/-! ### Registers of rounded lanes -/

theorem getD_map_range {α : Type} (g : Nat → α) (d : α) {n k : Nat} (low : k < n) : ((List.range n).map g).getD k d = g k := by
  simp [List.getD, low]

theorem ofLanes_congr {w n : Nat} {f : Nat → Nat} (g : Nat → Nat) (same : ∀ k < n, f k = g k) : ofLanes w n f = ofLanes w n g := by
  rw [ofLanes, ofLanes, List.foldl_ext _ _ _ fun a k low => by rw [same k (List.mem_range.1 low)]]

theorem lane_ofRnd {w n k : Nat} (fits : w * n = 512) (g : Nat → Rnd) (low : k < n) :
    lane w (ofRnd w ((List.range n).map g)) k = (g k).code % 2 ^ w := by
  rw [ofRnd, List.length_map, List.length_range, lane_ofLanes fits _ low, getD_map_range g _ low]

theorem orFlags_map (g : Nat → Rnd) (l : List Nat) : orFlags (l.map g) = l.foldl (fun a k => a ||| (g k).flags) 0 := List.foldl_map

section
variable {s : State} {c : CoreId} {t : ThreadId} {ty : BitVec 3} {w : LR}

/-- A word that writes rounded lanes and raises what they raise. -/
theorem does_outR {i : Instr} {enc : List Nat} {g : Nat → Rnd} {d : Nat} (runs : s.Runs c t w.g) (legal : enc = []) {body : State → Fx}
    (word : exec i s = s.word c t w.g enc body)
    (done : body (s.reads c t) = .done ((s.reads c t).outR c t w.a (typW ty.toNat) ((List.range (typN ty.toNat)).map g) d)) :
    ∃ v : Vec, ∃ flags : Nat, Does i s c t (fun e => (e.outV c t w.a v d).outFlags c t flags d) ∧
      (∀ k < typN ty.toNat, lane (typW ty.toNat) v k = (g k).code % 2 ^ typW ty.toNat) ∧
      flags = (List.range (typN ty.toNat)).foldl (fun a k => a ||| (g k).flags) 0 :=
  ⟨_, _, does_of_done runs legal word done, fun _ low => lane_ofRnd (typW_mul_typN ty) g low, orFlags_map g _⟩

/-- Float arithmetic that takes no free flag. -/
theorem vfloat_gives (op : BitVec 3) (runs : s.Runs c t w.g) (float : 4 ≤ ty.toNat ∧ ty.toNat < 7) (a : w.a.toNat < 16) (b : w.b.toNat < 16)
    (z : w.c.toNat < 16) (plain : op.toNat ≠ 3 ∧ op.toNat ≠ 4 ∧ op.toNat ≠ 7) :
    let x := fun (r : BitVec 5) => lane (typW ty.toNat) ((s.reads c t).vr c t r)
    let g := fun (k : Nat) => vfloatLane (typFmt ty.toNat) op.toNat (x w.a k) (x w.b k) (x w.c k) (nbit (s.reads c t).free.1 k = 1)
    ∃ v : Vec, ∃ flags : Nat, Does (.vfloat c t op ty w) s c t (fun e => (e.outV c t w.a v 4).outFlags c t flags 4) ∧
      (∀ k < typN ty.toNat, lane (typW ty.toNat) v k = (g k).code % 2 ^ typW ty.toNat) ∧
      flags = (List.range (typN ty.toNat)).foldl (fun a k => a ||| (g k).flags) 0 := by
  intro x g
  obtain ⟨not3, not4, not7⟩ := plain
  refine does_outR runs ?_ rfl ?_
  · rw [encOp_legal (by simp [float]), encV_legal (by simp [not7, a, b, z]), encZ]
    simp [not7]
  · simp only [not3, not4, decide_false, Bool.or_self, Bool.false_eq_true, if_false]
    rfl

theorem vspecial_gives (second : Bool) (op : BitVec 3) (runs : s.Runs c t w.g) (float : 4 ≤ ty.toNat ∧ ty.toNat < 7) (a : w.a.toNat < 16)
    (b : w.b.toNat < 16) (few : second = false ∨ op.toNat < 4) :
    let g := fun (k : Nat) => (typFmt ty.toNat).special (if second then 8 + op.toNat else op.toNat)
      ((typFmt ty.toNat).decode (lane (typW ty.toNat) ((s.reads c t).vr c t w.b) k))
    let d := if ty.toNat = 6 then 12 else 8
    ∃ v : Vec, ∃ flags : Nat, Does (.vspecial c t second op ty w) s c t (fun e => (e.outV c t w.a v d).outFlags c t flags d) ∧
      (∀ k < typN ty.toNat, lane (typW ty.toNat) v k = (g k).code % 2 ^ typW ty.toNat) ∧
      flags = (List.range (typN ty.toNat)).foldl (fun a k => a ||| (g k).flags) 0 := by
  intro g d
  refine does_outR runs ?_ rfl rfl
  rw [encOp_legal (by simpa [float] using few), encV_legal (by simp [a, b])]
  rfl

/-- VCMPLT of integers: its lanes raise no flag. -/
theorem vcmp_lt (runs : s.Runs c t w.g) (int : ty.toNat < 4) (a : w.a.toNat < 16) (b : w.b.toNat < 16) (z : w.c.toNat < 16) :
    let width := typW ty.toNat
    let x := fun (r : BitVec 5) (k : Nat) => sLane width (lane width ((s.reads c t).vr c t r) k)
    ∃ v : Vec, Does (.vcmp c t 2 ty w) s c t (fun e => e.outV c t w.a v 2) ∧
      ∀ k < typN ty.toNat, lane width v k = if x w.b k < x w.c k then 2 ^ width - 1 else 0 := by
  intro width x
  have less (p q : Nat) (nv : Bool) : vcmpLane (2 : BitVec 3).toNat ty.toNat p q nv = (decide (sLane width p < sLane width q), 0) := by
    rw [vcmpLane, if_pos int]
    rfl
  have quiet (f : Nat → Bool) (l : List Nat) : (l.map (fun i => (f i, 0))).foldl (fun a r => a ||| r.2) 0 = 0 := by
    induction l with
    | nil => rfl
    | cons i l ih => rwa [List.map_cons, List.foldl_cons, Nat.or_zero]
  have top : (2 ^ width - 1) % 2 ^ width = 2 ^ width - 1 := Nat.mod_eq_of_lt (Nat.sub_lt (Nat.two_pow_pos _) Nat.one_pos)
  obtain ⟨v, does, lanes⟩ := does_ofLanes (ty := ty) (i := .vcmp c t 2 ty w) (f := fun k => if x w.b k < x w.c k then 2 ^ width - 1 else 0) (d := 2) runs
    (by rw [encOp_legal (by simp [int]; omega), encV_legal (by simp [a, b, z])]; rfl) rfl (by
      have float : ¬ 4 ≤ ty.toNat := by omega
      simp only [less, float, if_false, quiet]
      refine congrArg (fun v => Fx.done ((s.reads c t).outV c t w.a v 2)) (ofLanes_congr _ fun k low => ?_)
      rw [getD_map_range _ _ low]
      simp only [decide_eq_true_eq]
      rfl)
  refine ⟨v, does, fun k low => ?_⟩
  rw [lanes k low]
  split
  · exact top
  · rfl

/-- RSUM of integers is the exact sum modulo 2^64 (R148). -/
theorem vreduce_sum (runs : s.Runs c t w.g) (int : ty.toNat < 4) (b : w.b.toNat < 16) :
    Does (.vreduce c t 0 ty w) s c t (fun e => e.outX c t w.a (BitVec.ofInt 64
      ((List.range (typN ty.toNat)).map (fun k => sLane (typW ty.toNat) (lane (typW ty.toNat) (e.vr c t w.b) k))).sum) 6) := by
  refine does_of_done runs ?_ rfl ?_
  · rw [encOp_legal (by simp; omega), encV_legal (by simp [b])]
    rfl
  · rw [List.sum_eq_foldl]
    exact if_pos int

/-- VCVT from bfloat16 to binary32: one rounding of each lane of the lower half (R147). -/
theorem vcvt_bf16_f32 {fn : BitVec 6} (runs : s.Runs c t w.g) (a : w.a.toNat < 16) (b : w.b.toNat < 16) (kind : fn = 0x04) (dst : w.c = 6) :
    ∃ v : Vec, ∃ flags : Nat,
      Does (.vcvt c t fn w) s c t (fun e => ({ e with freeCtr := e.freeCtr + 64 } : State).outV c t w.a v 3 |>.outFlags c t flags 3) ∧
      ∀ k < 16, lane 32 v k = (fmtF.encode false false (fmtBF.decode (lane 16 ((s.reads c t).vr c t w.b) k))).code % 2 ^ 32 := by
  subst kind
  let g := fun k => fmtF.encode false false (fmtBF.decode (lane 16 ((s.reads c t).vr c t w.b) k))
  refine ⟨ofRnd 32 ((List.range 16).map g), orFlags ((List.range 16).map g), does_of_done runs ?_ rfl (by simp only [dst]; rfl),
    fun k low => lane_ofRnd rfl g low⟩
  rw [cvtEnc, encV_legal (by simp [a, b]), dst]
  decide
end

/-- Settles O23. The float words and the special functions write rounded lanes with their flags. What a special function's exact result rounds to is the
model's `Fmt.special` (notes/assumptions/8.md), and VCVT takes its free values in any case (notes/assumptions/10.md). -/
theorem vectorFloatWordsComplete : Obligations.VectorFloatWordsComplete := by
  intro c t op ty fn w s runs a b z e width f val gives
  refine ⟨fun least most => ?_, fun int => vcmp_lt runs int a b z, fun int => vreduce_sum runs int b, fun kind dst => vcvt_bf16_f32 runs a b kind dst⟩
  have arith (op : BitVec 3) := vfloat_gives (s := s) (ty := ty) op runs ⟨least, most⟩ a b z
  exact ⟨arith 0 (by decide), arith 1 (by decide), arith 2 (by decide), arith 5 (by decide), arith 6 (by decide),
    vspecial_gives false op runs ⟨least, most⟩ a b (.inl rfl), fun few => vspecial_gives true op runs ⟨least, most⟩ a b (.inr few)⟩

end Sys2Proof.Machine
end

section
/-!
SUPPORT and O24. The words that move lanes and predicates of lanes, and VLD and VST of an own bank (R142, R146, R150, R228, R229).
-/
namespace Sys2Proof.Machine

/-! ### Loads and stores of an own bank -/

section
variable {e : State} {c : CoreId} {t : ThreadId} {off n : Nat}

/-- A load whose checks lead to an own bank puts what it reads there in flight (R75, R152). -/
theorem State.load_checked {u : State} {a : Word} {p : Place} {v : Nat} (check : e.check c t a n (a.toNat % n = 0) false = .ok p)
    (own : p.ownBank c a = some off) (read : e.bankRead c off n = (some v, u)) (dest : Dest) (d : LoadDist) :
    e.load c t a n dest d = .done (u.fly c t dest v (if off < 0x40000 then d.scratch else d.cellar)) := by
  unfold State.load
  -- The read stands behind `Function.update`, so that a match on it is reduced only once it is rewritten, and its address is never evaluated.
  rw [← Function.update_eq_self off (e.bankRead c)]
  simp only [check]
  rw [own]
  simp only [Function.update_self, read]

/-- A store whose checks lead to an own bank writes its bytes there (R250). -/
theorem State.store_checked {u : State} {a : Word} {p : Place} {v : Nat} (check : e.check c t a n (a.toNat % n = 0) true = .ok p)
    (own : p.ownBank c a = some off) (wrote : e.bankWrite c off n (2 ^ n - 1) (v % 2 ^ (8 * n)) = (true, u)) :
    e.store c t a n v = .done u := by
  simp only [State.store, check, own, wrote]

theorem State.bankPut_tags (e : State) (c off n mask v : Nat) : (e.bankPut c off n mask v).tags = e.tags := by
  have masked (a n mask v : Nat) (e : State) : (e.writeMask a n mask v).tags = e.tags := by
    induction n generalizing e a mask v with
    | zero => rfl
    | succ n ih =>
      rw [State.writeMask, ih]
      split <;> rfl
  have wrote (l : List Nat) (e : State) : (l.foldl (fun s o => s.wroteWord c o) e).tags = e.tags := by
    induction l generalizing e with
    | nil => rfl
    | cons o l ih => exact ih (e.wroteWord c o)
  rw [State.bankPut, wrote, masked]

/-- A whole write of bank bytes in code words without error changes those bytes of memory, no tag, no register and no thread. -/
theorem State.bankWrite_full (pos : 0 < n) (clean : ∀ i < n, e.pat (bankAddr c off + i) = 0) (v : Nat) :
    ∃ m, e.bankWrite c off n (2 ^ n - 1) v = (true, m) ∧ m.mem = (e.writeLE (bankAddr c off) n v).mem ∧ m.tags = e.tags ∧ m.regs = e.regs ∧
      ∀ j : Nat, m.thr c j = e.thr c j := by
  obtain ⟨mem, regs, thr⟩ := e.bankPut_full c off n v
  exact ⟨_, State.bankWrite_clean pos clean _ v, mem, State.bankPut_tags .., regs, thr⟩

end

/-! ### The words -/

section
variable {s : State} {c : CoreId} {t : ThreadId} {w : LR} {off : Nat}

theorem vld_loads (runs : s.Runs c t w.g) (a : w.a.toNat < 16) (addr : (s.reads c t).x c t w.b + (s.reads c t).x c t w.c = ownBankWord c off)
    (bank : (s.reads c t).OwnBank c t off 64 false) :
    Does (.vld c t w) s c t (fun e => e.fly c t (.v w.a.toNat) (e.readLE (bankAddr c off) 64) (if off < 0x40000 then 5 else 8)) := by
  have check := State.check_ownBank bank
  have own := Place.ownBank_bank c bank.offset
  rw [← addr] at check own
  exact does_of_done runs (encV_legal (by simp [a])) rfl (State.load_checked check own (State.bankRead_clean bank.pos bank.clean) _ vectorDist)

theorem vst_stores (runs : s.Runs c t w.g) (h : s.Settled c t) (a : w.a.toNat < 16)
    (addr : (s.reads c t).x c t w.b + (s.reads c t).x c t w.c = ownBankWord c off) (bank : (s.reads c t).OwnBank c t off 64 true) :
    let e := s.reads c t
    Completes (.vst c t w) s (fun u => u.readLE (bankAddr c off) 64 = (e.vr c t w.a).toNat ∧
      (∀ x, x < bankAddr c off ∨ bankAddr c off + 64 ≤ x → u.byte x = e.byte x) ∧ u.tags = e.tags ∧ ∀ r, u.x c t r = e.x c t r ∧ u.vr c t r = e.vr c t r) := by
  intro e
  have check := State.check_ownBank bank
  have own := Place.ownBank_bank c bank.offset
  rw [← addr] at check own
  obtain ⟨m, wrote, mem, tags, regs, thr⟩ := State.bankWrite_full bank.pos bank.clean ((e.vr c t w.a).toNat % 2 ^ (8 * 64))
  have done : e.store c t (e.x c t w.b + e.x c t w.c) 64 (e.vr c t w.a).toNat = .done m := State.store_checked check own wrote
  have word : exec (.vst c t w) s = .next (s.issue c t w.g (encV [w.a]) false false
    (fun s => s.store c t (s.x c t w.b + s.x c t w.c) 64 (s.vr c t w.a).toNat)) := rfl
  refine (completes_of_done runs h (encV_legal (by simp [a])) word done (by rw [thr]) (State.tf_congr regs ..)).imp
    fun u same => ?_
  have moves := m.onlyMoves_advance c t (e.thr c t).pc true
  rw [← same] at moves
  have memory := moves.memory.1.trans mem
  refine ⟨?_, fun x out => ?_, moves.memory.2.1.trans tags, fun r => ⟨?_, ?_⟩⟩
  · rw [State.readLE_congr memory, State.readLE_writeLE, Nat.mod_mod, show 8 * 64 = 512 from rfl, Nat.mod_eq_of_lt (e.vr c t w.a).isLt]
  · rw [State.byte, memory]
    exact State.writeLE_other e _ _ _ x out
  · rw [State.x, moves.x, thr, State.x]
  · rw [State.vr, moves.v, thr, State.vr]

/-! ### Moves -/

variable {ty : BitVec 3}

theorem typed_legal {l : List (BitVec 5)} (known : ty.toNat < 7) (low : ∀ n ∈ l, n.toNat < 16) : encOp [decide (ty.toNat < 7)] ++ encV l = [] := by
  rw [encOp_legal (by simp [known]), encV_legal low]
  rfl

theorem typW_narrow (narrow : ty ≠ 3) : typW ty.toNat ≤ 32 := by
  revert ty
  decide

/-- Below the free bits of VEXT's result stands the lane. -/
theorem lane_below_free {b x : Nat} (short : b ≤ 64) (fits : x < 2 ^ b) (free : Nat) : (BitVec.ofNat 64 (x + free <<< b)).toNat % 2 ^ b = x := by
  rw [BitVec.toNat_ofNat, Nat.mod_mod_of_dvd _ (Nat.pow_dvd_pow 2 short), Nat.shiftLeft_eq, Nat.add_mul_mod_self_right, Nat.mod_eq_of_lt fits]

/-- VEXT of a 64-bit lane leaves no bit above it. -/
theorem vext_wide (runs : s.Runs c t w.g) (b : w.b.toNat < 16) (wide : ty = 3) :
    Does (.vext c t ty w) s c t (fun e => e.outX c t w.a
      (BitVec.ofNat 64 (lane (typW ty.toNat) ((s.reads c t).vr c t w.b) (((s.reads c t).x c t w.c).toNat % 8))) 2) := by
  obtain ⟨known, full, lanes⟩ : ty.toNat < 7 ∧ typW ty.toNat = 64 ∧ typN ty.toNat = 8 := by
    subst wide
    decide
  refine does_of_done runs (typed_legal known (by simp [b])) rfl ?_
  simp only [full, lanes, if_true, Nat.zero_shiftLeft, Nat.add_zero]

/-- VEXT of a narrower lane takes the bits above it as free values. -/
theorem vext_narrow (runs : s.Runs c t w.g) (known : ty.toNat < 7) (b : w.b.toNat < 16) (narrow : ty ≠ 3) :
    ∃ v : Word, v.toNat % 2 ^ typW ty.toNat = lane (typW ty.toNat) ((s.reads c t).vr c t w.b) (((s.reads c t).x c t w.c).toNat % typN ty.toNat) ∧
      Does (.vext c t ty w) s c t (fun e => e.free.2.outX c t w.a v 2) := by
  have short := typW_narrow narrow
  have notFull : typW ty.toNat ≠ 64 := by omega
  refine ⟨_, lane_below_free (by omega) (lane_lt ..) (s.reads c t).free.1, does_of_done runs (typed_legal known (by simp [b])) rfl ?_⟩
  simp only [notFull, if_false]

/-- A lane's sign is its top bit. -/
theorem nbit_top (b x : Nat) : nbit x (b - 1) = 1 ↔ x / 2 ^ (b - 1) % 2 = 1 := by rw [nbit, Nat.shiftRight_eq_div_pow]

theorem vanyVall_legal (known : ty.toNat < 7) (b : w.b.toNat < 16) (a : w.a.toNat < 8) (z : w.c = 0) :
    encOp [decide (ty.toNat < 7)] ++ encV [w.b] ++ encZ [decide (w.a.toNat < 8), decide (w.c = 0)] = [] := by
  rw [typed_legal known (by simp [b])]
  simp [encZ, a, z]

theorem vany_tests (runs : s.Runs c t w.g) (known : ty.toNat < 7) (b : w.b.toNat < 16) (a : w.a.toNat < 8) (z : w.c = 0) :
    Does (.vanyVall c t false ty w) s c t (fun e => e.outP c t w.a
      (decide (∃ k < typN ty.toNat, lane (typW ty.toNat) ((s.reads c t).vr c t w.b) k / 2 ^ (typW ty.toNat - 1) % 2 = 1)) 3) := by
  refine does_of_done runs (vanyVall_legal known b a z) rfl (congrArg (fun p => Fx.done ((s.reads c t).outP c t w.a p 3)) ?_)
  rw [if_neg Bool.false_ne_true, Bool.eq_iff_iff, List.any_eq_true, decide_eq_true_eq]
  simp only [List.mem_range, decide_eq_true_eq, nbit_top]

theorem vall_tests (runs : s.Runs c t w.g) (known : ty.toNat < 7) (b : w.b.toNat < 16) (a : w.a.toNat < 8) (z : w.c = 0) :
    Does (.vanyVall c t true ty w) s c t (fun e => e.outP c t w.a
      (decide (∀ k < typN ty.toNat, lane (typW ty.toNat) ((s.reads c t).vr c t w.b) k / 2 ^ (typW ty.toNat - 1) % 2 = 1)) 3) := by
  refine does_of_done runs (vanyVall_legal known b a z) rfl (congrArg (fun p => Fx.done ((s.reads c t).outP c t w.a p 3)) ?_)
  rw [if_pos rfl, Bool.eq_iff_iff, List.all_eq_true, decide_eq_true_eq]
  simp only [List.mem_range, decide_eq_true_eq, nbit_top]

end

/-- Settles O24. The moves that write a vector build it from lanes; VLD and VST are the load and the store of 64 bytes of a bank. The bits of VEXT's result
above a narrower lane are free values (notes/assumptions/1.md). -/
theorem vectorMoveAndMemoryWordsComplete : Obligations.VectorMoveAndMemoryWordsComplete := by
  refine ⟨fun c t ty w s runs known => ?_, fun c t w s off runs h a => fun addr => ⟨vld_loads runs a addr, vst_stores runs h a addr⟩⟩
  intro e width n va vb vc xb xc sign gives
  refine ⟨fun a => ⟨fun b => ?mov, fun b z => ?sel, ?bcast, ?ins, fun b z => ?perm, fun b => ?rot⟩, vext_wide runs, vext_narrow runs known,
    fun b p z => ⟨vany_tests runs known b p z, vall_tests runs known b p z⟩⟩
  case mov => exact ⟨_, does_of_done runs (typed_legal known (by simp [a, b])) rfl rfl, fun k _ => (lane_mod ..).symm⟩
  case sel =>
    obtain ⟨v, does, lanes⟩ := does_ofLanes (ty := ty) (i := .vmove c t .sel ty w) runs (typed_legal known (by simp [a, b, z])) rfl rfl
    exact ⟨v, does, fun k low => by rw [lanes k low]; simp only [nbit_top]; rfl⟩
  case bcast => exact does_ofLanes runs (typed_legal known (by simp [a])) rfl rfl
  case ins => exact does_ofLanes runs (typed_legal known (by simp [a])) rfl rfl
  case perm => exact does_ofLanes (i := .vpermRot c t false ty w) runs (typed_legal known (by simp [a, b, z])) rfl rfl
  case rot => exact does_ofLanes (i := .vpermRot c t true ty w) runs (typed_legal known (by simp [a, b])) rfl rfl

end Sys2Proof.Machine
end

section
/-!
SUPPORT. What a word that goes on to the next leaves of its core and of the registers, and the tiles of a core.
-/
namespace Sys2Proof.Machine

/-! ### Going on to the next word leaves the core's units and the registers but lstat -/

/-- From `e` to `u` nothing of core c has changed but its threads, and no register but lstat. -/
structure State.Walks (u e : State) (c : Nat) : Prop where
  core : ∃ l, u.core c = { e.core c with threads := l }
  regs : u.RegsExcept e [.lstat]

section
variable {u v e : State} {c : CoreId} {t : ThreadId}

theorem State.Walks.refl (e : State) (c : Nat) : e.Walks e c := ⟨⟨_, rfl⟩, fun _ _ _ _ _ _ => rfl⟩

theorem State.Walks.trans {c : Nat} (next : u.Walks v c) (first : v.Walks e c) : u.Walks e c := by
  obtain ⟨l, last⟩ := next.core
  obtain ⟨l', before⟩ := first.core
  exact ⟨⟨l, by rw [last, before]⟩, fun r other q i hq hi => (next.regs r other q i hq hi).trans (first.regs r other q i hq hi)⟩

theorem State.walks_setThr (e : State) (c t : Nat) (h : Thread) : (e.setThr c t h).Walks e c := ⟨⟨_, State.core_setThr_same ..⟩, fun _ _ _ _ _ _ => rfl⟩

theorem State.walks_setActive (e : State) (c : CoreId) (t : ThreadId) (a : Nat) : (e.setTf lstat_ACTIVE c t a).Walks e c :=
  ⟨⟨_, rfl⟩, fun _ other _ _ hq hi => State.reg_setReg_other e _ (by omega) (by omega) hq hi (fun h => other (List.mem_singleton.2 h.1))⟩

theorem State.walks_loopEnd (e : State) (c : CoreId) (t : ThreadId) (w next k : Nat) : (e.loopEnd c t w next k).2.Walks e c := by
  induction k generalizing e with
  | zero => exact .refl e c
  | succ k ih =>
    simp only [State.loopEnd]
    split
    · split
      · exact e.walks_setThr c t _
      · exact ((ih _).trans (State.walks_setActive _ c t _)).trans (e.walks_setThr c t _)
    · exact ih e

theorem State.walks_advance (e : State) (c : CoreId) (t : ThreadId) (pc : Nat) (loops : Bool) : (e.advance c t pc loops).Walks e c := by
  simp only [State.advance, State.advanceTo]
  refine State.Walks.trans (State.walks_setThr _ c t _) ?_
  split
  · exact .refl e c
  · split
    · exact e.walks_loopEnd c t _ _ _
    · exact .refl e c

theorem State.Walks.xfers (h : u.Walks e c) : (u.core c).xfers = (e.core c).xfers := by
  obtain ⟨l, core⟩ := h.core
  rw [core]

theorem State.Walks.tile (h : u.Walks e c) (n : Nat) : (u.core c).tile n = (e.core c).tile n := by
  obtain ⟨l, core⟩ := h.core
  rw [core]
  rfl

/-- A field of a register but lstat of the core. -/
theorem State.Walks.fld (h : u.Walks e c) {f : Field} (other : f.reg ≠ .lstat) {i : Nat} (small : i < 2 ^ 20) (k : Nat) : u.fld f c i k = e.fld f c i k := by
  rw [State.fld, h.regs f.reg (by simpa using other) c i (by omega) small, State.fld]

end

/-! ### Words that leave the threads and the registers of single stepping alone -/

section
variable {s : State} {c : CoreId} {t : ThreadId} {g : BitVec 4} {i : Instr} {enc : List Nat} {body : State → Fx} {m : State} {P : State → Prop}

/-- A word that ends in `m`, from where its thread goes on to the next word. -/
theorem completes_walking (runs : s.Runs c t g) (h : s.Settled c t) (legal : enc = []) (word : exec i s = .next (s.issue c t g enc false false body))
    (done : body (s.reads c t) = .done m) (step : (m.thr c t).stepReq = ((s.reads c t).thr c t).stepReq)
    (single : m.tf dstat_SS c t = (s.reads c t).tf dstat_SS c t) (holds : ∀ u : State, u.Walks m c → u.GoesOn m c t → P u) : Completes i s P :=
  (completes_of_done runs h legal word done step single).imp fun u same => by
    subst same
    exact holds _ (State.walks_advance m c t _ true) (State.goesOn_advanceTo m c t _ _ true)

end

/-! ### The tiles of a core -/

section
variable {e : State} {c n m : Nat}

theorem State.core_setTile (x : Tile) : (e.setTile c n x).core c = { e.core c with tiles := Sparse.set {} (e.core c).tiles n x } := State.core_setCore_same ..

/-- A tile that loses its latches, or whose latches are dropped, keeps all else of its core. -/
theorem State.core_dropLatches : ∃ a b, (e.dropLatches c n).core c = { e.core c with latchA := a, latchB := b } := ⟨_, _, State.core_setCore_same ..⟩

theorem State.thr_dropLatches (t : Nat) : (e.dropLatches c n).thr c t = e.thr c t := by
  obtain ⟨a, b, core⟩ := State.core_dropLatches (e := e) (c := c) (n := n)
  rw [State.thr, core, State.thr]

theorem State.thr_setTile (x : Tile) (t : Nat) : (e.setTile c n x).thr c t = e.thr c t := by rw [State.thr, State.core_setTile, State.thr]

theorem State.tile_dropLatches : ((e.dropLatches c n).core c).tile m = (e.core c).tile m := by
  obtain ⟨a, b, core⟩ := State.core_dropLatches (e := e) (c := c) (n := n)
  rw [core]
  rfl

theorem State.tile_setTile_same (x : Tile) : ((e.setTile c n x).core c).tile n = x := by
  rw [State.core_setTile]
  exact Sparse.get_set_same ..

theorem State.tile_setTile_other (x : Tile) (other : m ≠ n) : ((e.setTile c n x).core c).tile m = (e.core c).tile m := by
  rw [State.core_setTile]
  exact Sparse.get_set_other _ _ _ _ other

end

end Sys2Proof.Machine
end

section
/-!
SUPPORT and O25. TCFG and TREL, and the rows of a transfer: requested, landed and acknowledged (R155 to R157, R160, R161, R164, R165, R230).
-/
namespace Sys2Proof.Machine

/-! ### Configurations -/

section
variable {e : State} {c n m : Nat}

/-- The word that TCFG leaves in tcfgN for the bits v that it reads. -/
def configWord (v : Word) (world : Nat) : Word := if bitsOf v 6 0 = 0 then 0 else BitVec.ofNat 64 (v.toNat % 2 ^ 30 + world * 2 ^ 30)

/-- Its fields are those of v, and its world is the issuer's (R155). -/
theorem configWord_fields {v : Word} {world : Nat} (rows : bitsOf v 6 0 ≠ 0) (bit : world < 2) :
    bitsOf (configWord v world) 6 0 = bitsOf v 6 0 ∧ bitsOf (configWord v world) 14 8 = bitsOf v 14 8 ∧
    bitsOf (configWord v world) 20 16 = bitsOf v 20 16 ∧ bitsOf (configWord v world) 30 30 = world := by
  rw [configWord, if_neg rows]
  simp only [bitsOf, BitVec.toNat_ofNat, Nat.shiftRight_eq_div_pow, Nat.reduceAdd, Nat.reduceSub, Nat.reducePow]
  refine ⟨?_, ?_, ?_, ?_⟩ <;> omega

theorem configWord_released {v : Word} {world : Nat} (rows : bitsOf v 6 0 = 0) : configWord v world = 0 := if_pos rows

theorem State.tile_configure_same (v : Word) : ((e.configure c n v).core c).tile n = {} := by
  rw [State.configure, State.tile_dropLatches, State.tile_setTile_same]

theorem State.tile_configure_other (v : Word) (other : m ≠ n) : ((e.configure c n v).core c).tile m = (e.core c).tile m := by
  rw [State.configure, State.tile_dropLatches, State.tile_setTile_other _ other, State.core_setReg]

theorem State.thr_configure (v : Word) (t : Nat) : (e.configure c n v).thr c t = e.thr c t := by
  rw [State.configure, State.thr_dropLatches, State.thr_setTile, State.thr_setReg]

theorem State.reg_configure (v : Word) : (e.configure c n v).reg .tcfg c n = v := State.reg_setReg_same e .tcfg c n v

theorem State.fld_configure (v : Word) {f : Field} (r : f.reg = .tcfg) : (e.configure c n v).fld f c n = bitsOf v f.hi f.lo := by
  rw [State.fld, r, State.reg_configure]
  simp

theorem State.single_configure {c : CoreId} {t : ThreadId} (small : n < 8) (v : Word) : (e.configure c n v).tf dstat_SS c t = e.tf dstat_SS c t := by
  unfold State.tf State.fld
  rw [show (e.configure c n v).reg = (e.setReg .tcfg c n v).reg from rfl, State.reg_setReg_other e v (by omega) (by omega) (by omega) (by omega) (by simp [dstat_SS])]

end
section
variable {s : State} {c : CoreId} {t : ThreadId} {w : LR}

theorem State.hazard_idle {e : State} {n : Nat} (idle : (e.core c).busyBy n = none) : e.hazard c t [n] = none := by
  simp [State.hazard, idle]

theorem execTcfg_eq (c : CoreId) (t : ThreadId) (w : LR) (s : State) : exec (.tcfg c t w) s = s.word c t w.g (encZ [w.a.toNat < 8, w.c = 0]) (fun s =>
    match s.hazard c t [w.a.toNat] with
    | some d => .exc 4 d 0 0
    | none => match s.tcfgDetail c t w.a.toNat (s.x c t w.b) with
      | some d => .exc 5 d 0 0
      | none => .done (s.configure c w.a.toNat (configWord (s.x c t w.b) (s.world c t)))) := rfl

theorem tcfg_configures (runs : s.Runs c t w.g) (h : s.Settled c t) (low : w.a.toNat < 8) (zero : w.c = 0)
    (idle : ((s.reads c t).core c).busyBy w.a.toNat = none)
    (allowed : (s.reads c t).tcfgDetail c t w.a.toNat ((s.reads c t).x c t w.b) = none) :
    let e := s.reads c t
    let n := w.a.toNat
    let v := e.x c t w.b
    Completes (.tcfg c t w) s (fun u => (u.core c).tile n = {} ∧
      (bitsOf v 6 0 ≠ 0 → e.world c t < 2 → u.tRows c n = bitsOf v 6 0 ∧ u.tBpr c n = bitsOf v 14 8 ∧ u.tFmt c n = bitsOf v 20 16 ∧
        u.fld tcfg_WORLD c n = e.world c t) ∧
      (bitsOf v 6 0 = 0 → u.tRows c n = 0) ∧ (∀ m, m ≠ n → (u.core c).tile m = (e.core c).tile m)) := by
  intro e n v
  refine completes_walking runs h (by simp [encZ, low, zero]) (execTcfg_eq c t w s) (m := e.configure c n (configWord v (e.world c t))) ?_
    (by rw [State.thr_configure]) (State.single_configure low _) fun u walks _ => ?_
  · simp only [State.hazard_idle idle, allowed]
    rfl
  · have field (f : Field) (r : f.reg = .tcfg) : u.fld f c n = bitsOf (configWord v (e.world c t)) f.hi f.lo := by
      rw [walks.fld (by rw [r]; decide) (by omega), State.fld_configure _ r]
    refine ⟨(walks.tile n).trans (State.tile_configure_same _), fun rows bit => ?_, fun released => ?_,
      fun m other => (walks.tile m).trans (State.tile_configure_other _ other)⟩
    · obtain ⟨hr, hb, hf, hw⟩ := configWord_fields rows bit
      exact ⟨(field tcfg_ROWS rfl).trans hr, (field tcfg_BPR rfl).trans hb, (field tcfg_FMT rfl).trans hf, (field tcfg_WORLD rfl).trans hw⟩
    · rw [State.tRows, field tcfg_ROWS rfl, configWord_released released]
      rfl

/-- What TREL does to a configured tile: it releases it, or empties it (R165). -/
def State.letGo (e : State) (c n : Nat) (whole : Bool) : State :=
  if whole then e.configure c n 0 else (e.setTile c n { (e.core c).tile n with valid := 0 }).dropLatches c n

theorem State.thr_letGo {e : State} (whole : Bool) {n : Nat} (j : Nat) : (e.letGo c n whole).thr c j = e.thr c j := by
  cases whole
  · exact (State.thr_dropLatches j).trans (State.thr_setTile _ j)
  · exact State.thr_configure 0 j

theorem State.single_letGo {e : State} (whole : Bool) {n : Nat} (small : n < 8) : (e.letGo c n whole).tf dstat_SS c t = e.tf dstat_SS c t := by
  cases whole
  · rfl
  · exact State.single_configure small 0

/-- An emptied tile keeps its configuration, as every register is kept. -/
theorem State.reg_letGo_emptied {e : State} {n : Nat} (r : RegName) (q i : Nat) : (e.letGo c n false).reg r q i = e.reg r q i := rfl

/-- TREL of tile 0 alone, its bit 8 saying that the tile is released. -/
theorem trel_tile0 {P : State → Prop} (whole : Bool) (runs : s.Runs c t w.g) (h : s.Settled c t) (a : w.a = 0) (b : w.b = if whole then 8 else 0) (z : w.c = 1)
    (idle : ((s.reads c t).core c).busyBy 0 = none) (rows : (s.reads c t).tRows c 0 ≠ 0) (mine : (s.reads c t).tileMine c t 0 = true)
    (holds : ∀ u : State, u.Walks ((s.reads c t).letGo c 0 whole) c → P u) : Completes (.trel c t w) s P := by
  have imm : immBC w = if whole then 257 else 1 := by
    rw [immBC, b, z]
    cases whole <;> rfl
  have legal : immBC w < 512 := by rw [imm]; split <;> decide
  have named : (List.range 8).filter (fun n => nbit (immBC w) n = 1) = [0] := by
    rw [imm]
    cases whole <;> decide
  have released : (nbit (immBC w) 8 = 1) ↔ whole = true := by
    rw [imm]
    cases whole <;> decide
  refine completes_walking runs h (by simp [encZ, a, legal]) rfl ?_ (by rw [State.thr_letGo]) (State.single_letGo whole (by decide)) fun u walks _ => holds u walks
  simp only [named, State.hazard_idle idle, List.filter_cons, List.filter_nil, rows, ne_eq, not_false_eq_true, decide_true, if_true, List.any_cons,
    List.any_nil, mine, Bool.not_true, Bool.or_self, Bool.false_eq_true, if_false, List.foldl_cons, List.foldl_nil, released]
  rfl

end

/-! ### A transfer that goes on -/

section
variable {s e : State} {c t : Nat}

theorem State.flown_depart (key : AccKey) (a : Word) (n : Nat) (parts msg : List Nat) : (s.depart c key a n parts msg).Flown s c := by
  unfold State.depart
  split
  · exact s.flown_send c _ _
  · dsimp only
    split
    · exact (State.flown_settle _ c).trans (s.flown_setFlying c _)
    · split
      · exact s.flown_setFlying c _
      · exact (State.flown_send _ c _ _).trans (s.flown_setFlying c _)

theorem State.Flown.xfers (h : e.Flown s c) : (e.core c).xfers = (s.core c).xfers := by
  obtain ⟨l, core⟩ := h.core
  rw [core]

theorem Core.xfer_only {k : Core} {x : TileXfer} (only : k.xfers = [x]) (thread : x.thread = t) {m : Nat} (mb : x.mb = m) : k.xfer t m = some x := by
  rw [Core.xfer, only]
  exact List.find?_cons_of_pos (by simp [thread, mb])

/-- The state with the transfers of a core replaced. -/
def State.setXfers (s : State) (c : Nat) (l : List TileXfer) : State := s.setCore c { s.core c with xfers := l }

@[simp] theorem State.core_setXfers (l : List TileXfer) : (s.setXfers c l).core c = { s.core c with xfers := l } := State.core_setCore_same ..

theorem State.mem_setXfers (l : List TileXfer) : (s.setXfers c l).mem = s.mem := s.setCore_mem c _

theorem State.thr_setXfers (l : List TileXfer) : (s.setXfers c l).thr c t = s.thr c t := by rw [State.thr, State.core_setXfers, State.thr]

/-- The core's only transfer takes its next form while it has a row left. -/
theorem State.xferEnd_left {x y : TileXfer} (only : (s.core c).xfers = [x]) (thread : y.thread = x.thread) (mb : y.mb = x.mb)
    (left : y.todo ≠ [] ∨ y.out ≠ []) : s.xferEnd c y = s.setXfers c [y] := by
  have more : (y.todo.isEmpty && y.out.isEmpty) = false := by
    rcases left with h | h <;> simp [h]
  simp [State.xferEnd, State.setXfers, more, only, thread, mb]

/-- An access of HBM is not one of an own bank, and waits for nothing where the cache is empty (R237, R254). -/
theorem State.accessPauses_hbm {a : Word} {n p off : Nat} (empty : (s.core c).cache = []) (acked : (s.core c).wbs = []) :
    s.accessPauses c a n (.hbm p off) = false := by
  simp [State.accessPauses, Place.ownBank, State.bypassWaits, empty, acked]

/-- The last row of a TLD, from an HBM stack, leaves as a request. -/
theorem State.rowRequest_hbm {x : TileXfer} {p off : Nat} (load : x.store = false) (r : Nat) (a : Word) :
    ∃ q : State, q.Flown s c ∧ s.rowRequest c x r a (.hbm p off) = q.xferEnd c x := by
  refine ⟨_, State.flown_depart (s := s) (.row x.thread x.mb r) a (s.rowLen c x.tile) [0] [c, x.thread, 9, a.toNat, s.rowLen c x.tile, x.mb, r], ?_⟩
  simp only [State.rowRequest, Place.ownBank, State.bypassGo, load, Bool.false_eq_true, if_false, List.append_nil]

end

section
variable {s : State} {c : CoreId} {t : ThreadId} {m : Fin 4} {r q : Fin 64} {x : TileXfer}

/-- The transfer's next row, at a place that does not pause (R160). -/
theorem exec_tileRowRequest {r : Nat} {rest : List Nat} {p : Place} (found : (s.core c).xfer t m = some x) (todo : x.todo = r :: rest)
    (room : x.out.length < 16)
    (place : s.rowPlace c (s.xferWho c x) (x.base + x.stride * BitVec.ofNat 64 r) (s.rowLen c x.tile) x.store = .to p)
    (free : s.accessPauses c (x.base + x.stride * BitVec.ofNat 64 r) (s.rowLen c x.tile) p = false) :
    exec (.tileRowRequest c t m) s =
      .next (s.rowRequest c { x with todo := rest, out := x.out ++ [r] } r (x.base + x.stride * BitVec.ofNat 64 r) p) := by
  show execTileRowRequest c t m s = _
  simp only [execTileRowRequest, found, todo, if_neg (Nat.not_le.2 room), place, free, Bool.false_eq_true, if_false]

theorem tileRowRequest_leaves {p : Nat} (only : (s.core c).xfers = [x]) (thread : x.thread = t) (mb : x.mb = m) (load : x.store = false)
    (todo : x.todo = [r.val]) (out : x.out = []) (empty : (s.core c).cache = []) (acked : (s.core c).wbs = [])
    (place : s.rowPlace c (s.xferWho c x) (x.base + x.stride * BitVec.ofNat 64 r) (s.rowLen c x.tile) false = .to (.hbm p 0)) :
    Completes (.tileRowRequest c t m) s (fun u => (u.core c).xfers = [{ x with todo := [], out := [r.val] }] ∧ u.mem = s.mem) := by
  have word := exec_tileRowRequest (Core.xfer_only only thread mb) todo (by rw [out]; decide) (load.symm ▸ place) (State.accessPauses_hbm empty acked)
  rw [out] at word
  obtain ⟨e, flown, leaves⟩ := State.rowRequest_hbm (s := s) (c := c) (x := { x with todo := [], out := [r.val] }) (p := p) (off := 0) load r.val
    (x.base + x.stride * BitVec.ofNat 64 r)
  have goes := State.xferEnd_left (y := { x with todo := [], out := [r.val] }) (flown.xfers.trans only) rfl rfl (.inr (List.cons_ne_nil r.val []))
  refine ⟨_, word.trans (congrArg _ (leaves.trans goes)), ?_, ?_⟩
  · rw [State.core_setXfers]
  · rw [State.mem_setXfers, flown.mem]

/-- Landing a row leaves its bytes in the tile, sets its valid bit and leaves the transfers (R161). -/
theorem State.putRow_leaves (e : State) (c n v : Nat) (r : Fin 64) :
    ((e.putRow c n r v).tileRow c n r).data.toNat = v % 2 ^ (8 * e.tBpr c n) % 2 ^ 512 ∧
    (((e.putRow c n r v).core c).tile n).valid.toNat / 2 ^ r.val % 2 = 1 ∧ ((e.putRow c n r v).core c).xfers = (e.core c).xfers := by
  have bit (a : Nat) : (a ||| 2 ^ r.val) / 2 ^ r.val % 2 = 1 := of_decide_eq_true (by
    rw [← Nat.testBit_eq_decide_div_mod_eq, Nat.testBit_or, Nat.testBit_two_pow_self, Bool.or_true])
  simp only [State.tileRow, State.putRow, State.setRow, State.core_setCore_same, Core.tile, Sparse.get_set_same, BitVec.toNat_ofNat, if_true, BitVec.toNat_or,
    Nat.mod_eq_of_lt (Nat.pow_lt_pow_right (Nat.one_lt_two) r.isLt), bit, and_self, -Nat.reducePow]

/-- A requested row's reply without error puts the row into the tile. -/
theorem State.rowLand_ok (found : ((s.landAccess c (.row t m r) 0).core c).xfer t m = some x) (load : x.store = false) (mine : r.val ∈ x.out)
    (v : BitVec 544) : s.rowLand c t m r 0 v = ((s.landAccess c (.row t m r) 0).putRow c x.tile r v.toNat).xferEnd c (x.landed r) := by
  have requested : (x.store || !x.out.contains r.val) = false := by simp [load, mine]
  simp only [State.rowLand, found, requested, Bool.false_eq_true, if_false]
  rfl

/-- A stored row's acknowledgement without error. -/
theorem State.rowAck_ok (found : ((s.landAccess c (.row t m r) 0).core c).xfer t m = some x) (store : x.store = true) (mine : r.val ∈ x.out) :
    s.rowAck c t m r 0 = (s.landAccess c (.row t m r) 0).xferEnd c (x.landed r) := by
  have requested : (!x.store || !x.out.contains r.val) = false := by simp [store, mine]
  simp only [State.rowAck, found, requested, Bool.false_eq_true, if_false]
  rfl

/-- A row of the core's only transfer is done while another is on its way. -/
theorem State.xferEnd_landed {e : State} (only : (e.core c).xfers = [x]) (out : x.out = [r.val, q.val]) (apart : r ≠ q) :
    e.xferEnd c (x.landed r) = e.setXfers c [{ x with out := [q.val], done := x.done + 1 }] := by
  have other : q.val ≠ r.val := fun h => apart (Fin.ext h.symm)
  have landed : x.landed r = { x with out := [q.val], done := x.done + 1 } := by simp [TileXfer.landed, out, other]
  rw [landed]
  exact State.xferEnd_left only rfl rfl (.inr (List.cons_ne_nil q.val []))

theorem tileRowLand_lands (home : s.fld RTR_REDIR_EN c 0 = 0) (clear : s.answeredAhead c = false) (only : (s.core c).xfers = [x]) (thread : x.thread = t)
    (mb : x.mb = m) (load : x.store = false) (out : x.out = [r.val, q.val]) (apart : r ≠ q) (v : BitVec 544) :
    Completes (.tileRowLand c t m r 0 v) s (fun u => (u.core c).xfers = [{ x with out := [q.val], done := x.done + 1 }] ∧
      (u.tileRow c x.tile r).data.toNat = v.toNat % 2 ^ (8 * s.tBpr c x.tile) % 2 ^ 512 ∧ ((u.core c).tile x.tile).valid.toNat / 2 ^ r.val % 2 = 1) := by
  have flown := s.flown_landAccess c (.row t m r) 0
  have same := flown.xfers.trans only
  obtain ⟨data, valid, xfers⟩ := State.putRow_leaves (s.landAccess c (.row t m r) 0) c x.tile v.toNat r
  refine completes_of_inward home clear (f := fun c s => s.rowLand c t m r 0 v) rfl ?_
  rw [State.rowLand_ok (Core.xfer_only same thread mb) load (by simp [out]), State.xferEnd_landed (xfers.trans same) out apart]
  rw [State.tBpr, flown.fld] at data
  simp only [State.tileRow, State.core_setXfers]
  exact ⟨trivial, data, valid⟩

theorem tileRowAck_counts (home : s.fld RTR_REDIR_EN c 0 = 0) (clear : s.answeredAhead c = false) (only : (s.core c).xfers = [x]) (thread : x.thread = t)
    (mb : x.mb = m) (store : x.store = true) (out : x.out = [r.val, q.val]) (apart : r ≠ q) :
    Completes (.tileRowAck c t m r 0) s (fun u => (u.core c).xfers = [{ x with out := [q.val], done := x.done + 1 }] ∧ u.mem = s.mem) := by
  have flown := s.flown_landAccess c (.row t m r) 0
  have same := flown.xfers.trans only
  refine completes_of_inward home clear (f := fun c s => s.rowAck c t m r 0) rfl ?_
  rw [State.rowAck_ok (Core.xfer_only same thread mb) store (by simp [out]), State.xferEnd_landed same out apart, State.core_setXfers, State.mem_setXfers]
  exact ⟨rfl, flown.mem⟩

end

/-- Settles O25. TCFG and TREL change one tile of the core and its register; a row's request, reply or acknowledgement changes the core's only transfer,
and the reply its tile. -/
theorem tileConfigurationAndRowEventsComplete : Obligations.TileConfigurationAndRowEventsComplete := by
  refine ⟨fun c t w s runs h => ?_, fun c t m r s x q v p home clear only thread mb _ => ?_⟩
  · intro e n v
    refine ⟨fun low zero idle allowed => tcfg_configures runs h low zero idle allowed,
      fun a b z idle rows mine => trel_tile0 false runs h a b z idle rows mine fun u walks => ⟨?_, fun r other q i hq hi =>
        (walks.regs r other q i hq hi).trans (State.reg_letGo_emptied r q i)⟩,
      fun a b z idle rows mine => trel_tile0 true runs h a b z idle rows mine fun u walks => ?_⟩
    · rw [walks.tile, State.letGo, if_neg Bool.false_ne_true, State.tile_dropLatches, State.tile_setTile_same]
    · rw [State.tRows, walks.fld (by decide) (by decide), walks.tile]
      exact ⟨State.fld_configure 0 rfl, State.tile_configure_same 0⟩
  · exact ⟨fun load todo out empty acked place => tileRowRequest_leaves only thread mb load todo out empty acked place,
      fun load _ out apart => tileRowLand_lands home clear only thread mb load out apart v,
      fun store _ out apart => tileRowAck_counts home clear only thread mb store out apart⟩

end Sys2Proof.Machine
end

section
/-!
SUPPORT and O26. The words that begin and end a transfer of rows, and those that move one row (R158 to R162, R230).
-/
namespace Sys2Proof.Machine

/-! ### A transfer begins -/

section
variable {e s : State} {c : CoreId} {t : ThreadId} {w : LR}

/-- The checks of a word that begins a transfer pass (R80, R158 to R160). -/
structure State.MayBegin (e : State) (c t : Nat) (w : LR) : Prop where
  empty : ((e.thr c t).mbox (w.a.toNat / 8)).st = .empty
  configured : e.tRows c (w.a.toNat % 8) ≠ 0
  mine : e.tileMine c t (w.a.toNat % 8) = true
  base : (e.x c t w.b).toNat % 4 = 0
  stride : (e.x c t w.c).toNat % 4 = 0

theorem State.MayBegin.checked (h : e.MayBegin c t w) (k : Fx) : e.xferCheck c t w k = k := by
  have free : e.mbBusy c t (w.a.toNat / 8) = false := by rw [State.mbBusy, h.empty]; rfl
  simp [State.xferCheck, free, h.configured, h.mine, h.base, h.stride]

/-- The transfer of the given rows that a word begins. -/
def State.newXfer (e : State) (c t n : Nat) (store : Bool) (w : LR) (rows : List Nat) : TileXfer :=
  { tile := n, thread := t, world := e.world c t, level := e.level c t, store := store, base := e.x c t w.b, stride := e.x c t w.c,
    mb := w.a.toNat / 8, todo := rows }

/-- A transfer that begins where the core has none is its only one, and its mailbox is PENDING. -/
theorem State.xferStart_begins {n : Nat} {store : Bool} {rows : List Nat} (noXfer : (e.core c).xfers = []) (anyRow : rows ≠ []) :
    e.xferStart c t n store w rows = ((e.setXfers c [e.newXfer c t n store w rows]).mbPend c t (w.a.toNat / 8)).setXfers c [e.newXfer c t n store w rows] := by
  have pending : (((e.setXfers c [e.newXfer c t n store w rows]).mbPend c t (w.a.toNat / 8)).core c).xfers = [e.newXfer c t n store w rows] := by
    rw [State.mbPend, State.core_setThr_same, State.core_setXfers]
  rw [← State.xferEnd_left pending rfl rfl (.inl anyRow)]
  simp only [State.xferStart, noXfer, List.nil_append]
  rfl

/-- The issuer's transfer of the given rows has begun and its mailbox is PENDING. -/
def State.Begun (u e : State) (c t : Nat) (w : LR) (store : Bool) (rows : List Nat) : Prop :=
  (∃ x ∈ (u.core c).xfers, x.tile = w.a.toNat % 8 ∧ x.thread = t ∧ x.store = store ∧ x.mb = w.a.toNat / 8 ∧ x.base = e.x c t w.b ∧
    x.stride = e.x c t w.c ∧ x.todo = rows ∧ x.out = []) ∧ ((u.thr c t).mbox (w.a.toNat / 8)).st = .pending

/-- A word that begins a transfer on `m`, the state with the tile's valid bits as the word leaves them. -/
theorem begins_transfer {i : Instr} {body : State → Fx} {m : State} {store : Bool} {rows : List Nat} (runs : s.Runs c t w.g) (h : s.Settled c t)
    (noXfer : ((s.reads c t).core c).xfers = []) (anyRow : rows ≠ []) (word : exec i s = s.word c t w.g [] body)
    (done : body (s.reads c t) = .done (m.xferStart c t (w.a.toNat % 8) store w rows)) (thr : m.thr c t = (s.reads c t).thr c t)
    (xfers : (m.core c).xfers = ((s.reads c t).core c).xfers) (regs : m.regs = (s.reads c t).regs) :
    Completes i s (fun u => u.Begun (s.reads c t) c t w store rows) := by
  have starts := State.xferStart_begins (c := c) (t := t) (w := w) (n := w.a.toNat % 8) (store := store) (xfers.trans noXfer) anyRow
  have own : (m.xferStart c t (w.a.toNat % 8) store w rows).thr c t = ((s.reads c t).thr c t).setMbox (w.a.toNat / 8) { st := .pending } := by
    rw [starts, State.thr_setXfers, State.mbPend, State.thr_setThr_same, State.thr_setXfers, thr]
  have kept : (m.xferStart c t (w.a.toNat % 8) store w rows).regs = (s.reads c t).regs := by rw [starts, ← regs]; rfl
  refine completes_walking runs h rfl word done (by rw [own, Thread.setMbox]) (State.tf_congr kept ..) fun u walks goes => ⟨⟨m.newXfer c t (w.a.toNat % 8) store w rows, ?_, ?_⟩, ?_⟩
  · rw [walks.xfers, starts, State.core_setXfers]
    exact List.mem_singleton.2 rfl
  · simp only [State.newXfer, State.x, thr, and_self]
  · rw [Thread.mbox, goes.only.mb, own, Thread.setMbox, Sparse.get_set_same]

/-- The valid bits of a tile with those of the given rows cleared. -/
def Tile.without (x : Tile) (rows : List Nat) : Tile := { x with valid := x.valid &&& BitVec.ofNat 64 (maskOf 64 (fun r => !rows.contains r)) }

theorem execTld_eq (c : CoreId) (t : ThreadId) (w : LR) (s : State) : exec (.tld c t w) s = s.word c t w.g [] (fun s => s.xferCheck c t w
    (.done ((s.setTile c (w.a.toNat % 8) (((s.core c).tile (w.a.toNat % 8)).without (s.myRows c t (w.a.toNat % 8)))).xferStart c t (w.a.toNat % 8) false w
      (s.myRows c t (w.a.toNat % 8))))) := rfl

theorem tld_begins (runs : s.Runs c t w.g) (h : s.Settled c t) (noXfer : ((s.reads c t).core c).xfers = []) (may : (s.reads c t).MayBegin c t w)
    (anyRow : (s.reads c t).myRows c t (w.a.toNat % 8) ≠ []) :
    Completes (.tld c t w) s (fun u => u.Begun (s.reads c t) c t w false ((s.reads c t).myRows c t (w.a.toNat % 8))) :=
  begins_transfer runs h noXfer anyRow (execTld_eq c t w s) (may.checked _) (State.thr_setTile _ t) (by rw [State.core_setTile]) rfl

/-- TLD.r begins one of the rows that are not valid. -/
theorem tldR_begins (runs : s.Runs c t w.g) (h : s.Settled c t) (noXfer : ((s.reads c t).core c).xfers = []) (may : (s.reads c t).MayBegin c t w) {l : List Nat}
    (rows : l = ((s.reads c t).myRows c t (w.a.toNat % 8)).filter (fun r => nbit (((s.reads c t).core c).tile (w.a.toNat % 8)).valid.toNat r = 0))
    (anyRow : l ≠ []) : Completes (.tldR c t w) s (fun u => u.Begun (s.reads c t) c t w false l) := by
  rw [rows] at anyRow ⊢
  exact begins_transfer runs h noXfer anyRow rfl (may.checked _) rfl rfl rfl

/-- TST begins one of the valid rows. -/
theorem tst_begins (runs : s.Runs c t w.g) (h : s.Settled c t) (noXfer : ((s.reads c t).core c).xfers = []) (may : (s.reads c t).MayBegin c t w) {l : List Nat}
    (rows : l = ((s.reads c t).myRows c t (w.a.toNat % 8)).filter (fun r => nbit (((s.reads c t).core c).tile (w.a.toNat % 8)).valid.toNat r = 1))
    (anyRow : l ≠ []) : Completes (.tst c t w) s (fun u => u.Begun (s.reads c t) c t w true l) := by
  rw [rows] at anyRow ⊢
  exact begins_transfer runs h noXfer anyRow rfl (may.checked _) rfl rfl rfl

end

/-! ### TLDQ -/

section
variable {e s : State} {c : CoreId} {t : ThreadId} {w : LR} {z : TileXfer}

/-- The issuer's TLD on tile n that TLDQ ends: one with a row still to request and none failed (R162). -/
def TileXfer.quits (x : TileXfer) (n t : Nat) : Bool := x.tile = n && x.thread = t && !x.store && !x.todo.isEmpty && x.fail.isNone

theorem execTldq_eq (c : CoreId) (t : ThreadId) (w : LR) (s : State) : exec (.tldq c t w) s =
    s.word c t w.g (encZ [w.a.toNat < 8, w.b = 0, w.c = 0]) (fun s =>
      match (s.core c).xfers.find? (fun x => x.quits w.a.toNat t) with
      | some x => .done (s.xferEnd c { x with todo := [], quit := true })
      | none => .done s) := rfl

theorem tldq_idle (runs : s.Runs c t w.g) (a : w.a.toNat < 8) (b : w.b = 0) (zero : w.c = 0)
    (others : ∀ x ∈ ((s.reads c t).core c).xfers, x.tile ≠ w.a.toNat ∨ x.thread ≠ t) : Does (.tldq c t w) s c t id := by
  have nothing : ((s.reads c t).core c).xfers.find? (fun x => x.quits w.a.toNat t) = none := by
    refine List.find?_eq_none.2 fun x mem quits => ?_
    simp only [TileXfer.quits, Bool.and_eq_true, decide_eq_true_eq] at quits
    obtain ⟨⟨⟨⟨tile, thread⟩, -⟩, -⟩, -⟩ := quits
    exact (others x mem).elim (fun n => n tile) (fun n => n thread)
  refine does_of_done (f := id) runs (by simp [encZ, a, b, zero]) (execTldq_eq c t w s) ?_
  simp only [nothing, id]

/-- The transfer that is the core's only one, and the issuer's TLD on the tile. -/
structure TileXfer.IsOnly (z : TileXfer) (e : State) (c t n : Nat) : Prop where
  only : (e.core c).xfers = [z]
  tile : z.tile = n
  thread : z.thread = t
  load : z.store = false
  unfailed : z.fail = none
  more : z.todo ≠ []

theorem tldq_ends {P : State → Prop} {m : State} (runs : s.Runs c t w.g) (h : s.Settled c t) (a : w.a.toNat < 8) (b : w.b = 0) (zero : w.c = 0)
    (mine : z.IsOnly (s.reads c t) c t w.a.toNat) (ends : (s.reads c t).xferEnd c { z with todo := [], quit := true } = m)
    (step : (m.thr c t).stepReq = ((s.reads c t).thr c t).stepReq) (regs : m.regs = (s.reads c t).regs)
    (holds : ∀ u : State, u.Walks m c → u.GoesOn m c t → P u) : Completes (.tldq c t w) s P := by
  have found : ((s.reads c t).core c).xfers.find? (fun x => x.quits w.a.toNat t) = some z := by
    rw [mine.only]
    exact List.find?_cons_of_pos (by simp [TileXfer.quits, mine.tile, mine.thread, mine.load, mine.unfailed, mine.more])
  refine completes_walking runs h (by simp [encZ, a, b, zero]) (execTldq_eq c t w s) ?_ step (State.tf_congr regs ..) holds
  simp only [found, ends]

/-- A transfer with rows on their way requests no further one. -/
theorem tldq_quits (runs : s.Runs c t w.g) (h : s.Settled c t) (a : w.a.toNat < 8) (b : w.b = 0) (zero : w.c = 0)
    (mine : z.IsOnly (s.reads c t) c t w.a.toNat) (out : z.out ≠ []) : Completes (.tldq c t w) s (fun u =>
      (u.core c).xfers = [{ z with todo := [], quit := true }] ∧ u.mem = (s.reads c t).mem) := by
  refine tldq_ends runs h a b zero mine (State.xferEnd_left mine.only rfl rfl (.inr out)) (by rw [State.thr_setXfers]) rfl fun u walks goes => ⟨?_, ?_⟩
  · rw [walks.xfers, State.core_setXfers]
  · rw [goes.only.memory.1, State.mem_setXfers]

/-- The core's only transfer, with no row on its way, ends with 0x0104 in its mailbox. -/
theorem State.xferEnd_quit (only : (e.core c).xfers = [z]) (thread : z.thread = t) (unfailed : z.fail = none) (out : z.out = [])
    (pending : ((e.thr c t).mbox z.mb).st = .pending) (ready : (e.thr c t).st = .ready) :
    e.xferEnd c { z with todo := [], quit := true } =
      (e.setXfers c []).setThr c t ((e.thr c t).setMbox z.mb { st := .error, err := 0x0104 }) := by
  have own : (e.setXfers c []).thr c t = e.thr c t := State.thr_setXfers []
  have none_left : (e.core c).xfers.filter (fun y => !(y.thread = z.thread && y.mb = z.mb)) = [] := by simp [only]
  have replies := State.mbReply_awake (s := e.setXfers c []) (m := z.mb) (by rw [own, pending]) (by rw [own, ready]; decide) 0x0104 0
  rw [own] at replies
  rw [← thread] at replies ⊢
  simp only [State.xferEnd, out, unfailed, none_left, List.isEmpty_nil, Bool.and_self, if_true]
  exact replies

theorem tldq_fails (runs : s.Runs c t w.g) (h : s.Settled c t) (a : w.a.toNat < 8) (b : w.b = 0) (zero : w.c = 0)
    (mine : z.IsOnly (s.reads c t) c t w.a.toNat) (out : z.out = []) (pending : (((s.reads c t).thr c t).mbox z.mb).st = .pending)
    (ready : ((s.reads c t).thr c t).st = .ready) : Completes (.tldq c t w) s (fun u =>
      (u.core c).xfers = [] ∧ (u.thr c t).mbox z.mb = { st := .error, err := 0x0104 } ∧ u.mem = (s.reads c t).mem) := by
  refine tldq_ends runs h a b zero mine (State.xferEnd_quit mine.only mine.thread mine.unfailed out pending ready) (by rw [State.thr_setThr_same, Thread.setMbox]) rfl
    fun u walks goes => ⟨?_, ?_, ?_⟩
  · rw [walks.xfers, State.core_setThr_same, State.core_setXfers]
  · rw [Thread.mbox, goes.only.mb, State.thr_setThr_same, Thread.setMbox, Sparse.get_set_same]
  · rw [goes.only.memory.1, State.setThr_mem, State.mem_setXfers]

end

/-! ### Row moves -/

section
variable {e s : State} {c : CoreId} {t : ThreadId} {w : LR} {n r : Nat}

/-- The issuer may move row r of tile n (R158, R159). -/
structure State.MayMove (e : State) (c t n r : Nat) : Prop where
  configured : e.tRows c n ≠ 0
  mine : e.tileMine c t n = true
  inside : r < e.tRows c n
  owner : e.fld tcfg_BASE c n + r % e.fld tcfg_GANG c n = t

theorem State.MayMove.checked (h : e.MayMove c t n r) {scales needValid : Bool} (scaled : scales = true → scaleBytes (e.tFmt c n) (e.tBpr c n) ≠ 0)
    (valid : needValid = true → ((e.core c).tile n).valid.toNat / 2 ^ r % 2 = 1) : e.rowDetail c t n r scales needValid = none := by
  have hasScales : (scales && decide (scaleBytes (e.tFmt c n) (e.tBpr c n) = 0)) = false := by
    cases scales
    · rfl
    · simp [scaled rfl]
  have isValid : (needValid && decide (nbit ((e.core c).tile n).valid.toNat r = 0)) = false := by
    cases needValid
    · rfl
    · simp [nbit, Nat.shiftRight_eq_div_pow, valid rfl]
  simp [State.rowDetail, h.configured, h.mine, hasScales, h.inside, h.owner, isValid]

theorem State.thr_shortBusy (j : Nat) : (e.shortBusy c t n).thr c j = e.thr c j := State.thr_setTile _ j

theorem State.cyc_shortBusy : ((e.shortBusy c t n).core c).cyc = (e.core c).cyc := by rw [State.shortBusy, State.core_setTile]

/-- A short row operation keeps the tile's rows. -/
theorem State.tileRow_shortBusy : (e.shortBusy c t n).tileRow c n r = e.tileRow c n r := by
  rw [State.tileRow, State.shortBusy, State.tile_setTile_same, State.tileRow]

theorem State.fld_shortBusy (f : Field) (q i k : Nat) : (e.shortBusy c t n).fld f q i k = e.fld f q i k := rfl

theorem State.tBpr_shortBusy : (e.shortBusy c t n).tBpr c n = e.tBpr c n := State.fld_shortBusy ..

theorem State.tFmt_shortBusy : (e.shortBusy c t n).tFmt c n = e.tFmt c n := State.fld_shortBusy ..

theorem State.x_shortBusy (k : BitVec 5) : (e.shortBusy c t n).x c t k = e.x c t k := by rw [State.x, State.thr_shortBusy, State.x]

theorem State.vr_shortBusy (k : BitVec 5) : (e.shortBusy c t n).vr c t k = e.vr c t k := by rw [State.vr, State.thr_shortBusy, State.vr]

/-- A row move that passes its checks puts its value in flight at distance 3 (R75, R163). -/
theorem moves_row {i : Instr} {enc : List Nat} {scales needValid : Bool} {d : State → Nat → Nat → Dest} {v : State → Nat → Nat → Nat} {dest : Dest} {val : Nat}
    (runs : s.Runs c t w.g) (h : s.Settled c t) (legal : enc = [])
    (word : exec i s = s.word c t w.g enc (fun s => s.rowMove c t w scales needValid (fun s n r => s.fly c t (d s n r) (v s n r) 3)))
    (may : (s.reads c t).MayMove c t w.b.toNat ((s.reads c t).rowNum c t w))
    (scaled : scales = true → scaleBytes ((s.reads c t).tFmt c w.b.toNat) ((s.reads c t).tBpr c w.b.toNat) ≠ 0)
    (valid : needValid = true → (((s.reads c t).core c).tile w.b.toNat).valid.toNat / 2 ^ (s.reads c t).rowNum c t w % 2 = 1)
    (goesTo : d ((s.reads c t).shortBusy c t w.b.toNat) w.b.toNat ((s.reads c t).rowNum c t w) = dest)
    (gives : v ((s.reads c t).shortBusy c t w.b.toNat) w.b.toNat ((s.reads c t).rowNum c t w) = val) :
    Completes i s (fun u => (u.thr c t).flight = [⟨dest, val, ((s.reads c t).core c).cyc + 3⟩]) := by
  have own : (((s.reads c t).shortBusy c t w.b.toNat).fly c t dest val 3).thr c t =
      { (s.reads c t).thr c t with flight := [⟨dest, val, ((s.reads c t).core c).cyc + 3⟩] } := by
    rw [State.fly, State.thr_setThr_same, State.thr_shortBusy, State.cyc_shortBusy, h.landed, addFlight]
  refine completes_walking runs h legal word (m := ((s.reads c t).shortBusy c t w.b.toNat).fly c t dest val 3) ?_ (by rw [own])
    ((State.tf_setThr ..).trans (State.fld_shortBusy ..)) fun u _ goes => ?_
  · simp only [State.rowMove, may.checked scaled valid, goesTo, gives]
  · obtain ⟨_, _, _, _, thr⟩ := goes.thread
    rw [thr, own]

end

/-- Settles O26. Each word of a transfer leaves the core with one transfer, or with none; a row move is a write in flight, and keeps its tile busy. -/
theorem tileMoveWordsComplete : Obligations.TileMoveWordsComplete := by
  intro c t w s z runs h e n mb valid begun
  refine ⟨fun noXfer empty configured mine base stride => ?begin, fun a b zero others => tldq_idle runs a b zero others,
    fun a b zero only tile thread load unfailed more => ?quit, fun low => ?row⟩
  case begin =>
    have may : e.MayBegin c t w := ⟨empty, configured, mine, base, stride⟩
    refine ⟨fun anyRow => tld_begins runs h noXfer may anyRow, fun l rows anyRow => tldR_begins runs h noXfer may (rows.trans ?_) anyRow,
      fun l rows anyRow => tst_begins runs h noXfer may (rows.trans ?_) anyRow⟩
    · refine List.filter_congr fun r _ => ?_
      rw [nbit, Nat.shiftRight_eq_div_pow, ← decide_not, decide_eq_decide]
      exact Nat.mod_two_ne_one
    · exact List.filter_congr fun r _ => by rw [nbit, Nat.shiftRight_eq_div_pow]
  case quit =>
    have mine : z.IsOnly e c t w.a.toNat := ⟨only, tile, thread, load, unfailed, more⟩
    exact ⟨tldq_quits runs h a b zero mine, tldq_fails runs h a b zero mine⟩
  case row =>
    intro m r configured mine inside owner
    have may : e.MayMove c t m r := ⟨configured, mine, inside, owner⟩
    have legal (a : w.a.toNat < 16) : encV [w.a] ++ encZ [decide (w.b.toNat < 8)] = [] := by
      rw [encV_legal (by simp [a])]
      simp [encZ, low]
    have legalScale : encZ [decide (w.b.toNat < 8)] = [] := by simp [encZ, low]
    refine ⟨fun a isValid => moves_row runs h (legal a) rfl may (fun h => nomatch h) (fun _ => isValid) rfl ?_,
      fun a => moves_row runs h (legal a) rfl may (fun h => nomatch h) (fun h => nomatch h) rfl ?_,
      fun scaled isValid => moves_row runs h legalScale rfl may (fun _ => scaled) (fun _ => isValid) rfl ?_,
      fun scaled => moves_row runs h legalScale rfl may (fun _ => scaled) (fun h => nomatch h) rfl ?_⟩
    · simp only [State.tileRow_shortBusy, State.tBpr_shortBusy]
      rfl
    · simp only [State.vr_shortBusy, State.tBpr_shortBusy]
      rfl
    · simp only [State.tileRow_shortBusy]
      rfl
    · simp only [State.x_shortBusy, State.tBpr_shortBusy, State.tFmt_shortBusy]
      rfl

end Sys2Proof.Machine
end

section
/-!
SUPPORT and O27. The words of the matrix queue, and what its front entry, an image access and the shadow checker do (R175 to R179, R191, R194, R196, R197,
R200, R230).
-/
namespace Sys2Proof.Machine

/-! ### An operation finds its place in the queue -/

section
variable {u m e s : State} {c : CoreId} {t : ThreadId} {n : Nat} {op : MOp}

/-- The operation `op` on accumulator n stands in u at the end of core c's matrix queue of e, as thread t issues it in e (R179). -/
def State.Queues (u e : State) (c t : Nat) (op : MOp) (n : Nat) : Prop :=
  ∃ y, (u.core c).mq = (e.core c).mq ++ [y] ∧ y.op = op ∧ y.acc = n ∧ y.thread = t ∧ y.pc = (e.thr c t).pc ∧ y.mode = e.modeNow c t ∧
    y.issWorld = e.world c t ∧ y.running = false ∧ y.void = false

/-- In m a matrix word has given its accumulator's type and world and taken its mailbox: all else that its entry is made of is as in e. -/
structure State.Prepares (m e : State) (c t : Nat) : Prop where
  queue : (m.core c).mq = (e.core c).mq
  thread : ∃ mb, m.thr c t = { e.thr c t with mb := mb }
  regs : m.regs = e.regs

theorem State.Prepares.refl (e : State) (c t : Nat) : e.Prepares e c t := ⟨rfl, ⟨_, rfl⟩, rfl⟩

theorem State.Prepares.trans {c t : Nat} (next : u.Prepares m c t) (first : m.Prepares e c t) : u.Prepares e c t := by
  obtain ⟨mb, later⟩ := next.thread
  obtain ⟨_, before⟩ := first.thread
  exact ⟨next.queue.trans first.queue, ⟨mb, by rw [later, before]⟩, next.regs.trans first.regs⟩

theorem State.prepares_mbPend (e : State) (c t k : Nat) : (e.mbPend c t k).Prepares e c t :=
  ⟨by rw [State.mbPend, State.core_setThr_same], ⟨_, State.thr_setThr_same ..⟩, rfl⟩

theorem State.core_setAcc (e : State) (c n : Nat) (x : Accum) : (e.setAcc c n x).core c = { e.core c with accs := Sparse.set {} (e.core c).accs n x } :=
  State.core_setCore_same ..

@[simp] theorem State.acc_setAcc_same (e : State) (c n : Nat) (x : Accum) : ((e.setAcc c n x).core c).acc n = x := by
  rw [State.core_setAcc]
  exact Sparse.get_set_same ..

@[simp] theorem State.thr_setAcc (e : State) (c t n : Nat) (x : Accum) : (e.setAcc c n x).thr c t = e.thr c t := State.thr_setCore_kept e c t rfl

theorem State.prepares_setAcc (e : State) (c t n : Nat) (x : Accum) : (e.setAcc c n x).Prepares e c t :=
  ⟨by rw [State.core_setAcc], ⟨_, State.thr_setAcc ..⟩, rfl⟩

theorem State.Prepares.world {c t : Nat} (h : m.Prepares e c t) : m.world c t = e.world c t := State.tf_congr h.regs ..

theorem State.Prepares.mode {c t : Nat} (h : m.Prepares e c t) : m.modeNow c t = e.modeNow c t := by
  obtain ⟨_, thread⟩ := h.thread
  simp only [State.modeNow, thread, State.treg, State.reg, h.regs]

/-- Accumulator n with the type of thread t's mode and the thread's world (R191, R194). -/
def State.accFor (e : State) (c t n : Nat) : Accum := { (e.core c).acc n with typ := modeTyp (e.modeNow c t), world := e.world c t }

theorem State.accFor_gives (e : State) (c t n : Nat) : (e.accFor c t n).typ = modeTyp (e.modeNow c t) ∧ (e.accFor c t n).world = e.world c t := ⟨rfl, rfl⟩

/-- The core's queue after a word: an operation of the other world ends LIVE of a latch set, and nothing else of the core changes (R166). -/
theorem State.core_mqPut (m : State) (c t n : Nat) (op : MOp) : ∃ a b y, (m.mqPut c t n op).core c =
      { m.core c with latchA := a, latchB := b, mq := (m.core c).mq ++ [y] } ∧
    y.op = op ∧ y.acc = n ∧ y.thread = t ∧ y.pc = (m.thr c t).pc ∧ y.mode = m.modeNow c t ∧ y.issWorld = m.world c t ∧ y.running = false ∧ y.void = false :=
  ⟨_, _, _, State.core_setCore_same .., rfl, rfl, rfl, rfl, rfl, rfl, rfl, rfl⟩

theorem State.thr_mqPut (m : State) (c t n : Nat) (op : MOp) : (m.mqPut c t n op).thr c t = m.thr c t := State.thr_setCore_kept m c t rfl

/-- The entry is made of the state before the word. -/
theorem State.Prepares.queues {c t : Nat} (h : m.Prepares e c t) (n : Nat) (op : MOp) : (m.mqPut c t n op).Queues e c t op n := by
  obtain ⟨_, _, y, core, hop, hacc, hthread, hpc, hmode, hworld, idle⟩ := m.core_mqPut c t n op
  obtain ⟨_, thread⟩ := h.thread
  exact ⟨y, by rw [core, h.queue], hop, hacc, hthread, by rw [hpc, thread], hmode.trans h.mode, hworld.trans h.world, idle⟩

theorem State.accs_mqPut (m : State) (c t n : Nat) (op : MOp) : ((m.mqPut c t n op).core c).accs = (m.core c).accs := by
  obtain ⟨_, _, _, core, -⟩ := m.core_mqPut c t n op
  rw [core]

/-- A word whose operation is queued: the accumulators and the thread's mailboxes are as it prepared them. -/
theorem completes_queued {g : BitVec 4} {i : Instr} {enc : List Nat} {body : State → Fx} {P : State → Prop} (runs : s.Runs c t g) (h : s.Settled c t)
    (legal : enc = []) (word : exec i s = s.word c t g enc body) (prepared : m.Prepares (s.reads c t) c t)
    (done : body (s.reads c t) = .done (m.mqPut c t n op))
    (holds : ∀ u : State, u.Queues (s.reads c t) c t op n → (∀ j, (u.core c).acc j = (m.core c).acc j) → (∀ j, (u.thr c t).mbox j = (m.thr c t).mbox j) → P u) :
    Completes i s P := by
  obtain ⟨_, thread⟩ := prepared.thread
  refine completes_walking runs h legal word done (by rw [State.thr_mqPut, thread]) (State.tf_congr prepared.regs ..) fun u walks goes => ?_
  obtain ⟨_, core⟩ := walks.core
  refine holds u ?_ (fun j => ?_) (fun j => ?_)
  · unfold State.Queues
    rw [core]
    exact prepared.queues n op
  · rw [Core.acc, core, State.accs_mqPut, Core.acc]
  · rw [Thread.mbox, goes.only.mb, State.thr_mqPut, Thread.mbox]

end

/-! ### The checks of the matrix words -/

section
variable {e s : State} {c : CoreId} {t : ThreadId} {w : LR}

/-- The matrix queue has a place free (R179). -/
theorem State.mqWord_room (room : (e.core c).mq.length < 4) (k : Fx) : e.mqWord c t k = k := if_neg (Nat.not_le.2 room)

/-- The check of worlds passes unless a thread of world 0 names an accumulator of world 1 (R190). -/
theorem worldAllowed_iff {x : Accum} {world : Nat} : (decide (x.world = 1) && decide (world = 0)) = false ↔ x.world ≠ 1 ∨ world ≠ 0 := by
  simp only [Bool.and_eq_false_iff, decide_eq_false_iff_not, ne_eq]

/-- What the image words ask of their operands: an aligned image and an empty mailbox (R194, R198). -/
structure State.MayMoveImage (e : State) (c t : Nat) (w : LR) : Prop where
  aligned : (e.x c t w.b).toNat % 64 = 0
  empty : ((e.thr c t).mbox w.c.toNat).st = .empty
  acc : w.a.toNat < 4
  mailbox : w.c.toNat < 4

theorem State.MayMoveImage.legal (h : e.MayMoveImage c t w) : imageEnc w = [] := by simp [imageEnc, encZ, h.acc, h.mailbox]

theorem State.MayMoveImage.checked (h : e.MayMoveImage c t w) (room : (e.core c).mq.length < 4) (k : Fx) : e.imageWord c t w none k = k := by
  have free : e.mbBusy c t w.c.toNat = false := by rw [State.mbBusy, h.empty]; rfl
  simp [State.imageWord, State.mqWord_room room, free, h.aligned]

/-- Without a WRF of the thread on its way, no write of its stream is withheld (R353). -/
theorem State.wrfHolds_none (noWrf : (e.thr c t).wrfOut = none) (p : Place) : e.wrfHolds c t p = false := by
  unfold State.wrfHolds
  rw [noWrf]

end

/-! ### The matrix words -/

section
variable {s : State} {c : CoreId} {t : ThreadId} {w : LR}

/-- MMA names its operands by tile and slice, and the latches that it keeps by bits 4 and 5 of FN (R175, R198). -/
theorem mma_queues {fn : BitVec 6} (runs : s.Runs c t w.g) (h : s.Settled c t) (room : ((s.reads c t).core c).mq.length < 4) (a : w.a.toNat < 4)
    (b : w.b.toNat < 8) (z : w.c.toNat < 8) {keepA keepB : Bool} (ka : decide (nbit fn.toNat 4 = 1) = keepA) (kb : decide (nbit fn.toNat 5 = 1) = keepB)
    (allowed : (s.reads c t).mmaDetail c t w.a.toNat w.b.toNat w.c.toNat (fn.toNat % 4) (fn.toNat / 4 % 4) keepA keepB = none) :
    Completes (.mma c t fn w) s (fun u =>
      u.Queues (s.reads c t) c t (.mma w.b.toNat w.c.toNat (fn.toNat % 4) (fn.toNat / 4 % 4) keepA keepB) w.a.toNat) := by
  refine completes_queued runs h (by simp [encZ, a, b, z]) rfl (.refl _ c t) ?_ fun u queues _ _ => queues
  simp only [State.mqWord_room room, ka, kb, allowed]

theorem acvt_queues (runs : s.Runs c t w.g) (h : s.Settled c t) (room : ((s.reads c t).core c).mq.length < 4) (b : w.b.toNat < 16)
    (allowed : (s.reads c t).acvtDetail c t (w.a.toNat % 8) (w.b.toNat % 4) (w.a.toNat / 8) (w.b.toNat / 4) = none) :
    Completes (.acvt c t w) s (fun u => u.Queues (s.reads c t) c t (.acvt (w.a.toNat % 8) (w.a.toNat / 8) (w.b.toNat / 4) ((s.reads c t).x c t w.c))
      (w.b.toNat % 4)) := by
  refine completes_queued runs h (by simp [encZ, b]) rfl (.refl _ c t) ?_ fun u queues _ _ => queues
  simp only [State.mqWord_room room, allowed]

theorem azero_queues (runs : s.Runs c t w.g) (h : s.Settled c t) (room : ((s.reads c t).core c).mq.length < 4) (a : w.a.toNat < 4) (b : w.b = 0) (z : w.c = 0)
    (mine : (((s.reads c t).core c).acc w.a.toNat).world ≠ 1 ∨ (s.reads c t).world c t ≠ 0) :
    Completes (.azero c t w) s (fun u => u.Queues (s.reads c t) c t .azero w.a.toNat ∧
      ((u.core c).acc w.a.toNat).typ = modeTyp ((s.reads c t).modeNow c t) ∧ ((u.core c).acc w.a.toNat).world = (s.reads c t).world c t) := by
  refine completes_queued runs h (by simp [encZ, a, b, z]) rfl
    (State.prepares_setAcc _ c t w.a.toNat ((s.reads c t).accFor c t w.a.toNat)) ?_ fun u queues accs _ => ⟨queues, ?_⟩
  · simp only [State.mqWord_room room, worldAllowed_iff.2 mine, Bool.false_eq_true, if_false]
    rfl
  · rw [accs, State.acc_setAcc_same]
    exact State.accFor_gives ..

theorem State.mbox_mbPend (e : State) (c t k : Nat) : (((e.mbPend c t k).thr c t).mbox k).st = .pending := by
  rw [State.mbPend, State.thr_setThr_same, Thread.setMbox, Thread.mbox, Sparse.get_set_same]

theorem astx_queues (runs : s.Runs c t w.g) (h : s.Settled c t) (room : ((s.reads c t).core c).mq.length < 4) (image : (s.reads c t).MayMoveImage c t w)
    (typed : (((s.reads c t).core c).acc w.a.toNat).typ ≠ 0)
    (mine : (((s.reads c t).core c).acc w.a.toNat).world ≠ 1 ∨ (s.reads c t).world c t ≠ 0) (noWrf : ((s.reads c t).thr c t).wrfOut = none) :
    Completes (.astx c t w) s (fun u => u.Queues (s.reads c t) c t (.astx w.c.toNat ((s.reads c t).x c t w.b)) w.a.toNat ∧
      ((u.thr c t).mbox w.c.toNat).st = .pending) := by
  refine completes_queued runs h image.legal rfl (State.prepares_mbPend _ c t w.c.toNat) ?_ fun u queues _ mail => ⟨queues, ?_⟩
  · simp only [State.wrfHolds_none noWrf, if_neg typed, worldAllowed_iff.2 mine, Bool.false_eq_true, if_false, image.checked room]
  · rw [mail, State.mbox_mbPend]

theorem aldx_queues (runs : s.Runs c t w.g) (h : s.Settled c t) (room : ((s.reads c t).core c).mq.length < 4) (image : (s.reads c t).MayMoveImage c t w)
    (mine : (((s.reads c t).core c).acc w.a.toNat).world ≠ 1 ∨ (s.reads c t).world c t ≠ 0) :
    Completes (.aldx c t w) s (fun u => u.Queues (s.reads c t) c t (.aldx w.c.toNat ((s.reads c t).x c t w.b)) w.a.toNat ∧
      ((u.thr c t).mbox w.c.toNat).st = .pending ∧ ((u.core c).acc w.a.toNat).typ = modeTyp ((s.reads c t).modeNow c t)) := by
  refine completes_queued runs h image.legal rfl
    ((State.prepares_setAcc _ c t w.a.toNat ((s.reads c t).accFor c t w.a.toNat)).trans (State.prepares_mbPend _ c t w.c.toNat)) ?_
    fun u queues accs mail => ⟨queues, ?_, ?_⟩
  · simp only [worldAllowed_iff.2 mine, Bool.false_eq_true, if_false, image.checked room]
    rfl
  · rw [mail, State.thr_setAcc, State.mbox_mbPend]
  · rw [accs, State.acc_setAcc_same, (State.accFor_gives ..).1]

theorem aldxAdd_queues (runs : s.Runs c t w.g) (h : s.Settled c t) (room : ((s.reads c t).core c).mq.length < 4) (image : (s.reads c t).MayMoveImage c t w)
    (typed : (((s.reads c t).core c).acc w.a.toNat).typ = modeTyp ((s.reads c t).modeNow c t))
    (mine : (((s.reads c t).core c).acc w.a.toNat).world ≠ 1 ∨ (s.reads c t).world c t ≠ 0) :
    Completes (.aldxAdd c t w) s (fun u => u.Queues (s.reads c t) c t (.aldxAdd w.c.toNat ((s.reads c t).x c t w.b)) w.a.toNat ∧
      ((u.thr c t).mbox w.c.toNat).st = .pending) := by
  have holdsOne : (((s.reads c t).core c).acc w.a.toNat).typ ≠ 0 := by
    rw [typed, modeTyp]
    split <;> decide
  refine completes_queued runs h image.legal rfl (State.prepares_mbPend _ c t w.c.toNat) ?_ fun u queues _ mail => ⟨queues, ?_⟩
  · simp only [if_neg holdsOne, worldAllowed_iff.2 mine, Bool.false_eq_true, if_false, if_neg (not_not.2 typed), image.checked room]
  · rw [mail, State.mbox_mbPend]

/-- MSYNC of a thread with no entry in the queue goes on (R197). -/
theorem msync_idle (runs : s.Runs c t w.g) (a : w.a = 0) (b : w.b = 0) (z : w.c = 0) (others : ∀ y ∈ ((s.reads c t).core c).mq, y.thread ≠ t.val) :
    Does (.msync c t w) s c t id := by
  have nothing : ((s.reads c t).core c).mq.any (fun y => decide (y.thread = t.val)) = false :=
    List.any_eq_false.2 fun y mem => by simpa using others y mem
  refine does_of_done (f := id) runs (by simp [encZ, a, b, z]) rfl ?_
  simp only [nothing, Bool.false_eq_true, if_false, id]

end

/-! ### The queue's front entry -/

section
variable {s e : State} {c : CoreId} {x : MEntry} {rest : List MEntry}

/-- The accumulator with its elements and their check values cleared (R191). -/
def Accum.cleared (x : Accum) : Accum := { x with el := [], inv := 0, chk := [] }

theorem State.core_setFront (m : State) (c : Nat) (y : MEntry) : (m.setFront c y).core c = { m.core c with mq := y :: (m.core c).mq.drop 1 } :=
  State.core_setCore_same ..

/-- An AZERO's accumulator is not checked again, and it moves no image that could pause it. -/
theorem exec_matrixEntryStart_azero (front : (s.core c).mq = x :: rest) (waits : x.running = false) (azero : x.op = .azero) :
    exec (.matrixEntryStart c false) s =
      .next ((s.setAcc c x.acc ((s.core c).acc x.acc).cleared).setFront c { x with running := true, start := (s.core c).cyc }) := by
  show execMatrixEntryStart c false s = _
  simp only [execMatrixEntryStart, front, waits, azero, State.entryChkBad, State.entryPauses, MEntry.imageOf, State.runEntry, Bool.not_true, Bool.false_and,
    Bool.or_self, Bool.false_eq_true, if_false]
  rfl

theorem matrixEntryStart_clears (front : (s.core c).mq = x :: rest) (waits : x.running = false) (azero : x.op = .azero) :
    Completes (.matrixEntryStart c false) s (fun u => (∀ e, Sparse.get 0 ((u.core c).acc x.acc).el e = 0) ∧ ((u.core c).acc x.acc).inv = 0 ∧
      ((u.core c).acc x.acc).typ = ((s.core c).acc x.acc).typ ∧ (u.core c).mq = { x with running := true, start := (s.core c).cyc } :: rest) := by
  let m := s.setAcc c x.acc ((s.core c).acc x.acc).cleared
  let y : MEntry := { x with running := true, start := (s.core c).cyc }
  have cleared : ((m.setFront c y).core c).acc x.acc = ((s.core c).acc x.acc).cleared := by
    rw [State.core_setFront]
    exact State.acc_setAcc_same s c x.acc _
  have queue : ((m.setFront c y).core c).mq = y :: rest := by
    rw [State.core_setFront, State.core_setAcc, front, List.drop_one, List.tail_cons]
  refine ⟨m.setFront c y, exec_matrixEntryStart_azero front waits azero, ?_⟩
  beta_reduce
  rw [cleared]
  exact ⟨fun _ => rfl, rfl, rfl, queue⟩

theorem State.flown_imageLanded (s : State) (c : Nat) : (s.imageLanded c).Flown s c := by
  unfold State.imageLanded
  dsimp only
  split
  · exact (State.flown_settle _ c).trans (s.flown_setFlying c _)
  · exact .refl s c

theorem State.Walks.foldl {α : Type} {f : State → α → State} (each : ∀ s x, (f s x).Walks s c) (l : List α) (s : State) : (l.foldl f s).Walks s c := by
  induction l generalizing s with
  | nil => exact .refl s c
  | cons x l ih => exact (ih _).trans (each s x)

/-- A thread that goes on when the entry ends, or does not. -/
theorem State.walks_ite_setThr {p : Prop} [Decidable p] (s : State) (t : Nat) (h : Thread) : (if p then s.setThr c t h else s).Walks s c := by
  split
  · exact s.walks_setThr c t h
  · exact .refl s c

/-- The end of an AZERO's entry only frees its place (R179). -/
theorem matrixEntryComplete_frees (front : (s.core c).mq = x :: rest) (runs : x.running = true) (azero : x.op = .azero) (data : BitVec 33024) :
    Completes (.matrixEntryComplete c 0 data) s (fun u => (u.core c).mq = rest ∧ (u.core c).accs = (s.core c).accs) := by
  obtain ⟨_, landed⟩ := (s.flown_imageLanded c).core
  have ends : (s.imageLanded c).endEntry c x 0 data.toNat = s.imageLanded c := by simp only [State.endEntry, azero]
  have goes : (!x.running || (!x.void && x.loads && (s.entryPauses c x || s.imageWaits c))) = false := by simp [runs, MEntry.loads, azero]
  have freed {u : State} (walks : u.Walks ((s.imageLanded c).setCore c { (s.imageLanded c).core c with mq := rest }) c) :
      (u.core c).mq = rest ∧ (u.core c).accs = (s.core c).accs := by
    obtain ⟨_, core⟩ := walks.core
    rw [core, State.core_setCore_same, landed]
    exact ⟨rfl, rfl⟩
  refine ⟨_, rfl, ?_⟩
  simp only [front, goes, ends, Bool.false_eq_true, if_false]
  exact freed (State.Walks.foldl (fun s t => s.walks_ite_setThr t _) _ _)

end

/-! ### Image accesses and the shadow checker -/

section
variable {s : State} {c : CoreId} {t : ThreadId} {m : Fin 4}

/-- An image access that is done fills its mailbox and leaves the core (R196). -/
theorem imageAccessComplete_fills (only : (s.core c).images = [{ thread := t, mb := m, status := some 0 }])
    (pending : ((s.thr c t).mbox m).st = .pending) (ready : (s.thr c t).st = .ready) :
    Completes (.imageAccessComplete c t m 0) s (fun u => (u.core c).images = [] ∧ ((u.thr c t).mbox m).st = .full) := by
  let r := s.setCore c { s.core c with images := [] }
  have own : r.thr c t = s.thr c t := State.thr_setCore_kept s c t rfl
  have replies := State.mbReply_awake (s := r) (m := m) (by rw [own, pending]) (by rw [own, ready]; decide) 0 0
  have ends : exec (.imageAccessComplete c t m 0) s = .next (r.mbReply c t m 0 0) := by
    show execImageAccessComplete c t m 0 s = _
    simp [execImageAccessComplete, only, r]
  refine ⟨_, ends.trans (congrArg _ replies), ?_, ?_⟩
  · rw [State.core_setThr_same, State.core_setCore_same]
  · rw [State.thr_setThr_same, Thread.setMbox, Thread.mbox, Sparse.get_set_same, Mbox.replied, if_pos (Nat.zero_le 1)]

theorem shadowCheckArm_arms (unarmed : (s.core c).shadowArm = false) (idle : (s.core c).shadowOp = none) (many : 64 ≤ (s.core c).shadowCnt) :
    Completes (.shadowCheckArm c) s (fun u => (u.core c).shadowArm = true ∧ (u.core c).shadowCnt = 0 ∧ u.fld mchk_SHCNT c 0 = 0) := by
  refine ⟨_, rfl, ?_⟩
  simp only [unarmed, idle, many, Option.isSome_none, Bool.or_self, Bool.false_eq_true, if_false, decide_true, Bool.true_or, if_true]
  refine ⟨?_, ?_, State.fld_setFld_same _ mchk_SHCNT c 0 0 0 (by decide) (by decide)⟩ <;> rw [State.core_setFld, State.core_setCore_same]

theorem shadowCheckDone_counts {op : ShadowOp} (captured : (s.core c).shadowOp = some op) (empty : (s.core c).mq = []) :
    Completes (.shadowCheckDone c false) s (fun u => (u.core c).shadowOp = none ∧
      u.fld mchk_SHDONE c 0 = (s.fld mchk_SHDONE c 0 + 1) % 2 ^ (mchk_SHDONE.hi + 1 - mchk_SHDONE.lo)) := by
  refine ⟨_, rfl, ?_⟩
  simp only [captured, empty, List.any_nil, Bool.false_eq_true, if_false]
  refine ⟨?_, State.fld_setFld_same _ mchk_SHDONE c 0 _ 0 (by decide) (by decide)⟩
  rw [State.bumpWrap, State.core_setFld, State.core_setCore_same]

end

/-- Settles O27. A word whose checks pass prepares its accumulator and its mailbox and puts its entry at the queue's end; the front entry, an image access
and the shadow checker change their own part of the core. -/
theorem matrixWordsAndEventsComplete : Obligations.MatrixWordsAndEventsComplete := by
  refine ⟨fun c t fn w s runs h => ?words, fun c t m s x rest data op => ?events⟩
  case words =>
    intro e world acc mode queued image pends room
    have may (h : image) : e.MayMoveImage c t w := by
      obtain ⟨aligned, empty, low, mailbox⟩ := h
      exact ⟨aligned, empty, low, mailbox⟩
    have keepA : decide (nbit fn.toNat 4 = 1) = decide (fn.toNat / 16 % 2 = 1) := by rw [nbit, Nat.shiftRight_eq_div_pow]
    have keepB : decide (nbit fn.toNat 5 = 1) = decide (fn.toNat / 32 = 1) := by
      rw [nbit, Nat.shiftRight_eq_div_pow, decide_eq_decide]
      omega
    exact ⟨fun a b z allowed => mma_queues runs h room a b z keepA keepB allowed, fun b allowed => acvt_queues runs h room b allowed,
      fun a b z mine => azero_queues runs h room a b z mine, fun i typed mine noWrf => astx_queues runs h room (may i) typed mine noWrf,
      fun i mine => aldx_queues runs h room (may i) mine, fun i typed mine => aldxAdd_queues runs h room (may i) typed mine,
      fun a b z others => msync_idle runs a b z others⟩
  case events =>
    exact ⟨matrixEntryStart_clears, fun front runs azero => matrixEntryComplete_frees front runs azero data, imageAccessComplete_fills,
      shadowCheckArm_arms, shadowCheckDone_counts⟩

end Sys2Proof.Machine
end

section
/-!
SUPPORT, O4 and O5. What the integer words compute, as numbers (R210, R211).
-/
namespace Sys2Proof.Machine

/-! ### Words that write one register -/

section
variable {s : State} {c : CoreId} {t : ThreadId} {g : BitVec 4} {i : Instr} {enc : List Nat} {a : BitVec 5} {d : Nat}

/-- A word without an illegal field that puts a scalar result in flight. -/
theorem does_outX {f : State → Word} {v : Word} (runs : s.Runs c t g) (word : exec i s = s.word c t g enc (fun e => .done (e.outX c t a (f e) d)))
    (value : f (s.reads c t) = v) (legal : enc = [] := by rfl) : Does i s c t (fun e => e.outX c t a v d) :=
  does_of_done runs legal word (by rw [value])

/-- A word without an illegal field that puts a predicate in flight. -/
theorem does_outP {f : State → Bool} {v : Bool} (runs : s.Runs c t g) (word : exec i s = s.cmpW c t g enc a f)
    (value : f (s.reads c t) = v) (legal : enc = []) : Does i s c t (fun e => e.outP c t a v 2) :=
  does_of_done runs legal word (by rw [value])

end

/-! ### Results as numbers -/

section
variable (x y : Word) (n : Nat)

theorem add_eq_ofInt : x + y = BitVec.ofInt 64 (x.toInt + y.toInt) := by rw [BitVec.ofInt_add, BitVec.ofInt_toInt, BitVec.ofInt_toInt]

theorem sub_eq_ofInt : x - y = BitVec.ofInt 64 (x.toInt - y.toInt) := by
  rw [Int.sub_eq_add_neg, BitVec.ofInt_add, BitVec.ofInt_neg, BitVec.ofInt_toInt, BitVec.ofInt_toInt, BitVec.sub_eq_add_neg]

theorem mul_eq_ofInt : x * y = BitVec.ofInt 64 (x.toInt * y.toInt) := by rw [BitVec.ofInt_mul, BitVec.ofInt_toInt, BitVec.ofInt_toInt]

theorem shiftLeft_eq_ofNat : x <<< n = BitVec.ofNat 64 (x.toNat * 2 ^ n) := BitVec.eq_of_toNat_eq (by simp [Nat.shiftLeft_eq])

theorem shiftRight_eq_ofNat : x >>> n = BitVec.ofNat 64 (x.toNat / 2 ^ n) := by
  rw [← Nat.shiftRight_eq_div_pow, ← BitVec.toNat_ushiftRight, BitVec.ofNat_toNat, BitVec.setWidth_eq]

theorem sshiftRight_eq_ofInt : x.sshiftRight n = BitVec.ofInt 64 (x.toInt / 2 ^ n) := by
  rw [BitVec.sshiftRight, Int.shiftRight_eq_div_pow]
  norm_cast

variable {x y} in
/-- A quotient by a number that is not zero is cut toward zero (R211). -/
theorem quotient_signed (y0 : y ≠ 0) : quotient false x y = BitVec.ofInt 64 (x.toInt.tdiv y.toInt) := by
  rw [quotient, if_neg y0, if_neg Bool.false_ne_true]
  exact BitVec.eq_of_toInt_eq (by rw [BitVec.toInt_sdiv, BitVec.toInt_ofInt])

variable {x y} in
theorem quotient_unsigned (y0 : y ≠ 0) : quotient true x y = BitVec.ofNat 64 (x.toNat / y.toNat) := by
  rw [quotient, if_neg y0, if_pos rfl, ← BitVec.toNat_udiv, BitVec.ofNat_toNat, BitVec.setWidth_eq]
  rfl

variable {x y} in
/-- A remainder has the sign of its dividend (R211). -/
theorem remainder_signed (y0 : y ≠ 0) : remainder false x y = BitVec.ofInt 64 (x.toInt.tmod y.toInt) := by
  rw [remainder, if_neg y0, if_neg Bool.false_ne_true, ← BitVec.toInt_srem, BitVec.ofInt_toInt]

variable {x y} in
theorem remainder_unsigned (y0 : y ≠ 0) : remainder true x y = BitVec.ofNat 64 (x.toNat % y.toNat) := by
  rw [remainder, if_neg y0, if_pos rfl, ← BitVec.toNat_umod, BitVec.ofNat_toNat, BitVec.setWidth_eq]
  rfl

end

/-- Settles O4: each word is one write of its operation's result, which is the wrapped number of R210. -/
theorem scalarArithmeticCompletes : Obligations.ScalarArithmeticCompletes := by
  intro c t w s runs b d writes
  exact ⟨does_outX runs rfl (add_eq_ofInt b d), does_outX runs rfl (sub_eq_ofInt b d), does_outX runs rfl rfl, does_outX runs rfl rfl,
    does_outX runs rfl rfl, does_outX runs rfl rfl, does_outX runs rfl (shiftLeft_eq_ofNat b _), does_outX runs rfl (shiftRight_eq_ofNat b _),
    does_outX runs rfl (sshiftRight_eq_ofInt b _), does_outX runs rfl (mul_eq_ofInt b d), does_outX runs rfl rfl, does_outX runs rfl rfl,
    fun d0 => does_outX runs rfl (quotient_signed d0), fun d0 => does_outX runs rfl (quotient_unsigned d0),
    fun d0 => does_outX runs rfl (remainder_signed d0), fun d0 => does_outX runs rfl (remainder_unsigned d0)⟩

/-- Settles O5. The quotient that overflows is 2^63, which wraps to the dividend, and leaves no remainder. -/
theorem divisionEdgeCases : Obligations.DivisionEdgeCases := by
  intro c t w s runs b d gives
  refine ⟨fun d0 => ⟨does_outX runs rfl (if_pos d0), does_outX runs rfl (if_pos d0), does_outX runs rfl (if_pos d0), does_outX runs rfl (if_pos d0)⟩,
    fun least minus => ?_⟩
  have d0 : d ≠ 0 := fun zero => by simp [zero] at minus
  exact ⟨does_outX runs rfl ((quotient_signed d0).trans (by rw [least, minus]; decide)),
    does_outX runs rfl ((remainder_signed d0).trans (by rw [minus, Int.tmod_neg, Int.tmod_one]; rfl))⟩

end Sys2Proof.Machine
end

section
/-!
SUPPORT and O7. The compares and the predicate words (R212).
-/
namespace Sys2Proof.Machine

/-- Fields that must be zero are zero. -/
theorem encZ_legal {l : List Bool} (all : ∀ b ∈ l, b = true) : encZ l = [] := by
  rw [encZ, if_neg]
  simpa using all

theorem encP_legal {l : List (BitVec 5)} (low : ∀ n ∈ l, n.toNat < 8) : encP l = [] := by
  rw [encP, if_neg]
  simpa using low

theorem relVal_eq_decide (x y : Word) : relVal .eq x y = decide (x = y) ∧ relVal .ne x y = decide (x ≠ y) ∧
    relVal .lt x y = decide (x.toInt < y.toInt) ∧ relVal .ge x y = decide (y.toInt ≤ x.toInt) ∧
    relVal .ltu x y = decide (x.toNat < y.toNat) ∧ relVal .geu x y = decide (y.toNat ≤ x.toNat) := by
  refine ⟨beq_eq_decide x y, ?_, rfl, ?_, rfl, ?_⟩
  · rw [relVal, bne, beq_eq_decide, ← decide_not]
  · simp [relVal, BitVec.slt, ← decide_not]
  · simp [relVal, BitVec.ult, ← decide_not]

/-- Settles O7: each word is one write of its predicate, whose fields are legal. -/
theorem predicateWordsComplete : Obligations.PredicateWordsComplete := by
  intro c t w s runs e x y p q writes a
  obtain ⟨eq, ne, lt, ge, ltu, geu⟩ := relVal_eq_decide x y
  have compared : encZ [decide (w.a.toNat < 8)] = [] := encZ_legal (by simp [a])
  refine ⟨does_outP runs rfl eq compared, does_outP runs rfl ne compared, does_outP runs rfl lt compared, does_outP runs rfl ge compared,
    does_outP runs rfl ltu compared, does_outP runs rfl geu compared, fun b c => ?logic, fun b z => ?pnot, fun b z => ?pset⟩
  case logic =>
    have legal : encP [w.b, w.c] ++ encZ [decide (w.a.toNat < 8)] = [] := by rw [encP_legal (by simp [b, c]), compared]; rfl
    exact ⟨does_outP runs rfl rfl legal, does_outP runs rfl rfl legal, does_outP runs rfl rfl legal, does_outP runs rfl rfl legal⟩
  case pnot =>
    have legal : encP [w.b] ++ encZ [decide (w.a.toNat < 8), decide (w.c = 0)] = [] := by
      rw [encP_legal (by simp [b]), encZ_legal (by simp [a, z])]
      rfl
    exact does_outP runs rfl rfl legal
  case pset => exact does_outP runs rfl (decide_eq_decide.2 (BitVec.toNat_inj (y := 1))) (encZ_legal (by simp [a, b, z]))

end Sys2Proof.Machine
end

section
/-!
SUPPORT and O8. The immediate words (R213).
-/
namespace Sys2Proof.Machine

/-! ### Immediates and results as numbers -/

/-- IMM15 sign-extended is the number that it is. -/
theorem add_immS_eq_ofInt (x : Word) (l : LI) : x + immS l = BitVec.ofInt 64 (x.toInt + l.imm.toInt) := by
  rw [immS, add_eq_ofInt, BitVec.toInt_signExtend_of_le (by decide)]

theorem immZ_eq_ofNat (l : LI) : immZ l = BitVec.ofNat 64 l.imm.toNat := BitVec.eq_of_toNat_eq (by simp [immZ])

theorem rotateRight_eq_ofNat (x : Word) {n : Nat} (low : n < 64) : x.rotateRight n = BitVec.ofNat 64 (x.toNat / 2 ^ n + x.toNat * 2 ^ (64 - n)) := by
  have whole : 2 ^ 64 = 2 ^ (64 - n) * 2 ^ n := by rw [← pow_add, Nat.sub_add_cancel low.le]
  have above : x.toNat * 2 ^ (64 - n) % 2 ^ 64 = 2 ^ (64 - n) * (x.toNat % 2 ^ n) := by rw [whole, mul_comm, Nat.mul_mod_mul_left]
  have below : x.toNat / 2 ^ n < 2 ^ (64 - n) := by
    rw [Nat.div_lt_iff_lt_mul (by positivity), ← whole]
    exact x.isLt
  have fits : 2 ^ (64 - n) * (x.toNat % 2 ^ n) + x.toNat / 2 ^ n < 2 ^ 64 := by
    rw [mul_comm, whole, ← pow_add]
    exact below_field_end (Nat.mod_lt _ (by positivity)) below
  apply BitVec.eq_of_toNat_eq
  rw [BitVec.toNat_rotateRight, Nat.mod_eq_of_lt low, BitVec.toNat_ofNat, Nat.shiftLeft_eq, Nat.shiftRight_eq_div_pow, Nat.add_mod, above,
    Nat.mod_eq_of_lt (lt_of_le_of_lt (Nat.div_le_self _ _) x.isLt), Nat.lor_comm, ← Nat.two_pow_add_eq_or_of_lt below,
    Nat.add_comm (x.toNat / 2 ^ n), Nat.mod_eq_of_lt fits]

theorem sextN_eq_signExtend (imm : BitVec 15) : sextN 12 (imm.toNat % 4096) = (imm.truncate 12 : BitVec 12).signExtend 64 := by
  have low : (imm.truncate 12 : BitVec 12).toNat = imm.toNat % 4096 := BitVec.toNat_setWidth ..
  rw [← BitVec.ofInt_toInt (x := BitVec.signExtend 64 _), BitVec.toInt_signExtend_of_le (by decide), BitVec.toInt_eq_toNat_cond, low, sextN, nbit,
    Nat.shiftRight_eq_div_pow]
  congr 1
  split <;> split <;> omega

theorem lui_eq_ofInt (imm : BitVec 20) : ((imm ++ (0 : BitVec 12)) : BitVec 32).signExtend 64 = BitVec.ofInt 64 (imm.toInt * 4096) := by
  have shifted : ((imm ++ (0 : BitVec 12)) : BitVec 32).toNat = imm.toNat * 4096 := by
    rw [BitVec.toNat_append]; simp [Nat.shiftLeft_eq]
  rw [← BitVec.ofInt_toInt (x := BitVec.signExtend 64 _), BitVec.toInt_signExtend_of_le (by decide), BitVec.toInt_eq_toNat_cond, shifted,
    BitVec.toInt_eq_toNat_cond]
  congr 1
  split <;> split <;> omega

theorem luh_eq_ofNat (imm : BitVec 20) (x : Word) : imm ++ (x.truncate 44 : BitVec 44) = BitVec.ofNat 64 (imm.toNat * 2 ^ 44 + x.toNat % 2 ^ 44) := by
  apply BitVec.eq_of_toNat_eq
  have := imm.isLt
  rw [BitVec.toNat_append, BitVec.toNat_ofNat, BitVec.truncate, BitVec.toNat_setWidth, ← Nat.shiftLeft_add_eq_or_of_lt (Nat.mod_lt _ (by decide)), Nat.shiftLeft_eq]
  omega

theorem cmpImm_eq_decide (x k : Word) : cmpImm 0 x k = decide (x = k) ∧ cmpImm 1 x k = decide (x ≠ k) ∧ cmpImm 2 x k = decide (x.toInt < k.toInt) ∧
    cmpImm 3 x k = decide (k.toInt ≤ x.toInt) ∧ cmpImm 4 x k = decide (x.toNat < k.toNat) ∧ cmpImm 5 x k = decide (k.toNat ≤ x.toNat) ∧
    cmpImm 6 x k = decide (k.toInt < x.toInt) ∧ cmpImm 7 x k = decide (x.toInt ≤ k.toInt) := by
  obtain ⟨eq, ne, lt, ge, ltu, geu⟩ := relVal_eq_decide x k
  refine ⟨eq, ne, lt, ge, ltu, geu, rfl, ?_⟩
  simp [cmpImm, BitVec.slt, ← decide_not]

/-- Settles O8: each word is one write of its operation's result on the immediate's number. -/
theorem immediateWordsComplete : Obligations.ImmediateWordsComplete := by
  intro c t l u s runs x old n k writesI writes writesU
  refine ⟨does_outX runs rfl (add_immS_eq_ofInt x l), does_outX runs rfl (congrArg (x &&& ·) (immZ_eq_ofNat l)),
    does_outX runs rfl (congrArg (x ||| ·) (immZ_eq_ofNat l)), does_outX runs rfl (congrArg (x ^^^ ·) (immZ_eq_ofNat l)), fun zero => ?shifts,
    does_outX runs rfl (lui_eq_ofInt u.imm), does_outX runs rfl (luh_eq_ofNat u.imm old), fun low => ?compares⟩
  case shifts =>
    have legal : encZ [decide (l.imm.toNat / 64 % 128 = 0)] = [] := encZ_legal (by simp [zero])
    have few : n < 64 := Nat.mod_lt _ (by decide)
    refine ⟨fun sel => does_outX runs rfl ?_ legal, fun sel => does_outX runs rfl ?_ legal, fun sel => does_outX runs rfl ?_ legal,
      fun sel => does_outX runs rfl ?_ legal⟩
    · rw [sel]; exact shiftLeft_eq_ofNat x n
    · rw [sel]; exact shiftRight_eq_ofNat x n
    · rw [sel]; exact sshiftRight_eq_ofInt x n
    · rw [sel]; exact rotateRight_eq_ofNat x few
  case compares =>
    have compares {rel : Nat} {v : Bool} (value : cmpImm rel x k = v) (sel : l.imm.toNat / 4096 = rel) : Does (.cmpImm c t l) s c t (writesI v) :=
      does_outP runs rfl (by rw [sel, sextN_eq_signExtend]; exact value) (encZ_legal (by simp [low]))
    obtain ⟨eq, ne, lt, ge, ltu, geu, gt, le⟩ := cmpImm_eq_decide x k
    exact ⟨compares eq, compares ne, compares lt, compares ge, compares ltu, compares geu, compares gt, compares le⟩

end Sys2Proof.Machine
end

section
/-!
SUPPORT and O12. What an access to an own bank leaves alone, and the loads and stores of own banks (R75, R214, R245).
-/
namespace Sys2Proof.Machine

/-! ### What an access to a bank leaves alone -/

/-- From `e` to `u` at most memory with its tags and symbols in error, messages, and what the banks of core c keep of their words have changed. -/
structure State.BanksOnly (u e : State) (c : Nat) : Prop where
  core : ∃ due watches, u.core c = { e.core c with corrDue := due, watches := watches }
  others : ∀ d, d ≠ c → u.core d = e.core d
  regs : u.regs = e.regs
  kp : u.kp = e.kp
  cp : u.cp = e.cp
  dmas : u.dmas = e.dmas

section
variable {u v e : State} {c : Nat}

theorem State.BanksOnly.refl (e : State) (c : Nat) : e.BanksOnly e c := ⟨⟨_, _, rfl⟩, fun _ _ => rfl, rfl, rfl, rfl, rfl⟩

theorem State.BanksOnly.trans (next : u.BanksOnly v c) (first : v.BanksOnly e c) : u.BanksOnly e c := by
  obtain ⟨due, watches, last⟩ := next.core
  obtain ⟨_, _, before⟩ := first.core
  exact ⟨⟨due, watches, by rw [last, before]⟩, fun d n => (next.others d n).trans (first.others d n), next.regs.trans first.regs, next.kp.trans first.kp,
    next.cp.trans first.cp, next.dmas.trans first.dmas⟩

theorem State.BanksOnly.thr (h : u.BanksOnly e c) (j : Nat) : u.thr c j = e.thr c j := by
  obtain ⟨_, _, core⟩ := h.core
  rw [State.thr, core, State.thr]

theorem State.BanksOnly.cyc (h : u.BanksOnly e c) : (u.core c).cyc = (e.core c).cyc := by
  obtain ⟨_, _, core⟩ := h.core
  rw [core]

theorem State.BanksOnly.foldl {α : Type} {f : State → α → State} (each : ∀ s x, (f s x).BanksOnly s c) (l : List α) (e : State) :
    (l.foldl f e).BanksOnly e c := by
  induction l generalizing e with
  | nil => exact .refl e c
  | cons x l ih => exact (ih _).trans (each e x)

theorem State.banksOnly_setBanks (e : State) (c : Nat) (due : List Nat) (watches : List Watch) :
    (e.setCore c { e.core c with corrDue := due, watches := watches }).BanksOnly e c :=
  ⟨⟨_, _, State.core_setCore_same ..⟩, fun _ n => State.core_setCore_other e _ n, rfl, rfl, rfl, rfl⟩

theorem State.banksOnly_setByte (e : State) (c a : Nat) (b : Byte) : (e.setByte a b).BanksOnly e c := ⟨⟨_, _, rfl⟩, fun _ _ => rfl, rfl, rfl, rfl, rfl⟩

theorem State.banksOnly_setTag (e : State) (c a n : Nat) : (e.setTag a n).BanksOnly e c := ⟨⟨_, _, rfl⟩, fun _ _ => rfl, rfl, rfl, rfl, rfl⟩

theorem State.banksOnly_setPat (e : State) (c a n : Nat) : (e.setPat a n).BanksOnly e c := ⟨⟨_, _, rfl⟩, fun _ _ => rfl, rfl, rfl, rfl, rfl⟩

theorem State.banksOnly_send (e : State) (c : Nat) (k : MsgKind) (l : List Nat) : (e.send k l).BanksOnly e c :=
  ⟨⟨_, _, rfl⟩, fun _ _ => rfl, rfl, rfl, rfl, rfl⟩

theorem State.banksOnly_writeMask (e : State) (c a n mask v : Nat) : (e.writeMask a n mask v).BanksOnly e c := by
  induction n generalizing e a mask v with
  | zero => exact .refl e c
  | succ n ih =>
    rw [State.writeMask]
    refine (ih _ _ _ _).trans ?_
    split
    · exact e.banksOnly_setByte c a _
    · exact .refl e c

theorem State.banksOnly_wroteWord (e : State) (c off : Nat) : (e.wroteWord c off).BanksOnly e c :=
  State.BanksOnly.trans (State.banksOnly_setBanks _ c _ _) (e.banksOnly_setPat c _ 0)

theorem State.banksOnly_bankPut (e : State) (c off n mask v : Nat) : (e.bankPut c off n mask v).BanksOnly e c :=
  (State.BanksOnly.foldl (fun e o => e.banksOnly_wroteWord c o) _ _).trans (e.banksOnly_writeMask c _ n mask v)

end

/-- Going on to the next word changes nothing but the core. -/
theorem State.within_advance (m : State) (c : CoreId) (t : ThreadId) (pc : Nat) (loops : Bool) : (m.advance c t pc loops).Within m c :=
  (State.acts_advanceTo m (J := fun _ => True) trivial t.isLt pc (pc + 4) loops).within (by omega)

/-! ### Loads and stores -/

section
variable {s : State} {c : CoreId} {t : ThreadId} {l : LI} {off n : Nat} {i : Instr}

/-- A load of a scalar register from an own bank. -/
theorem load_loads (runs : s.Runs c t 0) (addr : (s.reads c t).eaI c t l = ownBankWord c off) (bank : (s.reads c t).OwnBank c t off n false)
    (word : exec i s = s.word c t 0 [] (fun e => e.load c t (e.eaI c t l) n (.s l.a.toNat) scalarDist)) :
    Does i s c t (fun e => e.fly c t (.s l.a.toNat) (e.readLE (bankAddr c off) n) (if off < 0x40000 then 4 else 7)) := by
  have check := State.check_ownBank bank
  have own := Place.ownBank_bank c bank.offset
  rw [← addr] at check own
  exact does_of_done runs rfl word (State.load_checked check own (State.bankRead_clean bank.pos bank.clean) _ scalarDist)

/-- The n low bytes of v stand at offset `off` of core c's banks; other bytes, tags, the thread's registers and all outside the core are as in `e`. -/
def State.Stored (u e : State) (c : CoreId) (t : ThreadId) (off n : Nat) (v : Word) : Prop :=
  u.readLE (bankAddr c off) n = v.toNat % 2 ^ (8 * n) ∧
  (∀ a, a < bankAddr c off ∨ bankAddr c off + n ≤ a → u.byte a = e.byte a) ∧
  u.tags = e.tags ∧ (∀ r, u.x c t r = e.x c t r ∧ u.vr c t r = e.vr c t r) ∧ (u.thr c t).p = (e.thr c t).p ∧
  (∀ d : Nat, d ≠ c → u.core d = e.core d) ∧ u.kp = e.kp ∧ u.cp = e.cp ∧ u.dmas = e.dmas

/-- A store to an own bank. -/
theorem store_stores (runs : s.Runs c t 0) (h : s.Settled c t) (addr : (s.reads c t).eaI c t l = ownBankWord c off)
    (bank : (s.reads c t).OwnBank c t off n true)
    (word : exec i s = s.word c t 0 [] (fun e => e.store c t (e.eaI c t l) n (e.x c t l.a).toNat)) :
    Completes i s (fun u => u.Stored (s.reads c t) c t off n ((s.reads c t).x c t l.a)) := by
  generalize reads : s.reads c t = e at addr bank ⊢
  have check := State.check_ownBank bank
  have own := Place.ownBank_bank c bank.offset
  rw [← addr] at check own
  have wrote := State.bankWrite_clean bank.pos bank.clean (2 ^ n - 1) ((e.x c t l.a).toNat % 2 ^ (8 * n))
  have only := e.banksOnly_bankPut c off n (2 ^ n - 1) ((e.x c t l.a).toNat % 2 ^ (8 * n))
  obtain ⟨mem, -, -⟩ := e.bankPut_full c off n ((e.x c t l.a).toNat % 2 ^ (8 * n))
  have tags := e.bankPut_tags c off n (2 ^ n - 1) ((e.x c t l.a).toNat % 2 ^ (8 * n))
  generalize e.bankPut c off n (2 ^ n - 1) ((e.x c t l.a).toNat % 2 ^ (8 * n)) = m at wrote only mem tags
  have done : (s.reads c t).store c t ((s.reads c t).eaI c t l) n ((s.reads c t).x c t l.a).toNat = .done m := by
    rw [reads]
    exact State.store_checked check own wrote
  refine (completes_of_done runs h rfl word done (by rw [only.thr, reads]) (by rw [reads]; exact State.tf_congr only.regs ..)).imp fun u same => ?_
  have moves := m.onlyMoves_advance c t ((s.reads c t).thr c t).pc true
  have inside := m.within_advance c t ((s.reads c t).thr c t).pc true
  rw [← same] at moves inside
  have memory := moves.memory.1.trans mem
  refine ⟨?_, fun x out => ?_, moves.memory.2.1.trans tags, fun r => ⟨?_, ?_⟩, ?_, fun d n => (inside.cores d n).trans (only.others d n),
    inside.kp.trans only.kp, inside.cp.trans only.cp, inside.dmas.trans only.dmas⟩
  · rw [State.readLE_congr memory, State.readLE_writeLE, Nat.mod_mod]
  · rw [State.byte, memory]
    exact State.writeLE_other e _ _ _ x out
  · rw [State.x, moves.x, only.thr, State.x]
  · rw [State.vr, moves.v, only.thr, State.vr]
  · rw [moves.p, only.thr]

end

/-- Settles O12. Each load is one read of the bank's bytes, put in flight at the bank's distance; each store is one write of them. -/
theorem ownBankLoadsAndStoresComplete : Obligations.OwnBankLoadsAndStoresComplete := by
  refine ⟨fun c t l s off runs => ?loads, fun c t l s off runs h => ?stores⟩
  case loads =>
    intro e dist addr
    exact ⟨fun bank => load_loads runs addr bank rfl, fun bank => load_loads runs addr bank rfl, fun bank => load_loads runs addr bank rfl⟩
  case stores =>
    intro e stored addr
    exact ⟨fun bank => store_stores runs h addr bank rfl, fun bank => store_stores runs h addr bank rfl, fun bank => store_stores runs h addr bank rfl⟩

end Sys2Proof.Machine
end

section
/-!
SUPPORT and O18. The atomics on a word of an own bank (R216, R219).
-/
namespace Sys2Proof.Machine

/-! ### The checks of an access that reads and writes -/

section
variable {e : State} {c : CoreId} {t : ThreadId} {a : Word} {off n : Nat} {aligned write read : Bool} {p : Place}

/-- Of the directions of an access only its watchpoints tell. -/
theorem State.check_watch (ok : e.check c t a n aligned write read = .ok p) (quiet : e.watchHit c t a n read write = none) {read' : Bool}
    (quiet' : e.watchHit c t a n read' write = none) : e.check c t a n aligned write read' = .ok p := by
  unfold State.check at ok ⊢
  rw [quiet] at ok
  rwa [quiet']

theorem State.watchHit_both (reads : e.watchHit c t a n true false = none) (writes : e.watchHit c t a n false true = none) :
    e.watchHit c t a n true true = none := by
  unfold State.watchHit at *
  split
  · rfl
  · next on =>
    rw [if_neg on, List.find?_eq_none] at reads writes
    rw [List.find?_eq_none]
    intro k low hit
    have noRead := reads k low
    have noWrite := writes k low
    simp only [Bool.true_and, Bool.false_and, Bool.or_false, Bool.false_or, Bool.and_eq_true, Bool.or_eq_true] at hit noRead noWrite
    obtain ⟨⟨en, way⟩, line⟩ := hit
    exact way.elim (fun w => noWrite ⟨⟨en, w⟩, line⟩) (fun r => noRead ⟨⟨en, r⟩, line⟩)

/-- The checks let an access through that reads and writes an own bank. -/
theorem State.check_ownBank_both (bank : ∀ write, e.OwnBank c t off n write) :
    e.check c t (ownBankWord c off) n ((ownBankWord c off).toNat % n = 0) true true = .ok (.bank c off) :=
  State.check_watch (State.check_ownBank (bank true)) (bank true).noWatch (State.watchHit_both (bank false).noWatch (bank true).noWatch)

/-- A word of a bank lies outside MMR space. -/
theorem State.mmrTarget_ownBank (e : State) (c : CoreId) (t : Nat) (bank : off < 0x40000 ∨ 0x100000 ≤ off ∧ off < 0x300000) :
    e.mmrTarget c t (ownBankWord c off) = false := by
  have word := e.translateWord_bank c t bank true
  unfold State.translateWord at word
  split at word
  · exact absurd word (fun h => nomatch h)
  · rw [State.mmrTarget, word]
    rfl

end

/-! ### The atomics -/

section
variable {s e : State} {c : CoreId} {t : ThreadId} {w : LR} {off : Nat}

/-- A bank applies an atomic to the word that it reads. -/
theorem State.atomicBank_read {v : Nat} {u : State} (read : e.bankRead c off 8 = (some v, u)) (op : Nat) (a b : Word) :
    e.atomicBank c off op a b = (some v, u.bankPut c off 8 0xFF (atomicNew op (BitVec.ofNat 64 v) a b).toNat) := by
  -- The definition is unfolded as a function, so that no match on the read is reduced before the read is rewritten, and its address is never evaluated.
  obtain ⟨bank, same⟩ : ∃ bank, bank = State.atomicBank := ⟨_, rfl⟩
  rw [← same]
  delta State.atomicBank at same
  subst same
  beta_reduce
  rw [read]

/-- An atomic on an own bank gives the old value to its register at distance 1. -/
theorem State.atomic_ownBank (addr : e.x c t w.b = ownBankWord c off) (bank : ∀ write, e.OwnBank c t off 8 write) {op : Nat} {b : State → Word} {v : Nat}
    {u : State} (applied : e.atomicBank c off op (e.x c t w.c) (b e) = (some v, u)) :
    e.atomic c t op false w b = .done ((u.countAtomic c t (decide (3 ≤ op))).fly c t (.s w.a.toNat) v 1) := by
  have check := State.check_ownBank_both bank
  have place := State.mmrTarget_ownBank e c t (bank true).offset
  obtain ⟨-, low, plain⟩ := ownBankWord_parts c (off := off) (by have := (bank true).offset; omega)
  rw [← low] at plain
  rw [← addr] at check place plain
  unfold State.atomic
  obtain ⟨atomicBank, same⟩ : ∃ f, f = State.atomicBank := ⟨_, rfl⟩
  rw [← same] at applied ⊢
  simp only [Bool.false_and, Bool.false_eq_true, if_false, place, Bool.and_false, check, plain, Bool.not_false, decide_true, Bool.and_self, if_true, applied]

/-- Counters are no registers of single stepping. -/
theorem State.single_bump (e : State) (c : CoreId) (t : ThreadId) {f : Field} (other : f.reg ≠ .dstat) : (e.bump f c 0).tf dstat_SS c t = e.tf dstat_SS c t :=
  State.fld_setFld_other e f dstat_SS _ _ _ _ _ _ _ (by omega) (by omega) (by omega) (by omega) (fun same => other same.1.symm)

theorem State.countAtomic_leaves (e : State) (c : CoreId) (t : ThreadId) (counted : Bool) : (e.countAtomic c t counted).SameMemory e ∧
    (e.countAtomic c t counted).cores = e.cores ∧ (e.countAtomic c t counted).tf dstat_SS c t = e.tf dstat_SS c t := by
  unfold State.countAtomic
  split
  · exact ⟨⟨State.bump_mem .., State.bump_tags .., State.bump_bad ..⟩, State.cores_bump .., e.single_bump c t (by decide)⟩
  · exact ⟨.refl e, rfl, rfl⟩

/-- A word that ends in one scalar write in flight at distance 1, of a thread that has no other. -/
theorem completes_flown {i : Instr} {enc : List Nat} {body : State → Fx} {m : State} {n v : Nat} (runs : s.Runs c t w.g) (h : s.Settled c t)
    (legal : enc = []) (word : exec i s = s.word c t w.g enc body) (done : body (s.reads c t) = .done (m.fly c t (.s n) v 1))
    (thr : m.thr c t = (s.reads c t).thr c t) (cyc : (m.core c).cyc = ((s.reads c t).core c).cyc)
    (single : m.tf dstat_SS c t = (s.reads c t).tf dstat_SS c t) :
    Completes i s (fun u => u.SameMemory m ∧ (u.thr c t).flight = [⟨.s n, v, ((s.reads c t).core c).cyc + 1⟩] ∧ ∀ r, u.x c t r = (s.reads c t).x c t r) := by
  have flown : (m.fly c t (.s n) v 1).thr c t = { (s.reads c t).thr c t with flight := [⟨.s n, v, ((s.reads c t).core c).cyc + 1⟩] } := by
    simp only [State.fly, State.thr_setThr_same, thr, cyc, h.landed, addFlight]
  refine completes_walking runs h legal word done (by rw [flown]) ((State.tf_setThr ..).trans single) fun u _ goes => ?_
  obtain ⟨⟨_, _, _, _, thread⟩, -, -, only⟩ := goes
  rw [flown] at thread
  exact ⟨only.memory, by rw [thread], fun r => by rw [State.x, thread, State.x]⟩

/-- An atomic has left a new value in the word at offset `off` of core c's banks, and has put the old one in flight to scalar register n. -/
def State.AtomicLeft (u e : State) (c : CoreId) (t : ThreadId) (off n : Nat) (new : Word) : Prop :=
  u.readLE (bankAddr c off) 8 = new.toNat ∧
  (∀ a, a < bankAddr c off ∨ bankAddr c off + 8 ≤ a → u.byte a = e.byte a) ∧
  (u.thr c t).flight = [⟨.s n, e.readLE (bankAddr c off) 8, (e.core c).cyc + 1⟩] ∧ u.tags = e.tags ∧ (∀ r, u.x c t r = e.x c t r)

theorem atomic_leaves {i : Instr} {enc : List Nat} {op : Nat} {b : State → Word} {new : Word} (runs : s.Runs c t w.g) (h : s.Settled c t)
    (addr : (s.reads c t).x c t w.b = ownBankWord c off) (bank : ∀ write, (s.reads c t).OwnBank c t off 8 write)
    (word : exec i s = s.word c t w.g enc (fun e => e.atomic c t op false w b))
    (value : atomicNew op (BitVec.ofNat 64 ((s.reads c t).readLE (bankAddr c off) 8)) ((s.reads c t).x c t w.c) (b (s.reads c t)) = new)
    (legal : enc = [] := by rfl) : Completes i s (fun u => u.AtomicLeft (s.reads c t) c t off w.a.toNat new) := by
  generalize reads : s.reads c t = e at addr bank value ⊢
  have applied := State.atomicBank_read (State.bankRead_clean (bank true).pos (bank true).clean) op (e.x c t w.c) (b e)
  rw [value] at applied
  have only := e.banksOnly_bankPut c off 8 0xFF new.toNat
  have put : (e.bankPut c off 8 0xFF new.toNat).mem = (e.writeLE (bankAddr c off) 8 new.toNat).mem := (e.bankPut_full c off 8 new.toNat).1
  have tags := e.bankPut_tags c off 8 0xFF new.toNat
  generalize e.bankPut c off 8 0xFF new.toNat = m at applied only put tags
  obtain ⟨same, cores, single⟩ := m.countAtomic_leaves c t (decide (3 ≤ op))
  have done := State.atomic_ownBank addr bank applied
  rw [← reads] at done
  refine (completes_flown runs h legal word done ?_ ?_ ?_).imp fun u ⟨memory, flight, x⟩ => ?_
  · rw [reads, ← only.thr, State.thr, State.core, cores, State.thr, State.core]
  · rw [reads, ← only.cyc, State.core, cores, State.core]
  · rw [reads, single]
    exact State.tf_congr only.regs ..
  · rw [reads] at flight x
    have stored := (memory.1.trans same.1).trans put
    refine ⟨?_, fun a out => ?_, flight, (memory.2.1.trans same.2.1).trans tags, x⟩
    · rw [State.readLE_congr stored, State.readLE_writeLE, Nat.mod_eq_of_lt new.isLt]
    · rw [State.byte, stored]
      exact State.writeLE_other e _ _ _ a out

theorem atomicNew_min (o v x : Word) : atomicNew 1 o v x = if o.toInt ≤ v.toInt then o else v := by
  simp only [atomicNew, BitVec.slt, decide_eq_true_eq]
  rcases lt_trichotomy o.toInt v.toInt with less | same | more
  · rw [if_pos less, if_pos less.le]
  · rw [if_neg same.not_lt, if_pos same.le]
    exact (BitVec.toInt_inj.1 same).symm
  · rw [if_neg more.not_gt, if_neg more.not_ge]

theorem atomicNew_max (o v x : Word) : atomicNew 2 o v x = if o.toInt ≤ v.toInt then v else o := by
  simp only [atomicNew, BitVec.slt, decide_eq_true_eq]
  rcases lt_trichotomy o.toInt v.toInt with less | same | more
  · rw [if_neg less.not_gt, if_pos less.le]
  · rw [if_neg same.not_gt, if_pos same.le]
  · rw [if_pos more, if_neg more.not_ge]

end

/-- Settles O18: each atomic is one application by the bank, whose new value is its operation's. -/
theorem ownBankAtomicsComplete : Obligations.OwnBankAtomicsComplete := by
  intro c t w s off runs h e old o v leaves addr bank
  exact ⟨atomic_leaves runs h addr bank rfl rfl, atomic_leaves runs h addr bank rfl (atomicNew_min o v 0),
    atomic_leaves runs h addr bank rfl (atomicNew_max o v 0), atomic_leaves runs h addr bank rfl rfl,
    fun even => atomic_leaves runs h addr bank rfl rfl (by simp [atomicEnc, encZ, even])⟩

end Sys2Proof.Machine
end

section
/-!
SUPPORT for O19. The full/empty operations on a word of an own bank (R216, R217, R335, R345).
-/
namespace Sys2Proof.Machine

/-! ### What the bank does -/

section
variable {u m e : State} {c : CoreId} {off : Nat}

@[simp] theorem State.tag_setTag_same (e : State) (a n : Nat) : (e.setTag a n).tag a = n := Sparse.get_set_same ..

theorem State.tag_setTag_other (e : State) {a x : Nat} (n : Nat) (other : x / 8 ≠ a / 8) : (e.setTag a n).tag x = e.tag x := Sparse.get_set_other _ _ _ _ other

/-- The word at offset `off` of core c's banks holds v and its tag is n; other bytes and tags are as in `e`. -/
structure State.FeHolds (u e : State) (c : CoreId) (off v n : Nat) : Prop where
  word : u.readLE (bankAddr c off) 8 = v
  tag : u.tag (bankAddr c off) = n
  kept : ∀ x, x < bankAddr c off ∨ bankAddr c off + 8 ≤ x → u.byte x = e.byte x ∧ (x / 8 ≠ bankAddr c off / 8 → u.tag x = e.tag x)

/-- The bank has left the word so, and has changed nothing but what banks keep. -/
structure State.FeLeft (u e : State) (c : CoreId) (off v n : Nat) : Prop extends u.FeHolds e c off v n where
  banks : u.BanksOnly e c

theorem State.FeHolds.of_same {v n : Nat} (h : m.FeHolds e c off v n) (same : u.SameMemory m) : u.FeHolds e c off v n := by
  obtain ⟨mem, tags, -⟩ := same
  have tag (x : Nat) : u.tag x = m.tag x := by rw [State.tag, tags, State.tag]
  refine ⟨(State.readLE_congr mem ..).trans h.word, (tag _).trans h.tag, fun x out => ⟨?_, fun other => (tag x).trans ((h.kept x out).2 other)⟩⟩
  rw [State.byte, mem]
  exact (h.kept x out).1

/-- Watches that fire leave their table, and wakes leave the core. -/
theorem State.fireWatches_leaves (e : State) (c off : Nat) (full : Bool) : (e.fireWatches c off full).BanksOnly e c ∧
    (e.fireWatches c off full).mem = e.mem ∧ (e.fireWatches c off full).tags = e.tags := by
  have sends (l : List Watch) (f : State → Watch → List Nat) (s : State) : (l.foldl (fun s w => s.send .wake (f s w)) s).BanksOnly s c ∧
      (l.foldl (fun s w => s.send .wake (f s w)) s).mem = s.mem ∧ (l.foldl (fun s w => s.send .wake (f s w)) s).tags = s.tags := by
    induction l generalizing s with
    | nil => exact ⟨.refl s c, rfl, rfl⟩
    | cons w l ih =>
      obtain ⟨banks, mem, tags⟩ := ih (s.send .wake (f s w))
      exact ⟨banks.trans (s.banksOnly_send c _ _), mem, tags⟩
  obtain ⟨banks, mem, tags⟩ := sends ((e.core c).watches.filter (fun w => decide (w.word = off / 8) && decide (w.onFull = full)))
    (fun s w => [c, off, w.waiter.toNat, w.plot, w.epoch, s.tag (bankAddr c off) % 4])
    (e.setCore c { e.core c with watches := (e.core c).watches.filter (fun w => !(decide (w.word = off / 8) && decide (w.onFull = full))) })
  exact ⟨banks.trans (e.banksOnly_setBanks c _ _), mem, tags⟩

/-- The state after a bank has written the tag of a word, and fired the watches on it. -/
def State.tagged (m : State) (c off n : Nat) (full : Bool) : State := ((m.wroteWord c off).setTag (bankAddr c off) n).fireWatches c off full

theorem State.tagged_left (banks : m.BanksOnly e c) {v n : Nat} (full : Bool) (word : m.readLE (bankAddr c off) 8 = v) (tags : m.tags = e.tags)
    (kept : ∀ x, x < bankAddr c off ∨ bankAddr c off + 8 ≤ x → m.byte x = e.byte x) : (m.tagged c off n full).FeLeft e c off v n := by
  obtain ⟨fired, mem, tags'⟩ := ((m.wroteWord c off).setTag (bankAddr c off) n).fireWatches_leaves c off full
  have tag (x : Nat) : (m.tagged c off n full).tag x = (m.setTag (bankAddr c off) n).tag x := by
    rw [State.tagged, State.tag, tags']
    rfl
  have memory : (m.tagged c off n full).mem = m.mem := mem
  refine ⟨⟨?_, ?_, fun x out => ⟨?_, fun other => ?_⟩⟩, fired.trans ((State.banksOnly_setTag _ c _ n).trans ((m.banksOnly_wroteWord c off).trans banks))⟩
  · rw [State.readLE_congr memory, word]
  · rw [tag, State.tag_setTag_same]
  · rw [State.byte, memory, ← State.byte, kept x out]
  · rw [tag, State.tag_setTag_other _ _ other, State.tag, tags, State.tag]

/-- The bank keeps the word and writes its tag. -/
theorem State.retagged_left (e : State) (c : CoreId) (off n : Nat) (full : Bool) : (e.tagged c off n full).FeLeft e c off (e.readLE (bankAddr c off) 8) n :=
  State.tagged_left (.refl e c) full rfl rfl fun _ _ => rfl

/-- The bank writes the word and its tag. -/
theorem State.filled_left (e : State) (c : CoreId) (off n : Nat) (v : Word) (full : Bool) :
    ((e.bankPut c off 8 0xFF v.toNat).tagged c off n full).FeLeft e c off v.toNat n := by
  have mem : (e.bankPut c off 8 0xFF v.toNat).mem = (e.writeLE (bankAddr c off) 8 v.toNat).mem := (e.bankPut_full c off 8 v.toNat).1
  refine State.tagged_left (e.banksOnly_bankPut c off 8 0xFF v.toNat) full ?_ (e.bankPut_tags ..) fun x out => ?_
  · rw [State.readLE_congr mem, State.readLE_writeLE, Nat.mod_eq_of_lt v.isLt]
  · rw [State.byte, mem]
    exact State.writeLE_other e _ _ _ x out

theorem State.same_left (e : State) (c : CoreId) (off : Nat) : e.FeLeft e c off (e.readLE (bankAddr c off) 8) (e.tag (bankAddr c off)) :=
  ⟨⟨rfl, rfl, fun _ _ => ⟨rfl, fun _ => rfl⟩⟩, .refl e c⟩

variable {data : Word} {src : Option Nat} {who : Watch}

theorem State.OwnBank.first_clean {t : ThreadId} {n : Nat} {write : Bool} (bank : e.OwnBank c t off n write) : e.pat (bankAddr c off) = 0 := by
  simpa using bank.clean 0 bank.pos

theorem State.uncorrectable_clean {a : Nat} (clean : e.pat a = 0) : e.uncorrectable a = false := by simp [State.uncorrectable, State.finding, clean]

section
variable (clean : e.pat (bankAddr c off) = 0)
include clean

/-- LDFE of a full word reads and empties it. -/
theorem State.feBank_ldfe (full : 4 ≤ e.tag (bankAddr c off)) : e.feBank c off 0 data false 0 src who =
    (⟨0, e.readLE (bankAddr c off) 8, e.tag (bankAddr c off) % 4⟩, e.tagged c off 0 false) := by
  simp only [State.feBank, State.uncorrectable_clean clean, State.readWord_clean clean, full, if_true, Bool.false_eq_true, if_false, State.tagged]

/-- LDFF of a full word reads it. -/
theorem State.feBank_ldff (full : 4 ≤ e.tag (bankAddr c off)) : e.feBank c off 1 data false 0 src who =
    (⟨0, e.readLE (bankAddr c off) 8, e.tag (bankAddr c off) % 4⟩, e) := by
  simp only [State.feBank, State.uncorrectable_clean clean, State.readWord_clean clean, full, if_true, Bool.false_eq_true, if_false]

/-- STFE fills an empty word. -/
theorem State.feBank_stfe (empty : ¬ 4 ≤ e.tag (bankAddr c off)) : e.feBank c off 2 data false 0 src who =
    (⟨0, 0, 0⟩, (e.bankPut c off 8 0xFF data.toNat).tagged c off 4 true) := by
  simp only [State.feBank, State.uncorrectable_clean clean, State.readWord_clean clean, empty, if_true, Bool.false_eq_true, if_false, State.tagged, Nat.add_zero]

/-- STF fills any word. -/
theorem State.feBank_stf : e.feBank c off 3 data false 0 src who = (⟨0, 0, 0⟩, (e.bankPut c off 8 0xFF data.toNat).tagged c off 4 true) := by
  simp only [State.feBank, State.uncorrectable_clean clean, State.readWord_clean clean, if_true, Bool.false_eq_true, if_false, State.tagged, Nat.add_zero]

/-- SETE empties any word. -/
theorem State.feBank_sete : e.feBank c off 4 data false 0 src who = (⟨0, 0, 0⟩, e.tagged c off 0 false) := by
  simp only [State.feBank, State.uncorrectable_clean clean, State.readWord_clean clean, Bool.false_eq_true, if_false, State.tagged, Nat.add_zero]

/-- WAITF finds a word full. -/
theorem State.feBank_waitf (full : 4 ≤ e.tag (bankAddr c off)) : e.feBank c off 5 data false 0 src who = (⟨0, 0, e.tag (bankAddr c off) % 4⟩, e) := by
  simp only [State.feBank, State.uncorrectable_clean clean, State.readWord_clean clean, full, if_true, Bool.false_eq_true, if_false]

end

end

/-! ### The words -/

section
variable {s e : State} {c : CoreId} {t : ThreadId} {w : LR} {off op : Nat}

theorem State.wrfHolds_bank (e : State) (c t n o : Nat) : e.wrfHolds c t (.bank n o) = false := by
  unfold State.wrfHolds
  split
  · next same => exact absurd same (fun h => nomatch h)
  · rfl

/-- What a full/empty word does once its own bank has performed it: a read puts its value in flight, a posted write ends, STFE and WAITF are no longer
waited for. -/
def State.feEnds (u : State) (c t op dest : Nat) (v : Nat) : State :=
  if op ≤ 1 then u.fly c t (.s dest) v 1 else if op = 3 ∨ op = 4 then u else u.ready c t

theorem State.feDone_ready (u : State) (c t dest : Nat) (a : Word) (r : FeReply) (reads : ¬ op ≤ 1) : u.feDone c t op dest a 0 r = u.ready c t := by
  simp [State.feDone, reads, nbit]

/-- The full/empty word `op` without options may access the word at offset `off` of an own bank, which completes it with value `val` and leaves the word
holding v with tag n. -/
structure State.FeMay (m e : State) (c : CoreId) (t : ThreadId) (w : LR) (off op val v n : Nat) : Prop where
  addr : e.x c t w.b = ownBankWord c off
  inside : off < 0x40000 ∨ 0x100000 ≤ off ∧ off < 0x300000
  zero : w.c = 0
  check : e.check c t (ownBankWord c off) 8 ((ownBankWord c off).toNat % 8 = 0) (op = 0 || (2 ≤ op && op ≤ 4)) (op ≤ 1 || op = 5) = .ok (.bank c off)
  performed : ∃ tag, e.feBank c off op (e.x c t w.a) false 0 (some c) (e.watchOf c t none op) = (⟨0, val, tag⟩, m)
  left : m.FeLeft e c off v n

variable {m : State} {val v n : Nat} {i : Instr} {enc : List Nat}

theorem State.FeMay.feWord (may : m.FeMay e c t w off op val v n) : e.feWord c t op none w = .done (m.feEnds c t op w.a.toNat val) := by
  obtain ⟨addr, inside, zero, check, ⟨tag, performed⟩, -⟩ := may
  have place := State.mmrTarget_ownBank e c t inside
  obtain ⟨-, low, plain⟩ := ownBankWord_parts c (off := off) (by omega)
  rw [← low] at plain
  rw [← addr] at check place plain
  have noOption : w.c.toNat = 0 := by rw [zero]; rfl
  have noBit (k : Nat) : nbit 0 k ≠ 1 := by simp [nbit]
  unfold State.feWord State.feLeave
  obtain ⟨feBank, same⟩ : ∃ f, f = State.feBank := ⟨_, rfl⟩
  rw [← same] at performed ⊢
  extract_lets a opt dest data writes busy noTags cw n start wait
  have started : start = e := rfl
  have writing : writes = (op = 0 || (2 ≤ op && op ≤ 4)) := Bool.decide_eq_true
  rw [← writing] at check
  have read (low : op ≤ 1) : dest = w.a.toNat := if_neg (by omega)
  simp only [busy, a, opt, data, noOption, place, check, plain, started, State.wrfHolds_bank, noBit, Bool.false_eq_true, if_false, Bool.and_false, Bool.not_false,
    decide_true, Bool.and_self, if_true, Option.isNone_some, Bool.false_and, decide_false, Nat.zero_mod, performed, Bool.true_or, Bool.and_true,
    decide_eq_true_eq]
  unfold State.feEnds State.feApply State.feOutcome
  simp only [Bool.or_eq_true, decide_eq_true_eq, if_true]
  by_cases low : op ≤ 1
  · rw [if_pos low, if_pos low, read low]
  · rw [if_neg low, if_neg low, State.feDone_ready _ _ _ _ _ _ low]

/-- A full/empty read that its own bank completes. -/
theorem completes_feRead (runs : s.Runs c t w.g) (h : s.Settled c t) (may : m.FeMay (s.reads c t) c t w off op val v n)
    (word : exec i s = s.word c t w.g enc (fun e => e.feWord c t op none w)) (legal : enc = []) (low : op ≤ 1) :
    Completes i s (fun u => u.FeHolds (s.reads c t) c off v n ∧ (u.thr c t).flight = [⟨.s w.a.toNat, val, ((s.reads c t).core c).cyc + 1⟩]) := by
  have done := may.feWord
  have banks := may.left.banks
  rw [State.feEnds, if_pos low] at done
  exact (completes_flown runs h legal word done (banks.thr t) banks.cyc (State.tf_congr banks.regs ..)).imp
    fun u ⟨same, flight, _⟩ => ⟨may.left.of_same same, flight⟩

/-- What a full/empty word that reads no value does with the thread, which is READY. -/
theorem State.FeMay.ends (may : m.FeMay e c t w off op val v n) (high : ¬ op ≤ 1) (ready : (e.thr c t).st = .ready) :
    ∃ q : State, e.feWord c t op none w = .done q ∧ q.SameMemory m ∧ (q.thr c t).st = .ready ∧ (q.thr c t).stepReq = (e.thr c t).stepReq ∧
      q.regs = e.regs := by
  have banks := may.left.banks
  rw [may.feWord, State.feEnds, if_neg high]
  split
  · exact ⟨_, rfl, .refl m, by rw [banks.thr, ready], by rw [banks.thr], banks.regs⟩
  · exact ⟨_, rfl, ⟨rfl, rfl, rfl⟩, by rw [State.thr_ready], by rw [State.thr_ready, banks.thr], banks.regs⟩

/-- A full/empty word that reads no value and that its own bank completes. -/
theorem completes_feWrite (runs : s.Runs c t w.g) (h : s.Settled c t) (may : m.FeMay (s.reads c t) c t w off op val v n)
    (word : exec i s = s.word c t w.g enc (fun e => e.feWord c t op none w)) (legal : enc = []) (high : ¬ op ≤ 1) :
    Completes i s (fun u => u.FeHolds (s.reads c t) c off v n ∧ (u.thr c t).st = .ready) := by
  obtain ⟨q, done, memory, st, step, regs⟩ := may.ends high (State.reads_ready runs.turn)
  refine completes_walking runs h legal word done step (State.tf_congr regs ..) fun u _ goes => ?_
  obtain ⟨⟨_, _, _, _, thread⟩, -, -, only⟩ := goes
  exact ⟨(may.left.of_same memory).of_same only.memory, by rw [thread, st]⟩

end

/-! ### Each word -/

section
variable {s : State} {c : CoreId} {t : ThreadId} {w : LR} {off : Nat} (runs : s.Runs c t w.g) (h : s.Settled c t)
  (addr : (s.reads c t).x c t w.b = ownBankWord c off) (bank : ∀ write, (s.reads c t).OwnBank c t off 8 write) (zero : w.c = 0)
include runs h addr bank zero

theorem ldfe_reads (full : 4 ≤ (s.reads c t).tag (bankAddr c off)) : let old := (s.reads c t).readLE (bankAddr c off) 8
    Completes (.ldfe c t false w) s (fun u => u.FeHolds (s.reads c t) c off old 0 ∧
      (u.thr c t).flight = [⟨.s w.a.toNat, old, ((s.reads c t).core c).cyc + 1⟩]) :=
  completes_feRead (op := 0) runs h ⟨addr, (bank true).offset, zero, State.check_ownBank_both bank, ⟨_, State.feBank_ldfe (bank true).first_clean full⟩,
    State.retagged_left _ c off 0 false⟩ rfl (encZ_legal (by simp [optAcqOk, zero])) (by decide)

theorem ldff_reads (full : 4 ≤ (s.reads c t).tag (bankAddr c off)) : let old := (s.reads c t).readLE (bankAddr c off) 8
    Completes (.ldff c t false w) s (fun u => u.FeHolds (s.reads c t) c off old ((s.reads c t).tag (bankAddr c off)) ∧
      (u.thr c t).flight = [⟨.s w.a.toNat, old, ((s.reads c t).core c).cyc + 1⟩]) :=
  completes_feRead (op := 1) runs h ⟨addr, (bank true).offset, zero, State.check_ownBank (bank false), ⟨_, State.feBank_ldff (bank true).first_clean full⟩,
    State.same_left _ c off⟩ rfl (encZ_legal (by simp [optAcqOk, zero])) (by decide)

theorem stfe_fills (empty : ¬ 4 ≤ (s.reads c t).tag (bankAddr c off)) :
    Completes (.stfe c t w) s (fun u => u.FeHolds (s.reads c t) c off ((s.reads c t).x c t w.a).toNat 4 ∧ (u.thr c t).st = .ready) :=
  completes_feWrite (op := 2) runs h ⟨addr, (bank true).offset, zero, State.check_ownBank (bank true), ⟨_, State.feBank_stfe (bank true).first_clean empty⟩,
    State.filled_left _ c off 4 _ true⟩ rfl (encZ_legal (by simp [optRelOk, zero])) (by decide)

theorem stf_fills :
    Completes (.stf c t w) s (fun u => u.FeHolds (s.reads c t) c off ((s.reads c t).x c t w.a).toNat 4 ∧ (u.thr c t).st = .ready) :=
  completes_feWrite (op := 3) runs h ⟨addr, (bank true).offset, zero, State.check_ownBank (bank true), ⟨_, State.feBank_stf (bank true).first_clean⟩,
    State.filled_left _ c off 4 _ true⟩ rfl (encZ_legal (by simp [optRelOk, zero])) (by decide)

theorem sete_empties (noTarget : w.a = 0) :
    Completes (.sete c t w) s (fun u => u.FeHolds (s.reads c t) c off ((s.reads c t).readLE (bankAddr c off) 8) 0 ∧ (u.thr c t).st = .ready) :=
  completes_feWrite (op := 4) runs h ⟨addr, (bank true).offset, zero, State.check_ownBank (bank true), ⟨_, State.feBank_sete (bank true).first_clean⟩,
    State.retagged_left _ c off 0 false⟩ rfl (encZ_legal (by simp [optRelOk, zero, noTarget])) (by decide)

theorem waitf_goesOn (full : 4 ≤ (s.reads c t).tag (bankAddr c off)) :
    Completes (.waitf c t w) s (fun u => u.FeHolds (s.reads c t) c off ((s.reads c t).readLE (bankAddr c off) 8) ((s.reads c t).tag (bankAddr c off)) ∧
      (u.thr c t).st = .ready) :=
  completes_feWrite (op := 5) runs h ⟨addr, (bank true).offset, zero, State.check_ownBank (bank false), ⟨_, State.feBank_waitf (bank true).first_clean full⟩,
    State.same_left _ c off⟩ rfl (encZ_legal (by simp [optAcqOk, zero])) (by decide)

end

end Sys2Proof.Machine
end

section
/-!
SUPPORT and O19. Requests that a word sends (R216, R224, R311, R317, R326, R351), and the statement.
-/
namespace Sys2Proof.Machine

/-! ### An access that leaves, or waits in its core -/

section
variable {m v e : State} {c : CoreId} {t : ThreadId} {key : AccKey} {a : Word} {n : Nat} {parts msg : List Nat}

/-- A request that holds no place yet is sent, unless an access in flight shares a byte with it (R326). -/
theorem State.sent_depart (fresh : ∀ y ∈ (e.core c).flying, y.held = true → y.key ≠ key) :
    (e.depart c key a n parts msg).sent = if e.inFlight c a n then e.sent else e.sent ++ [⟨.request, msg⟩] := by
  unfold State.depart State.inFlight State.accessRange
  cases (e.place a).spot with
  | none => rfl
  | some p =>
    have noOwn : ((e.core c).flying.any fun y => y.held && decide (y.key = key) && y.meets { key := key, mem := p.1, off := p.2, len := n, parts := parts }) = false := by
      refine List.any_eq_false.2 fun y m => ?_
      by_cases held : y.held = true
      · simp [fresh y m held]
      · simp [held]
    dsimp only [Option.map_some]
    rw [noOwn, if_neg Bool.false_ne_true]
    exact apply_ite State.sent _ _ _

/-- From `e` to `m` nothing has changed on which the leaving of an access of thread t depends. -/
structure State.Prepared (m e : State) (c t : Nat) : Prop where
  sent : m.sent = e.sent
  mem : m.mem = e.mem
  flying : (m.core c).flying = (e.core c).flying
  place : ∀ a, m.place a = e.place a
  step : (m.thr c t).stepReq = (e.thr c t).stepReq
  single : m.tf dstat_SS c t = e.tf dstat_SS c t

theorem State.Prepared.trans {c t : Nat} (next : m.Prepared v c t) (first : v.Prepared e c t) : m.Prepared e c t :=
  ⟨next.sent.trans first.sent, next.mem.trans first.mem, next.flying.trans first.flying, fun a => (next.place a).trans (first.place a),
    next.step.trans first.step, next.single.trans first.single⟩

theorem State.Prepared.refl (e : State) (c t : Nat) : e.Prepared e c t := ⟨rfl, rfl, rfl, fun _ => rfl, rfl, rfl⟩

theorem State.Prepared.inFlight (h : m.Prepared e c t) (a : Word) (n : Nat) : m.inFlight c a n = e.inFlight c a n := by
  unfold State.inFlight State.accessRange
  rw [h.place, h.flying]

theorem State.prepared_setThr (e : State) (c t : Nat) {h : Thread} (step : h.stepReq = (e.thr c t).stepReq) : (e.setThr c t h).Prepared e c t :=
  ⟨rfl, rfl, by rw [State.core_setThr_same], e.place_setCore c _, by rw [State.thr_setThr_same, step], State.tf_setThr ..⟩

theorem State.prepared_noteWrite (e : State) (c t : Nat) (p : Place) : (e.noteWrite c t p).Prepared e c t := by
  unfold State.noteWrite
  dsimp only
  split
  · exact .refl e c t
  · exact e.prepared_setThr c t rfl

theorem State.prepared_bypassGo (e : State) (c t : Nat) (a : Word) (n : Nat) : (e.bypassGo c a n true).Prepared e c t := by
  have only := e.cacheOnly_invalidate c (fun x => inLines (e.lineOf a) (e.lastLine a n) x.line) (fun x => inLines (e.lineOf a) (e.lastLine a n) x.line)
  exact ⟨only.sent, only.beside.mem, only.flying, only.place, by rw [State.bypassGo, if_pos rfl, only.threads], State.tf_congr only.regs ..⟩

/-- Counters of the core are no part of the module's address map. -/
theorem State.prepared_bump (e : State) (c : CoreId) (t : ThreadId) {f : Field} (other : f.reg ≠ .dstat ∧ f.reg ≠ .MODULE_ID) : (e.bump f c 0).Prepared e c t := by
  have id : (e.bump f c 0).fld MODULE_ID_ID 0 0 = e.fld MODULE_ID_ID 0 0 :=
    State.fld_setFld_other e f MODULE_ID_ID _ _ _ _ _ _ _ (by omega) (by omega) (by omega) (by omega) (fun same => other.2 same.1.symm)
  refine ⟨State.bump_sent .., State.bump_mem .., rfl, fun a => ?_, rfl, e.single_bump c t other.1⟩
  unfold State.place
  rw [id]
  rfl

theorem State.regs_noteWrite (e : State) (c t : Nat) (p : Place) : (e.noteWrite c t p).regs = e.regs := by
  unfold State.noteWrite
  dsimp only
  split <;> rfl

theorem State.regs_bypassGo (e : State) (c : Nat) (a : Word) (n : Nat) : (e.bypassGo c a n true).regs = e.regs := (e.cacheOnly_invalidate c _ _).regs

theorem State.fld_congr (same : m.regs = e.regs) (f : Field) (q i k : Nat) : m.fld f q i k = e.fld f q i k := by
  rw [State.fld, State.reg, same, State.fld, State.reg]

/-- A word that ends in an access that leaves, or waits, from a state in which nothing has changed that the access depends on. -/
theorem completes_departing {s : State} {g : BitVec 4} {i : Instr} {enc : List Nat} {body : State → Fx} (runs : s.Runs c t g) (h : s.Settled c t)
    (legal : enc = []) (word : exec i s = s.word c t g enc body) (done : body (s.reads c t) = .done (m.depart c key a n parts msg))
    (prepared : m.Prepared (s.reads c t) c t) (fresh : ∀ y ∈ ((s.reads c t).core c).flying, y.held = true → y.key ≠ key) :
    Completes i s (fun u => (u.sent = (if (s.reads c t).inFlight c a n then (s.reads c t).sent else (s.reads c t).sent ++ [⟨.request, msg⟩]) ∧
      u.mem = (s.reads c t).mem) ∧ ∀ f : Field, f.reg ≠ .lstat → u.fld f c 0 = m.fld f c 0) := by
  have flown := m.flown_depart (c := c) key a n parts msg
  have sent : (m.depart c key a n parts msg).sent = _ := State.sent_depart (fun y on => fresh y (prepared.flying ▸ on))
  rw [prepared.inFlight, prepared.sent] at sent
  refine completes_walking runs h legal word done (by rw [flown.thr, prepared.step]) ((State.tf_congr flown.regs ..).trans prepared.single)
    fun u walks goes => ⟨⟨goes.only.sent.trans sent, goes.only.memory.1.trans (flown.mem.trans prepared.mem)⟩, fun f other => ?_⟩
  rw [walks.fld other (by decide), flown.fld]

/-- A bypassing access of a core with an empty cache and no write-back out leaves without a flush (R254). -/
theorem State.afterFlush_empty (empty : (e.core c).cache = []) (acked : (e.core c).wbs = []) (k : State → Fx) : e.afterFlush c t a n k = k e := by
  rw [State.afterFlush, if_neg]
  simp only [State.bypassWaits, empty, acked, List.any_nil, Bool.or_self, Bool.false_eq_true, not_false_eq_true]

theorem State.watched_none (quiet : e.watchHit c t a n false true = none) (f : Fx) : e.watched c t a n f = f := by
  unfold State.watched
  rw [quiet]

end

/-! ### Pot contributions -/

section
variable {s e : State} {c : CoreId} {t : ThreadId} {w : LR} {q off form : Nat}

/-- A fast Pot contribution of a Tenant thread is counted where the word issues, the model's choice (notes/assumptions/12.md and 109.md; R559). -/
def State.potCounted (e : State) (c t form : Nat) : State := if form = 2 && e.world c t = 0 then e.bump DET_CNT_FASTPOT c 0 else e

theorem State.prepared_potCounted (e : State) (c : CoreId) (t : ThreadId) (form : Nat) : (e.potCounted c t form).Prepared e c t := by
  unfold State.potCounted
  split
  · exact e.prepared_bump c t (by decide)
  · exact .refl e c t

theorem State.thr_potCounted (e : State) (c t form : Nat) : (e.potCounted c t form).thr c t = e.thr c t := by
  unfold State.potCounted
  split
  · rw [State.bump, State.thr_setFld]
  · rfl

/-- What a Pot contribution's request carries. -/
def State.potRequest (e : State) (c t form : Nat) (w : LR) : List Nat :=
  let a := e.x c t w.b
  let v := e.x c t w.c
  [c, t, 4, a.toNat, 64, form, v.toNat % 2 ^ 20, v.toNat / 2 ^ 20 % 2 ^ 20, (e.vr c t w.a).toNat, (e.thr c t).nextW]

/-- A Pot contribution to a bank that nothing refuses, stops or delays in its core. -/
structure State.MayAdd (e : State) (c t : Nat) (w : LR) (q off : Nat) : Prop where
  aligned : (e.x c t w.b).toNat % 64 = 0
  bank : e.translateWord (e.who c t) (e.x c t w.b) true = .to (.bank q off)
  empty : (e.core c).cache = []
  acked : (e.core c).wbs = []
  low : w.a.toNat < 16
  quiet : e.watchHit c t (e.x c t w.b) 64 false true = none

theorem State.padd_departs (may : e.MayAdd c t w q off) (form : Nat) : e.padd c t form w =
    .done ((((e.potCounted c t form).bypassGo c (e.x c t w.b) 64 true).noteWrite c t (.bank q off)).depart c (.write t (e.thr c t).nextW) (e.x c t w.b) 64 [0]
      (e.potRequest c t form w)) := by
  have thread := e.thr_potCounted c t form
  unfold State.padd
  rw [if_neg (not_not.2 may.aligned), may.bank]
  dsimp only
  rw [if_neg (fun h => nomatch h), State.watched_none may.quiet, if_neg (by decide), State.afterFlush_empty may.empty may.acked]
  unfold State.potRequest
  rw [← thread]
  rfl

/-- A Pot contribution leaves as a request, or waits in its core. -/
theorem padd_leaves {i : Instr} {enc : List Nat} (runs : s.Runs c t w.g) (h : s.Settled c t) (may : (s.reads c t).MayAdd c t w q off)
    (fresh : ∀ y ∈ ((s.reads c t).core c).flying, y.held = true → y.key ≠ .write t ((s.reads c t).thr c t).nextW)
    (word : exec i s = s.word c t w.g enc (fun e => e.padd c t form w)) (legal : enc = []) :
    Completes i s (fun u => (u.sent = (if (s.reads c t).inFlight c ((s.reads c t).x c t w.b) 64 then (s.reads c t).sent
        else (s.reads c t).sent ++ [⟨.request, (s.reads c t).potRequest c t form w⟩]) ∧ u.mem = (s.reads c t).mem) ∧
      u.fld DET_CNT_FASTPOT c 0 = ((s.reads c t).potCounted c t form).fld DET_CNT_FASTPOT c 0) := by
  refine (completes_departing runs h legal word (State.padd_departs may form) ?_ fresh).imp fun u ⟨leaves, fields⟩ => ⟨leaves, ?_⟩
  · exact (State.prepared_noteWrite ..).trans ((State.prepared_bypassGo ..).trans (State.prepared_potCounted ..))
  · rw [fields _ (by decide)]
    exact State.fld_congr ((State.regs_noteWrite ..).trans (State.regs_bypassGo ..)) ..

theorem State.fastpot_potCounted (tenant : e.world c t = 0) (room : e.fld DET_CNT_FASTPOT c 0 < 65535) :
    (e.potCounted c t 2).fld DET_CNT_FASTPOT c 0 = e.fld DET_CNT_FASTPOT c 0 + 1 := by
  rw [State.potCounted, if_pos (by simp [tenant]), State.bump, State.fld_setFld_same e _ _ _ _ _ (by decide) (by decide)]
  have top : 2 ^ (DET_CNT_FASTPOT.hi + 1 - DET_CNT_FASTPOT.lo) = 65536 := by decide
  rw [top]
  omega

end

/-! ### WRF and WAKEN -/

section
variable {s e : State} {c : CoreId} {t : ThreadId} {w : LR} {mid off : Nat}

/-- What a WRF's request carries. -/
def State.wrfRequest (e : State) (c t : Nat) (w : LR) : List Nat :=
  let v := e.x c t w.c
  [c, t, 5, (e.x c t w.b).toNat, 8, (e.x c t w.a).toNat, v.toNat % 2 ^ 16, v.toNat / 2 ^ 16 % 2 ^ 32, (e.thr c t).nextW]

/-- The thread's WRF of a count to module mid is out. -/
def State.wrfNoted (e : State) (c t mid n : Nat) : State := e.setThr c t { e.thr c t with wrfOut := some ((e.thr c t).nextW, mid, n % 2 ^ 16) }

theorem State.prepared_wrfNoted (e : State) (c t mid n : Nat) : (e.wrfNoted c t mid n).Prepared e c t := e.prepared_setThr c t rfl

/-- WRF to a bank of another module leaves as a request, or waits in its core. -/
theorem wrf_leaves (runs : s.Runs c t w.g) (h : s.Settled c t) (aligned : ((s.reads c t).x c t w.b).toNat % 8 = 0)
    (away : (s.reads c t).translateWord ((s.reads c t).who c t) ((s.reads c t).x c t w.b) true = .to (.remote mid off))
    (bank : ∃ q k, (s.reads c t).localPlace off = .bank q k) (empty : ((s.reads c t).core c).cache = []) (acked : ((s.reads c t).core c).wbs = [])
    (none_out : ((s.reads c t).thr c t).wrfOut = none) (quiet : (s.reads c t).watchHit c t ((s.reads c t).x c t w.b) 8 false true = none)
    (fresh : ∀ y ∈ ((s.reads c t).core c).flying, y.held = true → y.key ≠ .write t ((s.reads c t).thr c t).nextW) :
    Completes (.wrf c t w) s (fun u => u.sent = (if (s.reads c t).inFlight c ((s.reads c t).x c t w.b) 8 then (s.reads c t).sent
        else (s.reads c t).sent ++ [⟨.request, (s.reads c t).wrfRequest c t w⟩]) ∧ u.mem = (s.reads c t).mem) := by
  obtain ⟨q, k, home⟩ := bank
  have prepared : ((((s.reads c t).wrfNoted c t mid ((s.reads c t).x c t w.c).toNat).bypassGo c ((s.reads c t).x c t w.b) 8 true).noteWrite c t
      (.remote mid off)).Prepared (s.reads c t) c t :=
    (State.prepared_noteWrite ..).trans ((State.prepared_bypassGo ..).trans (State.prepared_wrfNoted ..))
  refine (completes_departing (i := .wrf c t w) (msg := (s.reads c t).wrfRequest c t w) (parts := [0]) runs h rfl rfl ?_ prepared fresh).imp fun u leaves => leaves.1
  dsimp only
  rw [if_neg (not_not.2 aligned), away]
  dsimp only
  rw [State.watched_none quiet, home]
  dsimp only
  rw [none_out, if_neg (by decide), State.afterFlush_empty empty acked]
  rfl

theorem State.sent_send (e : State) (k : MsgKind) (l : List Nat) : (e.send k l).sent = e.sent ++ [⟨k, l⟩] := rfl

theorem waken_leaves (runs : s.Runs c t w.g) (h : s.Settled c t) (window : inCoreWindow (((s.reads c t).x c t w.b).toNat % 2 ^ 48) = true) {q : Nat}
    (bank : (s.reads c t).translateWord ((s.reads c t).who c t) ((s.reads c t).x c t w.b) false = .to (.bank q off)) :
    Completes (.waken c t w) s (fun u => u.sent = (s.reads c t).sent ++
      [⟨.request, [(c : Nat), t, 6, ((s.reads c t).x c t w.b).toNat, 0, ((s.reads c t).x c t w.c).toNat % 256]⟩] ∧ u.mem = (s.reads c t).mem) := by
  have flown := (s.reads c t).flown_send c .request [c, t, 6, ((s.reads c t).x c t w.b).toNat, 0, ((s.reads c t).x c t w.c).toNat % 256]
  refine completes_walking (i := .waken c t w) runs h rfl rfl ?_ (by rw [flown.thr]) (State.tf_congr flown.regs ..)
    fun u _ goes => ⟨goes.only.sent.trans (State.sent_send ..), goes.only.memory.1.trans flown.mem⟩
  dsimp only
  rw [window, if_neg (by decide), bank]

end

/-- Settles O19. On an own bank the bank performs the operation. A Pot contribution or a WRF departs from a state that its write-backs and its count leave
as it was for the access; that a fast Pot contribution of a Tenant thread is counted as its word issues, whether its request leaves then or waits, is the
model's choice (notes/assumptions/12.md and 109.md). -/
theorem fullEmptyAndRequestWordsComplete : Obligations.FullEmptyAndRequestWordsComplete := by
  refine ⟨fun c t w s off runs h zero => ?words, fun c t w s n off mid runs h => ?requests⟩
  case words =>
    intro e a old v full kept reads addr bank
    have isFull (on : full = true) : 4 ≤ e.tag a := of_decide_eq_true on
    refine ⟨fun on => ?ldfe, fun on => ?ldff, fun empty => ?stfe, ?stf, fun noTarget => ?sete, fun on => ?waitf⟩
    case ldfe => exact (ldfe_reads runs h addr bank zero (isFull on)).imp fun u ⟨⟨word, tag, kept⟩, flight⟩ => ⟨⟨word, flight⟩, tag, kept⟩
    case ldff => exact (ldff_reads runs h addr bank zero (isFull on)).imp fun u ⟨⟨word, tag, kept⟩, flight⟩ => ⟨⟨word, flight⟩, tag, kept⟩
    case stfe => exact (stfe_fills runs h addr bank zero (of_decide_eq_false empty)).imp fun u ⟨⟨word, tag, kept⟩, _⟩ => ⟨word, tag, kept⟩
    case stf => exact (stf_fills runs h addr bank zero).imp fun u ⟨⟨word, tag, kept⟩, _⟩ => ⟨word, tag, kept⟩
    case sete => exact (sete_empties runs h addr bank zero noTarget).imp fun u ⟨⟨word, tag, kept⟩, _⟩ => ⟨word, tag, kept⟩
    case waitf => exact (waitf_goesOn runs h addr bank zero (isFull on)).imp fun u ⟨⟨word, tag, kept⟩, st⟩ => ⟨word, tag, st, kept⟩
  case requests =>
    intro e a v sent fresh
    refine ⟨fun aligned bank empty acked low quiet => ?pots, fun aligned away bank empty acked none_out quiet =>
      wrf_leaves runs h aligned away bank empty acked none_out quiet fresh, fun window bank => waken_leaves runs h window bank⟩
    have may : e.MayAdd c t w n off := ⟨aligned, bank, empty, acked, low, quiet⟩
    have vector : encV [w.a] = [] := encV_legal (by simp [low])
    refine ⟨fun zero => ?exact, ?tagged, ?fast⟩
    case exact =>
      exact (padd_leaves (form := 0) runs h may fresh rfl (by rw [vector, encZ_legal (by simp [zero])]; rfl)).imp fun u leaves => leaves.1
    case tagged => exact (padd_leaves (form := 1) runs h may fresh rfl vector).imp fun u leaves => leaves.1
    case fast =>
      exact (padd_leaves (form := 2) runs h may fresh rfl vector).imp fun u leaves =>
        ⟨leaves.1, fun tenant room => leaves.2.trans (State.fastpot_potCounted tenant room)⟩

end Sys2Proof.Machine
end

section
/-!
SUPPORT and O21. What the cache's range words do to the one line that they name (R220, R221, R260 to R262), and the statement.
-/
namespace Sys2Proof.Machine

/-! ### The lines of a range -/

section
variable {e : State} {c t : Nat} {w : LR}

theorem inLines_self (l : Nat) : inLines l l l = true := by simp [inLines]

theorem State.rangeLines_zero (empty : (e.x c t w.c).toNat = 0) : e.rangeLines c t w = none := if_pos empty

/-- A range of one byte is a range of one line (R221). -/
theorem State.rangeLines_one (one : (e.x c t w.c).toNat = 1) : e.rangeLines c t w = some (e.lineOf (e.x c t w.b), e.lineOf (e.x c t w.b)) := by
  have same : ((e.x c t w.b).toNat % 64 + 1 - 1) / 64 = 0 := by omega
  unfold State.rangeLines
  dsimp only
  rw [one, if_neg Nat.one_ne_zero, same, Nat.add_zero]

end

/-! ### Words that end in a state whose cache is known -/

/-- From `e` to `m` core c's cache has become `l`; memory, the registers and thread t's stepping are as they were. -/
structure State.Cached (m e : State) (c t : Nat) (l : List CEntry) : Prop where
  cache : (m.core c).cache = l
  mem : m.mem = e.mem
  regs : m.regs = e.regs
  step : (m.thr c t).stepReq = (e.thr c t).stepReq

/-- Core c's cache is `l` in `u`; memory and every register but lstat are as they are in `e`. -/
def State.Holds (u e : State) (c : Nat) (l : List CEntry) : Prop := (u.core c).cache = l ∧ u.mem = e.mem ∧ u.RegsExcept e [.lstat]

/-- From `m` to `u` what the cache has sent, and what thread t waits for, have stood. -/
structure State.Stands (u m : State) (c t : Nat) : Prop where
  wbs : (u.core c).wbs = (m.core c).wbs
  side : (u.core c).side = (m.core c).side
  sent : u.sent = m.sent
  st : (u.thr c t).st = (m.thr c t).st
  wait : (u.thr c t).wait = (m.thr c t).wait

section
variable {u m e s : State} {c : CoreId} {t : ThreadId} {l : List CEntry} {i : Instr} {enc : List Nat} {body : State → Fx}

theorem State.CacheOnly.cached (only : m.CacheOnly e c) (cache : (m.core c).cache = l) : m.Cached e c t l :=
  ⟨cache, only.beside.mem, only.regs, by rw [only.threads]⟩

/-- A change of nothing but what the cache holds may come first. -/
theorem State.Cached.after {v : State} (h : m.Cached v c t l) (only : v.CacheOnly e c) : m.Cached e c t l :=
  ⟨h.cache, h.mem.trans only.beside.mem, h.regs.trans only.regs, h.step.trans (by rw [only.threads])⟩

theorem State.Cached.refl (cache : (e.core c).cache = l) : e.Cached e c t l := ⟨cache, rfl, rfl, rfl⟩

/-- A thread that begins to wait leaves the cache as it is. -/
theorem State.Cached.waitOn (h : m.Cached e c t l) (for_ : Wait) : (m.waitOn c t for_).Cached e c t l := by
  obtain ⟨cache, mem, regs, step⟩ := h
  exact ⟨by rw [State.waitOn, State.core_setThr_same, cache], mem, regs, by rw [State.waitOn, State.thr_setThr_same, step]⟩

theorem State.thr_waitOn (for_ : Wait) : (m.waitOn c t for_).thr c t = { m.thr c t with st := .waiting, wait := for_, waitStart := (m.core c).cyc } :=
  State.thr_setThr_same ..

/-- A word that leaves the cache `l` behind. -/
theorem completes_cached {g : BitVec 4} (runs : s.Runs c t g) (h : s.Settled c t) (legal : enc = [])
    (word : exec i s = .next (s.issue c t g enc false false body)) (done : body (s.reads c t) = .done m) (cached : m.Cached (s.reads c t) c t l) :
    Completes i s (fun u => u.Holds (s.reads c t) c l ∧ u.Stands m c t) := by
  refine completes_walking runs h legal word done cached.step (State.tf_congr cached.regs ..) fun u walks goes => ?_
  obtain ⟨⟨_, core⟩, regs⟩ := walks
  obtain ⟨⟨_, _, _, _, thread⟩, -, -, only⟩ := goes
  refine ⟨⟨by rw [core, cached.cache], only.memory.1.trans cached.mem, fun r other q i hq hi => ?_⟩, ?_⟩
  · rw [regs r other q i hq hi, State.reg, cached.regs, State.reg]
  · exact ⟨by rw [core], by rw [core], only.sent, by rw [thread], by rw [thread]⟩

end

/-! ### Write-backs -/

section
variable {e : State} {c : CoreId} {t : ThreadId} {x : CEntry} {f : CEntry → Bool}

/-- The write-back of a dirty entry. -/
theorem State.writeBack_dirty (dirty : x.dirty ≠ 0) (o : Option Nat) : ∃ l, (e.writeBack c x o).core c =
    { e.core c with wbs := (e.core c).wbs ++ [⟨x.line, x.world, x.dirty, x.data, o⟩], flying := l } ∧
    (e.writeBack c x o).mem = e.mem ∧ (e.writeBack c x o).regs = e.regs := by
  unfold State.writeBack
  rw [if_neg dirty]
  have flown := (e.setCore c { e.core c with wbs := (e.core c).wbs ++ [⟨x.line, x.world, x.dirty, x.data, o⟩] }).flown_depart (c := c) (.line x.line)
    (lineAddr x.line) 64 [0] [c, o.getD 8, 13, x.line * 64, 64, x.dirty.toNat, x.data.toNat, x.world]
  obtain ⟨l, core⟩ := flown.core
  exact ⟨l, by rw [core, State.core_setCore_same], flown.mem, flown.regs⟩

/-- A flush of the cache's only entry, which is dirty. -/
theorem State.flushEntries_one (cache : (e.core c).cache = [x]) (acked : (e.core c).wbs = []) (dirty : x.dirty ≠ 0) (hit : f x = true) (o : Option Nat) :
    ∃ l, (e.flushEntries c o f).core c = { e.core c with cache := [{ x with dirty := 0 }], wbs := [⟨x.line, x.world, x.dirty, x.data, o⟩], flying := l } ∧
    (e.flushEntries c o f).mem = e.mem ∧ (e.flushEntries c o f).regs = e.regs := by
  obtain ⟨l, core, mem, regs⟩ := State.writeBack_dirty (e := e) (c := c) dirty o
  have flushed : e.flushEntries c o f = (e.writeBack c x o).setCache c [{ x with dirty := 0 }] := by
    have chosen : [x].filter (fun y => f y && decide (y.dirty ≠ 0)) = [x] :=
      List.filter_cons_of_pos (Bool.and_eq_true_iff.2 ⟨hit, decide_eq_true dirty⟩)
    unfold State.flushEntries
    dsimp only
    rw [cache, chosen, List.foldl_cons, List.foldl_nil, core, cache, List.map_singleton, if_pos hit]
  rw [flushed]
  refine ⟨l, ?_, mem, regs⟩
  rw [State.setCache, State.core_setCore_same, core, acked, List.nil_append]

/-- A range flush of the cache's only entry, which is dirty, waits for its write-back. -/
theorem State.flushRange_waits (cache : (e.core c).cache = [x]) (acked : (e.core c).wbs = []) (dirty : x.dirty ≠ 0) {line : Nat} (named : x.line = line)
    (a : Word) (inv : Bool) : let m := e.flushRange c t line line a inv
    m.Cached e c t [{ x with dirty := 0 }] ∧ (m.core c).wbs = [⟨x.line, x.world, x.dirty, x.data, some t.val⟩] ∧ (m.thr c t).st = .waiting := by
  have hit : inLines line line x.line = true := by rw [named, inLines_self]
  obtain ⟨l, core, mem, regs⟩ := State.flushEntries_one (f := fun y => inLines line line y.line) cache acked dirty hit (some t.val)
  have waits : e.flushRange c t line line a inv =
      (e.flushEntries c (some t.val) fun y => inLines line line y.line).waitOn c t (.flush a line line inv) := by
    unfold State.flushRange
    simp only [core, List.any_cons, hit, Bool.true_or, if_true]
  have cached : (e.flushEntries c (some t.val) fun y => inLines line line y.line).Cached e c t [{ x with dirty := 0 }] :=
    ⟨by rw [core], mem, regs, by rw [State.thr, core, State.thr]⟩
  rw [waits]
  exact ⟨cached.waitOn _, by rw [State.waitOn, State.core_setThr_same, core], by rw [State.thr_waitOn]⟩

end

/-! ### Invalidation and locks -/

section
variable {e : State} {c : CoreId} {t : ThreadId} {x : CEntry}

/-- An invalidation drops the cache's only entry, where it is clean, unlocked and not filling. -/
theorem State.invalidate_drops (cache : (e.core c).cache = [x]) (clean : x.dirty = 0) (unlocked : x.lock = false) {f : CEntry → Bool} (hit : f x = true)
    (g : SideEntry → Bool) : (e.invalidate c f g).Cached e c t [] := by
  refine (e.cacheOnly_invalidate c f g).cached ?_
  rw [State.invalidate, State.core_setCore_same]
  simp [cache, hit, clean, unlocked]

theorem State.setCache_cached (e : State) (l : List CEntry) : (e.setCache c l).Cached e c t l :=
  State.CacheOnly.cached (State.cacheOnly_setCore (k := { e.core c with cache := l }) rfl rfl) (by rw [State.setCache, State.core_setCore_same])

/-- A lock of the cache's only entry, where LOCKMAX allows one. -/
theorem State.lockEntries_one (cache : (e.core c).cache = [x]) (unlocked : x.lock = false) (room : 0 < e.fld ccfg_LOCKMAX c 0) {f : CEntry → Bool}
    (hit : f x = true) : e.lockEntries c f = e.setCache c [{ x with lock := true }] := by
  unfold State.lockEntries
  simp [cache, hit, unlocked, room]

/-- An unlock of a cache's only entry, which holds something. -/
theorem unlock_one {k : List CEntry} (cache : k = [x]) (valid : x.valid ≠ 0) {f : CEntry → Bool} (hit : f x = true) :
    (k.map fun y => if f y then { y with lock := false } else y).filter (fun y => y.valid ≠ 0 || y.left ≠ 0 || y.lock) = [{ x with lock := false }] := by
  rw [cache, List.map_singleton, if_pos hit]
  exact List.filter_cons_of_pos (by rw [decide_eq_true valid]; rfl)

end

/-! ### Fetches of a line -/

section
variable {e : State} {c : CoreId} {t : ThreadId} {x : CEntry} {p : Place} {line : Nat}

/-- The cache discards nothing for an access of a world that sees all it holds of the line. -/
theorem State.purgeKeeper_idle (side : (e.core c).side = []) (seen : ∀ x, e.entry c line = some x → x.world = 0) (world : Nat) :
    (e.purgeKeeper c world line).CacheOnly e c ∧ (e.purgeKeeper c world line).core c = e.core c := by
  unfold State.purgeKeeper
  split
  · exact ⟨⟨fun _ => rfl, rfl, .refl e c, rfl, rfl, fun _ => rfl⟩, rfl⟩
  · have same : (e.core c).side.filter (fun x => !(x.line = line && x.world = 1)) = (e.core c).side := by rw [side, List.filter_nil]
    have kept : (e.setCore c { e.core c with side := (e.core c).side.filter (fun x => !(x.line = line && x.world = 1)) }).CacheOnly e c ∧
        (e.setCore c { e.core c with side := (e.core c).side.filter (fun x => !(x.line = line && x.world = 1)) }).core c = e.core c := by
      rw [same]
      exact ⟨State.cacheOnly_setCore rfl rfl, State.core_setCore_same ..⟩
    cases found : e.entry c line with
    | none => exact kept
    | some x =>
      have tenant : ¬ x.world = 1 := by rw [seen x found]; decide
      dsimp only
      rw [if_neg tenant]
      exact kept

/-- Where the side buffer is empty and no entry of the line is hidden, a fetch of the line begins in the core as it is. -/
theorem State.purgeKeeper_ready (side : (e.core c).side = []) (seen : ∀ x, e.entry c line = some x → x.world = 0) (world : Nat) :
    ∃ m : State, e.purgeKeeper c world line = m ∧ m.CacheOnly e c ∧ m.core c = e.core c ∧ m.fetchHolds c line (BitVec.allOnes 64) = false ∧
      m.sideMove c world line = m := by
  obtain ⟨only, core⟩ := State.purgeKeeper_idle side seen world
  have noFetch : (e.purgeKeeper c world line).sideEntry c line = none := by rw [State.sideEntry, core, side, List.find?_nil]
  refine ⟨_, rfl, only, core, ?_, ?_⟩
  · rw [State.fetchHolds, noFetch]
    rfl
  · rw [State.sideMove, noFetch]

/-- A range whose only line is there is loaded. -/
theorem State.preloadGo_end (cache : (e.core c).cache = [x]) (dropped : (e.core c).dropped = []) (landed : x.left = 0) (first next last : Nat) :
    e.preloadGo c t first next last 0 = .done e := by
  unfold State.preloadGo
  simp [cache, dropped, landed]

/-- A range whose only line is still being filled is waited for. -/
theorem State.preloadGo_waits (cache : (e.core c).cache = [x]) (fills : x.left ≠ 0) (named : x.line = line) (next : Nat) :
    e.preloadGo c t line next line 0 = .done (e.waitOn c t (.preload line next line)) := by
  have pending : (decide (x.left ≠ 0) && inLines line line x.line) = true := by rw [named, inLines_self, decide_eq_true fills]; rfl
  unfold State.preloadGo
  dsimp only
  rw [cache, List.cons_append, List.any_cons, pending, Bool.true_or, if_pos rfl]

/-- PRELOAD of a line that the cache holds whole fetches nothing. -/
theorem State.preloadGo_holds (cache : (e.core c).cache = [x]) (side : (e.core c).side = []) (dropped : (e.core c).dropped = []) (named : x.line = line)
    (whole : x.valid = BitVec.allOnes 64) (landed : x.left = 0) (tenant : x.world = 0) (ok : e.check c t (lineAddr line) 64 true false false = .ok p) :
    ∃ m : State, e.preloadGo c t line line line 1 = .done m ∧ m.Cached e c t [x] := by
  have found (m : State) (same : m.core c = e.core c) : m.entry c line = some x := by
    rw [State.entry, same, cache]
    exact List.find?_cons_of_pos (by simp [named])
  have seen (y : CEntry) (there : e.entry c line = some y) : y.world = 0 := by
    rw [found e rfl] at there
    rw [← Option.some.inj there, tenant]
  obtain ⟨m, purge, only, core, holds, moves⟩ := State.purgeKeeper_ready side seen (e.world c t)
  unfold State.preloadGo
  rw [ok]
  dsimp only
  by_cases own : p.isOwnBank c (lineAddr line) = true
  · rw [if_pos own]
    exact ⟨e, State.preloadGo_end cache dropped landed .., .refl cache⟩
  · rw [if_neg own, purge, holds, if_neg Bool.false_ne_true, moves, found m core]
    dsimp only
    rw [if_pos (by simp [whole])]
    exact ⟨m, State.preloadGo_end (core ▸ cache) (core ▸ dropped) landed .., only.cached (core ▸ cache)⟩

/-- The request of a line's fetch: the word that holds byte address `a` comes first (R257). -/
def State.fetchRequest (e : State) (c t : Nat) (a : Word) : List Nat := [c, t, 8, a.toNat / 8 * 8, 64, (e.core c).nextFill]

theorem State.cache_putEntry (m : State) (x : CEntry) :
    ((m.putEntry c x).core c).cache = x :: (m.core c).cache.filter (fun y => y.line ≠ x.line) := by
  rw [State.putEntry, State.setCache, State.core_setCore_same]

/-- A fill into a cache that holds nothing, whose request no access in flight overlaps. -/
theorem State.startFill_fresh (cache : (e.core c).cache = []) (clear : e.inFlight c (lineAddr line) 64 = false) (world : Nat) (a : Word) :
    let m := (e.startFill c t { line := line, world := world } a).2
    m.Cached e c t [{ line := line, world := world, left := BitVec.allOnes 64, fid := (e.core c).nextFill }] ∧
    m.sent = e.sent ++ [⟨.request, e.fetchRequest c t a⟩] := by
  have counted : (e.setCore c { e.core c with nextFill := (e.core c).nextFill + 1 }).CacheOnly e c := State.cacheOnly_setCore rfl rfl
  have put (m : State) (x : CEntry) : (m.putEntry c x).CacheOnly m c := State.cacheOnly_setCore rfl rfl
  have only := (put (e.setCore c { e.core c with nextFill := (e.core c).nextFill + 1 })
    { line := line, world := world, left := ~~~0, fid := (e.core c).nextFill }).trans counted
  have left := State.depart_clear (key := .fill (e.core c).nextFill) (parts := List.range 8) (msg := e.fetchRequest c t a)
    fun x range y m => State.meets_of_inFlight clear (only.accessRange .. ▸ range) (only.flying ▸ m)
  obtain ⟨flown, sent⟩ := left
  obtain ⟨l, core⟩ := flown.core
  refine ⟨⟨?_, flown.mem.trans only.beside.mem, flown.regs.trans only.regs, ?_⟩, sent.trans (congrArg (· ++ _) only.sent)⟩
  · refine (congrArg Core.cache core).trans ?_
    dsimp only
    rw [State.cache_putEntry, State.core_setCore_same, cache, List.filter_nil]
    rfl
  · exact congrArg Thread.stepReq ((flown.thr t).trans (only.threads t))

/-- PRELOAD of a line that the cache does not hold fetches it and waits for it. -/
theorem State.preloadGo_fetches (cache : (e.core c).cache = []) (side : (e.core c).side = []) (dropped : (e.core c).dropped = [])
    (clear : e.inFlight c (lineAddr line) 64 = false) (ok : e.check c t (lineAddr line) 64 true false false = .ok p)
    (away : p.isOwnBank c (lineAddr line) = false) : ∃ m : State, e.preloadGo c t line line line 1 = .done (m.waitOn c t (.preload line (line + 1) line)) ∧
      m.Cached e c t [{ line := line, world := e.world c t, left := BitVec.allOnes 64, fid := (e.core c).nextFill }] ∧
      m.sent = e.sent ++ [⟨.request, e.fetchRequest c t (lineAddr line)⟩] := by
  have absent (m : State) (same : m.core c = e.core c) : m.entry c line = none := by rw [State.entry, same, cache, List.find?_nil]
  obtain ⟨m, purge, only, core, holds, moves⟩ :=
    State.purgeKeeper_ready (line := line) side (fun y there => by rw [absent e rfl] at there; cases there) (e.world c t)
  have room : ¬ 16 ≤ (m.core c).fills := by
    rw [core, Core.fills, cache, dropped]
    decide
  have fresh : m.allocate c line (e.world c t) = some ({ line := line, world := e.world c t }, m) := by
    rw [State.allocate, absent m core]
    dsimp only
    rw [core, cache, if_pos (by decide)]
  have unmet : m.inFlight c (lineAddr line) 64 = false := by
    unfold State.inFlight
    rw [only.accessRange, only.flying]
    exact clear
  obtain ⟨filled, sent⟩ := State.startFill_fresh (t := t) (core ▸ cache) unmet (e.world c t) (lineAddr line)
  rw [core] at filled
  unfold State.preloadGo
  rw [ok]
  dsimp only
  rw [away, if_neg Bool.false_ne_true, purge, holds, if_neg Bool.false_ne_true, moves, absent m core]
  dsimp only
  rw [if_neg room, fresh]
  have fills : BitVec.allOnes 64 ≠ 0#64 := by decide
  refine ⟨_, State.preloadGo_waits filled.cache fills rfl (line + 1), filled.after only, ?_⟩
  rw [sent, only.sent, State.fetchRequest, core, State.fetchRequest]

/-- Core c whose side buffer holds only the line that thread t has begun to fetch. -/
def State.prefetching (e : State) (c t line : Nat) : Core :=
  { e.core c with
    side := [{ line := line, world := e.world c t, left := BitVec.allOnes 64, fid := (e.core c).nextFill }]
    nextFill := (e.core c).nextFill + 1 }

/-- PREF of a line of HBM that the core does not hold fetches it into the side buffer. -/
theorem State.pref_fetches {a : Word} {q off : Nat} (cache : (e.core c).cache = []) (side : (e.core c).side = []) (prefetch : e.fld ccfg_PFEN c 0 = 1)
    (on : e.fld ccfg_EN c 0 = 1) (clear : e.inFlight c (lineAddr (e.lineOf a)) 64 = false) (goes : e.translate (e.who c t) a false = .to (.hbm q off)) :
    (e.pref c t a).Cached e c t [] ∧ ((e.pref c t a).core c).side =
      [{ line := e.lineOf a, world := e.world c t, left := BitVec.allOnes 64, fid := (e.core c).nextFill }] ∧
    (e.pref c t a).sent = e.sent ++ [⟨.request, e.fetchRequest c t a⟩] ∧ (e.pref c t a).thr c t = e.thr c t := by
  have departs : e.pref c t a = (e.setCore c (e.prefetching c t (e.lineOf a))).depart c (.fill (e.core c).nextFill) (lineAddr (e.lineOf a)) 64
      (List.range 8) (e.fetchRequest c t a) := by
    unfold State.pref
    simp [prefetch, on, cache, side, goes, State.prefetching, State.fetchRequest]
  have only : (e.setCore c (e.prefetching c t (e.lineOf a))).CacheOnly e c := State.cacheOnly_setCore rfl rfl
  obtain ⟨flown, sent⟩ := State.depart_clear (key := .fill (e.core c).nextFill) (parts := List.range 8) (msg := e.fetchRequest c t a)
    fun x range y m => State.meets_of_inFlight clear (only.accessRange .. ▸ range) (only.flying ▸ m)
  obtain ⟨l, core⟩ := flown.core
  rw [State.core_setCore_same] at core
  have thread := (flown.thr t).trans (only.threads t)
  rw [departs]
  refine ⟨⟨?_, flown.mem.trans only.beside.mem, flown.regs.trans only.regs, by rw [thread]⟩, ?_, sent.trans (congrArg (· ++ _) only.sent), thread⟩
  · exact (congrArg Core.cache core).trans cache
  · exact congrArg Core.side core

/-- PREF of a line that the cache holds fetches nothing. -/
theorem State.pref_holds {a : Word} (cache : (e.core c).cache = [x]) (named : x.line = e.lineOf a) : e.pref c t a = e := by
  unfold State.pref
  simp [cache, named]

end

/-! ### The words -/

section
variable {s : State} {c : CoreId} {t : ThreadId} {w : LR} (runs : s.Runs c t w.g) (h : s.Settled c t)
include runs

/-- A range of length zero names no line (R221). -/
theorem rangeWords_goOn (empty : ((s.reads c t).x c t w.c).toNat = 0) :
    Does (.cflush c t w) s c t id ∧ Does (.cinv c t w) s c t id ∧ Does (.cflinv c t w) s c t id ∧
    Does (.preload c t w) s c t id ∧ Does (.clock c t w) s c t id ∧ Does (.cunlock c t w) s c t id := by
  have none_named := State.rangeLines_zero empty
  refine ⟨?_, ?_, ?_, ?_, ?_, ?_⟩ <;> exact does_of_done runs rfl rfl (by rw [none_named]; rfl)

include h in
/-- PRELOAD of one line, where the cache is on. -/
theorem completes_preload {m : State} {l : List CEntry} (one : ((s.reads c t).x c t w.c).toNat = 1) (on : (s.reads c t).fld ccfg_EN c 0 = 1)
    (done : (s.reads c t).preloadGo c t ((s.reads c t).lineOf ((s.reads c t).x c t w.b)) ((s.reads c t).lineOf ((s.reads c t).x c t w.b))
      ((s.reads c t).lineOf ((s.reads c t).x c t w.b)) 1 = .done m) (cached : m.Cached (s.reads c t) c t l) :
    Completes (.preload c t w) s (fun u => u.Holds (s.reads c t) c l ∧ u.Stands m c t) := by
  refine completes_cached (i := .preload c t w) runs h rfl rfl ?_ cached
  rw [State.rangeLines_one one]
  dsimp only
  rw [if_neg (by rw [on]; decide), Nat.add_sub_cancel_left, done]

end

/-- Settles O21. A range of one byte names one line, and each word is its operation on that line of a cache that holds it, or nothing. -/
theorem cacheWordsComplete : Obligations.CacheWordsComplete := by
  intro c t w s x p q off runs h e line k now
  refine ⟨rangeWords_goOn runs, fun one cache named side acked dropped => ?held, fun one cache side dropped on clear ok away => ?fetched,
    fun zero cache side prefetch on clear goes => ?prefetched, fun a b zero cache clean landed unlocked side dropped => ?all,
    fun zero cache named => ?there⟩
  case held =>
    have range := State.rangeLines_one one
    have hit : inLines line line x.line = true := by rw [named, inLines_self]
    refine ⟨fun clean landed unlocked => ?cinv, fun dirty => ?cflush, fun dirty => ?cflinv, fun on unlocked room => ?clock, fun valid => ?cunlock,
      fun off => ?unused, fun on whole landed tenant ok => ?present⟩
    case cinv =>
      exact (completes_cached (i := .cinv c t w) runs h rfl rfl (congrArg Fx.done (by rw [range]; rfl))
        (State.invalidate_drops cache clean unlocked hit fun y => inLines line line y.line)).imp fun u ends => ends.1
    case cflush =>
      obtain ⟨cached, wbs, waits⟩ := State.flushRange_waits (t := t) cache acked dirty named (e.x c t w.b) false
      exact (completes_cached (i := .cflush c t w) runs h rfl rfl (by rw [range]) cached).imp fun u ⟨holds, stands⟩ =>
        ⟨holds, stands.st.trans waits, stands.wbs.trans wbs⟩
    case cflinv =>
      obtain ⟨cached, wbs, waits⟩ := State.flushRange_waits (t := t) cache acked dirty named (e.x c t w.b) true
      exact (completes_cached (i := .cflinv c t w) runs h rfl rfl (by rw [range]) cached).imp fun u ⟨holds, stands⟩ =>
        ⟨stands.st.trans waits, stands.wbs.trans wbs⟩
    case clock =>
      have locks := State.lockEntries_one (f := fun y => inLines line line y.line) cache unlocked room hit
      exact (completes_cached (i := .clock c t w) runs h rfl rfl (by rw [range]; dsimp only; rw [if_neg (by rw [on]; decide), locks])
        (State.setCache_cached e _)).imp fun u ends => ends.1
    case cunlock =>
      have unlocks := unlock_one (f := fun y => inLines line line y.line) cache valid hit
      exact (completes_cached (i := .cunlock c t w) runs h rfl rfl (congrArg Fx.done (by rw [range]; exact congrArg (State.setCache e c) unlocks))
        (State.setCache_cached e _)).imp fun u ends => ends.1
    case unused =>
      exact (completes_cached (i := .preload c t w) runs h rfl rfl (by rw [range]; dsimp only; rw [if_pos off]) (.refl cache)).imp fun u ends => ends.1
    case present =>
      obtain ⟨m, done, cached⟩ := State.preloadGo_holds cache side dropped named whole landed tenant ok
      exact (completes_preload runs h one on done cached).imp fun u ends => ends.1
  case fetched =>
    obtain ⟨m, done, cached, sent⟩ := State.preloadGo_fetches cache side dropped clear ok away
    exact (completes_preload runs h one on done (cached.waitOn _)).imp fun u ⟨holds, stands⟩ =>
      ⟨holds, stands.sent.trans sent, stands.st.trans (by rw [State.thr_waitOn]), stands.wait.trans (by rw [State.thr_waitOn])⟩
  case prefetched =>
    obtain ⟨cached, side, sent, thread⟩ := State.pref_fetches cache side prefetch on clear goes
    exact (completes_cached (i := .pref c t w) runs h (encZ_legal (by simp [zero])) rfl rfl cached).imp fun u ⟨holds, stands⟩ =>
      ⟨holds, stands.side.trans side, stands.sent.trans sent, stands.st.trans (by rw [thread]; exact State.reads_ready runs.turn)⟩
  case all =>
    exact (completes_cached (i := .cinvAll c t w) runs h (encZ_legal (by simp [a, b, zero])) rfl rfl
      (State.invalidate_drops cache clean unlocked (by simp [unlocked]) _)).imp fun u ends => ends.1
  case there => exact does_of_done runs (encZ_legal (by simp [zero])) rfl (congrArg Fx.done (State.pref_holds cache named))

end Sys2Proof.Machine
end

section
/-!
SUPPORT and O30. A request at a core's network port: what a bank answers where its checks allow the access and its code word is without error.
-/
namespace Sys2Proof.Machine
-- One thread elaborates these theorems: many at once hold many stacks.
set_option Elab.async false

/-! ### What a bank's write leaves -/

section
variable {s u : State} {c : CoreId} {off : Nat}

@[simp] theorem State.pat_setPat_same (s : State) (a p : Nat) : (s.setPat a p).pat a = p := Sparse.get_set_same ..

/-- Each byte of a masked write is the value's where its mask bit is 1. -/
theorem State.byte_writeMask (s : State) (a n mask v : Nat) {i : Nat} (low : i < n) :
    (s.writeMask a n mask v).byte (a + i) = if mask / 2 ^ i % 2 = 1 then BitVec.ofNat 8 (v / 2 ^ (8 * i)) else s.byte (a + i) := by
  induction n generalizing s a mask v i with
  | zero => exact absurd low (Nat.not_lt_zero i)
  | succ n ih =>
    rw [State.writeMask]
    cases i with
    | zero =>
      rw [State.writeMask_other _ _ _ _ _ _ (Or.inl (by omega))]
      by_cases on : mask % 2 = 1 <;> simp [on]
    | succ i =>
      have other : (if mask % 2 = 1 then s.setByte a (BitVec.ofNat 8 v) else s).byte (a + 1 + i) = s.byte (a + 1 + i) := by
        split
        · exact State.byte_setByte_other s _ (by omega)
        · rfl
      have bits : 256 * 2 ^ (8 * i) = 2 ^ (8 * (i + 1)) := by rw [mul_add, pow_add, mul_comm, mul_one]; norm_num
      rw [show a + (i + 1) = a + 1 + i by omega, ih _ _ _ _ (by omega), other, Nat.div_div_eq_div_mul, Nat.div_div_eq_div_mul,
        show 2 * 2 ^ i = 2 ^ (i + 1) by rw [pow_succ, mul_comm], bits]

theorem State.writeMask_sent (s : State) (a n mask v : Nat) : (s.writeMask a n mask v).sent = s.sent := by
  induction n generalizing s a mask v with
  | zero => rfl
  | succ n ih =>
    rw [State.writeMask, ih]
    split <;> rfl

theorem State.bankPut_sent (s : State) (c off n mask v : Nat) : (s.bankPut c off n mask v).sent = s.sent := by
  have wrote (l : List Nat) (e : State) : (l.foldl (fun s o => s.wroteWord c o) e).sent = e.sent := by
    induction l generalizing e with
    | nil => rfl
    | cons o l ih => exact ih (e.wroteWord c o)
  exact (wrote ..).trans (State.writeMask_sent ..)

/-- A write of bank bytes changes memory as its mask says, no tag, and sends nothing. -/
theorem State.bankPut_leaves (s : State) (c : CoreId) (off n mask v : Nat) :
    (s.bankPut c off n mask v).mem = (s.writeMask (bankAddr c off) n mask v).mem ∧ (s.bankPut c off n mask v).tags = s.tags ∧
      (s.bankPut c off n mask v).sent = s.sent :=
  ⟨(State.wroteWords_leave ..).1, s.bankPut_tags .., s.bankPut_sent ..⟩

/-- A write of bank bytes leaves the core's watches armed. -/
theorem State.bankPut_watches (s : State) (c off n mask v : Nat) : ((s.bankPut c off n mask v).core c).watches = (s.core c).watches := by
  have one (e : State) (o : Nat) : ((e.wroteWord c o).core c).watches = (e.core c).watches := by
    unfold State.wroteWord
    dsimp only
    rw [State.core_setCore_same]
    rfl
  have wrote (l : List Nat) (e : State) : ((l.foldl (fun s o => s.wroteWord c o) e).core c).watches = (e.core c).watches := by
    induction l generalizing e with
    | nil => rfl
    | cons o l ih => exact (ih (e.wroteWord c o)).trans (one e o)
  rw [State.bankPut, wrote, State.core, State.cores_writeMask, State.core]

/-- Where no watch is armed, none fires. -/
theorem State.tagged_quiet (quiet : (s.core c).watches = []) (n : Nat) (full : Bool) : (s.tagged c off n full).mem = s.mem ∧
    (s.tagged c off n full).sent = s.sent ∧ (s.tagged c off n full).tag (bankAddr c off) = n := by
  have none : (((s.wroteWord c off).setTag (bankAddr c off) n).core c).watches = [] := by
    change ((s.setPat (bankAddr c off) 0).setCore c _ |>.core c).watches = []
    rw [State.core_setCore_same]
    exact quiet
  unfold State.tagged State.fireWatches
  dsimp only
  rw [none]
  exact ⟨rfl, rfl, State.tag_setTag_same ..⟩

-- The function whose result is known is named by a variable below, so that no match on it is reduced before its result is put in, and a bank's address
-- is never evaluated.

theorem State.memRead_bank {m off n v : Nat} (read : s.bankRead m off n = (some v, u)) : s.memRead (.bank m off) n = (0, v, u) := by
  obtain ⟨bankRead, same⟩ : ∃ f, f = State.bankRead := ⟨_, rfl⟩
  rw [show State.memRead = _ by delta State.memRead; rfl]
  rw [← same] at read ⊢
  simp only [read]

theorem State.memWrite_bank {m off n mask v : Nat} (wrote : s.bankWrite m off n mask v = (true, u)) : s.memWrite (.bank m off) n mask v = (0, u) := by
  obtain ⟨bankWrite, same⟩ : ∃ f, f = State.bankWrite := ⟨_, rfl⟩
  rw [show State.memWrite = _ by delta State.memWrite; rfl]
  rw [← same] at wrote ⊢
  simp only [wrote]

theorem State.memAtomic_bank {m off v op : Nat} {a b : Word} (read : s.memRead (.bank m off) 8 = (0, v, u)) :
    s.memAtomic (.bank m off) op a b = (0, v, u.bankPut m off 8 0xFF (atomicNew op (BitVec.ofNat 64 v) a b).toNat) := by
  obtain ⟨memRead, same⟩ : ∃ f, f = State.memRead := ⟨_, rfl⟩
  rw [show State.memAtomic = _ by delta State.memAtomic; rfl]
  rw [← same] at read ⊢
  simp only [read]

end

/-! ### A request in a word without error -/

section
variable {s : State} {ag : Agent} {c : CoreId} {off : BitVec 22}

/-- An agent may access the aligned word at offset `off` of core c's own scratch bank, whose code word is without error. -/
structure State.BankOpen (s : State) (w : Who) (c : CoreId) (off : Nat) : Prop where
  aligned : off % 8 = 0
  inside : off + 8 ≤ 0x40000
  allowed : s.coreRefuses c off 8 w = none
  clean : s.pat (bankAddr c off) = 0
  free : s.spillRefuses c off 8 w = false

/-- The bytes of an aligned word lie in one code word. -/
theorem State.word_clean {o : Nat} (aligned : o % 8 = 0) (clean : s.pat (bankAddr c o) = 0) : ∀ i < 8, s.pat (bankAddr c o + i) = 0 := by
  intro i low
  have same : (bankAddr c o + i) / 32 = bankAddr c o / 32 := by unfold bankAddr; omega
  rw [State.pat, same]
  exact clean

theorem State.BankOpen.reach {w : Who} {o : Nat} (h : s.BankOpen w c o) (write : Bool) : s.bankReach w c o 8 write = .to (.bank c o) := by
  obtain ⟨-, inside, allowed, -, free⟩ := h
  have first : bankOff o = true := by simp [bankOff]; omega
  have last : bankOff (o + 7) = true := by simp [bankOff]; omega
  have one : o / 0x100000 = (o + 7) / 0x100000 := by omega
  simp [State.bankReach, allowed, free, first, last, one]

variable (h : s.BankOpen (whoOf ag) c off.toNat)
include h

theorem bankRead_answers (tag : Nat) : exec (.bankReadRequest ag c off 8 tag) s =
    .next (s.reply tag 0 (s.readLE (bankAddr c off.toNat) 8)) := by
  have got := State.memRead_bank (State.bankRead_clean (n := 8) (by decide) (State.word_clean h.aligned h.clean))
  change execBankReadRequest ag c off 8 tag s = _
  unfold execBankReadRequest
  simp only [h.reach false, show ((8 : Fin 241) : Nat) = 8 from rfl, got]

theorem bankWrite_answers (mask : BitVec 240) (data : BitVec 1920) (tag : Nat) : exec (.bankWriteRequest ag c off 8 mask data tag) s =
    .next ((s.bankPut c off.toNat 8 mask.toNat data.toNat).reply tag 0 0) := by
  have done := State.memWrite_bank (State.bankWrite_clean (n := 8) (by decide) (State.word_clean h.aligned h.clean) mask.toNat data.toNat)
  change execBankWriteRequest ag c off 8 mask data tag s = _
  unfold execBankWriteRequest
  simp only [h.reach true, show ((8 : Fin 241) : Nat) = 8 from rfl, done]

/-- An atomic leaves its new value in the word and answers the old one. -/
theorem bankAtomic_answers {op : Fin 5} {v b new : Word} (tag : Nat)
    (value : atomicNew op (BitVec.ofNat 64 (s.readLE (bankAddr c off.toNat) 8)) v b = new) :
    Completes (.bankAtomicRequest ag c off op v b tag) s (fun u => u.readLE (bankAddr c off.toNat) 8 = new.toNat ∧
      (∀ x, x < bankAddr c off.toNat ∨ bankAddr c off.toNat + 8 ≤ x → u.byte x = s.byte x) ∧ u.tags = s.tags ∧
      u.sent = s.sent ++ [⟨.reply, [tag, 0, s.readLE (bankAddr c off.toNat) 8]⟩]) := by
  have done := State.memAtomic_bank (op := op) (a := v) (b := b)
    (State.memRead_bank (State.bankRead_clean (n := 8) (by decide) (State.word_clean h.aligned h.clean)))
  rw [value] at done
  obtain ⟨-, tags, sent⟩ := s.bankPut_leaves c off.toNat 8 0xFF new.toNat
  have stored : (s.bankPut c off.toNat 8 0xFF new.toNat).mem = (s.writeLE (bankAddr c off.toNat) 8 new.toNat).mem :=
    (s.bankPut_full c off.toNat 8 new.toNat).1
  generalize s.bankPut c off.toNat 8 0xFF new.toNat = m at done tags sent stored
  refine ⟨m.reply tag 0 (s.readLE (bankAddr c off.toNat) 8), ?_, ?_, fun x out => ?_, tags, congrArg (· ++ _) sent⟩
  · change execBankAtomicRequest ag c off op v b tag s = _
    unfold execBankAtomicRequest
    rw [if_neg (not_not.2 h.aligned)]
    simp only [h.reach true, done]
  · have same : (m.reply tag 0 (s.readLE (bankAddr c off.toNat) 8)).mem = (s.writeLE (bankAddr c off.toNat) 8 new.toNat).mem := stored
    rw [State.readLE_congr same, State.readLE_writeLE, Nat.mod_eq_of_lt new.isLt]
  · change m.byte x = s.byte x
    rw [State.byte, stored]
    exact State.writeLE_other s _ _ _ x out

/-- A full/empty request ends as its bank's operation does. -/
theorem bankFe_answers {op : Fin 6} {v waiter : Word} (tag : Nat) {r : FeReply} {u : State} {who : Watch}
    (watch : who = { word := 0, onFull := true, waiter := waiter, plot := (whoOf ag).plot, epoch := (whoOf ag).epoch, waitf := op = 5 })
    (performed : s.feBank c off.toNat op v false 0 (whoOf ag).core who = (r, u)) :
    exec (.bankFeRequest ag c off op v false 0 waiter tag) s = .next (u.send .reply [tag, r.status, r.val, r.tag]) := by
  change execBankFeRequest ag c off op v false 0 waiter tag s = _
  unfold execBankFeRequest
  subst watch
  have done : s.memFe (.bank c off.toNat) op v false 0 (whoOf ag).core
      { word := 0, onFull := true, waiter := waiter, plot := (whoOf ag).plot, epoch := (whoOf ag).epoch, waitf := op = 5 } = (r, u) := performed
  simp only [h.aligned, ne_eq, not_true, if_false, h.reach, show ((0 : Fin 4) : Nat) = 0 from rfl, done]

/-- LDFE of an empty word arms a watch in an empty table. -/
theorem State.feBank_arms {v : Word} {src : Option Nat} {who : Watch} (empty : ¬ 4 ≤ s.tag (bankAddr c off.toNat)) (quiet : (s.core c).watches = []) :
    s.feBank c off.toNat 0 v false 0 src who = (⟨0x0440, 0, 0⟩,
      s.setCore c { s.core c with watches := [{ who with word := off.toNat / 8, onFull := true }] }) := by
  simp only [State.feBank, State.uncorrectable_clean h.clean, State.readWord_clean h.clean, empty, Bool.false_eq_true, if_false, State.armWatch, quiet,
    List.length_nil, List.nil_append, show ¬ 32 ≤ 0 by decide]

end

/-! ### The statement -/

section
variable {s : State} {c : CoreId}

theorem watchDisarm_completes (off : BitVec 22) (waiter : Word) : Completes (.watchDisarm c off waiter) s (fun u => u.SameMemory s ∧
    ∀ x, x ∈ (u.core c).watches ↔ x ∈ (s.core c).watches ∧ ¬(x.word = off.toNat / 8 ∧ x.waiter = waiter)) := by
  refine ⟨_, rfl, .refl s, fun x => ?_⟩
  rw [State.core_setCore_same]
  simp [List.mem_filter, imp_iff_not_or]

theorem bankNetReserve_completes (cellar : Bool) : Completes (.bankNetReserve c cellar) s (fun u =>
    (u.core c).reserved = some (cellar, (s.core c).cyc + 1) ∧ u.SameMemory s) := by
  refine ⟨_, rfl, ?_, .refl s⟩
  rw [State.core_setCore_same]

theorem correctionWriteback_completes {cw : BitVec 37} (due : (s.core c).corrDue = [cw.toNat]) : Completes (.correctionWriteback c cw) s (fun u =>
    u.pat (cw.toNat * 32) = 0 ∧ (u.core c).corrDue = [] ∧ u.mem = s.mem) := by
  have held : (s.core c).corrDue.contains cw.toNat = true := by simp [due]
  have none : (s.core c).corrDue.filter (· ≠ cw.toNat) = [] := by simp [due]
  refine ⟨(s.setCore c { s.core c with corrDue := [] }).setPat (cw.toNat * 32) 0, ?_, State.pat_setPat_same .., ?_, rfl⟩
  · change execCorrectionWriteback c cw s = _
    unfold execCorrectionWriteback
    simp only [held, if_true, none]
  · exact congrArg Core.corrDue (s.core_setCore_same c _)

variable {ag : Agent} {off : BitVec 22} (h : s.BankOpen (whoOf ag) c off.toNat)
include h

theorem bankRead_completes (tag : Nat) : Completes (.bankReadRequest ag c off 8 tag) s (fun u => u.mem = s.mem ∧
    u.sent = s.sent ++ [⟨.reply, [tag, 0, s.readLE (bankAddr c off.toNat) 8]⟩]) := ⟨_, bankRead_answers h tag, rfl, rfl⟩

theorem bankWrite_completes (mask : BitVec 240) (data : BitVec 1920) (tag : Nat) : Completes (.bankWriteRequest ag c off 8 mask data tag) s (fun u =>
    (∀ i < 8, u.byte (bankAddr c off.toNat + i) =
      if mask.toNat / 2 ^ i % 2 = 1 then BitVec.ofNat 8 (data.toNat / 2 ^ (8 * i)) else s.byte (bankAddr c off.toNat + i)) ∧
    (∀ x, x < bankAddr c off.toNat ∨ bankAddr c off.toNat + 8 ≤ x → u.byte x = s.byte x) ∧ u.sent = s.sent ++ [⟨.reply, [tag, 0, 0]⟩]) := by
  obtain ⟨mem, -, sent⟩ := s.bankPut_leaves c off.toNat 8 mask.toNat data.toNat
  have answer := bankWrite_answers h mask data tag
  generalize s.bankPut c off.toNat 8 mask.toNat data.toNat = m at answer mem sent
  refine ⟨_, answer, fun i low => ?_, fun x out => ?_, congrArg (· ++ _) sent⟩
  · change m.byte _ = _
    rw [State.byte, mem]
    exact State.byte_writeMask s _ _ _ _ low
  · change m.byte _ = _
    rw [State.byte, mem]
    exact State.writeMask_other s _ _ _ _ x out

theorem bankLdfe_completes (v waiter : Word) (tag : Nat) (quiet : (s.core c).watches = []) (full : 4 ≤ s.tag (bankAddr c off.toNat)) :
    Completes (.bankFeRequest ag c off 0 v false 0 waiter tag) s (fun u => u.mem = s.mem ∧ u.tag (bankAddr c off.toNat) = 0 ∧
      u.sent = s.sent ++ [⟨.reply, [tag, 0, s.readLE (bankAddr c off.toNat) 8, s.tag (bankAddr c off.toNat) % 4]⟩]) := by
  obtain ⟨mem, sent, empty⟩ := State.tagged_quiet (off := off.toNat) quiet 0 false
  exact ⟨_, bankFe_answers h tag rfl (State.feBank_ldfe h.clean full), mem, empty, congrArg (· ++ _) sent⟩

theorem bankStf_completes (v waiter : Word) (tag : Nat) (quiet : (s.core c).watches = []) :
    Completes (.bankFeRequest ag c off 3 v false 0 waiter tag) s (fun u => u.readLE (bankAddr c off.toNat) 8 = v.toNat ∧
      (∀ x, x < bankAddr c off.toNat ∨ bankAddr c off.toNat + 8 ≤ x → u.byte x = s.byte x) ∧ u.tag (bankAddr c off.toNat) = 4 ∧
      u.sent = s.sent ++ [⟨.reply, [tag, 0, 0, 0]⟩]) := by
  obtain ⟨-, -, sent⟩ := s.bankPut_leaves c off.toNat 8 0xFF v.toNat
  obtain ⟨-, tagged, -⟩ := State.tagged_quiet (off := off.toNat) ((s.bankPut_watches c off.toNat 8 0xFF v.toNat).trans quiet) 4 true
  obtain ⟨⟨word, full, kept⟩, -⟩ := s.filled_left c off.toNat 4 v true
  have answer : exec (.bankFeRequest ag c off 3 v false 0 waiter tag) s = _ := bankFe_answers h tag rfl (State.feBank_stf h.clean)
  generalize (s.bankPut c off.toNat 8 0xFF v.toNat).tagged c off.toNat 4 true = m at answer word full kept tagged
  refine ⟨_, answer, ?_, fun x out => (kept x out).1, full, congrArg (· ++ _) (tagged.trans sent)⟩
  exact (State.readLE_congr (e := m) (by rfl) _ _).trans word

theorem bankLdfe_waits (v waiter : Word) (tag : Nat) (quiet : (s.core c).watches = []) (empty : s.tag (bankAddr c off.toNat) < 4) :
    Completes (.bankFeRequest ag c off 0 v false 0 waiter tag) s (fun u => u.SameMemory s ∧ u.sent = s.sent ++ [⟨.reply, [tag, 0x0440, 0, 0]⟩] ∧
      ∃ x, (u.core c).watches = [x] ∧ x.word = off.toNat / 8 ∧ x.waiter = waiter ∧ x.onFull = true) := by
  refine ⟨_, bankFe_answers h tag rfl (State.feBank_arms h (by omega) quiet), .refl s, rfl, ?_⟩
  exact ⟨_, congrArg Core.watches (s.core_setCore_same c _), rfl, rfl, rfl⟩

end

/-- Settles O30: each kind of request in an open word, and the three commands of the bank itself. -/
theorem bankRequestsComplete : Obligations.BankRequestsComplete := by
  intro ag c off mask data v b tag s waiter cellar cw o a w open_ old answered kept wrote fe
  refine ⟨fun ⟨aligned, inside, allowed, clean, free⟩ => ?_, watchDisarm_completes off waiter, bankNetReserve_completes cellar,
    correctionWriteback_completes⟩
  have h : s.BankOpen (whoOf ag) c off.toNat := ⟨aligned, inside, allowed, clean, free⟩
  exact ⟨bankRead_completes h tag, bankWrite_completes h mask data tag, bankAtomic_answers h tag rfl, bankAtomic_answers h tag rfl,
    bankAtomic_answers h tag rfl, fun quiet => ⟨bankLdfe_completes h v waiter tag quiet, bankStf_completes h v waiter tag quiet,
    bankLdfe_waits h v waiter tag quiet⟩⟩

end Sys2Proof.Machine
end

section
/-!
SUPPORT for O47. Steps of the one command that holds a slot: what a step answers, and the plain cases of the pool commands, the tests and the images.
-/
namespace Sys2Proof.Machine
-- One thread elaborates these theorems: many at once hold many stacks.
set_option Elab.async false

/-! ### The one command -/

section
variable {s m : State} {k y : Cmd} {o : Nat} {p : Cmd → Bool} {f : Cmd → State → Option (Cmd × State)}

theorem nbit_eq (n i : Nat) : nbit n i = n / 2 ^ i % 2 := by rw [nbit, Nat.shiftRight_eq_div_pow]

theorem nbits_eq (n hi lo : Nat) : nbits n hi lo = n / 2 ^ lo % 2 ^ (hi + 1 - lo) := by rw [nbits, Nat.shiftRight_eq_div_pow]

theorem completes_of {i : Instr} {r : Res} {u : State} {P : State → Prop} (run : exec i s = r) (ends : r = .next u) (holds : P u) : Completes i s P :=
  ⟨u, run.trans ends, holds⟩

/-- The only command is found by its queue and its identifier. -/
theorem State.cmdAt_only (only : s.cp.cmds = [k]) (cid : k.cid < 2 ^ 16) (queue : k.q < 16384) (holds : p k = true) :
    s.cmdAt (k.q % 16384) (BitVec.ofNat 16 k.cid).toNat p = some k := by
  have same : (BitVec.ofNat 16 k.cid).toNat = k.cid := by rw [BitVec.toNat_ofNat, Nat.mod_eq_of_lt cid]
  simp [State.cmdAt, only, same, Nat.mod_eq_of_lt queue, holds]

/-- The only command, replaced. -/
theorem State.cmds_setCmd (only : m.cp.cmds = [k]) (same : y.seq = k.seq) : (m.setCmd y).cp.cmds = [y] := by
  simp [State.setCmd, only, same]

/-- A command in its step, without a failure so far. -/
structure State.InStep (s : State) (k : Cmd) (o : Nat) : Prop where
  cid : k.cid < 2 ^ 16
  queue : k.q < 16384
  only : s.cp.cmds = [k]
  phase : k.phase = .granted
  opc : k.opc = o

variable (h : s.InStep k o)
include h

/-- A step that does its work leaves its command so. -/
theorem State.InStep.cmdStep (does : f k s = some (y, m)) : s.cmdStep ⟨k.q % 16384, Nat.mod_lt _ (by decide)⟩ (BitVec.ofNat 16 k.cid) o f =
    .next (m.setCmd (if y.phase = .granted then { y with phase := .worked } else y)) := by
  obtain ⟨cid, queue, only, phase, opc⟩ := h
  have found := State.cmdAt_only (p := fun k => k.phase = .granted && k.opc = o) only cid queue (by simp [phase, opc])
  simp only [State.cmdStep, found, does]

/-- The command of a step that has done its work. -/
theorem State.InStep.worked (cmds : m.cp.cmds = s.cp.cmds) (same : y.seq = k.seq) (phase : y.phase = k.phase) :
    (m.setCmd (if y.phase = .granted then { y with phase := .worked } else y)).cp.cmds = [{ y with phase := .worked }] := by
  rw [if_pos (phase.trans h.phase)]
  exact State.cmds_setCmd (cmds.trans h.only) same

/-- The last step of a pool command leaves what its pool becomes. -/
theorem State.InStep.poolStep {g : Cmd → State → Cmd × State} (last : k.done + 1 = k.total ∧ k.aborted = false) (does : g k s = (y, m))
    (phase : y.phase = k.phase) : s.poolStep ⟨k.q % 16384, Nat.mod_lt _ (by decide)⟩ (BitVec.ofNat 16 k.cid) o g =
      .next (m.setCmd { y with phase := .worked }) := by
  obtain ⟨ends, going⟩ := last
  have step : (if k.done + 1 = k.total && !k.aborted then some (g k s) else some (k, s)) = some (y, m) := by
    simp [ends, going, does]
  have worked := h.cmdStep (f := fun k s => if k.done + 1 = k.total && !k.aborted then some (g k s) else some (k, s)) step
  rwa [if_pos (phase.trans h.phase)] at worked

end

/-! ### The steps -/

section
variable {s e g : State} {k : Cmd} {all : List PoolPage} {a sp m st : Nat}

theorem poolAlloc_takes (h : s.InStep k 0x20) (last : k.done + 1 = k.total ∧ k.aborted = false)
    (takes : s.poolTake k.plot (s.poolNamed k) ((s.poolPages k.plot).foldl (fun l x => insertPage x l) []) 0 0 = some (all, a, sp))
    (pool : s.setPool k.plot all = some e) : Completes (.poolAlloc ⟨k.q % 16384, Nat.mod_lt _ (by decide)⟩ (BitVec.ofNat 16 k.cid)) s (fun u =>
      u = e.setCmd { k with res0 := sp, res1 := a, phase := .worked }) := by
  refine completes_of (r := execPoolAlloc _ _ s) rfl (h.poolStep (y := { k with res0 := sp, res1 := a }) last ?_ rfl) rfl
  simp only [takes, pool]

theorem poolFree_takes (h : s.InStep k 0x21) (last : k.done + 1 = k.total ∧ k.aborted = false) {l pages : List PoolPage}
    (held : pages = (s.poolPages k.plot).foldl (fun l x => insertPage x l) []) (left : l = pages.filter (fun x => !(s.poolNamed k).contains x.page))
    (pool : s.setPool k.plot l = some e) : Completes (.poolFree ⟨k.q % 16384, Nat.mod_lt _ (by decide)⟩ (BitVec.ofNat 16 k.cid)) s (fun u =>
      u = e.setCmd { k with res0 := pages.length - l.length, phase := .worked }) := by
  refine completes_of (r := execPoolFree _ _ s) rfl (h.poolStep (y := { k with res0 := pages.length - l.length }) last ?_ rfl) rfl
  simp only [← held, ← left, pool]

theorem poolMove_takes (h : s.InStep k 0x22) (last : k.done + 1 = k.total ∧ k.aborted = false)
    (moves : s.poolMove k.plot (k.word 4 % 2 = 1) (s.poolNamed k) ((s.poolPages k.plot).foldl (fun l x => insertPage x l) []) 0 0 = (all, m, st, g))
    (pool : g.setPool k.plot all = some e) : Completes (.poolMove ⟨k.q % 16384, Nat.mod_lt _ (by decide)⟩ (BitVec.ofNat 16 k.cid)) s (fun u =>
      u = e.setCmd { k with res0 := m, res1 := st, phase := .worked }) := by
  have side : nbit (k.word 4) 0 = k.word 4 % 2 := by rw [nbit_eq, pow_zero, Nat.div_one]
  refine completes_of (r := execPoolMove _ _ s) rfl (h.poolStep (y := { k with res0 := m, res1 := st }) last ?_ rfl) rfl
  simp only [side, moves, pool]

theorem State.markBlock_leaves (s : State) (p b v : Nat) : (s.markBlock p b v).SameMemory s ∧ (s.markBlock p b v).cp = s.cp ∧
    (s.markBlock p b v).kp = s.kp := by
  unfold State.markBlock
  generalize domIslands p 1 b = l
  induction l generalizing s with
  | nil => exact ⟨.refl s, rfl, rfl⟩
  | cons i l ih => exact ih (s.setFld ISLAND_STATUS_CORE_STATE p i v)

/-- The first test of a parcel without one starts, and moves no core where MIGRATE is off. -/
theorem selfTest_starts (h : s.InStep k 0x42) (free : s.kp.rep.tests = []) (still : s.fld TEST_CFG_MIGRATE 0 0 = 0) (one : k.word 2 / 2 ^ 16 % 2 = 0) :
    Completes (.selfTest ⟨k.q % 16384, Nat.mod_lt _ (by decide)⟩ (BitVec.ofNat 16 k.cid) .start) s (fun u => u.SameMemory s ∧
      u.cp.cmds = [{ k with phase := .worked }] ∧
      u.kp.rep.tests = [{ parcel := k.word 2 / 256 % 8, block := k.word 2 % 128, cmd := some k.seq }]) := by
  obtain ⟨⟨mem, tags, bad⟩, cp, kp⟩ := s.markBlock_leaves (k.word 2 / 256 % 8) (k.word 2 % 128) 3
  have parcel : nbits (k.word 2) 10 8 = k.word 2 / 256 % 8 := nbits_eq ..
  have block : nbits (k.word 2) 6 0 = k.word 2 % 128 := by rw [nbits_eq]; norm_num
  have chosen : ¬ nbit (k.word 2) 16 = 1 := by rw [nbit_eq, one]; decide
  have started : s.testStart (k.word 2 / 256 % 8) (k.word 2 % 128) (some k.seq) =
      (s.markBlock (k.word 2 / 256 % 8) (k.word 2 % 128) 3).setTest { parcel := k.word 2 / 256 % 8, block := k.word 2 % 128, cmd := some k.seq } true := by
    simp only [State.testStart, still, if_true]
  generalize s.markBlock (k.word 2 / 256 % 8) (k.word 2 % 128) 3 = m at mem tags bad cp kp started
  refine completes_of (r := execSelfTest _ _ .start s) rfl
    (h.cmdStep (y := k) (m := s.testStart (k.word 2 / 256 % 8) (k.word 2 % 128) (some k.seq)) ?_) ?_
  · simp only [parcel, block, chosen, Bool.false_eq_true, if_false, free, List.find?_nil, List.any_nil]
  · rw [started]
    refine ⟨⟨mem, tags, bad⟩, h.worked (congrArg Cp.cmds cp) rfl rfl, ?_⟩
    change (m.kp.rep.tests.filter _) ++ _ = _
    rw [kp, free]
    rfl

/-- A pass over a megabyte of a stack without a code word in error counts its words. -/
theorem scrub_passes (h : s.InStep k 0x43) (steps : k.total ≠ 0) (one : k.word 2 = 2 ^ 9 + 1) (clean : s.bad = []) :
    Completes (.scrub ⟨k.q % 16384, Nat.mod_lt _ (by decide)⟩ (BitVec.ofNat 16 k.cid)) s (fun u => u.SameMemory s ∧
      u.cp.cmds = [{ k with res0 := k.res0 + 2 ^ 20, phase := .worked }]) := by
  have stack : nbit (2 ^ 9 + 1) 8 = 0 := by decide
  refine completes_of (r := execScrub _ _ s) rfl (h.cmdStep (y := { k with res0 := k.res0 + 2 ^ 20 }) (m := s) ?_)
    ⟨⟨rfl, rfl, rfl⟩, h.worked (y := { k with res0 := k.res0 + 2 ^ 20 }) rfl rfl rfl⟩
  simp only [steps, if_false, one, clean, stack, List.map_nil, List.filter_nil, List.foldl_nil, Nat.add_zero, show ¬ (0 : Nat) = 1 by decide, decide_false,
    Bool.false_and, Bool.false_eq_true]

/-- The state with the bytes that a command has read of its image. -/
def State.keepImage (s : State) (k : Cmd) (l : List Nat) : State :=
  s.setImg { s.kp.img with reads := Sparse.set [] (Sparse.keep (fun q => s.cp.cmds.any (fun x => x.seq = q)) s.kp.img.reads) k.seq l }

/-- The one step that reads a short image keeps its bytes. -/
theorem loadImage_reads {far : List Vec} {v : Bool × Option Nat} {ok : Bool} (h : s.InStep k 0x40) (host : k.host 2 = true) (first : k.done = 0)
    (pos : 0 < k.word 3) (short : k.word 3 ≤ 2 ^ 20) :
    Completes (.loadImage ⟨k.q % 16384, Nat.mod_lt _ (by decide)⟩ (BitVec.ofNat 16 k.cid) far 0 v ok) s (fun u => u.SameMemory s ∧
      u.cp.cmds = [{ k with phase := .worked }] ∧ Sparse.get [] u.kp.img.reads k.seq =
        Sparse.get [] s.kp.img.reads k.seq ++ leBytes (farVal far % 2 ^ (8 * k.word 3)) (k.word 3)) := by
  have reads : (k.word 3 + 2 ^ 20 - 1) / 2 ^ 20 = 1 := by omega
  have whole : min (2 ^ 20) (k.word 3) = k.word 3 := by omega
  have got (a : Word) (n : Nat) : s.cmdRead k 2 a n ((0 : Status).toNat) (farVal far) = (0, farVal far % 2 ^ (8 * n), s) := by
    rw [State.cmdRead, if_pos host]
    rfl
  refine completes_of (r := execLoadImage _ _ far 0 v ok s) rfl (h.cmdStep (y := k) (m := s.keepImage k
    (Sparse.get [] s.kp.img.reads k.seq ++ leBytes (farVal far % 2 ^ (8 * k.word 3)) (k.word 3))) ?_) ⟨⟨rfl, rfl, rfl⟩, h.worked rfl rfl rfl, ?_⟩
  · simp only [first, reads, Nat.zero_mul, Nat.sub_zero, whole, got, cmdGo]
    rfl
  · exact Sparse.get_set_same ..

theorem State.imgStat_leaves (s : State) (code : Nat) (x : ImgBad) : (s.imgStat code x).SameMemory s ∧ (s.imgStat code x).cp = s.cp ∧
    (s.imgStat code x).fld IMG_STAT_CODE 0 0 = code % 2 ^ 16 := by
  unfold State.imgStat
  refine ⟨⟨by simp only [State.setFld_mem], by simp only [State.setFld_tags], by simp only [State.setFld_bad]⟩, by simp only [State.setFld_cp], ?_⟩
  rw [State.fld_setFld_beside _ IMG_STAT_RECORD IMG_STAT_CODE _ _ _ _ _ rfl (by decide) (by decide) (by decide) (by decide),
    State.fld_setFld_beside _ IMG_STAT_DETAIL IMG_STAT_CODE _ _ _ _ _ rfl (by decide) (by decide) (by decide) (by decide),
    State.fld_setFld_same _ _ _ _ _ _ (by decide) (by decide)]
  rfl

/-- A profile whose copy passes is to be loaded at the module's reset. -/
theorem switchProfile_chooses {vs : List (Bool × Option Nat)} {y : (Nat × Nat) × List Nat × Bool × Option Nat} (h : s.InStep k 0x41)
    (free : s.kp.img.rebinds = []) (passes : s.firstCopy (((s.slotOrder (k.word 2 % 4)).take 2).zip vs) = some y) :
    Completes (.switchProfile ⟨k.q % 16384, Nat.mod_lt _ (by decide)⟩ (BitVec.ofNat 16 k.cid) vs) s (fun u => u.SameMemory s ∧
      u.cp.cmds = [{ k with total := k.done + 1, phase := .worked }] ∧ u.kp.img.cause = 1 ∧ u.kp.img.slot = k.word 2 % 4 ∧ u.kp.img.toReset = true ∧
      u.fld IMG_STAT_CODE 0 0 = 0) := by
  have slot : nbits (k.word 2) 1 0 = k.word 2 % 4 := by rw [nbits_eq]; norm_num
  obtain ⟨same, cp, code⟩ := s.imgStat_leaves 0 (0, 0xFFFF, 0)
  generalize told : s.imgStat 0 (0, 0xFFFF, 0) = e at same cp code
  refine completes_of (r := execSwitchProfile _ _ vs s) rfl (h.cmdStep (y := k.lastStep) (m := e.setImg { s.kp.img with
    cause := 1, slot := k.word 2 % 4, staged := none, toReset := true }) ?_)
    ⟨same, h.worked (y := k.lastStep) (congrArg Cp.cmds cp) rfl rfl, rfl, rfl, rfl, code⟩
  simp only [free, List.isEmpty_nil, Bool.not_true, Bool.false_eq_true, if_false, slot, passes, told]

end

end Sys2Proof.Machine
end

section
/-!
SUPPORT for O47. LAUNCH of one thread on one core, and its stop after TIMEOUT (R356, R479).
-/
namespace Sys2Proof.Machine
-- One thread elaborates these theorems: many at once hold many stacks.
set_option Elab.async false

/-! ### Registers of one unit -/

section
variable {s : State} {c t : Nat}

theorem State.reg_setReg_named (s : State) {r r' : RegName} {i i' : Nat} (u : Nat) (w : Word) (low : i < 1048576) (low' : i' < 1048576) (other : r' ≠ r) :
    (s.setReg r u i w).reg r' u i' = s.reg r' u i' := by
  refine Sparse.get_set_other _ _ _ _ fun same => ?_
  have index : r'.ctorIdx = r.ctorIdx := by
    unfold RegName.key at same
    generalize r'.ctorIdx = a, r.ctorIdx = b at same ⊢
    omega
  exact RegName.key_ne (r := r') (r' := r) (u := 0) (u' := 0) (i := 0) (i' := 0) (by decide) (by decide) (by decide) (by decide)
    (fun h => other h.1) (by simp only [RegName.key, index])

theorem State.reg_setTreg_unit (s : State) {r r' : RegName} (w : Word) (low : t < 8) (other : r' ≠ r) : (s.setTreg r c t w).reg r' c 0 = s.reg r' c 0 :=
  s.reg_setReg_named c w (by omega) (by decide) other

theorem State.reg_setTf_unit (s : State) {f : Field} {r' : RegName} (v : Nat) (low : t < 8) (other : r' ≠ f.reg) :
    (s.setTf f c t v).reg r' c 0 = s.reg r' c 0 := s.reg_setReg_named c _ (by omega) (by decide) other

/-- A command over the threads that its mask names does what it does to the only one. -/
theorem foldl_mask {α : Type} {f : α → Nat → α} {s u : α} (low : t < 8) (acts : f s t = u)
    (others : ∀ e j, e = s ∨ e = u → j < 8 → j ≠ t → f e j = e) : (List.range 8).foldl f s = u := by
  have rests (l : List Nat) (e : α) (one : e = s ∨ e = u) (apart : ∀ j ∈ l, j < 8 ∧ j ≠ t) : l.foldl f e = e := by
    induction l with
    | nil => rfl
    | cons j l ih =>
      obtain ⟨small, other⟩ := apart j List.mem_cons_self
      rw [List.foldl_cons, others e j one small other]
      exact ih fun i m => apart i (List.mem_cons_of_mem j m)
  have cut : List.range 8 = List.range t ++ t :: (List.range' (t + 1) (7 - t)) := by
    have all : List.range 8 = List.range' 0 8 := List.range_eq_range'
    rw [all, List.range_eq_range', show (8 : Nat) = t + (7 - t + 1) by omega, ← List.range'_append_1, List.range'_succ]
    simp
  rw [cut, List.foldl_append, rests _ s (Or.inl rfl) (fun j m => by have := List.mem_range.1 m; omega), List.foldl_cons, acts]
  exact rests _ u (Or.inr rfl) fun j m => by have := List.mem_range'_1.1 m; omega

theorem nbit_only {j : Nat} (low : t < 8) (small : j < 8) : nbit (2 ^ t) j = if j = t then 1 else 0 := by
  interval_cases t <;> interval_cases j <;> rfl

/-! ### LAUNCH -/

/-- A kernel starts on a thread: TSTART with RESUME = 0, its level and address, and three of its registers. -/
def State.startsThread (s : State) (c t sup pc : Nat) (a0 a1 a2 : Word) : State :=
  let s2 := (s.startThread c t).setTf wstat_LEVEL c t sup
  let h := s2.thr c t
  s2.setThr c t { h with x := Sparse.set 0 (Sparse.set 0 (Sparse.set 0 h.x 1 a0) 2 a1) 3 a2, pc := pc }

theorem State.startsThread_thr (s : State) (c t sup pc : Nat) (a0 a1 a2 : Word) : ((s.startsThread c t sup pc a0 a1 a2).thr c t).st = .ready ∧
    ((s.startsThread c t sup pc a0 a1 a2).thr c t).pc = pc ∧ (s.startsThread c t sup pc a0 a1 a2).x c t 1 = a0 ∧
    (s.startsThread c t sup pc a0 a1 a2).x c t 2 = a1 ∧ (s.startsThread c t sup pc a0 a1 a2).level c t = sup % 2 := by
  refine ⟨?_, ?_, ?_, ?_, ?_⟩
  · simp only [State.startsThread, State.thr_setThr_same, State.thr_setTf, State.startThread]
  · simp only [State.startsThread, State.thr_setThr_same]
  · rw [State.x, State.startsThread, State.thr_setThr_same]
    change Sparse.get 0 (Sparse.set 0 (Sparse.set 0 (Sparse.set 0 _ 1 a0) 2 a1) 3 a2) 1 = a0
    rw [Sparse.get_set_other _ _ _ _ (by decide), Sparse.get_set_other _ _ _ _ (by decide), Sparse.get_set_same]
  · rw [State.x, State.startsThread, State.thr_setThr_same]
    change Sparse.get 0 (Sparse.set 0 (Sparse.set 0 (Sparse.set 0 _ 1 a0) 2 a1) 3 a2) 2 = a1
    rw [Sparse.get_set_other _ _ _ _ (by decide), Sparse.get_set_same]
  · rw [State.level, State.startsThread, State.tf_setThr, State.tf, State.setTf, State.fld_setFld_same _ _ _ _ _ _ (by decide) (by decide)]
    rfl

/-- The start of a thread leaves memory, the commands and KSTAT. -/
theorem State.startsThread_leaves (s : State) (low : t < 8) (sup pc : Nat) (a0 a1 a2 : Word) :
    (s.startsThread c t sup pc a0 a1 a2).SameMemory s ∧ (s.startsThread c t sup pc a0 a1 a2).cp = s.cp ∧
    (s.startsThread c t sup pc a0 a1 a2).reg .KSTAT c 0 = s.reg .KSTAT c 0 := by
  refine ⟨⟨?_, ?_, ?_⟩, ?_, ?_⟩
  · simp only [State.startsThread, State.startThread, State.clearNotice, State.setThr_mem, State.setTf_mem, State.setCore_mem, State.setTreg,
      State.setReg_mem]
  · simp only [State.startsThread, State.startThread, State.clearNotice, State.setThr_tags, State.setTf_tags, State.setCore_tags, State.setTreg,
      State.setReg_tags]
  · simp only [State.startsThread, State.startThread, State.clearNotice, State.setThr_bad, State.setTf_bad, State.setCore_bad, State.setTreg,
      State.setReg_bad]
  · simp only [State.startsThread, State.startThread, State.clearNotice, State.setThr_cp, State.setTf_cp, State.setCore_cp, State.setTreg, State.setReg_cp]
  · simp (disch := decide) only [State.startsThread, State.startThread, State.clearNotice, State.reg_setThr, State.reg_setCore, State.reg_setTf_unit _ _ low,
      State.reg_setTreg_unit _ _ low]

end

section
variable {s : State} {k : Cmd} {l c t : Nat}

theorem State.freshCache_leaves (s : State) (empty : (s.core c).cache = []) : (s.freshCache c).mem = s.mem ∧ (s.freshCache c).tags = s.tags ∧
    (s.freshCache c).bad = s.bad ∧ (s.freshCache c).cp = s.cp ∧ (s.freshCache c).regs = s.regs := by
  have flushed : s.flushAll c = s.setCache c [] := by
    simp only [State.flushAll, empty, List.filter_nil, List.foldl_nil, List.map_nil]
  rw [State.freshCache, flushed]
  exact ⟨rfl, rfl, rfl, rfl, rfl⟩

/-- A kernel starts on a core without one, whose cache is empty. -/
theorem State.startKernel_starts (idle : s.fld KSTAT_ACTIVE c 0 = 0) (empty : (s.core c).cache = []) (low : t < 8) (sup pc : Nat) (a0 a1 a2 : Word) :
    ∃ e : State, s.startKernel c (2 ^ t) sup pc a0 a1 a2 = e.startsThread c t sup pc a0 a1 a2 ∧ e.SameMemory s ∧ e.cp = s.cp ∧
      e.fld KSTAT_ACTIVE c 0 = 1 ∧ e.fld KSTAT_RUN c 0 = 2 ^ t := by
  obtain ⟨mem, tags, bad, cp, regs⟩ := s.freshCache_leaves empty
  have unstarted : ¬ (s.freshCache c).fld KSTAT_ACTIVE c 0 = 1 := by rw [State.fld_congr regs, idle]; decide
  generalize fresh : s.freshCache c = b at mem tags bad cp regs unstarted
  obtain ⟨e, is⟩ : ∃ e, e = ((b.setCore c { b.core c with kcodes := [], wbLost := false, kend := false }).setFld KSTAT_ACTIVE c 0 1).setFld
    KSTAT_RUN c 0 (0 ||| 2 ^ t) := ⟨_, rfl⟩
  have active : e.fld KSTAT_ACTIVE c 0 = 1 := by
    rw [is, State.fld_setFld_beside _ KSTAT_RUN KSTAT_ACTIVE _ _ _ _ _ rfl (by decide) (by decide) (by decide) (by decide),
      State.fld_setFld_same _ _ _ _ _ _ (by decide) (by decide)]
    rfl
  have run : e.fld KSTAT_RUN c 0 = 2 ^ t := by
    rw [is, State.fld_setFld_same _ _ _ _ _ _ (by decide) (by decide), Nat.zero_or]
    exact Nat.mod_eq_of_lt (Nat.pow_lt_pow_right (by decide) low)
  have same : e.SameMemory s ∧ e.cp = s.cp := by
    refine ⟨⟨?_, ?_, ?_⟩, ?_⟩
    · simp only [is, State.setFld_mem, State.setCore_mem, mem]
    · simp only [is, State.setFld_tags, State.setCore_tags, tags]
    · simp only [is, State.setFld_bad, State.setCore_bad, bad]
    · simp only [is, State.setFld_cp, State.setCore_cp, cp]
  obtain ⟨-, -, kstat⟩ := e.startsThread_leaves (c := c) low sup pc a0 a1 a2
  have goes : ¬ (e.startsThread c t sup pc a0 a1 a2).fld KSTAT_RUN c 0 = 0 := by
    have same : (e.startsThread c t sup pc a0 a1 a2).fld KSTAT_RUN c 0 = e.fld KSTAT_RUN c 0 := by
      simp only [State.fld, show KSTAT_RUN.reg = .KSTAT from rfl, kstat]
    rw [same, run]
    positivity
  refine ⟨e, ?_, same.1, same.2, active, run⟩
  have starts := foldl_mask (f := fun s j => if nbit (2 ^ t) j = 0 then s else s.startsThread c j sup pc a0 a1 a2) (s := e) low
    (if_neg (by rw [nbit_only low low, if_pos rfl]; decide)) (fun e j _ small other => if_pos (by rw [nbit_only low small, if_neg other]))
  unfold State.startsThread at starts goes ⊢
  dsimp only at starts goes ⊢
  simp only [State.startKernel, fresh, unstarted, if_false, ← is, starts, goes]

/-- LAUNCH of one thread on one core that is idle and clean. -/
theorem launch_starts (h : s.InStep k 0x10) (first : k.done = 0) (one : s.launchCores k = [(l, c)]) (low : t < 8)
    (mask : k.word 3 / 2 ^ 32 % 256 = 2 ^ t) (startable : s.startable c t = true) (untested : s.underTest c = false)
    (idle : s.fld KSTAT_ACTIVE c 0 = 0) (empty : (s.core c).cache = []) :
    Completes (.launch ⟨k.q % 16384, Nat.mod_lt _ (by decide)⟩ (BitVec.ofNat 16 k.cid)) s (fun u => u.SameMemory s ∧
      u.cp.cmds = [{ k with phase := .worked }] ∧ u.fld KSTAT_ACTIVE c 0 = 1 ∧ u.fld KSTAT_RUN c 0 = 2 ^ t ∧ (u.thr c t).st = .ready ∧
      (u.thr c t).pc = k.word 3 % 2 ^ 16 ∧ u.level c t = k.word 3 / 2 ^ 24 % 2 ∧ u.x c t 1 = BitVec.ofNat 64 (k.word 4) ∧
      u.x c t 2 = BitVec.ofNat 64 (k.word 5)) := by
  obtain ⟨e, starts, ⟨mem, tags, bad⟩, cp, active, run⟩ := State.startKernel_starts idle empty low (k.word 3 / 2 ^ 24 % 2) (k.word 3 % 2 ^ 16)
    (BitVec.ofNat 64 (k.word 4)) (BitVec.ofNat 64 (k.word 5)) (BitVec.ofNat 64 (l - nbits (k.word 2) 13 0))
  obtain ⟨⟨mem', tags', bad'⟩, cp', kstat⟩ := e.startsThread_leaves (c := c) low (k.word 3 / 2 ^ 24 % 2) (k.word 3 % 2 ^ 16)
    (BitVec.ofNat 64 (k.word 4)) (BitVec.ofNat 64 (k.word 5)) (BitVec.ofNat 64 (l - nbits (k.word 2) 13 0))
  obtain ⟨ready, pc, x1, x2, level⟩ := e.startsThread_thr c t (k.word 3 / 2 ^ 24 % 2) (k.word 3 % 2 ^ 16)
    (BitVec.ofNat 64 (k.word 4)) (BitVec.ofNat 64 (k.word 5)) (BitVec.ofNat 64 (l - nbits (k.word 2) 13 0))
  generalize e.startsThread c t _ _ _ _ _ = m at starts mem' tags' bad' cp' kstat ready pc x1 x2 level
  have named : nbits (k.word 3) 39 32 = 2 ^ t := (nbits_eq ..).trans mask
  have sup : nbit (k.word 3) 24 = k.word 3 / 2 ^ 24 % 2 := nbit_eq ..
  have place : nbits (k.word 3) 15 0 = k.word 3 % 2 ^ 16 := by rw [nbits_eq, pow_zero, Nat.div_one]
  have free : (List.range 8).any (fun j => decide (nbit (2 ^ t) j = 1) && !s.startable c j) = false := by
    simp only [List.any_eq_false, List.mem_range]
    intro j small
    by_cases same : j = t
    · simp [same, startable]
    · simp [nbit_only low small, same]
  refine completes_of (r := execLaunch _ _ s) rfl (h.cmdStep (y := k) (m := m) ?_) ?_
  · simp only [one, List.any_cons, List.any_nil, Bool.or_false, untested, named, free, Bool.and_false, Bool.false_eq_true, if_false, first, Nat.mul_zero,
      List.drop_zero, List.take_succ_cons, List.take_nil, List.foldl_cons, List.foldl_nil, sup, place, starts]
  · have kept (f : Field) (at_ : f.reg = .KSTAT) : m.fld f c 0 = e.fld f c 0 := by rw [State.fld, at_, kstat, State.fld, at_]
    exact ⟨⟨mem'.trans mem, tags'.trans tags, bad'.trans bad⟩, h.worked (congrArg Cp.cmds (cp'.trans cp)) rfl rfl, (kept _ rfl).trans active,
      (kept _ rfl).trans run, ready, pc, level.trans (Nat.mod_mod ..), x1, x2⟩

/-- A LAUNCH past its TIMEOUT stops the thread that waits, and ends when that has stopped. -/
theorem launchTimeout_stops {ms : BitVec 32} (cid : k.cid < 2 ^ 16) (queue : k.q < 16384) (code : k.code = 0) (only : s.cp.cmds = [k])
    (phase : k.phase = .launched) (opc : k.opc = 0x10) (limited : k.word 6 % 2 ^ 32 ≠ 0) (late : k.word 6 % 2 ^ 32 ≤ ms.toNat)
    (one : s.launchCores k = [(l, c)]) (low : t < 8) (active : s.fld KSTAT_ACTIVE c 0 = 1) (run : s.fld KSTAT_RUN c 0 = 2 ^ t)
    (waits : (s.thr c t).st = .waiting) :
    Completes (.launchTimeout ⟨k.q % 16384, Nat.mod_lt _ (by decide)⟩ (BitVec.ofNat 16 k.cid) ms) s (fun u => u.SameMemory s ∧
      (u.thr c t).stopReq = true ∧ u.cp.cmds = [{ k with code := 0x0107 }]) := by
  have found := State.cmdAt_only (p := fun k => k.phase = .launched && k.opc = 0x10 && k.code = 0) only cid queue (by simp [phase, opc, code])
  have limit : nbits (k.word 6) 31 0 = k.word 6 % 2 ^ 32 := by rw [nbits_eq, pow_zero, Nat.div_one]
  have notYet : ¬ ms.toNat < k.word 6 % 2 ^ 32 := by omega
  let m := (s.setCmd { k with code := 0x0107 }).setThr c t { s.thr c t with stopReq := true }
  have stopping : (s.setCmd { k with code := 0x0107 }).stopKernel c = m := by
    refine foldl_mask low ?_ fun e j both small other => ?_
    · change (if nbit (s.fld KSTAT_RUN c 0) t = 0 then _ else _) = _
      rw [run, nbit_only low low, if_pos rfl, if_neg (by decide)]
      change (match (s.thr c t).st with | .stopped | .suspended => _ | .ready | .sleeping => _ | _ => _) = _
      rw [waits]
      rfl
    · have named : e.fld KSTAT_RUN c 0 = 2 ^ t := by
        rcases both with rfl | rfl <;> exact run
      dsimp only
      rw [named, nbit_only low small, if_neg other, if_pos rfl]
  have still : m.settleKernel c = m := by
    have runs : m.fld KSTAT_RUN c 0 = 2 ^ t := run
    have on : (m.thr c t).st = .waiting := by rw [State.thr_setThr_same]; exact waits
    have goes : ((List.range 8).filter (fun j => nbit (m.fld KSTAT_RUN c 0) j = 1)).all
        (fun j => (m.thr c j).st = .suspended || (m.thr c j).st = .stopped) = false := by
      rw [List.all_eq_false]
      exact ⟨t, by simp [runs, nbit_only low low, low], by simp [on]⟩
    unfold State.settleKernel
    simp only [goes, Bool.and_false, Bool.false_eq_true, if_false]
  have named : m.launchCores { k with code := 0x0107 } = [(l, c)] := one
  have held : m.fld KSTAT_ACTIVE c 0 = 1 := active
  have going : m.launchEnd { k with code := 0x0107 } = m := by
    unfold State.launchEnd
    simp only [named, show ¬ 0x0107 = 0 by decide, if_true, ne_eq, not_false_iff, List.foldl_cons, List.foldl_nil, still, List.any_cons, List.any_nil, held,
      decide_true, Bool.true_or]
  have stops : s.stopLaunch k 0x0107 = m := by
    unfold State.stopLaunch
    simp only [one, List.all_cons, List.all_nil, active, show ¬ (1 : Nat) = 0 by decide, decide_false, Bool.false_and, Bool.false_eq_true, if_false,
      List.foldl_cons, List.foldl_nil, stopping, going]
  refine completes_of (r := execLaunchTimeout _ _ ms s) (u := m) rfl ?_ ⟨⟨rfl, rfl, rfl⟩, congrArg Thread.stopReq (State.thr_setThr_same ..), ?_⟩
  · unfold execLaunchTimeout
    simp only [found, limit, limited, notYet, decide_false, Bool.or_false, Bool.false_eq_true, if_false, stops]
  · exact State.cmds_setCmd only rfl

end

end Sys2Proof.Machine
end

section
/-!
SUPPORT for O47. CONTEXT_TEARDOWN (R646): what the first steps of a teardown keep, operation by operation.
-/
namespace Sys2Proof.Machine
-- One thread elaborates these theorems: many at once hold many stacks.
set_option Elab.async false

/-- From `s₀` to `s` the commands, the teardowns, the epochs and the PLOT_STAT word of plot n stay. -/
structure State.KeepsPlot (s₀ : State) (n : Nat) (s : State) : Prop where
  low : n < 64
  cmds : s.cp.cmds = s₀.cp.cmds
  tds : s.kp.tds = s₀.kp.tds
  epochs : s.epochs = s₀.epochs
  stat : s.reg .PLOT_STAT_W0 0 n = s₀.reg .PLOT_STAT_W0 0 n

theorem sregAt_other {k : Nat} {r : RegName} {i : Nat} (at_ : sregAt k = some (r, i)) : r ≠ .PLOT_STAT_W0 := by
  unfold sregAt at at_
  obtain ⟨x, held, is⟩ := List.exists_of_findSome?_eq_some at_
  have others : ∀ x ∈ Block.thr.regs ++ Block.cst.regs, x ≠ RegName.PLOT_STAT_W0 := by decide
  dsimp only at is
  split at is
  · cases is
    exact others _ held
  · cases is

/-- Units are numbers below those of a register's key. -/
theorem State.unitsOf_small {s : State} {r : RegName} {u : Nat} (held : u ∈ s.unitsOf r) : u < 1048576 := by
  unfold State.unitsOf at held
  obtain ⟨e, -, is⟩ := List.mem_filterMap.1 (List.mem_eraseDups.1 held)
  split at is
  · cases is
    exact Nat.mod_lt _ (by decide)
  · cases is

theorem State.boundCores_small {s : State} {n c : Nat} (held : c ∈ s.boundCores n) : c < 1048576 :=
  State.unitsOf_small (List.mem_filter.1 held).1

theorem State.boundQueues_small {s : State} {n q : Nat} (held : q ∈ s.boundQueues n) : q < 1048576 := by
  rcases List.mem_append.1 (List.mem_eraseDups.1 (List.mem_filter.1 held).1) with bound | shown
  exacts [State.unitsOf_small bound, State.unitsOf_small shown]

theorem State.portRouter_portsTo (s : State) (peer : Nat) : portRouter ((s.portsTo peer).headD 0) < 1048576 := by
  have each : ∀ m < 32, portRouter m < 1048576 := by decide
  have low : (s.portsTo peer).headD 0 < 32 := by
    rcases empty : s.portsTo peer with _ | ⟨m, l⟩
    · decide
    · have held : m ∈ s.portsTo peer := by rw [empty]; exact List.mem_cons_self
      exact List.mem_range.1 (List.mem_filter.1 held).1
  exact each _ low

namespace State.KeepsPlot

variable {s₀ s : State} {n c t : Nat}

theorem refl (s : State) (low : n < 64) : s.KeepsPlot n s := ⟨low, rfl, rfl, rfl, rfl⟩

/-- What changes neither the command processor, the teardowns, the epochs nor a register. -/
theorem same {u : State} (h : s₀.KeepsPlot n s) (cp : u.cp = s.cp := by rfl) (tds : u.kp.tds = s.kp.tds := by rfl) (epochs : u.epochs = s.epochs := by rfl)
    (regs : u.regs = s.regs := by rfl) : s₀.KeepsPlot n u :=
  ⟨h.low, (congrArg Cp.cmds cp).trans h.cmds, tds.trans h.tds, epochs.trans h.epochs, by rw [State.reg, regs]; exact h.stat⟩

theorem ite {p : Prop} [Decidable p] {u v : State} (hu : s₀.KeepsPlot n u) (hv : s₀.KeepsPlot n v) : s₀.KeepsPlot n (if p then u else v) := by
  split
  exacts [hu, hv]

theorem foldl {α : Type} {l : List α} {f : State → α → State} (h : s₀.KeepsPlot n s)
    (each : ∀ s, s₀.KeepsPlot n s → ∀ x ∈ l, s₀.KeepsPlot n (f s x)) :
    s₀.KeepsPlot n (l.foldl f s) := by
  induction l generalizing s with
  | nil => exact h
  | cons x l ih => exact ih (each s h x List.mem_cons_self) fun s h y m => each s h y (List.mem_cons_of_mem x m)

/-! ### The state's operations -/

section
variable (h : s₀.KeepsPlot n s)
include h

theorem setReg {r : RegName} {u i : Nat} {w : Word} (other : r ≠ .PLOT_STAT_W0) (unit : u < 1048576) (index : i < 1048576) :
    s₀.KeepsPlot n (s.setReg r u i w) := by
  obtain ⟨low, cmds, tds, epochs, stat⟩ := h
  exact ⟨low, cmds, tds, epochs,
    (State.reg_setReg_other s w unit index (by decide) (by omega) fun same => other same.1.symm).trans stat⟩

theorem setFld {f : Field} {u i v k : Nat} (other : f.reg ≠ .PLOT_STAT_W0 := by decide) (unit : u < 1048576 := by omega)
    (index : i < 1048576 := by omega) : s₀.KeepsPlot n (s.setFld f u i v k) := h.setReg other unit index

theorem bump {f : Field} {u i k : Nat} (other : f.reg ≠ .PLOT_STAT_W0 := by decide) (unit : u < 1048576 := by omega)
    (index : i < 1048576 := by omega) : s₀.KeepsPlot n (s.bump f u i k) := h.setReg other unit index

theorem setTreg {r : RegName} {w : Word} (core : c < 1048576) (thread : t < 8) (other : r ≠ .PLOT_STAT_W0 := by decide) :
    s₀.KeepsPlot n (s.setTreg r c t w) := h.setReg other core (by omega)

theorem setTf {f : Field} {v : Nat} (core : c < 1048576) (thread : t < 8) (other : f.reg ≠ .PLOT_STAT_W0 := by decide) :
    s₀.KeepsPlot n (s.setTf f c t v) := h.setReg other core (by omega)

theorem setCore {k : Core} : s₀.KeepsPlot n (s.setCore c k) := h.same

theorem setThr {x : Thread} : s₀.KeepsPlot n (s.setThr c t x) := h.same

theorem send {k : MsgKind} {l : List Nat} : s₀.KeepsPlot n (s.send k l) := h.same

theorem free : s₀.KeepsPlot n s.free.2 := h.same

theorem setFab {f : Fab} : s₀.KeepsPlot n (s.setFab f) := h.same

theorem setSrv {x : Srv} : s₀.KeepsPlot n (s.setSrv x) := h.same

/-! ### The cache of a core -/

theorem settle : s₀.KeepsPlot n (s.settle c) := by
  unfold State.settle
  exact h.setCore.foldl fun _ h _ _ => h.send

theorem depart {key : AccKey} {a : Word} {k : Nat} {parts msg : List Nat} : s₀.KeepsPlot n (s.depart c key a k parts msg) := by
  unfold State.depart
  extract_lets _
  split
  · exact h.send
  · extract_lets _
    exact .ite h.setCore.settle (.ite h.setCore h.setCore.send)

theorem writeBack {e : CEntry} {t : Option Nat} : s₀.KeepsPlot n (s.writeBack c e t) := .ite h h.setCore.depart

theorem flushEntries {t : Option Nat} {f : CEntry → Bool} : s₀.KeepsPlot n (s.flushEntries c t f) := by
  unfold State.flushEntries
  exact (h.foldl fun _ h _ _ => h.writeBack).setCore

theorem emptyCache : s₀.KeepsPlot n (s.emptyCache c) := by
  unfold State.emptyCache
  exact h.flushEntries.setCore.setCore

theorem cacheOffDone : s₀.KeepsPlot n (s.cacheOffDone c) := .ite h (h.foldl fun _ h _ _ => .ite h.setThr h)

/-! ### Writes in flight -/

theorem sets {w i : Nat} {r : RegName} {v : Word} (core : c < 1048576) (thread : t < 8) (other : r ≠ .PLOT_STAT_W0) (small : i < 1024) :
    s₀.KeepsPlot n (s.sets c t w r i v) := by
  unfold State.sets
  extract_lets _ _ generic _ _ _ _ _ s1 _ _ _ _ _ _ s1'
  have hgeneric : s₀.KeepsPlot n generic := h.setReg other core (by omega)
  have h1 : s₀.KeepsPlot n s1 := .ite h.setFld h
  have hs1' : s₀.KeepsPlot n s1' := h.setReg (by decide) core (by decide)
  split
  exacts [h.setReg (by decide) core (by omega), .ite h1.setFld h1, hgeneric.setThr, h.setReg (by decide) core (by decide), h.setFld, h.setTf core thread,
    h.foldl fun _ h _ _ => .ite h.setThr h, .ite h h.setCore, .ite (.ite hs1'.emptyCache.cacheOffDone hs1') h, h.setReg (by decide) core (by decide),
    h, h, h, h, h, h, h, hgeneric]

theorem landOne {f : Flight} (core : c < 1048576) (thread : t < 8) : s₀.KeepsPlot n (s.landOne c t f) := by
  unfold State.landOne
  extract_lets _ _
  split
  · exact h.setThr
  · exact h.setThr
  · exact h.setThr
  · exact h.setThr
  · split
    · next r i at_ =>
      extract_lets s1 _ _
      have h1 : s₀.KeepsPlot n s1 := h.sets core thread (sregAt_other at_) (sregAt_small at_)
      exact .ite h1.setThr h1
    · exact h
  · exact h.setCore
  · exact h.setCore
  · exact h.setTreg core thread
  · exact .ite h.setThr h

omit h in
theorem landList {l : List Flight} (h : s₀.KeepsPlot n s) (core : c < 1048576) (thread : t < 8) : s₀.KeepsPlot n (s.landList c t l) := by
  induction l generalizing s with
  | nil => exact h
  | cons f l ih => exact ih (h.landOne core thread)

/-! ### Threads held -/

theorem abandon {ends : Bool} (core : c < 1048576) (thread : t < 8) : s₀.KeepsPlot n (s.abandon c t ends) := by
  unfold State.abandon State.restoreCtx
  extract_lets _ s1 _ s2 _
  have h1 : s₀.KeepsPlot n s1 := by
    unfold s1
    split
    exacts [.ite h.send h, h]
  have h2 : s₀.KeepsPlot n s2 := .ite h1 (h1.setThr.setTf core thread)
  exact h2.setThr

theorem undoSlot (core : c < 1048576) (thread : t < 8) : s₀.KeepsPlot n (s.undoSlot c t).2 := by
  unfold State.undoSlot
  extract_lets _
  split
  exacts [h, h.setThr.setTf core thread]

theorem stopDone : s₀.KeepsPlot n (s.stopDone c t) := h.foldl fun _ h _ _ => .ite h.setThr h

theorem suspend (core : c < 1048576) (thread : t < 8) : s₀.KeepsPlot n (s.suspend c t) := by
  have landed : s₀.KeepsPlot n (s.landAll c t) := by
    unfold State.landAll
    exact h.setThr.landList core thread
  unfold State.suspend
  extract_lets _ u _ s2 _
  have hu : s₀.KeepsPlot n u.2 := (landed.abandon core thread).undoSlot core thread
  have h2 : s₀.KeepsPlot n s2 := ((hu.setTreg core thread).setTreg core thread).setTreg core thread
  exact h2.setThr.stopDone

theorem disarm : s₀.KeepsPlot n (s.disarm c t) := by
  unfold State.disarm
  split
  · split
    · extract_lets _ _
      exact h.setCore
    · exact h
  · exact h

theorem holdThread (core : c < 1048576) (thread : t < 8) : s₀.KeepsPlot n (s.holdThread c t) := by
  unfold State.holdThread
  extract_lets _
  split
  exacts [h, h, h.disarm.suspend core thread, h.disarm.suspend core thread, h.setThr]

theorem holdThreads {p : Nat} : s₀.KeepsPlot n (s.holdThreads p) :=
  h.foldl fun _ h _ bound => h.foldl fun _ h _ m => .ite (h.holdThread (State.boundCores_small bound) (List.mem_range.1 m)) h

/-! ### Messages to other modules -/

theorem setConn {peer : Nat} {k : Conn} : s₀.KeepsPlot n (s.setConn peer k) := by
  unfold State.setConn
  exact h.setFab.setFld

theorem countSealed {m peer : Nat} : s₀.KeepsPlot n (s.countSealed m peer) := .ite h.setFab h.setFab

theorem sendDirect {m k cells : Nat} {body : List Nat} : s₀.KeepsPlot n (s.sendDirect m k cells body) := by
  unfold State.sendDirect
  exact h.setFab.send

theorem sendFrame {m peer k tseq : Nat} {x : Conn} {msgs : List FabMsg} {close busy : Bool} :
    s₀.KeepsPlot n (s.sendFrame m peer k x tseq msgs close busy) := by
  unfold State.sendFrame
  extract_lets _ _ s1
  have h1 : s₀.KeepsPlot n s1 := .ite h.countSealed h
  exact .ite h1.send h1.sendDirect

omit h in
theorem pump {peer k fuel : Nat} (h : s₀.KeepsPlot n s) : s₀.KeepsPlot n (s.pump peer k fuel) := by
  induction fuel generalizing s with
  | zero => exact h
  | succ fuel ih =>
    unfold State.pump
    split
    · exact h
    · extract_lets _
      split
      · exact h
      · split
        · exact h
        · extract_lets _ _ _ _ _
          exact .ite h (.ite h (ih h.setConn.sendFrame))

theorem boundaryCount {m : Nat} {f : Field} (other : f.reg ≠ .PLOT_STAT_W0) (unit : m < 1048576) : s₀.KeepsPlot n (s.boundaryCount m f) :=
  .ite (h.free.bump other (by omega)) (h.bump other unit)

theorem openConn {peer : Nat} {x : Conn} {s1 : State} (opened : s.openConn peer = some (x, s1)) : s₀.KeepsPlot n s1 := by
  unfold State.openConn at opened
  split at opened
  · cases opened
    exact h
  · split at opened
    · cases opened
    · cases opened
      exact h.setFab.setConn

theorem fabSend {peer k : Nat} {m : FabMsg} : s₀.KeepsPlot n (s.fabSend peer k m).2 := by
  unfold State.fabSend
  split
  · exact h
  · split
    · exact h.boundaryCount (by decide) (s.portRouter_portsTo peer)
    · split
      · exact h
      · next x s1 opened =>
        extract_lets _
        exact (h.openConn opened).setConn.pump

theorem fabNote {peer k : Nat} {m : FabMsg} : s₀.KeepsPlot n (s.fabNote peer k m) := by
  unfold State.fabNote State.fabNextTag
  exact h.setFab.fabSend

theorem orderTeardown {p e : Nat} : s₀.KeepsPlot n (s.orderTeardown p e) := by
  unfold State.orderTeardown
  exact h.foldl fun _ h _ _ => h.free.fabNote

theorem dropFinals {p : Nat} : s₀.KeepsPlot n (s.dropFinals p) := by
  unfold State.dropFinals
  exact h.setFab.setFld.foldl fun _ h _ _ => h.fabSend

/-! ### The plot's serving state, cores, channels and queues -/

theorem srvUnload {p : Nat} (plot : p < 64) : s₀.KeepsPlot n (s.srvUnload p) := by
  unfold State.srvUnload State.srvCount
  exact h.setSrv.setFld.setFld.setFld.setFld.setFld

theorem closePots : s₀.KeepsPlot n (s.closePots c) := by
  unfold State.closePots
  exact h.setCore

/-- A channel of a core has a number past those of a register's units; its registers lie before the plots' all the same. -/
theorem setDma {u v : Nat} (channel : u < 2 ^ 22) : s₀.KeepsPlot n (s.setFld DMA_STAT_STATE u 0 v) := by
  obtain ⟨low, cmds, tds, epochs, stat⟩ := h
  refine ⟨low, cmds, tds, epochs, Eq.trans (Sparse.get_set_other _ _ _ _ ?_) stat⟩
  have first : RegName.key .DMA_STAT u 0 = (79 * 1048576 + u) * 1048576 + 0 := rfl
  have second : RegName.key .PLOT_STAT_W0 0 n = (220 * 1048576 + 0) * 1048576 + n := rfl
  rw [show DMA_STAT_STATE.reg = .DMA_STAT from rfl, first, second]
  omega

omit h in
/-- A plot's epoch is written, and where it is held beside. -/
theorem setEpoch (s : State) (low : n < 64) (e : Nat) : ∃ b : State, b.KeepsPlot n (s.setEpoch n e) ∧ b.cp = s.cp ∧ b.kp = s.kp ∧
    Sparse.get 0 b.epochs n = e % 256 ∧ b.fld PLOT_STAT_W0_EPOCH 0 n = e % 256 := by
  unfold State.setEpoch
  extract_lets src s1 s2
  have h1 : s1.KeepsPlot n s1 := .refl s1 low
  have h2 : s1.KeepsPlot n s2 := h1.foldl fun _ h _ bound => h.setFld (by decide) (State.boundCores_small bound)
  refine ⟨s1, h2.foldl fun _ h _ bound => h.setFld (by decide) (State.unitsOf_small (List.mem_filter.1 bound).1), ?_, ?_, Sparse.get_set_same .., ?_⟩
  · simp only [s1, src, State.setFld_cp]
  · simp only [s1, src, State.setFld_kp]
  · have regs : s1.regs = src.regs := by simp only [s1]
    rw [State.fld_congr regs, s.fld_setFld_same PLOT_STAT_W0_EPOCH 0 n e 0 (by decide) (by decide)]
    rfl

end

end State.KeepsPlot

/-! ### The command -/

section
variable {s : State} {k : Cmd} {n : Nat}

theorem State.hangDrop_leaves (s : State) (n : Nat) : (s.hangDrop n).cp = s.cp ∧ (s.hangDrop n).kp.tds = s.kp.tds := by
  unfold State.hangDrop
  dsimp only
  split
  exacts [⟨rfl, rfl⟩, ⟨rfl, rfl⟩]

theorem State.plotDmas_small {u : Nat} (held : u ∈ s.plotDmas n) : u < 2 ^ 22 := by
  rcases List.mem_append.1 held with bulk | own
  · have := State.unitsOf_small (List.mem_filter.1 bulk).1
    omega
  · obtain ⟨c, bound, is⟩ := List.mem_flatMap.1 own
    have := State.boundCores_small bound
    simp only [List.mem_cons, List.not_mem_nil, or_false] at is
    omega

/-- A teardown begins for the one command: the plot's epoch is written, and the teardown stands. -/
theorem State.teardown_begins (low : n < 64) (only : s.cp.cmds = [k]) (free : s.kp.tds = []) (e : Nat) (issuer : Option Nat) (next : Nat) :
    (s.teardown n e [k.seq] issuer next).cp.cmds = [k] ∧
    (∃ h, (s.teardown n e [k.seq] issuer next).kp.tds = [{ plot := n, cmds := [k.seq], horizon := h, next := next }]) ∧
    Sparse.get 0 (s.teardown n e [k.seq] issuer next).epochs n = e % 256 ∧
    (s.teardown n e [k.seq] issuer next).fld PLOT_STAT_W0_EPOCH 0 n = e % 256 := by
  obtain ⟨cp, tds⟩ := s.hangDrop_leaves n
  obtain ⟨b, begun, bcp, bkp, bepochs, bstat⟩ := State.KeepsPlot.setEpoch (s.hangDrop n) low e
  unfold State.teardown
  extract_lets h s1 s2 s3 s4 s5 mine s6 _
  have h1 : b.KeepsPlot n s1 := begun.holdThreads
  have h2 : b.KeepsPlot n s2 := h1.foldl fun _ h _ held => .ite h (h.setDma (State.plotDmas_small held))
  have h3 : b.KeepsPlot n s3 := (h2.foldl fun _ h _ _ => h.closePots).dropFinals
  have h4 : b.KeepsPlot n s4 := h3.srvUnload low
  have h5 : b.KeepsPlot n s5 := h4.foldl fun _ h _ bound => .ite (h.setFld (by decide) (State.boundQueues_small bound)) h
  obtain ⟨-, cmds, tds5, epochs, stat⟩ := h5
  have held : s5.cp.cmds = [k] := by rw [cmds, bcp, cp, only]
  have kept : s5.kp.tds = [] := by rw [tds5, bkp, tds, free]
  have none : mine = [] := by
    simp only [mine, held, List.filter_cons, List.filter_nil, List.contains_cons, BEq.rfl, Bool.true_or, Bool.not_true, Bool.and_false, Bool.false_and,
      Bool.false_eq_true, if_false]
  have same : s6 = s5 := by
    simp only [s6, none, List.foldl_nil]
  rw [same]
  clear_value s5
  refine ⟨held, ⟨h, ?_⟩, ?_, ?_⟩
  · change s5.kp.tds ++ _ = _
    rw [kept, List.nil_append]
  · change Sparse.get 0 s5.epochs n = _
    rw [epochs, bepochs]
  · change s5.fld PLOT_STAT_W0_EPOCH 0 n = _
    rw [State.fld, show PLOT_STAT_W0_EPOCH.reg = .PLOT_STAT_W0 from rfl, stat]
    exact bstat

/-- CONTEXT_TEARDOWN begins a teardown of its plot, and is past its steps. -/
theorem contextTeardown_begins (h : s.InStep k 0x30) (apart : s.fld PLOT_STAT_W0_STATE 0 (k.word 2 % 64) ≠ 2) (free : s.kp.tds = []) :
    Completes (.contextTeardown ⟨k.q % 16384, Nat.mod_lt _ (by decide)⟩ (BitVec.ofNat 16 k.cid)) s (fun u =>
      Sparse.get 0 u.epochs (k.word 2 % 64) = (Sparse.get 0 s.epochs (k.word 2 % 64) + 1) % 256 ∧
      u.fld PLOT_STAT_W0_EPOCH 0 (k.word 2 % 64) = (Sparse.get 0 s.epochs (k.word 2 % 64) + 1) % 256 ∧
      (∃ h, u.kp.tds = [{ plot := k.word 2 % 64, cmds := [k.seq], horizon := h, next := 0 }]) ∧
      u.cp.cmds = [{ k with phase := .launched, total := k.done + 1 }]) := by
  have named : nbits (k.word 2) 5 0 = k.word 2 % 64 := by rw [nbits_eq]; norm_num
  have low : k.word 2 % 64 < 64 := Nat.mod_lt _ (by decide)
  have only : (s.setCmd { k with phase := .launched, total := k.done + 1 }).countSlots.cp.cmds = [{ k with phase := .launched, total := k.done + 1 }] :=
    State.cmds_setCmd h.only rfl
  have free' : (s.setCmd { k with phase := .launched, total := k.done + 1 }).countSlots.kp.tds = [] := free
  have first : (s.setCmd { k with phase := .launched, total := k.done + 1 }).countSlots.epochs = s.epochs := rfl
  generalize counted : (s.setCmd { k with phase := .launched, total := k.done + 1 }).countSlots = b at only free' first
  obtain ⟨cmds, ⟨horizon, tds⟩, epoch, shown⟩ := State.teardown_begins low only free' ((Sparse.get 0 s.epochs (k.word 2 % 64) + 1) % 256) (some k.q) 0
  obtain ⟨-, cmds', tds', epochs', stat⟩ := (State.KeepsPlot.refl (b.teardown (k.word 2 % 64) ((Sparse.get 0 s.epochs (k.word 2 % 64) + 1) % 256) [k.seq]
    (some k.q) 0) low).orderTeardown (p := k.word 2 % 64) (e := (Sparse.get 0 s.epochs (k.word 2 % 64) + 1) % 256)
  have begins : b.beginTeardown (k.word 2 % 64) [k.seq] (some k.q) 0 true = (b.teardown (k.word 2 % 64)
      ((Sparse.get 0 s.epochs (k.word 2 % 64) + 1) % 256) [k.seq] (some k.q) 0).orderTeardown (k.word 2 % 64)
      ((Sparse.get 0 s.epochs (k.word 2 % 64) + 1) % 256) := by
    simp only [State.beginTeardown, State.teardownTo, first, free', List.find?_nil, if_true]
  generalize b.teardown (k.word 2 % 64) ((Sparse.get 0 s.epochs (k.word 2 % 64) + 1) % 256) [k.seq] (some k.q) 0 = m at *
  generalize m.orderTeardown (k.word 2 % 64) ((Sparse.get 0 s.epochs (k.word 2 % 64) + 1) % 256) = u at *
  refine completes_of (r := execContextTeardown _ _ s) rfl
    (h.cmdStep (y := { k with phase := .launched, total := k.done + 1 }) (m := u) ?_) ⟨?_, ?_, ⟨horizon, tds'.trans tds⟩, ?_⟩
  · simp only [named, apart, if_false, counted, begins]
  · change Sparse.get 0 u.epochs _ = _
    rw [epochs', epoch, Nat.mod_mod]
  · change u.fld PLOT_STAT_W0_EPOCH 0 _ = _
    rw [State.fld, show PLOT_STAT_W0_EPOCH.reg = .PLOT_STAT_W0 from rfl, stat]
    exact shown.trans (Nat.mod_mod ..)
  · rw [if_neg (fun same => CmdPhase.noConfusion same)]
    exact State.cmds_setCmd (cmds'.trans cmds) rfl

end

/-- Settles O47: each command's step on the one command. -/
theorem plotCommandsComplete : Obligations.PlotCommandsComplete := by
  intro k far l c t ms all a sp m st v ok vs y s e g cid queue code q kid only step last worked pages named plot parcel took len
  have inStep {o : Nat} (held : step o) : s.InStep k o := ⟨cid, queue, held.1, held.2.1, held.2.2⟩
  exact ⟨fun held first one low mask startable untested idle empty => launch_starts (inStep held) first one low mask startable untested idle empty,
    fun held phase opc limited late one low active run waits =>
      launchTimeout_stops cid queue code held phase opc limited late one low active run waits,
    fun held last takes pool => poolAlloc_takes (inStep held) last takes pool,
    fun held last pool => poolFree_takes (inStep held) last rfl rfl pool,
    fun held last moves pool => poolMove_takes (inStep held) last moves pool,
    fun held apart free => contextTeardown_begins (inStep held) apart free,
    fun held free still one => selfTest_starts (inStep held) free still one,
    fun held steps one clean => scrub_passes (inStep held) steps one clean,
    fun held host first pos short => loadImage_reads (inStep held) host first pos short,
    fun held free passes => switchProfile_chooses (inStep held) free passes⟩

end Sys2Proof.Machine
end

section
/-!
SUPPORT for O59. What every operation keeps: the canonical form of memory, tags and symbols in error, and that nothing is packed that is not sent.

`State.Reaches` relates a state to one that such operations reach from it; a lemma named after an operation of the model says that what it leaves is
reached where what it was given is. A fold keeps the relation where each of its steps does, and an operation built of others keeps it by their lemmas.

Where an operation matches on what a read of a bank answers, its equation is opened behind variables (`∃ f, f = State.bankRead`): the kernel would evaluate
the bank's address otherwise.
-/
namespace Sys2Proof.Machine

/-! ### Sparse maps -/

/-- Values that change to one that is not the default leave the canonical form as it is. -/
theorem Sparse.okAbove_change {α : Type} [DecidableEq α] {d v : α} (hv : v ≠ d) (p : Nat → Bool) (b : Option Nat) (m : Sparse α)
    (h : Sparse.okAbove d b m = true) : Sparse.okAbove d b (m.map (fun e => if p e.1 then (e.1, v) else e)) = true := by
  induction m generalizing b with
  | nil => rfl
  | cons e m ih =>
    obtain ⟨k, w⟩ := e
    simp only [Sparse.okAbove, Bool.and_eq_true] at h
    obtain ⟨⟨above, value⟩, rest⟩ := h
    have keep := ih _ rest
    cases hp : p k <;> simp_all [Sparse.okAbove]

/-! ### What operations keep -/

/-- The parts of a state that the relation `State.Reaches` speaks of. -/
def State.kept (s : State) : List Host.Cell × Sparse Nat × Sparse Nat × Nat × List Msg × List Instr × Nat :=
  (s.mem, s.tags, s.bad, s.kp.fab.cursor, s.sent, s.pending, s.freeCtr)

/-- `u` is reached from `s` by operations that keep the canonical form of memory, tags and symbols in error and pack nothing that is not sent: what `s`
has sent stands, the commands that wait are the same, and no free value is given back. -/
structure State.Reaches (s u : State) : Prop where
  canonical : s.Canonical → u.Canonical
  packed : s.kp.fab.cursor ≤ s.sent.length → u.kp.fab.cursor ≤ u.sent.length
  pending : u.pending = s.pending
  sent : s.sent <+: u.sent
  freeCtr : s.freeCtr ≤ u.freeCtr

/-- What a word's operation answers is reached by such operations; an exception leaves the state as it was. -/
inductive Fx.From (s : State) : Fx → Prop
  | done {u} (h : s.Reaches u) : Fx.From s (.done u)
  | exc {vec det addr status} : Fx.From s (.exc vec det addr status)
  | branch {u target} (h : s.Reaches u) : Fx.From s (.branch u target)
  | goto {u pc} (h : s.Reaches u) : Fx.From s (.goto u pc)
  | hold {u} (h : s.Reaches u) : Fx.From s (.hold u)
  | again {u} (h : s.Reaches u) : Fx.From s (.again u)

/-- A command answers a next state, reached by such operations. -/
inductive Res.From (s : State) : Res → Prop
  | next {u} (h : s.Reaches u) : Res.From s (.next u)

/-- What a failed check of an access answers is reached by such operations. -/
inductive Chk.From (s : State) : Chk → Prop
  | ok {p} : Chk.From s (.ok p)
  | bad {f} (h : Fx.From s f) : Chk.From s (.bad f)

/-- What a slot of a pair word does is such an operation. -/
inductive SlotFx.From (s : State) : SlotFx → Prop
  | ok {f} (h : ∀ u, s.Reaches u → s.Reaches (f u)) : SlotFx.From s (.ok f)
  | exc {vec det addr status} : SlotFx.From s (.exc vec det addr status)
  | wait : SlotFx.From s .wait
  | held : SlotFx.From s .held

/-- A request that is turned away leaves a state reached by such operations. -/
inductive Reach.From (s : State) : Reach → Prop
  | to {p} : Reach.From s (.to p)
  | refused {n u} (h : s.Reaches u) : Reach.From s (.refused n u)
  | hold {e} : Reach.From s (.hold e)

/-- A channel's request that is carried out, or has left, leaves a state reached by such operations. -/
inductive DmaAns.From (s : State) : DmaAns → Prop
  | done {n v u} (h : s.Reaches u) : DmaAns.From s (.done n v u)
  | later {u} (h : s.Reaches u) : DmaAns.From s (.later u)

theorem Res.From.answer {s : State} {r : Res} (h : r.From s) : ∃ u, s.Reaches u ∧ r = .next u := by
  cases h with
  | next h => exact ⟨_, h, rfl⟩

theorem Chk.From.of_bad {s : State} {x : Chk} {f : Fx} (h : x.From s) (e : x = .bad f) : f.From s := by
  subst e
  cases h
  assumption

theorem SlotFx.From.of_ok {s : State} {x : SlotFx} {f : State → State} (h : x.From s) (e : x = .ok f) :
    ∀ u, s.Reaches u → s.Reaches (f u) := by
  subst e
  cases h
  assumption

theorem Fx.From.of_done {s u : State} {x : Fx} (h : x.From s) (e : x = .done u) : s.Reaches u := by
  subst e
  cases h
  assumption

theorem Fx.From.of_hold {s u : State} {x : Fx} (h : x.From s) (e : x = .hold u) : s.Reaches u := by
  subst e
  cases h
  assumption

theorem DmaAns.From.of_done {s u : State} {x : DmaAns} {n v : Nat} (h : x.From s) (e : x = .done n v u) : s.Reaches u := by
  subst e
  cases h
  assumption

theorem DmaAns.From.of_later {s u : State} {x : DmaAns} (h : x.From s) (e : x = .later u) : s.Reaches u := by
  subst e
  cases h
  assumption

theorem Reach.From.of_refused {s u : State} {x : Reach} {n : Nat} (h : x.From s) (e : x = .refused n u) : s.Reaches u := by
  subst e
  cases h
  assumption

@[simp] theorem State.stopDma_kp (s : State) (u : Nat) : (s.stopDma u).kp = s.kp := by
  unfold State.stopDma
  split <;> simp only [State.setFld_kp, State.setDma_kp]

@[simp] theorem State.withRoutes_kp (s : State) (l : List (CoreId × Fin 16 × Word)) : (s.withRoutes l).kp = s.kp := by
  unfold State.withRoutes
  induction l generalizing s with
  | nil => rfl
  | cons e l ih => rw [List.foldl_cons, ih, State.setReg_kp]

namespace State.Reaches

variable {s₀ s u : State}

theorem refl (s : State) : s.Reaches s := ⟨id, id, rfl, List.prefix_rfl, Nat.le_refl _⟩

/-- A change outside the parts that the relation speaks of. -/
theorem same (h : s₀.Reaches s) (e : u.kept = s.kept := by rfl) : s₀.Reaches u := by
  simp only [State.kept, Prod.mk.injEq] at e
  obtain ⟨mem, tags, bad, cursor, sent, pending, freeCtr⟩ := e
  obtain ⟨canonical, packed, waits, told, taken⟩ := h
  refine ⟨?_, ?_, pending.trans waits, sent ▸ told, freeCtr ▸ taken⟩
  · unfold State.Canonical at canonical ⊢
    rwa [mem, tags, bad]
  · rwa [cursor, sent]

theorem trans (h : s₀.Reaches s) (h' : s.Reaches u) : s₀.Reaches u :=
  ⟨fun was => h'.canonical (h.canonical was), fun was => h'.packed (h.packed was), h'.pending.trans h.pending, h.sent.trans h'.sent,
    h.freeCtr.trans h'.freeCtr⟩

theorem ite {p : Prop} [Decidable p] (a : s₀.Reaches s) (b : s₀.Reaches u) : s₀.Reaches (if p then s else u) := by split <;> assumption

theorem iteSnd {α : Type} {p : Prop} [Decidable p] {a b : α × State} (ha : s₀.Reaches a.2) (hb : s₀.Reaches b.2) :
    s₀.Reaches (if p then a else b).2 := by
  split <;> assumption

/-- No value, no state. -/
theorem mem_none {α : Type} {g : α → State} : ∀ p ∈ (none : Option α), s₀.Reaches (g p) := fun _ e => nomatch e

/-- What holds of the state of the only value. -/
theorem mem_some {α : Type} {g : α → State} {x : α} (h : s₀.Reaches (g x)) : ∀ p ∈ some x, s₀.Reaches (g p) := fun _ e => Option.mem_some.1 e ▸ h

/-- What holds of the state of every value holds of the state of what a function makes of it. -/
theorem mem_map {α β : Type} {g : α → State} {g' : β → State} {f : α → β} {o : Option α} (h : ∀ p ∈ o, s₀.Reaches (g p))
    (each : ∀ p, s₀.Reaches (g p) → s₀.Reaches (g' (f p))) : ∀ q ∈ o.map f, s₀.Reaches (g' q) := by
  intro q e
  obtain ⟨p, hp, rfl⟩ := Option.map_eq_some_iff.1 e
  exact each p (h p hp)

theorem getD {o : Option State} (a : ∀ p ∈ o, s₀.Reaches p) (b : s₀.Reaches u) : s₀.Reaches (o.getD u) := by
  cases o with
  | none => exact b
  | some v => exact a v rfl

theorem foldl {α : Type} {f : State → α → State} {l : List α} (h : s₀.Reaches s) (each : ∀ s, s₀.Reaches s → ∀ x, s₀.Reaches (f s x)) :
    s₀.Reaches (l.foldl f s) := by
  induction l generalizing s with
  | nil => exact h
  | cons x l ih => exact ih (each s h x)

/-- A fold whose accumulator holds a state. -/
theorem foldlOn {α β : Type} (g : β → State) {f : β → α → β} {l : List α} {b : β} (h : s₀.Reaches (g b))
    (each : ∀ b x, s₀.Reaches (g b) → s₀.Reaches (g (f b x))) :
    s₀.Reaches (g (l.foldl f b)) := by
  induction l generalizing b with
  | nil => exact h
  | cons x l ih => exact ih (each b x h)

theorem foldlSnd {α β : Type} {f : β × State → α → β × State} {l : List α} {b : β × State} (h : s₀.Reaches b.2)
    (each : ∀ b x, s₀.Reaches b.2 → s₀.Reaches (f b x).2) : s₀.Reaches (l.foldl f b).2 := foldlOn Prod.snd h each

theorem foldlFst {α β : Type} {f : State × β → α → State × β} {l : List α} {b : State × β} (h : s₀.Reaches b.1)
    (each : ∀ b x, s₀.Reaches b.1 → s₀.Reaches (f b x).1) : s₀.Reaches (l.foldl f b).1 := foldlOn Prod.fst h each

theorem foldlThird {α β γ : Type} {f : β × γ × State → α → β × γ × State} {l : List α} {b : β × γ × State} (h : s₀.Reaches b.2.2)
    (each : ∀ b x, s₀.Reaches b.2.2 → s₀.Reaches (f b x).2.2) : s₀.Reaches (l.foldl f b).2.2 :=
  foldlOn (fun p : β × γ × State => p.2.2) h each

theorem foldlMid {α β γ : Type} {f : β × State × γ → α → β × State × γ} {l : List α} {b : β × State × γ} (h : s₀.Reaches b.2.1)
    (each : ∀ b x, s₀.Reaches b.2.1 → s₀.Reaches (f b x).2.1) : s₀.Reaches (l.foldl f b).2.1 :=
  foldlOn (fun p : β × State × γ => p.2.1) h each

/-- The state of a pair that is known. -/
theorem of_snd {α : Type} {p : α × State} {a : α} (h : s₀.Reaches p.2) (e : p = (a, u)) : s₀.Reaches u := by
  rwa [e] at h

theorem of_third {α β : Type} {p : α × β × State} {a : α} {b : β} (h : s₀.Reaches p.2.2) (e : p = (a, b, u)) : s₀.Reaches u := by
  rwa [e] at h

/-! ### Memory, messages and free values -/

/-- A change of memory, tags or symbols in error alone. -/
theorem memory (h : s₀.Reaches s) (canonical : s.Canonical → u.Canonical) (cursor : u.kp.fab.cursor = s.kp.fab.cursor) (sent : u.sent = s.sent)
    (pending : u.pending = s.pending) (freeCtr : u.freeCtr = s.freeCtr) : s₀.Reaches u :=
  ⟨fun was => canonical (h.canonical was), fun was => by rw [cursor, sent]; exact h.packed was,
    pending.trans h.pending, sent ▸ h.sent, freeCtr ▸ h.freeCtr⟩

theorem setCores {m} (h : s₀.Reaches s) : s₀.Reaches { s with cores := m } := h.same

theorem setLmap {m} (h : s₀.Reaches s) : s₀.Reaches { s with lmap := m } := h.same

theorem emptied (h : s₀.Reaches s) : s₀.Reaches { s with mem := [], tags := [], bad := [], cores := [], dmas := [] } :=
  h.memory (fun _ => ⟨rfl, rfl, rfl⟩) rfl rfl rfl rfl

theorem setTuW1 {m} (h : s₀.Reaches s) : s₀.Reaches { s with tuW1 := m } := h.same

theorem clearBinds {w m} (h : s₀.Reaches s) : s₀.Reaches { s with tuW1 := w, regs := m } := h.same

theorem setRegs {m} (h : s₀.Reaches s) : s₀.Reaches { s with regs := m } := h.same

theorem setByte {a b} (h : s₀.Reaches s) : s₀.Reaches (s.setByte a b) := h.memory (s.setByte_canonical a b) rfl rfl rfl rfl

theorem setTag {a t} (h : s₀.Reaches s) : s₀.Reaches (s.setTag a t) := h.memory (s.setTag_canonical a t) rfl rfl rfl rfl

theorem setPat {a p} (h : s₀.Reaches s) : s₀.Reaches (s.setPat a p) := h.memory (s.setPat_canonical a p) rfl rfl rfl rfl

theorem initBytes {a n} (h : s₀.Reaches s) : s₀.Reaches (s.initBytes a n) :=
  h.memory (s.initBytes_canonical a n) rfl rfl rfl rfl

theorem writeLE {a n v} (h : s₀.Reaches s) : s₀.Reaches (s.writeLE a n v) := by
  induction n generalizing s a v with
  | zero => exact h
  | succ n ih => exact ih h.setByte

theorem writeMask {a n m v} (h : s₀.Reaches s) : s₀.Reaches (s.writeMask a n m v) := by
  induction n generalizing s a m v with
  | zero => exact h
  | succ n ih => exact ih (.ite h.setByte h)

theorem writeBytes {a l} (h : s₀.Reaches s) : s₀.Reaches (s.writeBytes a l) := by
  induction l generalizing s a with
  | nil => exact h
  | cons b l ih => exact ih h.setByte

theorem send {k l} (h : s₀.Reaches s) : s₀.Reaches (s.send k l) :=
  ⟨h.canonical, fun was => (h.packed was).trans (by simp [State.send]), h.pending, h.sent.trans (List.prefix_append ..), h.freeCtr⟩

/-- Free values are taken. -/
theorem taken {n : Nat} (h : s₀.Reaches s) : s₀.Reaches { s with freeCtr := s.freeCtr + n } :=
  ⟨h.canonical, h.packed, h.pending, h.sent, h.freeCtr.trans (Nat.le_add_right ..)⟩

theorem free (h : s₀.Reaches s) : s₀.Reaches s.free.2 := h.taken

end State.Reaches
end Sys2Proof.Machine
end

section
/-! SUPPORT for O59. What operations keep: registers, lines, fills and the Keeper. -/
namespace Sys2Proof.Machine
namespace State.Reaches

variable {s₀ s u : State}

-- One thread elaborates these theorems: many at once hold many stacks.
set_option Elab.async false

/-! ### Sys2Proof/Machine/Base.lean -/

theorem setReg {r u i w} (h : s₀.Reaches s) : s₀.Reaches (s.setReg r u i w) := h.same

theorem setFld {f u i v k} (h : s₀.Reaches s) : s₀.Reaches (s.setFld f u i v k) := h.setReg

theorem bump {f u i n} (h : s₀.Reaches s) : s₀.Reaches (s.bump f u i n) := h.setFld

theorem bumpWrap {f u i n} (h : s₀.Reaches s) : s₀.Reaches (s.bumpWrap f u i n) := h.setFld

theorem resetRegs {b u} (h : s₀.Reaches s) : s₀.Reaches (s.resetRegs b u) := h.same

theorem setCore {c k} (h : s₀.Reaches s) : s₀.Reaches (s.setCore c k) := h.same

theorem setThr {c t h'} (h : s₀.Reaches s) : s₀.Reaches (s.setThr c t h') := h.setCore

theorem setTf {f c t v i} (h : s₀.Reaches s) : s₀.Reaches (s.setTf f c t v i) := h.setFld

theorem setTreg {r c t w} (h : s₀.Reaches s) : s₀.Reaches (s.setTreg r c t w) := h.setReg

theorem flipWord {a p} (h : s₀.Reaches s) : s₀.Reaches (s.flipWord a p) := by
  unfold State.flipWord
  extract_lets _ s1 _
  have h1 : s₀.Reaches s1 := h.foldl (fun _ h _ => h.setByte)
  exact .ite h1 (h1.foldl (fun _ h _ => h.setTag))

theorem asRead {a} (h : s₀.Reaches s) : s₀.Reaches (s.asRead a) := by
  unfold State.asRead
  split
  exacts [h, .ite h h.flipWord.setPat, .ite h h.flipWord.setPat]

theorem boundaryCount {n f} (h : s₀.Reaches s) : s₀.Reaches (s.boundaryCount n f) := .ite h.free.bump h.bump

theorem inward {c f} (h : s₀.Reaches s) (hf : ∀ (u : State), s₀.Reaches u → s₀.Reaches (f u)) : s₀.Reaches (s.inward c f) :=
  .ite (hf _ h) (.ite h.bump h.boundaryCount)

/-! ### Sys2Proof/Machine/InFlight.lean -/

theorem settle {c} (h : s₀.Reaches s) : s₀.Reaches (s.settle c) := h.setCore.foldl (fun _ h _ => h.send)

theorem depart {c key a n parts msg} (h : s₀.Reaches s) : s₀.Reaches (s.depart c key a n parts msg) := by
  unfold State.depart
  extract_lets _
  split
  · exact h.send
  · extract_lets _
    exact .ite h.setCore.settle (.ite h.setCore h.setCore.send)

theorem holdPlace {c key a n} (h : s₀.Reaches s) : s₀.Reaches (s.holdPlace c key a n) := by
  unfold State.holdPlace
  split
  exacts [h, h.setCore]

theorem dropPlace {c key} (h : s₀.Reaches s) : s₀.Reaches (s.dropPlace c key) := .ite h.setCore.settle h

theorem landAccess {c key p} (h : s₀.Reaches s) : s₀.Reaches (s.landAccess c key p) := by
  unfold State.landAccess
  extract_lets _
  split
  · exact h
  · extract_lets _
    exact .ite h.setCore.settle h.setCore

/-! ### Sys2Proof/Machine/Cache.lean -/

theorem writeBack {c e t} (h : s₀.Reaches s) : s₀.Reaches (s.writeBack c e t) := .ite h h.setCore.depart

theorem setCache {c l} (h : s₀.Reaches s) : s₀.Reaches (s.setCache c l) := h.setCore

theorem putEntry {c e} (h : s₀.Reaches s) : s₀.Reaches (s.putEntry c e) := h.setCache

theorem evict {c e} (h : s₀.Reaches s) : s₀.Reaches (s.evict c e) := h.writeBack.setCore

theorem purgeKeeper {c w line} (h : s₀.Reaches s) : s₀.Reaches (s.purgeKeeper c w line) := by
  unfold State.purgeKeeper
  split
  · exact h
  · extract_lets s1 _
    have h1 : s₀.Reaches s1 := by
      unfold s1
      split
      exacts [.ite h.evict h, h]
    exact h1.setCore

theorem allocate {c line world} (h : s₀.Reaches s) : ∀ p ∈ s.allocate c line world, s₀.Reaches p.2 := by
  unfold State.allocate
  split
  · exact .mem_some h
  · extract_lets _
    split
    · exact .mem_some h
    · split
      exacts [.mem_some h.evict, .mem_none]

theorem sideMove {c w line} (h : s₀.Reaches s) : s₀.Reaches (s.sideMove c w line) := by
  unfold State.sideMove
  split
  · exact h
  · split
    · exact h
    · next s1 e =>
      have h1 : s₀.Reaches s1 := h.allocate _ e
      extract_lets _
      exact h1.setCore.putEntry

theorem startFill {c t e a} (h : s₀.Reaches s) : s₀.Reaches (s.startFill c t e a).2 := by
  unfold State.startFill
  extract_lets _ s1
  have h1 : s₀.Reaches s1 := h.setCore
  exact h1.putEntry.depart

theorem flushEntries {c t f} (h : s₀.Reaches s) : s₀.Reaches (s.flushEntries c t f) := (h.foldl (fun _ h _ => h.writeBack)).setCache

theorem invalidate {c f g} (h : s₀.Reaches s) : s₀.Reaches (s.invalidate c f g) := h.setCore

theorem cinvAll {c} (h : s₀.Reaches s) : s₀.Reaches (s.cinvAll c) := h.invalidate

theorem bypassFlush {c a n} (h : s₀.Reaches s) : s₀.Reaches (s.bypassFlush c a n) := h.flushEntries

theorem bypassGo {c a n write} (h : s₀.Reaches s) : s₀.Reaches (s.bypassGo c a n write) := .ite h.invalidate h

theorem bypass {c a n write} (h : s₀.Reaches s) : s₀.Reaches (s.bypass c a n write) := h.bypassFlush.bypassGo

theorem emptyCache {c} (h : s₀.Reaches s) : s₀.Reaches (s.emptyCache c) := h.flushEntries.setCore.invalidate

/-! ### Sys2Proof/Machine/StateRegs.lean -/

theorem afterGets {c t r} (h : s₀.Reaches s) : s₀.Reaches (s.afterGets c t r) := by
  unfold State.afterGets
  split
  exacts [.ite h.setCore h.setFld, h]

theorem ready {c t} (h : s₀.Reaches s) : s₀.Reaches (s.ready c t) := h.setThr

theorem cacheOffDone {c} (h : s₀.Reaches s) : s₀.Reaches (s.cacheOffDone c) := .ite h (h.foldl (fun _ h _ => .ite h.ready h))

theorem sets {c t w r i v} (h : s₀.Reaches s) : s₀.Reaches (s.sets c t w r i v) := by
  unfold State.sets
  extract_lets _ _ generic _ _ _ _ _ s1 _ _ _ _ _ _ s1'
  have hgeneric : s₀.Reaches generic := h.setReg
  have h1 : s₀.Reaches s1 := .ite h.setFld h
  have hs1' : s₀.Reaches s1' := h.setReg
  split
  exacts [h.setReg, .ite h1.setFld h1, hgeneric.setThr, h.setReg, h.setFld, h.setTf, h.foldl (fun _ h _ => .ite h.setThr h), .ite h h.setCore,
    .ite (.ite hs1'.emptyCache.cacheOffDone hs1') h, h.setReg, h, h, h, h, h, h, h, hgeneric]

theorem setRow {c tile r f valid} (h : s₀.Reaches s) : s₀.Reaches (s.setRow c tile r f valid) := h.setCore

theorem landOne {c t f} (h : s₀.Reaches s) : s₀.Reaches (s.landOne c t f) := by
  unfold State.landOne
  extract_lets _ _
  split
  · exact h.setThr
  · exact h.setThr
  · exact h.setThr
  · exact h.setThr
  · split
    · extract_lets s1 _ _
      have h1 : s₀.Reaches s1 := h.sets
      exact .ite h1.setThr h1
    · exact h
  · exact h.setRow
  · exact h.setRow
  · exact h.setTreg
  · exact .ite h.setThr h

theorem landList {c t l} (h : s₀.Reaches s) : s₀.Reaches (s.landList c t l) := by
  induction l generalizing s with
  | nil => exact h
  | cons f l ih => exact ih h.landOne

theorem landDue {c t now} (h : s₀.Reaches s) : s₀.Reaches (s.landDue c t now) := h.setThr.landList

theorem landAll {c t} (h : s₀.Reaches s) : s₀.Reaches (s.landAll c t) := h.setThr.landList

theorem fly {c t d v dist} (h : s₀.Reaches s) : s₀.Reaches (s.fly c t d v dist) := h.setThr

/-! ### Sys2Proof/Machine/Keeper.lean -/

/-- The Keeper's state is replaced by one that has packed as much. -/
theorem setKp {k} (h : s₀.Reaches s) (e : k.fab.cursor = s.kp.fab.cursor := by rfl) : s₀.Reaches (s.setKp k) :=
  h.same (by simp only [State.kept, State.setKp, e])

/-- The Keeper's state is replaced by one made from that of an earlier state. -/
theorem setKpOf {k} (h : s₀.Reaches s) (kp : s.kp = u.kp) (e : k.fab.cursor = u.kp.fab.cursor := by rfl) : s₀.Reaches (s.setKp k) :=
  h.setKp (kp ▸ e)

theorem setFldModReset {f u i v k m} (h : s₀.Reaches s) : s₀.Reaches ((s.setFld f u i v k).setKp { s.kp with modReset := m }) :=
  h.setFld.setKpOf (s.setFld_kp ..)

theorem platformEvent {cls kind data} (h : s₀.Reaches s) : s₀.Reaches (s.platformEvent cls kind data) := by
  unfold State.platformEvent
  extract_lets s1 _ _ _
  have h1 : s₀.Reaches s1 := h.send
  exact .ite h1.setKp.send (.ite h1.setKp h1)

theorem mgmtAnswer {src b} (h : s₀.Reaches s) : s₀.Reaches (s.mgmtAnswer src b) := by
  unfold State.mgmtAnswer
  extract_lets _ _ s1
  have h1 : s₀.Reaches s1 := by
    unfold s1
    split
    exacts [h.setKp, h]
  exact h1.send

theorem measured {idx digest} (h : s₀.Reaches s) : s₀.Reaches (s.measured idx digest) := h.platformEvent

theorem measuredFree {idx} (h : s₀.Reaches s) : s₀.Reaches (s.measuredFree idx) := h.free.measured

theorem setFirm {x} (h : s₀.Reaches s) : s₀.Reaches (s.setFirm x) := h.setKp

theorem loadKeeper {l} (h : s₀.Reaches s) : s₀.Reaches (s.loadKeeper l) := h.foldl (fun _ h _ => h.setCore)

theorem updateBlock {m cores} (h : s₀.Reaches s) : s₀.Reaches (s.updateBlock m cores) := .ite h h.loadKeeper.setFirm.setFld.measuredFree

theorem fwRevert (h : s₀.Reaches s) : s₀.Reaches s.fwRevert := by
  unfold State.fwRevert
  extract_lets _ _ _ _ s1 s2 s3
  have h1 : s₀.Reaches s1 := h.setFirm
  have h2 : s₀.Reaches s2 := h1.setFld.setFld.setFld
  have h3 : s₀.Reaches s3 := h2.setFld.setFld
  exact .ite h3.setFld.setFld h3

theorem setHang {h'} (h : s₀.Reaches s) : s₀.Reaches (s.setHang h') := h.setKp

theorem dumpBegun (h : s₀.Reaches s) : s₀.Reaches s.dumpBegun := by
  unfold State.dumpBegun
  split
  exacts [h.mgmtAnswer, h]

theorem askDump {d} (h : s₀.Reaches s) : s₀.Reaches (s.askDump d) := .ite h.setHang.setFld.dumpBegun h.setHang

theorem setRep {x} (h : s₀.Reaches s) : s₀.Reaches (s.setRep x) := h.setKp

theorem dbgLock (h : s₀.Reaches s) : s₀.Reaches s.dbgLock := .ite h h.setFld.setFld.measuredFree

theorem newNonce (h : s₀.Reaches s) : s₀.Reaches s.newNonce := h.free.setReg.setReg

theorem loopStop {l} (h : s₀.Reaches s) : s₀.Reaches (s.loopStop l) := h.foldl (fun _ h _ => .ite h.setFld h)

theorem nvmeCmd {op lba n v} (h : s₀.Reaches s) : s₀.Reaches (s.nvmeCmd op lba n v).2 := by
  unfold State.nvmeCmd
  extract_lets _ _
  exact h.setKp.send

theorem rackIntervals (h : s₀.Reaches s) : s₀.Reaches s.rackIntervals := h.foldl (fun _ h _ => .ite h h.setFld)

theorem rackFail (h : s₀.Reaches s) : s₀.Reaches s.rackFail := h.bump.setKp.rackIntervals

theorem faultRec {cls act plot det loc} (h : s₀.Reaches s) : s₀.Reaches (s.faultRec cls act plot det loc) := by
  unfold State.faultRec
  extract_lets _ _ _ put s1 s2 _ s3 _ _ s3' s4
  have hput : ∀ (r : RegName) (k : ℕ) (s : State), s₀.Reaches s → s₀.Reaches (put r k s) := fun _ _ _ h => h.setReg
  have h1 : s₀.Reaches s1 := hput _ _ _ (hput _ _ _ (hput _ _ _ (hput _ _ _ h)))
  have h2 : s₀.Reaches s2 := h1.bumpWrap.bumpWrap
  have h3 : s₀.Reaches s3 := h2.setKp.platformEvent
  have hs3' : s₀.Reaches s3' := .ite h3.setKp h3
  have h4 : s₀.Reaches s4 := .ite hs3'.rackFail hs3'
  exact .ite h4.askDump (.ite h4.askDump h4)

theorem tellManager {args} (h : s₀.Reaches s) : s₀.Reaches (s.tellManager args) := h.send

end State.Reaches
end Sys2Proof.Machine
end

section
/-! SUPPORT for O59. What operations keep: words: access, memory and synchronisation. -/
namespace Sys2Proof.Machine
namespace State.Reaches

variable {s₀ s u : State}

-- One thread elaborates these theorems: many at once hold many stacks.
set_option Elab.async false

/-! ### Sys2Proof/Machine/Ops.lean -/

theorem restoreCtx {c t x} (h : s₀.Reaches s) : s₀.Reaches (s.restoreCtx c t x) := h.setThr.setTf

theorem undoSlot {c t} (h : s₀.Reaches s) : s₀.Reaches (s.undoSlot c t).2 := by
  unfold State.undoSlot
  extract_lets _
  split
  exacts [h, h.setThr.setTf]

theorem enter {c t vec det addr status thread} (h : s₀.Reaches s) : s₀.Reaches (s.enter c t vec det addr status thread) := by
  unfold State.enter
  extract_lets s1 u s2 _ _ _ s3 s4 s5 s6 s7 s8 _ _
  have h1 : s₀.Reaches s1 := h.landAll
  have hu : s₀.Reaches u.2 := h1.undoSlot
  have h2 : s₀.Reaches s2 := hu
  have h3 : s₀.Reaches s3 := h2.setTreg
  have h4 : s₀.Reaches s4 := h3.setTreg
  have h5 : s₀.Reaches s5 := h4.setTreg
  have h6 : s₀.Reaches s6 := h5.setTreg.setTreg
  have h7 : s₀.Reaches s7 := h6.setTf.setTf.setTf
  have h8 : s₀.Reaches s8 := .ite h7.setTf h7
  exact h8.setThr

theorem stopDone {c k} (h : s₀.Reaches s) : s₀.Reaches (s.stopDone c k) := h.foldl (fun _ h _ => .ite h.setThr h)

theorem suspendNotice {c k w vec det addr status} (h : s₀.Reaches s) : s₀.Reaches (s.suspendNotice c k w vec det addr status) := by
  unfold State.suspendNotice
  extract_lets u s1 _ s2 s3 s4 _ s5 _ _ _ _
  have hu : s₀.Reaches u.2 := h.landAll.undoSlot
  have h1 : s₀.Reaches s1 := hu
  have h2 : s₀.Reaches s2 := h1.setTreg
  have h3 : s₀.Reaches s3 := h2.setTreg
  have h4 : s₀.Reaches s4 := h3.setTreg
  have h5 : s₀.Reaches s5 := h4.setThr.stopDone
  exact .ite (.ite h5.setCore h5.setCore) (.ite h5.setCore h5.send)

theorem raise {c t vec det addr status} (h : s₀.Reaches s) : s₀.Reaches (s.raise c t vec det addr status) := by
  unfold State.raise
  extract_lets _ _
  exact .ite h.suspendNotice (.ite h.suspendNotice (.ite h.suspendNotice (.ite (.ite h.enter h.suspendNotice) h.enter)))

theorem rfe {c t} (h : s₀.Reaches s) : s₀.Reaches (s.rfe c t) := .ite h.setTreg.setTreg.landAll.setThr h.setTreg.setTf.setThr

theorem abandon {c t ends} (h : s₀.Reaches s) : s₀.Reaches (s.abandon c t ends) := by
  unfold State.abandon
  extract_lets _ s1 s2 _
  have h1 : s₀.Reaches s1 := by
    unfold s1
    split
    exacts [.ite h.send h, h]
  have h2 : s₀.Reaches s2 := .ite h1 h1.restoreCtx
  exact h2.setThr

theorem loopEnd {c t w next k} (h : s₀.Reaches s) : s₀.Reaches (s.loopEnd c t w next k).2 := by
  induction k generalizing s with
  | zero => exact h
  | succ k ih =>
    unfold State.loopEnd
    extract_lets _ _ _
    split
    · split
      exacts [h.setThr, ih h.setThr.setTf]
    · exact ih h

theorem advanceTo {c t pc next loops} (h : s₀.Reaches s) : s₀.Reaches (s.advanceTo c t pc next loops) := by
  unfold State.advanceTo
  extract_lets _ _ r _
  have hr : s₀.Reaches r.2 := by
    unfold r
    split
    · exact h
    · split
      exacts [h.loopEnd, h]
  exact hr.setThr

theorem advance {c t pc loops} (h : s₀.Reaches s) : s₀.Reaches (s.advance c t pc loops) := h.advanceTo

theorem halt {c t cause} (h : s₀.Reaches s) : s₀.Reaches (s.halt c t cause) := h.landAll.setTf.setThr

theorem stepHalt {c t} (h : s₀.Reaches s) : s₀.Reaches (s.stepHalt c t) := by
  unfold State.stepHalt
  extract_lets _
  split
  · split
    exacts [h.halt, h.halt, h.setThr, h.setThr]
  · exact h

theorem debugStop {c t cause act addr} (h : s₀.Reaches s) : s₀.Reaches (s.debugStop c t cause act addr) := .ite h.setTf.raise h.halt

theorem finish {c t s2 f} (h : s₀.Reaches s) (h2 : s₀.Reaches s2) (hf : f.From s₀) : s₀.Reaches (s.finish c t s2 f) := by
  cases hf with
  | exc => exact h2.raise.stepHalt
  | done h4 => exact h4.advance.stepHalt
  | branch h4 => exact h4.setThr.stepHalt
  | goto h4 => exact h4.advanceTo.stepHalt
  | hold h4 => exact .ite h4 h4.stepHalt
  | again h4 => exact h4

theorem outX {c t n v d} (h : s₀.Reaches s) : s₀.Reaches (s.outX c t n v d) := h.fly

theorem outP {c t n v d} (h : s₀.Reaches s) : s₀.Reaches (s.outP c t n v d) := h.fly

theorem supOnly {c t k} (h : s₀.Reaches s) (hk : Fx.From s₀ k) : Fx.From s₀ (s.supOnly c t k) := by
  unfold State.supOnly
  split
  exacts [.exc, hk]

/-! ### Sys2Proof/Machine/Access.lean -/

theorem countErr {n off} (h : s₀.Reaches s) : s₀.Reaches (s.countErr n off) := by
  unfold State.countErr
  extract_lets _ _ _ _ _
  split
  exacts [h, h.setReg, h.setReg]

theorem reportFinding {f cls plot a} (h : s₀.Reaches s) : s₀.Reaches (s.reportFinding f cls plot a) := by
  unfold State.reportFinding
  split
  · exact h
  · extract_lets q
    have hq : s₀.Reaches q.2 := h.free
    exact .ite hq.faultRec hq
  · exact h.faultRec

theorem bankFinding {n off} (h : s₀.Reaches s) : s₀.Reaches (s.bankFinding n off) := h.countErr.reportFinding

theorem dueBack {n off} (h : s₀.Reaches s) : s₀.Reaches (s.dueBack n off) := .ite h h.setCore

theorem readWord {n off} (h : s₀.Reaches s) : s₀.Reaches (s.readWord n off) := by
  unfold State.readWord
  extract_lets _
  split
  · exact h
  · split
    exacts [h.asRead.bankFinding.dueBack, h.asRead]

theorem wroteWord {n off} (h : s₀.Reaches s) : s₀.Reaches (s.wroteWord n off) := h.setPat.setCore

theorem foundBad {core off n} (h : s₀.Reaches s) : s₀.Reaches (s.foundBad core off n) := h.bankFinding

theorem readWords {core off n} (h : s₀.Reaches s) : s₀.Reaches (s.readWords core off n) := h.foldl (fun _ h _ => h.readWord)

theorem bankRead {core off n} (h : s₀.Reaches s) : s₀.Reaches (s.bankRead core off n).2 := by
  unfold State.bankRead
  extract_lets _ s1
  have h1 : s₀.Reaches s1 := h.readWords
  split
  exacts [h.foundBad, h1]

theorem bankPut {core off n mask v} (h : s₀.Reaches s) : s₀.Reaches (s.bankPut core off n mask v) := h.writeMask.foldl (fun _ h _ => h.wroteWord)

theorem tagWord {core off t} (h : s₀.Reaches s) : s₀.Reaches (s.tagWord core off t) := .ite h.bankFinding h.readWord.wroteWord.setTag

theorem bankWrite {core off n mask v} (h : s₀.Reaches s) : s₀.Reaches (s.bankWrite core off n mask v).2 := by
  unfold State.bankWrite
  split
  exacts [h.foundBad, h.readWords.bankPut]

theorem tagRead {n} (h : s₀.Reaches s) : s₀.Reaches (s.tagRead n) := .ite h.setReg (.ite h.bankFinding.setReg h.readWord.setReg)

theorem probe {c t} (h : s₀.Reaches s) : s₀.Reaches (s.probe c t) := .ite h.bump h

theorem regRead {s0 p r w} (h0 : s₀.Reaches s0) : s₀.Reaches (s0.regRead p r w).2 := by
  unfold State.regRead
  extract_lets s _ _
  have h : s₀.Reaches s := .ite h0.tagRead h0
  exact .ite h h.setReg

theorem mmrRead {p w n} (h : s₀.Reaches s) : s₀.Reaches (s.mmrRead p w n).2 := by
  unfold State.mmrRead
  split
  · exact h
  · extract_lets lo
    have hlo : s₀.Reaches lo.2 := h.regRead
    split
    · exact hlo
    · extract_lets hi
      have hhi : s₀.Reaches hi.2 := hlo.regRead
      exact hhi

theorem probeLoad {c t p} (h : s₀.Reaches s) : s₀.Reaches (s.probeLoad c t p) := by
  unfold State.probeLoad
  split
  exacts [.ite h.probe h, h]

theorem noteWrite {c t p} (h : s₀.Reaches s) : s₀.Reaches (s.noteWrite c t p) := .ite h h.setThr

theorem waitOn {c t w} (h : s₀.Reaches s) : s₀.Reaches (s.waitOn c t w) := h.setThr

theorem txWait {c t a write} (h : s₀.Reaches s) : s₀.Reaches (s.txWait c t a write) := h.same.waitOn

theorem afterFlush {c t a n k} (h : s₀.Reaches s) (hk : ∀ (u : State), s₀.Reaches u → Fx.From s₀ (k u)) : Fx.From s₀ (s.afterFlush c t a n k) := by
  unfold State.afterFlush
  split
  exacts [.hold h.bypassFlush.waitOn, hk _ h]

theorem failWord {c t vec det a status} (h : s₀.Reaches s) : s₀.Reaches (s.failWord c t vec det a status) := h.restoreCtx.ready.raise

theorem sleepOn {c t w} (h : s₀.Reaches s) : s₀.Reaches (s.sleepOn c t w) := h.setThr

theorem checkPlace {c t a n write p} (h : s₀.Reaches s) : Chk.From s₀ (s.checkPlace c t a n write p) := by
  rw [show State.checkPlace = _ by delta State.checkPlace; rfl]
  obtain ⟨mmrCh, is_mmrCh⟩ : ∃ f, f = @State.mmrCheck := ⟨_, rfl⟩
  rw [← is_mmrCh]
  extract_lets _
  split
  · exact .bad .exc
  · exact .bad .exc
  · split
    · exact .bad .exc
    · split
      · exact .bad .exc
      · split
        · exact .bad .exc
        · split
          exacts [.bad (.again h), .ok]
  · split
    exacts [.bad .exc, .ok]
  · split
    exacts [.bad .exc, .ok]
  · split
    exacts [.bad .exc, .ok]
  · exact .ok

theorem check {c t a n aligned write read} (h : s₀.Reaches s) : Chk.From s₀ (s.check c t a n aligned write read) := by
  unfold State.check
  split
  · exact .bad .exc
  · split
    · exact .bad .exc
    · exact .bad (.hold h.txWait)
    · split
      · exact .bad .exc
      · split
        · exact .bad (.hold h.debugStop)
        · split
          · split
            exacts [.bad (.again h), .ok]
          · split
            exacts [.ok, h.checkPlace]

theorem loadFault {c t a} (h : s₀.Reaches s) : Fx.From s₀ (s.loadFault c t a) := .hold h.setTf.setTf.raise

theorem deliverFill {c fid bad status} (h : s₀.Reaches s) : s₀.Reaches (s.deliverFill c fid bad status) := by
  unfold State.deliverFill
  split
  · exact h
  · exact h.foldl (fun _ h _ => by
      extract_lets _
      split
      · exact h
      · split
        · extract_lets _
          exact .ite h (.ite h.failWord (.ite h.landOne.ready h))
        · exact .ite h.failWord h
        · exact h)

theorem cacheLoad {c t a n dest d} (h : s₀.Reaches s) : Fx.From s₀ (s.cacheLoad c t a n dest d) := by
  unfold State.cacheLoad
  extract_lets _ _ _ s0 full miss fill s1
  have h0 : s₀.Reaches s0 := h.purgeKeeper
  have hfull : ∀ (s : State), s₀.Reaches s → Fx.From s₀ (full s) := fun _ h => .hold h.waitOn
  have hmiss : ∀ (s : State), s₀.Reaches s → s₀.Reaches (miss s) := fun _ h => h.bumpWrap
  have hfill : ∀ (e : CEntry) (s : State), s₀.Reaches s → Fx.From s₀ (fill e s) := fun _ _ h => .done (hmiss _ h).startFill.waitOn
  have h1 : s₀.Reaches s1 := h0.sideMove
  split
  · exact h.afterFlush (fun _ h => .done h.depart.waitOn)
  · split
    · exact hfull _ h0
    · split
      · split
        · exact .done h1.putEntry.bumpWrap.fly
        · split
          · split
            exacts [.done (hmiss _ h1).waitOn, hfull _ h1]
          · split
            exacts [hfull _ h1, hfill _ _ h1]
      · split
        · exact hfull _ h1
        · split
          · exact hfull _ h1
          · next e => exact hfill _ _ (h1.allocate _ e)

theorem cacheStore {c t a n v p} (h : s₀.Reaches s) : Fx.From s₀ (s.cacheStore c t a n v p) := by
  unfold State.cacheStore
  extract_lets _ _ _ s0 s1 _ _
  have h0 : s₀.Reaches s0 := h.purgeKeeper
  have h1 : s₀.Reaches s1 := h0.sideMove
  split
  · exact h.afterFlush (fun _ h => .done h.bypassGo.depart.noteWrite)
  · split
    · exact .hold h0.waitOn
    · split
      · exact .hold h1.waitOn
      · next s1 e =>
        have h1 : s₀.Reaches s1 := h1.allocate _ e
        extract_lets s3
        have h3 : s₀.Reaches s3 := .ite h1.bumpWrap h1.bumpWrap
        exact .done h3.putEntry.deliverFill

theorem mmrLoad {c t p n} (h : s₀.Reaches s) : s₀.Reaches (s.mmrLoad c t p n).2 := by
  unfold State.mmrLoad
  split
  exacts [h, h.mmrRead.probeLoad]

theorem load {c t a n dest d} (h : s₀.Reaches s) : Fx.From s₀ (s.load c t a n dest d) := by
  rw [show State.load = _ by delta State.load; rfl]
  obtain ⟨own, is_own⟩ : ∃ f, f = @Place.ownBank := ⟨_, rfl⟩
  rw [← is_own]
  have hread : ∀ (s : State), s₀.Reaches s → ∀ (core off n : ℕ), s₀.Reaches (s.bankRead core off n).2 := fun _ h _ _ _ => h.bankRead
  obtain ⟨read, is_read⟩ : ∃ f, f = @State.bankRead := ⟨_, rfl⟩
  rw [← is_read] at hread ⊢
  split
  · next e => exact h.check.of_bad e
  · split
    · split
      · next e1 => exact ((hread _ h _ _ _).of_snd e1).loadFault
      · next e1 => exact .done ((hread _ h _ _ _).of_snd e1).fly
    · split
      exacts [.done h.mmrLoad.depart.waitOn, h.cacheLoad]

theorem store {c t a n v} (h : s₀.Reaches s) : Fx.From s₀ (s.store c t a n v) := by
  unfold State.store
  split
  · next e => exact h.check.of_bad e
  · split
    · exact .done h.bankWrite
    · split
      · split
        exacts [.exc, .done h.depart.waitOn]
      · exact h.cacheStore

/-! ### Sys2Proof/Machine/Slots.lean -/

theorem mbPend {c t n} (h : s₀.Reaches s) : s₀.Reaches (s.mbPend c t n) := h.setThr

theorem mbArrive {c t n status v} (h : s₀.Reaches s) : s₀.Reaches (s.mbArrive c t n status v) := .ite h h.setThr

theorem mbNote {c t n m} (h : s₀.Reaches s) : s₀.Reaches (s.mbNote c t n m) := h.setThr

theorem mbRead {c t dest m v} (h : s₀.Reaches s) : s₀.Reaches (s.mbRead c t dest m v) := h.setThr.fly

theorem mbrd {c t dest m re} (h : s₀.Reaches s) : Fx.From s₀ (s.mbrd c t dest m re) := by
  unfold State.mbrd
  extract_lets _
  split
  exacts [.done h.mbRead, .hold h.sleepOn, .exc, .exc]

theorem mbwait {c t mask} (h : s₀.Reaches s) : Fx.From s₀ (s.mbwait c t mask) := by
  unfold State.mbwait
  extract_lets _
  split
  · exact .done h
  · split
    exacts [.exc, .hold h.sleepOn]

theorem slotMem {c t off n write f} (h : s₀.Reaches s) (hf : ∀ (u : State), s₀.Reaches u → s₀.Reaches (f u)) :
    SlotFx.From s₀ (s.slotMem c t off n write f) := by
  unfold State.slotMem
  extract_lets _
  split
  · exact .exc
  · split
    · exact .exc
    · split
      exacts [.held, .ok hf]

theorem slotLoad {c t off n d} (h : s₀.Reaches s) : s₀.Reaches (s.slotLoad c t off n d) := by
  rw [show State.slotLoad = _ by delta State.slotLoad; rfl]
  have hread : ∀ (s : State), s₀.Reaches s → ∀ (core off n : ℕ), s₀.Reaches (s.bankRead core off n).2 := fun _ h _ _ _ => h.bankRead
  obtain ⟨read, is_read⟩ : ∃ f, f = @State.bankRead := ⟨_, rfl⟩
  rw [← is_read] at hread ⊢
  split
  · next e => exact ((hread _ h _ _ _).of_snd e).fly
  · next e => exact (hread _ h _ _ _).of_snd e

theorem stackOp {c t v write f} (h : s₀.Reaches s) (hf : ∀ (u : State), s₀.Reaches u → s₀.Reaches (f u)) :
    SlotFx.From s₀ (s.stackOp c t v write f) := by
  unfold State.stackOp
  split
  exacts [.exc, h.slotMem hf]

theorem slotFx {c t sl x} (h : s₀.Reaches s) : SlotFx.From s₀ (s.slotFx c t sl x) := by
  unfold State.slotFx
  extract_lets _ _ _ _ _ _ _ _ _
  split
  · exact .ok (fun _ h => h)
  · split
    · exact .exc
    · split
      · exact .exc
      · split
        exacts [h.slotMem (fun _ h => h.slotLoad), h.slotMem (fun _ h => h.bankWrite)]
  · exact h.stackOp (fun _ h => h.slotLoad)
  · exact h.stackOp (fun _ h => h.bankWrite)
  · exact .ok (fun _ h => h.fly)
  · split
    · exact h.stackOp (fun _ h => h.bankWrite.fly)
    · exact h.stackOp (fun _ h => h.slotLoad.fly)
    · split
      exacts [.ok (fun _ h => h.mbRead), .wait, .exc, .exc]
  · exact .ok (fun _ h => h.fly)

theorem pairFx {c t w x} (h : s₀.Reaches s) : Fx.From s₀ (s.pairFx c t w x) := by
  unfold State.pairFx
  extract_lets _ _ sleep
  have hsleep : Fx.From s₀ sleep := .hold h.sleepOn
  split
  · split
    exacts [.exc, .exc]
  · exact .exc
  · exact .exc
  · exact .again h
  · exact .again h
  · exact hsleep
  · exact hsleep
  · next ef eg =>
    split
    · split
      exacts [h.foundBad.loadFault, .done (h.slotFx.of_ok eg _ (h.slotFx.of_ok ef _ h))]
    · exact .done (h.slotFx.of_ok eg _ (h.slotFx.of_ok ef _ h))

theorem mbWake {c t} (h : s₀.Reaches s) : s₀.Reaches (s.mbWake c t) := by
  unfold State.mbWake
  extract_lets _ up _
  have hup : s₀.Reaches up := h.setThr
  split
  · exact h
  · split
    exacts [.ite (hup.finish hup hup.mbrd) h, .ite (hup.finish hup (.done hup)) h, .ite h (hup.finish hup hup.pairFx), h]

theorem mbReply {c t n status v} (h : s₀.Reaches s) : s₀.Reaches (s.mbReply c t n status v) := h.mbArrive.mbWake

/-! ### Sys2Proof/Machine/Issue.lean -/

theorem wdogTick {c j d} (h : s₀.Reaches s) : s₀.Reaches (s.wdogTick c j d) := .ite h.setThr h

theorem passTo {c now} (h : s₀.Reaches s) : s₀.Reaches (s.passTo c now) := h.setCore.foldl (fun _ h _ => h.wdogTick.landDue.mbWake)

theorem tickIssue {c t} (h : s₀.Reaches s) : s₀.Reaches (s.tickIssue c t) := by
  unfold State.tickIssue
  exact h.setCore.passTo

theorem issue {c t guard enc ctl br body} (h : s₀.Reaches s) (hbody : ∀ (u : State), s₀.Reaches u → Fx.From s₀ (body u)) :
    s₀.Reaches (s.issue c t guard enc ctl br body) := by
  unfold State.issue
  split
  · exact h
  · extract_lets s1 _ s2 _ s3 _
    have h1 : s₀.Reaches s1 := h.tickIssue
    have h2 : s₀.Reaches s2 := h1.setThr
    have h3 : s₀.Reaches s3 := h2.setTf
    split
    · exact h2.raise
    · split
      · exact h2.debugStop
      · split
        exacts [h2.raise, .ite h3.setThr.raise (.ite h3.raise (.ite (.ite h3.setThr.stepHalt h3.advance.stepHalt) (h3.finish h2 (hbody _ h3))))]

/-! ### Sys2Proof/Machine/Scalar.lean -/

theorem word {c t g enc body} (h : s₀.Reaches s) (hbody : ∀ (u : State), s₀.Reaches u → Fx.From s₀ (body u)) :
    Res.From s₀ (s.word c t g enc body) := .next (h.issue hbody)

theorem alu {c t g a d f} (h : s₀.Reaches s) : Res.From s₀ (s.alu c t g a d f) := h.word (fun _ h => .done h.outX)

theorem cmpW {c t g enc a f} (h : s₀.Reaches s) : Res.From s₀ (s.cmpW c t g enc a f) := h.word (fun _ h => .done h.outP)

theorem execIntAddSub {c t sub w} (h : s₀.Reaches s) : Res.From s₀ (execIntAddSub c t sub w s) := h.alu

theorem execIntLogic {c t op w} (h : s₀.Reaches s) : Res.From s₀ (execIntLogic c t op w s) := h.alu

theorem execIntShift {c t op w} (h : s₀.Reaches s) : Res.From s₀ (execIntShift c t op w s) := h.alu

theorem execMul {c t w} (h : s₀.Reaches s) : Res.From s₀ (execMul c t w s) := h.alu

theorem execMulh {c t unsigned w} (h : s₀.Reaches s) : Res.From s₀ (execMulh c t unsigned w s) := h.alu

theorem execDiv {c t unsigned w} (h : s₀.Reaches s) : Res.From s₀ (execDiv c t unsigned w s) := h.alu

theorem execRem {c t unsigned w} (h : s₀.Reaches s) : Res.From s₀ (execRem c t unsigned w s) := h.alu

theorem execCmp {c t rel w} (h : s₀.Reaches s) : Res.From s₀ (execCmp c t rel w s) := h.cmpW

theorem execPredLogic {c t op w} (h : s₀.Reaches s) : Res.From s₀ (execPredLogic c t op w s) := h.cmpW

theorem execPnot {c t w} (h : s₀.Reaches s) : Res.From s₀ (execPnot c t w s) := h.cmpW

theorem execPset {c t w} (h : s₀.Reaches s) : Res.From s₀ (execPset c t w s) := h.cmpW

theorem execAddi {c t w} (h : s₀.Reaches s) : Res.From s₀ (execAddi c t w s) := h.alu

theorem execLogicImm {c t op w} (h : s₀.Reaches s) : Res.From s₀ (execLogicImm c t op w s) := h.alu

theorem execShiftImm {c t w} (h : s₀.Reaches s) : Res.From s₀ (execShiftImm c t w s) := h.word (fun _ h => .done h.outX)

theorem execCmpImm {c t w} (h : s₀.Reaches s) : Res.From s₀ (execCmpImm c t w s) := h.cmpW

theorem execLui {c t w} (h : s₀.Reaches s) : Res.From s₀ (execLui c t w s) := h.alu

theorem execLuh {c t w} (h : s₀.Reaches s) : Res.From s₀ (execLuh c t w s) := h.alu

/-! ### Sys2Proof/Machine/Memory.lean -/

theorem execLd {c t w} (h : s₀.Reaches s) : Res.From s₀ (execLd c t w s) := h.word (fun _ h => h.load)

theorem execLdw {c t w} (h : s₀.Reaches s) : Res.From s₀ (execLdw c t w s) := h.word (fun _ h => h.load)

theorem execLdb {c t w} (h : s₀.Reaches s) : Res.From s₀ (execLdb c t w s) := h.word (fun _ h => h.load)

theorem execSt {c t w} (h : s₀.Reaches s) : Res.From s₀ (execSt c t w s) := h.word (fun _ h => h.store)

theorem execStw {c t w} (h : s₀.Reaches s) : Res.From s₀ (execStw c t w s) := h.word (fun _ h => h.store)

theorem execStb {c t w} (h : s₀.Reaches s) : Res.From s₀ (execStb c t w s) := h.word (fun _ h => h.store)

theorem mbCached {c t a n m} (h : s₀.Reaches s) : Fx.From s₀ (s.mbCached c t a n m) := by
  unfold State.mbCached
  extract_lets remote _ _ s0 s1
  have hremote : ∀ (s : State), s₀.Reaches s → ∀ (k : State → State), (∀ (a : State),
    s₀.Reaches a → s₀.Reaches (k a)) → Fx.From s₀ (remote s k) := fun _ h _ hk => h.afterFlush (fun _ h => .done (hk _ h).mbPend.depart)
  have h0 : s₀.Reaches s0 := h.purgeKeeper
  have h1 : s₀.Reaches s1 := h0.sideMove
  split
  · exact hremote _ h _ (fun _ h => h)
  · split
    · exact .hold h0.waitOn
    · split
      · split
        · exact .done h1.putEntry.bumpWrap.mbPend.fly
        · split
          exacts [.hold h1.waitOn, hremote _ h1 _ (fun _ h => h.bumpWrap)]
      · exact hremote _ h1 _ (fun _ h => h.bumpWrap)

theorem execMbLoad {c t sz w} (h : s₀.Reaches s) : Res.From s₀ (execMbLoad c t sz w s) := by
  rw [show Machine.execMbLoad = _ by delta Machine.execMbLoad; rfl]
  obtain ⟨own, is_own⟩ : ∃ f, f = @Place.ownBank := ⟨_, rfl⟩
  rw [← is_own]
  have hread : ∀ (s : State), s₀.Reaches s → ∀ (core off n : ℕ), s₀.Reaches (s.bankRead core off n).2 := fun _ h _ _ _ => h.bankRead
  obtain ⟨read, is_read⟩ : ∃ f, f = @State.bankRead := ⟨_, rfl⟩
  rw [← is_read] at hread ⊢
  extract_lets _ _
  exact h.word (fun _ h => by
    extract_lets _
    split
    · exact .exc
    · split
      · next e => exact h.check.of_bad e
      · split
        · split
          · next e1 => exact .done ((hread _ h.mbPend _ _ _).of_snd e1).mbArrive
          · next e1 => exact .done ((hread _ h.mbPend _ _ _).of_snd e1).fly
        · split
          · extract_lets r s2
            have hr : s₀.Reaches r.2 := h.mbPend.mmrLoad
            have h2 : s₀.Reaches s2 := hr.depart
            refine .done ?_
            split
            exacts [h2.mbNote, h2]
          · exact h.mbCached)

theorem execMbrd {c t w} (h : s₀.Reaches s) : Res.From s₀ (execMbrd c t w s) := h.word (fun _ h => h.mbrd)

theorem execMbtst {c t w} (h : s₀.Reaches s) : Res.From s₀ (execMbtst c t w s) := h.word (fun _ h => .done h.probe.outP)

theorem execMbwait {c t w} (h : s₀.Reaches s) : Res.From s₀ (execMbwait c t w s) := h.word (fun _ h => h.mbwait)

theorem execMbset {c t w} (h : s₀.Reaches s) : Res.From s₀ (execMbset c t w s) := h.word (fun _ h => by
  split
  exacts [.exc, h.supOnly (.done h.setThr)])

/-! ### Sys2Proof/Machine/Sync.lean -/

theorem atomicBank {n off op a b} (h : s₀.Reaches s) : s₀.Reaches (s.atomicBank n off op a b).2 := by
  suffices ∀ q, q = s.atomicBank n off op a b → s₀.Reaches q.2 from this _ rfl
  rw [show State.atomicBank = _ by delta State.atomicBank; rfl]
  have hread : s₀.Reaches (s.bankRead n off 8).2 := h.bankRead
  obtain ⟨read, is_read⟩ : ∃ f, f = @State.bankRead := ⟨_, rfl⟩
  rw [← is_read] at hread ⊢
  rintro _ rfl
  split
  · next e => exact hread.of_snd e
  · next e => exact (hread.of_snd e).bankPut

theorem fireWatches {n off full} (h : s₀.Reaches s) : s₀.Reaches (s.fireWatches n off full) := h.setCore.foldl (fun _ h _ => h.send)

theorem armWatch {n off onFull who} (h : s₀.Reaches s) : s₀.Reaches (s.armWatch n off onFull who).2 := by
  unfold State.armWatch
  extract_lets _
  split
  exacts [h.bump, h.setCore]

theorem relCheck {n off scope src} (h : s₀.Reaches s) : s₀.Reaches (s.relCheck n off scope src) := .ite h h.bump.setReg.setReg

theorem feBank {s0 n off op data rel scope src who} (h0 : s₀.Reaches s0) : s₀.Reaches (s0.feBank n off op data rel scope src who).2 := by
  unfold State.feBank
  extract_lets _ s _ _ _ put
  have h : s₀.Reaches s := h0.readWord
  have hput : ∀ (f : Bool) (s : State),
    s₀.Reaches s → s₀.Reaches (put f s) := fun _ _ h => (Reaches.ite h.wroteWord.setTag.relCheck h.wroteWord.setTag).fireWatches
  split
  · exact h0.bankFinding
  · split
    · split
      exacts [h.wroteWord.setTag.fireWatches, h.armWatch]
    · split
      exacts [h, h.armWatch]
    · split
      exacts [h.armWatch, hput _ _ h.bankPut]
    · exact hput _ _ h.bankPut
    · exact hput _ _ h
    · split
      exacts [h, h.armWatch]

theorem acquire {c t a tag} (h : s₀.Reaches s) : s₀.Reaches (s.acquire c t a tag).2 := by
  unfold State.acquire
  extract_lets s1 s2 s3
  have h1 : s₀.Reaches s1 := h.cinvAll
  have h2 : s₀.Reaches s2 := h1.bump
  have h3 : s₀.Reaches s3 := h2.setReg
  split
  exacts [h1, h3.setReg]

theorem feDone {c t op dest a opt r} (h : s₀.Reaches s) : s₀.Reaches (s.feDone c t op dest a opt r) := by
  unfold State.feDone
  extract_lets s1 s2 q
  have h1 : s₀.Reaches s1 := .ite h.landOne h
  have h2 : s₀.Reaches s2 := h1.ready
  have hq : s₀.Reaches q.2 := h2.acquire
  exact .ite (.ite hq.raise hq) h2

theorem feOutcome {c t op dest a opt data r} (h : s₀.Reaches s) : s₀.Reaches (s.feOutcome c t op dest a opt data r) :=
  .ite h.feDone (.ite h.setThr h.restoreCtx.ready.raise)

theorem feMail {c t m op a opt r} (h : s₀.Reaches s) : s₀.Reaches (s.feMail c t m op a opt r) :=
  .ite h.mbNote (.ite (.ite h.mbArrive.acquire.setThr h.mbArrive.acquire) h.mbArrive)

theorem countAtomic {c t cnt} (h : s₀.Reaches s) : s₀.Reaches (s.countAtomic c t cnt) := .ite h.bump h

theorem atomic {c t op m w b} (h : s₀.Reaches s) : Fx.From s₀ (s.atomic c t op m w b) := by
  have hbank : ∀ off v, s₀.Reaches (s.atomicBank c off op v (b s)).2 := fun _ _ => h.atomicBank
  unfold State.atomic
  obtain ⟨bank, is_bank⟩ : ∃ f, f = @State.atomicBank := ⟨_, rfl⟩
  rw [← is_bank] at hbank ⊢
  extract_lets _ _ _ _
  split
  · exact .exc
  · split
    · exact .exc
    · split
      · next e => exact h.check.of_bad e
      · extract_lets own
        clear_value own
        split
        · split
          · next e =>
            extract_lets s2
            have h2 : s₀.Reaches s2 := ((hbank _ _).of_snd e).countAtomic
            split
            exacts [.done h2.mbPend.mbArrive, .done h2.fly]
          · next e =>
            have h1 := (hbank _ _).of_snd e
            split
            exacts [.done h1.mbPend.mbArrive, .hold h1.raise]
        · split
          · exact .hold h.waitOn
          · exact h.afterFlush (fun _ h => by
              extract_lets _ s1
              have h1 : s₀.Reaches s1 := h.bypassGo.noteWrite.depart
              split
              exacts [.done h1.mbPend.mbNote, .done h1.waitOn])

theorem execAadd {c t m w} (h : s₀.Reaches s) : Res.From s₀ (execAadd c t m w s) := h.word (fun _ h => h.atomic)

theorem execAmin {c t m w} (h : s₀.Reaches s) : Res.From s₀ (execAmin c t m w s) := h.word (fun _ h => h.atomic)

theorem execAmax {c t m w} (h : s₀.Reaches s) : Res.From s₀ (execAmax c t m w s) := h.word (fun _ h => h.atomic)

theorem execAswap {c t m w} (h : s₀.Reaches s) : Res.From s₀ (execAswap c t m w s) := h.word (fun _ h => h.atomic)

theorem execAcas {c t m w} (h : s₀.Reaches s) : Res.From s₀ (execAcas c t m w s) := h.word (fun _ h => h.atomic)

theorem feLeave {c t op a data opt m own id} (h : s₀.Reaches s) : s₀.Reaches (s.feLeave c t op a data opt m own id).2 := by
  unfold State.feLeave
  split
  exacts [h.feBank, h.bypass.depart]

theorem feApply {c t op dest a data opt m r} (h : s₀.Reaches s) : s₀.Reaches (s.feApply c t op dest a data opt m r) := by
  unfold State.feApply
  split
  exacts [h.feMail, .ite h h.feOutcome]

theorem feWord {c t op m w} (h : s₀.Reaches s) : Fx.From s₀ (s.feWord c t op m w) := by
  unfold State.feWord
  extract_lets _ _ _ _ _ _ noTags _ _ s1 wait
  have hnoTags : Fx.From s₀ noTags := by
    unfold noTags
    split
    · exact .done h.mbPend.mbArrive
    · split
      exacts [.done h, .exc]
  have h1 : s₀.Reaches s1 := by
    unfold s1
    split
    exacts [h.mbPend.mbNote, h]
  have hwait : ∀ (s : State), s₀.Reaches s → s₀.Reaches (wait s) := fun _ h => .ite h h.waitOn
  split
  · exact .exc
  · split
    · exact hnoTags
    · split
      · next e => exact h.check.of_bad e
      · split
        · exact hnoTags
        · extract_lets _ s2 _ s3 r
          have h2 : s₀.Reaches s2 := .ite h1.noteWrite h1
          have h3 : s₀.Reaches s3 := h2.setThr
          have hr : s₀.Reaches r.2 := h2.feLeave
          split
          · exact .hold h.waitOn
          · split
            · exact .hold h.bypassFlush.waitOn
            · split
              · exact .done (hwait _ (.ite h3 h3.holdPlace))
              · split
                · exact .done (hwait _ hr)
                · split
                  · refine .done ?_
                    split
                    exacts [hr.feApply, .ite (.ite hr.fly.cinvAll hr.fly) hr.feApply]
                  · exact .hold hr.raise

theorem execLdfe {c t m w} (h : s₀.Reaches s) : Res.From s₀ (execLdfe c t m w s) := h.word (fun _ h => h.feWord)

theorem execLdff {c t m w} (h : s₀.Reaches s) : Res.From s₀ (execLdff c t m w s) := h.word (fun _ h => h.feWord)

theorem execStfe {c t w} (h : s₀.Reaches s) : Res.From s₀ (execStfe c t w s) := h.word (fun _ h => h.feWord)

theorem execStf {c t w} (h : s₀.Reaches s) : Res.From s₀ (execStf c t w s) := h.word (fun _ h => h.feWord)

theorem execSete {c t w} (h : s₀.Reaches s) : Res.From s₀ (execSete c t w s) := h.word (fun _ h => h.feWord)

theorem execWaitf {c t w} (h : s₀.Reaches s) : Res.From s₀ (execWaitf c t w s) := h.word (fun _ h => h.feWord)

theorem watched {c t a n f} (h : s₀.Reaches s) (hf : Fx.From s₀ f) : Fx.From s₀ (s.watched c t a n f) := by
  unfold State.watched
  split
  exacts [.hold h.debugStop, hf]

theorem padd {c t form w} (h : s₀.Reaches s) : Fx.From s₀ (s.padd c t form w) := by
  unfold State.padd
  extract_lets _
  split
  · exact .exc
  · split
    · exact .exc
    · exact .hold h.txWait
    · extract_lets _
      split
      · exact .exc
      · exact h.watched (by
          split
          exacts [.exc, h.afterFlush (fun _ h => .done (Reaches.ite h.bump h).bypassGo.noteWrite.depart)])

theorem execPaddX {c t w} (h : s₀.Reaches s) : Res.From s₀ (execPaddX c t w s) := h.word (fun _ h => h.padd)

theorem execPaddT {c t w} (h : s₀.Reaches s) : Res.From s₀ (execPaddT c t w s) := h.word (fun _ h => h.padd)

theorem execPaddF {c t w} (h : s₀.Reaches s) : Res.From s₀ (execPaddF c t w s) := h.word (fun _ h => h.padd)

theorem execWrf {c t w} (h : s₀.Reaches s) : Res.From s₀ (execWrf c t w s) := h.word (fun _ h => by
  extract_lets _ _
  split
  · exact .exc
  · split
    · exact .exc
    · exact .hold h.txWait
    · exact .exc
    · exact h.watched (by
        split
        · split
          exacts [.hold h.waitOn, h.afterFlush (fun _ h => .done h.setThr.bypassGo.noteWrite.depart)]
        · exact .exc)
    · exact h.watched .exc)

theorem execWaken {c t w} (h : s₀.Reaches s) : Res.From s₀ (execWaken c t w s) := h.word (fun _ h => by
  extract_lets _
  split
  · exact .exc
  · split
    exacts [.exc, .hold h.txWait, .exc, .done h.send])

theorem execFence {c t w} (h : s₀.Reaches s) : Res.From s₀ (execFence c t w s) := h.word (fun _ h => by
  extract_lets _
  split
  exacts [.done h, .done h.waitOn])

theorem execSleep {c t w} (h : s₀.Reaches s) : Res.From s₀ (execSleep c t w s) := h.word (fun _ h => .done h.sleepOn)

end State.Reaches
end Sys2Proof.Machine
end

section
/-! SUPPORT for O59. What operations keep: words: caches, control and system; banks. -/
namespace Sys2Proof.Machine
namespace State.Reaches

variable {s₀ s u : State}

-- One thread elaborates these theorems: many at once hold many stacks.
set_option Elab.async false

/-! ### Sys2Proof/Machine/CacheOps.lean -/

theorem cinvRange {c lo hi'} (h : s₀.Reaches s) : s₀.Reaches (s.cinvRange c lo hi') := h.invalidate

theorem flushRange {c t lo hi' a inv} (h : s₀.Reaches s) : s₀.Reaches (s.flushRange c t lo hi' a inv) := by
  unfold State.flushRange
  extract_lets s1
  have h1 : s₀.Reaches s1 := h.flushEntries
  exact .ite h1.waitOn (.ite h1.cinvRange h1)

theorem execCflush {c t w} (h : s₀.Reaches s) : Res.From s₀ (execCflush c t w s) := h.word (fun _ h => by
  refine .done ?_
  split
  exacts [h, h.flushRange])

theorem execCinv {c t w} (h : s₀.Reaches s) : Res.From s₀ (execCinv c t w s) := h.word (fun _ h => by
  refine .done ?_
  split
  exacts [h, h.cinvRange])

theorem execCflinv {c t w} (h : s₀.Reaches s) : Res.From s₀ (execCflinv c t w s) := h.word (fun _ h => by
  refine .done ?_
  split
  exacts [h, h.flushRange])

theorem execCinvAll {c t w} (h : s₀.Reaches s) : Res.From s₀ (execCinvAll c t w s) := h.word (fun _ h => .done h.cinvAll)

theorem preloadGo {c t first next last n} (h : s₀.Reaches s) : Fx.From s₀ (s.preloadGo c t first next last n) := by
  induction n generalizing s next with
  | zero =>
    unfold State.preloadGo
    extract_lets _
    split
    exacts [.done h.waitOn, .done h]
  | succ n ih =>
    unfold State.preloadGo
    extract_lets stay s0 s1
    have hstay : ∀ s, s₀.Reaches s → Fx.From s₀ (stay s) := fun _ h => .done h.waitOn
    have h0 : s₀.Reaches s0 := h.purgeKeeper
    have h1 : s₀.Reaches s1 := h0.sideMove
    split
    · next e => exact h.check.of_bad e
    · split
      · exact ih h
      · split
        · exact hstay _ h0
        · split
          · split
            · exact ih h1
            · split
              exacts [hstay _ h1, ih h1.startFill]
          · split
            · exact hstay _ h1
            · split
              · exact hstay _ h1
              · next e => exact ih (h1.allocate _ e).startFill

theorem execPreload {c t w} (h : s₀.Reaches s) : Res.From s₀ (execPreload c t w s) := h.word (fun _ h => by
  split
  · exact .done h
  · split
    exacts [.done h, h.preloadGo])

theorem lockEntries {c f} (h : s₀.Reaches s) : s₀.Reaches (s.lockEntries c f) := .ite h.setCache.setFld h.setCache

theorem execClock {c t w} (h : s₀.Reaches s) : Res.From s₀ (execClock c t w s) := h.word (fun _ h => by
  refine .done ?_
  split
  exacts [h, .ite h h.lockEntries])

theorem execCunlock {c t w} (h : s₀.Reaches s) : Res.From s₀ (execCunlock c t w s) := h.word (fun _ h => by
  refine .done ?_
  split
  exacts [h, h.setCache])

theorem pref {c t a} (h : s₀.Reaches s) : s₀.Reaches (s.pref c t a) := by
  unfold State.pref
  extract_lets _ _ _
  split
  · exact h
  · split
    · exact h
    · split
      · extract_lets _
        exact .ite h h.setCore.depart
      · exact h

theorem execPref {c t w} (h : s₀.Reaches s) : Res.From s₀ (execPref c t w s) := h.word (fun _ h => .done h.pref)

/-! ### Sys2Proof/Machine/Control.lean -/

theorem ctlWord {c t g enc br body} (h : s₀.Reaches s) (hbody : ∀ (u : State), s₀.Reaches u → Fx.From s₀ (body u)) :
    Res.From s₀ (s.ctlWord c t g enc br body) := .next (h.issue hbody)

theorem leaveLoops {c t target} (h : s₀.Reaches s) : s₀.Reaches (s.leaveLoops c t target) := by
  unfold State.leaveLoops
  extract_lets _
  split
  exacts [h.setTf, h]

theorem callTo {c t target} (h : s₀.Reaches s) : Fx.From s₀ (s.callTo c t target) := by
  unfold State.callTo
  extract_lets _
  split
  exacts [.hold h.setTf.raise, .branch h.setThr]

theorem execB {c t w} (h : s₀.Reaches s) : Res.From s₀ (execB c t w s) := h.ctlWord (fun _ h => .branch h.leaveLoops)

theorem execCall {c t w} (h : s₀.Reaches s) : Res.From s₀ (execCall c t w s) := h.ctlWord (fun _ h => h.callTo)

theorem execJr {c t w} (h : s₀.Reaches s) : Res.From s₀ (execJr c t w s) := h.ctlWord (fun _ h => by
  extract_lets _
  split
  exacts [.exc, .branch h.leaveLoops])

theorem execCallr {c t w} (h : s₀.Reaches s) : Res.From s₀ (execCallr c t w s) := h.ctlWord (fun _ h => by
  extract_lets _
  split
  exacts [.exc, h.callTo])

theorem execRet {c t w} (h : s₀.Reaches s) : Res.From s₀ (execRet c t w s) := h.ctlWord (fun _ h => by
  extract_lets _
  split
  · exact .branch h.setThr
  · split
    exacts [.exc, .hold h.setTf.raise])

theorem execLoop {c t w} (h : s₀.Reaches s) : Res.From s₀ (execLoop c t w s) := h.ctlWord (fun _ h => by
  extract_lets _ _ _ _ s1
  have h1 : s₀.Reaches s1 := h.setTf.setTf
  split
  · exact .exc
  · split
    exacts [.goto h, .done h1.setTf.fly])

theorem execGets {c t w} (h : s₀.Reaches s) : Res.From s₀ (execGets c t w s) := h.word (fun _ h => by
  split
  · exact .exc
  · split
    · exact .exc
    · extract_lets _ s1
      have h1 : s₀.Reaches s1 := h.afterGets
      exact .done (Reaches.ite h1.probe h1).outX)

theorem execSets {c t w} (h : s₀.Reaches s) : Res.From s₀ (execSets c t w s) := h.word (fun _ h => by
  split
  · exact .exc
  · split
    · exact .exc
    · extract_lets _ _ s1
      have h1 : s₀.Reaches s1 := h.fly
      exact .done (.ite h1.waitOn h1))

/-! ### Sys2Proof/Machine/System.lean -/

theorem execTrap {c t w} (h : s₀.Reaches s) : Res.From s₀ (execTrap c t w s) := h.ctlWord (fun _ h => .hold h.setThr.raise)

theorem execRfe {c t w} (h : s₀.Reaches s) : Res.From s₀ (execRfe c t w s) := h.ctlWord (fun _ h => .hold h.rfe)

theorem execIsync {c t w} (h : s₀.Reaches s) : Res.From s₀ (execIsync c t w s) := h.word (fun _ h => .done h)

theorem execSetm {c t w} (h : s₀.Reaches s) : Res.From s₀ (execSetm c t w s) := h.ctlWord (fun _ h => by
  extract_lets _ s1
  have h1 : s₀.Reaches s1 := h.setThr
  split
  exacts [.exc, .done h1.setTreg])

theorem clearNotice {c k} (h : s₀.Reaches s) : s₀.Reaches (s.clearNotice c k) := h.setTreg.setTreg.setTreg.setCore

theorem suspend {c k} (h : s₀.Reaches s) : s₀.Reaches (s.suspend c k) := by
  unfold State.suspend
  extract_lets s1 u _ s2 _
  have h1 : s₀.Reaches s1 := h.landAll.abandon
  have hu : s₀.Reaches u.2 := h1.undoSlot
  have h2 : s₀.Reaches s2 := hu.setTreg.setTreg.setTreg
  exact h2.setThr.stopDone

theorem execTstart {c t w} (h : s₀.Reaches s) : Res.From s₀ (execTstart c t w s) := h.word (fun _ h => h.supOnly (by
  split
  · exact .exc
  · split
    · exact .exc
    · split
      · exact .exc
      · extract_lets s1 _ s2 _
        have h1 : s₀.Reaches s1 := h.clearNotice
        have h2 : s₀.Reaches s2 := h1.setTf.setTf.setTf.setTf
        split
        exacts [.done h1.setThr, .done h2.setThr]))

theorem execTstop {c t w} (h : s₀.Reaches s) : Res.From s₀ (execTstop c t w s) := h.word (fun _ h => h.supOnly (by
  split
  · exact .exc
  · extract_lets _
    split
    · exact .done h.setThr
    · split
      exacts [.done h, .done h, .done h.suspend, .done h.setThr.waitOn]))

theorem tset {c t k cls a v} (h : s₀.Reaches s) : s₀.Reaches (s.tset c t k cls a v) := by
  unfold State.tset
  split
  · exact h.landOne
  · exact h.landOne
  · exact h.landOne
  · split
    exacts [h.sets, h]
  · split
    exacts [h.sets, h]

theorem execTset {c t cls w} (h : s₀.Reaches s) : Res.From s₀ (execTset c t cls w s) := h.word (fun _ h => h.supOnly (by
  split
  exacts [.exc, .done h.tset]))

theorem execLcrd {c t w} (h : s₀.Reaches s) : Res.From s₀ (execLcrd c t w s) := h.word (fun _ h => .done h.outX)

theorem execLcwr {c t w} (h : s₀.Reaches s) : Res.From s₀ (execLcwr c t w s) := h.word (fun _ h => .done h.fly)

theorem execRspill {c t w} (h : s₀.Reaches s) : Res.From s₀ (execRspill c t w s) := h.word (fun _ h => by
  extract_lets _ _ _ _ s1 s2 _
  have h1 : s₀.Reaches s1 := h.foldl (fun _ h _ => h.bankWrite)
  have h2 : s₀.Reaches s2 := h1.setTf.setTf
  split
  · exact .exc
  · exact h.supOnly (by
      split
      · exact .exc
      · split
        exacts [.exc, .done h2.setThr]))

theorem readSlots {c lo n} (h : s₀.Reaches s) : s₀.Reaches (s.readSlots c lo n).2 := by
  suffices ∀ f, f = State.readSlots → s₀.Reaches (f s c lo n).2 from this _ rfl
  rintro f is_f
  delta State.readSlots State.readSlots._f at is_f
  have hread : ∀ u off, s₀.Reaches u → s₀.Reaches (u.bankRead c off 8).2 := fun _ _ h => h.bankRead
  obtain ⟨read, is_read⟩ : ∃ f, f = @State.bankRead := ⟨_, rfl⟩
  rw [← is_read] at hread is_f
  induction n generalizing s lo with
  | zero =>
    subst is_f
    exact h
  | succ n ih =>
    have next : f s c lo (n + 1) = match read s c (lo * 8) 8 with
        | (some v, s1) => (v % 65536 / 4 * 4 :: (f s1 c (lo + 1) n).1, (f s1 c (lo + 1) n).2)
        | (none, s1) => (s1.free.1 % 65536 / 4 * 4 :: (f s1.free.2 c (lo + 1) n).1, (f s1.free.2 c (lo + 1) n).2) := by
      subst is_f
      rfl
    rw [next]
    split
    · next e => exact ih ((hread _ _ h).of_snd e)
    · next e => exact ih ((hread _ _ h).of_snd e).free

theorem execRsfill {c t w} (h : s₀.Reaches s) : Res.From s₀ (execRsfill c t w s) := by
  unfold Machine.execRsfill
  refine h.word (fun s h => ?_)
  have hslots : ∀ lo n, s₀.Reaches (s.readSlots c lo n).2 := fun _ _ => h.readSlots
  obtain ⟨slots, is_slots⟩ : ∃ f, f = @State.readSlots := ⟨_, rfl⟩
  rw [← is_slots] at hslots ⊢
  extract_lets _ _ _ r s2 _
  have h2 : s₀.Reaches s2 := (hslots _ _).setTf.setTf
  split
  · exact .exc
  · exact h.supOnly (by
      split
      · exact .exc
      · split
        exacts [.exc, .done h2.setThr])

/-! ### Sys2Proof/Machine/Pair.lean -/

theorem execPairIssue {c t word} (h : s₀.Reaches s) : Res.From s₀ (execPairIssue c t word s) := h.word (fun _ h => h.pairFx)

/-! ### Sys2Proof/Machine/Banks.lean -/

theorem countStale {n w} (h : s₀.Reaches s) : s₀.Reaches (s.countStale n w) := h.bump.setFld.setFld

theorem coreRefuses {n off len w} (h : s₀.Reaches s) : ∀ p ∈ s.coreRefuses n off len w, s₀.Reaches p.2 := by
  unfold State.coreRefuses
  split
  · split
    exacts [.mem_some h, .mem_some h.bump]
  · split
    · exact .mem_some h.boundaryCount
    · split
      · exact .mem_some h.countStale
      · split
        exacts [.mem_some h, .mem_none]

theorem hbmFence {p off status} (h : s₀.Reaches s) : s₀.Reaches (s.hbmFence p off status) := .ite h.boundaryCount h

theorem turned {status} (h : s₀.Reaches s) : Reach.From s₀ (Reach.turned status s) := by
  unfold Reach.turned
  split
  exacts [.hold, .refused h]

theorem noteFault {plot det a} (h : s₀.Reaches s) : s₀.Reaches (s.noteFault plot det a) := h.bump.setFld.setReg

theorem reach {w a len write} (h : s₀.Reaches s) : Reach.From s₀ (s.reach w a len write) := by
  unfold State.reach
  split
  · exact .refused (.ite h.noteFault h)
  · exact .hold
  · split
    · split
      · next e => exact (h.coreRefuses _ e).turned
      · split
        · exact .refused h
        · split
          exacts [.refused h, .to]
    · split
      · exact .refused h.hbmFence
      · split
        exacts [.refused h.bump, .to]
    · split
      · next e => exact (h.coreRefuses _ e).turned
      · split
        exacts [.refused h, .to]
    · split
      exacts [.refused h, .to]
    · split
      exacts [.refused h, .to]
    · exact .refused h
    · exact .refused h
    · exact .to

theorem setStack {p x} (h : s₀.Reaches s) : s₀.Reaches (s.setStack p x) := h.same

theorem hbmWake {p off} (h : s₀.Reaches s) : s₀.Reaches (s.hbmWake p off) := .ite h.setStack h

theorem hbmCount {p off unc} (h : s₀.Reaches s) : s₀.Reaches (s.hbmCount p off unc) := h.bump.setFld

theorem hbmFinding {p off} (h : s₀.Reaches s) : s₀.Reaches (s.hbmFinding p off) := h.hbmCount.reportFinding

theorem hbmWord {p off} (h : s₀.Reaches s) : s₀.Reaches (s.hbmWord p off) := by
  unfold State.hbmWord
  extract_lets _
  split
  · exact h
  · split
    exacts [h.asRead.hbmFinding.setPat, h.asRead]

theorem hbmBad {p off n} (h : s₀.Reaches s) : s₀.Reaches (s.hbmBad p off n) := h.hbmFinding

theorem hbmRead {s0 p off n} (h0 : s₀.Reaches s0) : s₀.Reaches (s0.hbmRead p off n).2 := by
  unfold State.hbmRead
  extract_lets s _ s1
  have h : s₀.Reaches s := h0.hbmWake
  have h1 : s₀.Reaches s1 := h.foldl (fun _ h _ => h.hbmWord)
  split
  exacts [h.hbmBad, h1]

theorem hbmWrite {s0 p off n mask v} (h0 : s₀.Reaches s0) : s₀.Reaches (s0.hbmWrite p off n mask v).2 := by
  unfold State.hbmWrite
  extract_lets s _
  have h : s₀.Reaches s := h0.hbmWake
  split
  exacts [h.hbmBad, (h.foldl (fun _ h _ => h.hbmWord)).writeMask]

theorem memRead {p n} (h : s₀.Reaches s) : s₀.Reaches (s.memRead p n).2.2 := by
  suffices ∀ q, q = s.memRead p n → s₀.Reaches q.2.2 from this _ rfl
  rw [show State.memRead = _ by delta State.memRead; rfl]
  have hbank : ∀ m off, s₀.Reaches (s.bankRead m off n).2 := fun _ _ => h.bankRead
  have hhbm : ∀ q off, s₀.Reaches (s.hbmRead q off n).2 := fun _ _ => h.hbmRead
  obtain ⟨bank, is_bank⟩ : ∃ f, f = @State.bankRead := ⟨_, rfl⟩
  obtain ⟨hbm, is_hbm⟩ : ∃ f, f = @State.hbmRead := ⟨_, rfl⟩
  rw [← is_bank] at hbank ⊢
  rw [← is_hbm] at hhbm ⊢
  rintro _ rfl
  split
  · split
    · next e => exact (hbank _ _).of_snd e
    · next e => exact (hbank _ _).of_snd e
  · split
    · next e => exact (hhbm _ _).of_snd e
    · next e => exact (hhbm _ _).of_snd e
  · exact h

theorem memWrite {p n mask v} (h : s₀.Reaches s) : s₀.Reaches (s.memWrite p n mask v).2 := by
  suffices ∀ q, q = s.memWrite p n mask v → s₀.Reaches q.2 from this _ rfl
  rw [show State.memWrite = _ by delta State.memWrite; rfl]
  have hbank : ∀ m off, s₀.Reaches (s.bankWrite m off n mask v).2 := fun _ _ => h.bankWrite
  have hhbm : ∀ q off, s₀.Reaches (s.hbmWrite q off n mask v).2 := fun _ _ => h.hbmWrite
  obtain ⟨bank, is_bank⟩ : ∃ f, f = @State.bankWrite := ⟨_, rfl⟩
  obtain ⟨hbm, is_hbm⟩ : ∃ f, f = @State.hbmWrite := ⟨_, rfl⟩
  rw [← is_bank] at hbank ⊢
  rw [← is_hbm] at hhbm ⊢
  rintro _ rfl
  split
  · split
    · next e => exact (hbank _ _).of_snd e
    · next e => exact (hbank _ _).of_snd e
  · split
    · next e => exact (hhbm _ _).of_snd e
    · next e => exact (hhbm _ _).of_snd e
  · exact h

theorem memAtomic {p op a b} (h : s₀.Reaches s) : s₀.Reaches (s.memAtomic p op a b).2.2 := by
  unfold State.memAtomic
  split
  · next e =>
    have h1 := h.memRead.of_third e
    extract_lets _
    split
    exacts [h1.bankPut, h1.writeMask, h1]
  · next e => exact h.memRead.of_third e

theorem memFe {p op data rel scope src who} (h : s₀.Reaches s) : s₀.Reaches (s.memFe p op data rel scope src who).2 := by
  unfold State.memFe
  split
  exacts [h.feBank, h]

theorem reply {tag status val} (h : s₀.Reaches s) : s₀.Reaches (s.reply tag status val) := h.send

theorem bankReach {w n off len write} (h : s₀.Reaches s) : Reach.From s₀ (s.bankReach w n off len write) := by
  unfold State.bankReach
  split
  · next e => exact (h.coreRefuses _ e).turned
  · split
    · exact .refused h
    · split
      exacts [.refused h, .to]

theorem execBankReadRequest {ag c off len tag} (h : s₀.Reaches s) : Res.From s₀ (execBankReadRequest ag c off len tag s) := by
  unfold Machine.execBankReadRequest
  refine .next ?_
  split
  · exact h.memRead.reply
  · next e => exact (h.bankReach.of_refused e).reply
  · exact h

theorem execBankWriteRequest {ag c off len mask data tag} (h : s₀.Reaches s) : Res.From s₀ (execBankWriteRequest ag c off len mask data tag s) := by
  unfold Machine.execBankWriteRequest
  refine .next ?_
  split
  · exact h.memWrite.reply
  · next e => exact (h.bankReach.of_refused e).reply
  · exact h

theorem execBankAtomicRequest {ag c off op a b tag} (h : s₀.Reaches s) : Res.From s₀ (execBankAtomicRequest ag c off op a b tag s) := by
  unfold Machine.execBankAtomicRequest
  refine .next ?_
  split
  · exact h
  · split
    · exact h.memAtomic.reply
    · next e => exact (h.bankReach.of_refused e).reply
    · exact h

theorem execBankFeRequest {ag c off op data rel scope waiter tag} (h : s₀.Reaches s) :
    Res.From s₀ (execBankFeRequest ag c off op data rel scope waiter tag s) := by
  unfold Machine.execBankFeRequest
  extract_lets _
  refine .next ?_
  split
  · exact h
  · split
    · exact h.memFe.send
    · next e => exact (h.bankReach.of_refused e).reply
    · exact h

theorem execWatchDisarm {c off waiter} (h : s₀.Reaches s) : Res.From s₀ (execWatchDisarm c off waiter s) := .next h.setCore

theorem execBankNetReserve {c cellar} (h : s₀.Reaches s) : Res.From s₀ (execBankNetReserve c cellar s) := .next h.setCore

theorem execCorrectionWriteback {c cw} (h : s₀.Reaches s) : Res.From s₀ (execCorrectionWriteback c cw s) := .next (.ite h.setCore.setPat h)

theorem execPoisonClr {ag c v} (h : s₀.Reaches s) : Res.From s₀ (execPoisonClr ag c v s) := by
  unfold Machine.execPoisonClr
  extract_lets _ _
  refine .next ?_
  split
  · next e => exact (h.reach.of_refused e).reply
  · exact h
  · exact .ite h.reply (.ite h.reply h.initBytes.wroteWord.reply)

theorem execTagDataRead {ag c} (h : s₀.Reaches s) : Res.From s₀ (execTagDataRead ag c s) := by
  unfold Machine.execTagDataRead
  refine .next ?_
  split
  · next e => exact (h.reach.of_refused e).reply
  · exact h
  · exact h.tagRead.reply

theorem execTagDataWrite {ag c v} (h : s₀.Reaches s) : Res.From s₀ (execTagDataWrite ag c v s) := by
  suffices ∀ q, q = Machine.execTagDataWrite ag c v s → Res.From s₀ q from this _ rfl
  have hreach : ∀ w a, Reach.From s₀ (s.reach w a 4 true) := fun _ _ => h.reach
  rw [show Machine.execTagDataWrite = _ by delta Machine.execTagDataWrite; rfl]
  obtain ⟨reach, is_reach⟩ : ∃ f, f = @State.reach := ⟨_, rfl⟩
  rw [← is_reach] at hreach ⊢
  rintro _ rfl
  refine .next ?_
  split
  · next e => exact ((hreach _ _).of_refused e).reply
  · exact h
  · exact .ite h.setFld.reply (.ite h.bankFinding.setFld.reply (h.readWord.wroteWord.foldl (fun _ h _ => h.setTag)).setFld.reply)

theorem execHbmAccess {ag p off kind aop len mask data tag} (h : s₀.Reaches s) :
    Res.From s₀ (execHbmAccess ag p off kind aop len mask data tag s) := by
  suffices ∀ q, q = Machine.execHbmAccess ag p off kind aop len mask data tag s → Res.From s₀ q from this _ rfl
  rw [show Machine.execHbmAccess = _ by delta Machine.execHbmAccess; rfl]
  rintro _ rfl
  refine .next (.ite h.reply ?_)
  split
  · exact h.hbmFence.reply
  · refine .ite h.bump.reply ?_
    split
    exacts [h.memRead.reply, h.memWrite.reply, .ite h.reply h.memAtomic.reply, h.reply]

end State.Reaches
end Sys2Proof.Machine
end

section
/-! SUPPORT for O59. What operations keep: words: vectors, tiles and the matrix unit. -/
namespace Sys2Proof.Machine
namespace State.Reaches

variable {s₀ s u : State}

-- One thread elaborates these theorems: many at once hold many stacks.
set_option Elab.async false

/-! ### Sys2Proof/Machine/Vector.lean -/

theorem outV {c t n v d} (h : s₀.Reaches s) : s₀.Reaches (s.outV c t n v d) := h.fly

theorem outFlags {c t flags d} (h : s₀.Reaches s) : s₀.Reaches (s.outFlags c t flags d) := .ite h h.fly

theorem outR {c t n w l d} (h : s₀.Reaches s) : s₀.Reaches (s.outR c t n w l d) := h.outV.outFlags

theorem execVintArith {c t op ty w} (h : s₀.Reaches s) : Res.From s₀ (execVintArith c t op ty w s) := h.word (fun _ h => .done h.outV)

theorem execVlogic {c t op ty w} (h : s₀.Reaches s) : Res.From s₀ (execVlogic c t op ty w s) := h.word (fun _ h => .done h.outV)

theorem execVfloat {c t op ty w} (h : s₀.Reaches s) : Res.From s₀ (execVfloat c t op ty w s) := h.word (fun _ h => .done (Reaches.ite h.free h).outR)

theorem execVcmp {c t op ty w} (h : s₀.Reaches s) : Res.From s₀ (execVcmp c t op ty w s) := by
  unfold Machine.execVcmp
  extract_lets _ _ _
  exact h.word (fun _ h => .done (Reaches.ite h.free h).outV.outFlags)

theorem execVanyVall {c t all ty w} (h : s₀.Reaches s) : Res.From s₀ (execVanyVall c t all ty w s) := h.word (fun _ h => .done h.outP)

theorem execVspecial {c t second op ty w} (h : s₀.Reaches s) : Res.From s₀ (execVspecial c t second op ty w s) := h.word (fun _ h => .done h.outR)

theorem execVcvt {c t fn w} (h : s₀.Reaches s) : Res.From s₀ (execVcvt c t fn w s) := by
  unfold Machine.execVcvt
  extract_lets k _ _ _ _
  clear_value k
  exact h.word (fun _ h => by
    extract_lets _ _ s1
    have h1 : s₀.Reaches s1 := h.taken
    split
    exacts [.done h1.outR, .done h1.outR, .done h1.outR])

theorem execVmove {c t op ty w} (h : s₀.Reaches s) : Res.From s₀ (execVmove c t op ty w s) := h.word (fun _ h => .done h.outV)

theorem execVpermRot {c t rot ty w} (h : s₀.Reaches s) : Res.From s₀ (execVpermRot c t rot ty w s) := h.word (fun _ h => .done h.outV)

theorem execVext {c t ty w} (h : s₀.Reaches s) : Res.From s₀ (execVext c t ty w s) := h.word (fun _ h => .done (Reaches.ite h h.free).outX)

theorem execVreduce {c t op ty w} (h : s₀.Reaches s) : Res.From s₀ (execVreduce c t op ty w s) := by
  unfold Machine.execVreduce
  extract_lets _ _ _
  exact h.word (fun _ h => by
    extract_lets _ _ _
    split
    exacts [.done h.outX, .done h.outX.outFlags])

theorem execVld {c t w} (h : s₀.Reaches s) : Res.From s₀ (execVld c t w s) := h.word (fun _ h => h.load)

theorem execVst {c t w} (h : s₀.Reaches s) : Res.From s₀ (execVst c t w s) := h.word (fun _ h => h.store)

/-! ### Sys2Proof/Machine/Tile.lean -/

theorem setTile {c n x} (h : s₀.Reaches s) : s₀.Reaches (s.setTile c n x) := h.setCore

theorem dropLatches {c n} (h : s₀.Reaches s) : s₀.Reaches (s.dropLatches c n) := h.setCore

theorem configure {c n w} (h : s₀.Reaches s) : s₀.Reaches (s.configure c n w) := h.setReg.setTile.dropLatches

theorem execTcfg {c t w} (h : s₀.Reaches s) : Res.From s₀ (execTcfg c t w s) := h.word (fun _ h => by
  extract_lets _ _
  split
  · exact .exc
  · split
    exacts [.exc, .done h.configure])

theorem execTrel {c t w} (h : s₀.Reaches s) : Res.From s₀ (execTrel c t w s) := h.word (fun _ h => by
  extract_lets _ _
  split
  · exact .exc
  · split
    exacts [.exc, .done (h.foldl (fun _ h _ => .ite h.configure h.setTile.dropLatches))])

theorem xferEnd {c x} (h : s₀.Reaches s) : s₀.Reaches (s.xferEnd c x) := by
  unfold State.xferEnd
  split
  · extract_lets _ s1
    have h1 : s₀.Reaches s1 := h.setCore
    split
    exacts [h1.mbReply, .ite h1.mbReply h1.mbReply]
  · extract_lets _
    exact h.setCore

theorem xferStart {c t n store w rows} (h : s₀.Reaches s) : s₀.Reaches (s.xferStart c t n store w rows) := h.setCore.mbPend.xferEnd

theorem xferCheck {c t w k} (h : s₀.Reaches s) (hk : Fx.From s₀ k) : Fx.From s₀ (s.xferCheck c t w k) := by
  unfold State.xferCheck
  extract_lets _
  split
  · exact .exc
  · split
    · exact .exc
    · split
      · exact .exc
      · split
        exacts [.exc, hk]

theorem execTld {c t w} (h : s₀.Reaches s) : Res.From s₀ (execTld c t w s) := h.word (fun _ h => h.xferCheck (.done h.setTile.xferStart))

theorem execTldR {c t w} (h : s₀.Reaches s) : Res.From s₀ (execTldR c t w s) := h.word (fun _ h => h.xferCheck (.done h.xferStart))

theorem execTst {c t w} (h : s₀.Reaches s) : Res.From s₀ (execTst c t w s) := h.word (fun _ h => h.xferCheck (.done h.xferStart))

theorem execTldq {c t w} (h : s₀.Reaches s) : Res.From s₀ (execTldq c t w s) := h.word (fun _ h => by
  extract_lets _
  split
  exacts [.done h.xferEnd, .done h])

theorem shortBusy {c t n} (h : s₀.Reaches s) : s₀.Reaches (s.shortBusy c t n) := h.setTile

theorem rowMove {c t w scales needValid f} (h : s₀.Reaches s) (hf : ∀ (u : State), s₀.Reaches u → ∀ (n n' : ℕ), s₀.Reaches (f u n n')) :
    Fx.From s₀ (s.rowMove c t w scales needValid f) := by
  unfold State.rowMove
  extract_lets _ _
  split
  exacts [.exc, .done (hf _ h.shortBusy _ _)]

theorem execTmovv {c t w} (h : s₀.Reaches s) : Res.From s₀ (execTmovv c t w s) := h.word (fun _ h => h.rowMove (fun _ h _ _ => h.fly))

theorem execTmovt {c t w} (h : s₀.Reaches s) : Res.From s₀ (execTmovt c t w s) := h.word (fun _ h => h.rowMove (fun _ h _ _ => h.fly))

theorem execTscl {c t w} (h : s₀.Reaches s) : Res.From s₀ (execTscl c t w s) := h.word (fun _ h => h.rowMove (fun _ h _ _ => h.fly))

theorem execTsclw {c t w} (h : s₀.Reaches s) : Res.From s₀ (execTsclw c t w s) := h.word (fun _ h => h.rowMove (fun _ h _ _ => h.fly))

theorem putRow {c n r v} (h : s₀.Reaches s) : s₀.Reaches (s.putRow c n r v) := by
  unfold State.putRow
  exact h.setRow

theorem rowRequest {c x r a p} (h : s₀.Reaches s) : s₀.Reaches (s.rowRequest c x r a p) := by
  rw [show State.rowRequest = _ by delta State.rowRequest; rfl]
  have hread : ∀ (s : State), s₀.Reaches s → ∀ (core off n : ℕ), s₀.Reaches (s.bankRead core off n).2 := fun _ h _ _ _ => h.bankRead
  obtain ⟨read, is_read⟩ : ∃ f, f = @State.bankRead := ⟨_, rfl⟩
  rw [← is_read] at hread ⊢
  have hwrite : ∀ (s : State), s₀.Reaches s → ∀ (core off n mask v : ℕ),
    s₀.Reaches (s.bankWrite core off n mask v).2 := fun _ h _ _ _ _ _ => h.bankWrite
  obtain ⟨write, is_write⟩ : ∃ f, f = @State.bankWrite := ⟨_, rfl⟩
  rw [← is_write] at hwrite ⊢
  extract_lets _ _ s1 s2
  have h1 : s₀.Reaches s1 := h.bypassGo
  have h2 : s₀.Reaches s2 := .ite h1.noteWrite h1
  split
  · split
    · exact (hwrite _ h _ _ _ _ _).xferEnd
    · split
      · next e => exact ((hread _ h _ _ _).of_snd e).putRow.xferEnd
      · next e => exact ((hread _ h _ _ _).of_snd e).xferEnd
  · exact h2.depart.xferEnd

theorem execTileRowRequest {c t m} (h : s₀.Reaches s) : Res.From s₀ (execTileRowRequest c t m s) := by
  unfold Machine.execTileRowRequest
  refine .next ?_
  split
  · exact h
  · split
    · exact h
    · extract_lets _ _ _
      split
      · exact h
      · split
        exacts [h, h.xferEnd, .ite (.ite h h.bypassFlush) h.rowRequest]

theorem rowLand {c t m r status v} (h : s₀.Reaches s) : s₀.Reaches (s.rowLand c t m r status v) := by
  unfold State.rowLand
  extract_lets s'
  have hs' : s₀.Reaches s' := h.landAccess
  split
  exacts [hs', .ite hs' (.ite hs'.putRow.xferEnd hs'.xferEnd)]

theorem execTileRowLand {c t m r status v} (h : s₀.Reaches s) : Res.From s₀ (execTileRowLand c t m r status v s) :=
  .next (h.inward (fun _ h => h.rowLand))

theorem rowAck {c t m r status} (h : s₀.Reaches s) : s₀.Reaches (s.rowAck c t m r status) := by
  unfold State.rowAck
  extract_lets s'
  have hs' : s₀.Reaches s' := h.landAccess
  split
  exacts [hs', .ite hs' (.ite hs'.xferEnd hs'.xferEnd)]

theorem execTileRowAck {c t m r status} (h : s₀.Reaches s) : Res.From s₀ (execTileRowAck c t m r status s) := .next (h.inward (fun _ h => h.rowAck))

/-! ### Sys2Proof/Machine/Matrix.lean -/

theorem mqWord {c t k} (h : s₀.Reaches s) (hk : Fx.From s₀ k) : Fx.From s₀ (s.mqWord c t k) := by
  unfold State.mqWord
  split
  exacts [.hold h.waitOn, hk]

theorem mqPut {c t n op} (h : s₀.Reaches s) : s₀.Reaches (s.mqPut c t n op) := h.setCore

theorem setAcc {c n x} (h : s₀.Reaches s) : s₀.Reaches (s.setAcc c n x) := h.setCore

theorem execMma {c t fn w} (h : s₀.Reaches s) : Res.From s₀ (execMma c t fn w s) := h.word (fun _ h => h.mqWord (by
  split
  exacts [.exc, .done h.mqPut]))

theorem execAcvt {c t w} (h : s₀.Reaches s) : Res.From s₀ (execAcvt c t w s) := h.word (fun _ h => h.mqWord (by
  split
  exacts [.exc, .done h.mqPut]))

theorem execAzero {c t w} (h : s₀.Reaches s) : Res.From s₀ (execAzero c t w s) := h.word (fun _ h => h.mqWord (by
  split
  exacts [.exc, .done h.setAcc.mqPut]))

theorem imageWord {c t w det k} (h : s₀.Reaches s) (hk : Fx.From s₀ k) : Fx.From s₀ (s.imageWord c t w det k) := h.mqWord (by
  split
  · exact .exc
  · split
    · exact .exc
    · split
      exacts [.exc, hk])

theorem execAstx {c t w} (h : s₀.Reaches s) : Res.From s₀ (execAstx c t w s) := h.word (fun _ h => by
  extract_lets _ _ _ _
  split
  · split
    exacts [.hold h.waitOn, h.imageWord (.done h.mbPend.mqPut)]
  · split
    exacts [.hold h.waitOn, h.imageWord (.done h.mbPend.mqPut)])

theorem execAldx {c t w} (h : s₀.Reaches s) : Res.From s₀ (execAldx c t w s) := h.word (fun _ h => h.imageWord (.done h.mbPend.setAcc.mqPut))

theorem execAldxAdd {c t w} (h : s₀.Reaches s) : Res.From s₀ (execAldxAdd c t w s) := h.word (fun _ h => h.imageWord (.done h.mbPend.mqPut))

theorem execMsync {c t w} (h : s₀.Reaches s) : Res.From s₀ (execMsync c t w s) := h.word (fun _ h => by
  split
  exacts [.done h.waitOn, .done h])

theorem imageFlush {c w a typ write} (h : s₀.Reaches s) : s₀.Reaches (s.imageFlush c w a typ write) := h.foldl (fun _ h _ => by
  extract_lets _
  split
  exacts [.ite h h.bypassFlush, h])

theorem storeImage {c t w a x} (h : s₀.Reaches s) : s₀.Reaches (s.storeImage c t w a x).s := by
  suffices ∀ q, q = s.storeImage c t w a x → s₀.Reaches q.s from this _ rfl
  rw [show State.storeImage = _ by delta State.storeImage; rfl]
  have hwrite : ∀ u off n m v, s₀.Reaches u → s₀.Reaches (u.bankWrite c off n m v).2 := fun _ _ _ _ _ h => h.bankWrite
  obtain ⟨write, is_write⟩ : ∃ f, f = @State.bankWrite := ⟨_, rfl⟩
  rw [← is_write] at hwrite ⊢
  rintro _ rfl
  extract_lets _
  refine Reaches.foldlOn ImageGo.s h (fun _ _ h => ?_)
  extract_lets _ _
  split
  · exact h
  · exact h
  · split
    exacts [hwrite _ _ _ _ _ h, h.bypassGo.noteWrite.depart]

theorem loadImage {c w a typ status data} (h : s₀.Reaches s) : s₀.Reaches (s.loadImage c w a typ status data).2.2 := by
  suffices ∀ q, q = s.loadImage c w a typ status data → s₀.Reaches q.2.2 from this _ rfl
  rw [show State.loadImage = _ by delta State.loadImage; rfl]
  have hread : ∀ u off n, s₀.Reaches u → s₀.Reaches (u.bankRead c off n).2 := fun _ _ _ h => h.bankRead
  obtain ⟨read, is_read⟩ : ∃ f, f = @State.bankRead := ⟨_, rfl⟩
  rw [← is_read] at hread ⊢
  rintro _ rfl
  exact Reaches.foldlThird h (fun _ _ h => by
    extract_lets _ _ _
    split
    · exact h
    · exact h
    · split
      · split
        · next e => exact (hread _ _ _ h).of_snd e
        · next e => exact (hread _ _ _ h).of_snd e
      · exact h)

theorem askImage {c t w a typ} (h : s₀.Reaches s) : s₀.Reaches (s.askImage c t w a typ) := h.foldl (fun _ h _ => by
  extract_lets _
  split
  exacts [.ite h h.depart, h])

theorem setFront {c e} (h : s₀.Reaches s) : s₀.Reaches (s.setFront c e) := h.setCore

theorem mismatch {c e det} (h : s₀.Reaches s) : s₀.Reaches (s.mismatch c e det) := by
  unfold State.mismatch
  extract_lets _ s1 _
  have h1 : s₀.Reaches s1 := h.setAcc
  split
  exacts [h1, h1, h1.abandon.suspendNotice, h1.abandon.suspendNotice, h1.suspendNotice]

theorem runEntry {c e} (h : s₀.Reaches s) : s₀.Reaches (s.runEntry c e) := by
  unfold State.runEntry
  extract_lets _ _ _
  split
  · extract_lets _ _ _
    exact h.setCore.setAcc
  · exact h.setAcc
  · exact h
  · extract_lets _ _
    exact h.storeImage.setCore
  · exact h.askImage
  · exact h.askImage

theorem execMatrixEntryStart {c residue} (h : s₀.Reaches s) : Res.From s₀ (execMatrixEntryStart c residue s) := by
  unfold Machine.execMatrixEntryStart
  refine .next ?_
  split
  · exact h
  · extract_lets _ _ _
    split
    · exact h
    · split
      · exact h.setFront
      · split
        · exact h.setFront.bump.mismatch
        · split
          · split
            exacts [h.imageFlush, h]
          · exact h.runEntry.setFront

theorem acvtRun {c e n q cc scale} (h : s₀.Reaches s) : s₀.Reaches (s.acvtRun c e n q cc scale) := by
  unfold State.acvtRun
  exact (h.foldl (fun _ h _ => h.setRow)).landOne

theorem endEntry {c e status data} (h : s₀.Reaches s) : s₀.Reaches (s.endEntry c e status data) := by
  unfold State.endEntry
  extract_lets note _
  have hnote : ∀ (s : State), s₀.Reaches s → ∀ (mb : ℕ) (st : Status), s₀.Reaches (note s mb st) := fun _ h _ _ => h.setCore
  split
  exacts [.ite h.setCore.bump h, h, .ite h h.acvtRun, .ite (hnote _ h _ _) h,
    .ite (hnote _ h _ _) (.ite (hnote _ h.loadImage.setAcc _ _) (hnote _ h.loadImage.setAcc _ _)),
      .ite (hnote _ h _ _) (.ite (hnote _ h.loadImage.setAcc _ _) (hnote _ h.loadImage.setAcc _ _))]

theorem imageLanded {c} (h : s₀.Reaches s) : s₀.Reaches (s.imageLanded c) := .ite h.setCore.settle h

theorem execMatrixEntryComplete {c status data} (h : s₀.Reaches s) : Res.From s₀ (execMatrixEntryComplete c status data s) := by
  unfold Machine.execMatrixEntryComplete
  refine .next ?_
  split
  exacts [h, .ite h (h.imageLanded.endEntry.setCore.foldl (fun _ h _ => .ite h.setThr h))]

theorem execImageAccessComplete {c t m status} (h : s₀.Reaches s) : Res.From s₀ (execImageAccessComplete c t m status s) := by
  unfold Machine.execImageAccessComplete
  extract_lets _
  refine .next ?_
  split
  · exact h
  · extract_lets _
    exact h.setCore.mbReply

theorem execShadowCheckArm {c} (h : s₀.Reaches s) : Res.From s₀ (execShadowCheckArm c s) := .next (.ite h (.ite h.setCore.setFld h))

theorem execShadowCheckDone {c differs} (h : s₀.Reaches s) : Res.From s₀ (execShadowCheckDone c differs s) := by
  unfold Machine.execShadowCheckDone
  extract_lets _ s1
  have h1 : s₀.Reaches s1 := h.setCore.bumpWrap
  refine .next ?_
  split
  exacts [h, .ite h (.ite h1.bump.mismatch h1)]

end State.Reaches
end Sys2Proof.Machine
end

section
/-! SUPPORT for O59. What operations keep: replies, traps and a core's control registers. -/
namespace Sys2Proof.Machine
namespace State.Reaches

variable {s₀ s u : State}

-- One thread elaborates these theorems: many at once hold many stacks.
set_option Elab.async false

/-! ### Sys2Proof/Machine/Replies.lean -/

theorem kernelOver {c} (h : s₀.Reaches s) : s₀.Reaches (s.kernelOver c) := .ite h.setCore.setFld h

theorem acked {c t id} (h : s₀.Reaches s) : s₀.Reaches (s.acked c t id) := by
  unfold State.acked
  extract_lets _ s1 _
  have h1 : s₀.Reaches s1 := h.landAccess.setThr
  refine kernelOver ?_
  split
  exacts [.ite h1.ready h1, .ite h1.ready h1, h1]

theorem loadReply {c t status value} (h : s₀.Reaches s) : s₀.Reaches (s.loadReply c t status value) := by
  unfold State.loadReply
  extract_lets _ s'
  have hs' : s₀.Reaches s' := h.landAccess
  split
  · exact hs'
  · split
    · exact .ite hs'.landOne.ready hs'.failWord
    · extract_lets s1
      have h1 : s₀.Reaches s1 := hs'.acked
      exact .ite h1.landOne.countAtomic.ready h1.failWord
    · exact hs'

theorem execLoadReply {c t status value} (h : s₀.Reaches s) : Res.From s₀ (execLoadReply c t status value s) :=
  .next (h.inward (fun _ h => h.loadReply))

theorem mailboxReply {c t m status value} (h : s₀.Reaches s) : s₀.Reaches (s.mailboxReply c t m status value) := by
  unfold State.mailboxReply
  extract_lets _ s' done
  have hs' : s₀.Reaches s' := h.landAccess
  have hdone : s₀.Reaches done := hs'.setThr
  split
  · exact hs'
  · split
    · exact hs'.passTo
    · split
      · split
        · exact hs'
        · extract_lets s1
          have h1 : s₀.Reaches s1 := hdone.acked
          exact (Reaches.ite h1.countAtomic h1).mbReply
        · exact hdone.mbReply
      · exact hdone.mbReply

theorem execMailboxReply {c t m status value} (h : s₀.Reaches s) : Res.From s₀ (execMailboxReply c t m status value s) := by
  unfold Machine.execMailboxReply
  extract_lets _
  exact .next (.ite h.mailboxReply (h.inward (fun _ h => h.mailboxReply)))

theorem underHalt {c t f} (h : s₀.Reaches s) (hf : ∀ (u : State), s₀.Reaches u → s₀.Reaches (f u)) : s₀.Reaches (s.underHalt c t f) := by
  unfold State.underHalt
  extract_lets _
  split
  · extract_lets s1 _
    have h1 : s₀.Reaches s1 := hf _ h.setThr
    exact .ite h1 h1.setThr
  · exact hf _ h

theorem feReply {c t m status value tag} (h : s₀.Reaches s) : s₀.Reaches (s.feReply c t m status value tag) := by
  unfold State.feReply
  extract_lets _ _
  exact h.landAccess.underHalt (fun _ h => by
    extract_lets _
    split
    · split
      exacts [.ite h (.ite h.feMail h.setThr.feMail.mbWake), h]
    · split
      exacts [.ite h (Reaches.ite h.acked h).feOutcome, h])

theorem execFeReply {c t m status value tag} (h : s₀.Reaches s) : Res.From s₀ (execFeReply c t m status value tag s) :=
  .next (h.inward (fun _ h => h.feReply))

theorem writeAck {c t id status} (h : s₀.Reaches s) : s₀.Reaches (s.writeAck c t id status) := by
  unfold State.writeAck
  extract_lets _ s'
  have hs' : s₀.Reaches s' := h.landAccess
  split
  · exact h.acked
  · split
    exacts [.ite hs' (.ite hs'.ready hs'.failWord), hs']

theorem execWriteAck {c t id status} (h : s₀.Reaches s) : Res.From s₀ (execWriteAck c t id status s) := .next (h.inward (fun _ h => h.writeAck))

theorem sendLeave {c t n scope a} (h : s₀.Reaches s) : s₀.Reaches (s.sendLeave c t n scope a) := by
  unfold State.sendLeave
  extract_lets _ _ _ _ _ _ mark
  have hmark : ∀ (st : ℕ) (s : State), s₀.Reaches s → s₀.Reaches (mark st s) := fun _ _ h => h.setThr.dropPlace
  split
  · extract_lets r1 r2
    have hr1 : s₀.Reaches r1.2 := by
      unfold r1
      split
      exacts [h, h.memWrite]
    have hr2 : s₀.Reaches r2.2 := hr1.feBank
    exact .ite (hmark _ _ hr1) (hmark _ _ hr2)
  · next e => exact hmark _ _ (h.reach.of_refused e)
  · exact h.depart

theorem execReleaseDepart {c t id} (h : s₀.Reaches s) : Res.From s₀ (execReleaseDepart c t id s) := by
  unfold Machine.execReleaseDepart
  extract_lets _ s1
  have h1 : s₀.Reaches s1 := h.setThr
  refine .next ?_
  split
  · exact h
  · split
    · exact h
    · split
      · exact h1.sendLeave
      · extract_lets _ _ q
        have hq : s₀.Reaches q.2 := h1.feLeave
        split
        · exact h.bypassFlush
        · split
          exacts [hq.feApply, hq]

theorem preloadOn {c t first next last} (h : s₀.Reaches s) : s₀.Reaches (s.preloadOn c t first next last) := by
  unfold State.preloadOn
  extract_lets up again
  have hup : s₀.Reaches up := h.ready
  have hagain : s₀.Reaches again := h.restoreCtx.ready
  split
  · next e => exact hup.preloadGo.of_done e
  · exact h.failWord
  · split
    · next e => exact hagain.preloadGo.of_hold e
    · exact hagain

theorem recheck {c} (h : s₀.Reaches s) : s₀.Reaches (s.recheck c) := (h.foldl (fun _ h _ => by
  extract_lets _
  split
  · exact h
  · split
    exacts [h.ready, h.preloadOn, .ite h (Reaches.ite h.cinvRange h).ready, h])).cacheOffDone

theorem landFetch {c fid k status v} (h : s₀.Reaches s) : s₀.Reaches (s.landFetch c fid k status v) :=
  h.landAccess.setCore.deliverFill.setCore.recheck

theorem execCacheFillLand {c fid k status v} (h : s₀.Reaches s) : Res.From s₀ (execCacheFillLand c fid k status v s) :=
  .next (h.inward (fun _ h => h.landFetch))

theorem execPrefLand {c fid k status v} (h : s₀.Reaches s) :
    Res.From s₀ (execPrefLand c fid k status v s) := .next (h.inward (fun _ h => h.landFetch))

theorem noteLost {c world line status} (h : s₀.Reaches s) : s₀.Reaches (s.noteLost c world line status) := .ite h.setCore h.bump.setFld.setReg

theorem writebackAck {c line status} (h : s₀.Reaches s) : s₀.Reaches (s.writebackAck c line status) := by
  unfold State.writebackAck
  extract_lets s' _
  have hs' : s₀.Reaches s' := h.landAccess
  split
  · exact hs'
  · extract_lets s1 s2 s3 _
    have h1 : s₀.Reaches s1 := hs'.setCore
    have h2 : s₀.Reaches s2 := h1.noteLost
    have h3 : s₀.Reaches s3 := by
      unfold s3
      split
      · exact h2
      · split
        exacts [h2.failWord, h2]
    exact .ite h1.recheck.kernelOver h3.setCore.recheck.kernelOver

theorem execWritebackAck {c line status} (h : s₀.Reaches s) : Res.From s₀ (execWritebackAck c line status s) :=
  .next (h.inward (fun _ h => h.writebackAck))

/-! ### Sys2Proof/Machine/Traps.lean -/

theorem clockTo {c now} (h : s₀.Reaches s) : s₀.Reaches (s.clockTo c now) := .ite h h.passTo

theorem setLine {c line} (h : s₀.Reaches s) : s₀.Reaches (s.setLine c line) := h.setReg

theorem execThreadSuspend {c k} (h : s₀.Reaches s) : Res.From s₀ (execThreadSuspend c k s) := by
  unfold Machine.execThreadSuspend
  extract_lets _ s1 _
  have h1 : s₀.Reaches s1 := h.suspend
  refine .next ?_
  split
  · exact h
  · split
    exacts [h1.setThr, h1.setThr, h]

theorem execThreadFaultTaken {c keeper} (h : s₀.Reaches s) : Res.From s₀ (execThreadFaultTaken c keeper s) := by
  unfold Machine.execThreadFaultTaken
  extract_lets _ _ _ _ _
  refine .next ?_
  split
  exacts [h, .ite h (Reaches.ite h.setCore.abandon h.setCore).enter]

theorem execInterruptTaken {c line} (h : s₀.Reaches s) : Res.From s₀ (execInterruptTaken c line s) := by
  unfold Machine.execInterruptTaken
  extract_lets _ _ _
  refine .next ?_
  split
  · exact h
  · split
    · exact h
    · extract_lets _ s1 s2
      have h1 : s₀.Reaches s1 := .ite h.setThr h.setReg
      have h2 : s₀.Reaches s2 := .ite h1.abandon h1
      exact h2.enter

theorem execTimerFire {c t now} (h : s₀.Reaches s) : Res.From s₀ (execTimerFire c t now s) := .next (.ite h.clockTo.setTf.setThr h.clockTo)

theorem execStalemate {c keeper} (h : s₀.Reaches s) : Res.From s₀ (execStalemate c keeper s) := by
  unfold Machine.execStalemate
  extract_lets _ _ _ _ _ noted take
  have hnoted : s₀.Reaches noted := h.setCore
  have htake : ∀ t, s₀.Reaches (take t) := fun _ => by
    unfold take
    split
    exacts [hnoted.abandon.raise, hnoted.raise, h]
  exact .next (.ite h (.ite (htake _) (.ite hnoted.send (htake _))))

theorem execWaitTimeout {c t now} (h : s₀.Reaches s) : Res.From s₀ (execWaitTimeout c t now s) := by
  unfold Machine.execWaitTimeout
  extract_lets s1 _ s2
  have h1 : s₀.Reaches s1 := h.clockTo
  have h2 : s₀.Reaches s2 := h1.abandon
  exact .next (.ite (Reaches.ite h2.bump h2).raise h1)

theorem execScopeMismatchTaken {c t} (h : s₀.Reaches s) : Res.From s₀ (execScopeMismatchTaken c t s) := .next (.ite h.setThr.raise h)

theorem wakeNotify {c mask} (h : s₀.Reaches s) : s₀.Reaches (s.wakeNotify c mask) := h.setLine.foldl (fun _ h _ => by
  extract_lets _
  split
  · exact h
  · split
    exacts [h.ready, h.setThr, h])

theorem execWakeNotifyArrive {ag c mask} (h : s₀.Reaches s) : Res.From s₀ (execWakeNotifyArrive ag c mask s) :=
  .next (h.inward (fun _ h => .ite h.countStale h.wakeNotify))

theorem feAgain {c t op dest a data opt m} (h : s₀.Reaches s) : s₀.Reaches (s.feAgain c t op dest a data opt m) := by
  unfold State.feAgain
  extract_lets _ _ s1 r
  have h1 : s₀.Reaches s1 := by
    unfold s1
    split
    exacts [h.setThr, h.mbNote]
  have hr : s₀.Reaches r.2 := h1.feLeave
  split
  · exact hr
  · extract_lets s2
    have h2 : s₀.Reaches s2 := .ite hr.acked hr
    split
    exacts [h2.feMail.mbWake, h2.feOutcome]

theorem wakeThread {c t tag} (h : s₀.Reaches s) : s₀.Reaches (s.wakeThread c t tag) := by
  unfold State.wakeThread
  split
  exacts [.ite h.feDone h.feAgain, h]

theorem watchWake {c t m a tag epoch} (h : s₀.Reaches s) : s₀.Reaches (s.watchWake c t m a tag epoch) := by
  unfold State.watchWake
  extract_lets _ stale
  have hstale : s₀.Reaches stale := h.bump
  split
  · exact hstale
  · split
    · split
      exacts [.ite hstale (.ite h.setThr h.wakeThread), hstale]
    · split
      exacts [.ite h.feAgain hstale, hstale]

theorem execWatchWakeArrive {c t m a tag epoch} (h : s₀.Reaches s) : Res.From s₀ (execWatchWakeArrive c t m a tag epoch s) := by
  unfold Machine.execWatchWakeArrive
  extract_lets _
  exact .next (.ite h.watchWake (h.inward (fun _ h => h.watchWake)))

theorem execWatchPollExpiry {c t m} (h : s₀.Reaches s) : Res.From s₀ (execWatchPollExpiry c t m s) := by
  unfold Machine.execWatchPollExpiry
  extract_lets _
  refine .next ?_
  split
  · split
    exacts [.ite h (.ite h.setThr h.feAgain), h]
  · split
    exacts [h.feAgain, h]

theorem execKmsgArrive {c} (h : s₀.Reaches s) : Res.From s₀ (execKmsgArrive c s) := .next h.setLine

/-! ### Sys2Proof/Machine/CoreMmr.lean -/

theorem coreWrite {ag n off f} (h : s₀.Reaches s) (hf : ∀ (u : State), s₀.Reaches u → s₀.Reaches (f u)) : s₀.Reaches (s.coreWrite ag n off f) := by
  rw [show State.coreWrite = _ by delta State.coreWrite; rfl]
  split
  · next e => exact (h.reach.of_refused e).reply
  · exact h
  · exact (hf _ h).reply

theorem execImemPtrWrite {ag c v} (h : s₀.Reaches s) : Res.From s₀ (execImemPtrWrite ag c v s) :=
  .next (.ite h.reply (h.coreWrite (fun _ h => h.setReg)))

theorem execImemDataWrite {ag c v} (h : s₀.Reaches s) : Res.From s₀ (execImemDataWrite ag c v s) :=
  .next (h.coreWrite (fun _ h => (Reaches.ite h.setFld h.setCore).setFld))

theorem execThreadCtlStop {ag c v} (h : s₀.Reaches s) : Res.From s₀ (execThreadCtlStop ag c v s) :=
    .next (h.coreWrite (fun _ h => h.foldl (fun _ h _ => by
      extract_lets _
      split
      · exact h
      · split
        exacts [h, h, h.suspend, h.setThr])))

theorem startThread {c k} (h : s₀.Reaches s) : s₀.Reaches (s.startThread c k) := h.clearNotice.setTf.setTf.setTf.setTf.setThr

theorem execThreadCtlStart {ag c v} (h : s₀.Reaches s) : Res.From s₀ (execThreadCtlStart ag c v s) :=
  .next (.ite h (h.coreWrite (fun _ h => (Reaches.ite h.setFld h).foldl (fun _ h _ => .ite h (.ite h.startThread h.setFld)))))

theorem execSwiRaise {ag c v} (h : s₀.Reaches s) : Res.From s₀ (execSwiRaise ag c v s) :=
  .next (h.coreWrite (fun _ h => h.foldl (fun _ h _ => .ite h.setLine h)))

theorem execTclassWrite {ag c v} (h : s₀.Reaches s) : Res.From s₀ (execTclassWrite ag c v s) :=
  .next (h.coreWrite (fun _ h => h.foldl (fun _ h _ => .ite h.setFld h)))

theorem flushAll {c} (h : s₀.Reaches s) : s₀.Reaches (s.flushAll c) := (h.foldl (fun _ h _ => h.writeBack)).setCache

theorem kernelEnd {c} (h : s₀.Reaches s) : s₀.Reaches (s.kernelEnd c) := h.flushAll.setCore.kernelOver

theorem execKexit {c t v} (h : s₀.Reaches s) : Res.From s₀ (execKexit c t v s) := by
  unfold Machine.execKexit
  extract_lets _ _ s0 s1 _ s2 _ s3
  have h0 : s₀.Reaches s0 := .ite h h.ready
  have h1 : s₀.Reaches s1 := h0.suspend
  have h2 : s₀.Reaches s2 := h1.setThr
  have h3 : s₀.Reaches s3 := h2.setCore.setFld
  exact .next (.ite h (.ite h3.kernelEnd h3))

theorem execWdogKick {c t v} (h : s₀.Reaches s) : Res.From s₀ (execWdogKick c t v s) := .next (.ite h.setThr h)

theorem execWdogCtlWrite {ag c v} (h : s₀.Reaches s) : Res.From s₀ (execWdogCtlWrite ag c v s) :=
  .next (h.coreWrite (fun _ h => .ite h.setFld.setFld h.setFld))

theorem execSendData {c t w v} (h : s₀.Reaches s) : Res.From s₀ (execSendData c t w v s) := .next (.ite h h.setThr.setTf)

theorem execSendCommit {c t v} (h : s₀.Reaches s) : Res.From s₀ (execSendCommit c t v s) := by
  unfold Machine.execSendCommit
  extract_lets _ _ _ _ code _ s1 _ _
  have hcode : ∀ (st : ℕ) (s : State), s₀.Reaches s → s₀.Reaches (code st s) := fun _ _ h => h.setTf
  have h1 : s₀.Reaches s1 := h.setTf.setTf
  refine .next ?_
  split
  · exact h
  · split
    · exact (hcode _ _ h).setTf.setTf
    · split
      · exact hcode _ _ h
      · split
        · exact hcode _ _ h
        · exact h
        · extract_lets near
          clear_value near
          split
          exacts [hcode _ _ h, .ite (hcode _ _ h) (.ite h1.sendLeave h1.setThr.holdPlace)]

theorem sendDone {c t status} (h : s₀.Reaches s) : s₀.Reaches (s.sendDone c t status) := .ite h.landAccess h.landAccess.setThr.setTf.setTf

theorem execSendAck {c t status} (h : s₀.Reaches s) : Res.From s₀ (execSendAck c t status s) := by
  unfold Machine.execSendAck
  extract_lets _ _
  exact .next (.ite h.sendDone (h.inward (fun _ h => h.sendDone)))

theorem execModuleIdWrite {ag v} (h : s₀.Reaches s) : Res.From s₀ (execModuleIdWrite ag v s) := by
  unfold Machine.execModuleIdWrite
  extract_lets _ _ _ s1
  have h1 : s₀.Reaches s1 := h.setFld
  exact .next (.ite h.reply (Reaches.ite h1.setFld h1).reply)

theorem keepKeeper {c f first old} (h : s₀.Reaches s) (hold : s₀.Reaches old) : s₀.Reaches (s.keepKeeper c f first old) :=
  h.foldl (fun _ h _ => .ite h.setFld h)

theorem dropPartner (h : s₀.Reaches s) : s₀.Reaches s.dropPartner := h.setFld.setFld.setFld.setKp

theorem emptyReserve (h : s₀.Reaches s) : s₀.Reaches s.emptyReserve := h.foldl (fun _ h _ => h.initBytes.foldl (fun _ h _ => .ite h.initBytes h))

theorem dropHosted (h : s₀.Reaches s) : s₀.Reaches s.dropHosted := by
  unfold State.dropHosted
  extract_lets s1 _ _
  have h1 : s₀.Reaches s1 := h.setFld.emptyReserve
  clear_value s1
  exact h1.setKp

theorem rackRecheck (h : s₀.Reaches s) : s₀.Reaches s.rackRecheck := by
  unfold State.rackRecheck
  extract_lets s1
  have h1 : s₀.Reaches s1 := .ite h.dropPartner h
  exact .ite h1.dropHosted h1

theorem rackMoved (h : s₀.Reaches s) : s₀.Reaches s.rackMoved := (h.foldl (fun _ h _ => h.send)).rackRecheck

theorem afterWrite {old r w} (h : s₀.Reaches s) (hold : s₀.Reaches old) : s₀.Reaches (s.afterWrite old r w) := by
  unfold State.afterWrite
  split
  · exact .ite h (h.keepKeeper hold)
  · exact .ite h (h.keepKeeper hold)
  · exact .ite h h.setFld
  · exact .ite hold (.ite h.setFld.setFld (.ite h.setFld.setFld h.setFld))
  · extract_lets _ s1
    have h1 : s₀.Reaches s1 := hold.setFld
    exact .ite (.ite hold (.ite h1.setFld h1)) (.ite h.setFld h)
  · extract_lets _
    exact .ite hold h
  · exact .ite hold h
  · exact h.rackMoved
  · exact .ite hold h
  · extract_lets _
    exact .ite h h.setFld
  · extract_lets _
    exact .ite hold h
  · exact h

theorem putRegister {r w n v} (h : s₀.Reaches s) : s₀.Reaches (s.putRegister r w n v) := h.setReg.afterWrite h

theorem putPlace {p r w n v} (h : s₀.Reaches s) : s₀.Reaches (s.putPlace p r w n v) := by
  unfold State.putPlace
  split
  exacts [h.putRegister, h.putRegister.putRegister]

theorem execRegisterWrite {ag a half v} (h : s₀.Reaches s) : Res.From s₀ (execRegisterWrite ag a half v s) := by
  unfold Machine.execRegisterWrite
  extract_lets _ _
  refine .next ?_
  split
  · next e => exact (h.reach.of_refused e).reply
  · exact h
  · split
    · exact h
    · extract_lets _
      exact .ite h h.putPlace.reply

/-! ### Sys2Proof/Machine/Pot.lean -/

theorem setPot {c n p} (h : s₀.Reaches s) : s₀.Reaches (s.setPot c n p) := h.setCore.setReg

theorem markSpoiled {c} (h : s₀.Reaches s) : s₀.Reaches (s.markSpoiled c) := .ite (h.foldl (fun _ h _ => .ite h.setPot h)) h

theorem stirHold {c} (h : s₀.Reaches s) : s₀.Reaches (s.stirHold c) := h.free.writeLE.setCore

theorem execPotHoldWrite {ag c v} (h : s₀.Reaches s) : Res.From s₀ (execPotHoldWrite ag c v s) :=
  .next (.ite h.reply (h.coreWrite (fun _ h => .ite h h.setFld.setFld)))

theorem execPotOpen {ag c v} (h : s₀.Reaches s) : Res.From s₀ (execPotOpen ag c v s) := by
  unfold Machine.execPotOpen
  extract_lets _ _ _ _ _
  refine .next (h.coreWrite (fun _ h => ?_))
  have hread : ∀ u dest, s₀.Reaches u → s₀.Reaches (u.bankRead c dest 64).2 := fun _ _ h => h.bankRead
  obtain ⟨read, is_read⟩ : ∃ f, f = @State.bankRead := ⟨_, rfl⟩
  rw [← is_read] at hread ⊢
  extract_lets _ _ s1 base r _ s3
  have h1 : s₀.Reaches s1 := h.foldl (fun _ h _ => h.tagWord.fireWatches)
  have hbase : s₀.Reaches base.2 := by
    unfold base
    split
    · next e => exact (hread _ _ h1).of_snd e
    · next e => exact ((hread _ _ h1).of_snd e).free
  clear_value base s1
  have hr : s₀.Reaches r.2 := by
    unfold r
    exact .iteSnd hbase h1
  exact .ite h.setFld (.ite hr.setPot.stirHold hr.setPot)

theorem execPotCancel {ag c v} (h : s₀.Reaches s) : Res.From s₀ (execPotCancel ag c v s) :=
  .next (h.coreWrite (fun _ h => h.foldl (fun _ h _ => .ite h.setPot h)))

theorem potFinish {c n p r} (h : s₀.Reaches s) : s₀.Reaches (s.potFinish c n p r) := by
  suffices ∀ q, q = s.potFinish c n p r → s₀.Reaches q from this _ rfl
  rw [show State.potFinish = _ by delta State.potFinish; rfl]
  have hwrite : ∀ u v, s₀.Reaches u → s₀.Reaches (u.bankWrite c p.dest 64 (2 ^ 64 - 1) v).2 := fun _ _ h => h.bankWrite
  obtain ⟨write, is_write⟩ : ∃ f, f = @State.bankWrite := ⟨_, rfl⟩
  rw [← is_write] at hwrite ⊢
  rintro _ rfl
  extract_lets _ f _ s0 s1
  have h0 : s₀.Reaches s0 := .ite h.free h
  have h1 : s₀.Reaches s1 := h0.setPot
  split
  · next e => exact (hwrite _ _ h1).of_snd e
  · next e => exact ((hwrite _ _ h1).of_snd e).foldl (fun _ h _ => h.setTag.fireWatches)

theorem potAccept {c n x} (h : s₀.Reaches s) : s₀.Reaches (s.potAccept c n x) := by
  unfold State.potAccept
  extract_lets _ _ _ _ _ _ _
  split
  · split
    exacts [h.potFinish.stirHold, h.setPot.stirHold]
  · exact .ite h.potFinish h.setPot

theorem potAnswer {tags status} (h : s₀.Reaches s) : s₀.Reaches (s.potAnswer tags status) := h.foldl (fun _ h _ => h.reply)

theorem potArrive {s0 ag c off x} (h0 : s₀.Reaches s0) : s₀.Reaches (s0.potArrive ag c off x) := by
  unfold State.potArrive
  extract_lets s _ _ orphan
  have h : s₀.Reaches s := h0.markSpoiled
  have horphan : ∀ (st : ℕ), s₀.Reaches (orphan st) := fun _ => h.bump.potAnswer
  split
  · exact h.bump.potAnswer
  · split
    · exact h.boundaryCount.potAnswer
    · split
      · exact h.countStale.potAnswer
      · split
        · exact horphan _
        · extract_lets _ _
          exact .ite (horphan _) (.ite (horphan _) (.ite h.setPot.potAnswer h.potAccept.potAnswer))

theorem execPotContributionArrive {ag c off x} (h : s₀.Reaches s) : Res.From s₀ (execPotContributionArrive ag c off x s) := .next h.potArrive

end State.Reaches
end Sys2Proof.Machine
end

section
/-! SUPPORT for O59. What operations keep: the mesh, requests by way of it, and queues. -/
namespace Sys2Proof.Machine
namespace State.Reaches

variable {s₀ s u : State}

-- One thread elaborates these theorems: many at once hold many stacks.
set_option Elab.async false

/-! ### Sys2Proof/Machine/Mesh.lean -/

theorem setRtr {n r} (h : s₀.Reaches s) : s₀.Reaches (s.setRtr n r) := h.same

theorem dealAck {p pos status} (h : s₀.Reaches s) : s₀.Reaches (s.dealAck p pos status) := by
  unfold State.dealAck
  split
  · exact h
  · extract_lets _
    exact .ite h.same.reply h.same

theorem turnBack {p} (h : s₀.Reaches s) : s₀.Reaches (s.turnBack p) := by
  unfold State.turnBack
  split
  exacts [h.dealAck, h.potAnswer, h.reply]

theorem zeroHalf {p h'} (h : s₀.Reaches s) : s₀.Reaches (s.zeroHalf p h') := h.foldl (fun _ h _ => .ite h.initBytes.initBytes h)

/-! ### Sys2Proof/Machine/Via.lean -/

theorem readVia {w a n fs fd} (h : s₀.Reaches s) : s₀.Reaches (s.readVia w a n fs fd).2.2 := Reaches.foldlThird h (fun _ _ h => by
  split
  · exact h
  · split
    · exact h
    · next e => exact h.reach.of_refused e
    · exact h
    · split
      · extract_lets v
        have hv : s₀.Reaches v.2 := h.mmrRead
        exact hv
      · extract_lets v
        have hv : s₀.Reaches v.2.2 := h.memRead
        exact hv)

theorem writeVia {w a n v fs} (h : s₀.Reaches s) : s₀.Reaches (s.writeVia w a n v fs).2.2 := Reaches.foldlThird h (fun _ _ h => by
  split
  · exact h
  · extract_lets _ leave
    have hleave : ∀ (s : State), s₀.Reaches s → s₀.Reaches (leave s) := fun _ h => h.send
    split
    · exact h
    · next e => exact h.reach.of_refused e
    · split
      exacts [hleave _ h, hleave _ h]
    · split
      · split
        exacts [hleave _ h, hleave _ h]
      · extract_lets q
        have hq : s₀.Reaches q.2 := h.memWrite
        split
        exacts [hq, hq])

theorem regWrite {ag off len f} (h : s₀.Reaches s) (hf : ∀ (u : State), s₀.Reaches u → s₀.Reaches (f u)) : s₀.Reaches (s.regWrite ag off len f) := by
  unfold State.regWrite
  split
  · next e => exact (h.reach.of_refused e).reply
  · exact h
  · exact (hf _ h).reply

/-! ### Sys2Proof/Machine/Fence.lean -/

theorem setFence {key v} (h : s₀.Reaches s) : s₀.Reaches (s.setFence key v) := .ite h h.same

theorem markDomain {p dom idx v} (h : s₀.Reaches s) : s₀.Reaches (s.markDomain p dom idx v) := by
  unfold State.markDomain
  extract_lets s1 s2 s3
  have h1 : s₀.Reaches s1 := .ite h.setFence h
  have h2 : s₀.Reaches s2 := h1.foldl (fun _ h _ => .ite (.ite h h.setFld) (Reaches.ite h h.setFld).setFld)
  have h3 : s₀.Reaches s3 := h2.foldl (fun _ h _ => h.setFence)
  exact .ite h3.setFld h3

theorem resetDrain {p} (h : s₀.Reaches s) : s₀.Reaches (s.resetDrain p) := h.setFld.markDomain

/-! ### Sys2Proof/Machine/Queue.lean -/

theorem setQp {q x} (h : s₀.Reaches s) : s₀.Reaches (s.setQp q x) := h.same

theorem log {page vals} (h : s₀.Reaches s) : s₀.Reaches (s.log page vals) := h.same

theorem setLink {l x} (h : s₀.Reaches s) : s₀.Reaches (s.setLink l x) := h.same

theorem setFn {f x} (h : s₀.Reaches s) : s₀.Reaches (s.setFn f x) := h.same

theorem hostWrite {f a n v} (h : s₀.Reaches s) : s₀.Reaches (s.hostWrite f a n v) := (Reaches.ite h.setLink h).send

theorem interrupt {q} (h : s₀.Reaches s) : s₀.Reaches (s.interrupt q) := h.setQp.send

theorem posted {q n} (h : s₀.Reaches s) : s₀.Reaches (s.posted q n) := .ite h.setQp (.ite h.setQp.interrupt h.setQp)

theorem writeEntry {q e} (h : s₀.Reaches s) : s₀.Reaches (s.writeEntry q e).2 := by
  unfold State.writeEntry
  extract_lets _ _ _ _ r r2
  have hr : s₀.Reaches r.2.2 := h.writeVia
  have hr2 : s₀.Reaches r2.2.2 := hr.writeVia
  split
  · exact h.hostWrite.hostWrite
  · split
    exacts [hr, hr2]

theorem dmaAcked {a} (h : s₀.Reaches s) : s₀.Reaches (s.dmaAcked a) := by
  unfold State.dmaAcked
  split
  · exact h
  · extract_lets _
    exact h.same

theorem drainCq {q n} (h : s₀.Reaches s) : s₀.Reaches (s.drainCq q n).2 := by
  induction n generalizing s with
  | zero => exact h
  | succ n ih =>
    unfold State.drainCq
    extract_lets _ _ _
    split
    · exact h
    · extract_lets r _ s1
      have hr : s₀.Reaches r.2 := h.writeEntry
      have h1 : s₀.Reaches s1 := hr.dmaAcked.setQp
      clear_value s1 r
      exact .iteSnd h (.iteSnd hr.setQp (.iteSnd hr (ih h1.setFld.posted)))

theorem qErrorMark {q code} (h : s₀.Reaches s) : s₀.Reaches (s.qErrorMark q code) := h.setFld.setFld.setQp.foldl (fun _ h _ => .ite h.log h)

theorem fatal {f} (h : s₀.Reaches s) : s₀.Reaches (s.fatal f) := h.setFld.send

theorem queueEvent {q code words} (h : s₀.Reaches s) : s₀.Reaches (s.queueEvent q code words) := .ite h.setQp.bump.log h.setQp

theorem qError {q code} (h : s₀.Reaches s) : s₀.Reaches (s.qError q code) := by
  unfold State.qError
  extract_lets _ s1
  have h1 : s₀.Reaches s1 := h.qErrorMark
  split
  · exact h1
  · split
    · exact h1.fatal
    · split
      exacts [h1, .ite h1.fatal (.ite h1 (.ite h1.queueEvent.drainCq.qErrorMark.fatal h1.queueEvent.drainCq))]

theorem drain {q} (h : s₀.Reaches s) : s₀.Reaches (s.drain q) := .ite h.drainCq.qError h.drainCq

theorem postEntry {q e} (h : s₀.Reaches s) : s₀.Reaches (s.postEntry q e) := .ite (.ite h.setQp h.setQp.drain) (.ite h.log h)

theorem postEvent {q code words} (h : s₀.Reaches s) : s₀.Reaches (s.postEvent q code words) := .ite (.ite h.queueEvent h.queueEvent.drain) h

theorem eventToPlot {plot code words} (h : s₀.Reaches s) : s₀.Reaches (s.eventToPlot plot code words) := h.foldl (fun _ h _ => .ite h.postEvent h)

theorem eventToFunctions {code words} (h : s₀.Reaches s) : s₀.Reaches (s.eventToFunctions code words) := h.foldl (fun _ h _ => .ite h.postEvent h)

theorem setCmd {k} (h : s₀.Reaches s) : s₀.Reaches (s.setCmd k) := h.same

theorem dropCmd {k} (h : s₀.Reaches s) : s₀.Reaches (s.dropCmd k) := h.same

theorem progress {k state} (h : s₀.Reaches s) : s₀.Reaches (s.progress k state) := by
  unfold State.progress
  extract_lets _ _ _ r r2
  have hr : s₀.Reaches r.2.2 := h.writeVia
  have hr2 : s₀.Reaches r2.2.2 := by
    unfold r2
    split
    exacts [hr.writeVia, hr]
  exact .ite h (.ite h.hostWrite.hostWrite (.ite hr2 hr2.log))

theorem afterCompletion {seq} (h : s₀.Reaches s) : s₀.Reaches (s.afterCompletion seq) := h.foldl (fun _ h _ => .ite h.dropCmd.postEntry h.dropCmd)

theorem countSlots (h : s₀.Reaches s) : s₀.Reaches s.countSlots := h.setFld

theorem flrOver {f} (h : s₀.Reaches s) : s₀.Reaches (s.flrOver f) := .ite h.setFld h

theorem flagOp {w a op v rel scope status} (h : s₀.Reaches s) : s₀.Reaches (s.flagOp w a op v rel scope status).2 := by
  unfold State.flagOp
  split
  · exact h
  · next e => exact h.reach.of_refused e
  · exact h.send
  · exact h.memFe

theorem setRack {x} (h : s₀.Reaches s) : s₀.Reaches (s.setRack x) := h.same

theorem rackAdmit {k} (h : s₀.Reaches s) : s₀.Reaches (s.rackAdmit k) := .ite h (.ite h.setRack.setFld h.setRack)

theorem rackEnd {k} (h : s₀.Reaches s) : s₀.Reaches (s.rackEnd k) :=
  .ite h (.ite (Reaches.ite h.flagOp h).setRack.setFld (Reaches.ite h.flagOp h).setRack)

theorem complete {k status retry more} (h : s₀.Reaches s) : s₀.Reaches (s.complete k status retry more) := by
  unfold State.complete
  extract_lets _ _ s1 s2 s3 _ s4
  have h1 : s₀.Reaches s1 := h.rackEnd.dropCmd.countSlots
  have h2 : s₀.Reaches s2 := .ite h1.setFld h1
  have h3 : s₀.Reaches s3 := .ite h2.bump h2
  have h4 : s₀.Reaches s4 := .ite h3.postEntry h3.log
  exact h4.flrOver.afterCompletion

theorem meanWait {cls now} (h : s₀.Reaches s) : s₀.Reaches (s.meanWait cls now).2 := by
  unfold State.meanWait
  extract_lets _
  split
  exacts [h.free, h]

theorem quotaHint {plot} (h : s₀.Reaches s) : s₀.Reaches (s.quotaHint plot).2 := by
  unfold State.quotaHint
  extract_lets _
  split
  exacts [h, h.free]

theorem refuseBusy {k now} (h : s₀.Reaches s) : s₀.Reaches (s.refuseBusy k now) := h.meanWait.bump.complete

theorem intake {q now v} (h : s₀.Reaches s) : s₀.Reaches (s.intake q now v) := by
  unfold State.intake
  extract_lets _ _ _ _ s1 add r
  have h1 : s₀.Reaches s1 := h.same
  have hadd : ∀ (k : Cmd) (s : State), s₀.Reaches s → s₀.Reaches (add k s) := fun _ _ h => h.same
  have hr : s₀.Reaches r.2 := h1.quotaHint
  split
  exacts [h1.complete, .ite (hadd _ _ h1) (.ite hr.bump.complete (.ite h1.refuseBusy (hadd _ _ h1).progress))]

theorem exitCode {c} (h : s₀.Reaches s) : s₀.Reaches (s.exitCode c).2 := by
  unfold State.exitCode
  extract_lets l f
  have hf : s₀.Reaches f.2 := h.free
  clear_value l
  split
  exacts [h, h, hf]

theorem stopKernel {c} (h : s₀.Reaches s) : s₀.Reaches (s.stopKernel c) := h.foldl (fun _ h _ => by
  extract_lets _
  split
  · exact h
  · split
    exacts [h, h, h.suspend, h.suspend, h.setThr])

theorem settleKernel {c} (h : s₀.Reaches s) : s₀.Reaches (s.settleKernel c) := .ite h.setFld.kernelEnd h

theorem launchEnd {k} (h : s₀.Reaches s) : s₀.Reaches (s.launchEnd k) := by
  unfold State.launchEnd
  extract_lets _ s1 _ _ r _
  have h1 : s₀.Reaches s1 := .ite (h.foldl (fun _ h _ => h.settleKernel)) h
  have hr : s₀.Reaches r.2 := by
    unfold r
    split
    exacts [h1.exitCode, h1]
  exact .ite h1 hr.complete

theorem stopLaunch {k code} (h : s₀.Reaches s) : s₀.Reaches (s.stopLaunch k code) := by
  unfold State.stopLaunch
  extract_lets _ _
  exact .ite h.launchEnd (h.setCmd.foldl (fun _ h _ => h.stopKernel)).launchEnd

theorem qpWrite {ag q off len f} (h : s₀.Reaches s) (hf : ∀ (u : State), s₀.Reaches u → s₀.Reaches (f u)) :
    s₀.Reaches (s.qpWrite ag q off len f) := by
  unfold State.qpWrite
  split
  exacts [h.regWrite hf, .ite h (hf _ h)]

theorem execSqTailDoorbell {ag q v} (h : s₀.Reaches s) : Res.From s₀ (execSqTailDoorbell ag q v s) :=
  .next (h.qpWrite (fun _ h => .ite h (.ite h.setFld (.ite h.qError (.ite h.setFld.setLine h.setFld)))))

theorem execCqHeadDoorbell {ag q v} (h : s₀.Reaches s) : Res.From s₀ (execCqHeadDoorbell ag q v s) := by
  unfold Machine.execCqHeadDoorbell
  extract_lets _ _
  exact .next (h.qpWrite (fun _ h => .ite h (.ite h.setFld (.ite h.qError (.ite h.setFld h.setFld.drain)))))

theorem disableQueue {q post} (h : s₀.Reaches s) : s₀.Reaches (s.disableQueue q post) := by
  unfold State.disableQueue
  extract_lets s1 _ _ src _ s2 _
  have h1 : s₀.Reaches s1 := h.setFld.setFld.setFld
  have hsrc : s₀.Reaches src := h1.setQp
  clear_value s1
  have h2 : s₀.Reaches s2 := hsrc.setKpOf (s1.setQp_kp ..)
  exact h2.foldl (fun _ h _ => .ite h.dropCmd (.ite (.ite h.complete h.rackEnd.dropCmd) (.ite h.complete (.ite (.ite h.stopLaunch h.setCmd)
    (.ite h.complete h.setCmd)))))

theorem execQpEnable {ag q v} (h : s₀.Reaches s) : Res.From s₀ (execQpEnable ag q v s) :=
  .next (h.qpWrite (fun _ h => .ite (.ite h.disableQueue h.setReg) (.ite h
    (.ite h.setFld h.setReg.setFld.setFld.setFld.setFld.setFld.setFld.setQp))))

theorem execQpReset {ag q} (h : s₀.Reaches s) : Res.From s₀ (execQpReset ag q s) := .next (h.qpWrite (fun _ h => h.disableQueue))

theorem execCqPost {ag q v} (h : s₀.Reaches s) : Res.From s₀ (execCqPost ag q v s) := by
  unfold Machine.execCqPost
  extract_lets _ _ _ s1
  have h1 : s₀.Reaches s1 := h.setFld
  exact .next (.ite h.reply (Reaches.ite h1 h1.setFld.posted).reply)

theorem execMsixCoalTimer {q} (h : s₀.Reaches s) : Res.From s₀ (execMsixCoalTimer q s) := .next (.ite h.interrupt h)

theorem fetch {q now status far n} (h : s₀.Reaches s) : s₀.Reaches (s.fetch q now status far n) := by
  induction n generalizing s far with
  | zero => exact h
  | succ n ih =>
    unfold State.fetch
    extract_lets _ _ _ r _ s1
    have hr : s₀.Reaches r.2.2 := by
      unfold r
      split
      exacts [h, h.readVia]
    have h1 : s₀.Reaches s1 := hr.setFld
    clear_value r s1
    exact .ite h (.ite hr.setQp (.ite hr.qError (ih h1.intake)))

theorem fetchBlock {q now n status far} (h : s₀.Reaches s) : s₀.Reaches (s.fetchBlock q now n status far) := .ite h h.fetch

theorem execSqFetch {q now n status far} (h : s₀.Reaches s) : Res.From s₀ (execSqFetch q now n status far s) := .next (.ite h h.fetchBlock)

theorem execRingAccessRetry {q now n status far} (h : s₀.Reaches s) : Res.From s₀ (execRingAccessRetry q now n status far s) := by
  unfold Machine.execRingAccessRetry
  extract_lets _ s1 _
  have h1 : s₀.Reaches s1 := .ite h.setQp.drain h
  exact .next (.ite h1.setQp.fetchBlock h1)

theorem execStepGrant {now} (h : s₀.Reaches s) : Res.From s₀ (execStepGrant now s) := by
  unfold Machine.execStepGrant
  refine .next ?_
  split
  · exact h
  · extract_lets _ s0 _ _ s1 _ s2
    have h0 : s₀.Reaches s0 := .ite h.same h
    have h1 : s₀.Reaches s1 := h0.setCmd.bump
    have h2 : s₀.Reaches s2 := h1.same
    exact .ite h2.countSlots.rackAdmit.progress h0.setCmd.countSlots

theorem resetSteps (h : s₀.Reaches s) : s₀.Reaches s.resetSteps := h.foldl (fun _ h _ => .ite h.resetDrain h)

theorem execStepEnd {q cid} (h : s₀.Reaches s) : Res.From s₀ (execStepEnd q cid s) := by
  unfold Machine.execStepEnd
  refine .next ?_
  split
  · exact (Reaches.ite h.setCmd.countSlots.progress.complete (.ite h.setCmd.countSlots.progress.complete (.ite h.setCmd.countSlots.progress.complete
      (.ite (.ite h.setCmd.countSlots.progress.setCmd h.setCmd.countSlots.progress.complete) h.setCmd.countSlots.progress)))).resetSteps
  · split
    exacts [h.launchEnd, h]

theorem execAdmitTimeout {q cid now} (h : s₀.Reaches s) : Res.From s₀ (execAdmitTimeout q cid now s) := by
  unfold Machine.execAdmitTimeout
  refine .next ?_
  split
  · exact h
  · extract_lets _ _
    exact .ite h.refuseBusy h

theorem execAdmitCfgWrite {ag v} (h : s₀.Reaches s) : Res.From s₀ (execAdmitCfgWrite ag v s) :=
  .next (.ite h.reply (Reaches.ite h.setReg.setFld.setFld.setFld h.setReg).reply)

theorem execAdmitPlotWrite {ag n v} (h : s₀.Reaches s) : Res.From s₀ (execAdmitPlotWrite ag n v s) :=
  .next (.ite h.reply (Reaches.ite h h.setFld).reply)

/-! ### Sys2Proof/Machine/HostIf.lean -/

theorem winAnswer {f code v} (h : s₀.Reaches s) : s₀.Reaches (s.winAnswer f code v) := h.send

theorem recoveryWrite {o n v} (h : s₀.Reaches s) : s₀.Reaches (s.recoveryWrite o n v) := h.same

theorem execBar4Read {f o n far} (h : s₀.Reaches s) : Res.From s₀ (execBar4Read f o n far s) := by
  unfold Machine.execBar4Read
  extract_lets _ _ _ _ r s1
  have hr : s₀.Reaches r.2.2 := by
    unfold r
    split
    exacts [h, h.readVia]
  have h1 : s₀.Reaches s1 := hr.setFn
  exact .next (.ite (.ite h.winAnswer h) (.ite h (.ite (.ite h h.setFn) (.ite h1.winAnswer (.ite h1.winAnswer h1.bump.setFld.winAnswer)))))

theorem execWindowReadTimeout {f o n} (h : s₀.Reaches s) : Res.From s₀ (execWindowReadTimeout f o n s) := .next (.ite h.setFn.setFld.winAnswer h)

theorem execBar4Write {f o n data status} (h : s₀.Reaches s) : Res.From s₀ (execBar4Write f o n data status s) := by
  unfold Machine.execBar4Write
  extract_lets _ _ r
  have hr : s₀.Reaches r.2 := by
    unfold r
    split
    · exact h
    · exact Reaches.foldlSnd h (fun _ _ h => by
        exact h.writeVia)
  exact .next (.ite (.ite h.recoveryWrite h) (.ite h (.ite hr (.ite h hr.bump.setFld))))

theorem execFuncWinWrite {ag f v} (h : s₀.Reaches s) : Res.From s₀ (execFuncWinWrite ag f v s) := by
  unfold Machine.execFuncWinWrite
  extract_lets put
  have hput : ∀ (s : State), s₀.Reaches s → s₀.Reaches (put s) := fun _ h => h.setReg
  refine .next ?_
  split
  exacts [h.regWrite hput, .ite (hput _ h) h]

theorem flr {f} (h : s₀.Reaches s) : s₀.Reaches (s.flr f) := by
  unfold State.flr
  extract_lets _ s1 _
  have h1 : s₀.Reaches s1 := h.setFld.foldl (fun _ h _ => h.disableQueue)
  exact h1.setFld.setFn.flrOver

theorem execFlr {f} (h : s₀.Reaches s) : Res.From s₀ (execFlr f s) := .next h.flr

theorem linkDown {l} (h : s₀.Reaches s) : s₀.Reaches (s.linkDown l) := h.setLink.foldl (fun _ h _ => h.flr.setFld)

theorem execLinkDown {l} (h : s₀.Reaches s) : Res.From s₀ (execLinkDown l s) := .next h.linkDown

theorem execPerstAssert {l} (h : s₀.Reaches s) : Res.From s₀ (execPerstAssert l s) := .next h.linkDown.setLink.send

theorem execPerstDeassert {l} (h : s₀.Reaches s) : Res.From s₀ (execPerstDeassert l s) := .next (.ite h.setLink h.setLink.send)

theorem execPcieLinkTrained {l} (h : s₀.Reaches s) : Res.From s₀ (execPcieLinkTrained l s) := .next (.ite h (h.setLink.foldl (fun _ h _ => h.setFld)))

theorem execConfigRequest {f bar4 ats} (h : s₀.Reaches s) : Res.From s₀ (execConfigRequest f bar4 ats s) := .next (.ite h (.ite h.send h.setFn.send))

theorem execAtsInvalidation {l page} (h : s₀.Reaches s) : Res.From s₀ (execAtsInvalidation l page s) := .next h.setLink.send

theorem execPcieLoopback {l} (h : s₀.Reaches s) : Res.From s₀ (execPcieLoopback l s) := .next (.ite h.setLink h)

end State.Reaches
end Sys2Proof.Machine
end

section
/-! SUPPORT for O59. What operations keep: DMA channels and translation. -/
namespace Sys2Proof.Machine
namespace State.Reaches

variable {s₀ s u : State}

-- One thread elaborates these theorems: many at once hold many stacks.
set_option Elab.async false

/-! ### Sys2Proof/Machine/Dma.lean -/

theorem setDma {u d} (h : s₀.Reaches s) : s₀.Reaches (s.setDma u d) := h.same

theorem dmaEnd {u code cause pc a} (h : s₀.Reaches s) : s₀.Reaches (s.dmaEnd u code cause pc a) := by
  unfold State.dmaEnd
  extract_lets _ s1
  have h1 : s₀.Reaches s1 := by
    unfold s1
    split
    · split
      · extract_lets _
        exact h.setCore
      · exact h.send
    · exact h
  exact .ite h h1.setDma.setFld

theorem dmaAwait {u r} (h : s₀.Reaches s) : s₀.Reaches (s.dmaAwait u r) := h.setDma

theorem dmaNext {u} (h : s₀.Reaches s) : s₀.Reaches (s.dmaNext u).2 := by
  unfold State.dmaNext
  extract_lets _
  exact h.setDma

theorem dmaSend {u r code} (h : s₀.Reaches s) : s₀.Reaches (s.dmaSend u r code) := h.send.dmaAwait

theorem dmaBypass {u a n write} (h : s₀.Reaches s) : s₀.Reaches (s.dmaBypass u a n write).2 := by
  unfold State.dmaBypass
  split
  · exact h
  · extract_lets s1 _ _
    have h1 : s₀.Reaches s1 := h.bypass
    exact h1

theorem dmaWrote {u r n} (h : s₀.Reaches s) : s₀.Reaches (s.dmaWrote u r n) := h.setDma

theorem dmaPerform {u r} (h : s₀.Reaches s) : DmaAns.From s₀ (s.dmaPerform u r) := by
  unfold State.dmaPerform
  split
  · exact .done h
  · extract_lets _ _ x rd x' wr _ _ _ _ _
    have hx : s₀.Reaches x.2.2 := h.readVia
    have hrd : ∀ (x : Unit), DmaAns.From s₀ (rd x) := fun _ => by
      unfold rd
      split
      exacts [.later h.dmaSend, .done hx]
    have hx' : s₀.Reaches x'.2.2 := h.writeVia
    have hwr : ∀ (x : Unit), DmaAns.From s₀ (wr x) := fun _ => by
      unfold wr
      split
      exacts [.later h.dmaSend, .done hx']
    split
    · exact hrd ()
    · exact hrd ()
    · exact hrd ()
    · exact hrd ()
    · exact hrd ()
    · exact hwr ()
    · exact hwr ()
    · exact hwr ()
    · exact hwr ()
    · exact hwr ()
    · split
      · next e => exact .done (h.reach.of_refused e)
      · exact .done h
      · exact .done h.send
    · split
      · next e => exact .done (h.reach.of_refused e)
      · exact .done h
      · exact .later h.dmaSend
      · extract_lets x''
        have hx'' : s₀.Reaches x''.2.2 := h.memAtomic
        exact .done hx''
    · split
      · next e => exact .done (h.reach.of_refused e)
      · exact .done h
      · exact .later h.dmaSend
      · extract_lets x''
        have hx'' : s₀.Reaches x''.2 := h.memFe
        exact .done hx''
    · split
      · next e => exact .done (h.reach.of_refused e)
      · exact .done h
      · exact .later h.dmaSend
      · extract_lets x''
        have hx'' : s₀.Reaches x''.2 := h.memFe
        exact .done hx''
    · split
      exacts [.done h, .later h.dmaAwait.postEntry]

theorem dmaUndelivered {u e} (h : s₀.Reaches s) : s₀.Reaches (s.dmaUndelivered u e) := h.setDma

theorem dmaFailed {u r status} (h : s₀.Reaches s) : s₀.Reaches (s.dmaFailed u r status) := by
  unfold State.dmaFailed
  split
  · exact h.dmaUndelivered
  · extract_lets _
    exact .ite (.ite h.dmaAwait h.dmaEnd) (.ite h.dmaEnd h.dmaEnd)

theorem dealWrite {w target off n v} (h : s₀.Reaches s) : s₀.Reaches (s.dealWrite w target off n v).2.1 := by
  unfold State.dealWrite
  extract_lets _
  exact Reaches.foldlMid h (fun _ _ h => by
    split
    · exact h
    · extract_lets _ x
      have hx : s₀.Reaches x.2.2 := h.writeVia
      exact hx)

theorem mixOver {w a n v written} (h : s₀.Reaches s) : s₀.Reaches (s.mixOver w a n v written).2 := by
  unfold State.mixOver
  extract_lets _
  exact Reaches.foldlSnd h (fun _ _ h => by
    extract_lets _ f _
    have hf : s₀.Reaches f.2 := h.free
    split
    exacts [hf, h])

theorem dmaMoveWrite {u m off n v pc} (h : s₀.Reaches s) : s₀.Reaches (s.dmaMoveWrite u m off n v pc) := by
  unfold State.dmaMoveWrite
  extract_lets _ _ finish _ x _ _ _ x' y _ s1 b _
  have hfinish : ∀ (s : State), s₀.Reaches s → ∀ (r : DmaReq), s₀.Reaches (finish s r) := fun _ h _ => by
    unfold finish
    split
    · next e => exact h.dmaPerform.of_later e
    · next e => exact (h.dmaPerform.of_done e).dmaWrote
    · next e => exact (h.dmaPerform.of_done e).dmaWrote.dmaFailed
  have hx : s₀.Reaches x.2.1 := h.dealWrite
  have hx' : s₀.Reaches x'.2 := by
    unfold x'
    split
    exacts [h.mixOver, h]
  have hy : s₀.Reaches y.2 := hx'.dmaNext
  have h1 : s₀.Reaches s1 := .ite hy.setDma hy
  have hb : s₀.Reaches b.2 := h1.dmaBypass
  exact .ite (.ite hx.setDma hx.dmaEnd) (.ite (h.foldl (fun _ h _ => .ite h (hfinish _ h.dmaNext _))) (.ite (hfinish _ hb _) hb.dmaAwait))

theorem dmaAdvance {u n} (h : s₀.Reaches s) : s₀.Reaches (s.dmaAdvance u n) := h.setDma.setFld

theorem dmaDesc {u v} (h : s₀.Reaches s) : s₀.Reaches (s.dmaDesc u v) := by
  unfold State.dmaDesc
  extract_lets _ _ _ _ s1 s2
  have h1 : s₀.Reaches s1 := h.setDma
  have h2 : s₀.Reaches s2 := h1.setFld.setFld
  exact .ite h.setDma.setFld (.ite h2.dmaEnd h2)

theorem dmaOk {u r v} (h : s₀.Reaches s) : s₀.Reaches (s.dmaOk u r v) := by
  unfold State.dmaOk
  extract_lets _ _ _ _ _
  split
  · exact h.dmaDesc
  · exact h.setDma
  · split
    exacts [h, .ite (.ite h.dmaEnd (.ite h.dmaEnd h.setDma)) (.ite h.dmaEnd h.setDma)]
  · split
    exacts [h, h.setDma.dmaMoveWrite]
  · exact h.dmaWrote
  · exact h.dmaWrote
  · exact h.dmaWrote
  · exact h.dmaWrote
  · exact h.dmaWrote
  · exact h.setDma.setFld.dmaAdvance
  · exact h
  · exact h.setDma
  · exact h.setDma
  · exact h.setDma
  · exact h.setDma

theorem dmaAnswer {u r status v} (h : s₀.Reaches s) : s₀.Reaches (s.dmaAnswer u r status v) := by
  unfold State.dmaAnswer
  extract_lets _ _ _
  split
  · exact .ite h.dmaOk (.ite h.dmaAwait (.ite h.setDma h.setDma))
  · exact .ite h.dmaOk (.ite h.dmaAwait h.setDma)
  · exact .ite h.dmaOk (.ite h.dmaAwait h.setDma)
  · exact .ite h.dmaOk (.ite h.dmaAwait h.setDma)
  · split
    exacts [.ite h.dmaOk (.ite h.setDma (.ite h.setDma h.dmaFailed)), h]
  · exact .ite h.dmaOk h.dmaFailed

theorem dmaIssue {u r} (h : s₀.Reaches s) : s₀.Reaches (s.dmaIssue u r) := by
  unfold State.dmaIssue
  split
  · next e => exact h.dmaPerform.of_later e
  · next e => exact (h.dmaPerform.of_done e).dmaAnswer

theorem dmaNew {u kind a len data dst} (h : s₀.Reaches s) : s₀.Reaches (s.dmaNew u kind a len data dst) := by
  unfold State.dmaNew
  extract_lets _ x _ _ b
  have hx : s₀.Reaches x.2 := h.dmaNext
  have hb : s₀.Reaches b.2 := by
    unfold b
    split
    exacts [hx, hx.dmaBypass]
  exact .ite hb.dmaIssue hb.dmaAwait

theorem dmaPump {u f} (h : s₀.Reaches s) : s₀.Reaches (s.dmaPump u f) := by
  induction f generalizing s with
  | zero => exact h
  | succ f ih =>
    unfold State.dmaPump
    extract_lets _
    split
    · exact h
    · extract_lets _ _ _ s1
      have h1 : s₀.Reaches s1 := h.setDma
      exact .ite h (.ite (.ite h (.ite h.dmaEnd h.setDma.dmaAdvance)) (.ite h (.ite h (ih h1.dmaNew))))

theorem dmaGo {u} (h : s₀.Reaches s) : s₀.Reaches (s.dmaGo u) := by
  unfold State.dmaGo
  split
  exacts [h, .ite h h.dmaPump]

theorem dmaStartMove {u m} (h : s₀.Reaches s) : s₀.Reaches (s.dmaStartMove u m) := by
  unfold State.dmaStartMove
  extract_lets _
  split
  · split
    · exact h.setDma.dmaNew
    · split
      exacts [.ite h.dmaNew h, h]
  · exact h

theorem dmaBegin {u m} (h : s₀.Reaches s) : s₀.Reaches (s.dmaBegin u m) := by
  unfold State.dmaBegin
  extract_lets _
  split
  exacts [h.dmaEnd, h.setDma.dmaGo]

theorem dmaStep {u f} (h : s₀.Reaches s) (hf : ∀ (i : DmaIns) (d : Dma) (u : State), s₀.Reaches u → ∀ p ∈ f i d u, s₀.Reaches p) :
    s₀.Reaches (s.dmaStep u f) := by
  unfold State.dmaStep
  extract_lets _
  split
  · exact h
  · split
    exacts [h, h.dmaEnd, Reaches.getD (hf _ _ _ h) h]

theorem execDmaMove {u} (h : s₀.Reaches s) : Res.From s₀ (execDmaMove u s) := by
  unfold Machine.execDmaMove
  extract_lets _
  refine .next ?_
  split
  · split
    · exact h
    · split
      · extract_lets s1
        have h1 : s₀.Reaches s1 := h.dmaStartMove
        split
        exacts [.ite h1.dmaBegin h1, h1]
      · exact h.dmaGo
  · exact h.dmaStep (fun _ _ _ h => by
      split
      exacts [.mem_some (.ite h.dmaStartMove h.dmaBegin), .mem_none])

theorem execDmaLoop {u} (h : s₀.Reaches s) : Res.From s₀ (execDmaLoop u s) := .next (h.dmaStep (fun _ _ _ h => by
  split
  exacts [.mem_some h.setDma.dmaAdvance, .mem_none]))

theorem execDmaEndl {u} (h : s₀.Reaches s) : Res.From s₀ (execDmaEndl u s) := .next (h.dmaStep (fun _ _ _ h => by
  split
  exacts [.mem_some (.ite h.setDma.dmaAdvance h.setDma.setFld), .mem_none]))

theorem dmaWaitGo {u empty a} (h : s₀.Reaches s) : s₀.Reaches (s.dmaWaitGo u empty a) := h.dmaNew

theorem execDmaWaitWord {u} (h : s₀.Reaches s) : Res.From s₀ (execDmaWaitWord u s) := by
  unfold Machine.execDmaWaitWord
  extract_lets _
  refine .next ?_
  split
  · exact .ite h h.dmaWaitGo
  · exact h
  · exact h.dmaStep (fun _ _ _ h => by
      split
      exacts [.mem_some h.setDma.setFld.dmaWaitGo, .mem_none])

theorem execDmaWaitEvents {u} (h : s₀.Reaches s) : Res.From s₀ (execDmaWaitEvents u s) := by
  unfold Machine.execDmaWaitEvents
  extract_lets _ _ take
  have htake : ∀ (mask : ℕ) (s : State), s₀.Reaches s → s₀.Reaches (take mask s) := fun _ _ h => h.setFld.setDma.setFld.dmaAdvance
  refine .next ?_
  split
  · exact .ite h (htake _ _ h)
  · exact h
  · exact h.dmaStep (fun _ _ _ h => by
      split
      exacts [.mem_some (.ite (htake _ _ h) h.setDma.setFld), .mem_none])

theorem dmaSignal {u d kind a len v} (h : s₀.Reaches s) : ∀ p ∈ s.dmaSignal u d kind a len v, s₀.Reaches p := by
  unfold State.dmaSignal
  split
  exacts [.mem_some h.dmaNew.dmaAdvance, .mem_none]

theorem execDmaSignalFill {u} (h : s₀.Reaches s) : Res.From s₀ (execDmaSignalFill u s) := .next (h.dmaStep (fun _ _ _ h => by
  split
  exacts [h.dmaSignal, .mem_none]))

theorem execDmaSignalAdd {u} (h : s₀.Reaches s) : Res.From s₀ (execDmaSignalAdd u s) := .next (h.dmaStep (fun _ _ _ h => by
  split
  exacts [h.dmaSignal, .mem_none]))

theorem execDmaSignalPost {u} (h : s₀.Reaches s) : Res.From s₀ (execDmaSignalPost u s) := .next (h.dmaStep (fun _ _ _ h => by
  split
  exacts [h.dmaSignal, .mem_none]))

theorem execDmaSignalEvent {u} (h : s₀.Reaches s) : Res.From s₀ (execDmaSignalEvent u s) := .next (h.dmaStep (fun _ _ _ h => by
  split
  exacts [h.dmaSignal, .mem_none]))

theorem execDmaHashBegin {u} (h : s₀.Reaches s) : Res.From s₀ (execDmaHashBegin u s) := .next (h.dmaStep (fun _ _ _ h => by
  split
  · split
    exacts [.mem_some h.setDma.dmaAdvance, .mem_none]
  · exact .mem_none))

theorem execDmaHashPause {u} (h : s₀.Reaches s) : Res.From s₀ (execDmaHashPause u s) := .next (h.dmaStep (fun _ _ _ h => by
  split
  · split
    exacts [.mem_some h.setDma.dmaAdvance, .mem_none]
  · exact .mem_none))

theorem execDmaHashResume {u} (h : s₀.Reaches s) : Res.From s₀ (execDmaHashResume u s) := .next (h.dmaStep (fun _ _ _ h => by
  split
  · split
    exacts [.mem_some h.setDma.dmaAdvance, .mem_none]
  · exact .mem_none))

theorem execDmaHashFinal {u} (h : s₀.Reaches s) : Res.From s₀ (execDmaHashFinal u s) := .next (h.dmaStep (fun _ _ _ h => by
  split
  · split
    exacts [.mem_some h.setDma.dmaNew.dmaAdvance, .mem_none]
  · exact .mem_none))

theorem execDmaEnd {u} (h : s₀.Reaches s) : Res.From s₀ (execDmaEnd u s) := .next (h.dmaStep (fun _ _ _ h => by
  split
  · split
    exacts [.mem_some h.dmaEnd, .mem_none]
  · exact .mem_none))

theorem dmaKick {u} (h : s₀.Reaches s) : s₀.Reaches (s.dmaKick u) := .ite (.ite h h.setDma) h

theorem execDmaDoorbell {ag u v} (h : s₀.Reaches s) : Res.From s₀ (execDmaDoorbell ag u v s) := .next (h.regWrite (fun _ h => h.setFld.dmaKick))

theorem execDmaCtlGo {ag u} (h : s₀.Reaches s) : Res.From s₀ (execDmaCtlGo ag u s) :=
  .next (h.regWrite (fun _ h => .ite h (Reaches.ite h.setFld h).dmaKick))

theorem execDmaCtlStop {ag u} (h : s₀.Reaches s) : Res.From s₀ (execDmaCtlStop ag u s) := .next (h.regWrite (fun _ h => .ite h h.dmaEnd))

theorem execDmaRingWrite {ag u cfg v} (h : s₀.Reaches s) : Res.From s₀ (execDmaRingWrite ag u cfg v s) := by
  unfold Machine.execDmaRingWrite
  extract_lets _
  exact .next (h.regWrite (fun _ h => .ite h.setReg h))

theorem execDmaEventSet {ag u v} (h : s₀.Reaches s) : Res.From s₀ (execDmaEventSet ag u v s) := .next (h.regWrite (fun _ h => h.setFld))

theorem execDmacGo {c t ch v} (h : s₀.Reaches s) : Res.From s₀ (execDmacGo c t ch v s) := by
  unfold Machine.execDmacGo
  extract_lets _ _ _ _ _ _ s2 s1
  have h2 : s₀.Reaches s2 := .ite h.setThr h
  have h1 : s₀.Reaches s1 := .ite h2.setDma.setFld h.setFld
  exact .next (.ite (.ite h.failWord h.raise) (.ite h1.ready h1))

theorem execDmaDescFetched {u} (h : s₀.Reaches s) : Res.From s₀ (execDmaDescFetched u s) := .next (.ite h.setDma.dmaNew h)

theorem execDmaProgramFetch {u} (h : s₀.Reaches s) : Res.From s₀ (execDmaProgramFetch u s) := by
  unfold Machine.execDmaProgramFetch
  extract_lets _
  refine .next ?_
  split
  · exact h
  · split
    exacts [h, .ite h h.dmaNew]

theorem inwardDma {u f} (h : s₀.Reaches s) (hf : ∀ (u : State), s₀.Reaches u → s₀.Reaches (f u)) : s₀.Reaches (s.inwardDma u f) :=
  .ite (h.inward hf) (.ite h.boundaryCount (hf _ h))

theorem dmaReply {u id status v} (h : s₀.Reaches s) : s₀.Reaches (s.dmaReply u id status v) := by
  unfold State.dmaReply
  extract_lets _ s1
  have h1 : s₀.Reaches s1 := h.setDma
  split
  · exact h
  · extract_lets _
    split
    · split
      · exact h1.dmaWrote
      · split
        · split
          exacts [h1.dmaUndelivered, h1]
        · exact h1
    · exact h1.dmaAnswer.dmaGo

theorem execDmaReply {u id status v} (h : s₀.Reaches s) : Res.From s₀ (execDmaReply u id status v s) := .next (h.inwardDma (fun _ h => h.dmaReply))

theorem dmaAgain {u r} (h : s₀.Reaches s) : s₀.Reaches (s.dmaAgain u r) := by
  unfold State.dmaAgain
  extract_lets _ s0 _ b _ s1
  have h0 : s₀.Reaches s0 := h.setDma
  have hb : s₀.Reaches b.2 := h0.dmaBypass
  have h1 : s₀.Reaches s1 := h0.setDma.bump
  exact .ite (.ite hb.dmaIssue hb.dmaAwait) h1.dmaIssue

theorem execDmaRetry {u id} (h : s₀.Reaches s) : Res.From s₀ (execDmaRetry u id s) := by
  unfold Machine.execDmaRetry
  refine .next ?_
  split
  exacts [h, .ite h h.dmaAgain.dmaGo]

theorem execDmaReplyTimeout {u id} (h : s₀.Reaches s) : Res.From s₀ (execDmaReplyTimeout u id s) := by
  unfold Machine.execDmaReplyTimeout
  extract_lets _ s1
  have h1 : s₀.Reaches s1 := h.setDma
  refine .next ?_
  split
  · exact h
  · extract_lets _
    exact .ite h1 h1.dmaAnswer.dmaGo

theorem execDmaWaitTimeout {u} (h : s₀.Reaches s) : Res.From s₀ (execDmaWaitTimeout u s) := by
  unfold Machine.execDmaWaitTimeout
  extract_lets _
  refine .next ?_
  split
  exacts [.ite h h.dmaEnd, .ite h h.dmaEnd, h]

theorem dmaNak {u id} (h : s₀.Reaches s) : s₀.Reaches (s.dmaNak u id) := by
  unfold State.dmaNak
  extract_lets _ s1
  have h1 : s₀.Reaches s1 := h.setDma
  split
  exacts [h, .ite h1.dmaAwait h1.dmaUndelivered.dmaGo]

theorem execFabDealResend {u id} (h : s₀.Reaches s) : Res.From s₀ (execFabDealResend u id s) := by
  unfold Machine.execFabDealResend
  extract_lets _ s1
  have h1 : s₀.Reaches s1 := h.setDma
  refine .next ?_
  split
  exacts [h, .ite h1 h1.dmaIssue]

theorem dmaFinish {u} (h : s₀.Reaches s) : s₀.Reaches (s.dmaFinish u) := by
  unfold State.dmaFinish
  extract_lets _ _ s1 s2 s3 _ s4 _
  have h1 : s₀.Reaches s1 := h.setFld.setFld.setFld
  have h2 : s₀.Reaches s2 := h1.setDma
  have h3 : s₀.Reaches s3 := .ite h2.setFld h2
  have h4 : s₀.Reaches s4 := h3.setFld
  split
  · extract_lets s5
    have h5 : s₀.Reaches s5 := by
      unfold s5
      split
      exacts [h4.mbReply, h4]
    exact .ite h5.setLine h5
  · exact .ite h4 h4.bumpWrap.setFld.dmaKick

theorem dmaComplete {u f} (h : s₀.Reaches s) : s₀.Reaches (s.dmaComplete u f) := by
  induction f generalizing s with
  | zero => exact h
  | succ f ih =>
    unfold State.dmaComplete
    extract_lets _
    refine .ite h ?_
    split
    · split
      exacts [ih h.dmaNew, ih h.setDma]
    · exact .ite (ih h.dmaNew) (ih h.setDma)
    · exact ih h.dmaNew
    · exact ih h.dmaNew
    · exact h.dmaFinish

theorem execDmaCompletion {u} (h : s₀.Reaches s) : Res.From s₀ (execDmaCompletion u s) := .next (.ite h.dmaComplete h)

/-! ### Sys2Proof/Machine/Tu.lean -/

theorem putLookup {port t x} (h : s₀.Reaches s) : s₀.Reaches (s.putLookup port t x) := h.setKp

theorem execTuLookup {c t bulk} (h : s₀.Reaches s) : Res.From s₀ (execTuLookup c t bulk s) := by
  unfold Machine.execTuLookup
  refine .next ?_
  split
  · extract_lets _
    exact h.putLookup
  · split
    · exact h
    · split
      exacts [h, h.putLookup]

theorem fillTx {port x} (h : s₀.Reaches s) : s₀.Reaches (s.fillTx port x) := .ite h.setKp h.free.setKp

theorem execTuLookupReply {c t bulk} (h : s₀.Reaches s) : Res.From s₀ (execTuLookupReply c t bulk s) := by
  unfold Machine.execTuLookupReply
  extract_lets _ _ s1 _
  have h1 : s₀.Reaches s1 := h.putLookup
  refine .next ?_
  split
  · exact h
  · split
    · exact h
    · split
      · extract_lets s2
        have h2 : s₀.Reaches s2 := h1.fillTx
        exact .ite h2.ready h2
      · exact .ite h1.failWord h1
      · exact h

theorem execTuHoldTimeout {ag} (h : s₀.Reaches s) : Res.From s₀ (execTuHoldTimeout ag s) := by
  unfold Machine.execTuHoldTimeout
  refine .next ?_
  split
  · split
    exacts [h, .ite h (.ite h.putLookup.failWord h.putLookup)]
  · split
    exacts [h, h.noteFault.dmaAnswer]
  · extract_lets _ s1
    have h1 : s₀.Reaches s1 := h.noteFault.setFn
    exact .ite h h1.bump.setFld.winAnswer

theorem commitRange {keeper plot e v} (h : s₀.Reaches s) : s₀.Reaches (s.commitRange keeper plot e v) := by
  unfold State.commitRange
  extract_lets _ _ put _ s1
  have hput : ∀ (s : State), s₀.Reaches s → s₀.Reaches (put s) := fun _ h => h.setReg.setFld
  have h1 : s₀.Reaches s1 := hput _ h
  clear_value s1
  exact .ite (.ite h.setFld (hput _ h)) (.ite h.setFld h1.same)

theorem execTuRangeCommit {ag plot e v} (h : s₀.Reaches s) : Res.From s₀ (execTuRangeCommit ag plot e v s) :=
  .next (h.regWrite (fun _ h => h.commitRange))

theorem execTuSync {ag plot v} (h : s₀.Reaches s) : Res.From s₀ (execTuSync ag plot v s) :=
  .next (h.regWrite (fun _ h => .ite h.setReg h.setReg.setFld.setKp))

theorem dropTx {plot v n} (h : s₀.Reaches s) : s₀.Reaches (s.dropTx plot v n) := h.setKp

theorem execTuSyncDone {plot} (h : s₀.Reaches s) : Res.From s₀ (execTuSyncDone plot s) := .next (.ite h h.dropTx.setKp.setFld)

theorem poisonPage {p pg} (h : s₀.Reaches s) : s₀.Reaches (s.poisonPage p pg) := by
  refine h.memory (fun was => ?_) rfl rfl rfl rfl
  obtain ⟨mem, tags, bad⟩ := was
  unfold State.poisonPage
  extract_lets a
  exact ⟨mem, tags, Sparse.okAbove_change (by decide) (fun k => a ≤ k && k < a + 65536 && s.uncorrectable (k * 32)) none s.bad bad⟩

theorem copyPage {s0 p pg dst dead} (h0 : s₀.Reaches s0) : s₀.Reaches (s0.copyPage p pg dst dead) := by
  unfold State.copyPage
  extract_lets _ s _ s1 _ s2 _
  have h : s₀.Reaches s := h0.foldl (fun _ h _ => .ite h.asRead h)
  have h1 : s₀.Reaches s1 := h.initBytes
  have h2 : s₀.Reaches s2 := h1.foldl (fun _ h _ => h.setByte)
  exact h2.foldl (fun _ h _ => h.setPat)

theorem dropPage {n g} (h : s₀.Reaches s) : s₀.Reaches (s.dropPage n g) := h.foldl (fun _ h _ => .ite h.dropTx h)

theorem keepPage {p pg plot} (h : s₀.Reaches s) : s₀.Reaches (s.keepPage p pg plot) := h.poisonPage.faultRec

theorem retirePage {p pg act dead} (h : s₀.Reaches s) : s₀.Reaches (s.retirePage p pg act dead).2 := by
  unfold State.retirePage
  extract_lets _ _ _ f _ book s1
  have hf : s₀.Reaches f.2 := h.free
  have hbook : ∀ (s : State), s₀.Reaches s → s₀.Reaches (book s) := fun _ h => h.setStack.bump.faultRec
  have h1 : s₀.Reaches s1 := hf.copyPage
  split
  · exact h.setFld.keepPage
  · split
    · split
      · exact h.keepPage
      · extract_lets s1' _
        have hs1' : s₀.Reaches s1' := hf.dropPage.copyPage
        exact hbook _ hs1'.setReg
    · exact hbook _ h1.setStack

theorem execPageRetire {p pg} (h : s₀.Reaches s) : Res.From s₀ (execPageRetire p pg s) := .next (.ite h h.retirePage)

theorem execPcRetire {p q dead} (h : s₀.Reaches s) : Res.From s₀ (execPcRetire p q dead s) := by
  unfold Machine.execPcRetire
  extract_lets _ r
  have hr : s₀.Reaches r.2 := .foldlSnd h (fun _ _ h => h.retirePage)
  clear_value r
  exact .next (.ite h (.ite hr.setFld hr.setFld))

theorem execHbmPageZeroise {p pg} (h : s₀.Reaches s) : Res.From s₀ (execHbmPageZeroise p pg s) := .next (.ite h h.initBytes.setStack)

theorem execHbmPowerDown {p q} (h : s₀.Reaches s) : Res.From s₀ (execHbmPowerDown p q s) := .next h.setStack

end State.Reaches
end Sys2Proof.Machine
end

section
/-! SUPPORT for O59. What operations keep: the fabric's state, images and resets. -/
namespace Sys2Proof.Machine
namespace State.Reaches

variable {s₀ s u : State}

-- One thread elaborates these theorems: many at once hold many stacks.
set_option Elab.async false

/-! ### Sys2Proof/Machine/FabOps.lean -/

/-- The fabric's state is replaced by one that has packed as much. -/
theorem setFab {f} (h : s₀.Reaches s) (e : f.cursor = s.kp.fab.cursor := by rfl) : s₀.Reaches (s.setFab f) := h.setKp e

/-- The fabric's state is replaced by one that has packed everything sent. -/
theorem setFabPacked {f} (h : s₀.Reaches s) (e : f.cursor = s.sent.length := by rfl) : s₀.Reaches (s.setFab f) :=
  ⟨h.canonical, fun _ => Nat.le_of_eq e, h.pending, h.sent, h.freeCtr⟩

theorem setPort {m p} (h : s₀.Reaches s) : s₀.Reaches (s.setPort m p) := h.setFab

theorem setPeerKeys {peer k} (h : s₀.Reaches s) : s₀.Reaches (s.setPeerKeys peer k) := h.setFab

theorem setConn {peer c} (h : s₀.Reaches s) : s₀.Reaches (s.setConn peer c) := h.setFab.setFld

theorem dropConn {peer} (h : s₀.Reaches s) : s₀.Reaches (s.dropConn peer) := h.setFab.setFld

theorem sendDirect {m k cells body} (h : s₀.Reaches s) : s₀.Reaches (s.sendDirect m k cells body) := h.setPort.send

theorem countSealed {m peer} (h : s₀.Reaches s) : s₀.Reaches (s.countSealed m peer) := .ite h.setPeerKeys h.setPort

theorem sendFrame {m peer k c tseq msgs close busy} (h : s₀.Reaches s) : s₀.Reaches (s.sendFrame m peer k c tseq msgs close busy) := by
  unfold State.sendFrame
  extract_lets _ _ s1
  have h1 : s₀.Reaches s1 := .ite h.countSealed h
  exact .ite h1.send h1.sendDirect

theorem pump {peer k n} (h : s₀.Reaches s) : s₀.Reaches (s.pump peer k n) := by
  induction n generalizing s with
  | zero => exact h
  | succ n ih =>
    unfold State.pump
    split
    · exact h
    · extract_lets _
      split
      · exact h
      · split
        · exact h
        · extract_lets _ _ _ _ _
          exact .ite h (.ite h (ih h.setConn.sendFrame))

theorem pumpAll (h : s₀.Reaches s) : s₀.Reaches s.pumpAll := h.foldl (fun _ h _ => h.foldl (fun _ h _ => .ite h h.pump))

theorem openConn {peer} (h : s₀.Reaches s) : ∀ p ∈ s.openConn peer, s₀.Reaches p.2 := by
  unfold State.openConn
  split
  · exact .mem_some h
  · split
    · exact .mem_none
    · extract_lets _ _ _ s1
      have h1 : s₀.Reaches s1 := h.setFab
      exact .mem_some h1.setConn

theorem fabSend {peer k m} (h : s₀.Reaches s) : s₀.Reaches (s.fabSend peer k m).2 := by
  unfold State.fabSend
  split
  · exact h
  · split
    · exact h.boundaryCount
    · split
      · exact h
      · next s1 e =>
        have h1 : s₀.Reaches s1 := h.openConn _ e
        extract_lets _
        exact h1.setConn.pump

theorem sendAck {peer k close busy} (h : s₀.Reaches s) : s₀.Reaches (s.sendAck peer k close busy) := by
  unfold State.sendAck
  split
  exacts [h.sendFrame, h]

theorem landLine {c fid status v} (h : s₀.Reaches s) : s₀.Reaches (s.landLine c fid status v) := h.foldl (fun _ h _ => h.landFetch)

theorem deliver {req status v tag} (h : s₀.Reaches s) : s₀.Reaches (s.deliver req status v tag) := by
  unfold State.deliver
  extract_lets _ _ _ _
  split
  · exact h
  · split
    · split
      · exact h.dmaNak
      · split
        exacts [h.inwardDma (fun _ h => h.dmaReply), h]
    · split
      · exact h
      · exact h.inward (fun _ h => by
          split
          exacts [.ite h.loadReply h.mailboxReply, h.writeAck, .ite h.loadReply h.mailboxReply, .ite h.writeAck h.feReply, h.writeAck, h.writeAck,
            h.landLine, .ite h.rowLand h.rowAck.writeAck, h.writeAck, h.setThr, h.writebackAck, h])

theorem groupReply {o status v tag} (h : s₀.Reaches s) : s₀.Reaches (s.groupReply o status v tag) := by
  unfold State.groupReply
  split
  · exact h
  · extract_lets _ _ _
    exact .ite h.setFab.deliver h.setFab

theorem outReply {o status v tag} (h : s₀.Reaches s) : s₀.Reaches (s.outReply o status v tag) := h.setFab.groupReply

theorem fabNextTag (h : s₀.Reaches s) : s₀.Reaches s.fabNextTag.2 := h.setFab

theorem fabNote {peer k m} (h : s₀.Reaches s) : s₀.Reaches (s.fabNote peer k m) := h.fabNextTag.fabSend

theorem outMsg {peer vc w off grp x} (h : s₀.Reaches s) : s₀.Reaches (s.outMsg peer vc w off grp x) := by
  unfold State.outMsg
  exact .ite h.setFab.fabSend h.setFab.fabSend.outReply

theorem combOut {x} (h : s₀.Reaches s) : s₀.Reaches (s.combOut x) := by
  unfold State.combOut
  extract_lets _ _ _ s1 r
  have h1 : s₀.Reaches s1 := .ite h h.setFab
  have hr : s₀.Reaches r.2 := h1.fabSend
  exact .ite hr (hr.foldl (fun _ h _ => by
    split
    exacts [h.outReply, h]))

theorem combEnter {m x0 go} (h : s₀.Reaches s) (hgo : ∀ (u : State), s₀.Reaches u → ∀ (x : FabComb), s₀.Reaches (go u x)) :
    s₀.Reaches (s.combEnter m x0 go) := by
  unfold State.combEnter
  extract_lets _ _
  split
  exacts [hgo _ h.setPort _, .ite h.setPort (hgo _ h _)]

theorem packPot {req peer vc w off grp} (h : s₀.Reaches s) : s₀.Reaches (s.packPot req peer vc w off grp) := by
  unfold State.packPot
  extract_lets _ t _ s1 _ _
  have ht : s₀.Reaches t.2 := h.fabNextTag
  have h1 : s₀.Reaches s1 := ht.setFab
  split
  exacts [h1.combEnter (fun _ h _ => h.combOut), h1.combOut]

theorem packReq {req} (h : s₀.Reaches s) : s₀.Reaches (s.packReq req) := by
  unfold State.packReq
  extract_lets _ _ _ _ s1
  have h1 : s₀.Reaches s1 := h.setFab
  split
  exacts [h, .ite h (.ite h1.packPot (h1.foldl (fun _ h _ => h.outMsg)))]

theorem fabReply {peer vc m} (h : s₀.Reaches s) : s₀.Reaches (s.fabReply peer vc m) := h.fabSend

theorem packMsg {m} (h : s₀.Reaches s) : s₀.Reaches (s.packMsg m) := by
  unfold State.packMsg
  extract_lets _ _ _
  split
  exacts [h.packReq, .ite h.fabReply h, .ite h.fabNote h, h]

/-- Everything that was sent before is packed. -/
theorem egress (h : s₀.Reaches s) : s₀.Reaches s.egress := by
  unfold State.egress
  extract_lets new s1
  have grown : s.Reaches s1 := (refl s).foldl (fun _ h _ => h.packMsg)
  exact h.trans { grown with packed := fun _ => grown.sent.length_le }

theorem fabRun {f} (h : s₀.Reaches s) (hf : ∀ (u : State), s₀.Reaches u → s₀.Reaches (f u)) : s₀.Reaches (s.fabRun f) := (hf _ h.egress).egress

theorem failConn {peer status} (h : s₀.Reaches s) : s₀.Reaches (s.failConn peer status) := by
  unfold State.failConn
  extract_lets _ s1
  have h1 : s₀.Reaches s1 := h.dropConn.bump
  exact (h1.foldl (fun _ h _ => h.outReply)).tellManager

/-! ### Sys2Proof/Machine/Image.lean -/

theorem countSpares (h : s₀.Reaches s) : s₀.Reaches s.countSpares := h.foldl (fun _ h _ => h.setFld)

theorem bindRoutes {s0 b} (h0 : s₀.Reaches s0) : s₀.Reaches (s0.bindRoutes b) := by
  unfold State.bindRoutes
  extract_lets s1 s
  have h1 : s₀.Reaches s1 := h0.same
  have h : s₀.Reaches s := h1.foldl (fun _ h _ => h.setFld)
  exact h.foldl (fun _ h _ => .ite h.setReg h.setFld)

theorem imgStat {code x} (h : s₀.Reaches s) : s₀.Reaches (s.imgStat code x) := h.setFld.setFld.setFld

theorem setRedir {a b} (h : s₀.Reaches s) : s₀.Reaches (s.setRedir a b) := by
  unfold State.setRedir
  split
  exacts [h.setFld.setFld.setFld, h.setFld]

theorem redirHome {l n} (h : s₀.Reaches s) : s₀.Reaches (s.redirHome l n) := h.setRedir

theorem publishTerms {p h' t w} (h : s₀.Reaches s) : s₀.Reaches (s.publishTerms p h' t w) := h.setReg.setReg.setReg.setReg.setReg

theorem noticeHalf {p h'} (h : s₀.Reaches s) : s₀.Reaches (s.noticeHalf p h') := h.foldl (fun _ h _ => .ite h.setLine h)

theorem published {p} (h : s₀.Reaches s) : s₀.Reaches (s.published p) := h.bumpWrap.eventToFunctions

theorem setImg {x} (h : s₀.Reaches s) : s₀.Reaches (s.setImg x) := h.setKp

theorem setBind {n b} (h : s₀.Reaches s) : s₀.Reaches (s.setBind n b) := h.setKp

theorem zeroCore {c} (h : s₀.Reaches s) : s₀.Reaches (s.zeroCore c) := h.initBytes.initBytes.setCore

theorem dropGrants {n} (h : s₀.Reaches s) : s₀.Reaches (s.dropGrants n) := h.foldl (fun _ h _ => .ite h h.setStack.setReg)

theorem resetQueue {q} (h : s₀.Reaches s) : s₀.Reaches (s.resetQueue q) := h.disableQueue.resetRegs

theorem unbindPlot {n} (h : s₀.Reaches s) : s₀.Reaches (s.unbindPlot n) := by
  unfold State.unbindPlot
  extract_lets s1 s2 s3 s4 src s5
  have h1 : s₀.Reaches s1 := h.foldl (fun _ h _ => h.resetQueue.setReg)
  have h2 : s₀.Reaches s2 := h1.foldl (fun _ h _ => h.setReg.setFld)
  have h3 : s₀.Reaches s3 := h2.foldl (fun _ h _ => h.setFld)
  have h4 : s₀.Reaches s4 := h3.dropGrants
  have hsrc : s₀.Reaches src := h4.resetRegs
  have h5 : s₀.Reaches s5 := hsrc.same.dropTx
  exact h5.foldl (fun _ h _ => h.setReg)

/-! ### Sys2Proof/Machine/HangOps.lean -/

theorem disarm {c t} (h : s₀.Reaches s) : s₀.Reaches (s.disarm c t) := by
  unfold State.disarm
  split
  · split
    · extract_lets _ _
      exact h.setCore
    · exact h
  · exact h

theorem holdThread {c t} (h : s₀.Reaches s) : s₀.Reaches (s.holdThread c t) := by
  unfold State.holdThread
  extract_lets _
  split
  exacts [h, h, h.disarm.suspend, h.disarm.suspend, h.setThr]

theorem holdThreads {n} (h : s₀.Reaches s) : s₀.Reaches (s.holdThreads n) := h.foldl (fun _ h _ => h.foldl (fun _ h _ => .ite h.holdThread h))

theorem holdPlot {n} (h : s₀.Reaches s) : s₀.Reaches (s.holdPlot n) := h.holdThreads.setHang

theorem resumePlot {n} (h : s₀.Reaches s) : s₀.Reaches (s.resumePlot n) := by
  unfold State.resumePlot
  extract_lets _ _ s1
  have h1 : s₀.Reaches s1 := h.foldl (fun _ h _ => .ite h.clearNotice.setThr h.setThr)
  exact h1.setHang

theorem hangResets (h : s₀.Reaches s) : s₀.Reaches s.hangResets := h.foldl (fun _ h _ => .ite h h.setFld.setFld.setFld.setKp.setHang.resetDrain)

theorem hangHold (h : s₀.Reaches s) : s₀.Reaches s.hangHold := by
  unfold State.hangHold
  extract_lets _ s1 _
  have h1 : s₀.Reaches s1 := h.setFld.foldl (fun _ h _ => h.holdPlot)
  exact h1.setHang.hangResets

theorem hangNotice {stage x} (h : s₀.Reaches s) : s₀.Reaches (s.hangNotice stage x) := h.platformEvent

theorem hangStart {x} (h : s₀.Reaches s) : s₀.Reaches (s.hangStart x) := by
  unfold State.hangStart
  extract_lets s1 s2 _ _ _ s3 s4 _
  have h1 : s₀.Reaches s1 := h.bumpWrap.setFld
  have h2 : s₀.Reaches s2 := h1.foldl (fun _ h _ => h.bump.setFld)
  have h3 : s₀.Reaches s3 := h2.setHang.hangNotice
  have h4 : s₀.Reaches s4 := h3.askDump
  exact .ite h3.hangHold h4.setHang

theorem hangCut {k} (h : s₀.Reaches s) : s₀.Reaches (s.hangCut k) := by
  unfold State.hangCut
  extract_lets _ _ _ s1 _ s2
  have h1 : s₀.Reaches s1 := h.foldl (fun _ h _ => h.setFld.setFld.setCore)
  have h2 : s₀.Reaches s2 := h1.setHang
  exact h2.setCmd.countSlots

theorem hangUnreplayed {n} (h : s₀.Reaches s) : s₀.Reaches (s.hangUnreplayed n) := h.foldl (fun _ h _ => h.progress.complete)

theorem hangFinish (h : s₀.Reaches s) : s₀.Reaches s.hangFinish := by
  unfold State.hangFinish
  extract_lets _ _ s1 s2 s3 _ s4
  have h1 : s₀.Reaches s1 := h.foldl (fun _ h _ => (Reaches.ite h.hangUnreplayed h).resumePlot.setFld)
  have h2 : s₀.Reaches s2 := h1.foldl (fun _ h _ => h.eventToPlot)
  have h3 : s₀.Reaches s3 := h2.hangNotice
  have h4 : s₀.Reaches s4 := h3.setHang.setFld
  split
  exacts [h4, h4.hangStart]

theorem hangAbort (h : s₀.Reaches s) : s₀.Reaches s.hangAbort := by
  unfold State.hangAbort
  extract_lets _ s1
  have h1 : s₀.Reaches s1 := h.foldl (fun _ h _ => h.hangUnreplayed.setFld.setFld)
  exact .ite h h1.setHang.setFld

theorem hangDrop {n} (h : s₀.Reaches s) : s₀.Reaches (s.hangDrop n) := .ite h h.setHang.setFld

/-! ### Sys2Proof/Machine/Reset.lean -/

theorem setSrv {x} (h : s₀.Reaches s) : s₀.Reaches (s.setSrv x) := h.setKp

theorem srvCount {n} (h : s₀.Reaches s) : s₀.Reaches (s.srvCount n) := h.setFld.setFld.setFld.setFld.setFld

theorem srvUnload {n} (h : s₀.Reaches s) : s₀.Reaches (s.srvUnload n) := h.setSrv.srvCount

theorem fireAll {c} (h : s₀.Reaches s) : s₀.Reaches (s.fireAll c) := h.setCore.foldl (fun _ h _ => h.send)

theorem coreReset {c} (h : s₀.Reaches s) : s₀.Reaches (s.coreReset c) := by
  unfold State.coreReset
  extract_lets s1 _ _ s2 s3 s4 s5 s6 _
  have h1 : s₀.Reaches s1 := h.fireAll
  have h2 : s₀.Reaches s2 := h1.resetRegs.resetRegs.resetRegs.setReg
  have h3 : s₀.Reaches s3 := h2.foldl (fun _ h _ => h.resetRegs.setDma)
  have h4 : s₀.Reaches s4 := h3.setCore
  have h5 : s₀.Reaches s5 := h4.foldl (fun _ h _ => h.setTf)
  have h6 : s₀.Reaches s6 := h5.setFld
  exact h6.setKp

theorem coreRelease {c} (h : s₀.Reaches s) : s₀.Reaches (s.coreRelease c) := .ite h.setCore.setThr h

theorem parkRelease {c} (h : s₀.Reaches s) : s₀.Reaches (s.parkRelease c) := (Reaches.ite h.setCore h).coreRelease

theorem abortCommands {hit} (h : s₀.Reaches s) : s₀.Reaches (s.abortCommands hit) := h.foldl (fun _ h _ => .ite h h.progress.complete)

theorem setEpoch {n e} (h : s₀.Reaches s) : s₀.Reaches (s.setEpoch n e) := by
  unfold State.setEpoch
  extract_lets src s1 s2
  have hsrc : s₀.Reaches src := h.setFld
  clear_value src
  have h1 : s₀.Reaches s1 := hsrc.same
  have h2 : s₀.Reaches s2 := h1.foldl (fun _ h _ => h.setFld)
  exact h2.foldl (fun _ h _ => h.setFld)

theorem closePots {c} (h : s₀.Reaches s) : s₀.Reaches (s.closePots c) := h.setCore

theorem dropFinals {n} (h : s₀.Reaches s) : s₀.Reaches (s.dropFinals n) := h.setFab.setFld.foldl (fun _ h _ => h.fabReply)

theorem orderTeardown {n e} (h : s₀.Reaches s) : s₀.Reaches (s.orderTeardown n e) := h.foldl (fun _ h _ => h.free.fabNote)

theorem teardown {n epoch keep issuer next} (h : s₀.Reaches s) : s₀.Reaches (s.teardown n epoch keep issuer next) := by
  unfold State.teardown
  extract_lets _ s1 s2 s3 s4 s5 _ s6 _
  have h1 : s₀.Reaches s1 := h.hangDrop.setEpoch.holdThreads
  have h2 : s₀.Reaches s2 := h1.foldl (fun _ h _ => .ite h h.setFld)
  have h3 : s₀.Reaches s3 := (h2.foldl (fun _ h _ => h.closePots)).dropFinals
  have h4 : s₀.Reaches s4 := h3.srvUnload
  have h5 : s₀.Reaches s5 := h4.foldl (fun _ h _ => .ite h.setFld h)
  have h6 : s₀.Reaches s6 := h5.foldl (fun _ h _ => .ite h.complete h.setCmd)
  clear_value s6
  exact h6.setKp

theorem teardownTo {n e keep issuer next order} (h : s₀.Reaches s) : s₀.Reaches (s.teardownTo n e keep issuer next order) := by
  unfold State.teardownTo
  split
  · exact h.setKp
  · extract_lets s1
    have h1 : s₀.Reaches s1 := h.teardown
    exact .ite h1.orderTeardown h1

theorem beginTeardown {n keep issuer next order} (h : s₀.Reaches s) : s₀.Reaches (s.beginTeardown n keep issuer next order) := h.teardownTo

theorem stopDma {u} (h : s₀.Reaches s) : s₀.Reaches (s.stopDma u) := .ite h.setDma.setFld.setFld.setFld h.setDma.setFld

theorem endTeardown {x} (h : s₀.Reaches s) : s₀.Reaches (s.endTeardown x) := by
  unfold State.endTeardown
  extract_lets _ _ s1 s2 s3 s4 _ s5 s6
  have h1 : s₀.Reaches s1 := h.foldl (fun _ h _ => h.stopDma)
  have h2 : s₀.Reaches s2 := h1.foldl (fun _ h _ => h.coreReset.parkRelease)
  have h3 : s₀.Reaches s3 := h2.foldl (fun _ h _ => .ite h.setFld.setFld h)
  have h4 : s₀.Reaches s4 := h3.eventToPlot.bump
  clear_value s4
  have h5 : s₀.Reaches s5 := h4.setKp
  have h6 : s₀.Reaches s6 := h5.foldl (fun _ h _ => h.progress.complete)
  exact .ite h6 (h6.foldl (fun _ h _ => h.progress.complete)).hangFinish

theorem dropPacket {inside n p} (h : s₀.Reaches s) : s₀.Reaches (s.dropPacket inside n p) := by
  unfold State.dropPacket
  extract_lets _ _
  exact .ite (.ite h.boundaryCount h.boundaryCount.reply) (.ite h h.boundaryCount.turnBack)

theorem routerReset {s0 inside n} (h0 : s₀.Reaches s0) : s₀.Reaches (s0.routerReset inside n) := by
  unfold State.routerReset
  extract_lets s s1
  have h : s₀.Reaches s := h0.foldl (fun _ h _ => h.dropPacket)
  have h1 : s₀.Reaches s1 := h.same
  exact h1.setReg.setReg.setReg.setReg

theorem portReset {m} (h : s₀.Reaches s) : s₀.Reaches (s.portReset m) := h.resetRegs.setReg.setPort

theorem parcelReset {p} (h : s₀.Reaches s) : s₀.Reaches (s.parcelReset p) := by
  unfold State.parcelReset
  extract_lets _ s1
  have h1 : s₀.Reaches s1 := h.same
  exact h1.foldl (fun s h _ => h.stopDma.setKpOf (s.stopDma_kp _))

theorem clearDomain {p dom idx} (h : s₀.Reaches s) : s₀.Reaches (s.clearDomain p dom idx) := by
  unfold State.clearDomain
  extract_lets s0 s1 _ s2 s3
  have h0 : s₀.Reaches s0 := h.loopStop
  have h1 : s₀.Reaches s1 := h0.foldl (fun _ h _ => h.coreReset)
  have h2 : s₀.Reaches s2 := .ite (h1.foldl (fun _ h _ => h.routerReset)) h1
  have h3 : s₀.Reaches s3 := h2.foldl (fun _ h _ => h.portReset)
  exact .ite h3.parcelReset h3

theorem releaseCores {l} (h : s₀.Reaches s) : s₀.Reaches (s.releaseCores l) := h.foldl (fun _ h _ => .ite h.coreRelease h)

theorem abortRebinds {hit} (h : s₀.Reaches s) : s₀.Reaches (s.abortRebinds hit) := h.setImg

theorem execResetReqGo {ag p v} (h : s₀.Reaches s) : Res.From s₀ (execResetReqGo ag p v s) :=
  .next (.ite h.reply (Reaches.ite h.setReg (.ite h.setReg.setFld
    (.ite h.setReg.setFld.setFld.setFld.setKp.resetDrain h.setReg.setFld.setFld.setFld.setKp.resetSteps))).reply)

theorem cutSteps {p dom idx} (h : s₀.Reaches s) : s₀.Reaches (s.cutSteps p dom idx) := h.setSrv

theorem drainParcel {p us} (h : s₀.Reaches s) : s₀.Reaches (s.drainParcel p us) := by
  unfold State.drainParcel
  extract_lets _ _ s1 _ _ _ s1' s2
  have h1 : s₀.Reaches s1 := h.setFld.setFld.markDomain
  have hs1' : s₀.Reaches s1' := .ite (h1.foldl (fun _ h _ => h.hangCut)).cutSteps h1
  have h2 : s₀.Reaches s2 := hs1'.abortCommands
  exact h2.clearDomain.abortRebinds

theorem beginModReset {m} (h : s₀.Reaches s) : s₀.Reaches (s.beginModReset m) := by
  unfold State.beginModReset
  extract_lets s1 s2 _ s3 _
  have h1 : s₀.Reaches s1 := h.hangAbort.foldl (fun _ h _ => h.setFld.markDomain)
  have h2 : s₀.Reaches s2 := h1.foldl (fun _ h _ => h.beginTeardown)
  have h3 : s₀.Reaches s3 := .ite h2.rackFail.setImg h2
  exact h3.setKp

theorem resetBlock {b} (h : s₀.Reaches s) : s₀.Reaches (s.resetBlock b) := h.same

theorem clearModule (h : s₀.Reaches s) : s₀.Reaches s.clearModule := by
  unfold State.clearModule
  extract_lets _ s1 s2 s3 s4 s5 _ s6 _ _ _ _ s7
  have h1 : s₀.Reaches s1 := h.foldl (fun _ h _ => h.log)
  have h2 : s₀.Reaches s2 := h1.foldl (fun _ h _ => h.resetBlock)
  have h3 : s₀.Reaches s3 := h2.same
  have h4 : s₀.Reaches s4 := h3.setFabPacked
  have h5 : s₀.Reaches s5 := h4.foldl (fun _ h _ => h.setReg)
  have h6 : s₀.Reaches s6 := h5.dbgLock.resetBlock.newNonce.setRep
  have h7 : s₀.Reaches s7 := h6.setKp
  exact h7.countSpares

theorem execDrainEnd {p us} (h : s₀.Reaches s) : Res.From s₀ (execDrainEnd p us s) := by
  unfold Machine.execDrainEnd
  refine .next ?_
  split
  · exact .ite h.drainParcel h
  · extract_lets _ s1 s2 s3 s4 _
    have h1 : s₀.Reaches s1 := h.foldl (fun _ h _ => h.markDomain)
    have h2 : s₀.Reaches s2 := .ite h1.abortCommands h1
    have h3 : s₀.Reaches s3 := h2.foldl (fun _ h _ => h.clearDomain)
    have h4 : s₀.Reaches s4 := .ite h3.clearModule h3.abortRebinds
    exact .ite h h4.setKp

theorem trainStack {p bad} (h : s₀.Reaches s) : s₀.Reaches (s.trainStack p bad) := h.setFld

/-- The reset of one domain is over. -/
theorem releaseReset {p : Nat} (h : s₀.Reaches s) :
    s₀.Reaches (let s2 := s.setKp { s.kp with resets := Sparse.erase s.kp.resets p }
      (s2.setHang { s2.kp.hang with busy := s2.kp.hang.busy.filter (fun x => x.1 ≠ p) }).hangResets) := by
  extract_lets _ s2 _
  have h2 : s₀.Reaches s2 := h.setKp
  clear_value s2
  exact h2.setHang.hangResets

theorem execResetRelease {p bad} (h : s₀.Reaches s) : Res.From s₀ (execResetRelease p bad s) := by
  unfold Machine.execResetRelease
  extract_lets free s1 s2 _ s1' _
  have hfree : ∀ (s : State), s₀.Reaches s → ∀ (p dom idx : ℕ), s₀.Reaches (free s p dom idx) := fun _ h _ _ _ =>
    (Reaches.ite h.markDomain.trainStack h.markDomain).releaseCores
  have h1 : s₀.Reaches s1 := h.foldl (fun _ h _ => hfree _ h _ _ _)
  have h2 : s₀.Reaches s2 := h1.foldl (fun _ h _ => h.endTeardown)
  have hs1' : s₀.Reaches s1' := h.foldl (fun _ h _ => h.markDomain.trainStack)
  clear_value s2 s1' free
  refine .next ?_
  split
  exacts [.ite (hfree _ h _ _ _).setFld.releaseReset h, .ite h2.setKp (.ite hs1'.setFldModReset h)]

theorem execModResetGo {ag v} (h : s₀.Reaches s) : Res.From s₀ (execModResetGo ag v s) :=
  .next (.ite h.reply (Reaches.ite h.setReg.beginModReset h.setReg).reply)

theorem execModResetPin {low} (h : s₀.Reaches s) : Res.From s₀ (execModResetPin low s) := .next (.ite h.setKp.setImg.beginModReset h.setKp)

end State.Reaches
end Sys2Proof.Machine
end

section
/-! SUPPORT for O59. What operations keep: binding, serving state and the fabric. -/
namespace Sys2Proof.Machine
namespace State.Reaches

variable {s₀ s u : State}

-- One thread elaborates these theorems: many at once hold many stacks.
set_option Elab.async false

/-! ### Sys2Proof/Machine/Binding.lean -/

theorem bindPlot {r} (h : s₀.Reaches s) : s₀.Reaches (s.bindPlot r) := by
  unfold State.bindPlot
  extract_lets _ _ s1 s2 _ s3 s4
  have h1 : s₀.Reaches s1 := h.setFld.setFld.setFld
  have h2 : s₀.Reaches s2 := h1.setFld.setFld
  have h3 : s₀.Reaches s3 := h2.setBind.setFld
  have h4 : s₀.Reaches s4 := h3.foldl (fun _ h _ => h.setFld.setFld)
  exact .ite h3 (h4.foldl (fun _ h _ => h.setFld.setFld.setFld))

theorem bindWorlds {b cores} (h : s₀.Reaches s) : s₀.Reaches (s.bindWorlds b cores) := h.setImg

theorem setAged {p i core router} (h : s₀.Reaches s) : s₀.Reaches (s.setAged p i core router) := h.setRep

theorem runSteps {p} (h : s₀.Reaches s) : s₀.Reaches (s.runSteps p) := h.foldl (fun _ h _ => h.setFld.setFld)

theorem setVolt {p h' v low} (h : s₀.Reaches s) : s₀.Reaches (s.setVolt p h' v low) := h.setFld.setFld

theorem bindClocks {b} (h : s₀.Reaches s) : s₀.Reaches (s.bindClocks b) := by
  unfold State.bindClocks
  extract_lets s1 _ s2
  have h1 : s₀.Reaches s1 := h.foldl (fun _ h _ => .ite h.setRep.setAged h.setFld.setFld)
  have h2 : s₀.Reaches s2 := h1.foldl (fun _ h _ => h.setVolt)
  exact h2.foldl (fun _ h _ => h.runSteps)

theorem bindQueues {b} (h : s₀.Reaches s) : s₀.Reaches (s.bindQueues b) := h.foldl (fun _ h _ => h.resetQueue.setReg)

theorem bindDmas {b} (h : s₀.Reaches s) : s₀.Reaches (s.bindDmas b) := h.foldl (fun _ h _ => h.setFld.setFld.setFld.setFld.setFld.setFld)

theorem bindPorts {b} (h : s₀.Reaches s) : s₀.Reaches (s.bindPorts b) := h.foldl (fun _ h _ => .ite h.setFld h.setFld.setFld.setFld)

theorem bindMemory {b p pages} (h : s₀.Reaches s) : s₀.Reaches (s.bindMemory b p pages) := by
  unfold State.bindMemory
  extract_lets _ _ s1
  have h1 : s₀.Reaches s1 := h.foldl (fun _ h _ => h.setReg)
  exact h1.foldl (fun _ h _ => by
    extract_lets _ _ _ s2
    have h2 : s₀.Reaches s2 := h.setReg.setReg
    split
    exacts [h2.same, h.setReg, h.setReg, h])

theorem halfTerms {p h'} (h : s₀.Reaches s) : s₀.Reaches (s.halfTerms p h') := h.publishTerms

theorem publishHalf {p h'} (h : s₀.Reaches s) : s₀.Reaches (s.publishHalf p h') := h.halfTerms.published

theorem execLbPublish {p east wt wl wf wp} (h : s₀.Reaches s) : Res.From s₀ (execLbPublish p east wt wl wf wp s) := .next h.publishTerms.published

theorem planChange {halves f} (h : s₀.Reaches s) (hf : ∀ (u : State), s₀.Reaches u → s₀.Reaches (f u)) : s₀.Reaches (s.planChange halves f) := by
  unfold State.planChange
  extract_lets t _ _ gens s1 s2 s3
  have ht : s₀.Reaches t := hf _ h
  have hgens : ∀ (l : List (ℕ × ℕ)) (s : State), s₀.Reaches s → s₀.Reaches (gens l s) := fun _ _ h => h.foldl (fun _ h _ => h.published)
  have h1 : s₀.Reaches s1 := h.foldl (fun _ h _ => h.publishTerms)
  have h2 : s₀.Reaches s2 := hf _ (hgens _ _ h1)
  have h3 : s₀.Reaches s3 := hgens _ _ (h2.foldl (fun _ h _ => h.halfTerms))
  exact h3.foldl (fun _ h _ => h.noticeHalf)

theorem setArb {s0 p v} (h0 : s₀.Reaches s0) : s₀.Reaches (s0.setArb p v) := by
  unfold State.setArb
  extract_lets s _ set _ pub _ s1
  have h : s₀.Reaches s := h0.taken
  have hset : ∀ (s : State), s₀.Reaches s → s₀.Reaches (set s) := fun _ h => h.setReg
  have hpub : ∀ (w : List ℕ) (s : State), s₀.Reaches s → s₀.Reaches (pub w s) := fun _ _ h => h.publishTerms.publishTerms.published
  have h1 : s₀.Reaches s1 := .ite (hset _ (hpub _ _ h)) (.ite (hpub _ _ (hset _ h)) (hpub _ _ (hset _ (hpub _ _ h))))
  exact .ite h0 h1.noticeHalf.noticeHalf

theorem execClassArbWrite {ag p v} (h : s₀.Reaches s) : Res.From s₀ (execClassArbWrite ag p v s) := .next (.ite h.reply h.setArb.reply)

theorem finishRebind {x} (h : s₀.Reaches s) : s₀.Reaches (s.finishRebind x) := by
  unfold State.finishRebind
  extract_lets _ _ _ _ s1 s2 _ s3 s4 s5 s6 s7 _ s8 s9 _
  have h1 : s₀.Reaches s1 := h.foldl (fun _ h _ => h.coreReset.zeroCore)
  have h2 : s₀.Reaches s2 := h1.unbindPlot
  have h3 : s₀.Reaches s3 := h2.bindWorlds.bindPlot
  have h4 : s₀.Reaches s4 := h3.bindQueues.bindDmas.bindPorts.bindMemory
  have h5 : s₀.Reaches s5 := h4.planChange (fun _ h => h.bindClocks)
  have h6 : s₀.Reaches s6 := h5.foldl (fun _ h _ => h.coreReset.zeroCore.parkRelease)
  have h7 : s₀.Reaches s7 := h6.bumpWrap.setFld
  have h8 : s₀.Reaches s8 := h7.setImg
  have h9 : s₀.Reaches s9 := by
    unfold s9
    split
    exacts [h8.progress.complete, h8]
  exact h9.foldl (fun _ h _ => .ite h.postEvent h)

theorem execTeardownHorizon {n us} (h : s₀.Reaches s) : Res.From s₀ (execTeardownHorizon n us s) := by
  unfold Machine.execTeardownHorizon
  refine .next ?_
  split
  · exact h
  · split
    · exact h
    · split
      exacts [.ite h.setKp.bump.finishRebind h.endTeardown, h.endTeardown]

theorem execRebindResetRecovery {n} (h : s₀.Reaches s) : Res.From s₀ (execRebindResetRecovery n s) := by
  unfold Machine.execRebindResetRecovery
  refine .next ?_
  split
  · exact h
  · extract_lets _ _ _ s0 s1 old copy s2 s3 s4 s5 s6 _ s7 s8 _ s9 s10 s11 _
    have h0 : s₀.Reaches s0 := h.setKp.foldl (fun _ h _ => h.coreReset.zeroCore)
    clear_value s0
    have h1 : s₀.Reaches s1 := h0.unbindPlot
    have hold : s₀.Reaches old := h1.same
    have hcopy : ∀ (s : State), s₀.Reaches s → ∀ (r : RegName) (u i : ℕ), s₀.Reaches (copy s r u i) := fun _ h _ _ _ => h.setReg
    clear_value s1 copy old
    have h2 : s₀.Reaches s2 := h1.foldl (fun _ h _ => hcopy _ h _ _ _)
    clear_value s2
    have h3 : s₀.Reaches s3 := h2.foldl (fun _ h _ => hcopy _ h _ _ _)
    clear_value s3
    have h4 : s₀.Reaches s4 := h3.foldl (fun _ h _ => h.setFld)
    clear_value s4
    have h5 : s₀.Reaches s5 := h4.foldl (fun _ h _ => hcopy _ (hcopy _ h _ _ _) _ _ _)
    clear_value s5
    have h6 : s₀.Reaches s6 := (h5.foldl (fun _ h _ => hcopy _ h _ _ _)).foldl (fun _ h _ => hcopy _ h _ _ _)
    clear_value s6
    have h7 : s₀.Reaches s7 := h6.setTuW1.foldl (fun _ h _ => hcopy _ h _ _ _)
    clear_value s7
    have h8 : s₀.Reaches s8 := (hcopy _ (hcopy _ (hcopy _ h7 _ _ _) _ _ _) _ _ _).setBind.setFld
    clear_value s8
    have h9 : s₀.Reaches s9 := h8.setImg.foldl (fun _ h _ => hcopy _ h _ _ _)
    clear_value s9
    have h10 : s₀.Reaches s10 := h9.setEpoch
    clear_value s10
    have h11 : s₀.Reaches s11 := h10.foldl (fun _ h _ => h.coreReset.zeroCore.parkRelease)
    clear_value s11
    exact h11.setImg

theorem unbindAll (h : s₀.Reaches s) : s₀.Reaches s.unbindAll := h.resetBlock.foldl (fun _ h _ => h.setReg)

theorem placeFunctions {b} (h : s₀.Reaches s) : s₀.Reaches (s.placeFunctions b) := h.foldl (fun _ h _ => h.setFld.setFld)

theorem bindFabric {s0 b} (h0 : s₀.Reaches s0) : s₀.Reaches (s0.bindFabric b) := by
  unfold State.bindFabric
  extract_lets _ s1
  have h1 : s₀.Reaches s1 := h0.foldl (fun _ h _ => .ite h h.setReg)
  exact h1.foldl (fun _ h _ => .ite h.setFld.setFld h)

theorem unmapped (h : s₀.Reaches s) :
    s₀.Reaches (State.setKp { s with tuW1 := [] } { s.kp with tx := [], lookups := [], plots := [] }) := h.setTuW1.setKp

theorem applyFull {b trusted} (h : s₀.Reaches s) : s₀.Reaches (s.applyFull b trusted) := by
  unfold State.applyFull
  extract_lets _ _ _ _ _ s0 _ src s1 s2 _ s3 s4 _ s5 _ _ s6 s7 s8 s9 _ s10 s11 s12 unbound s13 s14 s15 s16 _ s17 s18 _ s19 s20
  have h0 : s₀.Reaches s0 := h.foldl (fun _ h _ => .ite h h.dropGrants)
  have hsrc : s₀.Reaches src := h0.initBytes
  clear_value src s0
  have h1 : s₀.Reaches s1 := hsrc.setCores
  have h2 : s₀.Reaches s2 := h1.foldl (fun _ h _ => (h.foldl (fun _ h _ => h.initBytes)).setStack)
  clear_value s2
  have h3 : s₀.Reaches s3 := (h2.setLmap.foldl (fun _ h _ => h.redirHome)).foldl (fun _ h _ => h.setFence)
  have h4 : s₀.Reaches s4 := h3.resetBlock.unbindAll
  clear_value s4
  have h5 : s₀.Reaches s5 := h4.unmapped
  clear_value s5
  have h6 : s₀.Reaches s6 := h5.setImg
  have h7 : s₀.Reaches s7 := h6.bindRoutes
  have h8 : s₀.Reaches s8 := h7.foldl (fun _ h _ => h.setReg.setArb)
  have h9 : s₀.Reaches s9 := h8.placeFunctions.foldl (fun _ h _ => by
    split
    exacts [h.setReg, h.setReg, h])
  have h10 : s₀.Reaches s10 := h9.bindWorlds.planChange (fun _ h => h.bindClocks)
  have h11 : s₀.Reaches s11 := h10.foldl (fun _ h _ => h.setReg.setFld.setFld)
  clear_value s11
  have h12 : s₀.Reaches s12 := h11.setRegs.foldl (fun _ h _ => h.bindPlot)
  have hunbound : s₀.Reaches unbound := h12.foldl (fun _ h _ => h.setFld)
  have h13 : s₀.Reaches s13 := hunbound.bindQueues.bindDmas.bindPorts.bindMemory
  have h14 : s₀.Reaches s14 := h13.foldl (fun _ h _ => h.foldl (fun _ h _ => h.setReg))
  have h15 : s₀.Reaches s15 := h14.bindFabric
  have h16 : s₀.Reaches s16 := h15.foldl (fun _ h _ => h.setFld.setFld.setFld)
  have h17 : s₀.Reaches s17 := h16.setFld.countSpares
  have h18 : s₀.Reaches s18 := h17.foldl (fun _ h _ => h.foldl (fun _ h _ => h.coreReset.parkRelease))
  have h19 : s₀.Reaches s19 := h18.foldl (fun _ h _ => h.setReg)
  have h20 : s₀.Reaches s20 := .ite h19 h19.measured
  exact h20.setFld.setFld

theorem setRegNoPlots {r u i w} (h : s₀.Reaches s) : s₀.Reaches ((s.setReg r u i w).setKp { s.kp with plots := [] }) :=
  h.setReg.setKpOf (s.setReg_kp ..)

theorem noProfile (h : s₀.Reaches s) : s₀.Reaches s.noProfile := by
  unfold State.noProfile
  extract_lets s1 s2 _ s3 s4 s5
  have h1 : s₀.Reaches s1 := (h.foldl (fun _ h _ => h.dropGrants)).resetBlock.unbindAll
  clear_value s1
  have h2 : s₀.Reaches s2 := h1.clearBinds.resetBlock.resetBlock
  clear_value s2
  have h3 : s₀.Reaches s3 := h2.setRegNoPlots
  clear_value s3
  have h4 : s₀.Reaches s4 := h3.setFld.setFld
  have h5 : s₀.Reaches s5 := h4.foldl (fun _ h _ => h.setFld)
  exact h5.setFld.setFld.setFld

theorem execFullImageApply {pins v} (h : s₀.Reaches s) : Res.From s₀ (execFullImageApply pins v s) := by
  unfold Machine.execFullImageApply
  extract_lets _ _ done _ _ s0 _
  have hdone : ∀ (s : State), s₀.Reaches s → s₀.Reaches (done s) := fun _ h => h.setKp
  have h0 : s₀.Reaches s0 := h.setFld
  refine .next ?_
  split
  · exact h
  · split
    · exact hdone _ h0.noProfile
    · split
      · exact hdone _ h0.applyFull.setFld.setFld
      · split
        · exact hdone _ h0.imgStat.noProfile
        · extract_lets s1 s2
          have h1 : s₀.Reaches s1 := h0.applyFull.imgStat
          have h2 : s₀.Reaches s2 := h1.setFld.setFld.setFld
          exact hdone _ h2.setFld

theorem execStagedModuleReset (h : s₀.Reaches s) : Res.From s₀ (execStagedModuleReset s) := .next (.ite h.beginModReset h)

theorem execProfileLoadEdge {slot v} (h : s₀.Reaches s) : Res.From s₀ (execProfileLoadEdge slot v s) := by
  unfold Machine.execProfileLoadEdge
  extract_lets s1 _
  have h1 : s₀.Reaches s1 := h.bump.setFld
  refine .next ?_
  split
  · exact h1
  · split
    exacts [h1.imgStat, h1.setImg]

theorem execStrapPinChange {pin differs} (h : s₀.Reaches s) : Res.From s₀ (execStrapPinChange pin differs s) := .next (.ite h.setFld h.setFld)

/-! ### Sys2Proof/Machine/SrvOps.lean -/

theorem putModel {m} (h : s₀.Reaches s) : s₀.Reaches (s.putModel m) := h.setSrv

theorem putReq {r} (h : s₀.Reaches s) : s₀.Reaches (s.putReq r) := h.setSrv.srvCount

theorem streamPost {r n fin status code} (h : s₀.Reaches s) : s₀.Reaches (s.streamPost r n fin status code).2 := by
  unfold State.streamPost
  extract_lets _ _ _ _ _ _ _ _ _ _
  exact h.postEntry

theorem streamDue {r n} (h : s₀.Reaches s) : s₀.Reaches (s.streamDue r n).2 := by
  induction n generalizing s r with
  | zero => exact h
  | succ n ih =>
    unfold State.streamDue
    split
    exacts [ih h.streamPost, h]

theorem streamLast {r fin status code n} (h : s₀.Reaches s) : s₀.Reaches (s.streamLast r fin status code n) := by
  induction n generalizing s r with
  | zero => exact h
  | succ n ih =>
    unfold State.streamLast
    exact .ite (ih h.streamPost) h.streamPost

theorem streamRefuse {q cid plot rid status retry} (h : s₀.Reaches s) : s₀.Reaches (s.streamRefuse q cid plot rid status retry) := h.bump.postEntry

theorem srvProve {r} (h : s₀.Reaches s) : s₀.Reaches (s.srvProve r) := by
  unfold State.srvProve
  split
  exacts [h, .ite h (.ite h.hostWrite h.writeVia)]

theorem srvEnd {r fin status code} (h : s₀.Reaches s) : s₀.Reaches (s.srvEnd r fin status code) := by
  unfold State.srvEnd
  extract_lets s1 _ s2
  have h1 : s₀.Reaches s1 := h.srvProve.streamLast
  have h2 : s₀.Reaches s2 := h1.setSrv.srvCount
  exact h2.foldl (fun _ h _ => h.complete)

theorem srvPeerLost {peer} (h : s₀.Reaches s) : s₀.Reaches (s.srvPeerLost peer) := by
  unfold State.srvPeerLost
  extract_lets _
  exact h.foldl (fun _ h _ => (h.foldl (fun _ h _ => h.srvEnd)).putModel)

/-! ### Sys2Proof/Machine/Fab.lean -/

theorem answerUnsent (h : s₀.Reaches s) : s₀.Reaches s.answerUnsent := h.setFab.foldl (fun _ h _ => h.outReply)

theorem portDown {m} (h : s₀.Reaches s) : s₀.Reaches (s.portDown m) := h.setPort.setFld.answerUnsent

theorem portRise {m credit} (h : s₀.Reaches s) : s₀.Reaches (s.portRise m credit) := h.setPort.setFld.pumpAll

theorem portCfg {m v} (h : s₀.Reaches s) : s₀.Reaches (s.portCfg m v) := by
  unfold State.portCfg
  extract_lets _ _ _ _ _ s1
  have h1 : s₀.Reaches s1 := h.setReg
  exact .ite h1.setFld (.ite h1.setPort.setFld.answerUnsent h1)

theorem execPortEnable {ag m v} (h : s₀.Reaches s) : Res.From s₀ (execPortEnable ag m v s) :=
  .next (h.fabRun (fun _ h => h.regWrite (fun _ h => h.portCfg)))

theorem execPortTrainingDone {m} (h : s₀.Reaches s) : Res.From s₀ (execPortTrainingDone m s) :=
  .next (h.fabRun (fun _ h => .ite h (.ite h.portRise h.setFld.send)))

theorem execPortInitFrame {m peer port pools} (h : s₀.Reaches s) : Res.From s₀ (execPortInitFrame m peer port pools s) :=
  .next (h.fabRun (fun _ h => .ite h (.ite h.setFld.setFld h.setFld.setFld.portRise)))

theorem execPortUpTimeout {m} (h : s₀.Reaches s) : Res.From s₀ (execPortUpTimeout m s) := .next (.ite h.setFld h)

theorem execFabricLaneFail {m} (h : s₀.Reaches s) : Res.From s₀ (execFabricLaneFail m s) := .next (.ite h.portDown h)

theorem sendCtrl {m o nak} (h : s₀.Reaches s) : s₀.Reaches (s.sendCtrl m o nak) := h.setPort.send

theorem oweCells {m k n} (h : s₀.Reaches s) : s₀.Reaches (s.oweCells m k n) := .ite h (.ite h.setPort.sendCtrl h.setPort)

theorem linkNak {m} (h : s₀.Reaches s) : s₀.Reaches (s.linkNak m) := .ite h h.setPort.sendCtrl

theorem linkReplay {m} (h : s₀.Reaches s) : s₀.Reaches (s.linkReplay m) := by
  unfold State.linkReplay
  extract_lets _ s1
  have h1 : s₀.Reaches s1 := h.setPort.bump
  exact .ite h (.ite h.portDown (h1.foldl (fun _ h _ => h.send)))

theorem linkTake {m h'} (h : s₀.Reaches s) : s₀.Reaches (s.linkTake m h') := (Reaches.ite h.setPort.linkReplay h.setPort).pumpAll

theorem execLinkCtrlFrame {m fcs h'} (h : s₀.Reaches s) : Res.From s₀ (execLinkCtrlFrame m fcs h' s) :=
  .next (h.fabRun (fun _ h => .ite h (.ite h.bump (.ite h h.linkTake))))

theorem execLinkAckTimeout {m} (h : s₀.Reaches s) : Res.From s₀ (execLinkAckTimeout m s) := .next (h.fabRun (fun _ h => .ite h.linkReplay h))

theorem execCreditReturnTimer {m} (h : s₀.Reaches s) : Res.From s₀ (execCreditReturnTimer m s) :=
  .next (h.fabRun (fun _ h => .ite (h.foldl (fun _ h _ => h.sendCtrl)) h))

theorem takeAck {peer h' ce} (h : s₀.Reaches s) : s₀.Reaches (s.takeAck peer h' ce) := by
  unfold State.takeAck
  split
  · exact h
  · extract_lets _ _ _ _ _ _
    exact h.setConn.pumpAll

theorem answerOuts {peer status} (h : s₀.Reaches s) : s₀.Reaches (s.answerOuts peer status) := h.foldl (fun _ h _ => h.outReply)

theorem connFor {m h'} (h : s₀.Reaches s) : s₀.Reaches (s.connFor m h').2 := by
  unfold State.connFor
  extract_lets create _ s1
  have h1 : s₀.Reaches s1 := h.bump
  split
  · split
    · exact h
    · split
      exacts [h, h.bump]
  · split
    · exact h.bump
    · split
      exacts [.ite h1.send h1.sendDirect, h]

/-- The state in which a message's connection stands. -/
theorem connTaken {m h'} (h : s₀.Reaches s) : ∀ p ∈ (s.connFor m h').1, s₀.Reaches p := by
  unfold State.connFor
  extract_lets create _ s1
  have hcreate : ∀ s, s₀.Reaches s → s₀.Reaches (create s) := fun _ h => h.setConn
  split
  · split
    · exact mem_some (g := id) h
    · split
      exacts [mem_some (g := id) (hcreate _ h.answerOuts), mem_none]
  · split
    · exact mem_none
    · split
      exacts [mem_none, mem_some (g := id) (hcreate _ h)]

theorem takeClose {peer} (h : s₀.Reaches s) : s₀.Reaches (s.takeClose peer) := by
  unfold State.takeClose
  split
  exacts [h, .ite h (.ite h.dropConn h.sendAck.dropConn)]

theorem landMsgs {m h' cells l} (h : s₀.Reaches s) : s₀.Reaches (s.landMsgs m h' cells l) := by
  unfold State.landMsgs
  extract_lets _ _ _ _ s1 _ _
  have h1 : s₀.Reaches s1 := h.foldl (fun _ h _ => h.fabReply.bump)
  exact .ite h1.oweCells h1.setPort

theorem transport {m auth ce b} (h : s₀.Reaches s) : s₀.Reaches (s.transport m auth ce b) := by
  unfold State.transport
  extract_lets _ _ _ _ drop _
  have hdrop : ∀ (s : State), s₀.Reaches s → s₀.Reaches (drop s) := fun _ h => h.oweCells
  split
  · exact hdrop _ h.bump
  · split
    · exact hdrop _ h.bump
    · split
      · split
        exacts [.ite h.setConn h, h]
      · split
        · next e => exact hdrop _ (h.connFor.of_snd e)
        · next s0 _ e =>
          have h0 : s₀.Reaches s0 := h.connTaken s0 (by rw [e]; rfl)
          extract_lets s1
          have h1 : s₀.Reaches s1 := h0.takeAck
          split
          · exact .ite h1.takeClose h1
          · split
            · exact h1
            · extract_lets _ s2
              have h2 : s₀.Reaches s2 := h1.setConn
              exact .ite (hdrop _ h1) h2.landMsgs.sendAck

theorem execLinkDataFrame {m fcs auth bytes} (h : s₀.Reaches s) : Res.From s₀ (execLinkDataFrame m fcs auth bytes s) :=
  .next (h.fabRun (fun _ h => .ite h (.ite h.bump.linkNak (.ite h (.ite h.linkNak h.setPort.linkTake.transport)))))

theorem execRoutedFrameReceive {m addrOk auth ce bytes} (h : s₀.Reaches s) : Res.From s₀ (execRoutedFrameReceive m addrOk auth ce bytes s) :=
  .next (h.fabRun (fun _ h => .ite h (.ite h.bump h.transport)))

theorem resend {peer k tseq} (h : s₀.Reaches s) : s₀.Reaches (s.resend peer k tseq) := by
  unfold State.resend
  split
  · exact h
  · extract_lets _ _
    split
    · exact h
    · extract_lets _
      split
      · exact h.setConn
      · extract_lets _ _
        exact h.setConn.sendFrame

theorem execTransportRetransmit {peer vc resp tseq} (h : s₀.Reaches s) : Res.From s₀ (execTransportRetransmit peer vc resp tseq s) := by
  unfold Machine.execTransportRetransmit
  extract_lets _
  exact .next (h.fabRun (fun _ h => by
    split
    · exact h
    · split
      exacts [h, .ite h.failConn.srvPeerLost h.resend]))

theorem execConnectionIdleClose {peer} (h : s₀.Reaches s) : Res.From s₀ (execConnectionIdleClose peer s) := .next (h.fabRun (fun _ h => by
  split
  exacts [h, .ite h h.setConn.sendAck]))

theorem execConnectionOpenRetry {peer expired} (h : s₀.Reaches s) : Res.From s₀ (execConnectionOpenRetry peer expired s) :=
    .next (h.fabRun (fun _ h => by
      split
      exacts [h, .ite h (.ite h.failConn.srvPeerLost (h.setConn.foldl (fun _ h _ => h.foldl (fun _ h _ => h.resend))))]))

theorem rxAnswer {r op status len data arg} (h : s₀.Reaches s) : s₀.Reaches (s.rxAnswer r op status len data arg) := h.fabReply

theorem rxTake {m r} (h : s₀.Reaches s) : s₀.Reaches (s.rxTake m r) := h.setPort.oweCells

theorem setStreams {peer l} (h : s₀.Reaches s) : s₀.Reaches (s.setStreams peer l) := by
  unfold State.setStreams
  split
  exacts [h.setConn, h]

theorem streamTake {peer num} (h : s₀.Reaches s) : ∀ p ∈ s.streamTake peer num, s₀.Reaches p := by
  unfold State.streamTake
  extract_lets _
  split
  · exact .mem_some h
  · split
    exacts [.mem_none, .mem_some h.setStreams]

theorem streamTidy {peer num} (h : s₀.Reaches s) : s₀.Reaches (s.streamTidy peer num) := h.setStreams

theorem setFinals {l} (h : s₀.Reaches s) : s₀.Reaches (s.setFinals l) := h.setFab.setFld

theorem finalStep {peer num} (h : s₀.Reaches s) : s₀.Reaches (s.finalStep peer num) := by
  unfold State.finalStep
  extract_lets _
  split
  · exact h
  · extract_lets _ done _
    have hdone : ∀ (status : ℕ) (s : State), s₀.Reaches s → s₀.Reaches (done status s) := fun _ _ h => h.setFinals.setStreams.rxAnswer
    split
    · exact hdone _ _ h
    · split
      · exact h
      · next e => exact hdone _ _ (h.reach.of_refused e)
      · exact .ite (hdone _ _ h) (hdone _ _ h.memFe)

theorem finals {peer num} (h : s₀.Reaches s) : s₀.Reaches (s.finals peer num) := (h.foldl (fun _ h _ => h.finalStep)).streamTidy

theorem streamArrive {peer num status} (h : s₀.Reaches s) : s₀.Reaches (s.streamArrive peer num status) := .ite h h.setStreams.finals

theorem streamFail {r status} (h : s₀.Reaches s) : s₀.Reaches (s.streamFail r status) := by
  unfold State.streamFail
  split
  · split
    · next e => exact (h.streamTake _ e).streamArrive
    · exact h
  · exact h

theorem serve {m vc resp ops f} (h : s₀.Reaches s) (hf : ∀ (r : RxMsg) (w : Who) (u : State), s₀.Reaches u → ∀ p ∈ f r w u, s₀.Reaches p) :
    s₀.Reaches (s.serve m vc resp ops f) := h.fabRun (fun _ h => by
  split
  · exact h
  · split
    · exact h
    · extract_lets s1 h'
      have h1 : s₀.Reaches s1 := h.rxTake
      have hh' : s₀.Reaches h'.2 := h1.free
      split
      · exact h1.streamFail.rxAnswer.bump
      · split
        · exact Reaches.getD (hf _ _ _ h1) h
        · split
          · exact hh'.rxAnswer
          · next e => exact Reaches.getD (hf _ _ _ (h1.streamTake _ e)) h)

theorem execAelxRead {m vc} (h : s₀.Reaches s) : Res.From s₀ (execAelxRead m vc s) := .next (h.serve (fun _ _ _ h => by
  extract_lets x
  have hx : s₀.Reaches x.2.2 := h.readVia
  split
  exacts [.mem_none, .mem_some hx.rxAnswer]))

theorem rxWrite {r w mmr} (h : s₀.Reaches s) : ∀ p ∈ s.rxWrite r w mmr, s₀.Reaches p.2 := by
  unfold State.rxWrite
  extract_lets x
  have hx : s₀.Reaches x.2.2 := h.writeVia
  split
  exacts [.mem_none, .mem_some hx.streamArrive]

theorem execAelxWrite {m vc mmr} (h : s₀.Reaches s) : Res.From s₀ (execAelxWrite m vc mmr s) :=
  .next (h.serve (fun _ _ _ h => mem_map h.rxWrite (fun _ h => h.rxAnswer)))

theorem execAelxWriteFinal {m vc} (h : s₀.Reaches s) : Res.From s₀ (execAelxWriteFinal m vc s) := .next (h.serve (fun _ _ _ h => by
  split
  · extract_lets h'
    have hh' : s₀.Reaches h'.2 := h.free
    exact .mem_some hh'.rxAnswer.streamTidy
  · exact .mem_some h.setFinals.finals))

theorem execAelxDealWrite {m vc room mmr} (h : s₀.Reaches s) : Res.From s₀ (execAelxDealWrite m vc room mmr s) := .next (h.serve (fun _ _ _ h => by
  split
  exacts [.mem_some h.rxAnswer.streamTidy, mem_map h.rxWrite (fun _ h => h.rxAnswer)]))

theorem rxAtomic {r w op a b} (h : s₀.Reaches s) : ∀ p ∈ s.rxAtomic r w op a b, s₀.Reaches p := by
  unfold State.rxAtomic
  extract_lets fin
  have hfin : ∀ (x : ℕ × ℕ × State), s₀.Reaches x.2.2 → ∀ p ∈ fin x, s₀.Reaches p := fun _ hk => .mem_some hk.streamArrive.rxAnswer
  split
  · exact hfin _ h
  · split
    · exact .mem_none
    · next e => exact hfin _ (h.reach.of_refused e)
    · exact hfin _ h.memAtomic

theorem execAelxAtomic {m vc} (h : s₀.Reaches s) : Res.From s₀ (execAelxAtomic m vc s) := .next (h.serve (fun _ _ _ h => h.rxAtomic))

theorem execAelxAcas {m vc} (h : s₀.Reaches s) : Res.From s₀ (execAelxAcas m vc s) := .next (h.serve (fun _ _ _ h => h.rxAtomic))

theorem rxFe {r w op} (h : s₀.Reaches s) : ∀ p ∈ s.rxFe r w op, s₀.Reaches p := by
  unfold State.rxFe
  extract_lets _ fin _ _
  have hfin : ∀ (x : FeReply × State), s₀.Reaches x.2 → ∀ p ∈ fin x,
    s₀.Reaches p := fun _ hk => .mem_some (.ite (Reaches.ite hk (.ite hk.streamArrive hk)).rxAnswer.streamTidy (.ite (Reaches.ite hk
      (.ite hk.streamArrive hk)).rxAnswer (Reaches.ite hk (.ite hk.streamArrive hk)).rxAnswer))
  split
  · exact hfin _ h
  · split
    · exact hfin _ h
    · split
      · exact .mem_none
      · next e => exact hfin _ (h.reach.of_refused e)
      · exact hfin _ h.memFe

theorem execAelxFeLoad {m vc} (h : s₀.Reaches s) : Res.From s₀ (execAelxFeLoad m vc s) := .next (h.serve (fun _ _ _ h => h.rxFe))

theorem execAelxFeStore {m vc} (h : s₀.Reaches s) : Res.From s₀ (execAelxFeStore m vc s) := .next (h.serve (fun _ _ _ h => h.rxFe))

theorem combIn {m x} (h : s₀.Reaches s) : s₀.Reaches (State.combIn m s x) := by
  unfold State.combIn
  extract_lets _ _ _ _
  split
  · exact h.noteFault.potAnswer
  · exact h.setPort
  · split
    exacts [h.potArrive, h]
  · exact h.potAnswer

theorem execAelxPot {m vc} (h : s₀.Reaches s) : Res.From s₀ (execAelxPot m vc s) := .next (h.serve (fun _ _ _ h => by
  split
  exacts [.mem_none, .mem_some (h.combEnter (fun _ h _ => h.combIn))]))

theorem execFabPotCombinerTimeout {m out} (h : s₀.Reaches s) : Res.From s₀ (execFabPotCombinerTimeout m out s) := .next (h.fabRun (fun _ h => by
  split
  · exact h
  · extract_lets _ s1
    have h1 : s₀.Reaches s1 := h.setPort
    exact .ite h1.combOut h1.combIn))

theorem rxWake {req epoch tag} (h : s₀.Reaches s) : s₀.Reaches (s.rxWake req epoch tag) := by
  unfold State.rxWake
  split
  exacts [h, h.watchWake]

theorem execAelxWake {m vc} (h : s₀.Reaches s) : Res.From s₀ (execAelxWake m vc s) := .next (h.serve (fun _ _ _ h => by
  split
  · extract_lets _ _ s1
    have h1 : s₀.Reaches s1 := by
      unfold s1
      split
      exacts [h.setFab.rxWake, h]
    exact .mem_some h1.rxAnswer
  · split
    · exact .mem_none
    · next e => exact .mem_some (h.reach.of_refused e).rxAnswer
    · exact .mem_some h.wakeNotify.rxAnswer
    · exact .mem_some h.wakeNotify.rxAnswer
    · exact .mem_some h.rxAnswer))

theorem serveReply {m vc op f} (h : s₀.Reaches s) (hf : ∀ (r : RxMsg) (u : State), s₀.Reaches u → s₀.Reaches (f r u)) :
    s₀.Reaches (s.serveReply m vc op f) := h.fabRun (fun _ h => by
  split
  exacts [h, .ite h (hf _ _ h.rxTake)])

theorem tagReply {r tag status v scope} (h : s₀.Reaches s) : s₀.Reaches (s.tagReply r tag status v scope) := by
  unfold State.tagReply
  split
  exacts [h.outReply, h]

theorem execAelxAck {m vc} (h : s₀.Reaches s) : Res.From s₀ (execAelxAck m vc s) :=
  .next (h.serveReply (fun _ _ h => h.setFab.foldl (fun _ h _ => h.tagReply)))

theorem execAelxReadResp {m vc} (h : s₀.Reaches s) : Res.From s₀ (execAelxReadResp m vc s) := .next (h.serveReply (fun _ _ h => h.tagReply))

theorem execAelxAtomicResp {m vc} (h : s₀.Reaches s) : Res.From s₀ (execAelxAtomicResp m vc s) := .next (h.serveReply (fun _ _ h => h.tagReply))

theorem execAelxFeResp {m vc} (h : s₀.Reaches s) : Res.From s₀ (execAelxFeResp m vc s) := .next (h.serveReply (fun _ _ h => h.tagReply))

theorem execAelxFeArmed {m vc} (h : s₀.Reaches s) : Res.From s₀ (execAelxFeArmed m vc s) := .next (h.serveReply (fun _ _ h => by
  split
  · exact h
  · extract_lets _ _ s1
    have h1 : s₀.Reaches s1 := .ite h.setFab h
    exact h1.outReply))

theorem execAelxDealNak {m vc} (h : s₀.Reaches s) : Res.From s₀ (execAelxDealNak m vc s) := .next (h.serveReply (fun _ _ h => h.tagReply))

theorem execFabAdmitTimeout {m vc} (h : s₀.Reaches s) : Res.From s₀ (execFabAdmitTimeout m vc s) := .next (h.fabRun (fun _ h => by
  split
  exacts [h, .ite h h.rxTake.free.streamFail.rxAnswer]))

theorem execWrfHoldTimeout {slot} (h : s₀.Reaches s) : Res.From s₀ (execWrfHoldTimeout slot s) := .next (h.fabRun (fun _ h => by
  split
  · exact h
  · extract_lets _
    exact h.setFinals.rxAnswer.streamTidy))

theorem execPtpEventMessage {m domain msg} (h : s₀.Reaches s) : Res.From s₀ (execPtpEventMessage m domain msg s) := by
  unfold Machine.execPtpEventMessage
  extract_lets seen
  have hseen : s₀.Reaches seen := h.send
  refine .next ?_
  split
  · exact h
  · split
    exacts [hseen, .ite hseen hseen.setFld, .ite hseen (hseen.foldl (fun _ h _ => .ite h h.send))]

theorem execAelxKeyUpdate {m peer slot retire} (h : s₀.Reaches s) : Res.From s₀ (execAelxKeyUpdate m peer slot retire s) := by
  unfold Machine.execAelxKeyUpdate
  extract_lets _ _ _
  refine .next ?_
  split
  · exact h.setPort
  · extract_lets _
    exact h.setPeerKeys

end State.Reaches
end Sys2Proof.Machine
end

section
/-! SUPPORT for O59. What operations keep: commands and serving. -/
namespace Sys2Proof.Machine
namespace State.Reaches

variable {s₀ s u : State}

-- One thread elaborates these theorems: many at once hold many stacks.
set_option Elab.async false

/-! ### Sys2Proof/Machine/Commands.lean -/

theorem cmdRead {k i a n status far} (h : s₀.Reaches s) : s₀.Reaches (s.cmdRead k i a n status far).2.2 := by
  unfold State.cmdRead
  split
  exacts [h, h.readVia]

theorem cmdWrite {k i a n v status} (h : s₀.Reaches s) : s₀.Reaches (s.cmdWrite k i a n v status).2.2 := by
  unfold State.cmdWrite
  split
  exacts [h.hostWrite, h.writeVia]

theorem cmdStep {q cid opc f} (h : s₀.Reaches s) (hf : ∀ (k : Cmd) (u : State), s₀.Reaches u → ∀ p ∈ f k u, s₀.Reaches p.2) :
    Res.From s₀ (s.cmdStep q cid opc f) := by
  unfold State.cmdStep
  refine .next ?_
  split
  · exact h
  · split
    · exact h
    · next e => exact (hf _ _ h _ e).setCmd

theorem cmdGo {k r f} (hr : s₀.Reaches r.2.2) (hf : ∀ (n : ℕ) (u : State), s₀.Reaches u → ∀ p ∈ f n u, s₀.Reaches p.2) :
    ∀ p ∈ cmdGo k r f, s₀.Reaches p.2 := by
  unfold Machine.cmdGo
  split
  · exact .mem_none
  · split
    exacts [hf _ _ hr, .mem_some hr]

theorem freeBytes {n} (h : s₀.Reaches s) : s₀.Reaches (s.freeBytes n).2 := by
  unfold State.freeBytes
  exact h.free

theorem execNop {q cid} (h : s₀.Reaches s) : Res.From s₀ (execNop q cid s) := by
  unfold Machine.execNop
  refine .next ?_
  split
  exacts [h.complete, h]

theorem execIdentify {q cid status} (h : s₀.Reaches s) : Res.From s₀ (execIdentify q cid status s) :=
  h.cmdStep (fun _ _ h => Reaches.cmdGo h.freeBytes.cmdWrite (fun _ _ h => .mem_some h))

theorem execGetLog {q cid status} (h : s₀.Reaches s) : Res.From s₀ (execGetLog q cid status s) :=
  h.cmdStep (fun _ _ h => Reaches.cmdGo h.free.freeBytes.cmdWrite (fun _ _ h => .mem_some h))

theorem execCmdCancel {q cid} (h : s₀.Reaches s) : Res.From s₀ (execCmdCancel q cid s) := by
  unfold Machine.execCmdCancel
  refine .next ?_
  split
  · exact h
  · extract_lets _ target
    clear_value target
    split
    · exact h.complete
    · extract_lets s1
      have h1 : s₀.Reaches s1 := h.setCmd
      split
      · exact h
      · split
        exacts [h1.complete, .ite h1 h1.progress.complete, .ite (.ite h1.stopLaunch h1) (.ite h1.progress.complete h1), .ite h1 h1.setCmd]

theorem freshCache {c} (h : s₀.Reaches s) : s₀.Reaches (s.freshCache c) := h.flushAll.setCore

theorem startKernel {c mask sup pc a0 a1 a2} (h : s₀.Reaches s) : s₀.Reaches (s.startKernel c mask sup pc a0 a1 a2) := by
  unfold State.startKernel
  extract_lets s0 _ _ s1 s2 s3
  have h0 : s₀.Reaches s0 := h.freshCache
  have h1 : s₀.Reaches s1 := .ite h0 h0.setCore
  have h2 : s₀.Reaches s2 := h1.setFld.setFld
  have h3 : s₀.Reaches s3 := h2.foldl (fun _ h _ => .ite h h.startThread.setTf.setThr)
  exact .ite h3.kernelEnd h3

theorem execLaunch {q cid} (h : s₀.Reaches s) : Res.From s₀ (execLaunch q cid s) := h.cmdStep (fun _ _ h => by
  extract_lets _ _ _ _
  split
  · exact .mem_none
  · split
    exacts [.mem_some h, .mem_some (h.foldl (fun _ h _ => h.startKernel))])

theorem execLaunchTimeout {q cid ms} (h : s₀.Reaches s) : Res.From s₀ (execLaunchTimeout q cid ms s) := by
  unfold Machine.execLaunchTimeout
  refine .next ?_
  split
  · exact h
  · extract_lets _
    exact .ite h h.stopLaunch

theorem execCmdSignal {q cid status} (h : s₀.Reaches s) : Res.From s₀ (execCmdSignal q cid status s) := h.cmdStep (fun _ _ h => by
  extract_lets _ _ _ _ _ _ end_ _
  have hend_ : ∀ (st : ℕ) (s : State), s₀.Reaches s → ∀ p ∈ end_ st s, s₀.Reaches p.2 := fun _ _ h => .mem_some h
  split
  · exact .mem_none
  · next e => exact hend_ _ _ (h.reach.of_refused e)
  · exact hend_ _ _ h.send
  · split
    · split
      exacts [hend_ _ _ h.wakeNotify, hend_ _ _ h.wakeNotify, hend_ _ _ h]
    · extract_lets r
      have hr : s₀.Reaches r.2 := h.memFe
      exact hend_ _ _ hr)

theorem execCopy {q cid far status} (h : s₀.Reaches s) : Res.From s₀ (execCopy q cid far status s) :=
    h.cmdStep (fun _ _ h => Reaches.cmdGo h.cmdRead (fun _ _ h => by
      extract_lets r
      have hr : s₀.Reaches r.2.2 := h.cmdWrite
      split
      exacts [.mem_none, .mem_some hr]))

theorem loadable {w l} (h : s₀.Reaches s) : s₀.Reaches (s.loadable w l).2.2 := by
  induction l with
  | nil => exact h
  | cons c l ih =>
    unfold State.loadable
    split
    · next e => exact h.coreRefuses _ e
    · exact ih

theorem execLoadCode {q cid far status} (h : s₀.Reaches s) : Res.From s₀ (execLoadCode q cid far status s) :=
    h.cmdStep (fun _ _ h => Reaches.cmdGo h.cmdRead (fun _ _ h => by
      extract_lets _ l
      have hl : s₀.Reaches l.2.2 := h.loadable
      split
      exacts [.mem_none, .mem_some (hl.foldl (fun _ h _ => h.setCore))]))

theorem execZeroise {q cid} (h : s₀.Reaches s) : Res.From s₀ (execZeroise q cid s) := h.cmdStep (fun _ _ h => by
  extract_lets _ _ _ r
  have hr : s₀.Reaches r.2.2 := by
    unfold r
    exact Reaches.foldlThird h (fun _ _ h => by
      split
      · exact h
      · split
        · exact h
        · next e => exact h.reach.of_refused e
        · exact h.initBytes
        · exact h.initBytes
        · exact h)
  split
  exacts [.mem_none, .mem_some hr])

theorem setPool {n l} (h : s₀.Reaches s) : ∀ p ∈ s.setPool n l, s₀.Reaches p := by
  unfold State.setPool
  extract_lets _ _ s1
  have h1 : s₀.Reaches s1 := h.foldl (fun _ h _ => by
    extract_lets _ src
    have hsrc : s₀.Reaches src := h.setReg.setReg
    clear_value src
    split
    · exact hsrc.setTuW1
    · extract_lets _ _ src'
      have hsrc' : s₀.Reaches src' := h.setReg.setReg
      clear_value src'
      exact hsrc'.setTuW1)
  split
  exacts [.mem_none, .mem_some h1.dropTx]

theorem poolStep {q cid opc f} (h : s₀.Reaches s) (hf : ∀ (k : Cmd) (u : State), s₀.Reaches u → s₀.Reaches (f k u).2) :
    Res.From s₀ (s.poolStep q cid opc f) := h.cmdStep (fun _ _ h => by
  split
  exacts [.mem_some (hf _ _ h), .mem_some h])

theorem execPoolAlloc {q cid} (h : s₀.Reaches s) : Res.From s₀ (execPoolAlloc q cid s) := h.poolStep (fun _ _ h => by
  split
  · exact h
  · split
    · next e => exact h.setPool _ e
    · exact h)

theorem execPoolFree {q cid} (h : s₀.Reaches s) : Res.From s₀ (execPoolFree q cid s) := h.poolStep (fun _ _ h => by
  extract_lets _ _
  split
  · next e => exact h.setPool _ e
  · exact h)

theorem copyBlock {s0 a b} (h0 : s₀.Reaches s0) : s₀.Reaches (s0.copyBlock a b) := by
  unfold State.copyBlock
  extract_lets _ s s1 _ s2
  have h : s₀.Reaches s := h0.foldl (fun _ h _ => .ite h.asRead h)
  have h1 : s₀.Reaches s1 := h.initBytes
  have h2 : s₀.Reaches s2 := h1.foldl (fun _ h _ => h.setByte)
  exact h2.foldl (fun _ h _ => h.setPat)

theorem poolMove {n toHbm p l m st} (h : s₀.Reaches s) : s₀.Reaches (s.poolMove n toHbm p l m st).2.2.2 := by
  induction p generalizing s l m st with
  | nil => exact h
  | cons p r ih =>
    unfold State.poolMove
    split
    · exact ih h
    · split
      · exact ih h
      · split
        exacts [ih h, ih h.copyBlock]

theorem execPoolMove {q cid} (h : s₀.Reaches s) : Res.From s₀ (execPoolMove q cid s) := h.poolStep (fun _ _ h => by
  extract_lets r
  have hr : s₀.Reaches r.2.2.2 := h.poolMove
  split
  · next e => exact hr.setPool _ e
  · exact h)

theorem execContextTeardown {q cid} (h : s₀.Reaches s) : Res.From s₀ (execContextTeardown q cid s) := h.cmdStep (fun _ _ h => by
  extract_lets _ _
  split
  exacts [.mem_none, .mem_some h.setCmd.countSlots.beginTeardown])

theorem commitRebind {s0 k b trusted} (h0 : s₀.Reaches s0) : s₀.Reaches (s0.commitRebind k b trusted) := by
  unfold State.commitRebind
  extract_lets s _ s1 _ _ s2
  have h : s₀.Reaches s := .ite h0.dbgLock h0
  have h1 : s₀.Reaches s1 := h.eventToPlot
  have h2 : s₀.Reaches s2 := h1.setImg.setFld
  exact h2.beginTeardown

theorem imgFail {k code x} (h : s₀.Reaches s) : s₀.Reaches (imgFail k code x s).2 := by
  unfold Machine.imgFail
  exact h.imgStat

theorem storeSlot {d slot b ok} (h : s₀.Reaches s) : s₀.Reaches (s.storeSlot d slot b ok) := h.setImg

theorem execLoadImage {q cid far status v ok} (h : s₀.Reaches s) : Res.From s₀ (execLoadImage q cid far status v ok s) := h.cmdStep (fun _ _ h => by
  extract_lets _ _ _ _ _ keep _ _ s1 _ _ _ s1' _ _
  have hkeep : ∀ (s : State), s₀.Reaches s → ∀ (l : List ℕ), s₀.Reaches (keep s l) := fun _ h _ => h.setImg
  have h1 : s₀.Reaches s1 := h.imgStat
  have hs1' : s₀.Reaches s1' := h.storeSlot
  split
  · exact Reaches.cmdGo h.cmdRead (fun _ _ h => .mem_some (hkeep _ h _))
  · split
    · split
      · exact .mem_some h.imgFail
      · split
        · exact .mem_some h.imgFail
        · split
          · exact .mem_some h
          · split
            exacts [.mem_some h, .mem_some (hkeep _ h1 _).setImg]
    · split
      · split
        · exact .mem_some hs1'.setFld
        · split
          exacts [.mem_some hs1', .mem_some hs1'.imgStat]
      · split
        exacts [.mem_none, .mem_some (hkeep _ h.imgStat _).setCmd.countSlots.commitRebind])

theorem execSwitchProfile {q cid v} (h : s₀.Reaches s) : Res.From s₀ (execSwitchProfile q cid v s) := h.cmdStep (fun _ _ h => by
  extract_lets _ _
  split
  · exact .mem_none
  · split
    exacts [.mem_some h.imgFail, .mem_some h.imgStat.setImg])

/-! ### Sys2Proof/Machine/Serve.lean -/

theorem srvMeanWait {plot cls now} (h : s₀.Reaches s) : s₀.Reaches (s.srvMeanWait plot cls now).2 := by
  unfold State.srvMeanWait
  extract_lets _
  split
  exacts [h.free, h]

theorem srvQuotaHint {plot} (h : s₀.Reaches s) : s₀.Reaches (s.srvQuotaHint plot).2 := by
  unfold State.srvQuotaHint
  extract_lets _ f
  have hf : s₀.Reaches f.2 := h.free
  split
  exacts [hf, hf]

theorem execSrvSubmit {q cid now far status} (h : s₀.Reaches s) : Res.From s₀ (execSrvSubmit q cid now far status s) := by
  unfold Machine.execSrvSubmit
  refine .next ?_
  split
  · exact h
  · extract_lets _ _ _ drop _ r f _ _ _ _ _
    have hdrop : s₀.Reaches drop := h.dropCmd
    have hr : s₀.Reaches r.2.2 := hdrop.cmdRead
    have hf : s₀.Reaches f.2 := hr.free
    split
    · exact h.complete
    · exact h.complete
    · split
      · exact h.complete
      · split
        · exact h.complete
        · split
          · split
            · exact h.complete
            · split
              · extract_lets h'
                have hh' : s₀.Reaches h'.2 := by
                  unfold h'
                  split
                  exacts [hdrop.srvQuotaHint, hdrop.srvMeanWait]
                exact hh'.streamRefuse
              · exact .ite h (.ite hf.setSrv.srvCount.srvEnd (.ite hf.setSrv.srvCount.srvEnd hf.setSrv.srvCount))
          · split
            · exact h.complete
            · split
              · extract_lets h'
                have hh' : s₀.Reaches h'.2 := by
                  unfold h'
                  split
                  exacts [hdrop.srvQuotaHint, hdrop.srvMeanWait]
                exact hh'.streamRefuse
              · exact .ite h (.ite hf.setSrv.srvCount.srvEnd (.ite hf.setSrv.srvCount.srvEnd hf.setSrv.srvCount))

theorem execSrvCancel {q cid} (h : s₀.Reaches s) : Res.From s₀ (execSrvCancel q cid s) := by
  unfold Machine.execSrvCancel
  refine .next ?_
  split
  · exact h
  · split
    · exact h.complete
    · extract_lets _ s1 _
      have h1 : s₀.Reaches s1 := h.setCmd.putReq
      exact .ite h1.srvEnd h1

theorem srvTell {n peer len} (h : s₀.Reaches s) : s₀.Reaches (s.srvTell n peer len) := h.free.fabNote

theorem execSrvModel {q cid far mtab status accept} (h : s₀.Reaches s) : Res.From s₀ (execSrvModel q cid far mtab status accept s) := by
  unfold Machine.execSrvModel
  refine .next ?_
  split
  · exact h
  · extract_lets _ fail r _ _ t _ s1
    have hfail : ∀ (d : ℕ) (s : State), s₀.Reaches s → s₀.Reaches (fail d s) := fun _ _ h => h.complete
    have hr : s₀.Reaches r.2.2 := h.cmdRead
    have ht : s₀.Reaches t.2.2 := hr.readVia
    have h1 : s₀.Reaches s1 := ht.foldl (fun _ h _ => h.srvTell.srvTell)
    split
    · exact h
    · split
      · exact h
      · split
        · exact hr.complete
        · split
          exacts [hfail _ _ hr, .ite hr.putModel.complete (.ite h (.ite (hfail _ _ ht) (.ite h1.putModel.complete (hfail _ _ h1))))]

theorem tabRead {k status far} {r : Nat × State} {off n} (hr : s₀.Reaches r.2) : s₀.Reaches (State.tabRead k status far r off n).2.2 := by
  unfold State.tabRead
  split
  exacts [hr, hr.cmdRead]

theorem tabParts {k status far} {r : Nat × State} {l : List (Nat × Nat)} (hr : s₀.Reaches r.2) :
    s₀.Reaches (State.tabParts k status far r l).2.2 := by
  induction l generalizing r with
  | nil => exact hr
  | cons x l ih =>
    unfold State.tabParts
    exact ih hr.tabRead

theorem execSrvToktab {q cid far status} (h : s₀.Reaches s) : Res.From s₀ (execSrvToktab q cid far status s) := by
  unfold Machine.execSrvToktab
  refine .next ?_
  split
  · exact h
  · extract_lets _ _ part h' _ _ _ _ p _ _ _ _ t _
    have hpart : ∀ (r : ℕ × State), s₀.Reaches r.2 → ∀ (l : List (ℕ × ℕ)), s₀.Reaches (part r l).2.2 := fun _ hk _ => Reaches.tabParts hk
    have hh' : s₀.Reaches h'.2.2 := hpart _ h _
    have hp : s₀.Reaches p.2.2 := hpart _ hh' _
    have ht : s₀.Reaches t.2.2 := hpart _ hp _
    split
    · exact h.complete
    · extract_lets _
      exact .ite h (.ite hh'.complete (.ite hh'.complete (.ite h (.ite ht.complete (.ite ht.complete ht.putModel.complete)))))

theorem execSrvUnload {q cid} (h : s₀.Reaches s) : Res.From s₀ (execSrvUnload q cid s) := by
  unfold Machine.execSrvUnload
  refine .next ?_
  split
  · exact h
  · extract_lets _ _
    exact .ite h (.ite h.complete h.setSrv.complete)

theorem execSrvPolicy {q cid} (h : s₀.Reaches s) : Res.From s₀ (execSrvPolicy q cid s) := by
  unfold Machine.execSrvPolicy
  refine .next ?_
  split
  · exact h
  · extract_lets _ _ s1 _
    have h1 : s₀.Reaches s1 := h.setReg.setReg
    exact .ite h (.ite h.complete h1.complete)

theorem execPromptEncode {rid n} (h : s₀.Reaches s) : Res.From s₀ (execPromptEncode rid n s) := by
  unfold Machine.execPromptEncode
  refine .next ?_
  split
  · exact h
  · split
    · split
      · extract_lets _ _ s1
        have h1 : s₀.Reaches s1 := h.putReq
        exact .ite h.putReq (.ite h1.srvEnd (.ite h1.srvEnd h1))
      · exact h
    · exact h

theorem execSrvAdmitTimeout {rid now} (h : s₀.Reaches s) : Res.From s₀ (execSrvAdmitTimeout rid now s) := by
  unfold Machine.execSrvAdmitTimeout
  refine .next ?_
  split
  · exact h
  · extract_lets _ _ _ h' s1 _
    have hh' : s₀.Reaches h'.2 := h.srvMeanWait
    have h1 : s₀.Reaches s1 := hh'.streamRefuse
    exact .ite h h1.setSrv.srvCount

theorem pick {l} (h : s₀.Reaches s) : s₀.Reaches (s.pick l).2 := by
  unfold State.pick
  exact h.free

theorem srvTake {m rid n} (h : s₀.Reaches s) : s₀.Reaches (s.srvTake m rid n) := by
  induction n generalizing s with
  | zero => exact h
  | succ n ih =>
    unfold State.srvTake
    split
    exacts [h, ih h.pick.putReq]

theorem srvPreempt {r now} (h : s₀.Reaches s) : s₀.Reaches (s.srvPreempt r now) := h.bump.postEntry.setSrv.srvCount

theorem srvGrow {m rid need now n} (h : s₀.Reaches s) : s₀.Reaches (s.srvGrow m rid need now n) := by
  induction n generalizing s with
  | zero => exact h
  | succ n ih =>
    unfold State.srvGrow
    split
    · exact h
    · refine .ite h (.ite (ih h.srvTake) ?_)
      split
      exacts [ih h.srvPreempt, h.srvEnd]

theorem srvGrant {m r need now} (h : s₀.Reaches s) : s₀.Reaches (s.srvGrant m r need now) := h.pick.setSrv.putReq.srvTake

theorem srvGrants {m now l} (h : s₀.Reaches s) : s₀.Reaches (s.srvGrants m now l) := by
  induction l generalizing s with
  | nil => exact h
  | cons r l ih =>
    unfold State.srvGrants
    exact .ite (ih h.srvGrant) h

theorem srvGrantAll {m now} (h : s₀.Reaches s) : s₀.Reaches (s.srvGrantAll m now) := h.srvGrants

theorem srvEntries {m now} (h : s₀.Reaches s) : s₀.Reaches (s.srvEntries m now).2 := by
  unfold State.srvEntries
  extract_lets _ x
  have hx : s₀.Reaches x.2 := by
    unfold x
    exact Reaches.foldlSnd h (fun _ _ h => by
      extract_lets _ _ _
      exact h.srvGrow)
  exact hx

theorem srvWrite {m r off b status} (hr : s₀.Reaches r.2) : s₀.Reaches (State.srvWrite m r off b status).2 := Reaches.foldlSnd hr (fun _ _ h => by
  split
  · exact h
  · extract_lets x
    have hx : s₀.Reaches x.2.2 := h.writeVia
    exact hx)

theorem srvLaunch {m n} (h : s₀.Reaches s) : s₀.Reaches (s.srvLaunch m n).2 := by
  unfold State.srvLaunch
  extract_lets _ _
  split
  exacts [h, h.foldl (fun _ h _ => h.startKernel)]

theorem srvCancelled {m} (h : s₀.Reaches s) : s₀.Reaches (s.srvCancelled m) := h.foldl (fun _ h _ => h.srvEnd)

theorem execServingStepStart {plot slot now status} (h : s₀.Reaches s) : Res.From s₀ (execServingStepStart plot slot now status s) := by
  unfold Machine.execServingStepStart
  refine .next ?_
  split
  · exact h
  · split
    · exact h
    · split
      · exact .ite h h.srvLaunch.putModel
      · split
        · exact h
        · extract_lets s1 _ x _ _ w1 w2 w3 _ l _
          have h1 : s₀.Reaches s1 := h.srvCancelled.srvGrantAll
          have hx : s₀.Reaches x.2 := h1.srvEntries
          have hw1 : s₀.Reaches w1.2 := Reaches.srvWrite hx
          have hw2 : s₀.Reaches w2.2 := Reaches.srvWrite hw1
          have hw3 : s₀.Reaches w3.2 := by
            unfold w3
            exact Reaches.foldlSnd hw2 (fun _ _ h => by
              split
              · split
                exacts [h, Reaches.srvWrite h]
              · exact h)
          have hl : s₀.Reaches l.2 := by
            unfold l
            split
            exacts [(hw3.foldl (fun _ h _ => h.srvTell)).srvLaunch, hw3]
          exact .ite hx hl.putModel.bumpWrap

theorem srvAfter {m i e} (h : s₀.Reaches s) : s₀.Reaches (s.srvAfter m i e) := by
  unfold State.srvAfter
  split
  · exact h
  · extract_lets _ _ _ _ x _ f _ _ _ _ _ d
    have hx : s₀.Reaches x.2.2 := h.readVia
    have hf : s₀.Reaches f.2 := hx.free
    have hd : s₀.Reaches d.2 := hf.streamDue
    exact .ite (.ite h.srvEnd h.putReq) (.ite hx.srvEnd (.ite hf.srvEnd (.ite hf.srvEnd hd.putReq)))

theorem srvFinish {m st} (h : s₀.Reaches s) : s₀.Reaches (s.srvFinish m st) := by
  unfold State.srvFinish
  extract_lets _ _ _ s1 s2
  have h1 : s₀.Reaches s1 := h.foldl (fun _ h _ => by
    split
    exacts [h.putReq, h])
  have h2 : s₀.Reaches s2 := .ite (h1.foldl (fun _ h _ => by
    split
    exacts [h.srvEnd, h])) (h1.foldl (fun _ h _ => h.srvAfter))
  exact h2.putModel

theorem srvSettle {m st} (h : s₀.Reaches s) : s₀.Reaches (s.srvSettle m st) := .ite h.putModel h.srvFinish

theorem execServingKernelEnd {plot slot} (h : s₀.Reaches s) : Res.From s₀ (execServingKernelEnd plot slot s) := by
  unfold Machine.execServingKernelEnd
  refine .next ?_
  split
  · exact h
  · split
    · exact h
    · extract_lets _ _ _
      split
      · exact h
      · split
        exacts [h.srvTell.putModel, h.srvSettle]

theorem execMemberStepOrder {plot slot n} (h : s₀.Reaches s) : Res.From s₀ (execMemberStepOrder plot slot n s) := by
  unfold Machine.execMemberStepOrder
  refine .next ?_
  split
  exacts [h, .ite h h.srvLaunch.putModel]

theorem execMemberStepReport {plot slot v code atomic fast timeout probe} (h : s₀.Reaches s) :
    Res.From s₀ (execMemberStepReport plot slot v code atomic fast timeout probe s) := by
  unfold Machine.execMemberStepReport
  refine .next ?_
  split
  · exact h
  · split
    exacts [h, .ite h h.srvSettle]

end State.Reaches
end Sys2Proof.Machine
end

section
/-! SUPPORT for O59. What operations keep: repair, hangs, the rack and time. -/
namespace Sys2Proof.Machine
namespace State.Reaches

variable {s₀ s u : State}

-- One thread elaborates these theorems: many at once hold many stacks.
set_option Elab.async false

/-! ### Sys2Proof/Machine/Repair.lean -/

theorem execWatchdogExpiry {c t} (h : s₀.Reaches s) : Res.From s₀ (execWatchdogExpiry c t s) := by
  unfold Machine.execWatchdogExpiry
  extract_lets _ s1 s2 _ _
  have h1 : s₀.Reaches s1 := h.setThr
  have h2 : s₀.Reaches s2 := .ite h1.abandon h1
  exact .next (.ite h h2.setThr.raise.faultRec)

theorem execFaultRecordFlashCopy (h : s₀.Reaches s) : Res.From s₀ (execFaultRecordFlashCopy s) := by
  unfold Machine.execFaultRecordFlashCopy
  refine .next ?_
  split
  · exact h
  · extract_lets _ _ _
    exact h.setKp.setRep

theorem scrubWord {a first} (h : s₀.Reaches s) : s₀.Reaches (s.scrubWord a first).2 := by
  unfold State.scrubWord
  split
  · exact h
  · extract_lets _ _ _ _ counted s1
    have hcounted : s₀.Reaches counted := .ite h.countErr h.hbmCount
    have h1 : s₀.Reaches s1 := .ite hcounted.asRead.wroteWord hcounted.asRead.setPat
    split
    · exact h.asRead
    · dsimp only
      exact hcounted.faultRec
    · dsimp only
      exact .ite h1.faultRec h1

theorem execScrubAccess {a first last} (h : s₀.Reaches s) : Res.From s₀ (execScrubAccess a first last s) := by
  unfold Machine.execScrubAccess
  extract_lets _ _ s1
  have h1 : s₀.Reaches s1 := h.scrubWord
  exact .next (.ite h (.ite h1.bumpWrap.setFld h1))

theorem execScrubLapse {sram hbm} (h : s₀.Reaches s) : Res.From s₀ (execScrubLapse sram hbm s) := by
  unfold Machine.execScrubLapse
  extract_lets s1
  have h1 : s₀.Reaches s1 := h.setFld.setFld
  exact .next (.ite h1.setFld.faultRec h1)

theorem execScrub {q cid} (h : s₀.Reaches s) : Res.From s₀ (execScrub q cid s) := h.cmdStep (fun _ _ h => by
  extract_lets _ _ _ _ _ _ _ _ r
  have hr : s₀.Reaches r.2 := by
    unfold r
    exact Reaches.foldlSnd h (fun _ _ h => by
      extract_lets x
      have hx : s₀.Reaches x.2 := h.scrubWord
      exact hx)
  split
  exacts [.mem_some h, .mem_some hr])

theorem moveRegs {b u v} (h : s₀.Reaches s) : s₀.Reaches (s.moveRegs b u v) := by
  unfold State.moveRegs
  extract_lets _ s1
  have h1 : s₀.Reaches s1 := h.resetRegs.resetRegs
  exact h1.same

theorem moveBanks {s0 a b} (h0 : s₀.Reaches s0) : s₀.Reaches (s0.moveBanks a b) := by
  unfold State.moveBanks
  extract_lets s _ _ s1 _ s2 s3
  have h : s₀.Reaches s := h0.foldl (fun _ h _ => .ite h.asRead h)
  have h1 : s₀.Reaches s1 := h.initBytes.initBytes
  have h2 : s₀.Reaches s2 := h1.foldl (fun _ h _ => h.setByte)
  have h3 : s₀.Reaches s3 := h2.foldl (fun _ h _ => h.setTag)
  exact h3.foldl (fun _ h _ => h.setPat)

theorem emptyCore {c} (h : s₀.Reaches s) : s₀.Reaches (s.emptyCore c) := by
  unfold State.emptyCore
  extract_lets s1 s2
  have h1 : s₀.Reaches s1 := h.resetRegs.resetRegs.resetRegs
  have h2 : s₀.Reaches s2 := h1.foldl (fun _ h _ => h.resetRegs.setDma)
  exact h2.setCore

theorem moveState {a b cycles} (h : s₀.Reaches s) : s₀.Reaches (s.moveState a b cycles) := by
  unfold State.moveState
  extract_lets s1 _ _ _ s2 s3 s4 s5 s6 _
  have h1 : s₀.Reaches s1 := h.flushAll
  have h2 : s₀.Reaches s2 := h1.moveBanks.moveRegs.moveRegs
  have h3 : s₀.Reaches s3 := h2.moveRegs
  have h4 : s₀.Reaches s4 := h3.foldl (fun _ h _ => h.moveRegs.setDma.setDma)
  have h5 : s₀.Reaches s5 := h4.setCore.setCore
  have h6 : s₀.Reaches s6 := h5.foldl (fun _ h _ => h.startFill)
  exact h6.setKp

theorem place_ {l n} (h : s₀.Reaches s) : s₀.Reaches (s.place_ l n) := h.same

theorem repairFence {c} (h : s₀.Reaches s) : s₀.Reaches (s.repairFence c) := h.setFence

theorem graftDone {s0 c l} (h0 : s₀.Reaches s0) : s₀.Reaches (s0.graftDone c l) := by
  unfold State.graftDone
  extract_lets _ _ s _ _ s1
  have h : s₀.Reaches s := h0.setRep
  have h1 : s₀.Reaches s1 := h.setImg
  exact (Reaches.ite h1.bump h1).countSpares.publishHalf

theorem unplace {c l cls det plot} (h : s₀.Reaches s) : s₀.Reaches (s.unplace c l cls det plot) := by
  unfold State.unplace
  extract_lets s1 s2
  have h1 : s₀.Reaches s1 := h.emptyCore.place_.repairFence
  have h2 : s₀.Reaches s2 := h1.setFence.bump
  exact h2.faultRec.tellManager

theorem redirect {c l n} (h : s₀.Reaches s) : s₀.Reaches (s.redirect c l n) := h.setRedir.redirHome.setRedir

theorem graftTo {c l n cycles} (h : s₀.Reaches s) : s₀.Reaches (s.graftTo c l n cycles) := h.moveState.place_.redirect

theorem execLiveGraft {c cycles cls det chk} (h : s₀.Reaches s) : Res.From s₀ (execLiveGraft c cycles cls det chk s) := by
  unfold Machine.execLiveGraft
  extract_lets _ s1
  have h1 : s₀.Reaches s1 := by
    unfold s1
    split
    · extract_lets s1'
      have hs1' : s₀.Reaches s1' := h.suspend.bump
      exact hs1'.setFld.setFld
    · exact h
  refine .next ?_
  split
  · exact .ite h.repairFence.countSpares.faultRec h
  · split
    · exact h
    · split
      · exact h1.unplace
      · extract_lets s2 s3
        have h2 : s₀.Reaches s2 := h1.graftTo.repairFence
        have h3 : s₀.Reaches s3 := by
          unfold s3
          split
          · extract_lets s3' _
            have hs3' : s₀.Reaches s3' := h2.clearNotice
            exact hs3'.setThr.setFld
          · exact h2
        exact h3.graftDone.faultRec

theorem execColdGraft {c cls det} (h : s₀.Reaches s) : Res.From s₀ (execColdGraft c cls det s) := by
  unfold Machine.execColdGraft
  extract_lets _ _
  refine .next ?_
  split
  · exact h
  · split
    · exact h
    · split
      · exact h.unplace
      · extract_lets s1 s2 s3 s4
        have h1 : s₀.Reaches s1 := h.emptyCore.emptyCore.zeroCore.setCore.loadKeeper
        have h2 : s₀.Reaches s2 := h1.setReg.place_.redirect.repairFence
        have h3 : s₀.Reaches s3 := h2.coreReset
        have h4 : s₀.Reaches s4 := h3.graftDone.faultRec
        exact .ite h4.beginTeardown h4

theorem execRowColGraft {c sub sym words} (h : s₀.Reaches s) : Res.From s₀ (execRowColGraft c sub sym words s) := by
  unfold Machine.execRowColGraft
  extract_lets _ _ _ s1 _ s2
  have h1 : s₀.Reaches s1 := h.foldl (fun _ h _ => h.setPat)
  have h2 : s₀.Reaches s2 := h1.setRep.bump
  exact .next (.ite h h2.faultRec)

theorem execRouterFence {n link} (h : s₀.Reaches s) : Res.From s₀ (execRouterFence n link s) := by
  unfold Machine.execRouterFence
  refine .next ?_
  split
  exacts [h.setFld.faultRec, .ite h h.setFence.setFence.bump.faultRec.tellManager]

theorem markBlock {p b v} (h : s₀.Reaches s) : s₀.Reaches (s.markBlock p b v) := h.foldl (fun _ h _ => h.setFld)

theorem setTest {x keep} (h : s₀.Reaches s) : s₀.Reaches (s.setTest x keep) := h.setRep

theorem testStart {p b cmd} (h : s₀.Reaches s) : s₀.Reaches (s.testStart p b cmd) := by
  unfold State.testStart
  extract_lets _ _ r
  have hr : s₀.Reaches r.1 := by
    unfold r
    split
    · exact h
    · exact Reaches.foldlFst h (fun _ _ h => by
        split
        · extract_lets f _
          have hf : s₀.Reaches f.2 := h.free
          clear_value f
          dsimp only
          exact hf.graftTo.countSpares.publishHalf
        · exact h)
  exact hr.markBlock.setTest

theorem testFence {x} (h : s₀.Reaches s) : ∀ p ∈ s.testFence x, s₀.Reaches p := by
  unfold State.testFence
  extract_lets _ s1
  have h1 : s₀.Reaches s1 := (h.foldl (fun _ h _ => h.coreReset)).updateBlock
  split
  exacts [.mem_none, .mem_some h1.markBlock.setTest]

theorem testEnd {x bad routers} (h : s₀.Reaches s) : s₀.Reaches (s.testEnd x bad routers) := by
  unfold State.testEnd
  extract_lets _ _ s0 s1 s2 s3 _ _ _ s4 s5
  have h0 : s₀.Reaches s0 := h.setTest.markBlock
  have h1 : s₀.Reaches s1 := h0.foldl (fun _ h _ => by
    split
    exacts [.ite h.repairFence.graftDone h.free.graftTo.countSpares.publishHalf, h])
  have h2 : s₀.Reaches s2 := h1.foldl (fun _ h _ => by
    split
    · exact h
    · split
      · split
        · extract_lets f s1'
          have hf : s₀.Reaches f.2 := h.free
          have hs1' : s₀.Reaches s1' := hf.graftTo.repairFence.graftDone
          exact .ite hs1'.coreRelease hs1'
        · exact h.unplace
        · exact h.repairFence
      · exact .ite h.coreRelease h)
  have h3 : s₀.Reaches s3 := h2.foldl (fun _ h _ => h.setFence.setFence.bump)
  have h4 : s₀.Reaches s4 := h3.setRep.setFld
  have h5 : s₀.Reaches s5 := h4.setFld.setFld
  exact .ite h5 h5.bump.faultRec

theorem takeSlices {x l} (h : s₀.Reaches s) : s₀.Reaches (s.takeSlices x l) := .ite h (h.foldl (fun _ h _ => h.setRep))

theorem execBlockTest {p b step} (h : s₀.Reaches s) : Res.From s₀ (execBlockTest p b step s) := by
  unfold Machine.execBlockTest
  extract_lets mine
  refine .next ?_
  clear_value mine
  split
  exacts [.ite h h.testStart, Reaches.getD h.testFence h, h.takeSlices.testEnd, h]

theorem execSelfTest {q cid step} (h : s₀.Reaches s) : Res.From s₀ (execSelfTest q cid step s) := h.cmdStep (fun _ _ h => by
  extract_lets _ _ _ _ mine
  clear_value mine
  split
  · split
    exacts [.mem_none, .mem_some h.testStart]
  · exact mem_map h.testFence (fun _ h => h)
  · extract_lets s1 _ _ _ _
    have h1 : s₀.Reaches s1 := h.takeSlices.testEnd
    split
    exacts [.mem_some h1, .mem_some h1]
  · exact .mem_none)

theorem execBlockTestOverdue {p b} (h : s₀.Reaches s) : Res.From s₀ (execBlockTestOverdue p b s) := by
  unfold Machine.execBlockTestOverdue
  extract_lets _ _ _ s1
  have h1 : s₀.Reaches s1 := h.setRep.setFld.setFld
  exact .next (.ite h1.faultRec h1)

theorem agreeLane {m} (h : s₀.Reaches s) : s₀.Reaches (s.agreeLane m) := by
  unfold State.agreeLane
  exact h.free.fabRun (fun _ h => h.fabNote)

theorem execLaneGraft {m lane spare} (h : s₀.Reaches s) : Res.From s₀ (execLaneGraft m lane spare s) := by
  unfold Machine.execLaneGraft
  extract_lets _ _ s1 _ s2
  have h1 : s₀.Reaches s1 := h.agreeLane.setFld
  have h2 : s₀.Reaches s2 := h1.setRep
  exact .next (.ite (.ite h.portDown.faultRec h) (.ite h h2.bump.faultRec))

theorem execLaneReadapt {m lane height width s0} (h0 : s₀.Reaches s0) : Res.From s₀ (execLaneReadapt m lane height width s0) := by
  unfold Machine.execLaneReadapt
  extract_lets _ _ s _ _
  have h : s₀.Reaches s := h0.setRep
  exact .next (.ite h (.ite (.ite h.agreeLane.agreeLane h.faultRec) (.ite h.portDown h.faultRec)))

theorem countSlowed (h : s₀.Reaches s) : s₀.Reaches s.countSlowed := h.setFld

theorem execAgeReplan {p east} (h : s₀.Reaches s) : Res.From s₀ (execAgeReplan p east s) := by
  unfold Machine.execAgeReplan
  extract_lets _ _ _ _ _ _ _ _ _ _ s1 _ s2
  have h1 : s₀.Reaches s1 := h.foldl (fun _ h _ => h.setAged)
  have h2 : s₀.Reaches s2 := h1.setFld.setFld.bumpWrap.countSlowed
  exact .next (.ite h (h2.planChange (fun _ h => h.runSteps)).faultRec)

theorem execAgeAlarm {p isl ps feed} (h : s₀.Reaches s) : Res.From s₀ (execAgeAlarm p isl ps feed s) := by
  unfold Machine.execAgeAlarm
  extract_lets _ _ _ s1
  have h1 : s₀.Reaches s1 := .ite h.setVolt (h.setAged.countSlowed.planChange (fun _ h => h.runSteps))
  exact .next (.ite h h1.bump.faultRec)

theorem execClockIslandFail {p isl router} (h : s₀.Reaches s) : Res.From s₀ (execClockIslandFail p isl router s) := by
  unfold Machine.execClockIslandFail
  extract_lets s1 s2
  have h1 : s₀.Reaches s1 := h.setFld
  have h2 : s₀.Reaches s2 := .ite h1.setFld h1
  exact .next h2.faultRec.tellManager

theorem execRailFault {p east} (h : s₀.Reaches s) : Res.From s₀ (execRailFault p east s) := by
  unfold Machine.execRailFault
  extract_lets _ _ s1 s2
  have h1 : s₀.Reaches s1 := h.setFld.zeroHalf
  have h2 : s₀.Reaches s2 := h1.foldl (fun _ h _ => h.beginTeardown)
  exact .next (.ite h h2.faultRec.tellManager)

theorem execPhaseFailure {rail} (h : s₀.Reaches s) : Res.From s₀ (execPhaseFailure rail s) := by
  unfold Machine.execPhaseFailure
  extract_lets _ _ s1 s2
  have h1 : s₀.Reaches s1 := h.setRep.bump
  have h2 : s₀.Reaches s2 := h1.faultRec
  exact .next (.ite h2.tellManager h2)

theorem execStewardMismatch {s0} (h0 : s₀.Reaches s0) : Res.From s₀ (execStewardMismatch s0) := by
  unfold Machine.execStewardMismatch
  extract_lets s _
  have h : s₀.Reaches s := .ite h0.fwRevert h0
  exact .next (.ite h.setRep.bump.faultRec h.setFld.faultRec.tellManager)

theorem execRingStopFail {p} (h : s₀.Reaches s) : Res.From s₀ (execRingStopFail p s) := .next (.ite h h.setRep)

/-! ### Sys2Proof/Machine/Hang.lean -/

theorem hangAgain {n x} (h : s₀.Reaches s) : s₀.Reaches (s.hangAgain n x) := h.holdPlot.setHang.setFld.hangResets

theorem hangFound {x} (h : s₀.Reaches s) : s₀.Reaches (s.hangFound x) := by
  unfold State.hangFound
  extract_lets _ _ _
  split
  · exact h
  · split
    · exact h.hangStart
    · split
      exacts [.ite h.hangAgain h.setHang, .ite h h.setHang]

theorem execHangDetect {e us} (h : s₀.Reaches s) : Res.From s₀ (execHangDetect e us s) := by
  unfold Machine.execHangDetect
  extract_lets _ found
  have hfound : ∀ (kind loc : ℕ) (doms : List (ℕ × ℕ × ℕ)) (sus : List ℕ), s₀.Reaches (found kind loc doms sus) := fun _ _ _ _ => h.hangFound
  refine .next ?_
  split
  · exact hfound _ _ _ _
  · extract_lets _
    exact .ite h (hfound _ _ _ _)
  · extract_lets _
    exact .ite h (hfound _ _ _ _)
  · exact .ite h (hfound _ _ _ _)
  · exact .ite h (hfound _ _ _ _)

theorem execServingStepTimeout {plot slot ms} (h : s₀.Reaches s) : Res.From s₀ (execServingStepTimeout plot slot ms s) := by
  unfold Machine.execServingStepTimeout
  refine .next ?_
  split
  · exact h
  · split
    · exact h
    · extract_lets _
      exact .ite h h.hangFound

theorem fenceEngine {x} (h : s₀.Reaches s) : s₀.Reaches (s.fenceEngine x) := by
  unfold State.fenceEngine
  split
  · extract_lets _
    exact h.setFence.setFence.bump.tellManager
  · exact h.foldl (fun _ h _ => h.setFld)
  · exact h.setFence
  · exact h.foldl (fun _ h _ => h.foldl (fun _ h _ => h.repairFence))

theorem hangVerdict (h : s₀.Reaches s) : s₀.Reaches s.hangVerdict := by
  unfold State.hangVerdict
  extract_lets _ _ guilty s1 _ s2
  have h1 : s₀.Reaches s1 := h.setFld.foldl (fun _ h _ => h.setFld)
  have h2 : s₀.Reaches s2 := h1.setHang
  clear_value guilty
  split
  · extract_lets _
    exact h2.bumpWrap.beginTeardown
  · exact (Reaches.ite h2.fenceEngine h2).hangFinish

theorem execHangReplay (h : s₀.Reaches s) : Res.From s₀ (execHangReplay s) := by
  unfold Machine.execHangReplay
  extract_lets _
  refine .next ?_
  split
  · exact h
  · split
    · exact h.hangVerdict
    · extract_lets s1 _ _
      have h1 : s₀.Reaches s1 := h.resumePlot
      exact h1.setHang.setFld.setFld

theorem execHangReplayEnd {ms} (h : s₀.Reaches s) : Res.From s₀ (execHangReplayEnd ms s) := by
  unfold Machine.execHangReplayEnd
  extract_lets _
  refine .next ?_
  split
  · exact h
  · extract_lets _ s1 _ s2
    have h1 : s₀.Reaches s1 := h.holdPlot
    have h2 : s₀.Reaches s2 := h1.setHang
    exact .ite h (.ite h2.hangVerdict h2)

theorem execCrashDump {units fails} (h : s₀.Reaches s) : Res.From s₀ (execCrashDump units fails s) := by
  unfold Machine.execCrashDump
  refine .next ?_
  split
  · exact h
  · extract_lets _ _ _ _ _ _ _ _ _ _ s1 s2 s3 _ s4
    have h1 : s₀.Reaches s1 := .ite h.setHang (.ite h.nvmeCmd (h.foldl (fun _ h _ => h.writeBytes)))
    have h2 : s₀.Reaches s2 := h1.setFld.setFld.setFld.setFld
    have h3 : s₀.Reaches s3 := h2.setFld
    have h4 : s₀.Reaches s4 := h3.setHang.dumpBegun
    exact .ite h4.hangHold h4

theorem execSidePathTimeout {u n} (h : s₀.Reaches s) : Res.From s₀ (execSidePathTimeout u n s) := .next (.ite h h.setHang)

theorem execDumpCtlGo {ag v} (h : s₀.Reaches s) : Res.From s₀ (execDumpCtlGo ag v s) := .next (.ite h.reply (Reaches.ite h.askDump h).reply)

/-! ### Sys2Proof/Machine/Rack.lean -/

theorem putJob {j} (h : s₀.Reaches s) : s₀.Reaches (s.putJob j) := h.setRack

theorem rackStep {q cid opc f} (h : s₀.Reaches s) (hf : ∀ (k : Cmd) (j : RackJob) (u : State), s₀.Reaches u → ∀ p ∈ f k j u, s₀.Reaches p.2) :
    Res.From s₀ (s.rackStep q cid opc f) := by
  unfold State.rackStep
  refine .next ?_
  split
  · exact h
  · split
    · exact h
    · split
      · exact h
      · split
        · exact h
        · next s1 e =>
          have h1 : s₀.Reaches s1 := hf _ _ _ h _ e
          extract_lets _
          exact h1.setCmd

theorem jobNvme {j op lba n v} (h : s₀.Reaches s) : s₀.Reaches (s.jobNvme j op lba n v).2 := by
  unfold State.jobNvme
  exact h.nvmeCmd

theorem rackBegin {k j status far} (h : s₀.Reaches s) : ∀ p ∈ s.rackBegin k j status far, s₀.Reaches p.2 := by
  unfold State.rackBegin
  extract_lets _ f _
  have hf : s₀.Reaches f.2 := h.flagOp
  split
  · exact .mem_some h
  · split
    · exact .mem_none
    · split
      · exact .mem_some hf
      · exact Reaches.cmdGo hf.cmdRead (fun _ _ h => by
          extract_lets _ _ _
          split
          exacts [.mem_some h, Reaches.cmdGo h.writeVia (fun _ _ h => .mem_some h.putJob)])

theorem rackCaptured {k j now} (h : s₀.Reaches s) : ∀ p ∈ s.rackCaptured k j now, s₀.Reaches p.2 := by
  unfold State.rackCaptured
  extract_lets _ _
  exact Reaches.cmdGo h.writeVia (fun _ _ h => Reaches.cmdGo h.readVia (fun _ _ h => Reaches.cmdGo h.writeVia (fun _ _ h => by
    extract_lets f _ _ s1 _ _ _ _ s2
    have hf : s₀.Reaches f.2 := h.flagOp
    have h1 : s₀.Reaches s1 := hf.setRack
    have h2 : s₀.Reaches s2 := h1.setRack
    split
    · exact .mem_none
    · split
      exacts [.mem_some hf, .mem_some h2.setFld.putJob])))

theorem partnerWrite {k j off n v status} (h : s₀.Reaches s) : s₀.Reaches (s.partnerWrite k j off n v status).2 := by
  unfold State.partnerWrite
  extract_lets _ s1
  have h1 : s₀.Reaches s1 := h.send
  exact h1

theorem drain1 {k j i status} (h : s₀.Reaches s) : ∀ p ∈ s.drain1 k j i status, s₀.Reaches p.2 := by
  unfold State.drain1
  extract_lets _ _ fail r r' _ _
  have hfail : ∀ (s : State), s₀.Reaches s → ∀ p ∈ fail s, s₀.Reaches p.2 := fun _ h => .mem_some h.putJob
  have hr : s₀.Reaches r.2 := h.partnerWrite
  have hr' : s₀.Reaches r'.2 := h.partnerWrite
  split
  · exact hfail _ h
  · split
    · split
      exacts [hfail _ hr, .mem_some hr.putJob]
    · split
      · split
        exacts [hfail _ hr', .mem_some hr'.putJob]
      · exact Reaches.cmdGo h.readVia (fun _ _ h => by
          extract_lets r''
          have hr'' : s₀.Reaches r''.2 := h.partnerWrite
          split
          exacts [hfail _ hr'', .mem_some hr''.putJob])

theorem drain2 {k j i} (h : s₀.Reaches s) : ∀ p ∈ s.drain2 k j i, s₀.Reaches p.2 := by
  unfold State.drain2
  extract_lets _ _ _ _ a _ _ _
  have ha : s₀.Reaches a.2 := h.jobNvme
  split
  · exact .mem_some h.putJob
  · split
    · exact .mem_some ha.putJob
    · split
      exacts [Reaches.cmdGo h.readVia (fun _ _ h => .mem_some h.jobNvme.jobNvme.jobNvme.putJob),
        Reaches.cmdGo h.readVia (fun _ _ h => .mem_some h.jobNvme.putJob)]

theorem rackSealed {k j tiers} (h : s₀.Reaches s) : s₀.Reaches (s.rackSealed k j tiers) := .ite h h.setFld.setFld

theorem rackDrain {k j status} (h : s₀.Reaches s) : ∀ p ∈ s.rackDrain k j status, s₀.Reaches p.2 := by
  unfold State.rackDrain
  extract_lets _ _ last r
  have hlast : ∀ (s : State), s₀.Reaches s → ∀ (j : RackJob), ∀ p ∈ last s j,
    s₀.Reaches p.2 := fun _ h _ => .mem_some h.rackSealed.putJob.rackIntervals
  have hr : s₀.Reaches r.2.2 := h.writeVia
  split
  · split
    exacts [h.drain1, h.drain2]
  · exact h.drain1
  · exact h.drain2
  · split
    · split
      exacts [.mem_none, hlast _ hr _]
    · exact hlast _ h _

theorem execRack {q cid now far status} (h : s₀.Reaches s) : Res.From s₀ (execRack q cid now far status s) := h.rackStep (fun _ _ _ h => by
  split
  · exact h.rackBegin
  · split
    · exact h.rackCaptured
    · extract_lets _
      exact Reaches.cmdGo h.readVia (fun _ _ h => Reaches.cmdGo h.writeVia (fun _ _ h => .mem_some h.putJob))
  · exact h.rackDrain)

theorem restoreFind {k j far status} (h : s₀.Reaches s) : ∀ p ∈ s.restoreFind k j far status, s₀.Reaches p.2 := by
  unfold State.restoreFind
  extract_lets _ _ _ f found
  have hf : s₀.Reaches f.2 := by
    unfold f
    split
    exacts [h, h.flagOp]
  have hfound : ∀ (h : List ℕ) (slot : ℕ) (s : State), s₀.Reaches s → ∀ p ∈ found h slot s, s₀.Reaches p.2 := fun _ _ _ h => by
    unfold found
    split
    · exact .mem_some h
    · extract_lets _ s1 _ s1'
      have h1 : s₀.Reaches s1 := h.rackFail
      have hs1' : s₀.Reaches s1' := .ite h1.setRack h
      exact .mem_some hs1'.putJob
  split
  · exact .mem_some h
  · split
    · exact .mem_none
    · split
      · exact .mem_some hf
      · split
        · exact Reaches.cmdGo hf.readVia (fun _ _ h => hfound _ _ _ h)
        · split
          · split
            · exact .mem_some hf
            · split
              exacts [hfound _ _ _ hf, .mem_some hf]
          · split
            · exact .mem_some hf
            · split
              exacts [.mem_some hf, hfound _ _ _ hf]

theorem restoreCopy {k j far status} (h : s₀.Reaches s) : ∀ p ∈ s.restoreCopy k j far status, s₀.Reaches p.2 := by
  unfold State.restoreCopy
  extract_lets _ _ _ _ _ _
  split
  exacts [.mem_some h, Reaches.cmdGo h.writeVia (fun _ _ h => .mem_some h.putJob)]

theorem restoreCheck {k j far status} (h : s₀.Reaches s) : ∀ p ∈ s.restoreCheck k j far status, s₀.Reaches p.2 := by
  unfold State.restoreCheck
  extract_lets _
  exact Reaches.cmdGo h.readVia (fun _ _ h => by
    split
    · exact .mem_some h
    · extract_lets _
      exact Reaches.cmdGo h.cmdRead (fun _ _ h => .mem_some h.putJob))

theorem restoreWrite {k j status} (h : s₀.Reaches s) : ∀ p ∈ s.restoreWrite k j status, s₀.Reaches p.2 := by
  unfold State.restoreWrite
  extract_lets _ _ f _
  have hf : s₀.Reaches f.2 := h.flagOp
  split
  · exact Reaches.cmdGo h.readVia (fun _ _ h => Reaches.cmdGo h.writeVia (fun _ _ h => .mem_some h.putJob))
  · exact .mem_some h
  · split
    · exact .mem_some h
    · split
      · exact .mem_none
      · split
        exacts [.mem_some hf, .mem_some hf.setCmd.countSlots]

theorem execRestore {q cid far status} (h : s₀.Reaches s) : Res.From s₀ (execRestore q cid far status s) := h.rackStep (fun _ _ _ h => by
  split
  exacts [h.restoreFind, h.restoreCopy, h.restoreCheck, h.restoreWrite])

theorem execRestoreVerifyArrive {q cid} (h : s₀.Reaches s) : Res.From s₀ (execRestoreVerifyArrive q cid s) := by
  unfold Machine.execRestoreVerifyArrive
  refine .next ?_
  split
  · exact h
  · split
    exacts [.ite h h.memRead.progress.complete, h]

theorem execRestoreVerifyTimeout {q cid ms} (h : s₀.Reaches s) : Res.From s₀ (execRestoreVerifyTimeout q cid ms s) := by
  unfold Machine.execRestoreVerifyTimeout
  refine .next ?_
  split
  · exact h
  · split
    exacts [h, .ite h h.progress.complete]

theorem execNvmeCompletion {id ok} (h : s₀.Reaches s) : Res.From s₀ (execNvmeCompletion id ok s) := by
  unfold Machine.execNvmeCompletion
  extract_lets _ s1
  have h1 : s₀.Reaches s1 := h.setRack
  refine .next ?_
  split
  · exact h
  · split
    · exact h1.setFld
    · split
      · exact h1
      · extract_lets _ _ s2
        have h2 : s₀.Reaches s2 := h1.putJob
        split
        · exact h2
        · split
          exacts [h2.setCmd, h2]

theorem execNvmeOvercurrent (h : s₀.Reaches s) : Res.From s₀ (execNvmeOvercurrent s) := by
  unfold Machine.execNvmeOvercurrent
  extract_lets _ s1 _
  have h1 : s₀.Reaches s1 := h.setRack.setFld
  exact .next (.ite h (h1.foldl (fun _ h _ => h.setCmd)))

theorem tellKeeper {peer} (h : s₀.Reaches s) : s₀.Reaches (s.tellKeeper peer) := h.srvTell

theorem partnerDone {peer code rack feed} (h : s₀.Reaches s) : s₀.Reaches (s.partnerDone peer code rack feed) := by
  unfold State.partnerDone
  split
  · exact h
  · extract_lets _ s1 _ _ _ s2
    have h1 : s₀.Reaches s1 := h.setFld.setRack
    have h2 : s₀.Reaches s2 := .ite h1.setRack.setFld.setFld.setFld h1.setFld
    exact h2.mgmtAnswer

theorem execAelxKctl {m vc msg} (h : s₀.Reaches s) : Res.From s₀ (execAelxKctl m vc msg s) := .next (h.serve (fun _ _ _ h => by
  extract_lets answer _
  have hanswer : ∀ (code : ℕ) (s : State), s₀.Reaches s → ∀ p ∈ answer code s, s₀.Reaches p := fun _ _ h => .mem_some h.rxAnswer
  split
  · exact hanswer _ _ h.teardownTo
  · extract_lets _ _ s1
    have h1 : s₀.Reaches s1 := .ite h.putModel h
    exact hanswer _ _ h1.srvTell
  · extract_lets _ _ s0 s1 _ s1'
    have h0 : s₀.Reaches s0 := h.setFld
    have h1 : s₀.Reaches s1 := h0.emptyReserve.setFld
    have hs1' : s₀.Reaches s1' := .ite h1.setRack h0
    exact hanswer _ _ hs1'.tellKeeper
  · exact hanswer _ _ h.partnerDone
  · extract_lets _
    exact hanswer _ _ h.setRack.rackRecheck
  · split
    exacts [hanswer _ _ h.tellKeeper, hanswer _ _ h]
  · exact hanswer _ _ h))

/-! ### Sys2Proof/Machine/Time.lean -/

theorem setServo {x} (h : s₀.Reaches s) : s₀.Reaches (s.setServo x) := h.setKp

theorem setTime {sec ns frac} (h : s₀.Reaches s) : s₀.Reaches (s.setTime sec ns frac) := h.setFld.setFld.setFld.setFld

theorem putTime {t} (h : s₀.Reaches s) : s₀.Reaches (s.putTime t) := h.setTime

theorem timeTo {now} (h : s₀.Reaches s) : s₀.Reaches (s.timeTo now) := .ite h.putTime h

theorem ppsOut (h : s₀.Reaches s) : s₀.Reaches s.ppsOut := .ite h.send h

theorem timeStep {t} (h : s₀.Reaches s) : s₀.Reaches (s.timeStep t) := by
  unfold State.timeStep
  extract_lets _ _ s1 s2
  have h1 : s₀.Reaches s1 := h.putTime.bump
  have h2 : s₀.Reaches s2 := .ite h1.ppsOut h1
  exact h2.platformEvent

theorem servoTo {st} (h : s₀.Reaches s) : s₀.Reaches (s.servoTo st) := h.setServo.setFld

theorem measure {off} (h : s₀.Reaches s) : s₀.Reaches (s.measure off) := by
  unfold State.measure
  extract_lets s1 _ s2 _ _
  have h1 : s₀.Reaches s1 := h.setFld
  have h2 : s₀.Reaches s2 := .ite h1.servoTo h1
  exact .ite h2.setServo (.ite h2.setServo.timeStep (.ite h2.setServo.setFld h2.setServo))

theorem pickMaster (h : s₀.Reaches s) : s₀.Reaches s.pickMaster := by
  unfold State.pickMaster
  split
  exacts [h, h.setFld.setFld]

theorem execPtpAnnounce {m domain data utc} (h : s₀.Reaches s) : Res.From s₀ (execPtpAnnounce m domain data utc s) := by
  unfold Machine.execPtpAnnounce
  extract_lets _ _
  exact .next (.ite h h.setServo.pickMaster)

theorem execPtpSync {m off now} (h : s₀.Reaches s) : Res.From s₀ (execPtpSync m off now s) := .next (.ite h.timeTo h.timeTo.measure)

theorem execPpsInEdge {now} (h : s₀.Reaches s) : Res.From s₀ (execPpsInEdge now s) := by
  suffices ∀ q, q = Machine.execPpsInEdge now s → Res.From s₀ q from this _ rfl
  rw [show Machine.execPpsInEdge = _ by delta Machine.execPpsInEdge; rfl]
  have hto : s₀.Reaches (s.timeTo now) := h.timeTo
  obtain ⟨forward, is_forward⟩ : ∃ f, f = @State.timeTo := ⟨_, rfl⟩
  obtain ⟨clock, is_clock⟩ : ∃ f, f = @State.timeNow := ⟨_, rfl⟩
  rw [← is_forward] at hto ⊢
  rw [← is_clock]
  rintro _ rfl
  extract_lets s1 _ _ s2 _ _
  have h2 : s₀.Reaches s2 := hto.setServo.setReg
  refine .next (.ite hto (.ite h2 ?_))
  split
  exacts [h2.setServo.timeStep, h2.measure]

theorem execServoHoldover {announce} (h : s₀.Reaches s) : Res.From s₀ (execServoHoldover announce s) := by
  unfold Machine.execServoHoldover
  extract_lets _ _ s1
  have h1 : s₀.Reaches s1 := .ite h.setServo.pickMaster h
  exact .next (.ite h1.servoTo h1)

theorem execRef10Loss (h : s₀.Reaches s) : Res.From s₀ (execRef10Loss s) := .next h.setFld

theorem execRef10Lock (h : s₀.Reaches s) : Res.From s₀ (execRef10Lock s) := .next (.ite h.setFld h)

theorem powered (h : s₀.Reaches s) : s₀.Reaches s.powered := .ite h.setRack h.setRack.bump

theorem execPpsSecondBoundary (h : s₀.Reaches s) : Res.From s₀ (execPpsSecondBoundary s) := .next h.setTime.ppsOut.powered

theorem execTimeCfgWrite {ag v} (h : s₀.Reaches s) : Res.From s₀ (execTimeCfgWrite ag v s) :=
  .next (.ite h.reply ((Reaches.ite (Reaches.ite h.setReg h.setReg.servoTo).setFld (.ite h.setReg h.setReg.servoTo)).foldl
    (fun _ h _ => h.setFld)).reply)

theorem timeSet {sec} (h : s₀.Reaches s) : s₀.Reaches (s.timeSet sec) := by
  unfold State.timeSet
  split
  exacts [h.setServo, h.timeStep, h]

theorem execTimeSet {ag v} (h : s₀.Reaches s) : Res.From s₀ (execTimeSet ag v s) := .next (.ite h.reply h.timeSet.reply)

end State.Reaches
end Sys2Proof.Machine
end

section
/-! SUPPORT for O59. What operations keep: management and firmware. -/
namespace Sys2Proof.Machine
namespace State.Reaches

variable {s₀ s u : State}

-- One thread elaborates these theorems: many at once hold many stacks.
set_option Elab.async false

/-! ### Sys2Proof/Machine/MgmtOps.lean -/

theorem setMgmt {x} (h : s₀.Reaches s) : s₀.Reaches (s.setMgmt x) := h.setKp

theorem manage {src typ f} (h : s₀.Reaches s) (hf : ∀ (u : State), s₀.Reaches u → s₀.Reaches (f u)) : s₀.Reaches (s.manage src typ f) := by
  unfold State.manage
  split
  · exact h
  · split
    exacts [h.send, hf _ h]

theorem vendorAnswer {src code status args} (h : s₀.Reaches s) : s₀.Reaches (s.vendorAnswer src code status args) := h.mgmtAnswer

theorem vendor {src code b ok free f} (h : s₀.Reaches s) (hf : ∀ (l : List ℕ) (u : State), s₀.Reaches u → s₀.Reaches (f l u).2) :
    s₀.Reaches (s.vendor src code b ok free f) := by
  unfold State.vendor
  extract_lets _ _
  exact h.manage (fun _ h => by
    split
    · exact h
    · split
      · exact h.vendorAnswer
      · split
        · exact h.vendorAnswer
        · extract_lets r
          have hr : s₀.Reaches r.2 := hf _ _ h
          split
          exacts [hr.vendorAnswer, hr])

theorem pldm {src typ cmd f} (h : s₀.Reaches s) (hf : ∀ (u : State), s₀.Reaches u → s₀.Reaches (f u).2.2) : s₀.Reaches (s.pldm src typ cmd f) :=
  h.manage (fun _ h => (hf _ h).mgmtAnswer)

theorem freeList {n} (h : s₀.Reaches s) : s₀.Reaches (s.freeList n).2 := by
  unfold State.freeList
  exact h.free

/-! ### Sys2Proof/Machine/Firmware.lean -/

theorem fwStart {b sig} (h : s₀.Reaches s) : s₀.Reaches (s.fwStart b sig) := h.setFld.setFld.setFld.setFirm

theorem writeBoots {f} (h : s₀.Reaches s) : s₀.Reaches (s.writeBoots f) := h.setFirm

theorem romSpi {sigs} (h : s₀.Reaches s) : s₀.Reaches (s.romSpi sigs) := by
  unfold State.romSpi
  extract_lets _ s1 _ _ s2
  have h1 : s₀.Reaches s1 := .ite h.fwRevert h
  have h2 : s₀.Reaches s2 := h1.setFirm
  split
  exacts [h2.fwStart.setFld.setFld, h2]

theorem romRecover {b sig sigs} (h : s₀.Reaches s) : s₀.Reaches (s.romRecover b sig sigs) := .ite h.setFirm.fwStart h.romSpi

theorem execFwRecoveryWrite {len sig sigs} (h : s₀.Reaches s) : Res.From s₀ (execFwRecoveryWrite len sig sigs s) := .next (.ite h.romRecover h)

theorem execRecoveryBootTimeout {sigs} (h : s₀.Reaches s) : Res.From s₀ (execRecoveryBootTimeout sigs s) := .next (.ite h h.setFirm.romSpi)

theorem updTo {u st} (h : s₀.Reaches s) : s₀.Reaches (s.updTo u st) := h.setFirm.setFld

theorem fwAsk (h : s₀.Reaches s) : s₀.Reaches s.fwAsk := h.send

theorem execRequestUpdate {src} (h : s₀.Reaches s) : Res.From s₀ (execRequestUpdate src s) := .next (h.pldm (fun _ h => by
  split
  exacts [h, h.setFirm]))

theorem execPassComponentTable {src comp} (h : s₀.Reaches s) : Res.From s₀ (execPassComponentTable src comp s) := .next (h.pldm (fun _ h => by
  split
  · exact h
  · split
    · exact h
    · split
      exacts [h, h.setFirm]))

theorem execUpdateComponent {src comp size} (h : s₀.Reaches s) : Res.From s₀ (execUpdateComponent src comp size s) :=
    .next (.ite ((h.pldm (fun _ h => by
      exact h.setFirm.updTo)).fwAsk) (h.pldm (fun _ h => by
      split
      · exact h
      · split
        exacts [h, h])))

theorem putBanks {b both} (h : s₀.Reaches s) : s₀.Reaches (s.putBanks b both) := h.setFirm

theorem execFirmwareDataReceived {data v} (h : s₀.Reaches s) : Res.From s₀ (execFirmwareDataReceived data v s) := by
  unfold Machine.execFirmwareDataReceived
  extract_lets _ _ s1
  have h1 : s₀.Reaches s1 := h.setFirm.putBanks
  refine .next ?_
  split
  · exact h
  · split
    · exact h1.fwAsk
    · split
      · exact h1.setFld
      · extract_lets _ s2
        have h2 : s₀.Reaches s2 := h1.send.send.setFld
        exact .ite h2.updTo h2.send.updTo

theorem execActivateFirmware {src ok} (h : s₀.Reaches s) : Res.From s₀ (execActivateFirmware src ok s) := .next (h.pldm (fun _ h => by
  split
  · exact h
  · split
    · exact h
    · extract_lets s1
      have h1 : s₀.Reaches s1 := h.writeBoots.setFld
      exact .ite h1 h1.fwRevert))

theorem execGetStatus {src} (h : s₀.Reaches s) : Res.From s₀ (execGetStatus src s) := .next (h.pldm (fun _ h => by
  exact h))

theorem execCancelUpdateComponent {src} (h : s₀.Reaches s) : Res.From s₀ (execCancelUpdateComponent src s) := .next (h.pldm (fun _ h => by
  split
  · exact h
  · split
    exacts [h, h.updTo]))

theorem execCancelUpdate {src} (h : s₀.Reaches s) : Res.From s₀ (execCancelUpdate src s) := .next (h.pldm (fun _ h => by
  split
  · exact h
  · split
    exacts [h, h.setFirm.updTo]))

theorem execFwTakeover {ok sig} (h : s₀.Reaches s) : Res.From s₀ (execFwTakeover ok sig s) :=
  .next (.ite h (.ite h.fwRevert h.writeBoots.fwStart.setFirm.setFld.setFld.setFld.setFld.setFld.measuredFree))

theorem fwConfirm (h : s₀.Reaches s) : s₀.Reaches s.fwConfirm := .ite h h.writeBoots.setFirm.setFld.setFld

theorem execTrialAutoConfirm {minutes} (h : s₀.Reaches s) : Res.From s₀ (execTrialAutoConfirm minutes s) := .next (.ite h.fwConfirm h)

theorem vmFwConfirm {src b} (h : s₀.Reaches s) : s₀.Reaches (s.vmFwConfirm src b) := h.vendor (fun _ _ h => by
  exact h.fwConfirm)

theorem execFwConfirm {src b} (h : s₀.Reaches s) : Res.From s₀ (execFwConfirm src b s) := .next h.vmFwConfirm

theorem commitSvn {img} (h : s₀.Reaches s) : s₀.Reaches (s.commitSvn img).2 := by
  unfold State.commitSvn
  extract_lets _ _ _ _ _ s1 _
  have h1 : s₀.Reaches s1 := .ite h h.setFirm
  split
  exacts [h.setFld, h1.setFld.setFld]

theorem vmCommitSvn {src b} (h : s₀.Reaches s) : s₀.Reaches (s.vmCommitSvn src b) := h.vendor (fun _ _ h => h.commitSvn)

theorem execCommitSvn {src b} (h : s₀.Reaches s) : Res.From s₀ (execCommitSvn src b s) := .next h.vmCommitSvn

/-! ### Sys2Proof/Machine/Mgmt.lean -/

theorem vmGetInfo {src b} (h : s₀.Reaches s) : s₀.Reaches (s.vmGetInfo src b) := h.vendor (fun _ _ h => by
  exact h)

theorem execGetInfo {src b} (h : s₀.Reaches s) : Res.From s₀ (execGetInfo src b s) := .next h.vmGetInfo

theorem vmSetModuleId {src b} (h : s₀.Reaches s) : s₀.Reaches (s.vmSetModuleId src b) := h.vendor (fun _ _ h => by
  exact .ite h h.setFld.setFld)

theorem execSetModuleId {src b} (h : s₀.Reaches s) : Res.From s₀ (execSetModuleId src b s) := .next h.vmSetModuleId

theorem vmSetRackLoc {src b} (h : s₀.Reaches s) : s₀.Reaches (s.vmSetRackLoc src b) := h.vendor (fun _ _ h => by
  exact h.setFld.rackMoved)

theorem execSetRackLoc {src b} (h : s₀.Reaches s) : Res.From s₀ (execSetRackLoc src b s) := .next h.vmSetRackLoc

theorem vmPartnerRegister {src b} (h : s₀.Reaches s) : s₀.Reaches (s.vmPartnerRegister src b) := h.vendor (fun _ _ h => by
  split
  · exact h
  · extract_lets _ _ _ s1
    have h1 : s₀.Reaches s1 := h.setRack
    clear_value s1
    dsimp only
    exact h1.setFld.tellKeeper)

theorem execPartnerRegister {src b} (h : s₀.Reaches s) : Res.From s₀ (execPartnerRegister src b s) := .next h.vmPartnerRegister

theorem vmNameSuccessor {src b} (h : s₀.Reaches s) : s₀.Reaches (s.vmNameSuccessor src b) := h.vendor (fun _ _ h => by
  extract_lets _ _ f
  have hf : s₀.Reaches f.2 := h.free
  split
  · exact h.setRack
  · split
    · exact h
    · split
      exacts [hf, h.setRack])

theorem execNameSuccessor {src b} (h : s₀.Reaches s) : Res.From s₀ (execNameSuccessor src b s) := .next h.vmNameSuccessor

theorem vmSetModmap {src b} (h : s₀.Reaches s) : s₀.Reaches (s.vmSetModmap src b) := h.vendor (fun _ _ h => by
  extract_lets _ s1 _
  have h1 : s₀.Reaches s1 := h.foldl (fun _ h _ => .ite h.setFld h.setFld.setFld)
  exact .ite h1 h1.setFld.setKp)

theorem execSetModmap {src b} (h : s₀.Reaches s) : Res.From s₀ (execSetModmap src b s) := .next h.vmSetModmap

theorem putFabric {x v} (h : s₀.Reaches s) : s₀.Reaches (s.putFabric x v) := .ite h.portCfg (h.setReg.afterWrite h)

theorem vmSetFabric {src b} (h : s₀.Reaches s) : s₀.Reaches (s.vmSetFabric src b) := h.vendor (fun _ _ h => by
  exact h.foldl (fun _ h _ => by
    split
    exacts [h.putFabric, h]))

theorem execSetFabric {src b} (h : s₀.Reaches s) : Res.From s₀ (execSetFabric src b s) := .next h.vmSetFabric

theorem vmDump {src b} (h : s₀.Reaches s) : s₀.Reaches (s.vmDump src b) := h.vendor (fun _ _ h => by
  split
  exacts [h, h.askDump])

theorem execDumpMessage {src b} (h : s₀.Reaches s) : Res.From s₀ (execDumpMessage src b s) := .next h.vmDump

theorem vmSetOwnerRoot {src b} (h : s₀.Reaches s) : s₀.Reaches (s.vmSetOwnerRoot src b) := h.vendor (fun _ _ h => by
  exact h.setMgmt.setFld)

theorem execSetOwnerRoot {src b} (h : s₀.Reaches s) : Res.From s₀ (execSetOwnerRoot src b s) := .next h.vmSetOwnerRoot

theorem vmSetMgmtAddr {src b} (h : s₀.Reaches s) : s₀.Reaches (s.vmSetMgmtAddr src b) := h.vendor (fun _ _ h => by
  exact h.setMgmt)

theorem execSetMgmtAddr {src b} (h : s₀.Reaches s) : Res.From s₀ (execSetMgmtAddr src b s) := .next h.vmSetMgmtAddr

theorem vmTimeSet {src b} (h : s₀.Reaches s) : s₀.Reaches (s.vmTimeSet src b) := h.vendor (fun _ _ h => by
  exact h.timeSet)

theorem execTimeSetMessage {src b} (h : s₀.Reaches s) : Res.From s₀ (execTimeSetMessage src b s) := .next h.vmTimeSet

theorem vendorMessage {src code b} (h : s₀.Reaches s) : s₀.Reaches (s.vendorMessage src code b) := by
  unfold State.vendorMessage
  split
  · exact h.vmGetInfo
  · exact h.vmSetModuleId
  · exact h.vmSetRackLoc
  · exact h.vmPartnerRegister
  · exact h.vmNameSuccessor
  · exact h.vmSetModmap
  · exact h.vmSetFabric
  · exact h.vmDump
  · exact h.vmCommitSvn
  · exact h.vmFwConfirm
  · exact h.vmSetOwnerRoot
  · exact h.vmSetMgmtAddr
  · exact h.vmTimeSet
  · exact h
  · exact h
  · exact h.vendor (fun _ _ h => by
      exact h)

theorem execKmpDatagram {fabric addr session d} (h : s₀.Reaches s) : Res.From s₀ (execKmpDatagram fabric addr session d s) := by
  unfold Machine.execKmpDatagram
  extract_lets _ _ _ _
  exact .next (.ite h (.ite h.vendorMessage (.ite (h.manage (fun _ h => h)) h)))

theorem execMctpControl {src r} (h : s₀.Reaches s) : Res.From s₀ (execMctpControl src r s) := by
  unfold Machine.execMctpControl
  extract_lets ans
  have hans : ∀ (cmd cc : ℕ) (data : List ℕ) (s : State), s₀.Reaches s → s₀.Reaches (ans cmd cc data s) := fun _ _ _ _ h => h.mgmtAnswer
  exact .next (h.manage (fun _ h => by
    split
    · exact .ite (hans _ _ _ _ h) (hans _ _ _ _ h.setMgmt)
    · exact hans _ _ _ _ h
    · extract_lets f
      have hf : s₀.Reaches f.2 := h.freeList
      exact hans _ _ _ _ hf
    · exact hans _ _ _ _ h
    · exact hans _ _ _ _ h
    · exact .ite h.setMgmt h
    · exact hans _ _ _ _ h))

theorem measurement {i} (h : s₀.Reaches s) : s₀.Reaches (s.measurement i).2 := by
  unfold State.measurement
  split
  · exact h
  · split
    exacts [h, h.freeList]

theorem measurements {l} (h : s₀.Reaches s) : s₀.Reaches (s.measurements l).2 := Reaches.foldlSnd h (fun _ _ h => by
  extract_lets m
  have hm : s₀.Reaches m.2 := h.measurement
  exact hm)

theorem execSpdmMessage {src r} (h : s₀.Reaches s) : Res.From s₀ (execSpdmMessage src r s) := by
  unfold Machine.execSpdmMessage
  extract_lets ans free err _ chain
  have hans : ∀ (code : ℕ) (data : List ℕ) (s : State), s₀.Reaches s → s₀.Reaches (ans code data s) := fun _ _ _ h => h.mgmtAnswer
  have hfree : ∀ (code n : ℕ) (s : State), s₀.Reaches s → s₀.Reaches (free code n s) := fun _ _ _ h => hans _ _ _ h.freeList
  have herr : ∀ (code : ℕ) (s : State), s₀.Reaches s → s₀.Reaches (err code s) := fun _ _ h => hans _ _ _ h
  have hchain : ∀ (code n : ℕ) (s : State), s₀.Reaches s → s₀.Reaches (chain code n s) := fun _ _ _ h => by
    unfold chain
    split
    exacts [hfree _ _ _ h, .ite (herr _ _ h) (hans _ _ _ h), herr _ _ h]
  exact .next (h.manage (fun _ h => by
    extract_lets _
    split
    exacts [hans _ _ _ h, hfree _ _ _ h, hfree _ _ _ h, hfree _ _ _ h, hchain _ _ _ h, .ite (hfree _ _ _ h) (herr _ _ h),
      .ite (herr _ _ h) (hans _ _ _ h.measurements), hfree _ _ _ h.setMgmt, .ite (herr _ _ h) (hfree _ _ _ h.setMgmt),
        .ite (hans _ _ _ h.setMgmt) (herr _ _ h), .ite (hans _ _ _ h) (herr _ _ h), .ite (hans _ _ _ h) (herr _ _ h),
          .ite (hans _ _ _ h.setMgmt) (herr _ _ h), herr _ _ h]))

theorem execArpNeighbourSolicitation {m q own} (h : s₀.Reaches s) : Res.From s₀ (execArpNeighbourSolicitation m q own s) := by
  unfold Machine.execArpNeighbourSolicitation
  extract_lets _ _ _
  refine .next ?_
  split
  · extract_lets _ _
    split
    exacts [.ite h.send h, .ite h.send h, h]
  · split
    exacts [.ite h.send h, .ite h.send h, h.send]

theorem execGetTid {src} (h : s₀.Reaches s) : Res.From s₀ (execGetTid src s) := .next (h.pldm (fun _ h => by
  exact h))

theorem execSetTid {src tid} (h : s₀.Reaches s) : Res.From s₀ (execSetTid src tid s) := .next (h.pldm (fun _ h => by
  split
  exacts [h, h.setMgmt]))

theorem execGetPldmVersion {src typ} (h : s₀.Reaches s) : Res.From s₀ (execGetPldmVersion src typ s) := .next (h.pldm (fun _ h => by
  split
  · extract_lets f
    have hf : s₀.Reaches f.2 := h.freeList
    exact hf
  · exact h))

theorem execGetPldmTypes {src} (h : s₀.Reaches s) : Res.From s₀ (execGetPldmTypes src s) := .next (h.pldm (fun _ h => by
  exact h))

theorem execGetPldmCommands {src typ} (h : s₀.Reaches s) : Res.From s₀ (execGetPldmCommands src typ s) := .next (h.pldm (fun _ h => by
  split
  exacts [h, h]))

theorem execGetPdrRepositoryInfo {src} (h : s₀.Reaches s) : Res.From s₀ (execGetPdrRepositoryInfo src s) := .next (h.pldm (fun _ h => by
  extract_lets f
  have hf : s₀.Reaches f.2 := h.freeList
  exact hf))

theorem execGetPdr {src record n} (h : s₀.Reaches s) : Res.From s₀ (execGetPdr src record n s) := .next (h.pldm (fun _ h => by
  extract_lets f
  have hf : s₀.Reaches f.2 := h.freeList
  exact hf))

theorem execGetSensorReading {src id value} (h : s₀.Reaches s) : Res.From s₀ (execGetSensorReading src id value s) := .next (h.pldm (fun _ h => by
  split
  · exact h
  · split
    exacts [h, h]))

theorem execGetStateSensorReadings {src id} (h : s₀.Reaches s) : Res.From s₀ (execGetStateSensorReadings src id s) := .next (h.pldm (fun _ h => by
  split
  exacts [h, h, h]))

theorem execSetEventReceiver {src mode addr} (h : s₀.Reaches s) : Res.From s₀ (execSetEventReceiver src mode addr s) := .next (h.pldm (fun _ h => by
  extract_lets _ _ _
  exact h.setKp))

theorem execPollForPlatformEventMessage {src} (h : s₀.Reaches s) : Res.From s₀ (execPollForPlatformEventMessage src s) := .next (h.pldm (fun _ h => by
  extract_lets _ _
  split
  exacts [h, h.setKp]))

theorem execSetNumericSensorEnable {src id on} (h : s₀.Reaches s) : Res.From s₀ (execSetNumericSensorEnable src id on s) :=
    .next (h.pldm (fun _ h => by
      split
      · exact h
      · extract_lets _ _
        exact h.setMgmt))

theorem execQueryDeviceIdentifiers {src} (h : s₀.Reaches s) : Res.From s₀ (execQueryDeviceIdentifiers src s) := .next (h.pldm (fun _ h => by
  exact h))

theorem execGetFirmwareParameters {src} (h : s₀.Reaches s) : Res.From s₀ (execGetFirmwareParameters src s) := .next (h.pldm (fun _ h => by
  extract_lets _ f
  have hf : s₀.Reaches f.2 := h.freeList
  exact hf))

end State.Reaches
end Sys2Proof.Machine
end

section
/-! SUPPORT for O59. What operations keep: debugging, power and the trellis. -/
namespace Sys2Proof.Machine
namespace State.Reaches

variable {s₀ s u : State}

-- One thread elaborates these theorems: many at once hold many stacks.
set_option Elab.async false

/-! ### Sys2Proof/Machine/Debug.lean -/

theorem dbgAnswer {st v} (h : s₀.Reaches s) : s₀.Reaches (s.dbgAnswer st v) := h.send

theorem keeperOrFull {ag off len f} (h : s₀.Reaches s) (hf : ∀ (u : State), s₀.Reaches u → s₀.Reaches (f u)) :
    s₀.Reaches (s.keeperOrFull ag off len f) := by
  unfold State.keeperOrFull
  split
  exacts [.ite (h.regWrite hf) h.reply, .ite (hf _ h).dbgAnswer h.dbgAnswer]

theorem lastLb {i code st} (h : s₀.Reaches s) : s₀.Reaches (s.lastLb i code st) := h.setFld.setFld.setFld

theorem putLb {i v} (h : s₀.Reaches s) : s₀.Reaches (s.putLb i v) := h.setReg

theorem execLoopbackStart {ag lb v} (h : s₀.Reaches s) : Res.From s₀ (execLoopbackStart ag lb v s) :=
  .next (h.keeperOrFull (fun _ h => .ite h.setFld.setFld.lastLb h.putLb.setFld.setFld.setFld.lastLb))

theorem execLoopbackStop {ag lb v} (h : s₀.Reaches s) : Res.From s₀ (execLoopbackStop ag lb v s) :=
  .next (h.keeperOrFull (fun _ h => h.putLb.setFld.lastLb))

theorem execLoopbackStep {lb errors lock rows} (h : s₀.Reaches s) : Res.From s₀ (execLoopbackStep lb errors lock rows s) :=
  .next (.ite h (.ite (Reaches.ite ((Reaches.ite h.bump h.bump.setFld.setFld).foldl (fun _ h _ => h.initBytes))
    (.ite h.bump h.bump.setFld.setFld)).setFld (.ite ((Reaches.ite h.bump h.bump.setFld.setFld).foldl (fun _ h _ => h.initBytes))
      (.ite h.bump h.bump.setFld.setFld))))

theorem setDebug {x} (h : s₀.Reaches s) : s₀.Reaches (s.setDebug x) := h.setKp

theorem putTurn {n v} (h : s₀.Reaches s) : s₀.Reaches (s.putTurn n v) := by
  unfold State.putTurn
  extract_lets _ _ _ s1 _ _
  have h1 : s₀.Reaches s1 := h.setReg
  exact .ite h (.ite h (.ite h1 h1.setDebug.setFld.send))

theorem execRtrTurnTbWrite {ag n v} (h : s₀.Reaches s) : Res.From s₀ (execRtrTurnTbWrite ag n v s) := .next (h.keeperOrFull (fun _ h => h.putTurn))

theorem execTurnBackStart {ag n v} (h : s₀.Reaches s) : Res.From s₀ (execTurnBackStart ag n v s) := .next (h.keeperOrFull (fun _ h => h.putTurn))

theorem execTurnBackFlitReturn {n ok} (h : s₀.Reaches s) : Res.From s₀ (execTurnBackFlitReturn n ok s) :=
  .next (.ite h (.ite (Reaches.ite h.setDebug h.setDebug.bump).setFld (.ite h.setDebug h.setDebug.bump)))

theorem execTurnBackTimeout {n} (h : s₀.Reaches s) : Res.From s₀ (execTurnBackTimeout n s) := .next h.setFld

theorem jtag {i} (h : s₀.Reaches s) : s₀.Reaches (s.jtag i) := h.setDebug

theorem execIdcode (h : s₀.Reaches s) : Res.From s₀ (execIdcode s) := .next h.jtag.send

theorem execBypass (h : s₀.Reaches s) : Res.From s₀ (execBypass s) := .next h.jtag

theorem execSamplePreload {pins load} (h : s₀.Reaches s) : Res.From s₀ (execSamplePreload pins load s) := .next h.jtag.send.setDebug

theorem execExtest {pins} (h : s₀.Reaches s) : Res.From s₀ (execExtest pins s) := .next h.jtag.send.setDebug

theorem spoil {a n} (h : s₀.Reaches s) : s₀.Reaches (s.spoil a n) := h.free.initBytes.writeBytes

theorem spoilSram {p} (h : s₀.Reaches s) : s₀.Reaches (s.spoilSram p) := h.foldl (fun _ h _ => h.spoil.spoil)

theorem execScan {p} (h : s₀.Reaches s) : Res.From s₀ (execScan p s) :=
  .next (.ite h.jtag (h.jtag.parcelReset.foldl (fun _ h _ => h.setCore.routerReset)).spoilSram.free.send)

theorem execMbist {p} (h : s₀.Reaches s) : Res.From s₀ (execMbist p s) := .next (.ite h.jtag h.jtag.spoilSram.free.send)

theorem execHbm1500 {p data} (h : s₀.Reaches s) : Res.From s₀ (execHbm1500 p data s) := .next (.ite h.jtag h.jtag.free.send)

theorem dbgWrite {c t r v} (h : s₀.Reaches s) : s₀.Reaches (s.dbgWrite c t r v) := by
  unfold State.dbgWrite
  extract_lets _
  split
  · exact h.setThr
  · exact h.setThr
  · exact h.landOne
  · exact h.setThr
  · exact h.setThr
  · split
    · extract_lets s1
      have h1 : s₀.Reaches s1 := h.sets
      exact .ite h1.setTf.setTf h1
    · exact h

theorem execDbgAccess {x write far} (h : s₀.Reaches s) : Res.From s₀ (execDbgAccess x write far s) := by
  unfold Machine.execDbgAccess
  extract_lets s0 _
  have h0 : s₀.Reaches s0 := h.jtag
  refine .next ?_
  split
  · split
    · exact h0.dbgAnswer
    · split
      exacts [h0.dbgAnswer, h0.dbgWrite.dbgAnswer]
  · extract_lets at_ q
    have hq : s₀.Reaches q.2.2 := h0.readVia
    clear_value at_
    split
    · exact h0.dbgAnswer
    · split
      · exact h0.dbgAnswer
      · split
        · exact h0.dbgAnswer
        · split
          · split
            · exact h0.dbgAnswer
            · split
              · extract_lets q'
                have hq' : s₀.Reaches q'.2 := h0.mmrRead
                exact hq'.dbgAnswer
              · exact .ite h0.dbgAnswer h0.putPlace.dbgAnswer
          · split
            · exact hq.dbgAnswer
            · extract_lets q'
              have hq' : s₀.Reaches q'.2.2 := h0.writeVia
              exact hq'.dbgAnswer

theorem execDebugUnlock {q sig} (h : s₀.Reaches s) : Res.From s₀ (execDebugUnlock q sig s) := by
  unfold Machine.execDebugUnlock
  extract_lets _ _ _ _ _ _ _ s1 s2
  have h1 : s₀.Reaches s1 := h.newNonce
  have h2 : s₀.Reaches s2 := h1.setFld.setFld
  exact .next (.ite (.ite h2 h2.measuredFree) h1)

theorem execDbgLockWrite {ag v} (h : s₀.Reaches s) : Res.From s₀ (execDbgLockWrite ag v s) := by
  unfold Machine.execDbgLockWrite
  extract_lets put
  have hput : ∀ (s : State), s₀.Reaches s → s₀.Reaches (put s) := fun _ h => .ite h.dbgLock h
  refine .next ?_
  split
  exacts [.ite (h.regWrite hput) h.reply, (hput _ h).dbgAnswer]

theorem dbgRun {c mask f} (h : s₀.Reaches s) (hf : ∀ (u : State), s₀.Reaches u → ∀ (n : ℕ), s₀.Reaches (f u n)) : s₀.Reaches (s.dbgRun c mask f) :=
  .ite (h.foldl hf).dbgAnswer h.dbgAnswer

theorem execDbgHalt {c mask} (h : s₀.Reaches s) : Res.From s₀ (execDbgHalt c mask s) := .next (h.dbgRun (fun _ h _ => by
  split
  exacts [h, h, h, .ite h h.halt, h.setThr]))

theorem execThreadHalt {c k} (h : s₀.Reaches s) : Res.From s₀ (execThreadHalt c k s) := by
  unfold Machine.execThreadHalt
  extract_lets _
  refine .next ?_
  split
  · exact h
  · split
    exacts [h.halt, h.halt, h]

theorem unhalt {c k step} (h : s₀.Reaches s) : s₀.Reaches (s.unhalt c k step) := by
  unfold State.unhalt
  extract_lets _ _ s1
  have h1 : s₀.Reaches s1 := h.setThr
  split
  · exact h
  · split
    · exact h1
    · split
      exacts [h1.ready, .ite h1.feAgain h1.wakeThread, h1.mbWake]

theorem execDbgResume {c mask} (h : s₀.Reaches s) : Res.From s₀ (execDbgResume c mask s) := .next (h.dbgRun (fun _ h _ => h.unhalt))

theorem execDbgStep {c mask} (h : s₀.Reaches s) : Res.From s₀ (execDbgStep c mask s) := .next (h.dbgRun (fun _ h _ => h.unhalt))

theorem execDbgDiscard {c mask} (h : s₀.Reaches s) : Res.From s₀ (execDbgDiscard c mask s) :=
  .next (h.dbgRun (fun _ h _ => .ite h.setThr.setTf.setTf h))

theorem execChanHoldExpiry {c k us} (h : s₀.Reaches s) : Res.From s₀ (execChanHoldExpiry c k us s) := .next (.ite h h.setThr.setFld.send)

/-! ### Sys2Proof/Machine/Power.lean -/

theorem setPower {x} (h : s₀.Reaches s) : s₀.Reaches (s.setPower x) := h.setKp

theorem sensorEvent {id on low} (h : s₀.Reaches s) : s₀.Reaches (s.sensorEvent id on low) := h.platformEvent

theorem envLapse (h : s₀.Reaches s) : s₀.Reaches s.envLapse := .ite h h.setFld.faultRec

theorem railsOff (h : s₀.Reaches s) : s₀.Reaches s.railsOff := by
  unfold State.railsOff
  extract_lets s1 s2 s3 s4 _
  have h1 : s₀.Reaches s1 := h.hangAbort.foldl (fun _ h _ => h.beginTeardown)
  have h2 : s₀.Reaches s2 := h1.foldl (fun _ h _ => h.setFld.clearDomain)
  have h3 : s₀.Reaches s3 := h2.clearModule
  have h4 : s₀.Reaches s4 := h3.emptied
  clear_value s4
  exact h4.setFldModReset.send

theorem latchStraps {v} (h : s₀.Reaches s) : s₀.Reaches (s.latchStraps v) := by
  unfold State.latchStraps
  extract_lets put s1 s2
  have hput : ∀ (f : Field) (hi lo : ℕ) (s : State), s₀.Reaches s → s₀.Reaches (put f hi lo s) := fun _ _ _ _ h => h.setFld
  have h1 : s₀.Reaches s1 := hput _ _ _ _ (hput _ _ _ _ (hput _ _ _ _ (hput _ _ _ _ h)))
  have h2 : s₀.Reaches s2 := hput _ _ _ _ (hput _ _ _ _ (hput _ _ _ _ h1))
  exact hput _ _ _ _ (hput _ _ _ _ h2)

theorem execAuxPowerUp {straps sigs tftp} (h : s₀.Reaches s) : Res.From s₀ (execAuxPowerUp straps sigs tftp s) := by
  unfold Machine.execAuxPowerUp
  refine .next ?_
  split
  · exact h
  · extract_lets _ s1 s2 _
    have h1 : s₀.Reaches s1 := h.setPower.latchStraps.newNonce
    have h2 : s₀.Reaches s2 := .ite h1.setFld.setFld h1
    split
    exacts [h2.setFirm, h2.romRecover, h2.setFirm, h2.romSpi]

theorem execRailPowerUp {feedA feedB present bad} (h : s₀.Reaches s) : Res.From s₀ (execRailPowerUp feedA feedB present bad s) :=
  .next (.ite h (Reaches.ite (h.setFld.setFld.setFld.setFld.send.foldl (fun _ h _ => h.trainStack)).loadKeeper.setRack.nvmeCmd
    (h.setFld.setFld.setFld.setFld.send.foldl (fun _ h _ => h.trainStack)).loadKeeper.setRack).setFld.setKp)

theorem execPowerEnFall (h : s₀.Reaches s) : Res.From s₀ (execPowerEnFall s) := .next (.ite h.setFld.railsOff h.setFld)

theorem execFeedDisconnect {b} (h : s₀.Reaches s) : Res.From s₀ (execFeedDisconnect b s) := by
  unfold Machine.execFeedDisconnect
  extract_lets _ _ s1
  have h1 : s₀.Reaches s1 := h.setFld.bump.sensorEvent
  exact .next (.ite h (.ite h1 h1.railsOff.setFld.faultRec.rackFail))

theorem execFeedReconnect {b} (h : s₀.Reaches s) : Res.From s₀ (execFeedReconnect b s) := .next h.setFld

theorem execAuxLoss (h : s₀.Reaches s) : Res.From s₀ (execAuxLoss s) := by
  unfold Machine.execAuxLoss
  extract_lets _ _ _ _ _ s1 still s2 s3
  have h1 : s₀.Reaches s1 := h.trans ⟨fun _ => State.reset_canonical, fun _ => Nat.le_refl _, rfl, List.prefix_rfl, Nat.le_refl _⟩
  have hstill : ∀ (f : Field) (u : ℕ) (t : State), s₀.Reaches t → s₀.Reaches (still f u t) := fun _ _ _ h => h.setFld
  have h2 : s₀.Reaches s2 := hstill _ _ _ (hstill _ _ _ h1)
  have h3 : s₀.Reaches s3 := h2.foldl (fun _ h _ => hstill _ _ _ (hstill _ _ _ h))
  exact .next h3.setFld.send.send

theorem execThermalTrip (h : s₀.Reaches s) : Res.From s₀ (execThermalTrip s) := .next (.ite h h.railsOff.setPower.send.bump.setFld.faultRec)

theorem execThermTripRelease (h : s₀.Reaches s) : Res.From s₀ (execThermTripRelease s) := .next (.ite h.setPower.send h)

theorem execCoolantAlarm {inlet outlet flow long} (h : s₀.Reaches s) : Res.From s₀ (execCoolantAlarm inlet outlet flow long s) := by
  unfold Machine.execCoolantAlarm
  extract_lets _ s1 _ s2 _
  have h1 : s₀.Reaches s1 := h.setPower
  have h2 : s₀.Reaches s2 := .ite h1.envLapse h1
  exact .next (.ite h2.railsOff h2)

theorem execSensorWarning {id on low} (h : s₀.Reaches s) : Res.From s₀ (execSensorWarning id on low s) := by
  unfold Machine.execSensorWarning
  extract_lets s1 _ _
  have h1 : s₀.Reaches s1 := h.sensorEvent
  exact .next (.ite h (.ite h1.setPower h1))

theorem execGovernorPeriod {p t sets} (h : s₀.Reaches s) : Res.From s₀ (execGovernorPeriod p t sets s) := by
  unfold Machine.execGovernorPeriod
  extract_lets _ _ _ s1 _ s2 volt s3 _ s4
  have h1 : s₀.Reaches s1 := h.setFld.setFld.setFld
  have h2 : s₀.Reaches s2 := h1.setPower
  have hvolt : s₀.Reaches volt := h2.foldl (fun _ h _ => .ite h.setFld.setFld h)
  have h3 : s₀.Reaches s3 := .ite hvolt (hvolt.planChange (fun _ h => h.foldl (fun _ h _ => h.runSteps)))
  have h4 : s₀.Reaches s4 := .ite h3.bump h3
  exact .next (.ite h4.envLapse h4)

theorem execPwrCfgWrite {ag v} (h : s₀.Reaches s) : Res.From s₀ (execPwrCfgWrite ag v s) :=
  .next (.ite h.reply (h.regWrite (fun _ h => .ite (Reaches.ite h.setFld.setFld h.setFld).setFld (.ite h.setFld.setFld h.setFld))))

/-! ### Sys2Proof/Machine/Trellis.lean -/

theorem dealAt {w a n} (h : s₀.Reaches s) : s₀.Reaches (s.dealAt w a n).2 := by
  unfold State.dealAt
  split
  · exact h.writeVia
  · split
    · extract_lets _ r
      have hr : s₀.Reaches r.2 := h.memFe
      exact hr
    · next e => exact h.reach.of_refused e
    · exact h
  · split
    · exact h.wakeNotify
    · exact h.wakeNotify
    · exact h
    · next e => exact h.reach.of_refused e
    · exact h

theorem leave {n p} (h : s₀.Reaches s) : s₀.Reaches (s.leave n p) := by
  unfold State.leave
  extract_lets _ _ again
  have hagain : ∀ (d : Option Deal), s₀.Reaches (again d) := fun _ => h.setRtr.send
  split
  · exact h.send
  · split
    · extract_lets _ x
      have hx : s₀.Reaches x.2 := h.send.dealAt
      exact .ite (hagain _) hx.dealAck
    · exact .ite (hagain _) (.ite h.send (.ite h.boundaryCount h.boundaryCount.reply))

theorem grant {n o} (h : s₀.Reaches s) : s₀.Reaches (s.grant n o) := by
  unfold State.grant
  extract_lets _ _
  split
  · exact h
  · extract_lets _ _ _ s1
    have h1 : s₀.Reaches s1 := .ite h.setRtr.bump h.setRtr
    exact h1.foldl (fun _ h _ => .ite h.leave h.send)

theorem bufferIn {n i p} (h : s₀.Reaches s) : s₀.Reaches (s.bufferIn n i p) := h.setRtr.foldl (fun _ h _ => h.grant)

theorem combine {n i p x0} (h : s₀.Reaches s) : s₀.Reaches (s.combine n i p x0) := by
  unfold State.combine
  extract_lets _ _ _
  split
  exacts [h.setRtr.bump.bufferIn, .ite h.setRtr h.bufferIn]

theorem asleep {g p} (h : s₀.Reaches s) : s₀.Reaches (s.asleep g p) := by
  unfold State.asleep
  extract_lets s1
  have h1 : s₀.Reaches s1 := h.bump
  split
  exacts [h1.dealAck, h1.reply]

theorem proxy {n p} (h : s₀.Reaches s) : s₀.Reaches (s.proxy n p) := by
  unfold State.proxy
  extract_lets _ _ _ _
  split
  exacts [h.bump, h.bump.potAnswer, .ite h.setRtr.bump.setFld h.asleep]

theorem bound {n p} (h : s₀.Reaches s) : s₀.Reaches (s.bound n p) := .ite h.bump h.bump.turnBack

theorem enterRouter {n i p} (h : s₀.Reaches s) : s₀.Reaches (s.enterRouter n i p) := by
  unfold State.enterRouter
  extract_lets _ _
  split
  · exact h
  · split
    · exact h.bound
    · split
      · exact h.proxy
      · split
        exacts [.ite h.bufferIn h.combine, h.bufferIn]

theorem execRouterPacketArrive {n from_ p} (h : s₀.Reaches s) : Res.From s₀ (execRouterPacketArrive n from_ p s) := by
  unfold Machine.execRouterPacketArrive
  refine .next ?_
  split
  · exact h
  · extract_lets _
    split
    exacts [.ite h.setRtr.enterRouter h, h.enterRouter]

theorem execFlitCrcError {n port} (h : s₀.Reaches s) : Res.From s₀ (execFlitCrcError n port s) := by
  unfold Machine.execFlitCrcError
  refine .next ?_
  split
  · exact h
  · extract_lets s1
    have h1 : s₀.Reaches s1 := by
      unfold s1
      split
      exacts [h.bump, h.bump, h.bump, h.bump]
    exact h1.foldl (fun _ h _ => h.send)

theorem execPotCombinerTimeout {n id} (h : s₀.Reaches s) : Res.From s₀ (execPotCombinerTimeout n id s) := by
  unfold Machine.execPotCombinerTimeout
  extract_lets _
  refine .next ?_
  split
  exacts [h, .ite h h.setRtr.bufferIn]

theorem setMeter {n i m} (h : s₀.Reaches s) : s₀.Reaches (s.setMeter n i m) := h.setRtr

theorem release {n i cls resp now f} (h : s₀.Reaches s) : s₀.Reaches (s.release n i cls resp now f) := by
  induction f generalizing s with
  | zero => exact h
  | succ f ih =>
    unfold State.release
    split
    exacts [h, .ite (ih h.setMeter.enterRouter) h]

theorem units {n p} (h : s₀.Reaches s) : s₀.Reaches (s.units n p).2 := by
  unfold State.units
  split
  · extract_lets _ _ _ _ _
    split
    · exact h.reply
    · split
      exacts [h.reply, h.same]
  · exact h

theorem execInjectionRelease {n p now} (h : s₀.Reaches s) : Res.From s₀ (execInjectionRelease n p now s) := by
  unfold Machine.execInjectionRelease
  extract_lets _ _ x _ s1 s2 _
  have hx : s₀.Reaches x.2 := by
    unfold x
    split
    exacts [h, h.units]
  have h1 : s₀.Reaches s1 := hx.setMeter
  have h2 : s₀.Reaches s2 := h1.release
  exact .next (.ite h (.ite h2 (.ite h2.bump h2.bump)))

theorem freeProxied {p h' ok} (h : s₀.Reaches s) : s₀.Reaches (s.freeProxied p h' ok) := by
  unfold State.freeProxied
  extract_lets _
  exact h.foldl (fun _ h _ => (Reaches.ite h h.setRtr).foldl (fun _ h _ => .ite h.bufferIn h.asleep))

theorem execHalfWakeDone {p east ok} (h : s₀.Reaches s) : Res.From s₀ (execHalfWakeDone p east ok s) := by
  unfold Machine.execHalfWakeDone
  extract_lets _
  exact .next (.ite h (.ite h.zeroHalf.setFld.runSteps.freeProxied h.setFld.freeProxied))

theorem withRoutes {entries} (h : s₀.Reaches s) : s₀.Reaches (s.withRoutes entries) := h.foldl (fun _ h _ => h.setReg)

theorem reroute (h : s₀.Reaches s) : s₀.Reaches s.reroute := .ite h (h.withRoutes.setKpOf (s.withRoutes_kp _))

theorem execRouteChange {entries} (h : s₀.Reaches s) : Res.From s₀ (execRouteChange entries s) := .next (.ite h.setKp.reroute h)

theorem tickRouters (h : s₀.Reaches s) : s₀.Reaches s.tickRouters := h.reroute.foldl (fun _ h _ => h.foldl (fun _ h _ => h.grant))

end State.Reaches
end Sys2Proof.Machine
end

section
/-! SUPPORT for O59. What operations keep: every command and every step. -/
namespace Sys2Proof.Machine
namespace State.Reaches

variable {s₀ s u : State}

-- One thread elaborates these theorems: many at once hold many stacks.
set_option Elab.async false

/-! ### Sys2Proof/Machine/Dispatch.lean -/

/-- Every command answers a next state that such operations reach. -/
theorem exec {i} (h : s₀.Reaches s) : Res.From s₀ (Machine.exec i s) := by
  cases i with
  | intAddSub => exact h.execIntAddSub | intLogic => exact h.execIntLogic | intShift => exact h.execIntShift | mul => exact h.execMul
  | mulh => exact h.execMulh | div => exact h.execDiv | rem => exact h.execRem | cmp => exact h.execCmp | predLogic => exact h.execPredLogic
  | pnot => exact h.execPnot | pset => exact h.execPset | addi => exact h.execAddi | logicImm => exact h.execLogicImm
  | shiftImm => exact h.execShiftImm | cmpImm => exact h.execCmpImm | lui => exact h.execLui | luh => exact h.execLuh | ld => exact h.execLd
  | ldw => exact h.execLdw | ldb => exact h.execLdb | st => exact h.execSt | stw => exact h.execStw | stb => exact h.execStb
  | aadd => exact h.execAadd | amin => exact h.execAmin | amax => exact h.execAmax | aswap => exact h.execAswap | acas => exact h.execAcas
  | ldfe => exact h.execLdfe | ldff => exact h.execLdff | stfe => exact h.execStfe | stf => exact h.execStf | sete => exact h.execSete
  | mbLoad => exact h.execMbLoad | paddX => exact h.execPaddX | paddT => exact h.execPaddT | paddF => exact h.execPaddF | wrf => exact h.execWrf
  | mbrd => exact h.execMbrd | mbtst => exact h.execMbtst | mbwait => exact h.execMbwait | mbset => exact h.execMbset | cflush => exact h.execCflush
  | cinv => exact h.execCinv | cflinv => exact h.execCflinv | cinvAll => exact h.execCinvAll | preload => exact h.execPreload
  | clock => exact h.execClock | cunlock => exact h.execCunlock | pref => exact h.execPref | b => exact h.execB | call => exact h.execCall
  | jr => exact h.execJr | callr => exact h.execCallr | ret => exact h.execRet | loop => exact h.execLoop | gets => exact h.execGets
  | sets => exact h.execSets | trap => exact h.execTrap | rfe => exact h.execRfe | isync => exact h.execIsync | setm => exact h.execSetm
  | tstart => exact h.execTstart | tstop => exact h.execTstop | tset => exact h.execTset | lcrd => exact h.execLcrd | lcwr => exact h.execLcwr
  | rspill => exact h.execRspill | rsfill => exact h.execRsfill | sleep => exact h.execSleep | waitf => exact h.execWaitf
  | waken => exact h.execWaken | fence => exact h.execFence | pairIssue => exact h.execPairIssue | vintArith => exact h.execVintArith
  | vlogic => exact h.execVlogic | vfloat => exact h.execVfloat | vcmp => exact h.execVcmp | vanyVall => exact h.execVanyVall
  | vspecial => exact h.execVspecial | vcvt => exact h.execVcvt | vmove => exact h.execVmove | vpermRot => exact h.execVpermRot
  | vext => exact h.execVext | vreduce => exact h.execVreduce | vld => exact h.execVld | vst => exact h.execVst | tcfg => exact h.execTcfg
  | tld => exact h.execTld | tldR => exact h.execTldR | tst => exact h.execTst | tldq => exact h.execTldq | tmovv => exact h.execTmovv
  | tmovt => exact h.execTmovt | tscl => exact h.execTscl | tsclw => exact h.execTsclw | trel => exact h.execTrel | mma => exact h.execMma
  | acvt => exact h.execAcvt | azero => exact h.execAzero | astx => exact h.execAstx | aldx => exact h.execAldx | aldxAdd => exact h.execAldxAdd
  | msync => exact h.execMsync | loadReply => exact h.execLoadReply | mailboxReply => exact h.execMailboxReply | feReply => exact h.execFeReply
  | writeAck => exact h.execWriteAck | releaseDepart => exact h.execReleaseDepart | cacheFillLand => exact h.execCacheFillLand
  | prefLand => exact h.execPrefLand | writebackAck => exact h.execWritebackAck | tileRowRequest => exact h.execTileRowRequest
  | tileRowLand => exact h.execTileRowLand | tileRowAck => exact h.execTileRowAck | matrixEntryStart => exact h.execMatrixEntryStart
  | matrixEntryComplete => exact h.execMatrixEntryComplete | imageAccessComplete => exact h.execImageAccessComplete
  | shadowCheckArm => exact h.execShadowCheckArm | shadowCheckDone => exact h.execShadowCheckDone | threadSuspend => exact h.execThreadSuspend
  | threadFaultTaken => exact h.execThreadFaultTaken | interruptTaken => exact h.execInterruptTaken | timerFire => exact h.execTimerFire
  | stalemate => exact h.execStalemate | waitTimeout => exact h.execWaitTimeout | scopeMismatchTaken => exact h.execScopeMismatchTaken
  | wakeNotifyArrive => exact h.execWakeNotifyArrive | watchWakeArrive => exact h.execWatchWakeArrive
  | watchPollExpiry => exact h.execWatchPollExpiry | kmsgArrive => exact h.execKmsgArrive | bankReadRequest => exact h.execBankReadRequest
  | bankWriteRequest => exact h.execBankWriteRequest | bankAtomicRequest => exact h.execBankAtomicRequest
  | bankFeRequest => exact h.execBankFeRequest | watchDisarm => exact h.execWatchDisarm | bankNetReserve => exact h.execBankNetReserve
  | correctionWriteback => exact h.execCorrectionWriteback | imemPtrWrite => exact h.execImemPtrWrite | imemDataWrite => exact h.execImemDataWrite
  | threadCtlStop => exact h.execThreadCtlStop | threadCtlStart => exact h.execThreadCtlStart | swiRaise => exact h.execSwiRaise
  | poisonClr => exact h.execPoisonClr | tagDataRead => exact h.execTagDataRead | tagDataWrite => exact h.execTagDataWrite
  | tclassWrite => exact h.execTclassWrite | potHoldWrite => exact h.execPotHoldWrite | potOpen => exact h.execPotOpen
  | potCancel => exact h.execPotCancel | kexit => exact h.execKexit | wdogKick => exact h.execWdogKick | wdogCtlWrite => exact h.execWdogCtlWrite
  | sendData => exact h.execSendData | sendCommit => exact h.execSendCommit | sendAck => exact h.execSendAck | dmacGo => exact h.execDmacGo
  | moduleIdWrite => exact h.execModuleIdWrite | registerWrite => exact h.execRegisterWrite | routerPacketArrive => exact h.execRouterPacketArrive
  | flitCrcError => exact h.execFlitCrcError | injectionRelease => exact h.execInjectionRelease
  | potCombinerTimeout => exact h.execPotCombinerTimeout | potContributionArrive => exact h.execPotContributionArrive
  | halfWakeDone => exact h.execHalfWakeDone | classArbWrite => exact h.execClassArbWrite | lbPublish => exact h.execLbPublish
  | routeChange => exact h.execRouteChange | dmaDoorbell => exact h.execDmaDoorbell | dmaCtlGo => exact h.execDmaCtlGo
  | dmaCtlStop => exact h.execDmaCtlStop | dmaRingWrite => exact h.execDmaRingWrite | dmaEventSet => exact h.execDmaEventSet
  | dmaDescFetched => exact h.execDmaDescFetched | dmaProgramFetch => exact h.execDmaProgramFetch | dmaMove => exact h.execDmaMove
  | dmaLoop => exact h.execDmaLoop | dmaEndl => exact h.execDmaEndl | dmaWaitWord => exact h.execDmaWaitWord
  | dmaWaitEvents => exact h.execDmaWaitEvents | dmaSignalFill => exact h.execDmaSignalFill | dmaSignalAdd => exact h.execDmaSignalAdd
  | dmaSignalPost => exact h.execDmaSignalPost | dmaSignalEvent => exact h.execDmaSignalEvent | dmaHashBegin => exact h.execDmaHashBegin
  | dmaHashPause => exact h.execDmaHashPause | dmaHashResume => exact h.execDmaHashResume | dmaHashFinal => exact h.execDmaHashFinal
  | dmaEnd => exact h.execDmaEnd | dmaReply => exact h.execDmaReply | dmaRetry => exact h.execDmaRetry
  | dmaReplyTimeout => exact h.execDmaReplyTimeout | dmaWaitTimeout => exact h.execDmaWaitTimeout | dmaCompletion => exact h.execDmaCompletion
  | fabDealResend => exact h.execFabDealResend | hbmAccess => exact h.execHbmAccess | hbmPowerDown => exact h.execHbmPowerDown
  | tuLookup => exact h.execTuLookup | tuLookupReply => exact h.execTuLookupReply | tuHoldTimeout => exact h.execTuHoldTimeout
  | tuRangeCommit => exact h.execTuRangeCommit | tuSync => exact h.execTuSync | tuSyncDone => exact h.execTuSyncDone
  | pageRetire => exact h.execPageRetire | pcRetire => exact h.execPcRetire | hbmPageZeroise => exact h.execHbmPageZeroise
  | portEnable => exact h.execPortEnable | portTrainingDone => exact h.execPortTrainingDone | portInitFrame => exact h.execPortInitFrame
  | portUpTimeout => exact h.execPortUpTimeout | linkDataFrame => exact h.execLinkDataFrame | linkCtrlFrame => exact h.execLinkCtrlFrame
  | linkAckTimeout => exact h.execLinkAckTimeout | creditReturnTimer => exact h.execCreditReturnTimer
  | routedFrameReceive => exact h.execRoutedFrameReceive | transportRetransmit => exact h.execTransportRetransmit
  | connectionIdleClose => exact h.execConnectionIdleClose | connectionOpenRetry => exact h.execConnectionOpenRetry
  | aelxRead => exact h.execAelxRead | aelxWrite => exact h.execAelxWrite | aelxWriteFinal => exact h.execAelxWriteFinal
  | aelxDealWrite => exact h.execAelxDealWrite | aelxAtomic => exact h.execAelxAtomic | aelxAcas => exact h.execAelxAcas
  | aelxFeLoad => exact h.execAelxFeLoad | aelxFeStore => exact h.execAelxFeStore | aelxPot => exact h.execAelxPot | aelxWake => exact h.execAelxWake
  | aelxKctl => exact h.execAelxKctl | aelxAck => exact h.execAelxAck | aelxReadResp => exact h.execAelxReadResp
  | aelxAtomicResp => exact h.execAelxAtomicResp | aelxFeResp => exact h.execAelxFeResp | aelxFeArmed => exact h.execAelxFeArmed
  | aelxDealNak => exact h.execAelxDealNak | fabAdmitTimeout => exact h.execFabAdmitTimeout | wrfHoldTimeout => exact h.execWrfHoldTimeout
  | fabPotCombinerTimeout => exact h.execFabPotCombinerTimeout | ptpEventMessage => exact h.execPtpEventMessage
  | aelxKeyUpdate => exact h.execAelxKeyUpdate | bar4Read => exact h.execBar4Read | bar4Write => exact h.execBar4Write
  | sqTailDoorbell => exact h.execSqTailDoorbell | cqHeadDoorbell => exact h.execCqHeadDoorbell | qpEnable => exact h.execQpEnable
  | qpReset => exact h.execQpReset | cqPost => exact h.execCqPost | funcWinWrite => exact h.execFuncWinWrite | flr => exact h.execFlr
  | linkDown => exact h.execLinkDown | perstAssert => exact h.execPerstAssert | perstDeassert => exact h.execPerstDeassert
  | configRequest => exact h.execConfigRequest | atsInvalidation => exact h.execAtsInvalidation | sqFetch => exact h.execSqFetch
  | ringAccessRetry => exact h.execRingAccessRetry | stepGrant => exact h.execStepGrant | stepEnd => exact h.execStepEnd
  | admitTimeout => exact h.execAdmitTimeout | msixCoalTimer => exact h.execMsixCoalTimer | nop => exact h.execNop | identify => exact h.execIdentify
  | getLog => exact h.execGetLog | cmdCancel => exact h.execCmdCancel | launch => exact h.execLaunch | launchTimeout => exact h.execLaunchTimeout
  | cmdSignal => exact h.execCmdSignal | copy => exact h.execCopy | loadCode => exact h.execLoadCode | poolAlloc => exact h.execPoolAlloc
  | poolFree => exact h.execPoolFree | poolMove => exact h.execPoolMove | zeroise => exact h.execZeroise
  | contextTeardown => exact h.execContextTeardown | rack => exact h.execRack | restore => exact h.execRestore | loadImage => exact h.execLoadImage
  | switchProfile => exact h.execSwitchProfile | selfTest => exact h.execSelfTest | scrub => exact h.execScrub
  | admitCfgWrite => exact h.execAdmitCfgWrite | admitPlotWrite => exact h.execAdmitPlotWrite | fullImageApply => exact h.execFullImageApply
  | stagedModuleReset => exact h.execStagedModuleReset | rebindResetRecovery => exact h.execRebindResetRecovery
  | profileLoadEdge => exact h.execProfileLoadEdge | strapPinChange => exact h.execStrapPinChange | srvSubmit => exact h.execSrvSubmit
  | srvCancel => exact h.execSrvCancel | srvModel => exact h.execSrvModel | srvToktab => exact h.execSrvToktab | srvUnload => exact h.execSrvUnload
  | srvPolicy => exact h.execSrvPolicy | servingStepStart => exact h.execServingStepStart | memberStepOrder => exact h.execMemberStepOrder
  | memberStepReport => exact h.execMemberStepReport | servingKernelEnd => exact h.execServingKernelEnd
  | servingStepTimeout => exact h.execServingStepTimeout | srvAdmitTimeout => exact h.execSrvAdmitTimeout | promptEncode => exact h.execPromptEncode
  | watchdogExpiry => exact h.execWatchdogExpiry | faultRecordFlashCopy => exact h.execFaultRecordFlashCopy | scrubAccess => exact h.execScrubAccess
  | scrubLapse => exact h.execScrubLapse | blockTest => exact h.execBlockTest | blockTestOverdue => exact h.execBlockTestOverdue
  | liveGraft =>
    unfold Machine.exec
    exact h.execLiveGraft
  | coldGraft =>
    unfold Machine.exec
    exact h.execColdGraft
  | rowColGraft => exact h.execRowColGraft
  | laneGraft => exact h.execLaneGraft | routerFence => exact h.execRouterFence | ageReplan => exact h.execAgeReplan
  | ageAlarm => exact h.execAgeAlarm | laneReadapt => exact h.execLaneReadapt | clockIslandFail => exact h.execClockIslandFail
  | railFault => exact h.execRailFault | phaseFailure => exact h.execPhaseFailure | stewardMismatch => exact h.execStewardMismatch
  | ringStopFail => exact h.execRingStopFail | resetReqGo => exact h.execResetReqGo | drainEnd => exact h.execDrainEnd
  | resetRelease => exact h.execResetRelease | modResetGo => exact h.execModResetGo | modResetPin => exact h.execModResetPin
  | teardownHorizon => exact h.execTeardownHorizon | hangDetect => exact h.execHangDetect | hangReplay => exact h.execHangReplay
  | hangReplayEnd => exact h.execHangReplayEnd | crashDump => exact h.execCrashDump | sidePathTimeout => exact h.execSidePathTimeout
  | dumpCtlGo => exact h.execDumpCtlGo | restoreVerifyArrive => exact h.execRestoreVerifyArrive
  | restoreVerifyTimeout => exact h.execRestoreVerifyTimeout | nvmeCompletion => exact h.execNvmeCompletion
  | nvmeOvercurrent => exact h.execNvmeOvercurrent | ptpSync => exact h.execPtpSync | ppsInEdge => exact h.execPpsInEdge
  | servoHoldover => exact h.execServoHoldover | ref10Loss => exact h.execRef10Loss | ppsSecondBoundary => exact h.execPpsSecondBoundary
  | timeCfgWrite => exact h.execTimeCfgWrite | timeSet => exact h.execTimeSet | mctpControl => exact h.execMctpControl
  | kmpDatagram => exact h.execKmpDatagram | spdmMessage => exact h.execSpdmMessage | getInfo => exact h.execGetInfo
  | setModuleId => exact h.execSetModuleId | setRackLoc => exact h.execSetRackLoc | partnerRegister => exact h.execPartnerRegister
  | nameSuccessor => exact h.execNameSuccessor | setModmap => exact h.execSetModmap | setFabric => exact h.execSetFabric
  | dumpMessage => exact h.execDumpMessage | commitSvn => exact h.execCommitSvn | fwConfirm => exact h.execFwConfirm
  | setOwnerRoot => exact h.execSetOwnerRoot | setMgmtAddr => exact h.execSetMgmtAddr | timeSetMessage => exact h.execTimeSetMessage
  | getTid => exact h.execGetTid | setTid => exact h.execSetTid | getPldmVersion => exact h.execGetPldmVersion
  | getPldmTypes => exact h.execGetPldmTypes | getPldmCommands => exact h.execGetPldmCommands
  | getPdrRepositoryInfo => exact h.execGetPdrRepositoryInfo | getPdr => exact h.execGetPdr | getSensorReading => exact h.execGetSensorReading
  | getStateSensorReadings => exact h.execGetStateSensorReadings | setEventReceiver => exact h.execSetEventReceiver
  | pollForPlatformEventMessage => exact h.execPollForPlatformEventMessage | setNumericSensorEnable => exact h.execSetNumericSensorEnable
  | queryDeviceIdentifiers => exact h.execQueryDeviceIdentifiers | getFirmwareParameters => exact h.execGetFirmwareParameters
  | requestUpdate => exact h.execRequestUpdate | passComponentTable => exact h.execPassComponentTable
  | updateComponent => exact h.execUpdateComponent | firmwareDataReceived => exact h.execFirmwareDataReceived
  | activateFirmware => exact h.execActivateFirmware | getStatus => exact h.execGetStatus
  | cancelUpdateComponent => exact h.execCancelUpdateComponent | cancelUpdate => exact h.execCancelUpdate | fwTakeover => exact h.execFwTakeover
  | trialAutoConfirm => exact h.execTrialAutoConfirm | fwRecoveryWrite => exact h.execFwRecoveryWrite
  | recoveryBootTimeout => exact h.execRecoveryBootTimeout | loopbackStart => exact h.execLoopbackStart | loopbackStop => exact h.execLoopbackStop
  | loopbackStep => exact h.execLoopbackStep | rtrTurnTbWrite => exact h.execRtrTurnTbWrite | turnBackStart => exact h.execTurnBackStart
  | turnBackFlitReturn => exact h.execTurnBackFlitReturn | turnBackTimeout => exact h.execTurnBackTimeout | idcode => exact h.execIdcode
  | bypass => exact h.execBypass | samplePreload => exact h.execSamplePreload | extest => exact h.execExtest | dbgAccess => exact h.execDbgAccess
  | scan => exact h.execScan | mbist => exact h.execMbist | hbm1500 => exact h.execHbm1500 | debugUnlock => exact h.execDebugUnlock
  | dbgLockWrite => exact h.execDbgLockWrite | dbgHalt => exact h.execDbgHalt | threadHalt => exact h.execThreadHalt
  | dbgResume => exact h.execDbgResume | dbgStep => exact h.execDbgStep | dbgDiscard => exact h.execDbgDiscard
  | chanHoldExpiry => exact h.execChanHoldExpiry | auxPowerUp => exact h.execAuxPowerUp | railPowerUp => exact h.execRailPowerUp
  | powerEnFall => exact h.execPowerEnFall | feedDisconnect => exact h.execFeedDisconnect | feedReconnect => exact h.execFeedReconnect
  | auxLoss => exact h.execAuxLoss | thermalTrip => exact h.execThermalTrip | coolantAlarm => exact h.execCoolantAlarm
  | governorPeriod => exact h.execGovernorPeriod | pwrCfgWrite => exact h.execPwrCfgWrite | fabricLaneFail => exact h.execFabricLaneFail
  | pcieLinkTrained => exact h.execPcieLinkTrained | windowReadTimeout => exact h.execWindowReadTimeout | pcieLoopback => exact h.execPcieLoopback
  | thermTripRelease => exact h.execThermTripRelease | ref10Lock => exact h.execRef10Lock | ptpAnnounce => exact h.execPtpAnnounce
  | arpNeighbourSolicitation => exact h.execArpNeighbourSolicitation | sensorWarning => exact h.execSensorWarning

/-! ### Sys2Proof/Machine/Tick.lean -/

theorem reservedWord {c t w detail} (h : s₀.Reaches s) : Res.From s₀ (s.reservedWord c t w detail) := h.word (fun _ h => .done h)

theorem issueNext {c t} (h : s₀.Reaches s) : Res.From s₀ (s.issueNext c t) := by
  unfold State.issueNext
  extract_lets _ _
  split
  exacts [h.exec, h.reservedWord]

theorem cycleCore {c} (h : s₀.Reaches s) : Res.From s₀ (s.cycleCore c) := by
  unfold State.cycleCore
  split
  · exact .next h
  · split
    · split
      exacts [h.issueNext, .next h]
    · exact .next h.passTo

theorem cycleAll {l} (h : s₀.Reaches s) : Res.From s₀ (s.cycleAll l) := by
  induction l generalizing s with
  | nil => exact .next h
  | cons c l ih =>
    unfold State.cycleAll
    split
    · next small =>
      obtain ⟨u, hu, e⟩ := (h.cycleCore (c := ⟨c, small⟩)).answer
      simp only [e]
      exact ih hu
    · exact ih h

theorem tick (h : s₀.Reaches s) : Res.From s₀ s.tick := h.tickRouters.cycleAll

end State.Reaches

/-- A step answers a next state that the operations reach from the state without the command it takes. -/
theorem State.step_reaches (s : State) : Res.From { s with pending := s.pending.tail } (step s) := by
  unfold step
  split
  · next none =>
    have same : { s with pending := s.pending.tail } = s := by rw [none, List.tail_nil, ← none]
    rw [same]
    exact (Reaches.refl s).tick
  · next c rest some =>
    rw [some, List.tail_cons]
    exact (Reaches.refl _).exec

/-- Settles O59: every operation of the model keeps the relation `State.Reaches`, so every command and every cycle does. -/
theorem stepKeepsTheInvariant : Obligations.StepKeepsTheInvariant := by
  unfold Obligations.StepKeepsTheInvariant
  intro s t canonical packed stepped
  obtain ⟨u, reached, answer⟩ := s.step_reaches.answer
  obtain rfl : u = t := Host.Outcome.next.inj (answer.symm.trans stepped)
  exact ⟨reached.canonical canonical, reached.packed packed⟩

end Sys2Proof.Machine
end
